-- ==== Sys2Proof/Word.lean ====
section
/-! DEFINITION. The word types (R5): a byte, a 64-bit register value and a 57-bit address as the manual uses them. -/

namespace Sys2Proof

/-- A byte. -/
abbrev Byte := BitVec 8

/-- A 64-bit register value. -/
abbrev Word := BitVec 64

end Sys2Proof
end

