-- ==== Sys2Proof/Syntax.lean ====
section
/-! DEFINITION. The instruction set: one constructor of `Instr` per row of spec/opcode_table.json. The rows with an
encoding carry their operand fields (R94 to R109); the rows without one are the steps of the device's own agents, of the
host and of the environment, and carry what that step needs to be named. -/

namespace Sys2Proof

/-- A source operand code (R96). -/
inductive Src where
  | v (n : BitVec 6)
  | s (n : BitVec 5)
  | l (n : BitVec 2)
  | zero
  | lane
  | crew
  | ones
  deriving DecidableEq, Repr

/-- A register operand, of the vector or the uniform class. -/
def Src.isReg : Src → Bool
  | .v _ => true
  | .s _ => true
  | .l _ => false
  | .zero => false
  | .lane => false
  | .crew => false
  | .ones => false

/-- A vector-register operand, codes 0 to 63 (R169). -/
def Src.isVec : Src → Bool
  | .v _ => true
  | .s _ => false
  | .l _ => false
  | .zero => false
  | .lane => false
  | .crew => false
  | .ones => false

/-- A lane-independent operand, codes 64 to 95, 100, 102 and 103 (R145). -/
def Src.uniform : Src → Bool
  | .v _ => false
  | .s _ => true
  | .l _ => false
  | .zero => true
  | .lane => false
  | .crew => true
  | .ones => true

/-- COND of format C (R94, R156). -/
inductive Cond where
  | eq | ne | lt | le | ltu | leu | unord | ord
  deriving DecidableEq, Repr

/-- Format A with a vector destination (R94, R145). -/
structure OpA where
  b : Src
  a : Src
  d : BitVec 6
  k : Bool
  g : BitVec 3
  deriving DecidableEq, Repr

/-- Format I with an immediate (R94, R97). -/
structure OpI where
  imm : BitVec 7
  a : Src
  d : BitVec 6
  k : Bool
  g : BitVec 3
  deriving DecidableEq, Repr

/-- Format I without a source: A is 100 (R150). -/
structure OpMov where
  imm : BitVec 7
  d : BitVec 6
  k : Bool
  g : BitVec 3
  deriving DecidableEq, Repr

/-- Format A or I whose B (I7) field is fixed: 100 or a BITU selector (R97, R151). -/
structure OpA1 where
  a : Src
  d : BitVec 6
  k : Bool
  g : BitVec 3
  deriving DecidableEq, Repr

/-- FCLASS: I7 selects the format (R154). -/
structure OpCls where
  fmt : BitVec 2
  a : Src
  d : BitVec 6
  k : Bool
  g : BitVec 3
  deriving DecidableEq, Repr

/-- Format C, a compare (R94, R157). -/
structure OpC where
  b : Src
  a : Src
  p : BitVec 4
  j : Bool
  cond : Cond
  deriving DecidableEq, Repr

/-- ICMPI.D: B holds the immediate (R97). -/
structure OpCI where
  imm : BitVec 7
  a : Src
  p : BitVec 4
  j : Bool
  cond : Cond
  deriving DecidableEq, Repr

/-- Format C naming two source predicates (R95). -/
structure OpP where
  pb : BitVec 4
  pa : BitVec 4
  p : BitVec 4
  j : Bool
  deriving DecidableEq, Repr

/-- PNOT: one source predicate (R95). -/
structure OpP1 where
  pa : BitVec 4
  p : BitVec 4
  j : Bool
  deriving DecidableEq, Repr

/-- PTOV: no source (R159). -/
structure OpD where
  d : BitVec 6
  k : Bool
  g : BitVec 3
  deriving DecidableEq, Repr

/-- VTOP: COND is 0 (R159). -/
structure OpVt where
  b : Src
  a : Src
  p : BitVec 4
  j : Bool
  deriving DecidableEq, Repr

/-- CVT: I7 selects the pair of formats (R162). -/
structure OpCvt where
  sel : BitVec 7
  a : Src
  d : BitVec 6
  g : BitVec 3
  deriving DecidableEq, Repr

/-- Group 5 with two sources; a swap point, so K is 0 (R147). -/
structure Op5 where
  b : Src
  a : Src
  d : BitVec 6
  g : BitVec 3
  deriving DecidableEq, Repr

/-- Group 5 with one source (R166, R167). -/
structure Op51 where
  a : Src
  d : BitVec 6
  g : BitVec 3
  deriving DecidableEq, Repr

/-- VOTE: COND gives the mode (R172). -/
structure OpVote where
  pa : BitVec 4
  p : BitVec 4
  j : Bool
  mode : BitVec 3
  deriving DecidableEq, Repr

/-- Format A with a uniform destination (R94, R176). -/
structure OpU where
  b : Src
  a : Src
  d : BitVec 5
  k : Bool
  g : BitVec 3
  deriving DecidableEq, Repr

/-- Format I with a uniform destination (R176). -/
structure OpUI where
  imm : BitVec 7
  a : Src
  d : BitVec 5
  k : Bool
  g : BitVec 3
  deriving DecidableEq, Repr

/-- UMOVI (R176). -/
structure OpUMov where
  imm : BitVec 7
  d : BitVec 5
  k : Bool
  g : BitVec 3
  deriving DecidableEq, Repr

/-- Format B (R94). -/
structure OpB where
  off : BitVec 21
  g : BitVec 3
  deriving DecidableEq, Repr

/-- BRX, RET, TRACE, PROG: two sources, no destination (R178, R418). -/
structure OpJ where
  b : Src
  a : Src
  g : BitVec 3
  deriving DecidableEq, Repr

/-- A guard alone: D = 0, A = B = 100 (R178). -/
structure OpG where
  g : BitVec 3
  deriving DecidableEq, Repr

/-- One source, unguarded (R178). -/
structure OpS1 where
  a : Src
  deriving DecidableEq, Repr

/-- CVSET: D names the convergence register (R178). -/
structure OpCv where
  a : Src
  cv : BitVec 3
  deriving DecidableEq, Repr

/-- BARA (R178). -/
structure OpBar where
  a : Src
  d : BitVec 5
  k : Bool
  deriving DecidableEq, Repr

/-- BARW (R178). -/
structure OpS2 where
  b : Src
  a : Src
  deriving DecidableEq, Repr

/-- REGION (R178). -/
structure OpRg where
  imm : BitVec 7
  deriving DecidableEq, Repr

/-- TRAP (R178). -/
structure OpTr where
  imm : BitVec 7
  g : BitVec 3
  deriving DecidableEq, Repr

/-- RETT and REGG (R178). -/
structure OpRt where
  a : Src
  d : BitVec 5
  deriving DecidableEq, Repr

/-- Format M with a vector register (R94, R293). -/
structure OpM where
  off : BitVec 7
  a : Src
  d : BitVec 6
  g : BitVec 3
  deriving DecidableEq, Repr

/-- Format M with a uniform register. -/
structure OpMU where
  off : BitVec 7
  a : Src
  d : BitVec 5
  g : BitVec 3
  deriving DecidableEq, Repr

/-- LDA.D and STL.D: a scope in place of the offset (R94). -/
structure OpMS where
  scope : BitVec 2
  a : Src
  d : BitVec 6
  g : BitVec 3
  deriving DecidableEq, Repr

/-- PREF: D holds the level. -/
structure OpPf where
  off : BitVec 7
  a : Src
  lvl : BitVec 2
  g : BitVec 3
  deriving DecidableEq, Repr

/-- FENCE: D holds the scope (R314). -/
structure OpF where
  scope : BitVec 3
  g : BitVec 3
  deriving DecidableEq, Repr

/-- CPY, CPYQ, CPYT, RPUT, RGET: two uniform-register pairs (R331). -/
structure OpCp where
  sb : BitVec 5
  sa : BitVec 5
  d : BitVec 5
  g : BitVec 3
  deriving DecidableEq, Repr

/-- SEAL. -/
structure OpSeal where
  d : BitVec 5
  g : BitVec 3
  deriving DecidableEq, Repr

/-- A uniform destination and one source A. -/
structure OpDA where
  a : Src
  d : BitVec 5
  g : BitVec 3
  deriving DecidableEq, Repr

/-- A uniform destination and two sources. -/
structure OpDU where
  b : Src
  a : Src
  d : BitVec 5
  g : BitVec 3
  deriving DecidableEq, Repr

/-- MSHAPE (R195). -/
structure OpMsh where
  ty : Bool
  cols : BitVec 3
  rows : BitVec 3
  d : BitVec 4
  g : BitVec 3
  deriving DecidableEq, Repr

/-- MLD and MST (R94). -/
structure OpMl where
  xp : Bool
  stride : BitVec 4
  a : Src
  d : BitVec 4
  g : BitVec 3
  deriving DecidableEq, Repr

/-- MMOVV. -/
structure OpMmv where
  dir : Bool
  v : BitVec 6
  j : BitVec 3
  i : BitVec 3
  m : BitVec 4
  g : BitVec 3
  deriving DecidableEq, Repr

/-- MMUL. -/
structure OpMm where
  tb : Bool
  ta : Bool
  b : BitVec 4
  a : BitVec 4
  d : BitVec 4
  g : BitVec 3
  deriving DecidableEq, Repr

/-- MMAC. -/
structure OpMmn where
  neg : Bool
  tb : Bool
  ta : Bool
  b : BitVec 4
  a : BitVec 4
  d : BitVec 4
  g : BitVec 3
  deriving DecidableEq, Repr

/-- MADD. -/
structure OpMad where
  sub : Bool
  b : BitVec 4
  a : BitVec 4
  d : BitVec 4
  g : BitVec 3
  deriving DecidableEq, Repr

/-- Format L, one source matrix. -/
structure OpM2 where
  a : BitVec 4
  d : BitVec 4
  g : BitVec 3
  deriving DecidableEq, Repr

/-- Format L with a vector register. -/
structure OpM2v where
  v : BitVec 6
  a : BitVec 4
  d : BitVec 4
  g : BitVec 3
  deriving DecidableEq, Repr

/-- MSOLC. -/
structure OpMsc where
  mode : BitVec 2
  b : BitVec 4
  a : BitVec 4
  d : BitVec 4
  g : BitVec 3
  deriving DecidableEq, Repr

/-- MSOLL. -/
structure OpM3v where
  v : BitVec 6
  b : BitVec 4
  a : BitVec 4
  d : BitVec 4
  g : BitVec 3
  deriving DecidableEq, Repr

/-- MFLAG. -/
structure OpMfl where
  clr : Bool
  v : BitVec 6
  g : BitVec 3
  deriving DecidableEq, Repr

/-- MIDN. -/
structure OpMid where
  ty : Bool
  n : BitVec 3
  d : BitVec 4
  g : BitVec 3
  deriving DecidableEq, Repr

/-- MMV. -/
structure OpMvv where
  neg : Bool
  acc : Bool
  ta : Bool
  b : BitVec 4
  a : BitVec 4
  d : BitVec 4
  g : BitVec 3
  deriving DecidableEq, Repr

/-- Format T with a tile and a record pointer. -/
structure OpTt where
  w : BitVec 5
  t : BitVec 4
  cv : BitVec 3
  g : BitVec 3
  deriving DecidableEq, Repr

/-- Format T with a record pointer alone. -/
structure OpTw where
  w : BitVec 5
  cv : BitVec 3
  g : BitVec 3
  deriving DecidableEq, Repr

/-- WSWAP. -/
structure OpTc where
  cv : BitVec 3
  g : BitVec 3
  deriving DecidableEq, Repr

/-- Format T with a tile and an accumulator. -/
structure OpTa where
  w : BitVec 5
  t : BitVec 4
  ad : BitVec 6
  cv : BitVec 3
  g : BitVec 3
  deriving DecidableEq, Repr

/-- ACLR. -/
structure OpTl where
  w : BitVec 5
  ad : BitVec 6
  cv : BitVec 3
  g : BitVec 3
  deriving DecidableEq, Repr

/-- ACVT. -/
structure OpTak where
  w : BitVec 5
  t : BitVec 4
  ad : BitVec 6
  cv : BitVec 3
  k : Bool
  g : BitVec 3
  deriving DecidableEq, Repr

/-- TCKV. -/
structure OpTtk where
  w : BitVec 5
  t : BitVec 4
  cv : BitVec 3
  k : Bool
  g : BitVec 3
  deriving DecidableEq, Repr

/-- Format S (R94, R192). -/
structure OpCsr where
  csr : BitVec 14
  d : BitVec 5
  g : BitVec 3
  deriving DecidableEq, Repr

/-- Format A, uniform destination, B = 100. -/
structure OpUa where
  a : Src
  d : BitVec 5
  k : Bool
  g : BitVec 3
  deriving DecidableEq, Repr

/-- BKPT. -/
structure OpS1g where
  a : Src
  g : BitVec 3
  deriving DecidableEq, Repr

/-- Format H, the raw payload (R104). -/
structure OpHint where
  p : BitVec 24
  deriving DecidableEq, Repr

/-- HINT.REP (R104). -/
structure OpHRep where
  bst : BitVec 4
  ast : BitVec 4
  dst : BitVec 4
  n : BitVec 6
  deriving DecidableEq, Repr

/-- HINT.SCHED (R104). -/
structure OpHSched where
  yld : Bool
  stall : BitVec 8
  deriving DecidableEq, Repr

/-- HINT.MOD (R104). -/
structure OpHMod where
  cache : BitVec 2
  sat : Bool
  en : Bool
  rm : BitVec 2
  deriving DecidableEq, Repr

/-- HINT.PRIO (R104). -/
structure OpHPrio where
  lvl : BitVec 2
  deriving DecidableEq, Repr

/-- GBAR and REGEND: no operand (R178). -/
structure OpNone where
  deriving DecidableEq, Repr

/-- Every row of the opcode table. -/
inductive Instr where
  /-- ADD_D, GRP 0 FN 0. -/
  | addD (o : OpA)
  /-- ADD_W, GRP 0 FN 1. -/
  | addW (o : OpA)
  /-- ADD_H, GRP 0 FN 2. -/
  | addH (o : OpA)
  /-- ADD_B, GRP 0 FN 3. -/
  | addB (o : OpA)
  /-- SUB_D, GRP 0 FN 4. -/
  | subD (o : OpA)
  /-- SUB_W, GRP 0 FN 5. -/
  | subW (o : OpA)
  /-- SUB_H, GRP 0 FN 6. -/
  | subH (o : OpA)
  /-- SUB_B, GRP 0 FN 7. -/
  | subB (o : OpA)
  /-- MUL_D, GRP 0 FN 8. -/
  | mulD (o : OpA)
  /-- MUL_W, GRP 0 FN 9. -/
  | mulW (o : OpA)
  /-- MULH_D, GRP 0 FN 10. -/
  | mulhD (o : OpA)
  /-- MULHU_D, GRP 0 FN 11. -/
  | mulhuD (o : OpA)
  /-- AND, GRP 0 FN 12. -/
  | andD (o : OpA)
  /-- OR, GRP 0 FN 13. -/
  | orD (o : OpA)
  /-- XOR, GRP 0 FN 14. -/
  | xorD (o : OpA)
  /-- ANDN, GRP 0 FN 15. -/
  | andn (o : OpA)
  /-- ADDS_H, GRP 1 FN 0. -/
  | addsH (o : OpA)
  /-- SUBS_H, GRP 1 FN 1. -/
  | subsH (o : OpA)
  /-- ADDUS_B, GRP 1 FN 2. -/
  | addusB (o : OpA)
  /-- SUBUS_B, GRP 1 FN 3. -/
  | subusB (o : OpA)
  /-- MIN_H, GRP 1 FN 4. -/
  | minH (o : OpA)
  /-- MAX_H, GRP 1 FN 5. -/
  | maxH (o : OpA)
  /-- MIN_W, GRP 1 FN 6. -/
  | minW (o : OpA)
  /-- MAX_W, GRP 1 FN 7. -/
  | maxW (o : OpA)
  /-- SHL_D, GRP 1 FN 8. -/
  | shlD (o : OpA)
  /-- SHR_D, GRP 1 FN 9. -/
  | shrD (o : OpA)
  /-- SAR_D, GRP 1 FN 10. -/
  | sarD (o : OpA)
  /-- ROT_D, GRP 1 FN 11. -/
  | rotD (o : OpA)
  /-- ADDI_D, GRP 1 FN 12. -/
  | addiD (o : OpI)
  /-- ADDI_W, GRP 1 FN 13. -/
  | addiW (o : OpI)
  /-- MOVI, GRP 1 FN 14. -/
  | movi (o : OpMov)
  /-- CLZ_D, GRP 1 FN 15. -/
  | clzD (o : OpA1)
  /-- CTZ_D, GRP 1 FN 15. -/
  | ctzD (o : OpA1)
  /-- POPC_D, GRP 1 FN 15. -/
  | popcD (o : OpA1)
  /-- BREV_D, GRP 1 FN 15. -/
  | brevD (o : OpA1)
  /-- BSWAP_D, GRP 1 FN 15. -/
  | bswapD (o : OpA1)
  /-- CLZ_W, GRP 1 FN 15. -/
  | clzW (o : OpA1)
  /-- POPC_W, GRP 1 FN 15. -/
  | popcW (o : OpA1)
  /-- SEXT_W, GRP 1 FN 15. -/
  | sextW (o : OpA1)
  /-- ZEXT_W, GRP 1 FN 15. -/
  | zextW (o : OpA1)
  /-- SEXT_H, GRP 1 FN 15. -/
  | sextH (o : OpA1)
  /-- SEXT_B, GRP 1 FN 15. -/
  | sextB (o : OpA1)
  /-- FADD_D, GRP 2 FN 0. -/
  | faddD (o : OpA)
  /-- FADD_S, GRP 2 FN 1. -/
  | faddS (o : OpA)
  /-- FADD_H, GRP 2 FN 2. -/
  | faddH (o : OpA)
  /-- FADD_B, GRP 2 FN 3. -/
  | faddB (o : OpA)
  /-- FSUB_D, GRP 2 FN 4. -/
  | fsubD (o : OpA)
  /-- FSUB_S, GRP 2 FN 5. -/
  | fsubS (o : OpA)
  /-- FSUB_H, GRP 2 FN 6. -/
  | fsubH (o : OpA)
  /-- FSUB_B, GRP 2 FN 7. -/
  | fsubB (o : OpA)
  /-- FMUL_D, GRP 2 FN 8. -/
  | fmulD (o : OpA)
  /-- FMUL_S, GRP 2 FN 9. -/
  | fmulS (o : OpA)
  /-- FMUL_H, GRP 2 FN 10. -/
  | fmulH (o : OpA)
  /-- FMUL_B, GRP 2 FN 11. -/
  | fmulB (o : OpA)
  /-- FFMA_D, GRP 2 FN 12. -/
  | ffmaD (o : OpA)
  /-- FFMA_S, GRP 2 FN 13. -/
  | ffmaS (o : OpA)
  /-- FFMA_H, GRP 2 FN 14. -/
  | ffmaH (o : OpA)
  /-- FFMA_B, GRP 2 FN 15. -/
  | ffmaB (o : OpA)
  /-- FMIN_D, GRP 3 FN 0. -/
  | fminD (o : OpA)
  /-- FMIN_S, GRP 3 FN 1. -/
  | fminS (o : OpA)
  /-- FMIN_H, GRP 3 FN 2. -/
  | fminH (o : OpA)
  /-- FMAX_D, GRP 3 FN 3. -/
  | fmaxD (o : OpA)
  /-- FMAX_S, GRP 3 FN 4. -/
  | fmaxS (o : OpA)
  /-- FMAX_H, GRP 3 FN 5. -/
  | fmaxH (o : OpA)
  /-- FNMA_D, GRP 3 FN 6. -/
  | fnmaD (o : OpA)
  /-- FNMA_S, GRP 3 FN 7. -/
  | fnmaS (o : OpA)
  /-- FABS_D, GRP 3 FN 8. -/
  | fabsD (o : OpA1)
  /-- FABS_S, GRP 3 FN 9. -/
  | fabsS (o : OpA1)
  /-- FNEG_D, GRP 3 FN 10. -/
  | fnegD (o : OpA1)
  /-- FNEG_S, GRP 3 FN 11. -/
  | fnegS (o : OpA1)
  /-- FCLASS, GRP 3 FN 12. -/
  | fclass (o : OpCls)
  /-- FDOT2_H, GRP 3 FN 13. -/
  | fdot2H (o : OpA)
  /-- FDOT2_B, GRP 3 FN 14. -/
  | fdot2B (o : OpA)
  /-- FSCALE_D, GRP 3 FN 15. -/
  | fscaleD (o : OpA)
  /-- ICMP_D, GRP 4 FN 0. -/
  | icmpD (o : OpC)
  /-- ICMP_W, GRP 4 FN 1. -/
  | icmpW (o : OpC)
  /-- FCMP_D, GRP 4 FN 2. -/
  | fcmpD (o : OpC)
  /-- FCMP_S, GRP 4 FN 3. -/
  | fcmpS (o : OpC)
  /-- ICMPI_D, GRP 4 FN 4. -/
  | icmpiD (o : OpCI)
  /-- PAND, GRP 4 FN 5. -/
  | pand (o : OpP)
  /-- POR, GRP 4 FN 6. -/
  | por (o : OpP)
  /-- PXOR, GRP 4 FN 7. -/
  | pxor (o : OpP)
  /-- PNOT, GRP 4 FN 8. -/
  | pnot (o : OpP1)
  /-- SEL, GRP 4 FN 9. -/
  | sel (o : OpA)
  /-- PTOV, GRP 4 FN 10. -/
  | ptov (o : OpD)
  /-- VTOP, GRP 4 FN 11. -/
  | vtop (o : OpVt)
  /-- VCMPM_H, GRP 4 FN 12. -/
  | vcmpmH (o : OpC)
  /-- VCMPM_B, GRP 4 FN 13. -/
  | vcmpmB (o : OpC)
  /-- FCMPM_H, GRP 4 FN 14. -/
  | fcmpmH (o : OpC)
  /-- CVT, GRP 5 FN 0. -/
  | cvt (o : OpCvt)
  /-- CVTQ, GRP 5 FN 1. -/
  | cvtq (o : Op5)
  /-- DEQ, GRP 5 FN 2. -/
  | deq (o : Op5)
  /-- FDIV_D, GRP 5 FN 3. -/
  | fdivD (o : Op5)
  /-- FDIV_S, GRP 5 FN 4. -/
  | fdivS (o : Op5)
  /-- FSQRT_D, GRP 5 FN 5. -/
  | fsqrtD (o : Op51)
  /-- FSQRT_S, GRP 5 FN 6. -/
  | fsqrtS (o : Op51)
  /-- FRCP_S, GRP 5 FN 7. -/
  | frcpS (o : Op51)
  /-- FRSQ_S, GRP 5 FN 8. -/
  | frsqS (o : Op51)
  /-- FEXP2_S, GRP 5 FN 9. -/
  | fexp2S (o : Op51)
  /-- FLOG2_S, GRP 5 FN 10. -/
  | flog2S (o : Op51)
  /-- FSINP_S, GRP 5 FN 11. -/
  | fsinpS (o : Op51)
  /-- FCOSP_S, GRP 5 FN 12. -/
  | fcospS (o : Op51)
  /-- FTANH_S, GRP 5 FN 13. -/
  | ftanhS (o : Op51)
  /-- IDIV_D, GRP 5 FN 14. -/
  | idivD (o : Op5)
  /-- IDIVU_D, GRP 5 FN 15. -/
  | idivuD (o : Op5)
  /-- PERM_D, GRP 6 FN 0. -/
  | permD (o : OpA)
  /-- PERM_W, GRP 6 FN 1. -/
  | permW (o : OpA)
  /-- PERM_H, GRP 6 FN 2. -/
  | permH (o : OpA)
  /-- PERM_B, GRP 6 FN 3. -/
  | permB (o : OpA)
  /-- BCAST, GRP 6 FN 4. -/
  | bcast (o : OpA)
  /-- ROTX_H, GRP 6 FN 5. -/
  | rotxH (o : OpA)
  /-- BALLOT, GRP 6 FN 6. -/
  | ballot (o : OpA1)
  /-- VOTE, GRP 6 FN 7. -/
  | vote (o : OpVote)
  /-- REDADD, GRP 6 FN 8. -/
  | redadd (o : OpA1)
  /-- REDMIN, GRP 6 FN 9. -/
  | redmin (o : OpA1)
  /-- REDMAX, GRP 6 FN 10. -/
  | redmax (o : OpA1)
  /-- SCANADD, GRP 6 FN 11. -/
  | scanadd (o : OpA1)
  /-- MATCH_D, GRP 6 FN 12. -/
  | matchD (o : OpA1)
  /-- MATCH_S, GRP 6 FN 13. -/
  | matchS (o : OpA1)
  /-- SUBPERM, GRP 6 FN 14. -/
  | subperm (o : OpA)
  /-- LANEMASK, GRP 6 FN 15. -/
  | lanemask (o : OpA1)
  /-- UADD, GRP 7 FN 0. -/
  | uadd (o : OpU)
  /-- USUB, GRP 7 FN 1. -/
  | usub (o : OpU)
  /-- UMUL, GRP 7 FN 2. -/
  | umul (o : OpU)
  /-- UAND, GRP 7 FN 3. -/
  | uand (o : OpU)
  /-- UOR, GRP 7 FN 4. -/
  | uor (o : OpU)
  /-- UXOR, GRP 7 FN 5. -/
  | uxor (o : OpU)
  /-- USHL, GRP 7 FN 6. -/
  | ushl (o : OpU)
  /-- USHR, GRP 7 FN 7. -/
  | ushr (o : OpU)
  /-- USAR, GRP 7 FN 8. -/
  | usar (o : OpU)
  /-- UADDI, GRP 7 FN 9. -/
  | uaddi (o : OpUI)
  /-- UMOVI, GRP 7 FN 10. -/
  | umovi (o : OpUMov)
  /-- UMOVH, GRP 7 FN 11. -/
  | umovh (o : OpUI)
  /-- UCMP, GRP 7 FN 12. -/
  | ucmp (o : OpC)
  /-- UMIN, GRP 7 FN 13. -/
  | umin (o : OpU)
  /-- UMAX, GRP 7 FN 14. -/
  | umax (o : OpU)
  /-- UREAD, GRP 7 FN 15. -/
  | uread (o : OpU)
  /-- BRA, GRP 8 FN 0. -/
  | bra (o : OpB)
  /-- BRX, GRP 8 FN 1. -/
  | brx (o : OpJ)
  /-- CALL, GRP 8 FN 2. -/
  | call (o : OpB)
  /-- RET, GRP 8 FN 3. -/
  | ret (o : OpJ)
  /-- FSPAWN, GRP 8 FN 4. -/
  | fspawn (o : OpU)
  /-- FEND, GRP 8 FN 5. -/
  | fend (o : OpG)
  /-- SYNCM, GRP 8 FN 6. -/
  | syncm (o : OpS1)
  /-- CVSET, GRP 8 FN 7. -/
  | cvset (o : OpCv)
  /-- BARA, GRP 8 FN 8. -/
  | bara (o : OpBar)
  /-- BARW, GRP 8 FN 9. -/
  | barw (o : OpS2)
  /-- REGION, GRP 8 FN 11. -/
  | region (o : OpRg)
  /-- TRAP, GRP 8 FN 13. -/
  | trap (o : OpTr)
  /-- RETT, GRP 8 FN 14. -/
  | rett (o : OpRt)
  /-- REGG, GRP 8 FN 15. -/
  | regg (o : OpRt)
  /-- LD_B, GRP 9 FN 0. -/
  | ldB (o : OpM)
  /-- LD_BS, GRP 9 FN 1. -/
  | ldBs (o : OpM)
  /-- LD_H, GRP 9 FN 2. -/
  | ldH (o : OpM)
  /-- LD_HS, GRP 9 FN 3. -/
  | ldHs (o : OpM)
  /-- LD_W, GRP 9 FN 4. -/
  | ldW (o : OpM)
  /-- LD_WS, GRP 9 FN 5. -/
  | ldWs (o : OpM)
  /-- LD_D, GRP 9 FN 6. -/
  | ldD (o : OpM)
  /-- LD_Q, GRP 9 FN 7. -/
  | ldQ (o : OpM)
  /-- LDU_D, GRP 9 FN 8. -/
  | lduD (o : OpMU)
  /-- LDU_W, GRP 9 FN 9. -/
  | lduW (o : OpMU)
  /-- LDA_D, GRP 9 FN 10. -/
  | ldaD (o : OpMS)
  /-- LDNC_D, GRP 9 FN 11. -/
  | ldncD (o : OpM)
  /-- PREF, GRP 9 FN 12. -/
  | pref (o : OpPf)
  /-- ST_B, GRP 10 FN 0. -/
  | stB (o : OpM)
  /-- ST_H, GRP 10 FN 1. -/
  | stH (o : OpM)
  /-- ST_W, GRP 10 FN 2. -/
  | stW (o : OpM)
  /-- ST_D, GRP 10 FN 3. -/
  | stD (o : OpM)
  /-- ST_Q, GRP 10 FN 4. -/
  | stQ (o : OpM)
  /-- STU_D, GRP 10 FN 5. -/
  | stuD (o : OpMU)
  /-- STL_D, GRP 10 FN 6. -/
  | stlD (o : OpMS)
  /-- AADD, GRP 10 FN 8. -/
  | aadd (o : OpM)
  /-- AMIN, GRP 10 FN 9. -/
  | amin (o : OpM)
  /-- AMAX, GRP 10 FN 10. -/
  | amax (o : OpM)
  /-- AAND, GRP 10 FN 11. -/
  | aand (o : OpM)
  /-- AOR, GRP 10 FN 12. -/
  | aor (o : OpM)
  /-- AXCH, GRP 10 FN 13. -/
  | axch (o : OpM)
  /-- ACAS, GRP 10 FN 14. -/
  | acas (o : OpM)
  /-- AADDF_S, GRP 10 FN 15. -/
  | aaddfS (o : OpM)
  /-- FENCE, GRP 11 FN 0. -/
  | fence (o : OpF)
  /-- RELEASE, GRP 11 FN 1. -/
  | release (o : OpG)
  /-- ACQUIRE, GRP 11 FN 2. -/
  | acquire (o : OpG)
  /-- IFENCE, GRP 11 FN 3. -/
  | ifence (o : OpG)
  /-- RFENCE, GRP 11 FN 4. -/
  | rfence (o : OpG)
  /-- CPY, GRP 11 FN 5. -/
  | cpy (o : OpCp)
  /-- CPYQ, GRP 11 FN 6. -/
  | cpyq (o : OpCp)
  /-- CPYT, GRP 11 FN 7. -/
  | cpyt (o : OpCp)
  /-- SEAL, GRP 11 FN 8. -/
  | sealBatch (o : OpSeal)
  /-- CWAIT_BATCH, GRP 11 FN 9. -/
  | cwaitBatch (o : OpDA)
  /-- RPUT, GRP 11 FN 10. -/
  | rput (o : OpCp)
  /-- RGET, GRP 11 FN 11. -/
  | rget (o : OpCp)
  /-- NOTIFY, GRP 11 FN 12. -/
  | notify (o : OpDU)
  /-- SNAP_TAKE, GRP 11 FN 13. -/
  | snapTake (o : OpDU)
  /-- ACCG, GRP 11 FN 14. -/
  | accg (o : OpDA)
  /-- OWNX, GRP 11 FN 15. -/
  | ownx (o : OpDU)
  /-- MSHAPE, GRP 12 FN 0. -/
  | mshape (o : OpMsh)
  /-- MLD, GRP 12 FN 1. -/
  | mld (o : OpMl)
  /-- MST, GRP 12 FN 2. -/
  | mst (o : OpMl)
  /-- MMOVV, GRP 12 FN 3. -/
  | mmovv (o : OpMmv)
  /-- MMUL, GRP 12 FN 4. -/
  | mmul (o : OpMm)
  /-- MMAC, GRP 12 FN 5. -/
  | mmac (o : OpMmn)
  /-- MADD, GRP 12 FN 6. -/
  | madd (o : OpMad)
  /-- MTRN, GRP 12 FN 7. -/
  | mtrn (o : OpM2)
  /-- MCHOL, GRP 12 FN 8. -/
  | mchol (o : OpM2)
  /-- MLU, GRP 12 FN 9. -/
  | mlu (o : OpM2v)
  /-- MSOLC, GRP 12 FN 10. -/
  | msolc (o : OpMsc)
  /-- MSOLL, GRP 12 FN 11. -/
  | msoll (o : OpM3v)
  /-- MSCAL, GRP 12 FN 12. -/
  | mscal (o : OpM2v)
  /-- MFLAG, GRP 12 FN 13. -/
  | mflag (o : OpMfl)
  /-- MIDN, GRP 12 FN 14. -/
  | midn (o : OpMid)
  /-- MMV, GRP 12 FN 15. -/
  | mmv (o : OpMvv)
  /-- TLD, GRP 13 FN 0. -/
  | tld (o : OpTt)
  /-- TST, GRP 13 FN 1. -/
  | tst (o : OpTt)
  /-- WLOAD, GRP 13 FN 2. -/
  | wload (o : OpTw)
  /-- WSWAP, GRP 13 FN 3. -/
  | wswap (o : OpTc)
  /-- TMMA, GRP 13 FN 4. -/
  | tmma (o : OpTa)
  /-- TMMAS, GRP 13 FN 5. -/
  | tmmas (o : OpTa)
  /-- ACLR, GRP 13 FN 6. -/
  | aclr (o : OpTl)
  /-- ACVT, GRP 13 FN 7. -/
  | acvt (o : OpTak)
  /-- TCKV, GRP 13 FN 8. -/
  | tckv (o : OpTtk)
  /-- TCKFIX, GRP 13 FN 9. -/
  | tckfix (o : OpTt)
  /-- TCKSET, GRP 13 FN 10. -/
  | tckset (o : OpTt)
  /-- TCOPY, GRP 13 FN 11. -/
  | tcopy (o : OpTt)
  /-- DLOAD, GRP 13 FN 12. -/
  | dload (o : OpTw)
  /-- DQRY, GRP 13 FN 13. -/
  | dqry (o : OpTa)
  /-- DCENT, GRP 13 FN 14. -/
  | dcent (o : OpTa)
  /-- DFIN, GRP 13 FN 15. -/
  | dfin (o : OpTa)
  /-- CSRR, GRP 14 FN 0. -/
  | csrr (o : OpCsr)
  /-- CSRW, GRP 14 FN 1. -/
  | csrw (o : OpCsr)
  /-- CSRS, GRP 14 FN 2. -/
  | csrs (o : OpCsr)
  /-- CSRC, GRP 14 FN 3. -/
  | csrc (o : OpCsr)
  /-- CNTRD, GRP 14 FN 4. -/
  | cntrd (o : OpUa)
  /-- CNTCTL_EVSEL, GRP 14 FN 5. -/
  | cntctlEvsel (o : OpU)
  /-- BKPT, GRP 14 FN 6. -/
  | bkpt (o : OpS1g)
  /-- TRACE, GRP 14 FN 7. -/
  | trace (o : OpJ)
  /-- PROG, GRP 14 FN 8. -/
  | prog (o : OpJ)
  /-- CTXFL, GRP 14 FN 9. -/
  | ctxfl (o : OpDA)
  /-- HALTG, GRP 14 FN 10. -/
  | haltg (o : OpDA)
  /-- RESUMEG, GRP 14 FN 11. -/
  | resumeg (o : OpDA)
  /-- HINT_IMM, GRP 15 FN 1. -/
  | hintImm (o : OpHint)
  /-- HINT_REP, GRP 15 FN 2. -/
  | hintRep (o : OpHRep)
  /-- HINT_SCHED, GRP 15 FN 3. -/
  | hintSched (o : OpHSched)
  /-- HINT_MOD, GRP 15 FN 4. -/
  | hintMod (o : OpHMod)
  /-- HINT_PRIO, GRP 15 FN 5. -/
  | hintPrio (o : OpHPrio)
  /-- GBAR, GRP 8 FN 10. -/
  | gbar
  /-- REGEND, GRP 8 FN 12. -/
  | regend
  /-- CWAIT_TAKE, GRP 11 FN 9; the operands are those of the word in hand, which decodes to the family's first row. -/
  | cwaitTake
  /-- CWAIT_FREE, GRP 11 FN 9; the operands are those of the word in hand, which decodes to the family's first row. -/
  | cwaitFree
  /-- SNAP_DROP, GRP 11 FN 13; the operands are those of the word in hand, which decodes to the family's first row. -/
  | snapDrop
  /-- SNAP_ROLLBACK, GRP 11 FN 13; the operands are those of the word in hand, which decodes to the family's first row. -/
  | snapRollback
  /-- SNAP_SHIP, GRP 11 FN 13; the operands are those of the word in hand, which decodes to the family's first row. -/
  | snapShip
  /-- CNTCTL_TRMASK, GRP 14 FN 5; the operands are those of the word in hand, which decodes to the family's first row. -/
  | cntctlTrmask
  /-- CNTCTL_PCLR, GRP 14 FN 5; the operands are those of the word in hand, which decodes to the family's first row. -/
  | cntctlPclr
  /-- CNTCTL_SAMPLE, GRP 14 FN 5; the operands are those of the word in hand, which decodes to the family's first row. -/
  | cntctlSample
  /-- CNTCTL_TRLO, GRP 14 FN 5; the operands are those of the word in hand, which decodes to the family's first row. -/
  | cntctlTrlo
  /-- CNTCTL_TRHI, GRP 14 FN 5; the operands are those of the word in hand, which decodes to the family's first row. -/
  | cntctlTrhi
  /-- CNTCTL_TRSTART, GRP 14 FN 5; the operands are those of the word in hand, which decodes to the family's first row. -/
  | cntctlTrstart
  /-- CNTCTL_TRSTOP, GRP 14 FN 5; the operands are those of the word in hand, which decodes to the family's first row. -/
  | cntctlTrstop
  /-- CNTCTL_ECLR, GRP 14 FN 5; the operands are those of the word in hand, which decodes to the family's first row. -/
  | cntctlEclr
  /-- CNTCTL_DSTOP, GRP 14 FN 5; the operands are those of the word in hand, which decodes to the family's first row. -/
  | cntctlDstop
  /-- HINT_NOP, GRP 15 FN 0. -/
  | hintNop
  /-- RESERVED_HINT, GRP 15 FN 6. -/
  | reservedHint
  /-- ROTATION: R36, a peloton crew that has stayed 96 cycles while a ready crew waits is displaced at its next boundary. -/
  | rotation
  /-- HANDLER_START: R376, starts a queued handler crew in the core's handler slot. -/
  | handlerStart
  /-- ARRAY_OPERATION_COMPLETE: R212, the array finishes an operation, makes its checks and releases its signers as one fragment. -/
  | arrayOperationComplete
  /-- SPECIAL_FUNCTION_COMPLETE: R161, a group-5 operation completes, writes its destination and ORs its flags. -/
  | specialFunctionComplete
  /-- LOAD_DATA_RETURN: R300, the data of a load arrives and is written to its destination. -/
  | loadDataReturn
  /-- HOST_FETCH: R257, a 128-byte fetch from host memory arrives and is counted. -/
  | hostFetch
  /-- APPENDER_ACCEPT: R253, the appender takes a stored sector into its gather buffer, merging partial sectors. -/
  | appenderAccept
  /-- APPEND_HOLD_RELEASE: R256, a held append is released once a reclaim candidate exists. -/
  | appendHoldRelease
  /-- LOG_PRESSURE_EVENT: R256, an append held for 1 ms raises a log-pressure event. -/
  | logPressureEvent
  /-- DREDGE_START: R255, the dredge engine selects a segment and copies its live sectors. -/
  | dredgeStart
  /-- DREDGE_DRAIN_COMPLETE: R255, once every invalidation is acknowledged, the dredged segment becomes free. -/
  | dredgeDrainComplete
  /-- INDEX_LOOKUP: R271, the index home answers a lookup with the version committed for the reader. -/
  | indexLookup
  /-- INDEX_UPDATE: R351, a pending update arrives at the home, after folding or dropping older ones. -/
  | indexUpdate
  /-- FOLD: R351, the home folds committed updates into the committed position in the background. -/
  | fold
  /-- GRAIN_ENTRY_WRITEBACK: R351, a changed grain entry is written back to its grain table within 1 ms. -/
  | grainEntryWriteback
  /-- TABLE_FREE: R362, an unreachable index table is freed in the background. -/
  | tableFree
  /-- HOME_MOVE: R352, moves a page's index home to another tile. -/
  | homeMove
  /-- CLAIM_REQUEST: R281, the ownership home grants or refuses a grain claim. -/
  | claimRequest
  /-- COMMIT_WRITE: R270, after every home acknowledges, the release writes its sequence number to the commit register. -/
  | commitWrite
  /-- ATOMIC_APPLY: R285, the home or owning core applies an atomic, or answers moved. -/
  | atomicApply
  /-- ATOMIC_ANSWER: R311, an atomic's answer reaches the core, writes vD and decrements its counter. -/
  | atomicAnswer
  /-- ATOMIC_MOVED_REISSUE: R286, on moved, the core resolves the home again and reissues the atomic with its tag. -/
  | atomicMovedReissue
  /-- REMOTE_ACCESS_PERFORM: R241, a remote scratchpad access is performed at the owning core. -/
  | remoteAccessPerform
  /-- REMOTE_ACK: R241, a remote acknowledgement reaches the issuing core and decrements ACK_CL. -/
  | remoteAck
  /-- IMPRECISE_FAULT_ARRIVAL: R319, the failure of a retired store arrives and is queued for delivery or recorded. -/
  | impreciseFaultArrival
  /-- COPY_START: R333, a queued copy starts when one of the 16 places is free. -/
  | copyStart
  /-- COPY_PIECE: R333, the engine moves one 64-byte piece of a copy in flight. -/
  | copyPiece
  /-- COPY_COMPLETE: R333, a copy's last write has been performed. -/
  | copyComplete
  /-- COPY_CLAIM_TIMEOUT: R333, a copy whose claim is not granted within 1,048,576 cycles fails with the write-grain cause. -/
  | copyClaimTimeout
  /-- OWNX_TIMEOUT: R357, oWNX ends with status 2 after 1,048,576 cycles of waiting. -/
  | ownxTimeout
  /-- GROW_GRANT: R135, the allocator grants a pending REGG or ACCG grow in full. -/
  | growGrant
  /-- GROW_DEADLOCK_BREAK: R136, after 1,024 blocked cycles, fails the youngest pending grow. -/
  | growDeadlockBreak
  /-- NODE_DISPATCH: R325, the dispatcher checks entries and dispatches the ready node of highest effective priority. -/
  | nodeDispatch
  /-- GROUP_ADMISSION: R329, the admitter places the first fitting group or gang of the pending list. -/
  | groupAdmission
  /-- PROLOGUE: R328, the prologue engine carries out the transform bindings before any crew issues. -/
  | prologue
  /-- NODE_RETIREMENT: R326, once the crews have ended and the stores have reached the appenders, publishes and decrements successors. -/
  | nodeRetirement
  /-- COMPLETION_RECORD: R342, writes a completion record once the event queue has room. -/
  | completionRecord
  /-- NOTIFY_RECORD: R340, the device writes a NOTIFY record into its queue once there is room. -/
  | notifyRecord
  /-- STAGING_TAG_FREE: R355, a staging entry becomes free once no home holds an update of its tag. -/
  | stagingTagFree
  /-- MSIX_HOLDOFF_EXPIRY: R341, sends a deferred MSI-X message when the holdoff interval ends. -/
  | msixHoldoffExpiry
  /-- LQDOOR: R322, a doorbell write sets the TAIL of a launch queue. -/
  | lqdoor
  /-- EQDOOR: R341, a doorbell write sets the HEAD of an event queue. -/
  | eqdoor
  /-- ELDOOR: R343, a doorbell write sets the HEAD of an error log. -/
  | eldoor
  /-- REGISTER_WRITE: R422, a host write to a region-0 register without behaviour of its own, such as CMDBUF. -/
  | registerWrite
  /-- SCRUB: R262, a scrubber reads a word, rewrites it corrected or marks it poisoned. -/
  | scrub
  /-- HBM_BEAT_RETRY: R259, a failed vertical-bus or base-die beat is retried, and poisoned after three failures. -/
  | hbmBeatRetry
  /-- HBM_REFRESH: R344, each channel refreshes for 164 ns every 3.9 µs. -/
  | hbmRefresh
  /-- CHANNEL_GRANT: R344, a channel grants a foreground read or a background burst under the floors. -/
  | channelGrant
  /-- OUTFLOW_SHIP: R365, ships written blocks and commit records to the replica peer. -/
  | outflowShip
  /-- WATCHDOG_HANG: R409, a crew with 2^32 cycles without retirement is declared hung and its node fails. -/
  | watchdogHang
  /-- PEER_UNAVAILABLE: R408, a freeze of 2 s completes the peer wait with the peer-unavailable outcome. -/
  | peerUnavailable
  /-- PROG_APPLY: R405, a PROG increment is applied to the device's progress counter. -/
  | progApply
  /-- SAMPLE: R413, every 2^P cycles, writes a kind-4 sample record. -/
  | sampleTick
  /-- TRIAL_END: R414, a causal trial ends when its length expires. -/
  | trialEnd
  /-- HALTG_TIMEOUT: R393, an incomplete halt writes status 3 after 1,048,576 cycles and stays in effect. -/
  | haltgTimeout
  /-- PREEMPT_REGION_STOP: R382, at D1, begins stopping every resident crew of the context. -/
  | preemptRegionStop
  /-- CREW_STOP: R383, after its waits end, rewinds the crew and marks its lease row stopped. -/
  | crewStop
  /-- FORCED_RESET: R384, at D2, ends every crew of the context and discards its uncommitted updates. -/
  | forcedReset
  /-- GROUP_SAVE: R386, lazily saves a stopped group into the save window and frees its storage. -/
  | groupSave
  /-- DEVICE_RESET: R427, power-on, fundamental reset or controller reset returns the device to its reset state. -/
  | deviceReset
  /-- SAFE_PHASE_REACHED: R428, the device reaches PHASE 1 within 100 ms of reset. -/
  | safePhaseReached
  /-- HBM_TRAINING_COMPLETE: R429, once the stacks are trained and scrubbed, PHASE becomes 2. -/
  | hbmTrainingComplete
  /-- INITIALISE_TIMEOUT: R429, after 2 s without Initialise, the default capacity is fixed. -/
  | initialiseTimeout
  /-- LOG_INITIALISED: R429, the table regions are written and PHASE becomes 3. -/
  | logInitialised
  /-- TILE_SELF_TEST: R429, a tile finishes self-test and comes online, or sets DEGRADED. -/
  | tileSelfTest
  /-- ATTESTATION_SIGNED: R432, the start report is signed, ATTEST is set and PHASE becomes 4. -/
  | attestationSigned
  /-- THERMAL_THROTTLE: R435, above 105 °C the arithmetic clock steps down and THROT is set. -/
  | thermalThrottle
  /-- THERMAL_SHUTDOWN: R435, at 115 °C the tiles power off after a KIND 10 record. -/
  | thermalShutdown
  /-- FLIT_RECEIVE: R434, a link receiver accepts a flit or discards it and requests retry. -/
  | flitReceive
  /-- LINK_TRAINING: R441, training exchanges serial numbers and drops failing lanes. -/
  | linkTraining
  /-- PORT_FAIL: R434, a port that has not retrained within 10 s is failed. -/
  | portFail
  /-- PEER_ACCESS: R438, a peer load, store or RPUT datum is performed at the peer's index home. -/
  | peerAccess
  /-- PEER_STORE_REFUSE: R438, a peer store waiting 1 ms at the home is refused. -/
  | peerStoreRefuse
  /-- PEER_WINDOW_REFRESH: R436, refreshes the copies of granted windows within 10 µs of a change. -/
  | peerWindowRefresh
  /-- CROSS_DEVICE_BARRIER_ARRIVAL: R442, a partner's GBAR arrival flit is counted and may release the barrier. -/
  | crossDeviceBarrierArrival
  /-- READ_ERROR_LOG: R424, mailbox command that returns up to 64 error-log records of a level. -/
  | readErrorLog
  /-- FIRMWARE_UPDATE: R430, mailbox command that verifies a firmware image and writes a flash bank. -/
  | firmwareUpdate
  /-- INITIALISE: R429, mailbox command that fixes the logical capacity in PHASE 2. -/
  | initialiseCmd
  /-- READ_ATTESTATION: R432, mailbox command that signs a fresh report with the host's nonce. -/
  | readAttestation
  /-- QUEUE_DESCRIPTOR: R322, mailbox command that writes a launch, event, error-log or trace-ring descriptor. -/
  | queueDescriptor
  /-- CONTEXT: R346, mailbox command that writes or clears a context table entry. -/
  | contextSet
  /-- MAP: R347, mailbox command that maps a virtual page. -/
  | mapPage
  /-- UNMAP: R348, mailbox command that removes a translation after a TLB shootdown. -/
  | unmap
  /-- PROTECT: R348, mailbox command that changes a translation's permissions. -/
  | protect
  /-- PAGE_ALLOCATE: R349, mailbox command that allocates a logical page record and its grain table. -/
  | pageAllocate
  /-- PAGE_FREE: R349, mailbox command that frees page records and ends their sectors' liveness. -/
  | pageFree
  /-- MIGRATE_HOST_PAGE: R368, mailbox command that moves a host-resident page into the log. -/
  | migrateHostPage
  /-- SCRUB_RATES: R262, mailbox command that sets a level group's scrub period. -/
  | scrubRates
  /-- PREEMPT: R382, mailbox command that starts the pre-emption of a context. -/
  | preempt
  /-- RESUME: R389, mailbox command that resumes a pre-empted context. -/
  | resume
  /-- KILL: R384, mailbox command that kills a context at once. -/
  | kill
  /-- CHECKPOINT: R395, mailbox command that pre-empts every context, snapshots and writes signed shards. -/
  | checkpoint
  /-- RELOAD: R398, mailbox command that verifies a manifest and recreates contexts and data. -/
  | reload
  /-- MESH_AND_SHARDS: R397, mailbox command that sets the mesh fields, rank and shard descriptors. -/
  | meshAndShards
  /-- DEBUG: R415, mailbox command that configures run comparison and debug stops. -/
  | debugCtl
  /-- PEERS: R436, mailbox command that sets the peer table, grants, replica peer and replica roots. -/
  | peers
  /-- CROSS_DEVICE_BARRIER: R442, mailbox command that binds a node to partner nodes for GBAR. -/
  | crossDeviceBarrier
  /-- CDOOR: R423, a host write to the command doorbell that the mailbox ignores because it is busy, or completes with CSTATUS 1 because the opcode is unknown or LEN is out of range. -/
  | cdoor
  /-- SUPPLY_OFF: R426, loss of the module supply, after which the device keeps no powered domain. -/
  | supplyOff
  /-- RECALIBRATION: R261, a recalibration of an HBM stack's vertical bus, which restarts the per-lane retry counts. -/
  | recalibration
  /-- ATOMIC_TAG_SET_EXPIRY: R286, an applied atomic's tag and result drop out of the home's per-page set once 64 µs have passed. -/
  | atomicTagSetExpiry
  deriving DecidableEq, Repr

end Sys2Proof
end

