-- ==== Sys2Proof/WellFormed.lean ====
section
/-! DEFINITION. Which instructions are well formed: the checks of R101 that a field of the right width can still fail. -/

namespace Sys2Proof

/-- K = 1 asks for D = 0 (R98). -/
def kOk (k : Bool) (d : BitVec 6) : Bool := !k || d == 0

/-- K = 1 asks for D = 0, for a uniform destination (R98). -/
def kOkU (k : Bool) (d : BitVec 5) : Bool := !k || d == 0

/-- The selectors of CVT that R162 defines. -/
def cvtOk (sel : BitVec 7) : Bool :=
  if sel.getLsbD 6 then true
  else
    let hi := (sel.extractLsb' 3 3).toNat
    let lo := (sel.extractLsb' 0 3).toNat
    if hi ≤ 4 then decide (lo ≤ 4) && hi != lo
    else if hi = 5 then false
    else sel.extractLsb' 0 2 != 3

/-- A shape that MSHAPE may set: rows and columns 1 to 6, or unshaped (R195). -/
def shapeOk (rows cols : BitVec 3) : Bool :=
  (rows == 0 && cols == 0) || (rows != 0 && rows != 7 && cols != 0 && cols != 7)

/-- AD codes 48 to 63 are reserved (R94). -/
def accOk (ad : BitVec 6) : Bool := decide (ad.toNat < 48)

/-- The CSR numbers of R128. -/
def csrNumbers : List Nat :=
  [0x000, 0x001, 0x002, 0x003, 0x010, 0x011, 0x012, 0x013, 0x014, 0x1000, 0x1001, 0x1010, 0x1011]

/-- A CSR number that R128 lists. -/
def csrListed (n : BitVec 14) : Bool := csrNumbers.contains n.toNat


/-- A well-formed instruction (R101). A row without an encoding has no field to check. -/
def Instr.wf : Instr → Bool
  | .addD o => kOk o.k o.d
  | .addW o => kOk o.k o.d
  | .addH o => kOk o.k o.d
  | .addB o => kOk o.k o.d
  | .subD o => kOk o.k o.d
  | .subW o => kOk o.k o.d
  | .subH o => kOk o.k o.d
  | .subB o => kOk o.k o.d
  | .mulD o => kOk o.k o.d
  | .mulW o => kOk o.k o.d
  | .mulhD o => kOk o.k o.d
  | .mulhuD o => kOk o.k o.d
  | .andD o => kOk o.k o.d
  | .orD o => kOk o.k o.d
  | .xorD o => kOk o.k o.d
  | .andn o => kOk o.k o.d
  | .addsH o => kOk o.k o.d
  | .subsH o => kOk o.k o.d
  | .addusB o => kOk o.k o.d
  | .subusB o => kOk o.k o.d
  | .minH o => kOk o.k o.d
  | .maxH o => kOk o.k o.d
  | .minW o => kOk o.k o.d
  | .maxW o => kOk o.k o.d
  | .shlD o => kOk o.k o.d
  | .shrD o => kOk o.k o.d
  | .sarD o => kOk o.k o.d
  | .rotD o => kOk o.k o.d
  | .addiD o => kOk o.k o.d
  | .addiW o => kOk o.k o.d
  | .movi o => kOk o.k o.d
  | .clzD o => kOk o.k o.d
  | .ctzD o => kOk o.k o.d
  | .popcD o => kOk o.k o.d
  | .brevD o => kOk o.k o.d
  | .bswapD o => kOk o.k o.d
  | .clzW o => kOk o.k o.d
  | .popcW o => kOk o.k o.d
  | .sextW o => kOk o.k o.d
  | .zextW o => kOk o.k o.d
  | .sextH o => kOk o.k o.d
  | .sextB o => kOk o.k o.d
  | .faddD o => kOk o.k o.d
  | .faddS o => kOk o.k o.d
  | .faddH o => kOk o.k o.d
  | .faddB o => kOk o.k o.d
  | .fsubD o => kOk o.k o.d
  | .fsubS o => kOk o.k o.d
  | .fsubH o => kOk o.k o.d
  | .fsubB o => kOk o.k o.d
  | .fmulD o => kOk o.k o.d
  | .fmulS o => kOk o.k o.d
  | .fmulH o => kOk o.k o.d
  | .fmulB o => kOk o.k o.d
  | .ffmaD o => kOk o.k o.d
  | .ffmaS o => kOk o.k o.d
  | .ffmaH o => kOk o.k o.d
  | .ffmaB o => kOk o.k o.d
  | .fminD o => kOk o.k o.d
  | .fminS o => kOk o.k o.d
  | .fminH o => kOk o.k o.d
  | .fmaxD o => kOk o.k o.d
  | .fmaxS o => kOk o.k o.d
  | .fmaxH o => kOk o.k o.d
  | .fnmaD o => kOk o.k o.d
  | .fnmaS o => kOk o.k o.d
  | .fabsD o => kOk o.k o.d
  | .fabsS o => kOk o.k o.d
  | .fnegD o => kOk o.k o.d
  | .fnegS o => kOk o.k o.d
  | .fclass o => kOk o.k o.d
  | .fdot2H o => kOk o.k o.d
  | .fdot2B o => kOk o.k o.d
  | .fscaleD o => kOk o.k o.d
  | .icmpD _ => true
  | .icmpW _ => true
  | .fcmpD _ => true
  | .fcmpS _ => true
  | .icmpiD _ => true
  | .pand _ => true
  | .por _ => true
  | .pxor _ => true
  | .pnot _ => true
  | .sel o => kOk o.k o.d
  | .ptov o => kOk o.k o.d
  | .vtop _ => true
  | .vcmpmH _ => true
  | .vcmpmB _ => true
  | .fcmpmH _ => true
  | .cvt o => cvtOk o.sel
  | .cvtq _ => true
  | .deq _ => true
  | .fdivD _ => true
  | .fdivS _ => true
  | .fsqrtD _ => true
  | .fsqrtS _ => true
  | .frcpS _ => true
  | .frsqS _ => true
  | .fexp2S _ => true
  | .flog2S _ => true
  | .fsinpS _ => true
  | .fcospS _ => true
  | .ftanhS _ => true
  | .idivD _ => true
  | .idivuD _ => true
  | .permD o => kOk o.k o.d && o.a.isVec
  | .permW o => kOk o.k o.d && o.a.isVec
  | .permH o => kOk o.k o.d && o.a.isVec
  | .permB o => kOk o.k o.d && o.a.isVec
  | .bcast o => kOk o.k o.d && o.a.isVec && o.b.uniform
  | .rotxH o => kOk o.k o.d && o.a.isVec && o.b.uniform
  | .ballot o => kOk o.k o.d
  | .vote o => decide (o.mode.toNat < 3)
  | .redadd o => kOk o.k o.d
  | .redmin o => kOk o.k o.d
  | .redmax o => kOk o.k o.d
  | .scanadd o => kOk o.k o.d
  | .matchD o => kOk o.k o.d
  | .matchS o => kOk o.k o.d
  | .subperm o => kOk o.k o.d && o.a.isVec
  | .lanemask o => kOk o.k o.d
  | .uadd o => kOkU o.k o.d && o.a.uniform && o.b.uniform
  | .usub o => kOkU o.k o.d && o.a.uniform && o.b.uniform
  | .umul o => kOkU o.k o.d && o.a.uniform && o.b.uniform
  | .uand o => kOkU o.k o.d && o.a.uniform && o.b.uniform
  | .uor o => kOkU o.k o.d && o.a.uniform && o.b.uniform
  | .uxor o => kOkU o.k o.d && o.a.uniform && o.b.uniform
  | .ushl o => kOkU o.k o.d && o.a.uniform && o.b.uniform
  | .ushr o => kOkU o.k o.d && o.a.uniform && o.b.uniform
  | .usar o => kOkU o.k o.d && o.a.uniform && o.b.uniform
  | .uaddi o => kOkU o.k o.d && o.a.uniform
  | .umovi o => kOkU o.k o.d
  | .umovh o => kOkU o.k o.d && o.a.uniform
  | .ucmp o => o.a.uniform && o.b.uniform
  | .umin o => kOkU o.k o.d && o.a.uniform && o.b.uniform
  | .umax o => kOkU o.k o.d && o.a.uniform && o.b.uniform
  | .uread o => kOkU o.k o.d && o.a.isVec && o.b.uniform
  | .bra _ => true
  | .brx _ => true
  | .call _ => true
  | .ret _ => true
  | .fspawn o => kOkU o.k o.d
  | .fend _ => true
  | .syncm o => o.a.uniform
  | .cvset o => o.a.uniform
  | .bara o => kOkU o.k o.d && o.a.uniform
  | .barw o => o.a.uniform && o.b.uniform
  | .region _ => true
  | .trap _ => true
  | .rett o => o.a.uniform
  | .regg o => o.a.uniform
  | .ldB _ => true
  | .ldBs _ => true
  | .ldH _ => true
  | .ldHs _ => true
  | .ldW _ => true
  | .ldWs _ => true
  | .ldD _ => true
  | .ldQ o => !o.d.getLsbD 0
  | .lduD o => o.a.uniform
  | .lduW o => o.a.uniform
  | .ldaD _ => true
  | .ldncD _ => true
  | .pref o => decide (o.lvl.toNat < 2)
  | .stB _ => true
  | .stH _ => true
  | .stW _ => true
  | .stD _ => true
  | .stQ o => !o.d.getLsbD 0
  | .stuD o => o.a.uniform
  | .stlD _ => true
  | .aadd _ => true
  | .amin _ => true
  | .amax _ => true
  | .aand _ => true
  | .aor _ => true
  | .axch _ => true
  | .acas o => o.d != 63
  | .aaddfS _ => true
  | .fence o => decide (o.scope.toNat < 5)
  | .release _ => true
  | .acquire _ => true
  | .ifence _ => true
  | .rfence _ => true
  | .cpy o => o.sa != 31
  | .cpyq o => o.sa != 31
  | .cpyt o => o.sa != 31
  | .sealBatch _ => true
  | .cwaitBatch o => o.a.uniform
  | .rput o => o.sa != 31
  | .rget o => o.sa != 31
  | .notify o => o.a.uniform && o.b.uniform
  | .snapTake o => o.a.uniform && o.b.uniform
  | .accg o => o.a.uniform
  | .ownx o => o.a.uniform && o.b.uniform
  | .mshape o => shapeOk o.rows o.cols
  | .mld o => o.a.isReg
  | .mst o => o.a.isReg
  | .mmovv o => decide (o.i.toNat < 6) && decide (o.j.toNat < 6)
  | .mmul _ => true
  | .mmac _ => true
  | .madd _ => true
  | .mtrn _ => true
  | .mchol _ => true
  | .mlu _ => true
  | .msolc o => o.mode != 3
  | .msoll _ => true
  | .mscal _ => true
  | .mflag _ => true
  | .midn o => o.n != 0 && o.n != 7
  | .mmv _ => true
  | .tld o => o.w != 31
  | .tst o => o.w != 31
  | .wload _ => true
  | .wswap _ => true
  | .tmma o => accOk o.ad
  | .tmmas o => accOk o.ad
  | .aclr o => accOk o.ad
  | .acvt o => accOk o.ad
  | .tckv _ => true
  | .tckfix _ => true
  | .tckset _ => true
  | .tcopy _ => true
  | .dload _ => true
  | .dqry o => accOk o.ad
  | .dcent o => accOk o.ad
  | .dfin o => accOk o.ad
  | .csrr o => csrListed o.csr
  | .csrw o => csrListed o.csr
  | .csrs o => csrListed o.csr
  | .csrc o => csrListed o.csr
  | .cntrd o => kOkU o.k o.d && o.a.uniform
  | .cntctlEvsel o => kOkU o.k o.d && o.a.uniform && o.b.uniform
  | .bkpt o => o.a.uniform
  | .trace o => o.a.uniform && o.b.uniform
  | .prog o => o.a.uniform && o.b.uniform
  | .ctxfl o => o.a.uniform
  | .haltg o => o.a.uniform
  | .resumeg o => o.a.uniform
  | .hintImm _ => true
  | .hintRep _ => true
  | .hintSched _ => true
  | .hintMod o => o.en || o.rm == 0
  | .hintPrio _ => true
  | .gbar => true
  | .regend => true
  | .cwaitTake => true
  | .cwaitFree => true
  | .snapDrop => true
  | .snapRollback => true
  | .snapShip => true
  | .cntctlTrmask => true
  | .cntctlPclr => true
  | .cntctlSample => true
  | .cntctlTrlo => true
  | .cntctlTrhi => true
  | .cntctlTrstart => true
  | .cntctlTrstop => true
  | .cntctlEclr => true
  | .cntctlDstop => true
  | .hintNop => true
  | .reservedHint => true
  | .rotation => true
  | .handlerStart => true
  | .arrayOperationComplete => true
  | .specialFunctionComplete => true
  | .loadDataReturn => true
  | .hostFetch => true
  | .appenderAccept => true
  | .appendHoldRelease => true
  | .logPressureEvent => true
  | .dredgeStart => true
  | .dredgeDrainComplete => true
  | .indexLookup => true
  | .indexUpdate => true
  | .fold => true
  | .grainEntryWriteback => true
  | .tableFree => true
  | .homeMove => true
  | .claimRequest => true
  | .commitWrite => true
  | .atomicApply => true
  | .atomicAnswer => true
  | .atomicMovedReissue => true
  | .remoteAccessPerform => true
  | .remoteAck => true
  | .impreciseFaultArrival => true
  | .copyStart => true
  | .copyPiece => true
  | .copyComplete => true
  | .copyClaimTimeout => true
  | .ownxTimeout => true
  | .growGrant => true
  | .growDeadlockBreak => true
  | .nodeDispatch => true
  | .groupAdmission => true
  | .prologue => true
  | .nodeRetirement => true
  | .completionRecord => true
  | .notifyRecord => true
  | .stagingTagFree => true
  | .msixHoldoffExpiry => true
  | .lqdoor => true
  | .eqdoor => true
  | .eldoor => true
  | .registerWrite => true
  | .scrub => true
  | .hbmBeatRetry => true
  | .hbmRefresh => true
  | .channelGrant => true
  | .outflowShip => true
  | .watchdogHang => true
  | .peerUnavailable => true
  | .progApply => true
  | .sampleTick => true
  | .trialEnd => true
  | .haltgTimeout => true
  | .preemptRegionStop => true
  | .crewStop => true
  | .forcedReset => true
  | .groupSave => true
  | .deviceReset => true
  | .safePhaseReached => true
  | .hbmTrainingComplete => true
  | .initialiseTimeout => true
  | .logInitialised => true
  | .tileSelfTest => true
  | .attestationSigned => true
  | .thermalThrottle => true
  | .thermalShutdown => true
  | .flitReceive => true
  | .linkTraining => true
  | .portFail => true
  | .peerAccess => true
  | .peerStoreRefuse => true
  | .peerWindowRefresh => true
  | .crossDeviceBarrierArrival => true
  | .readErrorLog => true
  | .firmwareUpdate => true
  | .initialiseCmd => true
  | .readAttestation => true
  | .queueDescriptor => true
  | .contextSet => true
  | .mapPage => true
  | .unmap => true
  | .protect => true
  | .pageAllocate => true
  | .pageFree => true
  | .migrateHostPage => true
  | .scrubRates => true
  | .preempt => true
  | .resume => true
  | .kill => true
  | .checkpoint => true
  | .reload => true
  | .meshAndShards => true
  | .debugCtl => true
  | .peers => true
  | .crossDeviceBarrier => true
  | .cdoor => true
  | .supplyOff => true
  | .recalibration => true
  | .atomicTagSetExpiry => true

/-- The rows that have an encoding. -/
def Instr.isWord : Instr → Bool
  | .addD _ => true
  | .addW _ => true
  | .addH _ => true
  | .addB _ => true
  | .subD _ => true
  | .subW _ => true
  | .subH _ => true
  | .subB _ => true
  | .mulD _ => true
  | .mulW _ => true
  | .mulhD _ => true
  | .mulhuD _ => true
  | .andD _ => true
  | .orD _ => true
  | .xorD _ => true
  | .andn _ => true
  | .addsH _ => true
  | .subsH _ => true
  | .addusB _ => true
  | .subusB _ => true
  | .minH _ => true
  | .maxH _ => true
  | .minW _ => true
  | .maxW _ => true
  | .shlD _ => true
  | .shrD _ => true
  | .sarD _ => true
  | .rotD _ => true
  | .addiD _ => true
  | .addiW _ => true
  | .movi _ => true
  | .clzD _ => true
  | .ctzD _ => true
  | .popcD _ => true
  | .brevD _ => true
  | .bswapD _ => true
  | .clzW _ => true
  | .popcW _ => true
  | .sextW _ => true
  | .zextW _ => true
  | .sextH _ => true
  | .sextB _ => true
  | .faddD _ => true
  | .faddS _ => true
  | .faddH _ => true
  | .faddB _ => true
  | .fsubD _ => true
  | .fsubS _ => true
  | .fsubH _ => true
  | .fsubB _ => true
  | .fmulD _ => true
  | .fmulS _ => true
  | .fmulH _ => true
  | .fmulB _ => true
  | .ffmaD _ => true
  | .ffmaS _ => true
  | .ffmaH _ => true
  | .ffmaB _ => true
  | .fminD _ => true
  | .fminS _ => true
  | .fminH _ => true
  | .fmaxD _ => true
  | .fmaxS _ => true
  | .fmaxH _ => true
  | .fnmaD _ => true
  | .fnmaS _ => true
  | .fabsD _ => true
  | .fabsS _ => true
  | .fnegD _ => true
  | .fnegS _ => true
  | .fclass _ => true
  | .fdot2H _ => true
  | .fdot2B _ => true
  | .fscaleD _ => true
  | .icmpD _ => true
  | .icmpW _ => true
  | .fcmpD _ => true
  | .fcmpS _ => true
  | .icmpiD _ => true
  | .pand _ => true
  | .por _ => true
  | .pxor _ => true
  | .pnot _ => true
  | .sel _ => true
  | .ptov _ => true
  | .vtop _ => true
  | .vcmpmH _ => true
  | .vcmpmB _ => true
  | .fcmpmH _ => true
  | .cvt _ => true
  | .cvtq _ => true
  | .deq _ => true
  | .fdivD _ => true
  | .fdivS _ => true
  | .fsqrtD _ => true
  | .fsqrtS _ => true
  | .frcpS _ => true
  | .frsqS _ => true
  | .fexp2S _ => true
  | .flog2S _ => true
  | .fsinpS _ => true
  | .fcospS _ => true
  | .ftanhS _ => true
  | .idivD _ => true
  | .idivuD _ => true
  | .permD _ => true
  | .permW _ => true
  | .permH _ => true
  | .permB _ => true
  | .bcast _ => true
  | .rotxH _ => true
  | .ballot _ => true
  | .vote o => decide (o.mode.toNat < 3)
  | .redadd _ => true
  | .redmin _ => true
  | .redmax _ => true
  | .scanadd _ => true
  | .matchD _ => true
  | .matchS _ => true
  | .subperm _ => true
  | .lanemask _ => true
  | .uadd _ => true
  | .usub _ => true
  | .umul _ => true
  | .uand _ => true
  | .uor _ => true
  | .uxor _ => true
  | .ushl _ => true
  | .ushr _ => true
  | .usar _ => true
  | .uaddi _ => true
  | .umovi _ => true
  | .umovh _ => true
  | .ucmp _ => true
  | .umin _ => true
  | .umax _ => true
  | .uread _ => true
  | .bra _ => true
  | .brx _ => true
  | .call _ => true
  | .ret _ => true
  | .fspawn _ => true
  | .fend _ => true
  | .syncm _ => true
  | .cvset _ => true
  | .bara _ => true
  | .barw _ => true
  | .region _ => true
  | .trap _ => true
  | .rett _ => true
  | .regg _ => true
  | .ldB _ => true
  | .ldBs _ => true
  | .ldH _ => true
  | .ldHs _ => true
  | .ldW _ => true
  | .ldWs _ => true
  | .ldD _ => true
  | .ldQ _ => true
  | .lduD _ => true
  | .lduW _ => true
  | .ldaD _ => true
  | .ldncD _ => true
  | .pref o => decide (o.lvl.toNat < 2)
  | .stB _ => true
  | .stH _ => true
  | .stW _ => true
  | .stD _ => true
  | .stQ _ => true
  | .stuD _ => true
  | .stlD _ => true
  | .aadd _ => true
  | .amin _ => true
  | .amax _ => true
  | .aand _ => true
  | .aor _ => true
  | .axch _ => true
  | .acas _ => true
  | .aaddfS _ => true
  | .fence _ => true
  | .release _ => true
  | .acquire _ => true
  | .ifence _ => true
  | .rfence _ => true
  | .cpy _ => true
  | .cpyq _ => true
  | .cpyt _ => true
  | .sealBatch _ => true
  | .cwaitBatch _ => true
  | .rput _ => true
  | .rget _ => true
  | .notify _ => true
  | .snapTake _ => true
  | .accg _ => true
  | .ownx _ => true
  | .mshape _ => true
  | .mld _ => true
  | .mst _ => true
  | .mmovv _ => true
  | .mmul _ => true
  | .mmac _ => true
  | .madd _ => true
  | .mtrn _ => true
  | .mchol _ => true
  | .mlu _ => true
  | .msolc _ => true
  | .msoll _ => true
  | .mscal _ => true
  | .mflag _ => true
  | .midn _ => true
  | .mmv _ => true
  | .tld _ => true
  | .tst _ => true
  | .wload _ => true
  | .wswap _ => true
  | .tmma _ => true
  | .tmmas _ => true
  | .aclr _ => true
  | .acvt _ => true
  | .tckv _ => true
  | .tckfix _ => true
  | .tckset _ => true
  | .tcopy _ => true
  | .dload _ => true
  | .dqry _ => true
  | .dcent _ => true
  | .dfin _ => true
  | .csrr _ => true
  | .csrw _ => true
  | .csrs _ => true
  | .csrc _ => true
  | .cntrd _ => true
  | .cntctlEvsel _ => true
  | .bkpt _ => true
  | .trace _ => true
  | .prog _ => true
  | .ctxfl _ => true
  | .haltg _ => true
  | .resumeg _ => true
  | .hintImm _ => true
  | .hintRep _ => true
  | .hintSched _ => true
  | .hintMod _ => true
  | .hintPrio _ => true
  | .gbar => true
  | .regend => true
  | .cwaitTake => true
  | .cwaitFree => true
  | .snapDrop => true
  | .snapRollback => true
  | .snapShip => true
  | .cntctlTrmask => true
  | .cntctlPclr => true
  | .cntctlSample => true
  | .cntctlTrlo => true
  | .cntctlTrhi => true
  | .cntctlTrstart => true
  | .cntctlTrstop => true
  | .cntctlEclr => true
  | .cntctlDstop => true
  | .hintNop => true
  | .reservedHint => true
  | .rotation => false
  | .handlerStart => false
  | .arrayOperationComplete => false
  | .specialFunctionComplete => false
  | .loadDataReturn => false
  | .hostFetch => false
  | .appenderAccept => false
  | .appendHoldRelease => false
  | .logPressureEvent => false
  | .dredgeStart => false
  | .dredgeDrainComplete => false
  | .indexLookup => false
  | .indexUpdate => false
  | .fold => false
  | .grainEntryWriteback => false
  | .tableFree => false
  | .homeMove => false
  | .claimRequest => false
  | .commitWrite => false
  | .atomicApply => false
  | .atomicAnswer => false
  | .atomicMovedReissue => false
  | .remoteAccessPerform => false
  | .remoteAck => false
  | .impreciseFaultArrival => false
  | .copyStart => false
  | .copyPiece => false
  | .copyComplete => false
  | .copyClaimTimeout => false
  | .ownxTimeout => false
  | .growGrant => false
  | .growDeadlockBreak => false
  | .nodeDispatch => false
  | .groupAdmission => false
  | .prologue => false
  | .nodeRetirement => false
  | .completionRecord => false
  | .notifyRecord => false
  | .stagingTagFree => false
  | .msixHoldoffExpiry => false
  | .lqdoor => false
  | .eqdoor => false
  | .eldoor => false
  | .registerWrite => false
  | .scrub => false
  | .hbmBeatRetry => false
  | .hbmRefresh => false
  | .channelGrant => false
  | .outflowShip => false
  | .watchdogHang => false
  | .peerUnavailable => false
  | .progApply => false
  | .sampleTick => false
  | .trialEnd => false
  | .haltgTimeout => false
  | .preemptRegionStop => false
  | .crewStop => false
  | .forcedReset => false
  | .groupSave => false
  | .deviceReset => false
  | .safePhaseReached => false
  | .hbmTrainingComplete => false
  | .initialiseTimeout => false
  | .logInitialised => false
  | .tileSelfTest => false
  | .attestationSigned => false
  | .thermalThrottle => false
  | .thermalShutdown => false
  | .flitReceive => false
  | .linkTraining => false
  | .portFail => false
  | .peerAccess => false
  | .peerStoreRefuse => false
  | .peerWindowRefresh => false
  | .crossDeviceBarrierArrival => false
  | .readErrorLog => false
  | .firmwareUpdate => false
  | .initialiseCmd => false
  | .readAttestation => false
  | .queueDescriptor => false
  | .contextSet => false
  | .mapPage => false
  | .unmap => false
  | .protect => false
  | .pageAllocate => false
  | .pageFree => false
  | .migrateHostPage => false
  | .scrubRates => false
  | .preempt => false
  | .resume => false
  | .kill => false
  | .checkpoint => false
  | .reload => false
  | .meshAndShards => false
  | .debugCtl => false
  | .peers => false
  | .crossDeviceBarrier => false
  | .cdoor => false
  | .supplyOff => false
  | .recalibration => false
  | .atomicTagSetExpiry => false

end Sys2Proof
end

