-- ==== Sys2Proof/Decode.lean ====
section
/-! DEFINITION. Decoding of one 32-bit word (R91 to R109), total on any bytes and rejecting by name, and after it the
encoder written from the same layouts. -/

namespace Sys2Proof

/-- Why a word is not an instruction (R101). `truncated` is the model's own: fewer than four bytes were given. -/
inductive DecodeErr where
  | truncated
  | reservedOpcode
  | reservedOperand
  | reservedSelector
  | nonzeroReserved
  | notAccepted
  /-- A hint whose payload is at fault: it makes the prefixed instruction illegal, not itself (R101, R104). -/
  | badHint
  deriving DecidableEq, Repr

/-- One bit as a field. -/
def bit (b : Bool) : BitVec 1 := if b then 1#1 else 0#1

/-- The 7-bit code of a source operand (R96). -/
def Src.enc : Src → BitVec 7
  | .v n => 0#1 ++ n
  | .s n => 2#2 ++ n
  | .l n => 24#5 ++ n
  | .zero => 100#7
  | .lane => 101#7
  | .crew => 102#7
  | .ones => 103#7

/-- The source operand of a 7-bit code; codes 104 to 127 are reserved (R96). -/
def Src.dec (c : BitVec 7) : Option Src :=
  if c.toNat < 64 then some (.v (c.extractLsb' 0 6))
  else if c.toNat < 96 then some (.s (c.extractLsb' 0 5))
  else if c.toNat < 100 then some (.l (c.extractLsb' 0 2))
  else if c = 100#7 then some .zero
  else if c = 101#7 then some .lane
  else if c = 102#7 then some .crew
  else if c = 103#7 then some .ones
  else none

/-- The COND code (R94). -/
def Cond.enc : Cond → BitVec 3
  | .eq => 0#3
  | .ne => 1#3
  | .lt => 2#3
  | .le => 3#3
  | .ltu => 4#3
  | .leu => 5#3
  | .unord => 6#3
  | .ord => 7#3

/-- The condition of a COND code (R94). -/
def Cond.dec (c : BitVec 3) : Cond :=
  match c.toNat with
  | 0 => .eq
  | 1 => .ne
  | 2 => .lt
  | 3 => .le
  | 4 => .ltu
  | 5 => .leu
  | 6 => .unord
  | _ => .ord

/-- The word of a `OpA` bundle (R94). -/
def OpA.pack (op : BitVec 8) (o : OpA) : BitVec 32 :=
  (o.b.enc ++ o.a.enc ++ o.d ++ bit o.k ++ o.g ++ op : BitVec 32)

/-- The `OpA` bundle of a word (R94, R101). -/
def OpA.unpack (w : BitVec 32) : Except DecodeErr OpA :=
  match Src.dec (w.extractLsb' 25 7), Src.dec (w.extractLsb' 18 7) with
  | some b, some a => .ok { b := b, a := a, d := w.extractLsb' 12 6, k := w.getLsbD 11, g := w.extractLsb' 8 3 }
  | _, _ => .error .reservedOperand

/-- The word of a `OpI` bundle (R94). -/
def OpI.pack (op : BitVec 8) (o : OpI) : BitVec 32 :=
  (o.imm ++ o.a.enc ++ o.d ++ bit o.k ++ o.g ++ op : BitVec 32)

/-- The `OpI` bundle of a word (R94, R101). -/
def OpI.unpack (w : BitVec 32) : Except DecodeErr OpI :=
  match Src.dec (w.extractLsb' 18 7) with
  | some a => .ok { imm := w.extractLsb' 25 7, a := a, d := w.extractLsb' 12 6, k := w.getLsbD 11, g := w.extractLsb' 8 3 }
  | none => .error .reservedOperand

/-- The word of a `OpMov` bundle (R94). -/
def OpMov.pack (op : BitVec 8) (o : OpMov) : BitVec 32 :=
  (o.imm ++ 100#7 ++ o.d ++ bit o.k ++ o.g ++ op : BitVec 32)

/-- The `OpMov` bundle of a word (R94, R101). -/
def OpMov.unpack (w : BitVec 32) : Except DecodeErr OpMov :=
  if w.extractLsb' 18 7 == 100#7 then
    .ok { imm := w.extractLsb' 25 7, d := w.extractLsb' 12 6, k := w.getLsbD 11, g := w.extractLsb' 8 3 }
  else .error .nonzeroReserved

/-- The word of a `OpA1` bundle (R94). -/
def OpA1.pack (op : BitVec 8) (sel : BitVec 7) (o : OpA1) : BitVec 32 :=
  (sel ++ o.a.enc ++ o.d ++ bit o.k ++ o.g ++ op : BitVec 32)

/-- The `OpA1` bundle of a word (R94, R101). -/
def OpA1.unpack (w : BitVec 32) (sel : BitVec 7) : Except DecodeErr OpA1 :=
  if w.extractLsb' 25 7 == sel then
    match Src.dec (w.extractLsb' 18 7) with
    | some a => .ok { a := a, d := w.extractLsb' 12 6, k := w.getLsbD 11, g := w.extractLsb' 8 3 }
    | none => .error .reservedOperand
  else .error .nonzeroReserved

/-- The word of a `OpCls` bundle (R94). -/
def OpCls.pack (op : BitVec 8) (o : OpCls) : BitVec 32 :=
  (0#5 ++ o.fmt ++ o.a.enc ++ o.d ++ bit o.k ++ o.g ++ op : BitVec 32)

/-- The `OpCls` bundle of a word (R94, R101). -/
def OpCls.unpack (w : BitVec 32) : Except DecodeErr OpCls :=
  if w.extractLsb' 27 5 == 0#5 then
    match Src.dec (w.extractLsb' 18 7) with
    | some a => .ok { fmt := w.extractLsb' 25 2, a := a, d := w.extractLsb' 12 6, k := w.getLsbD 11, g := w.extractLsb' 8 3 }
    | none => .error .reservedOperand
  else .error .nonzeroReserved

/-- The word of a `OpC` bundle (R94). -/
def OpC.pack (op : BitVec 8) (o : OpC) : BitVec 32 :=
  (o.b.enc ++ o.a.enc ++ 0#2 ++ o.p ++ bit o.j ++ o.cond.enc ++ op : BitVec 32)

/-- The `OpC` bundle of a word (R94, R101). -/
def OpC.unpack (w : BitVec 32) : Except DecodeErr OpC :=
  if w.extractLsb' 16 2 == 0#2 then
    match Src.dec (w.extractLsb' 25 7), Src.dec (w.extractLsb' 18 7) with
    | some b, some a => .ok { b := b, a := a, p := w.extractLsb' 12 4, j := w.getLsbD 11, cond := Cond.dec (w.extractLsb' 8 3) }
    | _, _ => .error .reservedOperand
  else .error .nonzeroReserved

/-- The word of a `OpCI` bundle (R94). -/
def OpCI.pack (op : BitVec 8) (o : OpCI) : BitVec 32 :=
  (o.imm ++ o.a.enc ++ 0#2 ++ o.p ++ bit o.j ++ o.cond.enc ++ op : BitVec 32)

/-- The `OpCI` bundle of a word (R94, R101). -/
def OpCI.unpack (w : BitVec 32) : Except DecodeErr OpCI :=
  if w.extractLsb' 16 2 == 0#2 then
    match Src.dec (w.extractLsb' 18 7) with
    | some a => .ok { imm := w.extractLsb' 25 7, a := a, p := w.extractLsb' 12 4, j := w.getLsbD 11, cond := Cond.dec (w.extractLsb' 8 3) }
    | none => .error .reservedOperand
  else .error .nonzeroReserved

/-- The word of a `OpP` bundle (R94). -/
def OpP.pack (op : BitVec 8) (o : OpP) : BitVec 32 :=
  (0#3 ++ o.pb ++ 0#3 ++ o.pa ++ 0#2 ++ o.p ++ bit o.j ++ 0#3 ++ op : BitVec 32)

/-- The `OpP` bundle of a word (R94, R101). -/
def OpP.unpack (w : BitVec 32) : Except DecodeErr OpP :=
  if w.extractLsb' 29 3 == 0#3 && w.extractLsb' 22 3 == 0#3 && w.extractLsb' 16 2 == 0#2 && w.extractLsb' 8 3 == 0#3 then
    .ok { pb := w.extractLsb' 25 4, pa := w.extractLsb' 18 4, p := w.extractLsb' 12 4, j := w.getLsbD 11 }
  else .error .nonzeroReserved

/-- The word of a `OpP1` bundle (R94). -/
def OpP1.pack (op : BitVec 8) (o : OpP1) : BitVec 32 :=
  (0#10 ++ o.pa ++ 0#2 ++ o.p ++ bit o.j ++ 0#3 ++ op : BitVec 32)

/-- The `OpP1` bundle of a word (R94, R101). -/
def OpP1.unpack (w : BitVec 32) : Except DecodeErr OpP1 :=
  if w.extractLsb' 22 10 == 0#10 && w.extractLsb' 16 2 == 0#2 && w.extractLsb' 8 3 == 0#3 then
    .ok { pa := w.extractLsb' 18 4, p := w.extractLsb' 12 4, j := w.getLsbD 11 }
  else .error .nonzeroReserved

/-- The word of a `OpD` bundle (R94). -/
def OpD.pack (op : BitVec 8) (o : OpD) : BitVec 32 :=
  (100#7 ++ 100#7 ++ o.d ++ bit o.k ++ o.g ++ op : BitVec 32)

/-- The `OpD` bundle of a word (R94, R101). -/
def OpD.unpack (w : BitVec 32) : Except DecodeErr OpD :=
  if w.extractLsb' 25 7 == 100#7 && w.extractLsb' 18 7 == 100#7 then
    .ok { d := w.extractLsb' 12 6, k := w.getLsbD 11, g := w.extractLsb' 8 3 }
  else .error .nonzeroReserved

/-- The word of a `OpVt` bundle (R94). -/
def OpVt.pack (op : BitVec 8) (o : OpVt) : BitVec 32 :=
  (o.b.enc ++ o.a.enc ++ 0#2 ++ o.p ++ bit o.j ++ 0#3 ++ op : BitVec 32)

/-- The `OpVt` bundle of a word (R94, R101). -/
def OpVt.unpack (w : BitVec 32) : Except DecodeErr OpVt :=
  if w.extractLsb' 16 2 == 0#2 && w.extractLsb' 8 3 == 0#3 then
    match Src.dec (w.extractLsb' 25 7), Src.dec (w.extractLsb' 18 7) with
    | some b, some a => .ok { b := b, a := a, p := w.extractLsb' 12 4, j := w.getLsbD 11 }
    | _, _ => .error .reservedOperand
  else .error .nonzeroReserved

/-- The word of a `OpCvt` bundle (R94). -/
def OpCvt.pack (op : BitVec 8) (o : OpCvt) : BitVec 32 :=
  (o.sel ++ o.a.enc ++ o.d ++ 0#1 ++ o.g ++ op : BitVec 32)

/-- The `OpCvt` bundle of a word (R94, R101). -/
def OpCvt.unpack (w : BitVec 32) : Except DecodeErr OpCvt :=
  if w.extractLsb' 11 1 == 0#1 then
    match Src.dec (w.extractLsb' 18 7) with
    | some a => .ok { sel := w.extractLsb' 25 7, a := a, d := w.extractLsb' 12 6, g := w.extractLsb' 8 3 }
    | none => .error .reservedOperand
  else .error .nonzeroReserved

/-- The word of a `Op5` bundle (R94). -/
def Op5.pack (op : BitVec 8) (o : Op5) : BitVec 32 :=
  (o.b.enc ++ o.a.enc ++ o.d ++ 0#1 ++ o.g ++ op : BitVec 32)

/-- The `Op5` bundle of a word (R94, R101). -/
def Op5.unpack (w : BitVec 32) : Except DecodeErr Op5 :=
  if w.extractLsb' 11 1 == 0#1 then
    match Src.dec (w.extractLsb' 25 7), Src.dec (w.extractLsb' 18 7) with
    | some b, some a => .ok { b := b, a := a, d := w.extractLsb' 12 6, g := w.extractLsb' 8 3 }
    | _, _ => .error .reservedOperand
  else .error .nonzeroReserved

/-- The word of a `Op51` bundle (R94). -/
def Op51.pack (op : BitVec 8) (o : Op51) : BitVec 32 :=
  (100#7 ++ o.a.enc ++ o.d ++ 0#1 ++ o.g ++ op : BitVec 32)

/-- The `Op51` bundle of a word (R94, R101). -/
def Op51.unpack (w : BitVec 32) : Except DecodeErr Op51 :=
  if w.extractLsb' 25 7 == 100#7 && w.extractLsb' 11 1 == 0#1 then
    match Src.dec (w.extractLsb' 18 7) with
    | some a => .ok { a := a, d := w.extractLsb' 12 6, g := w.extractLsb' 8 3 }
    | none => .error .reservedOperand
  else .error .nonzeroReserved

/-- The word of a `OpVote` bundle (R94). -/
def OpVote.pack (op : BitVec 8) (o : OpVote) : BitVec 32 :=
  (0#10 ++ o.pa ++ 0#2 ++ o.p ++ bit o.j ++ o.mode ++ op : BitVec 32)

/-- The `OpVote` bundle of a word (R94, R101). -/
def OpVote.unpack (w : BitVec 32) : Except DecodeErr OpVote :=
  if w.extractLsb' 22 10 == 0#10 && w.extractLsb' 16 2 == 0#2 then
    .ok { pa := w.extractLsb' 18 4, p := w.extractLsb' 12 4, j := w.getLsbD 11, mode := w.extractLsb' 8 3 }
  else .error .nonzeroReserved

/-- The word of a `OpU` bundle (R94). -/
def OpU.pack (op : BitVec 8) (o : OpU) : BitVec 32 :=
  (o.b.enc ++ o.a.enc ++ 0#1 ++ o.d ++ bit o.k ++ o.g ++ op : BitVec 32)

/-- The `OpU` bundle of a word (R94, R101). -/
def OpU.unpack (w : BitVec 32) : Except DecodeErr OpU :=
  if w.extractLsb' 17 1 == 0#1 then
    match Src.dec (w.extractLsb' 25 7), Src.dec (w.extractLsb' 18 7) with
    | some b, some a => .ok { b := b, a := a, d := w.extractLsb' 12 5, k := w.getLsbD 11, g := w.extractLsb' 8 3 }
    | _, _ => .error .reservedOperand
  else .error .nonzeroReserved

/-- The word of a `OpUI` bundle (R94). -/
def OpUI.pack (op : BitVec 8) (o : OpUI) : BitVec 32 :=
  (o.imm ++ o.a.enc ++ 0#1 ++ o.d ++ bit o.k ++ o.g ++ op : BitVec 32)

/-- The `OpUI` bundle of a word (R94, R101). -/
def OpUI.unpack (w : BitVec 32) : Except DecodeErr OpUI :=
  if w.extractLsb' 17 1 == 0#1 then
    match Src.dec (w.extractLsb' 18 7) with
    | some a => .ok { imm := w.extractLsb' 25 7, a := a, d := w.extractLsb' 12 5, k := w.getLsbD 11, g := w.extractLsb' 8 3 }
    | none => .error .reservedOperand
  else .error .nonzeroReserved

/-- The word of a `OpUMov` bundle (R94). -/
def OpUMov.pack (op : BitVec 8) (o : OpUMov) : BitVec 32 :=
  (o.imm ++ 100#7 ++ 0#1 ++ o.d ++ bit o.k ++ o.g ++ op : BitVec 32)

/-- The `OpUMov` bundle of a word (R94, R101). -/
def OpUMov.unpack (w : BitVec 32) : Except DecodeErr OpUMov :=
  if w.extractLsb' 18 7 == 100#7 && w.extractLsb' 17 1 == 0#1 then
    .ok { imm := w.extractLsb' 25 7, d := w.extractLsb' 12 5, k := w.getLsbD 11, g := w.extractLsb' 8 3 }
  else .error .nonzeroReserved

/-- The word of a `OpB` bundle (R94). -/
def OpB.pack (op : BitVec 8) (o : OpB) : BitVec 32 :=
  (o.off ++ o.g ++ op : BitVec 32)

/-- The `OpB` bundle of a word (R94, R101). -/
def OpB.unpack (w : BitVec 32) : Except DecodeErr OpB :=
  .ok { off := w.extractLsb' 11 21, g := w.extractLsb' 8 3 }

/-- The word of a `OpJ` bundle (R94). -/
def OpJ.pack (op : BitVec 8) (o : OpJ) : BitVec 32 :=
  (o.b.enc ++ o.a.enc ++ 0#7 ++ o.g ++ op : BitVec 32)

/-- The `OpJ` bundle of a word (R94, R101). -/
def OpJ.unpack (w : BitVec 32) : Except DecodeErr OpJ :=
  if w.extractLsb' 11 7 == 0#7 then
    match Src.dec (w.extractLsb' 25 7), Src.dec (w.extractLsb' 18 7) with
    | some b, some a => .ok { b := b, a := a, g := w.extractLsb' 8 3 }
    | _, _ => .error .reservedOperand
  else .error .nonzeroReserved

/-- The word of a `OpG` bundle (R94). -/
def OpG.pack (op : BitVec 8) (o : OpG) : BitVec 32 :=
  (100#7 ++ 100#7 ++ 0#7 ++ o.g ++ op : BitVec 32)

/-- The `OpG` bundle of a word (R94, R101). -/
def OpG.unpack (w : BitVec 32) : Except DecodeErr OpG :=
  if w.extractLsb' 25 7 == 100#7 && w.extractLsb' 18 7 == 100#7 && w.extractLsb' 11 7 == 0#7 then
    .ok { g := w.extractLsb' 8 3 }
  else .error .nonzeroReserved

/-- The word of a `OpS1` bundle (R94). -/
def OpS1.pack (op : BitVec 8) (o : OpS1) : BitVec 32 :=
  (100#7 ++ o.a.enc ++ 0#10 ++ op : BitVec 32)

/-- The `OpS1` bundle of a word (R94, R101). -/
def OpS1.unpack (w : BitVec 32) : Except DecodeErr OpS1 :=
  if w.extractLsb' 25 7 == 100#7 && w.extractLsb' 8 10 == 0#10 then
    match Src.dec (w.extractLsb' 18 7) with
    | some a => .ok { a := a }
    | none => .error .reservedOperand
  else .error .nonzeroReserved

/-- The word of a `OpCv` bundle (R94). -/
def OpCv.pack (op : BitVec 8) (o : OpCv) : BitVec 32 :=
  (100#7 ++ o.a.enc ++ 0#3 ++ o.cv ++ 0#4 ++ op : BitVec 32)

/-- The `OpCv` bundle of a word (R94, R101). -/
def OpCv.unpack (w : BitVec 32) : Except DecodeErr OpCv :=
  if w.extractLsb' 25 7 == 100#7 && w.extractLsb' 15 3 == 0#3 && w.extractLsb' 8 4 == 0#4 then
    match Src.dec (w.extractLsb' 18 7) with
    | some a => .ok { a := a, cv := w.extractLsb' 12 3 }
    | none => .error .reservedOperand
  else .error .nonzeroReserved

/-- The word of a `OpBar` bundle (R94). -/
def OpBar.pack (op : BitVec 8) (o : OpBar) : BitVec 32 :=
  (100#7 ++ o.a.enc ++ 0#1 ++ o.d ++ bit o.k ++ 0#3 ++ op : BitVec 32)

/-- The `OpBar` bundle of a word (R94, R101). -/
def OpBar.unpack (w : BitVec 32) : Except DecodeErr OpBar :=
  if w.extractLsb' 25 7 == 100#7 && w.extractLsb' 17 1 == 0#1 && w.extractLsb' 8 3 == 0#3 then
    match Src.dec (w.extractLsb' 18 7) with
    | some a => .ok { a := a, d := w.extractLsb' 12 5, k := w.getLsbD 11 }
    | none => .error .reservedOperand
  else .error .nonzeroReserved

/-- The word of a `OpS2` bundle (R94). -/
def OpS2.pack (op : BitVec 8) (o : OpS2) : BitVec 32 :=
  (o.b.enc ++ o.a.enc ++ 0#10 ++ op : BitVec 32)

/-- The `OpS2` bundle of a word (R94, R101). -/
def OpS2.unpack (w : BitVec 32) : Except DecodeErr OpS2 :=
  if w.extractLsb' 8 10 == 0#10 then
    match Src.dec (w.extractLsb' 25 7), Src.dec (w.extractLsb' 18 7) with
    | some b, some a => .ok { b := b, a := a }
    | _, _ => .error .reservedOperand
  else .error .nonzeroReserved

/-- The word of a `OpRg` bundle (R94). -/
def OpRg.pack (op : BitVec 8) (o : OpRg) : BitVec 32 :=
  (o.imm ++ 100#7 ++ 0#10 ++ op : BitVec 32)

/-- The `OpRg` bundle of a word (R94, R101). -/
def OpRg.unpack (w : BitVec 32) : Except DecodeErr OpRg :=
  if w.extractLsb' 18 7 == 100#7 && w.extractLsb' 8 10 == 0#10 then
    .ok { imm := w.extractLsb' 25 7 }
  else .error .nonzeroReserved

/-- The word of a `OpTr` bundle (R94). -/
def OpTr.pack (op : BitVec 8) (o : OpTr) : BitVec 32 :=
  (o.imm ++ 100#7 ++ 0#7 ++ o.g ++ op : BitVec 32)

/-- The `OpTr` bundle of a word (R94, R101). -/
def OpTr.unpack (w : BitVec 32) : Except DecodeErr OpTr :=
  if w.extractLsb' 18 7 == 100#7 && w.extractLsb' 11 7 == 0#7 then
    .ok { imm := w.extractLsb' 25 7, g := w.extractLsb' 8 3 }
  else .error .nonzeroReserved

/-- The word of a `OpRt` bundle (R94). -/
def OpRt.pack (op : BitVec 8) (o : OpRt) : BitVec 32 :=
  (100#7 ++ o.a.enc ++ 0#1 ++ o.d ++ 0#4 ++ op : BitVec 32)

/-- The `OpRt` bundle of a word (R94, R101). -/
def OpRt.unpack (w : BitVec 32) : Except DecodeErr OpRt :=
  if w.extractLsb' 25 7 == 100#7 && w.extractLsb' 17 1 == 0#1 && w.extractLsb' 8 4 == 0#4 then
    match Src.dec (w.extractLsb' 18 7) with
    | some a => .ok { a := a, d := w.extractLsb' 12 5 }
    | none => .error .reservedOperand
  else .error .nonzeroReserved

/-- The word of a `OpM` bundle (R94). -/
def OpM.pack (op : BitVec 8) (o : OpM) : BitVec 32 :=
  (o.off ++ o.a.enc ++ o.d ++ 0#1 ++ o.g ++ op : BitVec 32)

/-- The `OpM` bundle of a word (R94, R101). -/
def OpM.unpack (w : BitVec 32) : Except DecodeErr OpM :=
  if w.extractLsb' 11 1 == 0#1 then
    match Src.dec (w.extractLsb' 18 7) with
    | some a => .ok { off := w.extractLsb' 25 7, a := a, d := w.extractLsb' 12 6, g := w.extractLsb' 8 3 }
    | none => .error .reservedOperand
  else .error .nonzeroReserved

/-- The word of a `OpMU` bundle (R94). -/
def OpMU.pack (op : BitVec 8) (o : OpMU) : BitVec 32 :=
  (o.off ++ o.a.enc ++ 0#1 ++ o.d ++ 0#1 ++ o.g ++ op : BitVec 32)

/-- The `OpMU` bundle of a word (R94, R101). -/
def OpMU.unpack (w : BitVec 32) : Except DecodeErr OpMU :=
  if w.extractLsb' 17 1 == 0#1 && w.extractLsb' 11 1 == 0#1 then
    match Src.dec (w.extractLsb' 18 7) with
    | some a => .ok { off := w.extractLsb' 25 7, a := a, d := w.extractLsb' 12 5, g := w.extractLsb' 8 3 }
    | none => .error .reservedOperand
  else .error .nonzeroReserved

/-- The word of a `OpMS` bundle (R94). -/
def OpMS.pack (op : BitVec 8) (o : OpMS) : BitVec 32 :=
  (0#5 ++ o.scope ++ o.a.enc ++ o.d ++ 0#1 ++ o.g ++ op : BitVec 32)

/-- The `OpMS` bundle of a word (R94, R101). -/
def OpMS.unpack (w : BitVec 32) : Except DecodeErr OpMS :=
  if w.extractLsb' 27 5 == 0#5 && w.extractLsb' 11 1 == 0#1 then
    match Src.dec (w.extractLsb' 18 7) with
    | some a => .ok { scope := w.extractLsb' 25 2, a := a, d := w.extractLsb' 12 6, g := w.extractLsb' 8 3 }
    | none => .error .reservedOperand
  else .error .nonzeroReserved

/-- The word of a `OpPf` bundle (R94). -/
def OpPf.pack (op : BitVec 8) (o : OpPf) : BitVec 32 :=
  (o.off ++ o.a.enc ++ 0#4 ++ o.lvl ++ 0#1 ++ o.g ++ op : BitVec 32)

/-- The `OpPf` bundle of a word (R94, R101). -/
def OpPf.unpack (w : BitVec 32) : Except DecodeErr OpPf :=
  if w.extractLsb' 14 4 == 0#4 && w.extractLsb' 11 1 == 0#1 then
    match Src.dec (w.extractLsb' 18 7) with
    | some a => .ok { off := w.extractLsb' 25 7, a := a, lvl := w.extractLsb' 12 2, g := w.extractLsb' 8 3 }
    | none => .error .reservedOperand
  else .error .nonzeroReserved

/-- The word of a `OpF` bundle (R94). -/
def OpF.pack (op : BitVec 8) (o : OpF) : BitVec 32 :=
  (100#7 ++ 100#7 ++ 0#3 ++ o.scope ++ 0#1 ++ o.g ++ op : BitVec 32)

/-- The `OpF` bundle of a word (R94, R101). -/
def OpF.unpack (w : BitVec 32) : Except DecodeErr OpF :=
  if w.extractLsb' 25 7 == 100#7 && w.extractLsb' 18 7 == 100#7 && w.extractLsb' 15 3 == 0#3 && w.extractLsb' 11 1 == 0#1 then
    .ok { scope := w.extractLsb' 12 3, g := w.extractLsb' 8 3 }
  else .error .nonzeroReserved

/-- The word of a `OpCp` bundle (R94). -/
def OpCp.pack (op : BitVec 8) (o : OpCp) : BitVec 32 :=
  (2#2 ++ o.sb ++ 2#2 ++ o.sa ++ 0#1 ++ o.d ++ 0#1 ++ o.g ++ op : BitVec 32)

/-- The `OpCp` bundle of a word (R94, R101). -/
def OpCp.unpack (w : BitVec 32) : Except DecodeErr OpCp :=
  if w.extractLsb' 30 2 == 2#2 && w.extractLsb' 23 2 == 2#2 && w.extractLsb' 17 1 == 0#1 && w.extractLsb' 11 1 == 0#1 then
    .ok { sb := w.extractLsb' 25 5, sa := w.extractLsb' 18 5, d := w.extractLsb' 12 5, g := w.extractLsb' 8 3 }
  else .error .nonzeroReserved

/-- The word of a `OpSeal` bundle (R94). -/
def OpSeal.pack (op : BitVec 8) (o : OpSeal) : BitVec 32 :=
  (100#7 ++ 100#7 ++ 0#1 ++ o.d ++ 0#1 ++ o.g ++ op : BitVec 32)

/-- The `OpSeal` bundle of a word (R94, R101). -/
def OpSeal.unpack (w : BitVec 32) : Except DecodeErr OpSeal :=
  if w.extractLsb' 25 7 == 100#7 && w.extractLsb' 18 7 == 100#7 && w.extractLsb' 17 1 == 0#1 && w.extractLsb' 11 1 == 0#1 then
    .ok { d := w.extractLsb' 12 5, g := w.extractLsb' 8 3 }
  else .error .nonzeroReserved

/-- The word of a `OpDA` bundle (R94). -/
def OpDA.pack (op : BitVec 8) (o : OpDA) : BitVec 32 :=
  (100#7 ++ o.a.enc ++ 0#1 ++ o.d ++ 0#1 ++ o.g ++ op : BitVec 32)

/-- The `OpDA` bundle of a word (R94, R101). -/
def OpDA.unpack (w : BitVec 32) : Except DecodeErr OpDA :=
  if w.extractLsb' 25 7 == 100#7 && w.extractLsb' 17 1 == 0#1 && w.extractLsb' 11 1 == 0#1 then
    match Src.dec (w.extractLsb' 18 7) with
    | some a => .ok { a := a, d := w.extractLsb' 12 5, g := w.extractLsb' 8 3 }
    | none => .error .reservedOperand
  else .error .nonzeroReserved

/-- The word of a `OpDU` bundle (R94). -/
def OpDU.pack (op : BitVec 8) (o : OpDU) : BitVec 32 :=
  (o.b.enc ++ o.a.enc ++ 0#1 ++ o.d ++ 0#1 ++ o.g ++ op : BitVec 32)

/-- The `OpDU` bundle of a word (R94, R101). -/
def OpDU.unpack (w : BitVec 32) : Except DecodeErr OpDU :=
  if w.extractLsb' 17 1 == 0#1 && w.extractLsb' 11 1 == 0#1 then
    match Src.dec (w.extractLsb' 25 7), Src.dec (w.extractLsb' 18 7) with
    | some b, some a => .ok { b := b, a := a, d := w.extractLsb' 12 5, g := w.extractLsb' 8 3 }
    | _, _ => .error .reservedOperand
  else .error .nonzeroReserved

/-- The word of a `OpMsh` bundle (R94). -/
def OpMsh.pack (op : BitVec 8) (o : OpMsh) : BitVec 32 :=
  (0#1 ++ bit o.ty ++ o.cols ++ o.rows ++ 0#8 ++ o.d ++ 0#1 ++ o.g ++ op : BitVec 32)

/-- The `OpMsh` bundle of a word (R94, R101). -/
def OpMsh.unpack (w : BitVec 32) : Except DecodeErr OpMsh :=
  if w.extractLsb' 31 1 == 0#1 && w.extractLsb' 16 8 == 0#8 && w.extractLsb' 11 1 == 0#1 then
    .ok { ty := w.getLsbD 30, cols := w.extractLsb' 27 3, rows := w.extractLsb' 24 3, d := w.extractLsb' 12 4, g := w.extractLsb' 8 3 }
  else .error .nonzeroReserved

/-- The word of a `OpMl` bundle (R94). -/
def OpMl.pack (op : BitVec 8) (o : OpMl) : BitVec 32 :=
  (bit o.xp ++ o.stride ++ 0#4 ++ o.a.enc ++ o.d ++ 0#1 ++ o.g ++ op : BitVec 32)

/-- The `OpMl` bundle of a word (R94, R101). -/
def OpMl.unpack (w : BitVec 32) : Except DecodeErr OpMl :=
  if w.extractLsb' 23 4 == 0#4 && w.extractLsb' 11 1 == 0#1 then
    match Src.dec (w.extractLsb' 16 7) with
    | some a => .ok { xp := w.getLsbD 31, stride := w.extractLsb' 27 4, a := a, d := w.extractLsb' 12 4, g := w.extractLsb' 8 3 }
    | none => .error .reservedOperand
  else .error .nonzeroReserved

/-- The word of a `OpMmv` bundle (R94). -/
def OpMmv.pack (op : BitVec 8) (o : OpMmv) : BitVec 32 :=
  (0#1 ++ bit o.dir ++ o.v ++ 0#1 ++ o.j ++ 0#1 ++ o.i ++ o.m ++ 0#1 ++ o.g ++ op : BitVec 32)

/-- The `OpMmv` bundle of a word (R94, R101). -/
def OpMmv.unpack (w : BitVec 32) : Except DecodeErr OpMmv :=
  if w.extractLsb' 31 1 == 0#1 && w.extractLsb' 23 1 == 0#1 && w.extractLsb' 19 1 == 0#1 && w.extractLsb' 11 1 == 0#1 then
    .ok { dir := w.getLsbD 30, v := w.extractLsb' 24 6, j := w.extractLsb' 20 3, i := w.extractLsb' 16 3, m := w.extractLsb' 12 4, g := w.extractLsb' 8 3 }
  else .error .nonzeroReserved

/-- The word of a `OpMm` bundle (R94). -/
def OpMm.pack (op : BitVec 8) (o : OpMm) : BitVec 32 :=
  (0#6 ++ bit o.tb ++ bit o.ta ++ o.b ++ o.a ++ o.d ++ 0#1 ++ o.g ++ op : BitVec 32)

/-- The `OpMm` bundle of a word (R94, R101). -/
def OpMm.unpack (w : BitVec 32) : Except DecodeErr OpMm :=
  if w.extractLsb' 26 6 == 0#6 && w.extractLsb' 11 1 == 0#1 then
    .ok { tb := w.getLsbD 25, ta := w.getLsbD 24, b := w.extractLsb' 20 4, a := w.extractLsb' 16 4, d := w.extractLsb' 12 4, g := w.extractLsb' 8 3 }
  else .error .nonzeroReserved

/-- The word of a `OpMmn` bundle (R94). -/
def OpMmn.pack (op : BitVec 8) (o : OpMmn) : BitVec 32 :=
  (0#5 ++ bit o.neg ++ bit o.tb ++ bit o.ta ++ o.b ++ o.a ++ o.d ++ 0#1 ++ o.g ++ op : BitVec 32)

/-- The `OpMmn` bundle of a word (R94, R101). -/
def OpMmn.unpack (w : BitVec 32) : Except DecodeErr OpMmn :=
  if w.extractLsb' 27 5 == 0#5 && w.extractLsb' 11 1 == 0#1 then
    .ok { neg := w.getLsbD 26, tb := w.getLsbD 25, ta := w.getLsbD 24, b := w.extractLsb' 20 4, a := w.extractLsb' 16 4, d := w.extractLsb' 12 4, g := w.extractLsb' 8 3 }
  else .error .nonzeroReserved

/-- The word of a `OpMad` bundle (R94). -/
def OpMad.pack (op : BitVec 8) (o : OpMad) : BitVec 32 :=
  (0#7 ++ bit o.sub ++ o.b ++ o.a ++ o.d ++ 0#1 ++ o.g ++ op : BitVec 32)

/-- The `OpMad` bundle of a word (R94, R101). -/
def OpMad.unpack (w : BitVec 32) : Except DecodeErr OpMad :=
  if w.extractLsb' 25 7 == 0#7 && w.extractLsb' 11 1 == 0#1 then
    .ok { sub := w.getLsbD 24, b := w.extractLsb' 20 4, a := w.extractLsb' 16 4, d := w.extractLsb' 12 4, g := w.extractLsb' 8 3 }
  else .error .nonzeroReserved

/-- The word of a `OpM2` bundle (R94). -/
def OpM2.pack (op : BitVec 8) (o : OpM2) : BitVec 32 :=
  (0#12 ++ o.a ++ o.d ++ 0#1 ++ o.g ++ op : BitVec 32)

/-- The `OpM2` bundle of a word (R94, R101). -/
def OpM2.unpack (w : BitVec 32) : Except DecodeErr OpM2 :=
  if w.extractLsb' 20 12 == 0#12 && w.extractLsb' 11 1 == 0#1 then
    .ok { a := w.extractLsb' 16 4, d := w.extractLsb' 12 4, g := w.extractLsb' 8 3 }
  else .error .nonzeroReserved

/-- The word of a `OpM2v` bundle (R94). -/
def OpM2v.pack (op : BitVec 8) (o : OpM2v) : BitVec 32 :=
  (0#2 ++ o.v ++ 0#4 ++ o.a ++ o.d ++ 0#1 ++ o.g ++ op : BitVec 32)

/-- The `OpM2v` bundle of a word (R94, R101). -/
def OpM2v.unpack (w : BitVec 32) : Except DecodeErr OpM2v :=
  if w.extractLsb' 30 2 == 0#2 && w.extractLsb' 20 4 == 0#4 && w.extractLsb' 11 1 == 0#1 then
    .ok { v := w.extractLsb' 24 6, a := w.extractLsb' 16 4, d := w.extractLsb' 12 4, g := w.extractLsb' 8 3 }
  else .error .nonzeroReserved

/-- The word of a `OpMsc` bundle (R94). -/
def OpMsc.pack (op : BitVec 8) (o : OpMsc) : BitVec 32 :=
  (0#6 ++ o.mode ++ o.b ++ o.a ++ o.d ++ 0#1 ++ o.g ++ op : BitVec 32)

/-- The `OpMsc` bundle of a word (R94, R101). -/
def OpMsc.unpack (w : BitVec 32) : Except DecodeErr OpMsc :=
  if w.extractLsb' 26 6 == 0#6 && w.extractLsb' 11 1 == 0#1 then
    .ok { mode := w.extractLsb' 24 2, b := w.extractLsb' 20 4, a := w.extractLsb' 16 4, d := w.extractLsb' 12 4, g := w.extractLsb' 8 3 }
  else .error .nonzeroReserved

/-- The word of a `OpM3v` bundle (R94). -/
def OpM3v.pack (op : BitVec 8) (o : OpM3v) : BitVec 32 :=
  (0#2 ++ o.v ++ o.b ++ o.a ++ o.d ++ 0#1 ++ o.g ++ op : BitVec 32)

/-- The `OpM3v` bundle of a word (R94, R101). -/
def OpM3v.unpack (w : BitVec 32) : Except DecodeErr OpM3v :=
  if w.extractLsb' 30 2 == 0#2 && w.extractLsb' 11 1 == 0#1 then
    .ok { v := w.extractLsb' 24 6, b := w.extractLsb' 20 4, a := w.extractLsb' 16 4, d := w.extractLsb' 12 4, g := w.extractLsb' 8 3 }
  else .error .nonzeroReserved

/-- The word of a `OpMfl` bundle (R94). -/
def OpMfl.pack (op : BitVec 8) (o : OpMfl) : BitVec 32 :=
  (0#1 ++ bit o.clr ++ o.v ++ 0#13 ++ o.g ++ op : BitVec 32)

/-- The `OpMfl` bundle of a word (R94, R101). -/
def OpMfl.unpack (w : BitVec 32) : Except DecodeErr OpMfl :=
  if w.extractLsb' 31 1 == 0#1 && w.extractLsb' 11 13 == 0#13 then
    .ok { clr := w.getLsbD 30, v := w.extractLsb' 24 6, g := w.extractLsb' 8 3 }
  else .error .nonzeroReserved

/-- The word of a `OpMid` bundle (R94). -/
def OpMid.pack (op : BitVec 8) (o : OpMid) : BitVec 32 :=
  (0#1 ++ bit o.ty ++ 0#3 ++ o.n ++ 0#8 ++ o.d ++ 0#1 ++ o.g ++ op : BitVec 32)

/-- The `OpMid` bundle of a word (R94, R101). -/
def OpMid.unpack (w : BitVec 32) : Except DecodeErr OpMid :=
  if w.extractLsb' 31 1 == 0#1 && w.extractLsb' 27 3 == 0#3 && w.extractLsb' 16 8 == 0#8 && w.extractLsb' 11 1 == 0#1 then
    .ok { ty := w.getLsbD 30, n := w.extractLsb' 24 3, d := w.extractLsb' 12 4, g := w.extractLsb' 8 3 }
  else .error .nonzeroReserved

/-- The word of a `OpMvv` bundle (R94). -/
def OpMvv.pack (op : BitVec 8) (o : OpMvv) : BitVec 32 :=
  (0#5 ++ bit o.neg ++ bit o.acc ++ bit o.ta ++ o.b ++ o.a ++ o.d ++ 0#1 ++ o.g ++ op : BitVec 32)

/-- The `OpMvv` bundle of a word (R94, R101). -/
def OpMvv.unpack (w : BitVec 32) : Except DecodeErr OpMvv :=
  if w.extractLsb' 27 5 == 0#5 && w.extractLsb' 11 1 == 0#1 then
    .ok { neg := w.getLsbD 26, acc := w.getLsbD 25, ta := w.getLsbD 24, b := w.extractLsb' 20 4, a := w.extractLsb' 16 4, d := w.extractLsb' 12 4, g := w.extractLsb' 8 3 }
  else .error .nonzeroReserved

/-- The word of a `OpTt` bundle (R94). -/
def OpTt.pack (op : BitVec 8) (o : OpTt) : BitVec 32 :=
  (2#2 ++ o.w ++ o.t ++ 0#6 ++ o.cv ++ 0#1 ++ o.g ++ op : BitVec 32)

/-- The `OpTt` bundle of a word (R94, R101). -/
def OpTt.unpack (w : BitVec 32) : Except DecodeErr OpTt :=
  if w.extractLsb' 30 2 == 2#2 && w.extractLsb' 15 6 == 0#6 && w.extractLsb' 11 1 == 0#1 then
    .ok { w := w.extractLsb' 25 5, t := w.extractLsb' 21 4, cv := w.extractLsb' 12 3, g := w.extractLsb' 8 3 }
  else .error .nonzeroReserved

/-- The word of a `OpTw` bundle (R94). -/
def OpTw.pack (op : BitVec 8) (o : OpTw) : BitVec 32 :=
  (2#2 ++ o.w ++ 0#10 ++ o.cv ++ 0#1 ++ o.g ++ op : BitVec 32)

/-- The `OpTw` bundle of a word (R94, R101). -/
def OpTw.unpack (w : BitVec 32) : Except DecodeErr OpTw :=
  if w.extractLsb' 30 2 == 2#2 && w.extractLsb' 15 10 == 0#10 && w.extractLsb' 11 1 == 0#1 then
    .ok { w := w.extractLsb' 25 5, cv := w.extractLsb' 12 3, g := w.extractLsb' 8 3 }
  else .error .nonzeroReserved

/-- The word of a `OpTc` bundle (R94). -/
def OpTc.pack (op : BitVec 8) (o : OpTc) : BitVec 32 :=
  (64#7 ++ 0#10 ++ o.cv ++ 0#1 ++ o.g ++ op : BitVec 32)

/-- The `OpTc` bundle of a word (R94, R101). -/
def OpTc.unpack (w : BitVec 32) : Except DecodeErr OpTc :=
  if w.extractLsb' 25 7 == 64#7 && w.extractLsb' 15 10 == 0#10 && w.extractLsb' 11 1 == 0#1 then
    .ok { cv := w.extractLsb' 12 3, g := w.extractLsb' 8 3 }
  else .error .nonzeroReserved

/-- The word of a `OpTa` bundle (R94). -/
def OpTa.pack (op : BitVec 8) (o : OpTa) : BitVec 32 :=
  (2#2 ++ o.w ++ o.t ++ o.ad ++ o.cv ++ 0#1 ++ o.g ++ op : BitVec 32)

/-- The `OpTa` bundle of a word (R94, R101). -/
def OpTa.unpack (w : BitVec 32) : Except DecodeErr OpTa :=
  if w.extractLsb' 30 2 == 2#2 && w.extractLsb' 11 1 == 0#1 then
    .ok { w := w.extractLsb' 25 5, t := w.extractLsb' 21 4, ad := w.extractLsb' 15 6, cv := w.extractLsb' 12 3, g := w.extractLsb' 8 3 }
  else .error .nonzeroReserved

/-- The word of a `OpTl` bundle (R94). -/
def OpTl.pack (op : BitVec 8) (o : OpTl) : BitVec 32 :=
  (2#2 ++ o.w ++ 0#4 ++ o.ad ++ o.cv ++ 0#1 ++ o.g ++ op : BitVec 32)

/-- The `OpTl` bundle of a word (R94, R101). -/
def OpTl.unpack (w : BitVec 32) : Except DecodeErr OpTl :=
  if w.extractLsb' 30 2 == 2#2 && w.extractLsb' 21 4 == 0#4 && w.extractLsb' 11 1 == 0#1 then
    .ok { w := w.extractLsb' 25 5, ad := w.extractLsb' 15 6, cv := w.extractLsb' 12 3, g := w.extractLsb' 8 3 }
  else .error .nonzeroReserved

/-- The word of a `OpTak` bundle (R94). -/
def OpTak.pack (op : BitVec 8) (o : OpTak) : BitVec 32 :=
  (2#2 ++ o.w ++ o.t ++ o.ad ++ o.cv ++ bit o.k ++ o.g ++ op : BitVec 32)

/-- The `OpTak` bundle of a word (R94, R101). -/
def OpTak.unpack (w : BitVec 32) : Except DecodeErr OpTak :=
  if w.extractLsb' 30 2 == 2#2 then
    .ok { w := w.extractLsb' 25 5, t := w.extractLsb' 21 4, ad := w.extractLsb' 15 6, cv := w.extractLsb' 12 3, k := w.getLsbD 11, g := w.extractLsb' 8 3 }
  else .error .nonzeroReserved

/-- The word of a `OpTtk` bundle (R94). -/
def OpTtk.pack (op : BitVec 8) (o : OpTtk) : BitVec 32 :=
  (2#2 ++ o.w ++ o.t ++ 0#6 ++ o.cv ++ bit o.k ++ o.g ++ op : BitVec 32)

/-- The `OpTtk` bundle of a word (R94, R101). -/
def OpTtk.unpack (w : BitVec 32) : Except DecodeErr OpTtk :=
  if w.extractLsb' 30 2 == 2#2 && w.extractLsb' 15 6 == 0#6 then
    .ok { w := w.extractLsb' 25 5, t := w.extractLsb' 21 4, cv := w.extractLsb' 12 3, k := w.getLsbD 11, g := w.extractLsb' 8 3 }
  else .error .nonzeroReserved

/-- The word of a `OpCsr` bundle (R94). -/
def OpCsr.pack (op : BitVec 8) (o : OpCsr) : BitVec 32 :=
  (o.csr ++ 0#1 ++ o.d ++ 0#1 ++ o.g ++ op : BitVec 32)

/-- The `OpCsr` bundle of a word (R94, R101). -/
def OpCsr.unpack (w : BitVec 32) : Except DecodeErr OpCsr :=
  if w.extractLsb' 17 1 == 0#1 && w.extractLsb' 11 1 == 0#1 then
    .ok { csr := w.extractLsb' 18 14, d := w.extractLsb' 12 5, g := w.extractLsb' 8 3 }
  else .error .nonzeroReserved

/-- The word of a `OpUa` bundle (R94). -/
def OpUa.pack (op : BitVec 8) (o : OpUa) : BitVec 32 :=
  (100#7 ++ o.a.enc ++ 0#1 ++ o.d ++ bit o.k ++ o.g ++ op : BitVec 32)

/-- The `OpUa` bundle of a word (R94, R101). -/
def OpUa.unpack (w : BitVec 32) : Except DecodeErr OpUa :=
  if w.extractLsb' 25 7 == 100#7 && w.extractLsb' 17 1 == 0#1 then
    match Src.dec (w.extractLsb' 18 7) with
    | some a => .ok { a := a, d := w.extractLsb' 12 5, k := w.getLsbD 11, g := w.extractLsb' 8 3 }
    | none => .error .reservedOperand
  else .error .nonzeroReserved

/-- The word of a `OpS1g` bundle (R94). -/
def OpS1g.pack (op : BitVec 8) (o : OpS1g) : BitVec 32 :=
  (100#7 ++ o.a.enc ++ 0#7 ++ o.g ++ op : BitVec 32)

/-- The `OpS1g` bundle of a word (R94, R101). -/
def OpS1g.unpack (w : BitVec 32) : Except DecodeErr OpS1g :=
  if w.extractLsb' 25 7 == 100#7 && w.extractLsb' 11 7 == 0#7 then
    match Src.dec (w.extractLsb' 18 7) with
    | some a => .ok { a := a, g := w.extractLsb' 8 3 }
    | none => .error .reservedOperand
  else .error .nonzeroReserved

/-- The word of a `OpHint` bundle (R94). -/
def OpHint.pack (op : BitVec 8) (o : OpHint) : BitVec 32 :=
  (o.p ++ op : BitVec 32)

/-- The `OpHint` bundle of a word (R94, R101). -/
def OpHint.unpack (w : BitVec 32) : Except DecodeErr OpHint :=
  .ok { p := w.extractLsb' 8 24 }

/-- The word of a `OpHRep` bundle (R94). -/
def OpHRep.pack (op : BitVec 8) (o : OpHRep) : BitVec 32 :=
  (0#6 ++ o.bst ++ o.ast ++ o.dst ++ o.n ++ op : BitVec 32)

/-- The `OpHRep` bundle of a word (R94, R101). -/
def OpHRep.unpack (w : BitVec 32) : Except DecodeErr OpHRep :=
  if w.extractLsb' 26 6 == 0#6 then
    .ok { bst := w.extractLsb' 22 4, ast := w.extractLsb' 18 4, dst := w.extractLsb' 14 4, n := w.extractLsb' 8 6 }
  else .error .nonzeroReserved

/-- The word of a `OpHSched` bundle (R94). -/
def OpHSched.pack (op : BitVec 8) (o : OpHSched) : BitVec 32 :=
  (0#15 ++ bit o.yld ++ o.stall ++ op : BitVec 32)

/-- The `OpHSched` bundle of a word (R94, R101). -/
def OpHSched.unpack (w : BitVec 32) : Except DecodeErr OpHSched :=
  if w.extractLsb' 17 15 == 0#15 then
    .ok { yld := w.getLsbD 16, stall := w.extractLsb' 8 8 }
  else .error .nonzeroReserved

/-- The word of a `OpHMod` bundle (R94). -/
def OpHMod.pack (op : BitVec 8) (o : OpHMod) : BitVec 32 :=
  (0#18 ++ o.cache ++ bit o.sat ++ bit o.en ++ o.rm ++ op : BitVec 32)

/-- The `OpHMod` bundle of a word (R94, R101). -/
def OpHMod.unpack (w : BitVec 32) : Except DecodeErr OpHMod :=
  if w.extractLsb' 14 18 == 0#18 then
    .ok { cache := w.extractLsb' 12 2, sat := w.getLsbD 11, en := w.getLsbD 10, rm := w.extractLsb' 8 2 }
  else .error .nonzeroReserved

/-- The word of a `OpHPrio` bundle (R94). -/
def OpHPrio.pack (op : BitVec 8) (o : OpHPrio) : BitVec 32 :=
  (0#22 ++ o.lvl ++ op : BitVec 32)

/-- The `OpHPrio` bundle of a word (R94, R101). -/
def OpHPrio.unpack (w : BitVec 32) : Except DecodeErr OpHPrio :=
  if w.extractLsb' 10 22 == 0#22 then
    .ok { lvl := w.extractLsb' 8 2 }
  else .error .nonzeroReserved

/-- The word of an instruction without operands. -/
def packNone (op : BitVec 8) : BitVec 32 :=
  (100#7 ++ 100#7 ++ 0#10 ++ op : BitVec 32)

/-- The check of an instruction without operands. -/
def unpackNone (w : BitVec 32) (i : Instr) : Except DecodeErr Instr :=
  if w.extractLsb' 25 7 == 100#7 && w.extractLsb' 18 7 == 100#7 && w.extractLsb' 8 10 == 0#10 then .ok i else .error .nonzeroReserved

/-- The raw decoding of group 0 by FN (R99). -/
def decodeG0 (fn : Nat) (w : BitVec 32) : Except DecodeErr Instr :=
  match fn with
  | 0 => (OpA.unpack w).map .addD
  | 1 => (OpA.unpack w).map .addW
  | 2 => (OpA.unpack w).map .addH
  | 3 => (OpA.unpack w).map .addB
  | 4 => (OpA.unpack w).map .subD
  | 5 => (OpA.unpack w).map .subW
  | 6 => (OpA.unpack w).map .subH
  | 7 => (OpA.unpack w).map .subB
  | 8 => (OpA.unpack w).map .mulD
  | 9 => (OpA.unpack w).map .mulW
  | 10 => (OpA.unpack w).map .mulhD
  | 11 => (OpA.unpack w).map .mulhuD
  | 12 => (OpA.unpack w).map .andD
  | 13 => (OpA.unpack w).map .orD
  | 14 => (OpA.unpack w).map .xorD
  | 15 => (OpA.unpack w).map .andn
  | _ => .error .reservedOpcode

/-- BITU: the selector in I7 names the operation (R97, R151). -/
def decodeBitu (w : BitVec 32) : Except DecodeErr Instr :=
  match (w.extractLsb' 25 7).toNat with
  | 0 => (OpA1.unpack w 0#7).map .clzD
  | 1 => (OpA1.unpack w 1#7).map .ctzD
  | 2 => (OpA1.unpack w 2#7).map .popcD
  | 3 => (OpA1.unpack w 3#7).map .brevD
  | 4 => (OpA1.unpack w 4#7).map .bswapD
  | 5 => (OpA1.unpack w 5#7).map .clzW
  | 6 => (OpA1.unpack w 6#7).map .popcW
  | 7 => (OpA1.unpack w 7#7).map .sextW
  | 8 => (OpA1.unpack w 8#7).map .zextW
  | 9 => (OpA1.unpack w 9#7).map .sextH
  | 10 => (OpA1.unpack w 10#7).map .sextB
  | _ => .error .reservedSelector

/-- The raw decoding of group 1 by FN (R99). -/
def decodeG1 (fn : Nat) (w : BitVec 32) : Except DecodeErr Instr :=
  match fn with
  | 0 => (OpA.unpack w).map .addsH
  | 1 => (OpA.unpack w).map .subsH
  | 2 => (OpA.unpack w).map .addusB
  | 3 => (OpA.unpack w).map .subusB
  | 4 => (OpA.unpack w).map .minH
  | 5 => (OpA.unpack w).map .maxH
  | 6 => (OpA.unpack w).map .minW
  | 7 => (OpA.unpack w).map .maxW
  | 8 => (OpA.unpack w).map .shlD
  | 9 => (OpA.unpack w).map .shrD
  | 10 => (OpA.unpack w).map .sarD
  | 11 => (OpA.unpack w).map .rotD
  | 12 => (OpI.unpack w).map .addiD
  | 13 => (OpI.unpack w).map .addiW
  | 14 => (OpMov.unpack w).map .movi
  | 15 => decodeBitu w
  | _ => .error .reservedOpcode

/-- The raw decoding of group 2 by FN (R99). -/
def decodeG2 (fn : Nat) (w : BitVec 32) : Except DecodeErr Instr :=
  match fn with
  | 0 => (OpA.unpack w).map .faddD
  | 1 => (OpA.unpack w).map .faddS
  | 2 => (OpA.unpack w).map .faddH
  | 3 => (OpA.unpack w).map .faddB
  | 4 => (OpA.unpack w).map .fsubD
  | 5 => (OpA.unpack w).map .fsubS
  | 6 => (OpA.unpack w).map .fsubH
  | 7 => (OpA.unpack w).map .fsubB
  | 8 => (OpA.unpack w).map .fmulD
  | 9 => (OpA.unpack w).map .fmulS
  | 10 => (OpA.unpack w).map .fmulH
  | 11 => (OpA.unpack w).map .fmulB
  | 12 => (OpA.unpack w).map .ffmaD
  | 13 => (OpA.unpack w).map .ffmaS
  | 14 => (OpA.unpack w).map .ffmaH
  | 15 => (OpA.unpack w).map .ffmaB
  | _ => .error .reservedOpcode

/-- The raw decoding of group 3 by FN (R99). -/
def decodeG3 (fn : Nat) (w : BitVec 32) : Except DecodeErr Instr :=
  match fn with
  | 0 => (OpA.unpack w).map .fminD
  | 1 => (OpA.unpack w).map .fminS
  | 2 => (OpA.unpack w).map .fminH
  | 3 => (OpA.unpack w).map .fmaxD
  | 4 => (OpA.unpack w).map .fmaxS
  | 5 => (OpA.unpack w).map .fmaxH
  | 6 => (OpA.unpack w).map .fnmaD
  | 7 => (OpA.unpack w).map .fnmaS
  | 8 => (OpA1.unpack w 100#7).map .fabsD
  | 9 => (OpA1.unpack w 100#7).map .fabsS
  | 10 => (OpA1.unpack w 100#7).map .fnegD
  | 11 => (OpA1.unpack w 100#7).map .fnegS
  | 12 => (OpCls.unpack w).map .fclass
  | 13 => (OpA.unpack w).map .fdot2H
  | 14 => (OpA.unpack w).map .fdot2B
  | 15 => (OpA.unpack w).map .fscaleD
  | _ => .error .reservedOpcode

/-- The raw decoding of group 4 by FN (R99). -/
def decodeG4 (fn : Nat) (w : BitVec 32) : Except DecodeErr Instr :=
  match fn with
  | 0 => (OpC.unpack w).map .icmpD
  | 1 => (OpC.unpack w).map .icmpW
  | 2 => (OpC.unpack w).map .fcmpD
  | 3 => (OpC.unpack w).map .fcmpS
  | 4 => (OpCI.unpack w).map .icmpiD
  | 5 => (OpP.unpack w).map .pand
  | 6 => (OpP.unpack w).map .por
  | 7 => (OpP.unpack w).map .pxor
  | 8 => (OpP1.unpack w).map .pnot
  | 9 => (OpA.unpack w).map .sel
  | 10 => (OpD.unpack w).map .ptov
  | 11 => (OpVt.unpack w).map .vtop
  | 12 => (OpC.unpack w).map .vcmpmH
  | 13 => (OpC.unpack w).map .vcmpmB
  | 14 => (OpC.unpack w).map .fcmpmH
  | _ => .error .reservedOpcode

/-- The raw decoding of group 5 by FN (R99). -/
def decodeG5 (fn : Nat) (w : BitVec 32) : Except DecodeErr Instr :=
  match fn with
  | 0 => (OpCvt.unpack w).map .cvt
  | 1 => (Op5.unpack w).map .cvtq
  | 2 => (Op5.unpack w).map .deq
  | 3 => (Op5.unpack w).map .fdivD
  | 4 => (Op5.unpack w).map .fdivS
  | 5 => (Op51.unpack w).map .fsqrtD
  | 6 => (Op51.unpack w).map .fsqrtS
  | 7 => (Op51.unpack w).map .frcpS
  | 8 => (Op51.unpack w).map .frsqS
  | 9 => (Op51.unpack w).map .fexp2S
  | 10 => (Op51.unpack w).map .flog2S
  | 11 => (Op51.unpack w).map .fsinpS
  | 12 => (Op51.unpack w).map .fcospS
  | 13 => (Op51.unpack w).map .ftanhS
  | 14 => (Op5.unpack w).map .idivD
  | 15 => (Op5.unpack w).map .idivuD
  | _ => .error .reservedOpcode

/-- The raw decoding of group 6 by FN (R99). -/
def decodeG6 (fn : Nat) (w : BitVec 32) : Except DecodeErr Instr :=
  match fn with
  | 0 => (OpA.unpack w).map .permD
  | 1 => (OpA.unpack w).map .permW
  | 2 => (OpA.unpack w).map .permH
  | 3 => (OpA.unpack w).map .permB
  | 4 => (OpA.unpack w).map .bcast
  | 5 => (OpA.unpack w).map .rotxH
  | 6 => (OpA1.unpack w 100#7).map .ballot
  | 7 => (OpVote.unpack w).map .vote
  | 8 => (OpA1.unpack w 100#7).map .redadd
  | 9 => (OpA1.unpack w 100#7).map .redmin
  | 10 => (OpA1.unpack w 100#7).map .redmax
  | 11 => (OpA1.unpack w 100#7).map .scanadd
  | 12 => (OpA1.unpack w 100#7).map .matchD
  | 13 => (OpA1.unpack w 100#7).map .matchS
  | 14 => (OpA.unpack w).map .subperm
  | 15 => (OpA1.unpack w 100#7).map .lanemask
  | _ => .error .reservedOpcode

/-- The raw decoding of group 7 by FN (R99). -/
def decodeG7 (fn : Nat) (w : BitVec 32) : Except DecodeErr Instr :=
  match fn with
  | 0 => (OpU.unpack w).map .uadd
  | 1 => (OpU.unpack w).map .usub
  | 2 => (OpU.unpack w).map .umul
  | 3 => (OpU.unpack w).map .uand
  | 4 => (OpU.unpack w).map .uor
  | 5 => (OpU.unpack w).map .uxor
  | 6 => (OpU.unpack w).map .ushl
  | 7 => (OpU.unpack w).map .ushr
  | 8 => (OpU.unpack w).map .usar
  | 9 => (OpUI.unpack w).map .uaddi
  | 10 => (OpUMov.unpack w).map .umovi
  | 11 => (OpUI.unpack w).map .umovh
  | 12 => (OpC.unpack w).map .ucmp
  | 13 => (OpU.unpack w).map .umin
  | 14 => (OpU.unpack w).map .umax
  | 15 => (OpU.unpack w).map .uread
  | _ => .error .reservedOpcode

/-- The raw decoding of group 8 by FN (R99). -/
def decodeG8 (fn : Nat) (w : BitVec 32) : Except DecodeErr Instr :=
  match fn with
  | 0 => (OpB.unpack w).map .bra
  | 1 => (OpJ.unpack w).map .brx
  | 2 => (OpB.unpack w).map .call
  | 3 => (OpJ.unpack w).map .ret
  | 4 => (OpU.unpack w).map .fspawn
  | 5 => (OpG.unpack w).map .fend
  | 6 => (OpS1.unpack w).map .syncm
  | 7 => (OpCv.unpack w).map .cvset
  | 8 => (OpBar.unpack w).map .bara
  | 9 => (OpS2.unpack w).map .barw
  | 10 => unpackNone w .gbar
  | 11 => (OpRg.unpack w).map .region
  | 12 => unpackNone w .regend
  | 13 => (OpTr.unpack w).map .trap
  | 14 => (OpRt.unpack w).map .rett
  | 15 => (OpRt.unpack w).map .regg
  | _ => .error .reservedOpcode

/-- The raw decoding of group 9 by FN (R99). -/
def decodeG9 (fn : Nat) (w : BitVec 32) : Except DecodeErr Instr :=
  match fn with
  | 0 => (OpM.unpack w).map .ldB
  | 1 => (OpM.unpack w).map .ldBs
  | 2 => (OpM.unpack w).map .ldH
  | 3 => (OpM.unpack w).map .ldHs
  | 4 => (OpM.unpack w).map .ldW
  | 5 => (OpM.unpack w).map .ldWs
  | 6 => (OpM.unpack w).map .ldD
  | 7 => (OpM.unpack w).map .ldQ
  | 8 => (OpMU.unpack w).map .lduD
  | 9 => (OpMU.unpack w).map .lduW
  | 10 => (OpMS.unpack w).map .ldaD
  | 11 => (OpM.unpack w).map .ldncD
  | 12 => (OpPf.unpack w).map .pref
  | _ => .error .reservedOpcode

/-- The raw decoding of group 10 by FN (R99). -/
def decodeG10 (fn : Nat) (w : BitVec 32) : Except DecodeErr Instr :=
  match fn with
  | 0 => (OpM.unpack w).map .stB
  | 1 => (OpM.unpack w).map .stH
  | 2 => (OpM.unpack w).map .stW
  | 3 => (OpM.unpack w).map .stD
  | 4 => (OpM.unpack w).map .stQ
  | 5 => (OpMU.unpack w).map .stuD
  | 6 => (OpMS.unpack w).map .stlD
  | 8 => (OpM.unpack w).map .aadd
  | 9 => (OpM.unpack w).map .amin
  | 10 => (OpM.unpack w).map .amax
  | 11 => (OpM.unpack w).map .aand
  | 12 => (OpM.unpack w).map .aor
  | 13 => (OpM.unpack w).map .axch
  | 14 => (OpM.unpack w).map .acas
  | 15 => (OpM.unpack w).map .aaddfS
  | _ => .error .reservedOpcode

/-- The raw decoding of group 11 by FN (R99). -/
def decodeG11 (fn : Nat) (w : BitVec 32) : Except DecodeErr Instr :=
  match fn with
  | 0 => (OpF.unpack w).map .fence
  | 1 => (OpG.unpack w).map .release
  | 2 => (OpG.unpack w).map .acquire
  | 3 => (OpG.unpack w).map .ifence
  | 4 => (OpG.unpack w).map .rfence
  | 5 => (OpCp.unpack w).map .cpy
  | 6 => (OpCp.unpack w).map .cpyq
  | 7 => (OpCp.unpack w).map .cpyt
  | 8 => (OpSeal.unpack w).map .sealBatch
  | 9 => (OpDA.unpack w).map .cwaitBatch
  | 10 => (OpCp.unpack w).map .rput
  | 11 => (OpCp.unpack w).map .rget
  | 12 => (OpDU.unpack w).map .notify
  | 13 => (OpDU.unpack w).map .snapTake
  | 14 => (OpDA.unpack w).map .accg
  | 15 => (OpDU.unpack w).map .ownx
  | _ => .error .reservedOpcode

/-- The raw decoding of group 12 by FN (R99). -/
def decodeG12 (fn : Nat) (w : BitVec 32) : Except DecodeErr Instr :=
  match fn with
  | 0 => (OpMsh.unpack w).map .mshape
  | 1 => (OpMl.unpack w).map .mld
  | 2 => (OpMl.unpack w).map .mst
  | 3 => (OpMmv.unpack w).map .mmovv
  | 4 => (OpMm.unpack w).map .mmul
  | 5 => (OpMmn.unpack w).map .mmac
  | 6 => (OpMad.unpack w).map .madd
  | 7 => (OpM2.unpack w).map .mtrn
  | 8 => (OpM2.unpack w).map .mchol
  | 9 => (OpM2v.unpack w).map .mlu
  | 10 => (OpMsc.unpack w).map .msolc
  | 11 => (OpM3v.unpack w).map .msoll
  | 12 => (OpM2v.unpack w).map .mscal
  | 13 => (OpMfl.unpack w).map .mflag
  | 14 => (OpMid.unpack w).map .midn
  | 15 => (OpMvv.unpack w).map .mmv
  | _ => .error .reservedOpcode

/-- The raw decoding of group 13 by FN (R99). -/
def decodeG13 (fn : Nat) (w : BitVec 32) : Except DecodeErr Instr :=
  match fn with
  | 0 => (OpTt.unpack w).map .tld
  | 1 => (OpTt.unpack w).map .tst
  | 2 => (OpTw.unpack w).map .wload
  | 3 => (OpTc.unpack w).map .wswap
  | 4 => (OpTa.unpack w).map .tmma
  | 5 => (OpTa.unpack w).map .tmmas
  | 6 => (OpTl.unpack w).map .aclr
  | 7 => (OpTak.unpack w).map .acvt
  | 8 => (OpTtk.unpack w).map .tckv
  | 9 => (OpTt.unpack w).map .tckfix
  | 10 => (OpTt.unpack w).map .tckset
  | 11 => (OpTt.unpack w).map .tcopy
  | 12 => (OpTw.unpack w).map .dload
  | 13 => (OpTa.unpack w).map .dqry
  | 14 => (OpTa.unpack w).map .dcent
  | 15 => (OpTa.unpack w).map .dfin
  | _ => .error .reservedOpcode

/-- The raw decoding of group 14 by FN (R99). -/
def decodeG14 (fn : Nat) (w : BitVec 32) : Except DecodeErr Instr :=
  match fn with
  | 0 => (OpCsr.unpack w).map .csrr
  | 1 => (OpCsr.unpack w).map .csrw
  | 2 => (OpCsr.unpack w).map .csrs
  | 3 => (OpCsr.unpack w).map .csrc
  | 4 => (OpUa.unpack w).map .cntrd
  | 5 => (OpU.unpack w).map .cntctlEvsel
  | 6 => (OpS1g.unpack w).map .bkpt
  | 7 => (OpJ.unpack w).map .trace
  | 8 => (OpJ.unpack w).map .prog
  | 9 => (OpDA.unpack w).map .ctxfl
  | 10 => (OpDA.unpack w).map .haltg
  | 11 => (OpDA.unpack w).map .resumeg
  | _ => .error .reservedOpcode

/-- The raw decoding of group 15 by FN (R99). -/
def decodeG15 (fn : Nat) (w : BitVec 32) : Except DecodeErr Instr :=
  match fn with
  | 0 => .ok .hintNop
  | 1 => (OpHint.unpack w).map .hintImm
  | 2 => (OpHRep.unpack w).map .hintRep
  | 3 => (OpHSched.unpack w).map .hintSched
  | 4 => (OpHMod.unpack w).map .hintMod
  | 5 => (OpHPrio.unpack w).map .hintPrio
  | _ => .ok .reservedHint

/-- Raw decoding by GRP and FN (R92, R99), before the checks of `Instr.wf`. -/
def decodeRaw (w : BitVec 32) : Except DecodeErr Instr :=
  let fn := (w.extractLsb' 4 4).toNat
  match (w.extractLsb' 0 4).toNat with
  | 0 => decodeG0 fn w
  | 1 => decodeG1 fn w
  | 2 => decodeG2 fn w
  | 3 => decodeG3 fn w
  | 4 => decodeG4 fn w
  | 5 => decodeG5 fn w
  | 6 => decodeG6 fn w
  | 7 => decodeG7 fn w
  | 8 => decodeG8 fn w
  | 9 => decodeG9 fn w
  | 10 => decodeG10 fn w
  | 11 => decodeG11 fn w
  | 12 => decodeG12 fn w
  | 13 => decodeG13 fn w
  | 14 => decodeG14 fn w
  | _ => match decodeG15 fn w with
    | .ok i => .ok i
    | .error _ => .error .badHint

/-- The decoder of one word (R91 to R101). -/
def decodeWord (w : BitVec 32) : Except DecodeErr Instr :=
  match decodeRaw w with
  | .error e => .error e
  | .ok i =>
    if i.wf then .ok i
    else if w.extractLsb' 0 4 == 15#4 then .error .badHint else .error .notAccepted

/-- The word that four bytes hold, the least significant byte first (R5, R91). -/
def wordOfBytes (b0 b1 b2 b3 : BitVec 8) : BitVec 32 := (b3 ++ b2 ++ b1 ++ b0 : BitVec 32)

/-- The bytes of a word, the least significant first (R5, R91). -/
def bytesOfWord (w : BitVec 32) : List (BitVec 8) :=
  [w.extractLsb' 0 8, w.extractLsb' 8 8, w.extractLsb' 16 8, w.extractLsb' 24 8]

/-- The instruction at the head of some bytes and the bytes after it. -/
def decodeBytes : List (BitVec 8) → Except DecodeErr (Instr × List (BitVec 8))
  | b0 :: b1 :: b2 :: b3 :: rest =>
    match decodeWord (wordOfBytes b0 b1 b2 b3) with
    | .ok i => .ok (i, rest)
    | .error e => .error e
  | _ => .error .truncated

/-- The instruction the decoder reads from a table word: every instruction is one 32-bit word (R91). -/
def decodeTableWord (nbits w : Nat) : Option Instr :=
  if nbits = 32 then
    match decodeBytes (bytesOfWord (BitVec.ofNat 32 w)) with
    | .ok (i, _) => some i
    | .error _ => none
  else none

/-- The word of an instruction, from the same tables (R94 to R104). A row without an encoding has no word and answers
the word of HINT.NOP; `Instr.isWord` tells them apart. -/
def encode : Instr → BitVec 32
  | .addD o => o.pack 0x00#8
  | .addW o => o.pack 0x10#8
  | .addH o => o.pack 0x20#8
  | .addB o => o.pack 0x30#8
  | .subD o => o.pack 0x40#8
  | .subW o => o.pack 0x50#8
  | .subH o => o.pack 0x60#8
  | .subB o => o.pack 0x70#8
  | .mulD o => o.pack 0x80#8
  | .mulW o => o.pack 0x90#8
  | .mulhD o => o.pack 0xA0#8
  | .mulhuD o => o.pack 0xB0#8
  | .andD o => o.pack 0xC0#8
  | .orD o => o.pack 0xD0#8
  | .xorD o => o.pack 0xE0#8
  | .andn o => o.pack 0xF0#8
  | .addsH o => o.pack 0x01#8
  | .subsH o => o.pack 0x11#8
  | .addusB o => o.pack 0x21#8
  | .subusB o => o.pack 0x31#8
  | .minH o => o.pack 0x41#8
  | .maxH o => o.pack 0x51#8
  | .minW o => o.pack 0x61#8
  | .maxW o => o.pack 0x71#8
  | .shlD o => o.pack 0x81#8
  | .shrD o => o.pack 0x91#8
  | .sarD o => o.pack 0xA1#8
  | .rotD o => o.pack 0xB1#8
  | .addiD o => o.pack 0xC1#8
  | .addiW o => o.pack 0xD1#8
  | .movi o => o.pack 0xE1#8
  | .clzD o => o.pack 0xF1#8 0#7
  | .ctzD o => o.pack 0xF1#8 1#7
  | .popcD o => o.pack 0xF1#8 2#7
  | .brevD o => o.pack 0xF1#8 3#7
  | .bswapD o => o.pack 0xF1#8 4#7
  | .clzW o => o.pack 0xF1#8 5#7
  | .popcW o => o.pack 0xF1#8 6#7
  | .sextW o => o.pack 0xF1#8 7#7
  | .zextW o => o.pack 0xF1#8 8#7
  | .sextH o => o.pack 0xF1#8 9#7
  | .sextB o => o.pack 0xF1#8 10#7
  | .faddD o => o.pack 0x02#8
  | .faddS o => o.pack 0x12#8
  | .faddH o => o.pack 0x22#8
  | .faddB o => o.pack 0x32#8
  | .fsubD o => o.pack 0x42#8
  | .fsubS o => o.pack 0x52#8
  | .fsubH o => o.pack 0x62#8
  | .fsubB o => o.pack 0x72#8
  | .fmulD o => o.pack 0x82#8
  | .fmulS o => o.pack 0x92#8
  | .fmulH o => o.pack 0xA2#8
  | .fmulB o => o.pack 0xB2#8
  | .ffmaD o => o.pack 0xC2#8
  | .ffmaS o => o.pack 0xD2#8
  | .ffmaH o => o.pack 0xE2#8
  | .ffmaB o => o.pack 0xF2#8
  | .fminD o => o.pack 0x03#8
  | .fminS o => o.pack 0x13#8
  | .fminH o => o.pack 0x23#8
  | .fmaxD o => o.pack 0x33#8
  | .fmaxS o => o.pack 0x43#8
  | .fmaxH o => o.pack 0x53#8
  | .fnmaD o => o.pack 0x63#8
  | .fnmaS o => o.pack 0x73#8
  | .fabsD o => o.pack 0x83#8 100#7
  | .fabsS o => o.pack 0x93#8 100#7
  | .fnegD o => o.pack 0xA3#8 100#7
  | .fnegS o => o.pack 0xB3#8 100#7
  | .fclass o => o.pack 0xC3#8
  | .fdot2H o => o.pack 0xD3#8
  | .fdot2B o => o.pack 0xE3#8
  | .fscaleD o => o.pack 0xF3#8
  | .icmpD o => o.pack 0x04#8
  | .icmpW o => o.pack 0x14#8
  | .fcmpD o => o.pack 0x24#8
  | .fcmpS o => o.pack 0x34#8
  | .icmpiD o => o.pack 0x44#8
  | .pand o => o.pack 0x54#8
  | .por o => o.pack 0x64#8
  | .pxor o => o.pack 0x74#8
  | .pnot o => o.pack 0x84#8
  | .sel o => o.pack 0x94#8
  | .ptov o => o.pack 0xA4#8
  | .vtop o => o.pack 0xB4#8
  | .vcmpmH o => o.pack 0xC4#8
  | .vcmpmB o => o.pack 0xD4#8
  | .fcmpmH o => o.pack 0xE4#8
  | .cvt o => o.pack 0x05#8
  | .cvtq o => o.pack 0x15#8
  | .deq o => o.pack 0x25#8
  | .fdivD o => o.pack 0x35#8
  | .fdivS o => o.pack 0x45#8
  | .fsqrtD o => o.pack 0x55#8
  | .fsqrtS o => o.pack 0x65#8
  | .frcpS o => o.pack 0x75#8
  | .frsqS o => o.pack 0x85#8
  | .fexp2S o => o.pack 0x95#8
  | .flog2S o => o.pack 0xA5#8
  | .fsinpS o => o.pack 0xB5#8
  | .fcospS o => o.pack 0xC5#8
  | .ftanhS o => o.pack 0xD5#8
  | .idivD o => o.pack 0xE5#8
  | .idivuD o => o.pack 0xF5#8
  | .permD o => o.pack 0x06#8
  | .permW o => o.pack 0x16#8
  | .permH o => o.pack 0x26#8
  | .permB o => o.pack 0x36#8
  | .bcast o => o.pack 0x46#8
  | .rotxH o => o.pack 0x56#8
  | .ballot o => o.pack 0x66#8 100#7
  | .vote o => o.pack 0x76#8
  | .redadd o => o.pack 0x86#8 100#7
  | .redmin o => o.pack 0x96#8 100#7
  | .redmax o => o.pack 0xA6#8 100#7
  | .scanadd o => o.pack 0xB6#8 100#7
  | .matchD o => o.pack 0xC6#8 100#7
  | .matchS o => o.pack 0xD6#8 100#7
  | .subperm o => o.pack 0xE6#8
  | .lanemask o => o.pack 0xF6#8 100#7
  | .uadd o => o.pack 0x07#8
  | .usub o => o.pack 0x17#8
  | .umul o => o.pack 0x27#8
  | .uand o => o.pack 0x37#8
  | .uor o => o.pack 0x47#8
  | .uxor o => o.pack 0x57#8
  | .ushl o => o.pack 0x67#8
  | .ushr o => o.pack 0x77#8
  | .usar o => o.pack 0x87#8
  | .uaddi o => o.pack 0x97#8
  | .umovi o => o.pack 0xA7#8
  | .umovh o => o.pack 0xB7#8
  | .ucmp o => o.pack 0xC7#8
  | .umin o => o.pack 0xD7#8
  | .umax o => o.pack 0xE7#8
  | .uread o => o.pack 0xF7#8
  | .bra o => o.pack 0x08#8
  | .brx o => o.pack 0x18#8
  | .call o => o.pack 0x28#8
  | .ret o => o.pack 0x38#8
  | .fspawn o => o.pack 0x48#8
  | .fend o => o.pack 0x58#8
  | .syncm o => o.pack 0x68#8
  | .cvset o => o.pack 0x78#8
  | .bara o => o.pack 0x88#8
  | .barw o => o.pack 0x98#8
  | .region o => o.pack 0xB8#8
  | .trap o => o.pack 0xD8#8
  | .rett o => o.pack 0xE8#8
  | .regg o => o.pack 0xF8#8
  | .ldB o => o.pack 0x09#8
  | .ldBs o => o.pack 0x19#8
  | .ldH o => o.pack 0x29#8
  | .ldHs o => o.pack 0x39#8
  | .ldW o => o.pack 0x49#8
  | .ldWs o => o.pack 0x59#8
  | .ldD o => o.pack 0x69#8
  | .ldQ o => o.pack 0x79#8
  | .lduD o => o.pack 0x89#8
  | .lduW o => o.pack 0x99#8
  | .ldaD o => o.pack 0xA9#8
  | .ldncD o => o.pack 0xB9#8
  | .pref o => o.pack 0xC9#8
  | .stB o => o.pack 0x0A#8
  | .stH o => o.pack 0x1A#8
  | .stW o => o.pack 0x2A#8
  | .stD o => o.pack 0x3A#8
  | .stQ o => o.pack 0x4A#8
  | .stuD o => o.pack 0x5A#8
  | .stlD o => o.pack 0x6A#8
  | .aadd o => o.pack 0x8A#8
  | .amin o => o.pack 0x9A#8
  | .amax o => o.pack 0xAA#8
  | .aand o => o.pack 0xBA#8
  | .aor o => o.pack 0xCA#8
  | .axch o => o.pack 0xDA#8
  | .acas o => o.pack 0xEA#8
  | .aaddfS o => o.pack 0xFA#8
  | .fence o => o.pack 0x0B#8
  | .release o => o.pack 0x1B#8
  | .acquire o => o.pack 0x2B#8
  | .ifence o => o.pack 0x3B#8
  | .rfence o => o.pack 0x4B#8
  | .cpy o => o.pack 0x5B#8
  | .cpyq o => o.pack 0x6B#8
  | .cpyt o => o.pack 0x7B#8
  | .sealBatch o => o.pack 0x8B#8
  | .cwaitBatch o => o.pack 0x9B#8
  | .rput o => o.pack 0xAB#8
  | .rget o => o.pack 0xBB#8
  | .notify o => o.pack 0xCB#8
  | .snapTake o => o.pack 0xDB#8
  | .accg o => o.pack 0xEB#8
  | .ownx o => o.pack 0xFB#8
  | .mshape o => o.pack 0x0C#8
  | .mld o => o.pack 0x1C#8
  | .mst o => o.pack 0x2C#8
  | .mmovv o => o.pack 0x3C#8
  | .mmul o => o.pack 0x4C#8
  | .mmac o => o.pack 0x5C#8
  | .madd o => o.pack 0x6C#8
  | .mtrn o => o.pack 0x7C#8
  | .mchol o => o.pack 0x8C#8
  | .mlu o => o.pack 0x9C#8
  | .msolc o => o.pack 0xAC#8
  | .msoll o => o.pack 0xBC#8
  | .mscal o => o.pack 0xCC#8
  | .mflag o => o.pack 0xDC#8
  | .midn o => o.pack 0xEC#8
  | .mmv o => o.pack 0xFC#8
  | .tld o => o.pack 0x0D#8
  | .tst o => o.pack 0x1D#8
  | .wload o => o.pack 0x2D#8
  | .wswap o => o.pack 0x3D#8
  | .tmma o => o.pack 0x4D#8
  | .tmmas o => o.pack 0x5D#8
  | .aclr o => o.pack 0x6D#8
  | .acvt o => o.pack 0x7D#8
  | .tckv o => o.pack 0x8D#8
  | .tckfix o => o.pack 0x9D#8
  | .tckset o => o.pack 0xAD#8
  | .tcopy o => o.pack 0xBD#8
  | .dload o => o.pack 0xCD#8
  | .dqry o => o.pack 0xDD#8
  | .dcent o => o.pack 0xED#8
  | .dfin o => o.pack 0xFD#8
  | .csrr o => o.pack 0x0E#8
  | .csrw o => o.pack 0x1E#8
  | .csrs o => o.pack 0x2E#8
  | .csrc o => o.pack 0x3E#8
  | .cntrd o => o.pack 0x4E#8
  | .cntctlEvsel o => o.pack 0x5E#8
  | .bkpt o => o.pack 0x6E#8
  | .trace o => o.pack 0x7E#8
  | .prog o => o.pack 0x8E#8
  | .ctxfl o => o.pack 0x9E#8
  | .haltg o => o.pack 0xAE#8
  | .resumeg o => o.pack 0xBE#8
  | .hintImm o => o.pack 0x1F#8
  | .hintRep o => o.pack 0x2F#8
  | .hintSched o => o.pack 0x3F#8
  | .hintMod o => o.pack 0x4F#8
  | .hintPrio o => o.pack 0x5F#8
  | .gbar => packNone 0xA8#8
  | .regend => packNone 0xC8#8
  | .cwaitTake => 0xC990009B#32
  | .cwaitFree => 0xC990009B#32
  | .snapDrop => 0xC99000DB#32
  | .snapRollback => 0xC99000DB#32
  | .snapShip => 0xC99000DB#32
  | .cntctlTrmask => 0xC990005E#32
  | .cntctlPclr => 0xC990005E#32
  | .cntctlSample => 0xC990005E#32
  | .cntctlTrlo => 0xC990005E#32
  | .cntctlTrhi => 0xC990005E#32
  | .cntctlTrstart => 0xC990005E#32
  | .cntctlTrstop => 0xC990005E#32
  | .cntctlEclr => 0xC990005E#32
  | .cntctlDstop => 0xC990005E#32
  | .hintNop => 0x0000000F#32
  | .reservedHint => 0x0000006F#32
  | .rotation => 0x0000000F#32
  | .handlerStart => 0x0000000F#32
  | .arrayOperationComplete => 0x0000000F#32
  | .specialFunctionComplete => 0x0000000F#32
  | .loadDataReturn => 0x0000000F#32
  | .hostFetch => 0x0000000F#32
  | .appenderAccept => 0x0000000F#32
  | .appendHoldRelease => 0x0000000F#32
  | .logPressureEvent => 0x0000000F#32
  | .dredgeStart => 0x0000000F#32
  | .dredgeDrainComplete => 0x0000000F#32
  | .indexLookup => 0x0000000F#32
  | .indexUpdate => 0x0000000F#32
  | .fold => 0x0000000F#32
  | .grainEntryWriteback => 0x0000000F#32
  | .tableFree => 0x0000000F#32
  | .homeMove => 0x0000000F#32
  | .claimRequest => 0x0000000F#32
  | .commitWrite => 0x0000000F#32
  | .atomicApply => 0x0000000F#32
  | .atomicAnswer => 0x0000000F#32
  | .atomicMovedReissue => 0x0000000F#32
  | .remoteAccessPerform => 0x0000000F#32
  | .remoteAck => 0x0000000F#32
  | .impreciseFaultArrival => 0x0000000F#32
  | .copyStart => 0x0000000F#32
  | .copyPiece => 0x0000000F#32
  | .copyComplete => 0x0000000F#32
  | .copyClaimTimeout => 0x0000000F#32
  | .ownxTimeout => 0x0000000F#32
  | .growGrant => 0x0000000F#32
  | .growDeadlockBreak => 0x0000000F#32
  | .nodeDispatch => 0x0000000F#32
  | .groupAdmission => 0x0000000F#32
  | .prologue => 0x0000000F#32
  | .nodeRetirement => 0x0000000F#32
  | .completionRecord => 0x0000000F#32
  | .notifyRecord => 0x0000000F#32
  | .stagingTagFree => 0x0000000F#32
  | .msixHoldoffExpiry => 0x0000000F#32
  | .lqdoor => 0x0000000F#32
  | .eqdoor => 0x0000000F#32
  | .eldoor => 0x0000000F#32
  | .registerWrite => 0x0000000F#32
  | .scrub => 0x0000000F#32
  | .hbmBeatRetry => 0x0000000F#32
  | .hbmRefresh => 0x0000000F#32
  | .channelGrant => 0x0000000F#32
  | .outflowShip => 0x0000000F#32
  | .watchdogHang => 0x0000000F#32
  | .peerUnavailable => 0x0000000F#32
  | .progApply => 0x0000000F#32
  | .sampleTick => 0x0000000F#32
  | .trialEnd => 0x0000000F#32
  | .haltgTimeout => 0x0000000F#32
  | .preemptRegionStop => 0x0000000F#32
  | .crewStop => 0x0000000F#32
  | .forcedReset => 0x0000000F#32
  | .groupSave => 0x0000000F#32
  | .deviceReset => 0x0000000F#32
  | .safePhaseReached => 0x0000000F#32
  | .hbmTrainingComplete => 0x0000000F#32
  | .initialiseTimeout => 0x0000000F#32
  | .logInitialised => 0x0000000F#32
  | .tileSelfTest => 0x0000000F#32
  | .attestationSigned => 0x0000000F#32
  | .thermalThrottle => 0x0000000F#32
  | .thermalShutdown => 0x0000000F#32
  | .flitReceive => 0x0000000F#32
  | .linkTraining => 0x0000000F#32
  | .portFail => 0x0000000F#32
  | .peerAccess => 0x0000000F#32
  | .peerStoreRefuse => 0x0000000F#32
  | .peerWindowRefresh => 0x0000000F#32
  | .crossDeviceBarrierArrival => 0x0000000F#32
  | .readErrorLog => 0x0000000F#32
  | .firmwareUpdate => 0x0000000F#32
  | .initialiseCmd => 0x0000000F#32
  | .readAttestation => 0x0000000F#32
  | .queueDescriptor => 0x0000000F#32
  | .contextSet => 0x0000000F#32
  | .mapPage => 0x0000000F#32
  | .unmap => 0x0000000F#32
  | .protect => 0x0000000F#32
  | .pageAllocate => 0x0000000F#32
  | .pageFree => 0x0000000F#32
  | .migrateHostPage => 0x0000000F#32
  | .scrubRates => 0x0000000F#32
  | .preempt => 0x0000000F#32
  | .resume => 0x0000000F#32
  | .kill => 0x0000000F#32
  | .checkpoint => 0x0000000F#32
  | .reload => 0x0000000F#32
  | .meshAndShards => 0x0000000F#32
  | .debugCtl => 0x0000000F#32
  | .peers => 0x0000000F#32
  | .crossDeviceBarrier => 0x0000000F#32
  | .cdoor => 0x0000000F#32
  | .supplyOff => 0x0000000F#32
  | .recalibration => 0x0000000F#32
  | .atomicTagSetExpiry => 0x0000000F#32

/-- The row that the decoder answers for the word of an instruction: the first row of a family whose rows share one
word and are told apart by the value of A (R337, R363, R418), and the instruction itself otherwise. -/
def Instr.tableRow : Instr → Instr
  | .addD o => .addD o
  | .addW o => .addW o
  | .addH o => .addH o
  | .addB o => .addB o
  | .subD o => .subD o
  | .subW o => .subW o
  | .subH o => .subH o
  | .subB o => .subB o
  | .mulD o => .mulD o
  | .mulW o => .mulW o
  | .mulhD o => .mulhD o
  | .mulhuD o => .mulhuD o
  | .andD o => .andD o
  | .orD o => .orD o
  | .xorD o => .xorD o
  | .andn o => .andn o
  | .addsH o => .addsH o
  | .subsH o => .subsH o
  | .addusB o => .addusB o
  | .subusB o => .subusB o
  | .minH o => .minH o
  | .maxH o => .maxH o
  | .minW o => .minW o
  | .maxW o => .maxW o
  | .shlD o => .shlD o
  | .shrD o => .shrD o
  | .sarD o => .sarD o
  | .rotD o => .rotD o
  | .addiD o => .addiD o
  | .addiW o => .addiW o
  | .movi o => .movi o
  | .clzD o => .clzD o
  | .ctzD o => .ctzD o
  | .popcD o => .popcD o
  | .brevD o => .brevD o
  | .bswapD o => .bswapD o
  | .clzW o => .clzW o
  | .popcW o => .popcW o
  | .sextW o => .sextW o
  | .zextW o => .zextW o
  | .sextH o => .sextH o
  | .sextB o => .sextB o
  | .faddD o => .faddD o
  | .faddS o => .faddS o
  | .faddH o => .faddH o
  | .faddB o => .faddB o
  | .fsubD o => .fsubD o
  | .fsubS o => .fsubS o
  | .fsubH o => .fsubH o
  | .fsubB o => .fsubB o
  | .fmulD o => .fmulD o
  | .fmulS o => .fmulS o
  | .fmulH o => .fmulH o
  | .fmulB o => .fmulB o
  | .ffmaD o => .ffmaD o
  | .ffmaS o => .ffmaS o
  | .ffmaH o => .ffmaH o
  | .ffmaB o => .ffmaB o
  | .fminD o => .fminD o
  | .fminS o => .fminS o
  | .fminH o => .fminH o
  | .fmaxD o => .fmaxD o
  | .fmaxS o => .fmaxS o
  | .fmaxH o => .fmaxH o
  | .fnmaD o => .fnmaD o
  | .fnmaS o => .fnmaS o
  | .fabsD o => .fabsD o
  | .fabsS o => .fabsS o
  | .fnegD o => .fnegD o
  | .fnegS o => .fnegS o
  | .fclass o => .fclass o
  | .fdot2H o => .fdot2H o
  | .fdot2B o => .fdot2B o
  | .fscaleD o => .fscaleD o
  | .icmpD o => .icmpD o
  | .icmpW o => .icmpW o
  | .fcmpD o => .fcmpD o
  | .fcmpS o => .fcmpS o
  | .icmpiD o => .icmpiD o
  | .pand o => .pand o
  | .por o => .por o
  | .pxor o => .pxor o
  | .pnot o => .pnot o
  | .sel o => .sel o
  | .ptov o => .ptov o
  | .vtop o => .vtop o
  | .vcmpmH o => .vcmpmH o
  | .vcmpmB o => .vcmpmB o
  | .fcmpmH o => .fcmpmH o
  | .cvt o => .cvt o
  | .cvtq o => .cvtq o
  | .deq o => .deq o
  | .fdivD o => .fdivD o
  | .fdivS o => .fdivS o
  | .fsqrtD o => .fsqrtD o
  | .fsqrtS o => .fsqrtS o
  | .frcpS o => .frcpS o
  | .frsqS o => .frsqS o
  | .fexp2S o => .fexp2S o
  | .flog2S o => .flog2S o
  | .fsinpS o => .fsinpS o
  | .fcospS o => .fcospS o
  | .ftanhS o => .ftanhS o
  | .idivD o => .idivD o
  | .idivuD o => .idivuD o
  | .permD o => .permD o
  | .permW o => .permW o
  | .permH o => .permH o
  | .permB o => .permB o
  | .bcast o => .bcast o
  | .rotxH o => .rotxH o
  | .ballot o => .ballot o
  | .vote o => .vote o
  | .redadd o => .redadd o
  | .redmin o => .redmin o
  | .redmax o => .redmax o
  | .scanadd o => .scanadd o
  | .matchD o => .matchD o
  | .matchS o => .matchS o
  | .subperm o => .subperm o
  | .lanemask o => .lanemask o
  | .uadd o => .uadd o
  | .usub o => .usub o
  | .umul o => .umul o
  | .uand o => .uand o
  | .uor o => .uor o
  | .uxor o => .uxor o
  | .ushl o => .ushl o
  | .ushr o => .ushr o
  | .usar o => .usar o
  | .uaddi o => .uaddi o
  | .umovi o => .umovi o
  | .umovh o => .umovh o
  | .ucmp o => .ucmp o
  | .umin o => .umin o
  | .umax o => .umax o
  | .uread o => .uread o
  | .bra o => .bra o
  | .brx o => .brx o
  | .call o => .call o
  | .ret o => .ret o
  | .fspawn o => .fspawn o
  | .fend o => .fend o
  | .syncm o => .syncm o
  | .cvset o => .cvset o
  | .bara o => .bara o
  | .barw o => .barw o
  | .region o => .region o
  | .trap o => .trap o
  | .rett o => .rett o
  | .regg o => .regg o
  | .ldB o => .ldB o
  | .ldBs o => .ldBs o
  | .ldH o => .ldH o
  | .ldHs o => .ldHs o
  | .ldW o => .ldW o
  | .ldWs o => .ldWs o
  | .ldD o => .ldD o
  | .ldQ o => .ldQ o
  | .lduD o => .lduD o
  | .lduW o => .lduW o
  | .ldaD o => .ldaD o
  | .ldncD o => .ldncD o
  | .pref o => .pref o
  | .stB o => .stB o
  | .stH o => .stH o
  | .stW o => .stW o
  | .stD o => .stD o
  | .stQ o => .stQ o
  | .stuD o => .stuD o
  | .stlD o => .stlD o
  | .aadd o => .aadd o
  | .amin o => .amin o
  | .amax o => .amax o
  | .aand o => .aand o
  | .aor o => .aor o
  | .axch o => .axch o
  | .acas o => .acas o
  | .aaddfS o => .aaddfS o
  | .fence o => .fence o
  | .release o => .release o
  | .acquire o => .acquire o
  | .ifence o => .ifence o
  | .rfence o => .rfence o
  | .cpy o => .cpy o
  | .cpyq o => .cpyq o
  | .cpyt o => .cpyt o
  | .sealBatch o => .sealBatch o
  | .cwaitBatch o => .cwaitBatch o
  | .rput o => .rput o
  | .rget o => .rget o
  | .notify o => .notify o
  | .snapTake o => .snapTake o
  | .accg o => .accg o
  | .ownx o => .ownx o
  | .mshape o => .mshape o
  | .mld o => .mld o
  | .mst o => .mst o
  | .mmovv o => .mmovv o
  | .mmul o => .mmul o
  | .mmac o => .mmac o
  | .madd o => .madd o
  | .mtrn o => .mtrn o
  | .mchol o => .mchol o
  | .mlu o => .mlu o
  | .msolc o => .msolc o
  | .msoll o => .msoll o
  | .mscal o => .mscal o
  | .mflag o => .mflag o
  | .midn o => .midn o
  | .mmv o => .mmv o
  | .tld o => .tld o
  | .tst o => .tst o
  | .wload o => .wload o
  | .wswap o => .wswap o
  | .tmma o => .tmma o
  | .tmmas o => .tmmas o
  | .aclr o => .aclr o
  | .acvt o => .acvt o
  | .tckv o => .tckv o
  | .tckfix o => .tckfix o
  | .tckset o => .tckset o
  | .tcopy o => .tcopy o
  | .dload o => .dload o
  | .dqry o => .dqry o
  | .dcent o => .dcent o
  | .dfin o => .dfin o
  | .csrr o => .csrr o
  | .csrw o => .csrw o
  | .csrs o => .csrs o
  | .csrc o => .csrc o
  | .cntrd o => .cntrd o
  | .cntctlEvsel o => .cntctlEvsel o
  | .bkpt o => .bkpt o
  | .trace o => .trace o
  | .prog o => .prog o
  | .ctxfl o => .ctxfl o
  | .haltg o => .haltg o
  | .resumeg o => .resumeg o
  | .hintImm o => .hintImm o
  | .hintRep o => .hintRep o
  | .hintSched o => .hintSched o
  | .hintMod o => .hintMod o
  | .hintPrio o => .hintPrio o
  | .gbar => .gbar
  | .regend => .regend
  | .cwaitTake => .cwaitBatch { a := .zero, d := 0, g := 0 }
  | .cwaitFree => .cwaitBatch { a := .zero, d := 0, g := 0 }
  | .snapDrop => .snapTake { b := .zero, a := .zero, d := 0, g := 0 }
  | .snapRollback => .snapTake { b := .zero, a := .zero, d := 0, g := 0 }
  | .snapShip => .snapTake { b := .zero, a := .zero, d := 0, g := 0 }
  | .cntctlTrmask => .cntctlEvsel { b := .zero, a := .zero, d := 0, k := false, g := 0 }
  | .cntctlPclr => .cntctlEvsel { b := .zero, a := .zero, d := 0, k := false, g := 0 }
  | .cntctlSample => .cntctlEvsel { b := .zero, a := .zero, d := 0, k := false, g := 0 }
  | .cntctlTrlo => .cntctlEvsel { b := .zero, a := .zero, d := 0, k := false, g := 0 }
  | .cntctlTrhi => .cntctlEvsel { b := .zero, a := .zero, d := 0, k := false, g := 0 }
  | .cntctlTrstart => .cntctlEvsel { b := .zero, a := .zero, d := 0, k := false, g := 0 }
  | .cntctlTrstop => .cntctlEvsel { b := .zero, a := .zero, d := 0, k := false, g := 0 }
  | .cntctlEclr => .cntctlEvsel { b := .zero, a := .zero, d := 0, k := false, g := 0 }
  | .cntctlDstop => .cntctlEvsel { b := .zero, a := .zero, d := 0, k := false, g := 0 }
  | .hintNop => .hintNop
  | .reservedHint => .reservedHint
  | .rotation => .rotation
  | .handlerStart => .handlerStart
  | .arrayOperationComplete => .arrayOperationComplete
  | .specialFunctionComplete => .specialFunctionComplete
  | .loadDataReturn => .loadDataReturn
  | .hostFetch => .hostFetch
  | .appenderAccept => .appenderAccept
  | .appendHoldRelease => .appendHoldRelease
  | .logPressureEvent => .logPressureEvent
  | .dredgeStart => .dredgeStart
  | .dredgeDrainComplete => .dredgeDrainComplete
  | .indexLookup => .indexLookup
  | .indexUpdate => .indexUpdate
  | .fold => .fold
  | .grainEntryWriteback => .grainEntryWriteback
  | .tableFree => .tableFree
  | .homeMove => .homeMove
  | .claimRequest => .claimRequest
  | .commitWrite => .commitWrite
  | .atomicApply => .atomicApply
  | .atomicAnswer => .atomicAnswer
  | .atomicMovedReissue => .atomicMovedReissue
  | .remoteAccessPerform => .remoteAccessPerform
  | .remoteAck => .remoteAck
  | .impreciseFaultArrival => .impreciseFaultArrival
  | .copyStart => .copyStart
  | .copyPiece => .copyPiece
  | .copyComplete => .copyComplete
  | .copyClaimTimeout => .copyClaimTimeout
  | .ownxTimeout => .ownxTimeout
  | .growGrant => .growGrant
  | .growDeadlockBreak => .growDeadlockBreak
  | .nodeDispatch => .nodeDispatch
  | .groupAdmission => .groupAdmission
  | .prologue => .prologue
  | .nodeRetirement => .nodeRetirement
  | .completionRecord => .completionRecord
  | .notifyRecord => .notifyRecord
  | .stagingTagFree => .stagingTagFree
  | .msixHoldoffExpiry => .msixHoldoffExpiry
  | .lqdoor => .lqdoor
  | .eqdoor => .eqdoor
  | .eldoor => .eldoor
  | .registerWrite => .registerWrite
  | .scrub => .scrub
  | .hbmBeatRetry => .hbmBeatRetry
  | .hbmRefresh => .hbmRefresh
  | .channelGrant => .channelGrant
  | .outflowShip => .outflowShip
  | .watchdogHang => .watchdogHang
  | .peerUnavailable => .peerUnavailable
  | .progApply => .progApply
  | .sampleTick => .sampleTick
  | .trialEnd => .trialEnd
  | .haltgTimeout => .haltgTimeout
  | .preemptRegionStop => .preemptRegionStop
  | .crewStop => .crewStop
  | .forcedReset => .forcedReset
  | .groupSave => .groupSave
  | .deviceReset => .deviceReset
  | .safePhaseReached => .safePhaseReached
  | .hbmTrainingComplete => .hbmTrainingComplete
  | .initialiseTimeout => .initialiseTimeout
  | .logInitialised => .logInitialised
  | .tileSelfTest => .tileSelfTest
  | .attestationSigned => .attestationSigned
  | .thermalThrottle => .thermalThrottle
  | .thermalShutdown => .thermalShutdown
  | .flitReceive => .flitReceive
  | .linkTraining => .linkTraining
  | .portFail => .portFail
  | .peerAccess => .peerAccess
  | .peerStoreRefuse => .peerStoreRefuse
  | .peerWindowRefresh => .peerWindowRefresh
  | .crossDeviceBarrierArrival => .crossDeviceBarrierArrival
  | .readErrorLog => .readErrorLog
  | .firmwareUpdate => .firmwareUpdate
  | .initialiseCmd => .initialiseCmd
  | .readAttestation => .readAttestation
  | .queueDescriptor => .queueDescriptor
  | .contextSet => .contextSet
  | .mapPage => .mapPage
  | .unmap => .unmap
  | .protect => .protect
  | .pageAllocate => .pageAllocate
  | .pageFree => .pageFree
  | .migrateHostPage => .migrateHostPage
  | .scrubRates => .scrubRates
  | .preempt => .preempt
  | .resume => .resume
  | .kill => .kill
  | .checkpoint => .checkpoint
  | .reload => .reload
  | .meshAndShards => .meshAndShards
  | .debugCtl => .debugCtl
  | .peers => .peers
  | .crossDeviceBarrier => .crossDeviceBarrier
  | .cdoor => .cdoor
  | .supplyOff => .supplyOff
  | .recalibration => .recalibration
  | .atomicTagSetExpiry => .atomicTagSetExpiry

end Sys2Proof
end

