-- ==== Sys2Proof/Machine/Num.lean ====
section
/-! DEFINITION. Exact rational values, the four binary formats, one rounding, and the IEEE operations over them
(R9, R58 to R63, R76). Encodings are natural numbers here, so that one definition serves every width. -/

namespace Sys2Proof.Machine

/-- An exact rational `num / den`; every operation below keeps `den` positive. -/
structure Rat2 where
  num : Int
  den : Nat
  deriving DecidableEq, Repr

/-- An integer as a rational. -/
def Rat2.ofInt (i : Int) : Rat2 := { num := i, den := 1 }

/-- The rational `n × 2^e`. -/
def Rat2.dyadic (n : Int) (e : Int) : Rat2 :=
  if 0 ≤ e then { num := n * (2 : Int) ^ e.toNat, den := 1 } else { num := n, den := 2 ^ (-e).toNat }

/-- Exact sum. -/
def Rat2.add (x y : Rat2) : Rat2 :=
  if x.den = y.den then { num := x.num + y.num, den := x.den }
  else if x.den % y.den = 0 then { num := x.num + y.num * ((x.den / y.den : Nat) : Int), den := x.den }
  else if y.den % x.den = 0 then { num := x.num * ((y.den / x.den : Nat) : Int) + y.num, den := y.den }
  else { num := x.num * (y.den : Int) + y.num * (x.den : Int), den := x.den * y.den }

/-- Exact negation. -/
def Rat2.neg (x : Rat2) : Rat2 := { num := -x.num, den := x.den }

/-- Exact difference. -/
def Rat2.sub (x y : Rat2) : Rat2 := x.add y.neg

/-- Exact product. -/
def Rat2.mul (x y : Rat2) : Rat2 := { num := x.num * y.num, den := x.den * y.den }

/-- Exact quotient by a nonzero rational. -/
def Rat2.div (x y : Rat2) : Rat2 :=
  if 0 ≤ y.num then { num := x.num * (y.den : Int), den := x.den * y.num.toNat }
  else { num := -(x.num * (y.den : Int)), den := x.den * (-y.num).toNat }

/-- Magnitude. -/
def Rat2.abs (x : Rat2) : Rat2 := { num := (x.num.natAbs : Int), den := x.den }

/-- Exact comparison `x ≤ y`. -/
def Rat2.le (x y : Rat2) : Bool := decide (x.num * (y.den : Int) ≤ y.num * (x.den : Int))

/-- Exact comparison `x < y`. -/
def Rat2.lt (x y : Rat2) : Bool := decide (x.num * (y.den : Int) < y.num * (x.den : Int))

/-- Exact equality of values. -/
def Rat2.beqVal (x y : Rat2) : Bool := decide (x.num * (y.den : Int) = y.num * (x.den : Int))

/-- Whether the value is zero. -/
def Rat2.isZero (x : Rat2) : Bool := decide (x.num = 0)

/-- The rounding modes of R61. -/
inductive RMode where
  | rne
  | rtz
  | rdn
  | rup
  deriving DecidableEq, Repr

/-- The mode of a code of R61. -/
def RMode.ofCode (c : Nat) : RMode :=
  match c % 4 with
  | 0 => .rne
  | 1 => .rtz
  | 2 => .rdn
  | _ => .rup

/-- The flags of FFLAGS <7:0> (R64), as a bit set. -/
abbrev FSet := BitVec 8

/-- NX of R64. -/
def flagNX : FSet := 0x01#8
/-- UF of R64. -/
def flagUF : FSet := 0x02#8
/-- OF of R64. -/
def flagOF : FSet := 0x04#8
/-- DZ of R64. -/
def flagDZ : FSet := 0x08#8
/-- NV of R64. -/
def flagNV : FSet := 0x10#8
/-- UNF of R64. -/
def flagUNF : FSet := 0x20#8
/-- OVF of R64. -/
def flagOVF : FSet := 0x40#8
/-- ACCOV of R64. -/
def flagACCOV : FSet := 0x80#8

/-- A flag when its condition holds. -/
def flagIf (c : Bool) (f : FSet) : FSet := if c then f else 0

/-- A binary format: width of the exponent field and of the fraction field (R59). -/
structure Fmt where
  ebits : Nat
  fbits : Nat
  deriving DecidableEq, Repr

/-- binary64. -/
def fmtD : Fmt := { ebits := 11, fbits := 52 }
/-- binary32. -/
def fmtS : Fmt := { ebits := 8, fbits := 23 }
/-- binary16. -/
def fmtH : Fmt := { ebits := 5, fbits := 10 }
/-- BF16. -/
def fmtB : Fmt := { ebits := 8, fbits := 7 }

/-- Bits of an encoding. -/
def Fmt.width (f : Fmt) : Nat := 1 + f.ebits + f.fbits

/-- The exponent bias (R59). -/
def Fmt.bias (f : Fmt) : Nat := 2 ^ (f.ebits - 1) - 1

/-- The weight of the sign bit. -/
def Fmt.signBit (f : Fmt) : Nat := 2 ^ (f.ebits + f.fbits)

/-- The encoding of positive infinity. -/
def Fmt.infBits (f : Fmt) : Nat := (2 ^ f.ebits - 1) * 2 ^ f.fbits

/-- The canonical NaN (R59, R60). -/
def Fmt.nanBits (f : Fmt) : Nat := f.infBits + 2 ^ (f.fbits - 1)

/-- What an encoding stands for (R59). -/
inductive FVal where
  | nan (signalling : Bool)
  | inf (neg : Bool)
  | fin (neg : Bool) (mag : Rat2)
  deriving DecidableEq, Repr

/-- The value of an encoding (R59). -/
def Fmt.decode (f : Fmt) (bits : Nat) : FVal :=
  let neg := bits / f.signBit % 2 = 1
  let e := bits / 2 ^ f.fbits % 2 ^ f.ebits
  let fr := bits % 2 ^ f.fbits
  if e = 2 ^ f.ebits - 1 then
    if fr = 0 then .inf neg else .nan (decide (fr < 2 ^ (f.fbits - 1)))
  else if e = 0 then .fin neg (.dyadic (fr : Int) (1 - (f.bias : Int) - (f.fbits : Int)))
  else .fin neg (.dyadic ((fr + 2 ^ f.fbits : Nat) : Int) ((e : Int) - (f.bias : Int) - (f.fbits : Int)))

/-- Whether a value is a NaN. -/
def FVal.isNan : FVal → Bool
  | .nan _ => true
  | .inf _ => false
  | .fin _ _ => false

/-- Whether a value is a signalling NaN. -/
def FVal.isSnan : FVal → Bool
  | .nan s => s
  | .inf _ => false
  | .fin _ _ => false

/-- Whether a value is infinite. -/
def FVal.isInf : FVal → Bool
  | .nan _ => false
  | .inf _ => true
  | .fin _ _ => false

/-- Whether a value is a zero. -/
def FVal.isZero : FVal → Bool
  | .nan _ => false
  | .inf _ => false
  | .fin _ m => m.isZero

/-- The sign of a value; a NaN counts as positive. -/
def FVal.neg : FVal → Bool
  | .nan _ => false
  | .inf n => n
  | .fin n _ => n

/-- The signed real value of a finite value, and 0 for the others. -/
def FVal.real : FVal → Rat2
  | .nan _ => .ofInt 0
  | .inf _ => .ofInt 0
  | .fin n m => if n then m.neg else m

/-- The value with its sign inverted. -/
def FVal.negate : FVal → FVal
  | .nan s => .nan s
  | .inf n => .inf !n
  | .fin n m => .fin (!n) m

/-- The encoding of an infinity. -/
def Fmt.encInf (f : Fmt) (neg : Bool) : Nat := if neg then f.signBit + f.infBits else f.infBits

/-- The encoding of a zero. -/
def Fmt.encZero (f : Fmt) (neg : Bool) : Nat := if neg then f.signBit else 0

/-- The greatest integer `e` with `2^e ≤ n / d`, for `n, d > 0`. -/
def floorLog2 (n d : Nat) : Int :=
  let e : Int := (Nat.log2 n : Int) - (Nat.log2 d : Int)
  if 0 ≤ e then (if d * 2 ^ e.toNat ≤ n then e else e - 1)
  else (if d ≤ n * 2 ^ (-e).toNat then e else e - 1)

/-- Whether an inexact magnitude rounds away from zero: `r / d` is the discarded part, `odd` the kept last bit (R61). -/
def roundsUp (m : RMode) (neg odd : Bool) (r d : Nat) : Bool :=
  match m with
  | .rne => decide (d < 2 * r) || (decide (d = 2 * r) && odd)
  | .rtz => false
  | .rdn => neg && decide (0 < r)
  | .rup => !neg && decide (0 < r)

/-- The magnitude `n / d` as a multiple of `2^q`, rounded, and whether that was inexact. -/
def roundAt (m : RMode) (neg : Bool) (n d : Nat) (q : Int) : Nat × Bool :=
  let n' := if 0 ≤ q then n else n * 2 ^ (-q).toNat
  let d' := if 0 ≤ q then d * 2 ^ q.toNat else d
  let k := n' / d'
  let r := n' % d'
  (if roundsUp m neg (k % 2 = 1) r d' then k + 1 else k, decide (r ≠ 0))

/-- Overflow of a rounded result (R62). -/
def Fmt.overflow (f : Fmt) (m : RMode) (neg : Bool) : Nat :=
  let big := f.infBits - 1
  let toInf := match m with
    | .rne => true
    | .rtz => false
    | .rdn => neg
    | .rup => !neg
  (if neg then f.signBit else 0) + (if toInf then f.infBits else big)

/-- `round_fmt` of R9 and R62: the encoding and the flags of an exact real. `zneg` is the sign of an exact zero. -/
def Fmt.round (f : Fmt) (m : RMode) (zneg : Bool) (y : Rat2) : Nat × FSet :=
  if y.num = 0 then (f.encZero zneg, 0)
  else
    let neg := decide (y.num < 0)
    let n := y.num.natAbs
    let d := y.den
    let emin : Int := 1 - (f.bias : Int)
    let e := floorLog2 n d
    let q := (if e < emin then emin else e) - (f.fbits : Int)
    let kr := roundAt m neg n d q
    let eb := (q + (f.fbits : Int) + (f.bias : Int)).toNat
    let mag := if kr.1 < 2 ^ f.fbits then kr.1 else eb * 2 ^ f.fbits + (kr.1 - 2 ^ f.fbits)
    if f.infBits ≤ mag then (f.overflow m neg, flagOF ||| flagNX)
    else
      let tiny := decide (e < emin) &&
        !(decide (e + 1 = emin) && decide ((roundAt m neg n d (e - (f.fbits : Int))).1 = 2 ^ (f.fbits + 1)))
      ((if neg then f.signBit else 0) + mag,
        flagIf kr.2 flagNX ||| flagIf (tiny && kr.2) flagUF)

/-- A real rounded to an integer under a mode, and whether that was inexact (R61, R76). -/
def roundInt (m : RMode) (y : Rat2) : Int × Bool :=
  let neg := decide (y.num < 0)
  let kr := roundAt m neg y.num.natAbs y.den 0
  (if neg then -(kr.1 : Int) else (kr.1 : Int), kr.2)

/-- A product as a term of a sum; the flag says 0 × ∞ (R62). -/
def FVal.mulTerm (a b : FVal) : FVal × Bool :=
  match a, b with
  | .nan s, _ => (.nan s, false)
  | _, .nan s => (.nan s, false)
  | .inf x, .inf y => (.inf (x != y), false)
  | .inf x, .fin y m => if m.isZero then (.nan false, true) else (.inf (x != y), false)
  | .fin x m, .inf y => if m.isZero then (.nan false, true) else (.inf (x != y), false)
  | .fin x m, .fin y k => (.fin (x != y) (m.mul k), false)

/-- Whether a list of terms holds infinities of both signs. -/
def oppositeInfs (ts : List FVal) : Bool :=
  ts.any (fun t => t.isInf && t.neg) && ts.any (fun t => t.isInf && !t.neg)

/-- The exact sum of the finite terms. -/
def sumReal (ts : List FVal) : Rat2 := ts.foldl (fun a t => a.add t.real) (.ofInt 0)

/-- The sign of an exact zero sum: −0 when every term is −0, or under RDN when the terms are not all +0 (R62, R155). -/
def zeroSumNeg (m : RMode) (ts : List FVal) : Bool :=
  ts.all (fun t => t.neg) || (m == .rdn && !ts.all (fun t => !t.neg))

/-- A sum of terms rounded once (R62). `ops` are the operands of the operation, `bad` says a product was 0 × ∞. -/
def Fmt.sumRound (f : Fmt) (m : RMode) (ops ts : List FVal) (bad : Bool) : Nat × FSet :=
  let anyNan := ops.any FVal.isNan
  let opp := oppositeInfs ts
  let nv := flagIf (ops.any FVal.isSnan || bad || (opp && !anyNan)) flagNV
  if anyNan || bad || opp then (f.nanBits, nv)
  else if ts.any FVal.isInf then (f.encInf (ts.any (fun t => t.isInf && t.neg)), 0)
  else f.round m (zeroSumNeg m ts) (sumReal ts)

/-- FADD (R152). -/
def Fmt.fadd (f : Fmt) (m : RMode) (a b : Nat) : Nat × FSet :=
  let x := f.decode a; let y := f.decode b
  f.sumRound m [x, y] [x, y] false

/-- FSUB (R152). -/
def Fmt.fsub (f : Fmt) (m : RMode) (a b : Nat) : Nat × FSet :=
  let x := f.decode a; let y := f.decode b
  f.sumRound m [x, y] [x, y.negate] false

/-- FMUL (R152). -/
def Fmt.fmul (f : Fmt) (m : RMode) (a b : Nat) : Nat × FSet :=
  let x := f.decode a; let y := f.decode b
  let p := x.mulTerm y
  f.sumRound m [x, y] [p.1] p.2

/-- FFMA and FNMA: `d ± a × b` with one rounding (R152, R153). -/
def Fmt.fma (f : Fmt) (m : RMode) (negProd : Bool) (a b d : Nat) : Nat × FSet :=
  let x := f.decode a; let y := f.decode b; let z := f.decode d
  let p := x.mulTerm y
  f.sumRound m [x, y, z] [if negProd then p.1.negate else p.1, z] p.2

/-- The IEEE division (R62, R166). -/
def Fmt.fdiv (f : Fmt) (m : RMode) (a b : Nat) : Nat × FSet :=
  let x := f.decode a; let y := f.decode b
  let s := x.neg != y.neg
  let nv := flagIf (x.isSnan || y.isSnan) flagNV
  match x, y with
  | .nan _, _ => (f.nanBits, nv)
  | _, .nan _ => (f.nanBits, nv)
  | .inf _, .inf _ => (f.nanBits, flagNV)
  | .inf _, .fin _ _ => (f.encInf s, 0)
  | .fin _ _, .inf _ => (f.encZero s, 0)
  | .fin _ p, .fin _ q =>
    if q.isZero then (if p.isZero then (f.nanBits, flagNV) else (f.encInf s, flagDZ))
    else if p.isZero then (f.encZero s, 0)
    else
      let r := p.div q
      f.round m false (if s then r.neg else r)

/-- The integer square root by bits: the greatest `r` with `r² ≤ n`, for `r` below `2^k`. -/
def isqrtGo (n : Nat) : Nat → Nat → Nat
  | 0, r => r
  | k + 1, r => if (r + 2 ^ k) * (r + 2 ^ k) ≤ n then isqrtGo n k (r + 2 ^ k) else isqrtGo n k r

/-- The integer square root. -/
def isqrt (n : Nat) : Nat := isqrtGo n (Nat.log2 n / 2 + 1) 0

/-- The square root of a positive rational: exact when it is rational with the scale used, else the middle of an interval
of more than 64 bits that holds no value where a binary64 rounding turns. -/
def sqrtReal (y : Rat2) : Rat2 :=
  let n := y.num.natAbs
  let p := (140 + Nat.log2 y.den - Nat.log2 n) / 2 + 1
  let t := n * 2 ^ (2 * p)
  let k := isqrt (t / y.den)
  if k * k * y.den = t then { num := (k : Int), den := 2 ^ p } else { num := ((2 * k + 1 : Nat) : Int), den := 2 ^ (p + 1) }

/-- The IEEE square root (R62, R166). -/
def Fmt.fsqrt (f : Fmt) (m : RMode) (a : Nat) : Nat × FSet :=
  match f.decode a with
  | .nan s => (f.nanBits, flagIf s flagNV)
  | .inf true => (f.nanBits, flagNV)
  | .inf false => (f.encInf false, 0)
  | .fin n q =>
    if q.isZero then (f.encZero n, 0)
    else if n then (f.nanBits, flagNV)
    else f.round m false (sqrtReal q)

/-- FRCP (R167). -/
def Fmt.frcp (f : Fmt) (m : RMode) (a : Nat) : Nat × FSet :=
  match f.decode a with
  | .nan s => (f.nanBits, flagIf s flagNV)
  | .inf n => (f.encZero n, 0)
  | .fin n q =>
    if q.isZero then (f.encInf n, flagDZ)
    else
      let r := (Rat2.ofInt 1).div q
      f.round m false (if n then r.neg else r)

/-- FRSQ (R167). -/
def Fmt.frsq (f : Fmt) (m : RMode) (a : Nat) : Nat × FSet :=
  match f.decode a with
  | .nan s => (f.nanBits, flagIf s flagNV)
  | .inf true => (f.nanBits, flagNV)
  | .inf false => (f.encZero false, 0)
  | .fin n q =>
    if q.isZero then (f.encInf n, flagDZ)
    else if n then (f.nanBits, flagNV)
    else f.round m false (sqrtReal ((Rat2.ofInt 1).div q))

/-- FSCALE.D: `a × 2^n` (R153). The exponent is bounded where the result over- or underflows whatever `n` is. -/
def fscale (m : RMode) (a : Nat) (n : Int) : Nat × FSet :=
  match fmtD.decode a with
  | .nan s => (fmtD.nanBits, flagIf s flagNV)
  | .inf s => (fmtD.encInf s, 0)
  | .fin s q =>
    if q.isZero then (fmtD.encZero s, 0)
    else
      let k := if n < -4096 then -4096 else if 4096 < n then 4096 else n
      let y := q.mul (.dyadic 1 k)
      fmtD.round m false (if s then y.neg else y)

/-- minimumNumber and maximumNumber (R63). -/
def Fmt.fminmax (f : Fmt) (mx : Bool) (a b : Nat) : Nat × FSet :=
  let x := f.decode a; let y := f.decode b
  let nv := flagIf (x.isSnan || y.isSnan) flagNV
  match x.isNan, y.isNan with
  | true, true => (f.nanBits, nv)
  | true, false => (b, nv)
  | false, true => (a, nv)
  | false, false =>
    let less := match x, y with
      | .inf n, .inf k => n && !k
      | .inf n, _ => n
      | _, .inf k => !k
      | _, _ => x.real.lt y.real || (x.real.beqVal y.real && x.neg && !y.neg)
    if mx then ((if less then b else a), nv) else ((if less then a else b), nv)

/-- The ten class bits of FCLASS (R154). -/
def Fmt.fclass (f : Fmt) (a : Nat) : Nat :=
  match f.decode a with
  | .nan true => 2 ^ 8
  | .nan false => 2 ^ 9
  | .inf true => 1
  | .inf false => 2 ^ 7
  | .fin n m =>
    let sub := a / 2 ^ f.fbits % 2 ^ f.ebits = 0
    if m.isZero then (if n then 2 ^ 3 else 2 ^ 4)
    else if sub then (if n then 2 ^ 2 else 2 ^ 5)
    else if n then 2 ^ 1 else 2 ^ 6

/-- How two values compare. -/
inductive FOrd where
  | lt
  | eq
  | gt
  | un
  deriving DecidableEq, Repr

/-- The IEEE comparison; −0 equals +0 (R156). -/
def FVal.cmp (x y : FVal) : FOrd :=
  match x, y with
  | .nan _, _ => .un
  | _, .nan _ => .un
  | .inf n, .inf k => if n == k then .eq else if n then .lt else .gt
  | .inf n, .fin _ _ => if n then .lt else .gt
  | .fin _ _, .inf k => if k then .gt else .lt
  | .fin _ _, .fin _ _ => if x.real.lt y.real then .lt else if x.real.beqVal y.real then .eq else .gt

/-- A conversion between binary formats (R76). -/
def convBin (src dst : Fmt) (m : RMode) (a : Nat) : Nat × FSet :=
  match src.decode a with
  | .nan s => (dst.nanBits, flagIf s flagNV)
  | .inf n => (dst.encInf n, 0)
  | .fin n q => if q.isZero then (dst.encZero n, 0) else dst.round m n (if n then q.neg else q)

/-- The least and greatest values of an integer type. -/
def intLo (w : Nat) (uns : Bool) : Int := if uns then 0 else -((2 : Int) ^ (w - 1))

/-- The greatest value of an integer type. -/
def intHi (w : Nat) (uns : Bool) : Int := if uns then (2 : Int) ^ w - 1 else (2 : Int) ^ (w - 1) - 1

/-- An integer clamped to a type. -/
def clampInt (w : Nat) (uns : Bool) (i : Int) : Int :=
  if i < intLo w uns then intLo w uns else if intHi w uns < i then intHi w uns else i

/-- The `w`-bit encoding of an integer. -/
def encInt (w : Nat) (i : Int) : Nat := (i % (2 : Int) ^ w).toNat

/-- The value of a `w`-bit signed encoding. -/
def sgn (w : Nat) (a : Nat) : Int :=
  if a % 2 ^ w < 2 ^ (w - 1) then ((a % 2 ^ w : Nat) : Int) else ((a % 2 ^ w : Nat) : Int) - (2 : Int) ^ w

/-- The value of a `w`-bit encoding of a type. -/
def intVal (w : Nat) (uns : Bool) (a : Nat) : Int := if uns then ((a % 2 ^ w : Nat) : Int) else sgn w a

/-- A finite real converted to an integer type (R76). -/
def realToInt (w : Nat) (uns : Bool) (m : RMode) (y : Rat2) : Nat × FSet :=
  let kr := roundInt m y
  if kr.1 < intLo w uns then (encInt w (intLo w uns), flagNV)
  else if intHi w uns < kr.1 then (encInt w (intHi w uns), flagNV)
  else (encInt w kr.1, flagIf kr.2 flagNX)

/-- A binary value converted to an integer type (R76). -/
def valToInt (w : Nat) (uns : Bool) (m : RMode) (x : FVal) : Nat × FSet :=
  match x with
  | .nan _ => (0, flagNV)
  | .inf n => (encInt w (if n then intLo w uns else intHi w uns), flagNV)
  | .fin n q => realToInt w uns m (if n then q.neg else q)

/-- An integer converted to a binary format (R76). -/
def intToBin (dst : Fmt) (m : RMode) (i : Int) : Nat × FSet := dst.round m false (.ofInt i)

end Sys2Proof.Machine
end

