-- ==== Sys2Proof/Machine/D8.lean ====
section
/-! DEFINITION. D8 and the scales: decoding, conversion, comparison, CVTQ, DEQ and the scale choice of CPYQ
(R67 to R77, R164, R165). -/

namespace Sys2Proof.Machine

/-- `S × 10^D` as a rational, with `S = num / den`. -/
def scaled10 (num den : Nat) (dec : Int) : Rat2 :=
  if 0 ≤ dec then { num := ((num * 10 ^ dec.toNat : Nat) : Int), den := den }
  else { num := (num : Int), den := den * 10 ^ (-dec).toNat }

/-- The magnitude of a nonzero D8 body: zones by the count of leading zeros (R67, R68). -/
def d8Mag (body : Nat) : Rat2 :=
  if 64 ≤ body then scaled10 (32 + 9 * (body % 32)) 32 (-1 + (body / 32 % 2 : Nat))
  else if 32 ≤ body then scaled10 (8 + 9 * (body % 8)) 8 (1 + (body / 8 % 4 : Nat))
  else if 16 ≤ body then scaled10 (2 + 9 * (body % 2)) 2 (-9 + (body / 2 % 8 : Nat))
  else if 8 ≤ body then scaled10 1 1 (5 + (body % 8 : Nat))
  else if 4 ≤ body then scaled10 1 1 (-13 + (body % 4 : Nat))
  else if 2 ≤ body then scaled10 1 1 (13 + (body % 2 : Nat))
  else scaled10 1 1 (-14)

/-- The real value of a D8 byte; none for void (R67). -/
def d8Real (b : Nat) : Option Rat2 :=
  let body := b % 128
  if body = 0 then (if b % 256 = 128 then none else some (.ofInt 0))
  else
    let v := d8Mag body
    some (if 128 ≤ b % 256 then v.neg else v)

/-- The nearer of two candidate bodies to a magnitude; a tie goes to the even encoding (R71). Body 0 is +0. -/
def d8Nearer (x : Rat2) (a b : Nat) : Nat :=
  let va := if a = 0 then Rat2.ofInt 0 else d8Mag a
  let vb := if b = 0 then Rat2.ofInt 0 else d8Mag b
  let da := (va.sub x).abs
  let db := (vb.sub x).abs
  if da.lt db then a else if db.lt da then b else if a % 2 = 0 then a else b

/-- The nearest body to a magnitude among the bodies up to `n` (R71). -/
def d8Nearest (x : Rat2) : Nat → Nat
  | 0 => 0
  | n + 1 => d8Nearer x (d8Nearest x n) (n + 1)

/-- Conversion of a finite real into D8 (R71, steps 2 to 4). -/
def d8OfReal (y : Rat2) : Nat × FSet :=
  let neg := decide (y.num < 0)
  let sb := if neg then 128 else 0
  let x := y.abs
  if x.isZero then (0, 0)
  else if (scaled10 1 1 14).lt x then (sb + 3, flagOVF ||| flagNX)
  else
    let k := d8Nearest x 127
    if k = 0 then (0, flagNX ||| flagUNF)
    else (sb + k, flagIf (!(d8Mag k).beqVal x) flagNX)

/-- Conversion of a binary value into D8 (R71). -/
def d8OfVal (x : FVal) : Nat × FSet :=
  match x with
  | .nan _ => (0x80, flagNV)
  | .inf n => (if n then 0x83 else 0x03, flagOVF ||| flagNX)
  | .fin n q => d8OfReal (if n then q.neg else q)

/-- Conversion of a D8 byte into a binary format (R72). -/
def d8ToBin (dst : Fmt) (m : RMode) (b : Nat) : Nat × FSet :=
  match d8Real b with
  | none => (dst.nanBits, 0)
  | some y => dst.round m false y

/-- Conversion of a D8 byte into an integer type (R72, R76). -/
def d8ToInt (w : Nat) (uns : Bool) (m : RMode) (b : Nat) : Nat × FSet :=
  match d8Real b with
  | none => (0, flagNV)
  | some y => realToInt w uns m y

/-- The D8 comparison: void is unordered with every value (R70). -/
def d8Cmp (a b : Nat) : FOrd :=
  match d8Real a, d8Real b with
  | some x, some y => if x.lt y then .lt else if x.beqVal y then .eq else .gt
  | _, _ => .un

/-- What an E5M3 block scale says (R74). -/
inductive BScale where
  | zero
  | value (v : Rat2)
  | invalid
  deriving DecidableEq, Repr

/-- The meaning of a block scale byte (R74). -/
def blockScale (c : Nat) : BScale :=
  let e := c % 256 / 8
  if e = 0 then .zero
  else if c % 256 = 0xFF then .invalid
  else .value ((Rat2.dyadic ((8 + c % 8 : Nat) : Int) ((e : Int) - 18)))

/-- A usable BF16 row scale: finite and not zero (R73). -/
def rowScale (c : Nat) : Option Rat2 :=
  match fmtB.decode c with
  | .nan _ => none
  | .inf _ => none
  | .fin n q => if q.isZero then none else some (if n then q.neg else q)

/-- A usable binary32 scale of CVTQ: finite and not zero (R164). -/
def cvtqScale (c : Nat) : Option Rat2 :=
  match fmtS.decode c with
  | .nan _ => none
  | .inf _ => none
  | .fin n q => if q.isZero then none else some (if n then q.neg else q)

/-- One byte of CVTQ: element `x` against the scale (R164). -/
def cvtqByte (x : FVal) (sc : Option Rat2) : Nat × FSet :=
  match sc with
  | none => (0x80, flagNV)
  | some s =>
    match x with
    | .nan _ => (0x80, flagNV)
    | .inf n => d8OfVal (.inf (n != decide (s.num < 0)))
    | .fin n q => d8OfReal ((if n then q.neg else q).div s)

/-- One element of DEQ: a D8 byte against a binary32 scale (R165). -/
def deqElem (m : RMode) (b sc : Nat) : Nat × FSet :=
  let s := fmtS.decode sc
  match d8Real b with
  | none => (fmtS.nanBits, flagIf s.isSnan flagNV)
  | some y =>
    let x : FVal := .fin (decide (y.num < 0)) y.abs
    let p := x.mulTerm s
    fmtS.sumRound m [s] [p.1] p.2

/-- The smallest code from `c` on, with fuel, whose value times the bound reaches `mx` (R77). -/
def cpyqCode (rho mx : Rat2) : Nat → Nat → Option Nat
  | 0, _ => none
  | k + 1, c =>
    if 0xFE < c then none
    else match blockScale c with
      | .value v => if mx.le ((v.mul rho.abs).mul { num := 311, den := 32 }) then some c else cpyqCode rho mx k (c + 1)
      | _ => cpyqCode rho mx k (c + 1)

/-- The greatest magnitude among the finite elements of a block (R77). -/
def maxFinite : List FVal → Rat2
  | [] => .ofInt 0
  | .fin _ q :: xs => let r := maxFinite xs; if r.lt q then q else r
  | .inf _ :: xs => maxFinite xs
  | .nan _ :: xs => maxFinite xs

/-- One block of CPYQ: the scale code, the element bytes and the flags (R77). -/
def cpyqBlock (rho : Option Rat2) (xs : List FVal) : Nat × List Nat × FSet :=
  match rho with
  | none => (0xFF, xs.map (fun _ => 0x80), flagNV)
  | some r =>
    let mx := maxFinite xs
    let pick : Nat × Rat2 × FSet :=
      if mx.isZero then (0, .ofInt 1, 0)
      else match cpyqCode r mx 256 0x08 with
        | some c => (match blockScale c with | .value v => (c, r.mul v, 0) | _ => (c, r, 0))
        | none => (match blockScale 0xFE with | .value v => (0xFE, r.mul v, flagOVF) | _ => (0xFE, r, flagOVF))
    let el := xs.map (fun x => match x with
      | .nan _ => ((0x80 : Nat), flagNV)
      | .inf n => d8OfVal (.inf (n != decide (pick.2.1.num < 0)))
      | .fin n q => d8OfReal ((if n then q.neg else q).div pick.2.1))
    (pick.1, el.map Prod.fst, el.foldl (fun a e => a ||| e.2) pick.2.2)

end Sys2Proof.Machine
end

