-- ==== Sys2Proof/Config.lean ====
section
/-! DEFINITION. What the manual leaves to the implementation or leaves open: free values, which no proof can see. -/

namespace Sys2Proof

/-- The code syndrome or CRC remainder of an error-log record, whose code the manual does not give (R263). Log 3. -/
opaque Config.syndrome : Nat → BitVec 64

/-- The RSASSA-PSS signature that the identity key makes over a digest, with a salt by a fresh number: the key is the device's own and its
private part never leaves the controller (R431). Log 3. -/
opaque Config.sign : List (BitVec 8) → Nat → List (BitVec 8)

/-- The modulus of the identity key, as 384 big-endian bytes (R431). Log 3. -/
opaque Config.identityKey : List (BitVec 8)

/-- The identity certificate that Read attestation returns (R431). Log 3. -/
opaque Config.certificate : List (BitVec 8)

/-- The fused SHA-256 digest of the root public key (R430). Log 3. -/
opaque Config.rootDigest : List (BitVec 8)

/-- The boot ROM's version (R432). Log 3. -/
opaque Config.romVersion : BitVec 32

/-- The LZ4 sequence of 510 bytes or fewer that the device chooses for 1,024 bytes, if it finds one (R335). The choice is
the device's own; a copy uses it only when it expands to the bytes. Log 3. -/
opaque Config.lz4Choice : List Byte → Option (List Byte)

/-- What a remote scratchpad load returns when its target group ended before it arrived: the manual states no value (R241,
R319 speak of stores and atomics alone). A free value, by a fresh number. Log 3. -/
opaque Config.lostLoad : Nat → BitVec 64

/-- Eight bytes that the array or the copy engine reads from a peer's logical space through the aperture: what the peer holds
is outside the device (R437, R438). A free value, by a fresh number. Log 3. -/
opaque Config.peerData : Nat → BitVec 64

end Sys2Proof
end

