-- ==== Sys2Proof/Machine/Tab.lean ====
section
/-! DEFINITION. Sparse tables and byte memory: one canonical form, keys strictly rising and no entry equal to what an
unlisted key reads as, so that equal contents are equal data. -/

namespace Sys2Proof.Machine

/-- A sparse table from natural keys. -/
abbrev Tab (α : Type) := List (Nat × α)

/-- The entry of a key; `d` is what an unlisted key reads as. -/
def Tab.get {α : Type} (t : Tab α) (d : α) (k : Nat) : α :=
  match t with
  | [] => d
  | (j, v) :: t => if j = k then v else Tab.get t d k

/-- The listed entry of a key. -/
def Tab.find {α : Type} (t : Tab α) (k : Nat) : Option α :=
  match t with
  | [] => none
  | (j, v) :: t => if j = k then some v else Tab.find t k

/-- A table without a key. -/
def Tab.erase {α : Type} (t : Tab α) (k : Nat) : Tab α :=
  match t with
  | [] => []
  | (j, v) :: t => if j = k then Tab.erase t k else (j, v) :: Tab.erase t k

/-- A table with an entry listed for a key. -/
def Tab.put {α : Type} (t : Tab α) (k : Nat) (v : α) : Tab α :=
  match t with
  | [] => [(k, v)]
  | (j, w) :: t => if j = k then (k, v) :: t else if k < j then (k, v) :: (j, w) :: t else (j, w) :: Tab.put t k v

/-- A write that keeps the canonical form: writing the default removes the entry. -/
def Tab.set {α : Type} [DecidableEq α] (t : Tab α) (d : α) (k : Nat) (v : α) : Tab α :=
  if v = d then Tab.erase t k else Tab.put t k v

/-- Every entry changed; entries that become the default leave. -/
def Tab.mapVals {α : Type} [DecidableEq α] (d : α) (f : α → α) (t : Tab α) : Tab α :=
  match t with
  | [] => []
  | (j, v) :: t => Tab.set (Tab.mapVals d f t) d j (f v)

/-- Keys strictly rising from a bound on. -/
def Tab.risingFrom {α : Type} (b : Nat) (t : Tab α) : Bool :=
  match t with
  | [] => true
  | (j, _) :: t => decide (b ≤ j) && Tab.risingFrom (j + 1) t

/-- The canonical form: keys strictly rising and no entry equal to the default. -/
def Tab.wf {α : Type} [DecidableEq α] (d : α) (t : Tab α) : Bool :=
  Tab.risingFrom 0 t && t.all (fun e => decide (e.2 ≠ d))

/-- A byte memory: pairs of address and byte (Host.Cell) in the canonical form; an unlisted byte reads 0. -/
abbrev Memory := List Host.Cell

/-- What an unlisted byte reads as. -/
def Memory.unlisted : Byte := 0#8

/-- The byte at an address. -/
def Memory.read (m : Memory) (a : Nat) : Byte := Tab.get m Memory.unlisted a

/-- A write of one byte. -/
def Memory.write (m : Memory) (a : Nat) (b : Byte) : Memory := Tab.set m Memory.unlisted a b

/-- The bytes from an address on. -/
def Memory.readBytes (m : Memory) (a : Nat) : Nat → List Byte
  | 0 => []
  | n + 1 => m.read a :: Memory.readBytes m (a + 1) n

/-- A write of several bytes from an address on. -/
def Memory.writeBytes (m : Memory) (a : Nat) : List Byte → Memory
  | [] => m
  | b :: bs => Memory.writeBytes (m.write a b) (a + 1) bs

/-- The canonical form of a byte memory. -/
def Memory.wf (m : Memory) : Bool := Tab.wf Memory.unlisted m

/-- The little-endian number that bytes hold (R5). -/
def leNat : List Byte → Nat
  | [] => 0
  | b :: bs => b.toNat + 256 * leNat bs

/-- The `n` little-endian bytes of a number (R5). -/
def leBytes : Nat → Nat → List Byte
  | 0, _ => []
  | n + 1, v => BitVec.ofNat 8 v :: leBytes n (v / 256)

end Sys2Proof.Machine
end

