-- ==== Sys2Proof/Machine/State.lean ====
section
/-! DEFINITION. The machine's state as plain data, the reasons a step can stop, and the state after reset.
INVENTORY.md lists every item with its rule and its reset value. -/

namespace Sys2Proof.Machine

/-- Why the machine stops. -/
inductive Fault where
  /-- Raised by a meaning that acts for the issuing fragment when `State.cur` names none. No step does that: the step
  sets `cur` before it runs a word. Safe. -/
  | noIssuer
  deriving DecidableEq, Repr

/-- Why an instruction is refused. -/
inductive Refusal where
  /-- An arm of `exec` whose instruction has no meaning yet. Safe. -/
  | notModelled (mnemonic : String)
  deriving DecidableEq, Repr

/-- The three roles of a crew (R27). -/
inductive Role where
  | copy
  | matrix
  | vector
  deriving DecidableEq, Repr

/-- A register element of 64 bits with its poison mark (R133). -/
structure Elem where
  val : Word := 0
  poison : Bool := false
  deriving DecidableEq, Repr

/-- The three states of a lane slot (R16). -/
inductive SlotState where
  | never
  | live
  | exited
  deriving DecidableEq, Repr

/-- What the hints before an instruction set up (R103 to R110), and whether one of them was at fault (R101). -/
structure Pfx where
  imm : Option (BitVec 24) := none
  rep : Option OpHRep := none
  sched : Option OpHSched := none
  mod : Option OpHMod := none
  prio : Option (BitVec 2) := none
  nops : Nat := 0
  bad : Bool := false
  /-- Cycle at which the SCHED issued (R108). -/
  schedAt : Nat := 0
  deriving DecidableEq, Repr

/-- Whether a prefix sequence is open. -/
def Pfx.isOpen (p : Pfx) : Bool :=
  p.imm.isSome || p.rep.isSome || p.sched.isSome || p.mod.isSome || p.prio.isSome || p.bad

/-- Why a fibre is not ready. The first six are meetings that another arrival or an exit ends; the others end when the
condition they name holds, and the instruction in hand then goes on (R36, R56). -/
inductive Wait where
  | none
  | syncm
  | region
  | conv (cv : Nat)
  | gbar
  | suspended
  | recordSlot
  | barw (off : Nat) (phase : Bool)
  | ringFree (off : Nat)
  | ringTake (off : Nat)
  | batch (n : Nat)
  | sealLimit
  | copyFull
  | sfuFull
  | grow
  | loads
  | fence (scope : Nat)
  | operands (ids : List Nat)
  | flags
  | counters (cl dv sy : Nat)
  | claims (grains : List Nat)
  | writeBlock (lpn : Nat)
  | release (id : Nat)
  | ownx (id : Nat)
  | peer (p : Nat) (since : Nat)
  | progs
  | halt (lseq : Nat) (since : Nat)
  | flush (core : Nat) (tag : Nat) (seqs : List Nat)
  | accepted (grain : Nat)
  | array (accs : Nat)
  | answers
  | homes (lpns : List Nat)
  | storeRoom (cl sy : Nat)
  deriving DecidableEq, Repr

/-- What a fault says of itself (R370, R372, R373), beside the fragment it stands on. -/
structure FaultInfo where
  cause : Nat := 0
  sub : Nat := 0
  lanes : BitVec 32 := 0
  addr : Nat := 0
  other : Bool := false
  impr : Bool := false
  detail : Nat := 0
  cv : Nat := 0
  regaddr : Nat := 0
  /-- Imprecise faults: the issue number of the store, by which the earliest is delivered first (R320). -/
  seq : Nat := 0
  deriving DecidableEq, Repr

/-- A fibre in its lane slot (R17), with the latches (R39), the matrix flags (R129) and the wait of its slot. -/
structure Fibre where
  st : SlotState := .never
  pc : BitVec 57 := 0
  preds : BitVec 16 := 1
  predPoison : Bool := false
  wbase : BitVec 6 := 0
  rep : Nat := 0
  restart : BitVec 57 := 0
  retry : Bool := false
  parent : BitVec 5 := 0
  l0 : Option Word := none
  l1 : Option Word := none
  l2 : Option Word := none
  l3 : Option Word := none
  /-- Latches with a parity error, bit i for l(i) (R133). -/
  lbad : BitVec 4 := 0
  mflags : BitVec 4 := 0
  /-- The lane whose FSPAWN made this fibre since that lane's restart point last advanced (R20). -/
  spawner : Option (BitVec 5) := none
  /-- Retirements since the restart point last advanced (R402). -/
  since : Nat := 0
  wait : Wait := .none
  /-- Issue units of the crew when the fibre became ready (R23). -/
  readyAt : Nat := 0
  /-- The prefix of a repeated or waiting instruction (R107). -/
  pfx : Pfx := {}
  /-- The word of the instruction a wait holds. -/
  word : BitVec 32 := 0
  /-- Address and index of the fault record the fibre is suspended for (R374, R375). -/
  record : Nat := 0
  recNo : Nat := 0
  /-- Retirements since the fibre's start (R402). -/
  life : Nat := 0
  /-- The RESUME value that the device wrote into that record (R190). -/
  resumeAt : BitVec 57 := 0
  deriving DecidableEq, Repr

/-- The tag of a lane-matrix register in one lane (R123), and its parity error (R133). -/
structure MTag where
  tag : BitVec 8 := 0
  bad : Bool := false
  deriving DecidableEq, Repr

/-- A pending SYNCM set (R25). -/
structure SyncSet where
  mask : BitVec 32
  pc : BitVec 57
  deriving DecidableEq, Repr

/-- Where a load's bytes come from and go to, lane by lane (R300 to R303). -/
inductive LoadKind where
  | plain (size : Nat) (signed : Bool)
  | quad
  | uniform (size : Nat)
  | acquire (scope : Nat)
  | nocache
  deriving DecidableEq, Repr

/-- Where an access is performed (R296): device memory with its attribute and execute permission, a scratchpad partition,
the operand die of the issuing core, or a peer's logical space. -/
inductive Place where
  | mem (laddr attr : Nat) (x : Bool)
  | pad (group off : Nat)
  | die (off : Nat)
  | peer (p addr : Nat)
  deriving DecidableEq, Repr

/-- One lane's access: its virtual address, its place, and the vector register of the lane's window that the result is for. -/
structure PLane where
  lane : Nat
  va : Nat
  place : Place
  reg : Nat := 0
  /-- Registers of the lane from this number on have been removed since the issue: what was for them is lost (R120). Register numbers lie below 128. -/
  lim : Nat := 128
  deriving DecidableEq, Repr

/-- A load that has issued and is not yet performed (R269, R300): `d` is the uniform register of a uniform load, `by_` the lanes that
issued it, and `past` those whose restart point has advanced since, so that no rewind of them discards it (R321). -/
structure PLoad where
  id : Nat
  kind : LoadKind
  d : Nat
  lanes : List PLane
  by_ : BitVec 32 := 0
  past : BitVec 32 := 0
  pol : Nat := 0
  deriving DecidableEq, Repr

/-- One lane request of an atomic (R286, R310, R311); `d` is the vector register of its lane that the answer is for. -/
structure PAtom where
  id : Nat
  seq : Nat
  lane : Nat
  op : Nat
  addr : Nat
  place : Place
  size : Nat
  a : Word
  b : Word
  d : Nat
  /-- none: not yet applied; some: the old value, whether it is poisoned and the flags. -/
  answer : Option (Elem × BitVec 8) := none
  moved : Bool := false
  regaddr : Nat := 0
  /-- As for a load's lane (R120). -/
  lim : Nat := 128
  deriving DecidableEq, Repr

/-- One sealed or open copy batch (R336). -/
structure Batch where
  no : Nat
  sealed_ : Bool := false
  left : Nat := 0
  fail : Option (Nat × FaultInfo) := none
  peerFail : Bool := false
  delivered : Bool := false
  deriving DecidableEq, Repr

/-- A prefix unit in progress (R103). -/
structure PfxUnit where
  lanes : BitVec 32
  pc : BitVec 57
  pfx : Pfx
  deriving DecidableEq, Repr

/-- Where a crew's run comparison stands is in the device; here the halves of one crew (R13, R119, R128, R399). -/
structure Crew where
  role : Role := .vector
  no : Nat := 0
  group : Nat := 0
  sys : Bool := false
  tandem : Bool := false
  vgran : Nat := 1
  mregs : Nat := 0
  fibres : Tab Fibre := []
  v : Tab Elem := []
  s : Tab Elem := []
  m : Tab Elem := []
  mtag : Tab MTag := []
  fflags : FSet := 0
  frm : BitVec 2 := 0
  tbf : BitVec 6 := 40
  tf32 : BitVec 6 := 45
  tnpp : Bool := false
  tzp : Bool := false
  rstack : List (BitVec 16) := []
  reti : Nat := 0
  iss : Nat := 0
  ackCl : Nat := 0
  ackDv : Nat := 0
  ackSy : Nat := 0
  wdog : Nat := 0
  ev : Tab Nat := []
  evSel : Tab Nat := []
  trmask : BitVec 16 := 0
  lastBatch : BitVec 16 := 0xFFFF
  batches : List Batch := []
  atomSeq : Nat := 0
  unit : Option PfxUnit := none
  sync : Option SyncSet := none
  loads : List PLoad := []
  atoms : List PAtom := []
  progs : List (Nat × Word) := []
  impr : List FaultInfo := []
  peloton : Bool := false
  /-- Cycle of entry into the peloton, or cycle since which the crew is ready in the grupetto (R36, R330). -/
  since : Nat := 0
  units : Nat := 0
  stopped : Bool := false
  halted : Bool := false
  /-- Device time in ns at which the watchdog froze (R407). -/
  frozen : Option Nat := none
  /-- Handler crews: address and index of the record, and the core slot of the trapping crew (R376). -/
  record : Nat := 0
  recNo : Nat := 0
  trapSlot : Nat := 0
  /-- Held by R292 until the flush of the old core is acknowledged. -/
  heldBy : Option (Nat × Nat × List Nat) := none
  lastPc : BitVec 57 := 0
  /-- Cycle from which the operands of the crew's next instruction are there (R146, R414; log 6). -/
  busyTo : Nat := 0
  /-- The issue slot in hand has been held for a causal trial (R414). -/
  slotHeld : Bool := false
  deriving DecidableEq, Repr

/-- A convergence register (R30) with what the first signer fixed (R31). -/
structure CvReg where
  owned : Bool := false
  owner : Nat := 0
  set : BitVec 32 := 0
  signed_ : BitVec 32 := 0
  word : BitVec 32 := 0
  pc : BitVec 57 := 0
  pfx : Pfx := {}
  deriving DecidableEq, Repr

/-- Bytes of a weight slot as the array holds them, by offset in the slot, with the poison of their words (R209, R224). -/
structure SlotImg where
  mem : Memory := []
  pois : Tab Bool := []
  deriving DecidableEq, Repr

/-- A plane binding (R209): `latched` are the scales and the metadata that the array took from the slot (R224). -/
inductive Plane where
  | empty
  | weights (slot fmt : Nat) (scaled sparse : Bool) (latched : SlotImg)
  | distance (slot : Nat) (metric clusters : Nat) (rest : List Nat)
  deriving DecidableEq, Repr

/-- A place of an accumulator (R125, R135). -/
inductive AccPlace where
  | store (tile : Nat)
  | granule (g : Nat)
  deriving DecidableEq, Repr

/-- One accumulator element: 128 bits, its mode tag (0 cleared, 1 fixed, 2 pair) and its poison mark (R79, R140, R217). -/
structure AccEl where
  bits : BitVec 128 := 0
  tag : BitVec 2 := 0
  poison : Bool := false
  deriving DecidableEq, Repr

/-- A group on its core (R33). -/
structure Group where
  core : Nat := 0
  node : Nat := 0
  gnum : Nat := 0
  gang : Nat := 0
  gidx : Nat := 0
  lseq : Nat := 0
  partw : BitVec 32 := 0
  tiles : Nat := 0
  tdesc : Tab (BitVec 8) := []
  accs : Tab AccEl := []
  accPlaces : List AccPlace := []
  cvs : Tab CvReg := []
  active : Plane := .empty
  shadow : Plane := .empty
  /-- Pool granules of its claims: the vector and overflow granules, and the first of the scratchpad run (R126, R239). -/
  vgr : List Nat := []
  sg0 : Nat := 0
  agr : List Nat := []
  extraV : List Nat := []
  prologue : Bool := false
  retg : Nat := 0
  haltReq : Bool := false
  stopTime : Nat := 0
  restored : Bool := false
  deriving DecidableEq, Repr

/-- A 32-byte sector with one poison bit per 64-bit word (R260). -/
structure Sector where
  data : BitVec 256 := 0
  poison : BitVec 4 := 0
  deriving DecidableEq, Repr

/-- Where a sector's bytes lie (R350): unwritten, a log position, a host address, a byte of a compressed unit, or lost. -/
inductive SecSrc where
  | zero
  | log (pos : Nat)
  | host (addr : Nat)
  | comp (block off : Nat)
  | lost
  deriving DecidableEq, Repr

/-- A line sector of L1 data (R247): what it holds, under which staging tag it was written (R267; 0 for every other sector), whether
the appender has not yet accepted it, the attribute of its page, the position it was filled from, and the bits of it that stand
flipped in the array though its code corrects them (R132). -/
structure L1Sector where
  lsec : Nat
  tag : Nat
  sec : Sector
  owner : Nat
  dirty : Bool := false
  attr : Nat := 0
  ctx : Nat := 0
  exec : Bool := false
  src : Option SecSrc := none
  flips : List Nat := []
  deriving DecidableEq, Repr

/-- A line of a tile's L2 (R248): a sector, tagged by the source it was fetched from. -/
structure L2Line where
  tile : Nat
  key : SecSrc
  sec : Sector
  deriving DecidableEq, Repr

/-- A store on its way to the appender: one sector's bytes and their mask (R253, R401). -/
structure StoreReq where
  slot : Nat
  crewLid : Nat
  lsec : Nat
  tag : Nat
  ctx : Nat
  data : BitVec 256
  mask : BitVec 32
  poison : BitVec 4 := 0
  counted : Bool := true
  copyId : Option Nat := none
  regaddr : Nat := 0
  addr : Nat := 0
  lost : Bool := false
  seq : Nat := 0
  deriving DecidableEq, Repr

/-- A remote scratchpad request on the cluster crossbar (R241), or its acknowledgement on the way back. -/
structure RemReq where
  id : Nat := 0
  slot : Nat
  target : Nat
  tgroup : Nat
  off : Nat
  data : List Byte
  pois : Bool := false
  acked : Bool := false
  copyId : Option Nat := none
  lid : Nat := 0
  addr : Nat := 0
  regaddr : Nat := 0
  deriving DecidableEq, Repr

/-- An entry of the special-function queue (R161), its result computed from the operands read at issue. -/
structure SfuOp where
  id : Nat := 0
  slot : Nat
  /-- The fragment that issued it, which a parity error in the entry rewinds (R44), and the instruction. -/
  lanes : BitVec 32 := 0
  pc : BitVec 57 := 0
  word : BitVec 32 := 0
  rep : Nat := 0
  /-- Lane, vector register of the lane, and value. -/
  results : List (Nat × Nat × Elem)
  flags : FSet
  deriving DecidableEq, Repr

/-- What an array operation does when it completes (R212): flags, the report, the fault or the rewind of its signers. -/
structure ArrOp where
  id : Nat := 0
  slot : Nat
  cv : Nat
  signers : BitVec 32
  flags : FSet := 0
  report : Option (Nat × Word) := none
  fault : Option FaultInfo := none
  consumed : Bool := false
  word : BitVec 32 := 0
  pc : BitVec 57 := 0
  cycles : Nat := 0
  tileOff : Nat := 0
  tileLen : Nat := 0
  /-- The accumulators that it names (R232). -/
  accs : List Nat := []
  deriving DecidableEq, Repr

/-- What a copy does (R335, R339, R366). -/
inductive CopyKind where
  | cpy (src dst len : Nat) (ring : Option (Nat × Nat)) (comp : Bool)
  | cpyq (rec_ coord : Nat) (dir index : Nat) (ring : Option (Nat × Nat))
  | cpyt (rec_ coord : Nat) (dir index : Nat) (ring : Option (Nat × Nat))
  | rget (peer src dst len : Nat)
  | ship (peer slot : Nat)
  deriving DecidableEq, Repr

/-- A copy in the core's queue or in flight (R333). -/
structure Copy where
  id : Nat
  slot : Nat
  group : Nat
  batch : Nat
  kind : CopyKind
  ctx : Nat
  tag : Nat
  lid : Nat
  started : Bool := false
  /-- Bytes, rows or units already moved. -/
  done : Nat := 0
  total : Nat := 0
  flags : FSet := 0
  /-- Writes not yet accepted by the appender. -/
  out : Nat := 0
  fail : Option FaultInfo := none
  peerFail : Bool := false
  /-- Cycle of the first request of a claim that the next piece waits for, and the grain's address. -/
  since : Option Nat := none
  claimAddr : Nat := 0
  /-- Device time since which an append of the copy's is held (R256). -/
  held : Option Nat := none
  /-- Device time since which an RGET finds the link to its peer recovering (R339). -/
  down : Option Nat := none
  pol : Nat := 0
  sums : List Nat := []
  /-- The tensor shape record that the engine read as the copy started, and the addresses of the tile's rows. -/
  rec_ : List Byte := []
  touch : List Nat := []
  deriving DecidableEq, Repr

/-- A pending REGG or ACCG grow (R135, R136) of a fragment. -/
structure GrowReq where
  slot : Nat
  lanes : BitVec 32
  acc : Bool
  want : Nat
  /-- The uniform register that its status is for. -/
  d : BitVec 5 := 0
  deriving DecidableEq, Repr

/-- A handler start waiting for the handler slot (R375, R376). -/
structure HandlerReq where
  slot : Nat
  record : Nat
  index : Nat
  info : Word
  group : Nat
  ctx : Nat
  deriving DecidableEq, Repr

/-- A trap that waits for its record slot (R374): `lanes` are the suspended fibres, `frag` the lowest lane of the fragment as it
issued (R24), `prio` the level that a PRIO gave (R110). -/
structure TrapReq where
  slot : Nat
  lanes : BitVec 32
  frag : Nat
  prio : Nat := 0
  info : FaultInfo
  pc : BitVec 57
  word : BitVec 32
  rep : Nat
  parent : BitVec 5
  sibs : BitVec 32
  deriving DecidableEq, Repr

/-- A cached level-0 translation (R348). -/
structure TlbEntry where
  ctx : Nat
  vpn : Nat
  entry : Word
  deriving DecidableEq, Repr

/-- One core (R238 to R247, R399). -/
structure Core where
  slots : Tab Crew := []
  pool : Memory := []
  poolPoison : Tab Bool := []
  btags : Tab Bool := []
  die : Memory := []
  diePoison : Tab Bool := []
  l1 : List L1Sector := []
  l1i : List (Nat × BitVec 256) := []
  tlb : List TlbEntry := []
  recs : List (Nat × List Byte) := []
  stq : List StoreReq := []
  remq : List RemReq := []
  sfu : List SfuOp := []
  arr : List ArrOp := []
  copies : List Copy := []
  grows : List GrowReq := []
  /-- Ring slots whose copy has performed its last write and that no fill has counted yet: group, descriptor, slot (R332). -/
  ringDone : List (Nat × Nat × Nat) := []
  blocked : Option Nat := none
  traps : List TrapReq := []
  handlers : List HandlerReq := []
  injAddr : BitVec 57 := 0
  injCtl : BitVec 14 := 0
  injGroup : Nat := 0
  samplePeriod : BitVec 6 := 0
  /-- The samples that multiples of the sampling period have called for, oldest first: a crew's slot, and its PC, count of issues, lanes
  and wait as it stood (R413). -/
  samples : List (Nat × Nat × Nat × BitVec 32 × Bool) := []
  /-- The group from whose bound slots the array has loaded its two physical planes, and the elements that they hold (R209, R226). -/
  served : Option Nat := none
  activeCells : SlotImg := {}
  shadowCells : SlotImg := {}
  deriving DecidableEq, Repr

/-- A store that a buffered sector holds: the launch identifier, the restart point and the address that it carries, and the bytes of
the sector that it wrote (R319). -/
structure StoreSrc where
  lid : Nat
  regaddr : Nat := 0
  addr : Nat := 0
  mask : BitVec 32 := 0
  deriving DecidableEq, Repr

/-- A grain entry of an appender's gather buffer (R253): its sectors, and for each the stores that it holds. `rel` names the release whose
set holds the entry while its append is held (R256, R270): no later store joins it. `due` says that an OWNX waits for its write. -/
structure GatherEntry where
  grain : Nat
  tag : Nat
  ctx : Nat
  sectors : Tab Sector
  srcs : Tab (List StoreSrc) := []
  rel : Nat := 0
  due : Bool := false
  deriving DecidableEq, Repr

/-- A staged index update in a cluster's pending-update buffer, or held at a home (R271, R351): `srcs` are the stores that the sector
holds, `rel` the release that took it into its set, and `seq` the number of that release once it has one (R270). -/
structure Update where
  lsec : Nat
  cluster : Nat
  tag : Nat
  ctx : Nat
  pos : Nat
  seq : Nat := 0
  srcs : List StoreSrc := []
  rel : Nat := 0
  deriving DecidableEq, Repr

/-- An IXLB entry: a copy of a grain entry as one reader may see it, per tag (R354). -/
structure IxEntry where
  grain : Nat
  tag : Nat
  /-- Sources of the 16 sectors. -/
  pos : List SecSrc
  attr : Nat
  host : Bool
  wb : Bool
  exec : Bool
  ctx : Nat
  claim : Bool := false
  deriving DecidableEq, Repr

/-- A release in progress (R270). It has its number once every gather entry of its set stands in the log. -/
structure Rel where
  id : Nat
  tag : Nat
  numbered : Bool := false
  seq : Nat := 0
  core : Nat
  slot : Nat
  /-- Updates of the release set not yet acknowledged by their homes. -/
  left : List Update
  /-- The node whose retirement it is, for a retirement publication (R52, R290). -/
  node : Option Nat := none
  committed : Bool := false
  deriving DecidableEq, Repr

/-- A claim asked of the ownership home (R281). -/
structure ClaimReq where
  grain : Nat
  tag : Nat
  core : Nat
  slot : Nat
  /-- 0 asked, 1 granted, 2 refused; a waiting requester (OWNX, copies) asks again. -/
  outcome : Nat := 0
  since : Nat := 0
  retry : Bool := false
  deriving DecidableEq, Repr

/-- A node commit word (R355). -/
structure NodeWord where
  tag : Nat
  rseq : BitVec 32
  deriving DecidableEq, Repr

/-- One cluster (R253, R354, R355). -/
structure Cluster where
  gather : List GatherEntry := []
  pend : List Update := []
  ixlb : List IxEntry := []
  rseq : BitVec 32 := 0
  nextSeq : BitVec 32 := 1
  ncw : List NodeWord := []
  openSegs : List (Nat × Nat) := []
  turn : Nat := 0
  rels : List Rel := []
  claims : List ClaimReq := []
  held : Option Nat := none
  deriving DecidableEq, Repr

/-- The state of a segment (R252). -/
inductive SegState where
  | free
  | open_
  | sealed_
  | dredging
  | draining
  | retired
  deriving DecidableEq, Repr

/-- A segment-table entry, its header owner and its on-die correction failures (R251, R252, R254). -/
structure Seg where
  st : SegState := .free
  owner : Nat := 0
  live : Nat := 0
  staged : Nat := 0
  uses : Nat := 0
  sealseq : Nat := 0
  next : Nat := 1
  /-- The data blocks that have failed on-die correction, each once. -/
  badBlocks : List Nat := []
  deriving DecidableEq, Repr

/-- A page record (R349). -/
structure PageRec where
  valid : Bool := false
  host : Bool := false
  wb : Bool := false
  comp : Bool := false
  notified : Bool := false
  home : Nat := 0
  gtab : Nat := 0
  acnt : Nat := 0
  hbase : Nat := 0
  gen : Nat := 0
  moving : Bool := false
  /-- The last notification of the page was dropped (R367). -/
  dropped : Bool := false
  deriving DecidableEq, Repr

/-- A grain entry (R350). -/
structure Grain where
  b0 : Option Nat := none
  b1 : Option Nat := none
  b2 : Option Nat := none
  b3 : Option Nat := none
  smap : List Nat := []
  lost : BitVec 16 := 0
  written : Bool := true
  deriving DecidableEq, Repr

/-- A claim record (R356). -/
structure Claim where
  grain : Nat
  cluster : Nat
  tag : Nat
  released : Bool := false
  deriving DecidableEq, Repr

/-- A tag and result kept by a home (R286). -/
structure AtomTag where
  lpn : Nat
  core : Nat
  slot : Nat
  seq : Nat
  lane : Nat := 0
  old : Elem
  flags : BitVec 8
  time : Nat
  deriving DecidableEq, Repr

/-- A context-table entry and the context's registers and counters (R131, R346, R399, R412, R414). -/
structure Ctx where
  valid : Bool := false
  root : Nat := 0
  pnq : Nat := 0
  pnqen : Bool := false
  aper : Bool := false
  hpth : Nat := 256
  tvec : BitVec 64 := 0
  frptr : BitVec 64 := 0
  prog : Tab Word := []
  trdly : Nat := 0
  trlost : Nat := 0
  dstop : Bool := false
  trace : Tab Nat := []
  traceLost : Bool := false
  /-- Pre-emption: stage 0 none, 1 drain, 2 region stop, 3 complete; start, D1, D2 in ns, and the window. -/
  stage : Nat := 0
  pstart : Nat := 0
  d1 : Nat := 0
  d2 : Nat := 0
  window : Nat := 0
  winLen : Nat := 0
  deriving DecidableEq, Repr

/-- A staging-table entry (R355). -/
inductive Staging where
  | free
  | running (lid : Nat)
  | committed (lid : Nat)
  | discarded (lid : Nat)
  deriving DecidableEq, Repr

/-- Where a node stands. -/
inductive NodePhase where
  | waiting
  | ready (since : Nat)
  | running
  | publishing
  | retired
  | completed
  deriving DecidableEq, Repr

/-- A node: a launch-queue entry the dispatcher has examined (R322 to R327, R51 to R55). -/
structure Node where
  lid : Nat
  ctx : Nat
  phase : NodePhase := .waiting
  recd : List Byte := []
  succs : List Nat := []
  nfr : Nat := 0
  stag : Nat := 0
  rolls : Nat := 0
  status : Nat := 0
  readySince : Nat := 0
  left : Nat := 0
  ended : Nat := 0
  count : Nat := 0
  imprecise : Bool := false
  /-- Skipped before the doorbell of its entry (R327). -/
  early : Bool := false
  clusters : List Nat := []
  cores : List Nat := []
  deriving DecidableEq, Repr

/-- Groups or gangs waiting for admission (R329): those of a node from number `next` to its count, which all ask for the same, or
one saved unit (R389) by the keys of its groups. -/
structure PendGroup where
  lid : Nat
  next : Nat := 0
  count : Nat := 1
  saved : List Nat := []
  deriving DecidableEq, Repr

/-- A launch-queue descriptor (R322), the entries examined and completed. -/
structure LQueue where
  base : Nat := 0
  loc : Bool := false
  log2n : Nat := 0
  evq : Nat := 0
  ctx : Nat := 0
  en : Bool := false
  head : Nat := 0
  tail : Nat := 0
  deriving DecidableEq, Repr

/-- An event-queue or error-log or trace-ring descriptor (R341, R343, R410), with what the device keeps beside it. -/
structure EQueue where
  base : Nat := 0
  loc : Bool := false
  log2n : Nat := 0
  vec : Nat := 0
  ctx : Nat := 0
  en : Bool := false
  head : Nat := 0
  tail : Nat := 0
  holdoff : Nat := 0
  lost : Bool := false
  sentAt : Option Nat := none
  deferred : Bool := false
  deriving DecidableEq, Repr

/-- A record the device is to write into an event queue (R340, R342). -/
structure EvRecord where
  queue : Nat
  kind : Nat
  status : Nat := 0
  ctx : Nat := 0
  data : Nat := 0
  info : Nat := 0
  crew : Option (Nat × Nat) := none
  node : Option Nat := none
  deriving DecidableEq, Repr

/-- An entry of a root table: the address of a page block and its generation (R349). -/
structure PBlock where
  addr : Nat := 0
  gen : Nat := 0
  deriving DecidableEq, Repr

/-- A root table: its physical address, its generation and its valid entries, by logical page ÷ 1,024 (R349, R362). -/
structure Root where
  addr : Nat := 0
  gen : Nat := 0
  blocks : Tab PBlock := []
  deriving DecidableEq, Repr

/-- A snapshot slot with the index it retains (R361, R362). -/
structure Snap where
  valid : Bool := false
  ship : Bool := false
  gen : Nat := 0
  time : Nat := 0
  sealseq : Nat := 0
  root : Root := {}
  pages : Tab PageRec := []
  grains : Tab Grain := []
  deriving DecidableEq, Repr

/-- A window a peer has granted or was granted (R436). -/
structure PeerWindow where
  base : Nat
  len : Nat
  write : Bool
  deriving DecidableEq, Repr

/-- The state of a link port (R434). -/
inductive PortState where
  | up
  | half
  | recovering (since : Nat)
  | failed
  deriving DecidableEq, Repr

/-- A link port (R433, R434, R441): the sequence number that it expects, that of its next flit, its credits, the flits that it keeps for
replay, oldest first, the number from which it has asked its partner to send again, and the flits that it has put on the link. -/
structure Port where
  st : PortState := .up
  rxSeq : Nat := 0
  retries : Nat := 0
  partner : Option Nat := none
  txSeq : Nat := 0
  credits : Nat := 0
  replay : List (List Byte) := []
  retryFrom : Option Nat := none
  out : List (List Byte) := []
  deriving DecidableEq, Repr

/-- A peer-table entry (R436), the windows in both directions and their copies. -/
structure Peer where
  serial : Nat := 0
  ports : List Nat := []
  granted : List PeerWindow := []
  grantedCopy : List PeerWindow := []
  windows : List PeerWindow := []
  deriving DecidableEq, Repr

/-- A request to a peer on its way (R277, R339, R438). -/
structure PeerReq where
  id : Nat
  peer : Nat
  core : Nat
  slot : Nat
  lid : Nat
  addr : Nat
  data : List Byte
  sy : Bool := true
  regaddr : Nat := 0
  vaddr : Nat := 0
  copyId : Option Nat := none
  /-- The words of the data that are carried poisoned (R260, R333). -/
  pois : List Nat := []
  deriving DecidableEq, Repr

/-- What a home of this device answers a peer (R438): the bytes of a load with the poison of its words, an acknowledgement, or a refusal. -/
inductive PeerAnswer where
  | data (bytes : List Byte) (poison : List Bool)
  | ack
  | refused
  deriving DecidableEq, Repr

/-- An answer to a peer, in the order in which they leave (R438). -/
structure PeerReply where
  peer : Nat
  addr : Nat
  answer : PeerAnswer
  deriving DecidableEq, Repr

/-- A commit record that this device holds as a replica (R365): the device time of the write, and its release set by sector and position. -/
structure ReplicaCommit where
  time : Nat
  set : List (Nat × Nat)
  deriving DecidableEq, Repr

/-- The replica of a peer's published state (R365): the data blocks received, the commit records that wait to be applied, and the position of
each sector by those applied. -/
structure Replica where
  blocks : Tab (List Byte) := []
  waiting : List ReplicaCommit := []
  index : Tab Nat := []
  deriving DecidableEq, Repr

/-- A replica root that this device retains for a peer (R366): the peer's slot and its generation, and the sectors that the root reaches with their positions. -/
structure ReplicaRoot where
  peer : Nat
  slot : Nat
  gen : Nat := 0
  index : Tab Nat := []
  deriving DecidableEq, Repr

/-- An atomic whose crew has ended and whose home could not yet apply it (R55, R285, R311). -/
structure Orphan where
  core : Nat
  slot : Nat
  lid : Nat
  atom : PAtom
  deriving DecidableEq, Repr

/-- A device write of bits of one sector: `poison` are words that it stores poisoned (R260). One that waits for a free segment says since
when; those of one number are made together, as the sectors of a save area are (R256, R386, R456). -/
structure HeldWrite where
  lsec : Nat
  data : BitVec 256
  mask : BitVec 256
  poison : BitVec 4 := 0
  since : Nat := 0
  unit : Nat := 0
  deriving DecidableEq, Repr

/-- A bit of an HBM word that stands flipped in the cells though its code corrects it on every read (R132, R259). -/
structure HbmFlip where
  word : Nat
  bit : Nat
  deriving DecidableEq, Repr

/-- A peer's store waiting at a home of this device (R438). -/
structure PeerStore where
  peer : Nat
  addr : Nat
  data : List Byte
  since : Nat
  /-- The words of the data that are carried poisoned (R260). -/
  pois : List Nat := []
  deriving DecidableEq, Repr

/-- A saved group as its directory entry and areas describe it (R386 to R388). -/
structure SavedGroup where
  key : Nat
  ctx : Nat
  dirAddr : Nat
  areaAddr : Nat
  lseq : Nat
  lid : Nat
  gnum : Nat
  core : Nat
  gangw : Nat
  gidx : Nat
  halted : Bool
  deriving DecidableEq, Repr

/-- What waits to be shipped to the replica peer, in order: a written block, or a commit record with its device time and its
release set, each update's sector and position (R365). -/
inductive OutItem where
  | block (b : Nat)
  | commit (cluster tag seq time : Nat) (set : List (Nat × Nat))
  deriving DecidableEq, Repr

/-- A command that holds the mailbox until it finishes (R423). -/
inductive MailCmd where
  | preempt (ctx : Nat)
  | resume (ctx : Nat)
  | checkpoint (d2 manifest image : Nat)
  | migrate (ctx vpn : Nat)
  | drain (ctx : Nat) (lpn : Option Nat)
  deriving DecidableEq, Repr

/-- A causal trial (R414). -/
structure Trial where
  active : Bool := false
  ctx : Nat := 0
  lo : BitVec 57 := 0
  hi : BitVec 57 := 0
  delay : Nat := 0
  endAt : Option Nat := none
  deriving DecidableEq, Repr

/-- Run comparison (R415). -/
structure RunCmp where
  on : Bool := false
  lid : Nat := 0
  compare : Bool := false
  recording : List (Nat × Nat × Bool × Nat) := []
  deriving DecidableEq, Repr

/-- A cross-device barrier binding (R442): the partners, the arrivals of each (partner's place in the list, gang), and how many
barriers of each gang have completed. -/
structure XBarrier where
  lid : Nat
  partners : List (Nat × Nat)
  arrivals : Tab Nat := []
  done : Tab Nat := []
  deriving DecidableEq, Repr

/-- One record of an error log as the device keeps it (R263, R343). -/
structure ErrRec where
  level : Nat
  kind : Nat
  inj : Bool := false
  unit : Nat := 0
  lane : Nat := 0
  retry : Nat := 0
  paddr : Nat := 0
  time : Nat := 0
  /-- The number of its syndrome, a free value (Config). -/
  syn : Nat := 0
  deriving DecidableEq, Repr

/-- What the host sends to the device, field by field; each row without an encoding names the fields it reads. -/
structure EvArg where
  core : Nat := 0
  slot : Nat := 0
  cluster : Nat := 0
  stack : Nat := 0
  tile : Nat := 0
  queue : Nat := 0
  ctx : Nat := 0
  lane : Nat := 0
  idx : Nat := 0
  kind : Nat := 0
  addr : Nat := 0
  page : Nat := 0
  value : Nat := 0
  flag : Bool := false
  seq : Nat := 0
  ints : List Nat := []
  bytes : List Byte := []
  deriving DecidableEq, Repr

/-- Whose turn it is: an issue of a crew, a step of another agent, or idle cycles. -/
inductive Turn where
  | issue (core slot : Nat)
  | event (i : Instr) (a : EvArg)
  | idle (cycles : Nat)
  deriving DecidableEq, Repr

/-- The issuing fragment and the instruction in hand. -/
structure Cur where
  core : Nat
  slot : Nat
  lanes : BitVec 32
  pc : BitVec 57
  word : BitVec 32
  ins : Instr
  pfx : Pfx := {}
  rep : Nat := 0
  resumed : Bool := false
  deriving DecidableEq, Repr

/-- The arbiter of an HBM channel (R344): the class it served last, the classes that waited then, the foreground reads that wait, in
arrival order, and how many of them the last burst's end found waiting and are still to be served; and in its floor window, numbered
from 1, the ns that each class is still owed. -/
structure Chan where
  last : Nat := 0
  waits : BitVec 7 := 0
  reads : List Nat := []
  due : Nat := 0
  window : Nat := 0
  owed : Tab Nat := []
  deriving DecidableEq, Repr

/-- A running dredge (R255). -/
structure Dredge where
  stack : Nat
  seg : Nat
  drained : Bool := false
  deriving DecidableEq, Repr

/-- The whole machine. -/
structure State where
  /-- PHASE, TILES, DEGRADED, ATTEST, FWREJ (R422, R428). -/
  phase : Nat := 0
  tilesUp : BitVec 8 := 0
  degraded : Bool := false
  attest : Bool := false
  fwrej : Bool := false
  powered : Bool := true
  selfTest : Nat := 0
  tjmax : BitVec 16 := 0
  tinlet : BitVec 16 := 0
  power : BitVec 16 := 0
  throt : Bool := false
  /-- Arithmetic clock in units of 100 MHz (R3, R435). -/
  clock : Nat := 36
  cstate : Nat := 0
  cstatus : Nat := 0
  cseq : BitVec 32 := 0
  /-- The command that holds the mailbox (R423). -/
  busy : Option MailCmd := none
  cmdbuf : Memory := []
  rspbuf : Memory := []
  /-- MSI-X vectors sent, oldest first. -/
  msix : List Nat := []
  capacity : Option Nat := none
  cycle : Nat := 0
  /-- Device time in units of 1/L ns, L = 144403552893600 (R404). -/
  ticks : Nat := 0
  cores : Tab Core := []
  clusters : Tab Cluster := []
  groups : Tab Group := []
  nodes : Tab Node := []
  pending : List PendGroup := []
  /-- The cores marked for the head of the pending list (R329). -/
  marked : List Nat := []
  /-- The head that they are marked for. -/
  markHead : Option PendGroup := none
  nextLseq : Nat := 0
  lqs : Tab LQueue := []
  eqs : Tab EQueue := []
  els : Tab EQueue := []
  evout : List EvRecord := []
  errs : List ErrRec := []
  /-- Records of the errors that the step in hand met while it copied a grain, still to be logged (R259, R351). -/
  errDue : List ErrRec := []
  ce : Tab Nat := []
  ue : Tab Nat := []
  elost : Tab Nat := []
  ctxs : Tab Ctx := []
  /-- Table region words of the translation tables, by physical address ÷ 8 (R347). -/
  tables : Tab Word := []
  /-- Next free physical address of the table region. -/
  nextTable : Nat := 0
  pages : Tab PageRec := []
  grains : Tab Grain := []
  /-- Grain entries as last written back to their grain tables (R351). -/
  gtabs : Tab Grain := []
  hpend : List Update := []
  hwait : List Update := []
  homeClaims : List Claim := []
  atomTags : List AtomTag := []
  orphans : List Orphan := []
  /-- The copies of the commit registers that the tiles hold: 256 × tile + cluster (R271). -/
  commitCopies : Tab (BitVec 32) := []
  /-- Tables that the live root no longer reaches and snapshots may: address and size (R362). -/
  freeTabs : List (Nat × Nat) := []
  /-- Freed places of the table region: address and size (R362). -/
  tabPool : List (Nat × Nat) := []
  gen : Nat := 0
  /-- The live root table (R349). -/
  root : Root := {}
  snaps : Tab Snap := []
  replicaRoots : List ReplicaRoot := []
  /-- What this device keeps as a replica of its peers (R365). -/
  replicas : Tab Replica := []
  stagingT : Tab Staging := []
  segs : Tab Seg := []
  seals : Nat := 0
  masks : Tab (BitVec 16) := []
  dredges : List Dredge := []
  recSeg : Option (Nat × Nat) := none
  tableSegs : Nat := 1
  pressure : Bool := false
  hbm : Memory := []
  hbmPoison : Tab Bool := []
  hbmFlips : List HbmFlip := []
  /-- Device writes that wait for a free segment, oldest first (R256, R456). -/
  heldWrites : List HeldWrite := []
  laneRetries : Tab Nat := []
  lanesUsed : Tab Nat := []
  chanRefresh : Tab Nat := []
  chans : Tab Chan := []
  /-- Sweep times in ns of the three kinds of level, at first the defaults of R262. -/
  scrubRates : Tab Nat := [(0, 10000000), (1, 100000000), (2, 3600000000000)]
  l2 : List L2Line := []
  host : Memory := []
  /-- Words of host memory that a read over PCI Express does not get (R421). -/
  hostErr : Tab Bool := []
  peers : Tab Peer := []
  ports : Tab Port := []
  serial : Nat := 0
  replica : Option Nat := none
  peerOut : List PeerReq := []
  peerIn : List PeerStore := []
  peerReplies : List PeerReply := []
  outflow : List OutItem := []
  outflowSent : Nat := 0
  xbars : List XBarrier := []
  trial : Trial := {}
  runcmp : RunCmp := {}
  savedGroups : List SavedGroup := []
  mesh : List Nat := []
  shards : List (List Byte) := []
  fuseFloor : Nat := 0
  flashA : List Byte := []
  flashB : List Byte := []
  /-- The stage-1 image that runs (R430, R432). -/
  stage1 : List Byte := []
  /-- The stage-2 images, in tile, base-die, port order (R430, R432). -/
  stage2 : List (List Byte) := []
  /-- The attestation report made at start; empty before (R432). -/
  startReport : List Byte := []
  started : Nat := 0
  /-- Fresh identifiers of requests. -/
  nextId : Nat := 1
  /-- The model's own: the next free value (Config). -/
  fresh : Nat := 0
  /-- The model's own: the core after which the search for the next issue begins. -/
  lastCore : Nat := 0
  /-- The model's own: the turns to come, the issuing fragment and the event's operands. -/
  agenda : List Turn := []
  cur : Option Cur := none
  ev : EvArg := {}
  deriving DecidableEq, Repr

/-- The machine right after device reset (R8, R427, R428): PHASE 0, every table, counter and register at its reset value. -/
def State.reset : State := {}

end Sys2Proof.Machine
end

