-- ==== Sys2Proof/Machine/Base.lean ====
section
/-! DEFINITION. Accessors of the state: every part has one home, and every read and write goes through these. -/

namespace Sys2Proof.Machine

/-- A core's state. -/
def State.core (s : State) (c : Nat) : Core := Tab.get s.cores {} c

/-- The state with one core replaced. -/
def State.setCore (s : State) (c : Nat) (v : Core) : State := { s with cores := Tab.set s.cores {} c v }

/-- The state with one core changed. -/
def State.modCore (s : State) (c : Nat) (f : Core → Core) : State := s.setCore c (f (s.core c))

/-- The crew in a slot, when the slot is taken. Slot 32 is the handler slot (R376). -/
def State.crew? (s : State) (c sl : Nat) : Option Crew := Tab.find (s.core c).slots sl

/-- The crew in a slot; a free slot reads as a crew without live fibres. -/
def State.crew (s : State) (c sl : Nat) : Crew := (s.crew? c sl).getD {}

/-- The state with the crew of a slot replaced. -/
def State.setCrew (s : State) (c sl : Nat) (w : Crew) : State :=
  s.modCore c (fun k => { k with slots := Tab.put k.slots sl w })

/-- The state with the crew of a slot changed. -/
def State.modCrew (s : State) (c sl : Nat) (f : Crew → Crew) : State := s.setCrew c sl (f (s.crew c sl))

/-- The cluster of a core (R2). -/
def clusterOf (core : Nat) : Nat := core / 8

/-- The tile of a core (R2). -/
def tileOf (core : Nat) : Nat := core / 256

/-- A cluster's state. -/
def State.cluster (s : State) (k : Nat) : Cluster := Tab.get s.clusters {} k

/-- The state with one cluster changed. -/
def State.modCluster (s : State) (k : Nat) (f : Cluster → Cluster) : State :=
  { s with clusters := Tab.set s.clusters {} k (f (s.cluster k)) }

/-- The state with every core changed. -/
def State.modCores (s : State) (f : Core → Core) : State := { s with cores := Tab.mapVals {} f s.cores }

/-- The state with every cluster changed. -/
def State.modClusters (s : State) (f : Cluster → Cluster) : State := { s with clusters := Tab.mapVals {} f s.clusters }

/-- A resident group; an absent one reads as a group without storage. -/
def State.group (s : State) (g : Nat) : Group := (Tab.find s.groups g).getD {}

/-- The state with one group changed. -/
def State.modGroup (s : State) (g : Nat) (f : Group → Group) : State := { s with groups := Tab.put s.groups g (f (s.group g)) }

/-- A node; an unknown one reads as a completed node without a record. -/
def State.node (s : State) (lid : Nat) : Node := (Tab.find s.nodes lid).getD { lid := lid, ctx := 0, phase := .completed }

/-- The state with one node changed. -/
def State.modNode (s : State) (lid : Nat) (f : Node → Node) : State := { s with nodes := Tab.put s.nodes lid (f (s.node lid)) }

/-- A context. -/
def State.ctx (s : State) (t : Nat) : Ctx := Tab.get s.ctxs {} t

/-- The state with one context changed. -/
def State.modCtx (s : State) (t : Nat) (f : Ctx → Ctx) : State := { s with ctxs := Tab.set s.ctxs {} t (f (s.ctx t)) }

/-- A page record (R349). -/
def State.page (s : State) (lpn : Nat) : PageRec := Tab.get s.pages {} lpn

/-- A fibre of a crew. -/
def Crew.fibre (w : Crew) (l : Nat) : Fibre := Tab.get w.fibres {} l

/-- A crew with one fibre changed. -/
def Crew.modFibre (w : Crew) (l : Nat) (f : Fibre → Fibre) : Crew :=
  { w with fibres := Tab.set w.fibres {} l (f (w.fibre l)) }

/-- The lanes of a mask, ascending (R10). -/
def lanesOf (m : BitVec 32) : List Nat := (List.range 32).filter (fun l => m.getLsbD l)

/-- The mask of some lanes. -/
def maskOf (ls : List Nat) : BitVec 32 := ls.foldl (fun m l => m ||| BitVec.ofNat 32 (2 ^ l)) 0

/-- The lanes of a crew that a predicate of fibres selects. -/
def Crew.lanesWhere (w : Crew) (p : Fibre → Bool) : BitVec 32 := maskOf ((List.range 32).filter (fun l => p (w.fibre l)))

/-- Whether a fibre is live (R16). -/
def Fibre.live (f : Fibre) : Bool := f.st == .live

/-- The crew's live lanes. -/
def Crew.liveMask (w : Crew) : BitVec 32 := w.lanesWhere Fibre.live

/-- The lowest lane of a mask; 0 for the empty mask. -/
def lowestLane (m : BitVec 32) : Nat := (lanesOf m).headD 0

/-- Change every fibre of a mask. -/
def Crew.modLanes (w : Crew) (m : BitVec 32) (f : Nat → Fibre → Fibre) : Crew :=
  (lanesOf m).foldl (fun w l => w.modFibre l (f l)) w

/-- A physical vector register of a lane (R120). -/
def Crew.vreg (w : Crew) (lane n : Nat) : Elem := Tab.get w.v {} (32 * n + lane)

/-- The number in its lane of the vector register that a name stands for, in the window of the lane's fibre (R120). -/
def Crew.vnum (w : Crew) (lane n : Nat) : Nat := (w.fibre lane).wbase.toNat + n

/-- A write of a vector register of a lane; writing clears the poison unless the element is marked (R133). -/
def Crew.setVreg (w : Crew) (lane n : Nat) (e : Elem) : Crew := { w with v := Tab.set w.v {} (32 * n + lane) e }

/-- A late write of a vector register: what is for a register from number `lim` on is lost, for a shrink has removed it (R120). -/
def Crew.putLate (w : Crew) (lim lane n : Nat) (e : Elem) : Crew := if n < lim then w.setVreg lane n e else w

/-- A uniform register (R122). -/
def Crew.sreg (w : Crew) (n : Nat) : Elem := Tab.get w.s {} n

/-- A write of a uniform register. -/
def Crew.setSreg (w : Crew) (n : Nat) (e : Elem) : Crew := { w with s := Tab.set w.s {} n e }

/-- Key of element position `q` of lane-matrix register `k` in a lane (R123). -/
def mkey (k lane q : Nat) : Nat := (32 * k + lane) * 36 + q

/-- The tag of a lane-matrix register in a lane. -/
def Crew.mtagOf (w : Crew) (k lane : Nat) : MTag := Tab.get w.mtag {} (32 * k + lane)

/-- An element of a lane-matrix register in a lane. -/
def Crew.mel (w : Crew) (k lane q : Nat) : Elem := Tab.get w.m {} (mkey k lane q)

/-- A write of a lane-matrix element. -/
def Crew.setMel (w : Crew) (k lane q : Nat) (e : Elem) : Crew := { w with m := Tab.set w.m {} (mkey k lane q) e }

/-- A write of a lane-matrix tag. -/
def Crew.setMtag (w : Crew) (k lane : Nat) (t : BitVec 8) : Crew :=
  { w with mtag := Tab.set w.mtag {} (32 * k + lane) { tag := t } }

/-- The lane number an instruction sees: visible lanes in tandem mode (R15, R47). -/
def Crew.visible (w : Crew) (lane : Nat) : Nat := if w.tandem then lane / 2 else lane

/-- Visible lanes of a crew: 16 in tandem mode (R47). -/
def Crew.nl (w : Crew) : Nat := if w.tandem then 16 else 32

/-- Primaries of a mask; every lane outside tandem mode (R47). -/
def Crew.primaries (w : Crew) (m : BitVec 32) : BitVec 32 := if w.tandem then m &&& 0x55555555#32 else m

/-- Visible lanes of a mask of physical lanes (R47). -/
def Crew.visMask (w : Crew) (m : BitVec 32) : BitVec 32 :=
  if w.tandem then maskOf ((lanesOf (m &&& 0x55555555#32)).map (· / 2)) else m

/-- Physical lanes of a mask of visible lanes: both lanes of each pair (R47). -/
def Crew.physMask (w : Crew) (m : BitVec 32) : BitVec 32 :=
  if w.tandem then maskOf ((lanesOf (m &&& 0xFFFF#32)).flatMap (fun v => [2 * v, 2 * v + 1])) else m

/-- Number of lanes of a mask. -/
def popMask (m : BitVec 32) : Nat := (lanesOf m).length

/-- Units of device time in one nanosecond: lcm of 1 to 36, so that a cycle at any clock is a whole number of units. -/
def tickUnit : Nat := 144403552893600

/-- Device time in ns (R404). -/
def State.timeNs (s : State) : Nat := s.ticks / tickUnit

/-- The device's clock after some cycles (R404, R435). -/
def State.advance (s : State) (n : Nat) : State :=
  { s with cycle := s.cycle + n, ticks := s.ticks + n * (10 * tickUnit / (if s.clock = 0 then 1 else s.clock)) }

/-- A fresh request identifier. -/
def State.newId (s : State) : Nat × State := (s.nextId, { s with nextId := s.nextId + 1 })

/-- A fresh number for a free value (Config). -/
def State.newFree (s : State) : Nat × State := (s.fresh, { s with fresh := s.fresh + 1 })

/-- The context of the crew's node. -/
def State.crewCtx (s : State) (c sl : Nat) : Nat := (s.node (s.group (s.crew c sl).group).node).ctx

/-- The staging tag of a crew (R266). -/
def State.crewTag (s : State) (c sl : Nat) : Nat := (s.node (s.group (s.crew c sl).group).node).stag

/-- The launch identifier of a crew's node (R323). -/
def State.crewLid (s : State) (c sl : Nat) : Nat := (s.group (s.crew c sl).group).node

/-- The slot number in which the copy engine acts for a copy's group: no crew ever stands there. -/
def engineSlot : Nat := 33

/-- The crew slots of a core that hold a crew. -/
def Core.busy (k : Core) : List Nat := k.slots.map Prod.fst

/-- The crews of a group: their slots on its core; a handler crew is not one of them. -/
def State.groupSlots (s : State) (g : Nat) : List Nat :=
  ((s.core (s.group g).core).slots.filter (fun e => e.2.group = g && e.1 < 32)).map Prod.fst

/-- The groups of a node. -/
def State.nodeGroups (s : State) (lid : Nat) : List Nat := (s.groups.filter (fun e => e.2.node = lid)).map Prod.fst

/-- The groups of a group's gang; a group of a node without gangs is alone (R34, R187). -/
def State.gangGroups (s : State) (g : Nat) : List Nat :=
  let r := s.group g
  (s.groups.filter (fun e => e.2.node = r.node && e.2.gang = r.gang)).map Prod.fst

/-- Vector storage in bytes of a crew (R120, R123). -/
def Crew.bytes (w : Crew) : Nat := w.vgran * 2048 + w.mregs * 9216

/-- VG of the partition word (R126). -/
def Group.vg (g : Group) : Nat := (g.partw.extractLsb' 0 7).toNat
/-- SG of the partition word (R126). -/
def Group.sg (g : Group) : Nat := (g.partw.extractLsb' 8 7).toNat
/-- AG of the partition word (R126). -/
def Group.ag (g : Group) : Nat := (g.partw.extractLsb' 16 7).toNat

/-- A convergence register of a group. -/
def Group.cv (g : Group) (n : Nat) : CvReg := Tab.get g.cvs {} n

/-- A group with one convergence register replaced. -/
def Group.setCv (g : Group) (n : Nat) (r : CvReg) : Group := { g with cvs := Tab.set g.cvs {} n r }

/-- Fold over a list with the state as the accumulator. -/
def State.each {α : Type} (s : State) (xs : List α) (f : State → α → State) : State := xs.foldl f s

/-- Replace the entries of a list that satisfy a predicate. -/
def mapIf {α : Type} (p : α → Bool) (f : α → α) (xs : List α) : List α := xs.map (fun x => if p x then f x else x)

/-- The entry of a list at an index and the list without it. -/
def takeAt {α : Type} : List α → Nat → Option (α × List α)
  | [], _ => none
  | x :: xs, 0 => some (x, xs)
  | x :: xs, n + 1 =>
    match takeAt xs n with
    | some (y, ys) => some (y, x :: ys)
    | none => none

/-- CREWINFO (R130). -/
def State.crewinfo (s : State) (c sl : Nat) : Word :=
  let w := s.crew c sl
  let g := s.group w.group
  let staged := if (s.node g.node).stag = 0 then 0 else 1
  let role := match w.role with
    | .copy => 0
    | .matrix => 1
    | .vector => 2
  BitVec.ofNat 64 (c + w.no * 2 ^ 11 + sl % 32 * 2 ^ 15 + role * 2 ^ 20 + (if w.tandem then 2 ^ 22 else 0) + staged * 2 ^ 23
    + (if w.sys then 2 ^ 24 else 0) + g.lseq % 2 ^ 32 * 2 ^ 25)

/-- VALLOC (R130); a handler crew has no tiles and no accumulators (R376). -/
def State.valloc (s : State) (c sl : Nat) : Word :=
  let w := s.crew c sl
  let g := s.group w.group
  BitVec.ofNat 64 (w.vgran + w.mregs * 2 ^ 4 + (if sl = 32 then 0 else g.accPlaces.length * 2 ^ 9 + g.tiles * 2 ^ 15))

/-- RSTACK (R130). -/
def Crew.rstackWord (w : Crew) : Word :=
  BitVec.ofNat 64 (w.rstack.length + (w.rstack.headD 0).toNat * 2 ^ 4 + ((w.rstack.drop 1).headD 0).toNat * 2 ^ 20)

end Sys2Proof.Machine
end

