-- ==== Sys2Proof/Machine/Log.lean ====
section
/-! DEFINITION. The log in HBM and the index: positions, sectors, compressed units, segments and blocks, index lookups,
folds and liveness (R249 to R259, R271, R283, R291, R349 to R351). -/

namespace Sys2Proof.Machine

/-- Sector number of a logical address: address ÷ 32. A grain holds 16 sectors, a page 2,048. -/
def lsecOf (laddr : Nat) : Nat := laddr / 32

/-- Physical address of a log position: segment, block and sector (R250). -/
def posAddr (p : Nat) : Nat := p / 65536 * 2097152 + p / 16 % 4096 * 512 + p % 16 * 32

/-- Segment of a log position. -/
def posSeg (p : Nat) : Nat := p / 65536

/-- The position code of a staged update whose sector becomes unwritten, as in a zero unit (R258, R335). -/
def zeroPos : Nat := 2 ^ 40

/-- The position code of a staged update whose sector is sector `i` of the compressed unit in block `b` (R258, R335). -/
def compPos (b i : Nat) : Nat := 2 ^ 41 + 32 * b + i

/-- The source that the position of a staged update names (R350). -/
def posSrc (p : Nat) : SecSrc :=
  if p < zeroPos then .log p else if p < 2 ^ 41 then .zero else .comp ((p - 2 ^ 41) / 32) (32 * ((p - 2 ^ 41) % 32))

/-- Whether the position of a staged update names a log position. -/
def posNames (q p : Nat) : Bool :=
  match posSrc q with
  | .log x => x = p
  | .comp b _ => b = p / 16
  | .zero => false
  | .host _ => false
  | .lost => false

/-- The bytes of a 32-byte sector. -/
def Sector.bytes (x : Sector) : List Byte := leBytes 32 x.data.toNat

/-- A sector with the poisoned words reading as all ones (R260). -/
def Sector.normal (x : Sector) : Sector :=
  let m (i : Nat) : BitVec 256 := if x.poison.getLsbD i then BitVec.ofNat 256 ((2 ^ 64 - 1) * 2 ^ (64 * i)) else 0
  { x with data := x.data ||| m 0 ||| m 1 ||| m 2 ||| m 3 }

/-- The sector at a physical address (R260). -/
def State.hbmSector (s : State) (pa : Nat) : Sector :=
  let bits := (List.range 4).map (fun i => if Tab.get s.hbmPoison false (pa / 8 + i) then 2 ^ i else 0)
  Sector.normal { data := BitVec.ofNat 256 (leNat (s.hbm.readBytes pa 32)), poison := BitVec.ofNat 4 bits.sum }

/-- A write of a sector at a physical address; no flipped bit of it remains (R132). -/
def State.setHbmSector (s : State) (pa : Nat) (x : Sector) : State :=
  { s with
    hbm := s.hbm.writeBytes pa x.bytes
    hbmPoison := (List.range 4).foldl (fun t i => Tab.set t false (pa / 8 + i) (x.poison.getLsbD i)) s.hbmPoison
    hbmFlips := s.hbmFlips.filter (fun f => f.word / 4 ≠ pa / 32) }

/-- Whether a read of host memory meets a word that PCI Express does not deliver (R421). -/
def State.hostBad (s : State) (a n : Nat) : Bool := n ≠ 0 && (List.range ((a % 8 + n + 7) / 8)).any (fun i => Tab.get s.hostErr false (a / 8 + i))

/-- The sector of host memory at an address as a read over PCI Express gets it (R257, R421). -/
def State.hostSector (s : State) (a : Nat) : Sector :=
  let bits := (List.range 4).map (fun i => if Tab.get s.hostErr false (a / 8 + i) then 2 ^ i else 0)
  Sector.normal { data := BitVec.ofNat 256 (leNat (s.host.readBytes a 32)), poison := BitVec.ofNat 4 bits.sum }

/-- Bytes of host memory as a read over PCI Express gets them: a word that fails reads as all ones (R260, R421). -/
def State.hostBytes (s : State) (a n : Nat) : List Byte :=
  (s.host.readBytes a n).zipIdx.map (fun e => if Tab.get s.hostErr false ((a + e.2) / 8) then 0xFF#8 else e.1)

/-- A sector every word of which is poisoned. -/
def Sector.allPoison : Sector := { data := BitVec.allOnes 256, poison := 0xF }

/-- Extra bytes of an LZ4 length: bytes of 255 go on, the first other byte ends it. -/
def lz4Len : List Byte → Nat → Option (Nat × List Byte)
  | [], _ => none
  | b :: bs, n => if b = 255#8 then lz4Len bs (n + 255) else some (n + b.toNat, bs)

/-- Copy `n` bytes from `off` back; `out` holds the bytes so far, the latest first. -/
def lz4Match (off : Nat) : Nat → List Byte → List Byte
  | 0, out => out
  | n + 1, out => lz4Match off n (out.getD (off - 1) 0 :: out)

/-- The LZ4 block format, with fuel: the bytes so far, the latest first; none for a malformed sequence (R258). -/
def lz4Go : Nat → List Byte → List Byte → Option (List Byte)
  | 0, _, _ => none
  | fuel + 1, inp, out =>
    match inp with
    | [] => none
    | t :: inp =>
      let hi := t.toNat / 16
      let lo := t.toNat % 16
      match (if hi = 15 then lz4Len inp 15 else some (hi, inp)) with
      | none => none
      | some (n, inp) =>
        if inp.length < n then none
        else
          let out := (inp.take n).reverse ++ out
          match inp.drop n with
          | [] => some out
          | [_] => none
          | o0 :: o1 :: inp =>
            let off := o0.toNat + 256 * o1.toNat
            if off = 0 || out.length < off then none
            else
              match (if lo = 15 then lz4Len inp 15 else some (lo, inp)) with
              | none => none
              | some (m, inp) => if 1024 < out.length + m + 4 then none else lz4Go fuel inp (lz4Match off (m + 4) out)

/-- The 1,024 bytes of a compressed unit; none when the block fails (R258). -/
def unitExpand (blk : List Byte) : Option (List Byte) :=
  let clen := (blk.getD 0 0).toNat + 256 * (blk.getD 1 0).toNat
  if clen = 0 || 510 < clen then none
  else match lz4Go 512 ((blk.drop 2).take clen) [] with
    | some out => if out.length = 1024 then some out.reverse else none
    | none => none

/-- The sources of the 16 sectors of a grain (R350). -/
def Grain.src (pg : PageRec) (g : Grain) (lg i : Nat) : SecSrc :=
  if g.lost.getLsbD i then .lost
  else
    let at' (b : Option Nat) : SecSrc := match b with
      | some p => .log (16 * p + i)
      | none => .zero
    match g.smap.getD i (if pg.host then 5 else 0) with
    | 0 => .zero
    | 1 => at' g.b0
    | 2 => at' g.b1
    | 3 => at' g.b2
    | 4 => at' g.b3
    | 5 => .host (pg.hbase * 65536 + 512 * (lg % 128) + 32 * i)
    | 6 => match g.b0 with
      | some p => .comp p (512 * (lg % 2) + 32 * i)
      | none => .zero
    | _ => .zero

/-- The grain entry of a logical grain; an unlisted one is as its page's allocation wrote it (R349). -/
def State.grain (s : State) (lg : Nat) : Grain := Tab.get s.grains {} lg

/-- The committed source of a sector. -/
def State.committedSrc (s : State) (lsec : Nat) : SecSrc :=
  (s.grain (lsec / 16)).src (s.page (lsec / 2048)) (lsec / 16) (lsec % 16)

/-- Sequence number `a` is at or above `b` (R355). -/
def atOrAbove (a b : Nat) : Bool := decide ((a + 2 ^ 32 - b % 2 ^ 32) % 2 ^ 32 < 2 ^ 31)

/-- Whether an update is covered by its cluster's node commit word for its tag (R271). -/
def State.nodeCovered (s : State) (u : Update) : Bool :=
  (s.cluster u.cluster).ncw.any (fun w => w.tag = u.tag && atOrAbove w.rseq.toNat u.seq)

/-- The staging-table entry of a tag (R355). -/
def State.staging (s : State) (t : Nat) : Staging := Tab.get s.stagingT .free t

/-- Whether an update is committed for every reader: of tag 0 by the copy of its cluster's commit register that its home's tile holds, or
else by the register itself, which the home then asks (R271). -/
def State.committedAll (s : State) (u : Update) : Bool :=
  if u.tag = 0 then
    let copy := Tab.get s.commitCopies 0 (256 * (s.page (u.lsec / 2048)).home + u.cluster)
    atOrAbove copy.toNat u.seq || atOrAbove (s.cluster u.cluster).rseq.toNat u.seq
  else match s.staging u.tag with
    | .committed _ => true
    | _ => false

/-- Whether an update is discarded (R291). -/
def State.discarded (s : State) (u : Update) : Bool :=
  if u.tag = 0 then false
  else match s.staging u.tag with
    | .discarded _ => true
    | .free => true
    | _ => false

/-- Whether an update counts as committed for a reader with a tag (R271). -/
def State.committedFor (s : State) (tag : Nat) (u : Update) : Bool :=
  !s.discarded u && (s.committedAll u || (u.tag ≠ 0 && u.tag = tag && s.nodeCovered u))

/-- The home's answer to a lookup: the newest version committed for the reader (R271). -/
def State.lookup (s : State) (tag lsec : Nat) : SecSrc :=
  (s.hpend.filter (fun u => u.lsec = lsec && s.committedFor tag u)).foldl (fun _ u => posSrc u.pos) (s.committedSrc lsec)

/-- The bytes of a 512-byte block. -/
def State.blockBytes (s : State) (b : Nat) : List Byte := (List.range 16).flatMap (fun i => (s.hbmSector (posAddr (16 * b + i))).bytes)

/-- Whether a compressed unit's CLEN or a byte of its LZ4 block lies in a poisoned word, so that nothing of the unit can be told
(R258, R260). -/
def State.unitPoisoned (s : State) (b : Nat) : Bool :=
  let a := posAddr (16 * b)
  let len := leNat (s.hbm.readBytes a 2)
  (List.range ((2 + min len 510 + 7) / 8)).any (fun i => Tab.get s.hbmPoison false (a / 8 + i))

/-- The 1,024 bytes of the compressed unit in a block; none when it is lost or fails (R258). -/
def State.unitBytes (s : State) (b : Nat) : Option (List Byte) :=
  if s.unitPoisoned b then none else unitExpand (s.blockBytes b)

/-- The sector at an offset of an expanded unit. -/
def unitSector (u : Option (List Byte)) (off : Nat) : Sector :=
  match u with
  | some bs => { data := BitVec.ofNat 256 (leNat ((bs.drop off).take 32)) }
  | none => Sector.allPoison

/-- The content that a source names (R257, R258, R260, R350, R353). -/
def State.readSrc (s : State) (x : SecSrc) : Sector :=
  match x with
  | .zero => {}
  | .lost => Sector.allPoison
  | .host a => s.hostSector a
  | .log p => s.hbmSector (posAddr p)
  | .comp b off => unitSector (s.unitBytes b) off

/-- A segment-table entry (R252). -/
def State.seg (s : State) (g : Nat) : Seg := Tab.get s.segs {} g

/-- The state with one segment-table entry changed. -/
def State.modSeg (s : State) (g : Nat) (f : Seg → Seg) : State := { s with segs := Tab.set s.segs {} g (f (s.seg g)) }

/-- Log segments of a stack: those above the table region (R249). -/
def State.logSegs (s : State) : Nat := 32768 - s.tableSegs

/-- Segments of a stack listed in a state other than free; every other log segment is free. -/
def State.usedSegs (s : State) (stack : Nat) : Nat :=
  (s.segs.filter (fun e => e.1 / 32768 = stack && s.tableSegs ≤ e.1 % 32768 && e.2.st != .free)).length

/-- Free segments of a stack (R256). -/
def State.freeSegs (s : State) (stack : Nat) : Nat := s.logSegs - s.usedSegs stack

/-- The free segment of a stack with the least USES, lowest number first (R254): the lowest unlisted one, else the best
listed one. `k` counts the candidates looked at. -/
def State.pickSeg (s : State) (stack : Nat) : Option Nat :=
  let base := 32768 * stack + s.tableSegs
  let listed := s.segs.filter (fun e => e.1 / 32768 = stack && s.tableSegs ≤ e.1 % 32768)
  let fresh := (List.range (listed.length + 1)).map (· + base) |>.find? (fun g => (Tab.find s.segs g).isNone && decide (g / 32768 = stack))
  let best := (listed.filter (fun e => e.2.st == .free)).foldl
    (fun a e => match a with
      | none => some e
      | some b => if e.2.uses < b.2.uses then some e else some b) (none : Option (Nat × Seg))
  match fresh, best with
  | some g, some e => if e.2.uses = 0 && e.1 < g then some e.1 else some g
  | some g, none => some g
  | none, some e => some e.1
  | none, none => none

/-- Open a segment for an owner (R251, R254). The flips that an injection left in it end (R132, R252). -/
def State.openSeg (s : State) (g owner : Nat) : State :=
  let s := s.modSeg g (fun x => { x with st := .open_, owner := owner, uses := x.uses + 1, next := 1, live := 0 })
  let s := { s with hbmFlips := s.hbmFlips.filter (fun f => f.word / 262144 ≠ g) }
  let hdr := leBytes 8 (1 + owner * 65536) ++ leBytes 8 ((s.seg g).uses % 2 ^ 32) ++ List.replicate 16 0
  s.setHbmSector (g * 2097152) { data := BitVec.ofNat 256 (leNat hdr) }

/-- Whether a stack may have a segment opened for appending (R256). -/
def State.stackOpenable (s : State) (stack : Nat) : Bool :=
  decide (s.logSegs ≤ 64 * s.freeSegs stack) && (s.pickSeg stack).isSome

/-- The stack on which an appender opens its next segment: the one in turn, else of the others the one with most free segments
(R253, R256); none of `avoid`. -/
def State.stackFor (s : State) (turn : Nat) (avoid : List Nat) : Option Nat :=
  let ok (k : Nat) : Bool := s.stackOpenable k && !avoid.contains k
  if ok (turn % 12) then some (turn % 12)
  else ((List.range 12).filter ok).foldl (fun (b : Option Nat) k => match b with
    | none => some k
    | some j => if s.freeSegs j < s.freeSegs k then some k else some j) none

/-- Take the next data block of a segment; a segment whose last data block is taken is sealed (R253). -/
def State.takeBlock (s : State) (g : Nat) : Nat × State :=
  let b := (s.seg g).next
  let s := s.modSeg g (fun x => { x with next := b + 1 })
  if b + 1 > 4032 then
    (b, { (s.modSeg g (fun x => { x with st := .sealed_, sealseq := (s.seals + 1) % 2 ^ 32 })) with seals := s.seals + 1 })
  else (b, s)

/-- A data block for a cluster's appender: up to three open segments on different stacks, taken in turn (R253). None when
the append is held (R256). -/
def State.appendBlock (s : State) (k : Nat) : Option (Nat × State) :=
  let cl := s.cluster k
  let opens := cl.openSegs.filter (fun e => (s.seg e.2).st == .open_)
  let fresh : Option (List (Nat × Nat) × State) :=
    if opens.length < 3 then
      match s.stackFor (cl.turn + k) (opens.map Prod.fst) with
      | none => none
      | some st =>
        match s.pickSeg st with
        | none => none
        | some g => some (opens ++ [(st, g)], s.openSeg g k)
    else none
  let r : List (Nat × Nat) × State := fresh.getD (opens, s)
  match r.1 with
  | [] => none
  | _ =>
    let e := r.1.getD (cl.turn % r.1.length) (0, 0)
    let t := r.2.takeBlock e.2
    some (4096 * e.2 + t.1, t.2.modCluster k (fun c => { c with openSegs := r.1, turn := c.turn + 1 }))

/-- A data block for the record writer, owner 268 (R456). -/
def State.recordBlock (s : State) : Option (Nat × State) :=
  let cur := match s.recSeg with
    | some (_, g) => if (s.seg g).st == .open_ then some g else none
    | none => none
  match cur with
  | some g => let t := s.takeBlock g; some (4096 * g + t.1, t.2)
  | none =>
    match s.stackFor 0 [] with
    | none => none
    | some st => match s.pickSeg st with
      | none => none
      | some g =>
        let s := { (s.openSeg g 268) with recSeg := some (st, g) }
        let t := s.takeBlock g
        some (4096 * g + t.1, t.2)

/-- A data block of a stack for the dredge engine or the atomic unit of the stack, owner 256 + stack. -/
def State.stackBlock (s : State) (stack : Nat) : Option (Nat × State) :=
  match (s.segs.find? (fun e => e.2.st == .open_ && e.2.owner = 256 + stack)) with
  | some e => let t := s.takeBlock e.1; some (4096 * e.1 + t.1, t.2)
  | none => match s.pickSeg stack with
    | none => none
    | some g =>
      let t := (s.openSeg g (256 + stack)).takeBlock g
      some (4096 * g + t.1, t.2)

/-- Physical address of the summary entry of a data block (R250). -/
def summaryAddr (b : Nat) : Nat := b / 4096 * 2097152 + 4033 * 512 + 8 * (b % 4096 - 1)

/-- The summary entry of a data block (R250, R251). -/
def State.summary (s : State) (b : Nat) : Nat := leNat (s.hbm.readBytes (summaryAddr b) 8)

/-- Whether a data block has been written since its segment was opened (R250, R253). -/
def State.written (s : State) (b : Nat) : Bool := decide (1 ≤ b % 4096) && decide (b % 4096 < (s.seg (b / 4096)).next) && decide (b % 4096 ≤ 4032)

/-- Write the summary entry of a data block (R251). -/
def State.setSummary (s : State) (b sum : Nat) : State :=
  let w := summaryAddr b / 8
  { s with
    hbm := s.hbm.writeBytes (summaryAddr b) (leBytes 8 sum)
    hbmPoison := Tab.set s.hbmPoison false w false
    hbmFlips := s.hbmFlips.filter (fun f => f.word ≠ w) }

/-- What is to be shipped to the replica peer, where one is named (R365). -/
def State.shipLater (s : State) (xs : List OutItem) : State :=
  if s.replica.isSome then { s with outflow := s.outflow ++ xs } else s

/-- Write one data block: its sectors, its summary entry and its live mask (R250 to R253); it is then to be shipped (R365). -/
def State.writeBlock (s : State) (b lg : Nat) (xs : Tab Sector) (atomic dredged : Bool) (staged : Nat) : State :=
  let s := s.each xs (fun s e => s.setHbmSector (posAddr (16 * b + e.1)) e.2)
  let mask := xs.foldl (fun m e => m ||| BitVec.ofNat 16 (2 ^ e.1)) (0 : BitVec 16)
  let sum := lg + mask.toNat * 2 ^ 31 + (if atomic then 2 ^ 47 else 0) + (if dredged then 2 ^ 48 else 0)
  let s := { (s.setSummary b sum) with masks := Tab.set s.masks 0 b mask }
  (s.modSeg (b / 4096) (fun x => { x with live := x.live + 1, staged := x.staged + staged })).shipLater [.block b]

/-- Whether anything names a log position: the index, a staged update, or a retained snapshot (R252). -/
def State.named (s : State) (p : Nat) : Bool :=
  let inGrain (e : Nat × Grain) : Bool :=
    (List.range 16).any (fun i => match e.2.src {} e.1 i with
      | .log q => q = p
      | .comp b _ => b = p / 16
      | _ => false)
  s.grains.any inGrain || s.hpend.any (fun u => posNames u.pos p) || s.hwait.any (fun u => posNames u.pos p)
    || s.clusters.any (fun c => c.2.pend.any (fun u => posNames u.pos p))
    || s.snaps.any (fun n => n.2.valid && n.2.grains.any inGrain)

/-- A position that may have lost its last name leaves its block's live mask (R252, R253). -/
def State.unref (s : State) (p : Nat) : State :=
  let b := p / 16
  let m := Tab.get s.masks 0 b
  if s.named p || !m.getLsbD (p % 16) then s
  else
    let m' := m &&& ~~~(BitVec.ofNat 16 (2 ^ (p % 16)))
    let s := { s with masks := Tab.set s.masks 0 b m' }
    if m' = 0 then s.modSeg (b / 4096) (fun x => { x with live := x.live - 1 }) else s

/-- Unref the position of a source. -/
def State.unrefSrc (s : State) (x : SecSrc) : State :=
  match x with
  | .log p => s.unref p
  | .comp b _ => (List.range 16).foldl (fun s i => s.unref (16 * b + i)) s
  | _ => s

/-- First byte of the table region of stack 0 from which the device takes tables of its own (log 9). -/
def ownTables : Nat := 2 ^ 31

/-- A place of the table region for a table of a size: one that a freed table of that size had (R362), else the next free one, on a
boundary of its size or of 16 KiB (R347, R349). -/
def State.allocTable (s : State) (size : Nat) : Nat × State :=
  match s.tabPool.find? (fun t => t.2 = size) with
  | some t => (t.1, { s with tabPool := s.tabPool.erase t })
  | none =>
    let al := if size < 16384 then size else 16384
    let a := ((if s.nextTable < ownTables then ownTables else s.nextTable) + al - 1) / al * al
    (a, { s with nextTable := a + size })

/-- Sizes of the tables of the index: a root table, a page block, a grain table (R349). -/
def rootBytes : Nat := 163840
/-- A page block. -/
def pblockBytes : Nat := 32768
/-- A grain table. -/
def gtabBytes : Nat := 4096

/-- Copy-on-write of the live root table (R362): one of an older generation gives way to a copy. -/
def State.cowRoot (s : State) : State :=
  if s.root.gen = s.gen then s
  else
    let r := s.allocTable rootBytes
    { r.2 with root := { s.root with addr := r.1, gen := s.gen }, freeTabs := (s.root.addr, rootBytes) :: s.freeTabs }

/-- Copy-on-write of the page block that holds a page's record, and of the root table above it (R362). A page's first block is new. -/
def State.cowBlock (s : State) (lpn : Nat) : State :=
  let i := lpn / 1024
  let old := Tab.find s.root.blocks i
  if old.any (fun b => b.gen = s.gen) then s
  else
    let s := s.cowRoot
    let r := s.allocTable pblockBytes
    { r.2 with
      root := { s.root with blocks := Tab.put s.root.blocks i { addr := r.1, gen := s.gen } }
      freeTabs := old.toList.map (fun b => (b.addr, pblockBytes)) ++ s.freeTabs }

/-- A page record changed, in a page block of the present generation (R349, R362). -/
def State.modPage (s : State) (lpn : Nat) (f : PageRec → PageRec) : State :=
  let s := s.cowBlock lpn
  { s with pages := Tab.set s.pages {} lpn (f (s.page lpn)) }

/-- Copy-on-write of a page's grain table and of the tables above it: a table of an older generation is replaced (R362). -/
def State.cowPage (s : State) (lpn : Nat) : State :=
  let pg := s.page lpn
  if pg.gen = s.gen || !pg.valid then s
  else
    let r := s.allocTable gtabBytes
    { (r.2.modPage lpn (fun p => { p with gen := s.gen, gtab := r.1 / 4096 })) with
      freeTabs := (4096 * pg.gtab, gtabBytes) :: (r.2.modPage lpn id).freeTabs }

/-- The block fields of a grain that some sector names stay valid (R350). -/
def Grain.prune (g : Grain) : Grain :=
  let used (k : Nat) : Bool := g.smap.contains k || (k = 1 && g.smap.contains 6)
  { g with
    b0 := if used 1 then g.b0 else none
    b1 := if used 2 then g.b1 else none
    b2 := if used 3 then g.b2 else none
    b3 := if used 4 then g.b3 else none }

/-- The SMAP codes of a grain, written out: 16 entries. -/
def Grain.codes (pg : PageRec) (g : Grain) : List Nat := (List.range 16).map (fun i => g.smap.getD i (if pg.host then 5 else 0))

/-- Point sector `i` of a grain at a block position; none when it needs a fifth position (R351). -/
def Grain.point (pg : PageRec) (g : Grain) (i b : Nat) : Option Grain :=
  let g := { g with smap := (g.codes pg).set i 0 }.prune
  let hit := if g.b0 = some b then some 1 else if g.b1 = some b then some 2 else if g.b2 = some b then some 3
    else if g.b3 = some b then some 4 else none
  let free := if g.b0.isNone then some 1 else if g.b1.isNone then some 2 else if g.b2.isNone then some 3
    else if g.b3.isNone then some 4 else none
  match (match hit with | some k => some k | none => free) with
  | none => none
  | some k =>
    let g := { g with smap := g.smap.set i k, lost := g.lost &&& ~~~(BitVec.ofNat 16 (2 ^ i)), written := false }
    some (match k with
      | 1 => { g with b0 := some b }
      | 2 => { g with b1 := some b }
      | 3 => { g with b2 := some b }
      | _ => { g with b3 := some b })

/-- ARM, KIND, BIT and LEVEL of ERRINJ_CTL (R132). -/
def Core.armed (k : Core) : Bool := k.injCtl.getLsbD 0
/-- KIND. -/
def Core.injKind (k : Core) : Nat := k.injCtl.toNat / 2 % 4
/-- BIT. -/
def Core.injBit (k : Core) : Nat := k.injCtl.toNat / 8 % 64
/-- LEVEL. -/
def Core.injLevel (k : Core) : Nat := k.injCtl.toNat / 512 % 16

/-- The injection has fired: ARM ← 0, FIRED ← 1 (R132). -/
def Core.fired (k : Core) : Core := { k with injCtl := (k.injCtl &&& ~~~1) ||| 0x2000 }

/-- One bit of a byte memory flipped: bit `b` of the word `w`. -/
def flipBit (m : Memory) (w b : Nat) : Memory :=
  let a := 8 * w + b / 8
  m.write a (m.read a ^^^ BitVec.ofNat 8 (2 ^ (b % 8)))

/-- The cores whose armed injection is at a level and satisfies a predicate. -/
def State.armedAt (s : State) (level : Nat) (p : Nat → Core → Bool) : List Nat :=
  (s.cores.filter (fun e => e.2.armed && e.2.injLevel = level && p e.1 e.2)).map Prod.fst

/-- The record of a fired injection. -/
def injRec (level kind core addr : Nat) : ErrRec := { level := level, kind := kind, inj := true, unit := core, paddr := addr }

/-- HBM unit of a physical address: stack × 16 + channel (R249, R263). -/
def hbmUnit (pa : Nat) : Nat := pa / 2 ^ 36 * 16 + (pa / 2097152 + pa / 512 % 4096) % 16

/-- The words of the sector at a physical address become poisoned, its code having failed; the data block it lies in counts as failed
once (R254, R259). -/
def State.failSector (s : State) (pa : Nat) : State :=
  let b := pa / 512 % 4096
  let s := { s with
    hbmPoison := (List.range 4).foldl (fun t i => Tab.set t false (pa / 32 * 4 + i) true) s.hbmPoison
    hbmFlips := s.hbmFlips.filter (fun f => f.word / 4 ≠ pa / 32) }
  s.modSeg (pa / 2097152) (fun x => { x with
    badBlocks := if 1 ≤ b && b ≤ 4032 && !x.badBlocks.contains b then b :: x.badBlocks else x.badBlocks })

/-- A bit of an HBM word turned in its cells: a second turn restores it. -/
def State.flipHbm (s : State) (w b : Nat) : State :=
  let f : HbmFlip := { word := w, bit := b }
  { s with hbmFlips := if s.hbmFlips.contains f then s.hbmFlips.erase f else f :: s.hbmFlips }

/-- What a read of a sector from its HBM cells does to it, and the records of it. An armed injection at level 0 fires; the on-die code
corrects one flipped bit in line with the read, which stays in the cells, and an error that it detects poisons the words (R132, R259). -/
def State.fireHbm (s : State) (p : Nat) : State × List ErrRec :=
  let a := posAddr p
  let r := (s.armedAt 0 (fun _ k => k.injAddr.toNat / 32 = a / 32)).foldl (fun (r : State × List ErrRec) c =>
    let k := r.1.core c
    let w := k.injAddr.toNat / 8
    let s := r.1.setCore c k.fired
    match k.injKind with
    | 0 => (s.flipHbm w k.injBit, r.2)
    | 1 => (s.failSector a, r.2 ++ [{ injRec 0 2 c (8 * w) with unit := hbmUnit a }])
    | _ => ({ s with hbm := flipBit s.hbm w k.injBit }, r.2)) (s, [])
  let rec_ (kind w : Nat) : ErrRec := { level := 0, kind := kind, inj := true, unit := hbmUnit a, paddr := 8 * w }
  match r.1.hbmFlips.filter (fun f => f.word / 4 = a / 32) with
  | [] => r
  | [f] => (r.1, r.2 ++ [rec_ 0 f.word])
  | f :: _ => (r.1.failSector a, r.2 ++ [rec_ 2 f.word])

/-- Copy every committed sector of a grain into one block of its stack's dredge engine (R351); none when no block is free. The grain's
stack is that of B0, or stack 0 while B0 is not valid: DESIGN CHOICE, log 33, for its blocks may lie on several. -/
def State.consolidate (s : State) (lg : Nat) : Option State :=
  let g := s.grain lg
  let pg := s.page (lg / 128)
  let stack := match g.b0 with
    | some b => b / 4096 / 32768
    | none => 0
  let mine := (List.range 16).filterMap (fun i => match g.src pg lg i with
    | .log p => some (i, p)
    | _ => none)
  let s := s.each mine (fun s e =>
    let r := s.fireHbm e.2
    { r.1 with errDue := r.1.errDue ++ r.2 })
  let secs : Tab Sector := mine.map (fun e => (e.1, s.readSrc (.log e.2)))
  match s.stackBlock stack with
  | none => none
  | some (b, s) =>
    let olds := (List.range 16).map (fun i => g.src pg lg i)
    let s := s.writeBlock b lg secs false true 0
    let codes := (g.codes pg).mapIdx (fun i c => if (secs.any (fun e => e.1 = i)) then 1 else c)
    let s := { s with grains := Tab.set s.grains {} lg { g with smap := codes, b0 := some b, b1 := none, b2 := none, b3 := none, written := false } }
    some (olds.foldl (fun s x => s.unrefSrc x) s)

/-- Point a sector's committed position at a log position, consolidating where a fifth block would be needed (R350, R351); none when
the consolidation finds no block. -/
def State.setCommitted (s : State) (lsec p : Nat) : Option State :=
  let lg := lsec / 16
  let s := s.cowPage (lsec / 2048)
  let old := s.committedSrc lsec
  let pg := s.page (lsec / 2048)
  let put (s : State) (g : Grain) : State := ({ s with grains := Tab.set s.grains {} lg g }).unrefSrc old
  match (s.grain lg).point pg (lsec % 16) (p / 16) with
  | some g => some (put s g)
  | none =>
    match s.consolidate lg with
    | none => none
    | some s' => match (s'.grain lg).point pg (lsec % 16) (p / 16) with
      | some g => some (put s' g)
      | none => none

/-- One staged update fewer in the segment its position lies in (R252). -/
def State.unstage (s : State) (u : Update) : State :=
  let down (g : Nat) : State := s.modSeg g (fun x => { x with staged := x.staged - 1 })
  match posSrc u.pos with
  | .log p => down (posSeg p)
  | .comp b _ => down (b / 4096)
  | .zero => s
  | .host _ => s
  | .lost => s

/-- Remove an update from the home. -/
def State.dropUpdate (s : State) (u : Update) : State :=
  (({ s with hpend := s.hpend.filter (fun x => x ≠ u) }).unstage u).unrefSrc (posSrc u.pos)

/-- A grain all of whose sectors one block holds: `code` is 6 for a compressed unit and 1 for sectors of its own (R350). -/
def Grain.whole (b code : Nat) : Grain := { b0 := some b, smap := List.replicate 16 code, written := false }

/-- A grain's entry replaced by the updates `mine`, which give every sector: they fold together, and the committed updates that stand
before one of them are superseded with the old sources (R351). -/
def State.foldGrain (s : State) (lg : Nat) (mine : List Update) (g : Grain) : State :=
  let s := s.cowPage (lg / 128)
  let olds := (List.range 16).map (fun j => (s.grain lg).src (s.page (lg / 128)) lg j)
  let before := s.hpend.filter (fun x => x.lsec / 16 = lg && !mine.contains x && s.committedAll x
    && ((s.hpend.dropWhile (fun y => y ≠ x)).drop 1).any (fun y => y.lsec = x.lsec && mine.contains y))
  let s := s.each before (fun s x => s.dropUpdate x)
  let s := { s with grains := Tab.set s.grains {} lg g, hpend := s.hpend.filter (fun x => !mine.contains x) }
  let s := s.each mine (fun s x => s.unstage x)
  s.each olds (fun s x => s.unrefSrc x)

/-- Fold one committed update of a sector into the committed position (R351); none while its consolidation finds no block. The
updates of a compressed unit's grain fold together, for its sectors all name one block; and so do 16 that one block holds, as the grain
of a raw unit is (R258, R350). -/
def State.foldOne (s : State) (u : Update) : Option State :=
  let lg := u.lsec / 16
  let i := u.lsec % 16
  match posSrc u.pos with
  | .comp b _ =>
    some (s.foldGrain lg (s.hpend.filter (fun x => x.lsec / 16 = lg && (match posSrc x.pos with
      | .comp k _ => k = b
      | _ => false))) (Grain.whole b 6))
  | .zero =>
    let s := s.cowPage (u.lsec / 2048)
    let old := s.committedSrc u.lsec
    let g := s.grain lg
    let g' := { g with smap := (g.codes (s.page (u.lsec / 2048))).set i 0, lost := g.lost &&& ~~~(BitVec.ofNat 16 (2 ^ i)), written := false }.prune
    some (({ s with grains := Tab.set s.grains {} lg g', hpend := s.hpend.filter (fun x => x ≠ u) }).unrefSrc old)
  | _ =>
    let b := u.pos / 16
    let mine := s.hpend.filter (fun x => x.lsec / 16 = lg && x.pos / 16 = b && s.committedAll x)
    if mine.length = 16 then some (s.foldGrain lg mine (Grain.whole b 1))
    else (s.setCommitted u.lsec u.pos).map (fun s => ({ s with hpend := s.hpend.filter (fun x => x ≠ u) }).unstage u)

/-- The updates of a sector at its home, oldest first. -/
def State.updatesOf (s : State) (lsec : Nat) : List Update := s.hpend.filter (fun u => u.lsec = lsec)

/-- Whether a later covered update of the same tag supersedes this one (R283). -/
def State.superseded (s : State) (u : Update) : Bool :=
  u.tag ≠ 0 && (((s.updatesOf u.lsec).dropWhile (fun x => x ≠ u)).drop 1).any (fun v => v.tag = u.tag && s.nodeCovered v)

/-- Drop what is discarded or superseded and fold every update that is committed for all readers, oldest first (R351); a fold that must
wait for a block stops the folds after it. -/
def State.settleSector (s : State) (lsec : Nat) : State :=
  ((s.updatesOf lsec).foldl (fun (a : State × Bool) u =>
    if !a.1.hpend.contains u then a
    else if a.1.discarded u || a.1.superseded u then (a.1.dropUpdate u, a.2)
    else if a.2 && a.1.committedAll u then (match a.1.foldOne u with
      | some t => (t, true)
      | none => (a.1, false))
    else a) (s, true)).1

/-- An update arrives at its home: it joins the pending updates when fewer than two remain, else it waits, and so it does behind any
that waits already (R351). -/
def State.arrive (s : State) (u : Update) : State :=
  let s := s.settleSector u.lsec
  if (s.updatesOf u.lsec).length < 2 && !s.hwait.any (fun w => w.lsec = u.lsec) then { s with hpend := s.hpend ++ [u] }
  else { s with hwait := s.hwait ++ [u] }

/-- Whether the home of a sector's page has stopped serving it for a move (R352). -/
def State.moving (s : State) (lsec : Nat) : Bool := (s.page (lsec / 2048)).moving

/-- Let updates that wait at the homes in, the oldest of each sector first (R351); a home that moves serves none (R352). -/
def State.admitWaiting (s : State) : State :=
  let ws := s.hwait
  s.each ws (fun s u =>
    if s.moving u.lsec || (s.hwait.find? (fun w => w.lsec = u.lsec)) ≠ some u then s
    else
      let t := s.settleSector u.lsec
      if (t.updatesOf u.lsec).length < 2 then { t with hpend := t.hpend ++ [u], hwait := t.hwait.filter (fun x => x ≠ u) } else t)

/-- The bits of the bytes that a mask selects. -/
def byteBits (mask : BitVec 32) : BitVec 256 :=
  (List.range 32).foldl (fun a i => if mask.getLsbD i then a ||| BitVec.ofNat 256 (255 * 2 ^ (8 * i)) else a) (0 : BitVec 256)

/-- Change bytes of a sector in a 256-bit value: `mask` selects the bytes of `new`. -/
def mergeBytes (old new : BitVec 256) (mask : BitVec 32) : BitVec 256 := (old &&& ~~~(byteBits mask)) ||| (new &&& byteBits mask)

/-- Merge bytes into a sector: a word all of whose bytes are written loses its poison, another keeps it; `wp` are the
words the writer carries poisoned (R260). -/
def Sector.merge (x : Sector) (new : BitVec 256) (mask : BitVec 32) (wp : BitVec 4) : Sector :=
  let word (i : Nat) : BitVec 8 := mask.extractLsb' (8 * i) 8
  let p (i : Nat) : Bool := if word i = 0xFF#8 then wp.getLsbD i else x.poison.getLsbD i || (word i ≠ 0 && wp.getLsbD i)
  Sector.normal { data := mergeBytes x.data new mask
                  poison := BitVec.ofNat 4 (((List.range 4).map (fun i => if p i then 2 ^ i else 0)).sum) }

/-- Change the bits of a sector that a mask selects: a word written whole loses its poison (R260, R456). -/
def Sector.setBits (x : Sector) (new bits : BitVec 256) : Sector :=
  let p (i : Nat) : Bool := x.poison.getLsbD i && bits.extractLsb' (64 * i) 64 ≠ BitVec.allOnes 64
  Sector.normal { data := (x.data &&& ~~~bits) ||| (new &&& bits)
                  poison := BitVec.ofNat 4 (((List.range 4).map (fun i => if p i then 2 ^ i else 0)).sum) }

/-- An update put in the place of another, wherever that stands. -/
def State.moveUpdate (s : State) (u v : Update) : State :=
  let f (x : Update) : Update := if x = u then v else x
  { (s.modCluster u.cluster (fun c => { c with
      pend := c.pend.map f
      rels := c.rels.map (fun r => { r with left := r.left.map f }) })) with
    hpend := s.hpend.map f
    hwait := s.hwait.map f }

/-- A device write's bits in a sector: what it writes, and the words that it stores poisoned (R260, R456). -/
def HeldWrite.onto (h : HeldWrite) (x : Sector) : Sector :=
  let y := x.setBits h.data h.mask
  Sector.normal { y with poison := y.poison ||| h.poison }

/-- One staged update with bits of its sector changed: a block never changes (R252), so the record writer writes a further one, which
the update then names (R378, R456). None when no block can be had. -/
def State.rewriteUpdate (s : State) (u : Update) (h : HeldWrite) : Option State :=
  if zeroPos ≤ u.pos then some s
  else match s.recordBlock with
    | none => none
    | some (b, s) =>
      let i := u.lsec % 16
      let s := s.writeBlock b (u.lsec / 16) [(i, h.onto (s.hbmSector (posAddr u.pos)))] false false 1
      some (((s.moveUpdate u { u with pos := 16 * b + i }).unstage u).unref u.pos)

/-- Fold with a function that may fail. -/
def optEach {α : Type} (s : State) (xs : List α) (f : State → α → Option State) : Option State :=
  xs.foldl (fun a x => a.bind (fun s => f s x)) (some s)

/-- A device write of bits of one grain's sectors (R456): one block of the record writer, committed at the home at once, and the same
bits in every pending update that the home holds, and in those of `more`. None when no block can be had. -/
def State.devGrain (s : State) (lg : Nat) (ps : List HeldWrite) (more : List Update) : Option State :=
  match s.recordBlock with
  | none => none
  | some (b, s) =>
    let s := s.writeBlock b lg (ps.map (fun p => (p.lsec % 16, p.onto (s.readSrc (s.committedSrc p.lsec))))) false false 0
    (optEach s ps (fun s p => s.setCommitted p.lsec (16 * b + p.lsec % 16))).bind (fun s =>
      optEach s ps (fun s p =>
        optEach s ((s.hpend ++ s.hwait ++ more).filter (fun u => u.lsec = p.lsec)).eraseDups (fun s u => s.rewriteUpdate u p)))

/-- The grains of some device writes. -/
def heldGrains (ps : List HeldWrite) : List Nat := (ps.map (fun p => p.lsec / 16)).eraseDups

/-- Device writes of some sectors made together, one block for each grain (R386, R456); none when one of the blocks cannot be had, or while
the home of one of the pages moves (R352). -/
def State.devTogether (s : State) (ps : List HeldWrite) (more : List Update) : Option State :=
  if ps.any (fun p => s.moving p.lsec) then none
  else optEach s (heldGrains ps) (fun s lg => s.devGrain lg (ps.filter (fun p => p.lsec / 16 = lg)) more)

/-- Device writes that are made together; they wait while a block cannot be had, and behind older ones of a grain that wait (R256,
R456). -/
def State.devPieces (s : State) (ps : List HeldWrite) (more : List Update) : State :=
  let i := s.newId
  let wait : State := { i.2 with heldWrites := i.2.heldWrites ++ ps.map (fun p => { p with since := s.timeNs, unit := i.1 }) }
  if s.heldWrites.any (fun h => (heldGrains ps).contains (h.lsec / 16)) then wait
  else (s.devTogether ps more).getD wait

/-- The device writes that wait are made, the oldest first, while blocks can be had (R256, R456). Fuel: their number. -/
def State.flushHeld (s : State) : Nat → State
  | 0 => s
  | n + 1 => match s.heldWrites with
    | [] => s
    | h :: _ => match s.devTogether (s.heldWrites.filter (fun x => x.unit = h.unit)) [] with
      | none => s
      | some t => State.flushHeld { t with heldWrites := t.heldWrites.filter (fun x => x.unit ≠ h.unit) } n

/-- Bytes at a logical address as changes of sectors. -/
def sectorPieces (laddr : Nat) (bs : List Byte) : List (Nat × BitVec 256 × BitVec 32) :=
  let one (m : List (Nat × BitVec 256 × BitVec 32)) (e : Byte × Nat) : List (Nat × BitVec 256 × BitVec 32) :=
    let a := laddr + e.2
    let d := BitVec.ofNat 256 (e.1.toNat * 2 ^ (8 * (a % 32)))
    let k := BitVec.ofNat 32 (2 ^ (a % 32))
    match m with
    | (q, x, y) :: r => if q = a / 32 then (q, x ||| d, y ||| k) :: r else (a / 32, d, k) :: m
    | [] => [(a / 32, d, k)]
  ((bs.zipIdx).foldl one []).reverse

/-- Bytes at a logical address as device writes. -/
def devParts (laddr : Nat) (bs : List Byte) : List HeldWrite :=
  (sectorPieces laddr bs).map (fun p => { lsec := p.1, data := p.2.1, mask := byteBits p.2.2 })

/-- A device write of bytes at a logical address, grain by grain (R456). -/
def State.devWriteL (s : State) (laddr : Nat) (bs : List Byte) : State :=
  let ps := devParts laddr bs
  s.each (heldGrains ps) (fun s lg => s.devPieces (ps.filter (fun p => p.lsec / 16 = lg)) [])

/-- A sector with device visibility: committed for every reader, with the device's own writes that wait. -/
def State.devSector (s : State) (lsec : Nat) : Sector :=
  (s.heldWrites.filter (fun h => h.lsec = lsec)).foldl (fun x h => h.onto x) (s.readSrc (s.lookup 0 lsec))

/-- Bytes at a logical address with device visibility. -/
def State.devReadL (s : State) (laddr n : Nat) : List Byte × Bool :=
  let secs := (List.range ((laddr % 32 + n + 31) / 32)).map (fun i => s.devSector (laddr / 32 + i))
  let bytes := (secs.flatMap Sector.bytes).drop (laddr % 32) |>.take n
  let w0 := laddr % 32 / 8
  let pois := secs.flatMap (fun x => (List.range 4).map (fun i => x.poison.getLsbD i))
  (bytes, ((pois.drop w0).take ((laddr % 8 + n + 7) / 8)).any id)

/-- The level's count of corrected and of uncorrectable records (R399). -/
def countErr (kind : Nat) : Bool := kind = 0 || kind = 1 || kind = 4 || kind = 7

/-- A counter that stops at 32 bits. -/
def sat32 (n : Nat) : Nat := if n ≥ 2 ^ 32 then 2 ^ 32 - 1 else n

/-- The first 16 and the last 8 bytes of an error-log record; the syndrome stands between them (R263). -/
def ErrRec.head (r : ErrRec) (lost : Bool) : List Byte :=
  leBytes 8 (r.level + r.kind * 16 + (if r.inj then 256 else 0) + (if lost then 512 else 0) + r.unit * 2 ^ 10 + r.lane * 2 ^ 21
    + r.retry * 2 ^ 29) ++ leBytes 8 r.paddr

end Sys2Proof.Machine
end

