-- ==== Sys2Proof/Machine/Trans.lean ====
section
/-! DEFINITION. Translation, the core windows and the peer aperture, device writes in a context, error logs, event queues
and trace records (R240, R263, R341 to R348, R410, R437, R456). -/

namespace Sys2Proof.Machine

/-- A word of the table region (R347). -/
def State.tword (s : State) (pa : Nat) : Word := Tab.get s.tables 0 (pa / 8)

/-- What a level-0 entry says (R347). -/
structure Xlate where
  laddr : Nat
  attr : Nat
  r : Bool
  x : Bool
  deriving DecidableEq, Repr

/-- Attributes of R347 by code. -/
def attrPrivate : Nat := 0
/-- ATTR 1. -/
def attrShared : Nat := 1
/-- ATTR 2. -/
def attrAtomic : Nat := 2
/-- ATTR 3. -/
def attrReadOnly : Nat := 3
/-- ATTR 4. -/
def attrCompressed : Nat := 4
/-- ATTR 5. -/
def attrHost : Nat := 5

/-- The logical capacity L; before it is fixed no logical address is valid (R345, R429). -/
def State.cap (s : State) : Nat := s.capacity.getD 0

/-- One level of the walk: the next table, or none with V = 0 or a nonzero reserved bit (R347). -/
def State.walkLevel (s : State) (table idx : Nat) : Option Nat :=
  let e := s.tword (table + 8 * idx)
  if e.getLsbD 0 && e.extractLsb' 1 13 == 0 && e.extractLsb' 40 24 == 0 then some ((e.extractLsb' 14 26).toNat * 16384) else none

/-- The level-0 entry of a virtual page: four levels (R347). -/
def State.walk (s : State) (ctx va : Nat) : Option Word :=
  match s.walkLevel (s.ctx ctx).root (va / 2 ^ 47 % 1024) with
  | none => none
  | some t2 => match s.walkLevel t2 (va / 2 ^ 37 % 1024) with
    | none => none
    | some t1 => match s.walkLevel t1 (va / 2 ^ 27 % 1024) with
      | none => none
      | some t0 => some (s.tword (t0 + 8 * (va / 2 ^ 16 % 2048)))

/-- The pages that a context's tables map: virtual page and level-0 entry, by the listed words of the table region (R347). -/
def State.leaves (s : State) (t : Nat) : List (Nat × Word) :=
  let words (base n : Nat) : List (Nat × Word) :=
    (s.tables.filter (fun e => decide (base / 8 ≤ e.1) && decide (e.1 < base / 8 + n))).map (fun e => (e.1 - base / 8, e.2))
  let next (e : Word) : Nat := (e.extractLsb' 14 26).toNat * 16384
  let down (xs : List (Nat × Nat)) : List (Nat × Nat) :=
    xs.flatMap (fun x => ((words x.2 1024).filter (fun e => e.2.getLsbD 0)).map (fun e => (x.1 * 1024 + e.1, next e.2)))
  (down (down (down [(0, (s.ctx t).root)]))).flatMap (fun x =>
    ((words x.2 2048).filter (fun e => e.2.getLsbD 0)).map (fun e => (x.1 * 2048 + e.1, e.2)))

/-- A level-0 entry checked (R347): none is subcode 2. -/
def State.checkEntry (s : State) (va : Nat) (e : Word) : Option Xlate :=
  let attr := (e.extractLsb' 3 3).toNat
  let lpn := (e.extractLsb' 16 24).toNat
  if e.getLsbD 0 && e.extractLsb' 6 10 == 0 && e.extractLsb' 40 24 == 0 && decide (attr < 6)
      && decide (lpn * 65536 < s.cap) && (s.page lpn).valid then
    some { laddr := lpn * 65536 + va % 65536, attr := attr, r := e.getLsbD 1, x := e.getLsbD 2 }
  else none

/-- Translation of a virtual address in a context (R347); none is subcode 2. -/
def State.xlate (s : State) (ctx va : Nat) : Option Xlate :=
  match s.walk ctx va with
  | none => none
  | some e => s.checkEntry va e

/-- The TLB after a translation: 64 entries, the oldest leaves (R348). -/
def State.tlbFill (s : State) (core ctx va : Nat) : State :=
  let k := s.core core
  if k.tlb.any (fun t => t.ctx = ctx && t.vpn = va / 65536) then s
  else match s.walk ctx va with
    | none => s
    | some e => s.setCore core { k with tlb := ({ ctx := ctx, vpn := va / 65536, entry := e } :: k.tlb).take 64 }

/-- Translation by a core: a cached level-0 entry serves, else the walk (R348). -/
def State.coreXlate (s : State) (core ctx va : Nat) : Option Xlate :=
  match (s.core core).tlb.find? (fun t => t.ctx = ctx && t.vpn = va / 65536) with
  | some t => s.checkEntry va t.entry
  | none => s.xlate ctx va

/-- Where an address falls (R240, R437). -/
inductive Region where
  | beyond
  | aperture (peer addr : Nat)
  | reserved
  | die (off : Nat)
  | cluster (core off : Nat)
  | local_ (off : Nat)
  | mapped
  deriving DecidableEq, Repr

/-- The region of a virtual address (R240, R437). -/
def regionOf (va : Nat) : Region :=
  if 2 ^ 57 ≤ va then .beyond
  else if 0x01FFFFFF00000000 ≤ va then .local_ (va - 0x01FFFFFF00000000)
  else if 0x01FFFFFE00000000 ≤ va then .cluster ((va - 0x01FFFFFE00000000) / 0x200000) ((va - 0x01FFFFFE00000000) % 0x200000)
  else if 0x01FFFFFD00000000 ≤ va then .die (va - 0x01FFFFFD00000000)
  else if 0x01FFFFFC00000000 ≤ va then .reserved
  else if 0x0100000000000000 ≤ va && va < 0x0100000000000000 + 2 ^ 52 then
    .aperture ((va - 0x0100000000000000) / 2 ^ 40) ((va - 0x0100000000000000) % 2 ^ 40)
  else .mapped

/-- Whether the device may write an address of a context (R456): private or shared-writable pages only. -/
def State.devWritable (s : State) (ctx va : Nat) : Bool :=
  match regionOf va with
  | .mapped => match s.xlate ctx va with
    | some x => x.attr = attrPrivate || x.attr = attrShared
    | none => false
  | _ => false

/-- Whether every page of a range may be written by the device. -/
def State.devRange (s : State) (ctx va n : Nat) : Bool :=
  (List.range ((va % 65536 + n + 65535) / 65536)).all (fun i => s.devWritable ctx (va / 65536 * 65536 + i * 65536))

/-- A device write of bytes in a context (R456); a write that would fault is not made. -/
def State.devWrite (s : State) (ctx va : Nat) (bs : List Byte) : State :=
  if s.devRange ctx va bs.length then
    (bs.zipIdx.foldl (fun (a : List (Nat × List Byte)) e =>
        match a with
        | (b, l) :: r => if (va + e.2) % 65536 = 0 then (va + e.2, [e.1]) :: (b, l) :: r else (b, l ++ [e.1]) :: r
        | [] => [(va + e.2, [e.1])]) []).foldr
      (fun p s => match s.xlate ctx p.1 with
        | some x => s.devWriteL x.laddr p.2
        | none => s) s
  else s

/-- A device read within one page of a context with device visibility (R374): none when it cannot be read or holds a poisoned word. -/
def State.devReadPage (s : State) (ctx va n : Nat) : Option (List Byte) :=
  match regionOf va with
  | .mapped => match s.xlate ctx va with
    | some x =>
      let r := s.devReadL x.laddr n
      if x.r && !r.2 then some r.1 else none
    | none => none
  | _ => none

/-- A device read of bytes that lie in one page or two of a context (R374). -/
def State.devRead (s : State) (ctx va n : Nat) : Option (List Byte) :=
  let k := 65536 - va % 65536
  if n ≤ k then s.devReadPage ctx va n
  else match s.devReadPage ctx va k, s.devReadPage ctx (va + k) (n - k) with
    | some a, some b => some (a ++ b)
    | _, _ => none

/-- Bytes written at a queue address: host memory, or device memory in the queue's context (R322, R341). -/
def State.queueWrite (s : State) (loc : Bool) (ctx base : Nat) (bs : List Byte) : State :=
  if loc then s.devWrite ctx base bs else { s with host := s.host.writeBytes base bs }

/-- Bytes read at a queue address. DESIGN CHOICE (log 33): where the page of a queue in device memory is unmapped or unreadable, or a word
is poisoned, the spec does not say what the dispatcher reads; the bytes are 0 (R325). -/
def State.queueRead (s : State) (loc : Bool) (ctx base n : Nat) : List Byte :=
  let zeros := List.replicate n (0 : Byte)
  if loc then (s.devRead ctx base n).getD zeros else if s.hostBad base n then zeros else s.host.readBytes base n

/-- Whether a message of a queue comes too soon after its last one (R341). -/
def EQueue.early (q : EQueue) (now : Nat) : Bool :=
  match q.sentAt with
  | some t => decide (now < t + 64 * q.holdoff)
  | none => false

/-- The MSI-X message that a record written at a time sends (R341). -/
def EQueue.message (q : EQueue) (now : Nat) : List Nat := if q.early now then [] else [q.vec]

/-- A queue after the message of a record written at a time, which it has sent or put off (R341). -/
def EQueue.sent (q : EQueue) (now : Nat) : EQueue :=
  if q.early now then { q with deferred := true } else { q with sentAt := some now, deferred := false }

/-- An event is logged at its level (R263, R343, R399): counted, kept among the newest 64, and written into the level's
ring while it has room, with the ring's MSI-X message. The syndrome is a free value. -/
def State.logErr (s : State) (r : ErrRec) : State :=
  let f := s.newFree
  let s := f.2
  let r := { r with time := s.timeNs, syn := f.1 }
  let cnt (t : Tab Nat) : Tab Nat := Tab.set t 0 r.level (sat32 (Tab.get t 0 r.level + 1))
  let s := if countErr r.kind then { s with ce := cnt s.ce } else { s with ue := cnt s.ue }
  let mine := (r :: s.errs.filter (fun x => x.level = r.level)).take 64
  let s := { s with errs := mine ++ s.errs.filter (fun x => x.level ≠ r.level) }
  let q : EQueue := Tab.get s.els {} r.level
  if !q.en then s
  else if (q.tail + 2 ^ 32 - q.head) % 2 ^ 32 ≥ 2 ^ q.log2n then
    { s with elost := cnt s.elost, els := Tab.set s.els {} r.level { q with lost := true } }
  else
    let bytes := r.head q.lost ++ leBytes 8 (Config.syndrome r.syn).toNat ++ leBytes 8 r.time
    let a := q.base + 32 * (q.tail % 2 ^ q.log2n)
    let s := if q.loc then s.devWriteL a bytes else { s with host := s.host.writeBytes a bytes }
    { s with
      msix := s.msix ++ q.message s.timeNs
      els := Tab.set s.els {} r.level { q.sent s.timeNs with tail := (q.tail + 1) % 2 ^ 32, lost := false } }

/-- A read of bytes of host memory of which PCI Express delivers some word in error is logged in the HBM log with KIND 2; its units name no
host memory (R421; log 33). -/
def State.logHost (s : State) (a n : Nat) : State :=
  if s.hostBad a n then s.logErr { level := 0, kind := 2, unit := 0, paddr := a } else s

/-- A record in an event queue sends an MSI-X message, or defers it to the end of the holdoff interval (R341). -/
def State.sendMsix (s : State) (qn : Nat) : State :=
  let q : EQueue := Tab.get s.eqs {} qn
  { s with msix := s.msix ++ q.message s.timeNs, eqs := Tab.set s.eqs {} qn (q.sent s.timeNs) }

/-- Whether an event queue has room. -/
def EQueue.room (q : EQueue) : Bool := q.en && decide ((q.tail + 2 ^ 32 - q.head) % 2 ^ 32 < 2 ^ q.log2n)

/-- Write a record into an event queue with room (R341, R342). -/
def State.putEvent (s : State) (e : EvRecord) : State :=
  let q : EQueue := Tab.get s.eqs {} e.queue
  let bytes := leBytes 8 (e.kind + (if q.lost then 16 else 0) + e.status % 256 * 256 + e.ctx * 2 ^ 16 + q.tail % 2 ^ 32 * 2 ^ 32)
    ++ leBytes 8 e.data ++ leBytes 8 e.info ++ leBytes 8 s.timeNs
  let s := s.queueWrite q.loc q.ctx (q.base + 32 * (q.tail % 2 ^ q.log2n)) bytes
  let s := { s with eqs := Tab.set s.eqs {} e.queue { q with tail := (q.tail + 1) % 2 ^ 32, lost := false } }
  s.sendMsix e.queue

/-- A kind 3 or 4 record: written when the queue has room, else dropped (R342). True when written. -/
def State.tryEvent (s : State) (e : EvRecord) : State × Bool :=
  let q : EQueue := Tab.get s.eqs {} e.queue
  if q.room then (s.putEvent e, true)
  else (if q.en then { s with eqs := Tab.set s.eqs {} e.queue { q with lost := true } } else s, false)

/-- The trace ring of a context, from its descriptor words (R410). -/
def Ctx.ring (c : Ctx) : EQueue :=
  let g (k : Nat) : Nat := Tab.get c.trace 0 k
  { base := g 0, loc := g 1 = 1, log2n := g 2, en := g 3 = 1, head := g 4, tail := g 5, ctx := g 6 }

/-- Write one trace record for a crew (R410, R411); in tandem mode with visible lanes, as R379 has it for fault records. -/
def State.trace (s : State) (c sl kind : Nat) (pc : BitVec 57) (data : Nat) (lanes : BitVec 32) (info prio : Nat) : State :=
  let ct := s.crewCtx c sl
  let x := s.ctx ct
  let q := x.ring
  let w := s.crew c sl
  if !q.en then s
  else if (q.tail + 2 ^ 32 - q.head) % 2 ^ 32 ≥ 2 ^ q.log2n then
    s.modCtx ct (fun x => { x with trlost := sat32 (x.trlost + 1), traceLost := true })
  else
    let bytes := leBytes 8 (kind + prio * 16 + (if x.traceLost then 64 else 0) + c * 2 ^ 8 + sl % 32 * 2 ^ 19
        + w.rstack.length * 2 ^ 24 + ct * 2 ^ 32) ++ leBytes 8 pc.toNat
      ++ leBytes 8 ((w.rstack.headD 0).toNat + ((w.rstack.drop 1).headD 0).toNat * 2 ^ 16) ++ leBytes 8 data
      ++ leBytes 8 ((w.visMask lanes).toNat + info % 2 ^ 32 * 2 ^ 32) ++ leBytes 8 w.reti ++ leBytes 8 s.timeNs ++ leBytes 8 0
    let s := s.queueWrite q.loc q.ctx (q.base + 64 * (q.tail % 2 ^ q.log2n)) bytes
    s.modCtx ct (fun x => { x with trace := Tab.set x.trace 0 5 ((q.tail + 1) % 2 ^ 32), traceLost := false })

end Sys2Proof.Machine
end

