-- ==== Sys2Proof/Machine/Inject.lean ====
section
/-! DEFINITION. Error injection: the word that an armed injection names, and its firing on a read of each level (R132, R247, R259,
R264). -/

namespace Sys2Proof.Machine

/-- Pool byte at which a group's scratchpad partition starts (R239). -/
def Group.padBase (g : Group) : Nat := 16384 * g.sg0

/-- Bytes of a group's scratchpad partition (R240). -/
def Group.padLimit (g : Group) : Nat := 16384 * g.sg

/-- The words that some bytes touch. -/
def wordsOf (a n : Nat) : List Nat := if n = 0 then [] else (List.range ((a % 8 + n + 7) / 8)).map (· + a / 8)

/-- The word that an armed injection names in its level's space (R264): at level 3 a pool byte, whichever form names it. -/
def State.injWord (s : State) (core : Nat) : Nat :=
  let k := s.core core
  let a := k.injAddr.toNat
  (if k.injLevel = 3 && a / 2097152 % 2 = 1 then (s.group k.injGroup).padBase + a % 2097152 else a) / 8

/-- A read of some bytes of a core's level fires an armed injection on a word of them: `flip` changes the stored bit and
`mark` poisons the word (R132). KIND 0 is corrected, KIND 1 detected, KIND 2 not detected. -/
def State.touch (s : State) (core level a n : Nat) (flip mark : State → Nat → State) : State :=
  let k := s.core core
  if k.armed && k.injLevel = level && (wordsOf a n).contains (s.injWord core) then
    let w := s.injWord core
    let s := s.setCore core k.fired
    let rec_ (kind : Nat) : ErrRec := { level := level, kind := kind, inj := true, unit := core, paddr := 8 * w }
    match k.injKind with
    | 0 => s.logErr (rec_ 0)
    | 1 => (mark s w).logErr (rec_ 2)
    | _ => flip s w
  else s

/-- A sector with one bit of a word flipped. -/
def Sector.flip (x : Sector) (w b : Nat) : Sector := { x with data := x.data ^^^ BitVec.ofNat 256 (2 ^ (64 * (w % 4) + b)) }

/-- A read of a log sector from its HBM cells (R132, R259). -/
def State.touchHbm (s : State) (p : Nat) : State :=
  let r := s.fireHbm p
  r.1.each r.2 State.logErr

/-- A read of what a source names from its HBM cells: a log sector, or the block of a compressed unit (R132, R259). -/
def State.touchSrc (s : State) (x : SecSrc) : State :=
  match x with
  | .zero => s
  | .lost => s
  | .host _ => s
  | .log p => s.touchHbm p
  | .comp b _ => s.each (List.range 16) (fun s i => s.touchHbm (16 * b + i))

/-- Sectors of a tile's L2 and of a core's L1 data array: a sector stands at the place that its number gives modulo these (log 12). -/
def l2Places : Nat := 2097152
/-- Sectors of an L1 data array (R238). -/
def l1Places : Nat := 4096

/-- The number of a source among the sectors of its kind. -/
def SecSrc.number (x : SecSrc) : Nat :=
  match x with
  | .zero => 0
  | .log p => p
  | .host a => a / 32
  | .comp b off => 32 * b + off / 32
  | .lost => 0

/-- The line of a tile's L2 that a source tags (R248). -/
def State.l2Find (s : State) (tile : Nat) (x : SecSrc) : Option L2Line := s.l2.find? (fun e => e.tile = tile && e.key = x)

/-- A tile's L2 without the sector that a source tags. -/
def State.l2Drop (s : State) (tile : Nat) (x : SecSrc) : State := { s with l2 := s.l2.filter (fun e => !(e.tile = tile && e.key = x)) }

/-- Whether two sources lie in one line of 128 bytes (R238). -/
def SecSrc.sameLine (x y : SecSrc) : Bool :=
  match x, y with
  | .log p, .log q => p / 4 = q / 4
  | .host a, .host b => a / 128 = b / 128
  | .comp b off, .comp c off' => b = c && off / 128 = off' / 128
  | _, _ => false

/-- A tile's L2 without the line in which a source's sector stands (R259). -/
def State.l2DropLine (s : State) (tile : Nat) (x : SecSrc) : State :=
  { s with l2 := s.l2.filter (fun e => !(e.tile = tile && e.key.sameLine x)) }

/-- A sector put into a tile's L2: 64 MiB, the oldest leaves (R4, R238, R248). -/
def State.l2Put (s : State) (tile : Nat) (x : SecSrc) (sec : Sector) : State :=
  let rest := (s.l2Drop tile x).l2
  let rest := if (rest.filter (fun e => e.tile = tile)).length < l2Places then rest
    else match rest.reverse.find? (fun e => e.tile = tile) with
      | some v => rest.erase v
      | none => rest
  { s with l2 := { tile := tile, key := x, sec := sec } :: rest }

/-- The device's reads of log sectors for bytes within one page of a context (R132, R259). -/
def State.devTouchPage (s : State) (ctx va n : Nat) : State :=
  match regionOf va with
  | .mapped => match s.xlate ctx va with
    | some x => s.each (List.range ((x.laddr % 32 + n + 31) / 32)) (fun s i => s.touchSrc (s.lookup 0 (x.laddr / 32 + i)))
    | none => s
  | _ => s

/-- The device's reads of log sectors for bytes of a context (R132, R259). -/
def State.devTouch (s : State) (ctx va n : Nat) : State :=
  s.each (List.range ((va % 65536 + n + 65535) / 65536)) (fun s i =>
    let a := if i = 0 then va else va / 65536 * 65536 + 65536 * i
    let e := va / 65536 * 65536 + 65536 * (i + 1)
    s.devTouchPage ctx a ((if e < va + n then e else va + n) - a))

/-- The reads of bytes at a queue address (R132, R259, R421). -/
def State.queueTouch (s : State) (loc : Bool) (ctx base n : Nat) : State := if loc then s.devTouch ctx base n else s.logHost base n

/-- What stands in a word of a core's pool (R126, R132, R239): a word of a scratchpad or a free granule, a vector register or a
lane-matrix element of a lane of a crew, or an element of an accumulator that overflowed. -/
inductive PoolItem where
  | bytes
  | vreg (slot lane n : Nat)
  | mel (slot lane k q : Nat)
  | acc (group i : Nat)
  deriving DecidableEq, Repr

/-- The place of a byte of some crews' vector storage, the crews one after another: for each its registers by number, then its
lane-matrix registers by number and element, each with its 32 lanes side by side. -/
def vecItem : List (Nat × Crew) → Nat → PoolItem
  | [], _ => .bytes
  | (sl, w) :: rest, o =>
    if w.bytes ≤ o then vecItem rest (o - w.bytes)
    else if o < 2048 * w.vgran then .vreg sl (o % 256 / 8) (o / 256)
    else
      let o := o - 2048 * w.vgran
      .mel sl (o % 256 / 8) (o / 9216) (o % 9216 / 256)

/-- What stands in a word of a core's pool. DESIGN CHOICE (log 12): the spec does not say where in a group's vector granules a register
lies; they hold the crews of the group in slot order, each as `vecItem` lays it out. -/
def State.poolItem (s : State) (core w : Nat) : PoolItem :=
  let g := w / 2048
  (s.groups.findSome? (fun e =>
    if e.2.core ≠ core then none
    else match (e.2.vgr ++ e.2.extraV).findIdx? (fun x => x = g) with
      | some j => some (vecItem ((s.core core).slots.filter (fun x => x.2.group = e.1 && x.1 < 32)) (16384 * j + 8 * (w % 2048)))
      | none => (e.2.accPlaces.findIdx? (fun p => p = .granule g)).map (fun i => .acc e.1 (1024 * i + w % 2048 / 2)))).getD .bytes

/-- A bit of a register element turned, by the kind of the injection: corrected, poisoned, or changed unseen (R132, R133). -/
def Elem.inject (e : Elem) (kind b : Nat) : Elem :=
  match kind with
  | 0 => e
  | 1 => { e with poison := true }
  | _ => { e with val := e.val ^^^ BitVec.ofNat 64 (2 ^ b) }

/-- The reads that an instruction makes of the vector registers `n` and the lane-matrix registers `k` of some lanes fire an injection at
level 3 on a word of them (R132, R264). -/
def State.touchRegs (s : State) (core sl : Nat) (m : BitVec 32) (n : Nat → Nat → Bool) (k : Nat → Bool) : State :=
  let x := s.core core
  if !(x.armed && x.injLevel = 3) then s
  else
    let w := s.injWord core
    let fire (f : Crew → Crew) : State :=
      let s := (s.setCore core x.fired).modCrew core sl f
      match x.injKind with
      | 0 => s.logErr (injRec 3 0 core (8 * w))
      | 1 => s.logErr (injRec 3 2 core (8 * w))
      | _ => s
    match s.poolItem core w with
    | .vreg t l i => if t = sl && m.getLsbD l && n l i then fire (fun c => c.setVreg l i ((c.vreg l i).inject x.injKind x.injBit)) else s
    | .mel t l i q => if t = sl && m.getLsbD l && k i then fire (fun c => c.setMel i l q ((c.mel i l q).inject x.injKind x.injBit)) else s
    | .bytes => s
    | .acc _ _ => s

/-- A read of a sector in a tile's L2 fires an injection at level 1: the code corrects one bit and writes it back, a clean line with a
detected error leaves and is fetched again, and an undetected one stays in the line (R132, R259). -/
def State.touchL2 (s : State) (tile : Nat) (x : SecSrc) : State :=
  s.each (s.armedAt 1 (fun c k => tileOf c = tile && k.injAddr.toNat / 32 = x.number % l2Places)) (fun s c =>
    let k := s.core c
    let w := k.injAddr.toNat / 8
    let s := s.setCore c k.fired
    match k.injKind with
    | 0 => s.logErr { injRec 1 0 c (8 * w) with unit := tile }
    | 1 => (s.logErr { injRec 1 2 c (8 * w) with unit := tile }).l2DropLine tile x
    | _ => { s with l2 := mapIf (fun e => e.tile = tile && e.key = x) (fun e => { e with sec := e.sec.flip w k.injBit }) s.l2 })

/-- The flipped bits of an L1 sector that share their word with another: its code detects them and does not correct them (R259). -/
def L1Sector.broken (e : L1Sector) : Bool := e.flips.any (fun b => e.flips.any (fun c => b ≠ c && b / 64 = c / 64))

/-- A read of a sector in a core's L1 data array fires an injection at level 2; one flipped bit of a word is corrected on this and each
later read (R132, R259). The answer says that the sector has an uncorrectable error, of which nothing is consumed (R247). -/
def State.touchL1 (s : State) (core lsec : Nat) (e : L1Sector) : State × Bool :=
  let k := s.core core
  let set (s : State) (f : L1Sector → L1Sector) : State := s.modCore core (fun k => { k with l1 := mapIf (fun x => x = e) f k.l1 })
  let correct (s : State) (e : L1Sector) : State × Bool :=
    if e.broken then (s.logErr (injRec 2 2 core (lsec % l1Places * 32)), true)
    else (s.each e.flips (fun s b => s.logErr (injRec 2 0 core (lsec % l1Places * 32 + 8 * (b / 64)))), false)
  if k.armed && k.injLevel = 2 && k.injAddr.toNat / 32 = lsec % l1Places then
    let w := k.injAddr.toNat / 8
    let s := s.setCore core k.fired
    match k.injKind with
    | 0 =>
      let b := 64 * (w % 4) + k.injBit
      let f (x : L1Sector) : L1Sector := { x with flips := if x.flips.contains b then x.flips.erase b else b :: x.flips }
      correct (set s f) (f e)
    | 1 => (s.logErr (injRec 2 2 core (8 * w)), true)
    | _ =>
      let r := correct s e
      (set r.1 (fun x => { x with sec := x.sec.flip w k.injBit }), r.2)
  else correct s e

end Sys2Proof.Machine
end

