-- ==== Sys2Proof/Machine/Cons.lean ====
section
/-! DEFINITION. The consistency machinery: L1, the gather buffer, the IXLB, the appender, claims, releases and commits
(R247, R253, R266 to R276, R281 to R284, R289 to R291, R351, R354, R355). -/

namespace Sys2Proof.Machine

/-- Whether an L1 sector serves a crew with a tag (R267). -/
def L1Sector.usable (e : L1Sector) (tag : Nat) : Bool := e.tag = 0 || e.tag = tag

/-- The L1 sector that serves a crew: one written or filled under its own tag first (R267). -/
def Core.l1Find (k : Core) (lsec tag : Nat) : Option L1Sector :=
  match k.l1.find? (fun e => e.lsec = lsec && e.tag = tag) with
  | some e => some e
  | none => k.l1.find? (fun e => e.lsec = lsec && e.usable tag)

/-- Whether a sector may leave L1: the appender has accepted its stores, and no sector of tag 0 that it hides waits for that (R238,
R269). -/
def Core.l1Victim (k : Core) (x : L1Sector) : Bool :=
  !x.dirty && (x.tag = 0 || !k.l1.any (fun y => y.lsec = x.lsec && y.tag = 0 && y.dirty))

/-- L1 with a sector put in front: 4,096 sectors; past that the oldest that may leave does, and with a sector of a staged node the
older version of tag 0, which that node's crews must not see again (R238, R269). DESIGN CHOICE (log 33): the spec does not say where a
store's sector stands while every sector waits for the appender; L1 then holds more than 4,096 until one is accepted (R4, R401). -/
def Core.l1Put (k : Core) (e : L1Sector) : Core :=
  let rest := k.l1.filter (fun x => !(x.lsec = e.lsec && x.tag = e.tag))
  let rest := if rest.length < 4096 then rest
    else match rest.reverse.find? ({ k with l1 := rest } : Core).l1Victim with
      | some v => rest.filter (fun x => !(x.lsec = v.lsec && (x.tag = v.tag || (v.tag ≠ 0 && x.tag = 0))))
      | none => rest
  { k with l1 := e :: rest }

/-- The gather-buffer entry of a grain under a tag that later stores join: one that a release waits for takes none. -/
def Cluster.gatherOf (c : Cluster) (lg tag : Nat) : Option GatherEntry :=
  c.gather.find? (fun g => g.grain = lg && g.tag = tag && g.rel = 0)

/-- The stores that a gathered sector holds. -/
def GatherEntry.of (g : GatherEntry) (i : Nat) : List StoreSrc := (Tab.find g.srcs i).getD []

/-- Whether an entry is to be written as soon as a block can be had: it is full, or a release or an OWNX needs it (R253). -/
def GatherEntry.isDue (g : GatherEntry) : Bool := g.rel ≠ 0 || g.due || g.sectors.length = 16

/-- The newest version of a sector in the gather buffer for a tag, and the stores that it holds. -/
def Cluster.gathered (c : Cluster) (lsec tag : Nat) : Option (Sector × List StoreSrc) :=
  let of (g : GatherEntry) : Option (Sector × List StoreSrc) := (Tab.find g.sectors (lsec % 16)).map (fun x => (x, g.of (lsec % 16)))
  match (c.gatherOf (lsec / 16) tag).bind of with
  | some x => some x
  | none => (c.gather.filter (fun g => g.grain = lsec / 16 && g.tag = tag && g.rel ≠ 0)).reverse.findSome? of

/-- The newest update of a sector in the pending-update buffer for a tag, where the gather buffer holds no version of it. -/
def Cluster.pending (c : Cluster) (lsec tag : Nat) : Option Update :=
  if (c.gathered lsec tag).isSome then none else (c.pend.filter (fun u => u.lsec = lsec && u.tag = tag)).getLast?

/-- The newest version of a sector in the cluster's buffers for a tag (source 2 of R267), and the stores that it holds. -/
def State.newest (s : State) (k lsec tag : Nat) : Option (Sector × List StoreSrc) :=
  match (s.cluster k).gathered lsec tag with
  | some x => some x
  | none => ((s.cluster k).pending lsec tag).map (fun u => (s.readSrc (posSrc u.pos), u.srcs))

/-- The read of that version from the log, where the pending-update buffer names it (R132, R259). -/
def State.touchNewest (s : State) (k lsec tag : Nat) : State :=
  match (s.cluster k).pending lsec tag with
  | some u => s.touchSrc (posSrc u.pos)
  | none => s

/-- The newest version of a sector in the cluster's buffers for a tag (source 2 of R267). -/
def State.buffered (s : State) (k lsec tag : Nat) : Option Sector := (s.newest k lsec tag).map Prod.fst

/-- The IXLB entry of a grain for a tag (R354). -/
def Cluster.ix (c : Cluster) (lg tag : Nat) : Option IxEntry := c.ixlb.find? (fun e => e.grain = lg && e.tag = tag)

/-- Whether the cluster holds the claim of a grain under a tag (R281, R356). -/
def State.claimHeld (s : State) (k lg tag : Nat) : Bool :=
  s.homeClaims.any (fun c => c.grain = lg && c.cluster = k && c.tag = tag && !c.released)

/-- The grain entry as the home answers for a tag now (R271). -/
def State.homeEntry (s : State) (k lg tag attr ctx : Nat) (exec : Bool) : IxEntry :=
  let pg := s.page (lg / 128)
  { grain := lg, tag := tag, pos := (List.range 16).map (fun i => s.lookup tag (16 * lg + i)), attr := attr, host := pg.host
    wb := pg.wb, exec := exec, ctx := ctx, claim := s.claimHeld k lg tag }

/-- A lookup refills the IXLB: 4,096 entries, the oldest leaves (R267, R354). -/
def State.ixFill (s : State) (k lg tag attr ctx : Nat) (exec : Bool) : State :=
  let e := s.homeEntry k lg tag attr ctx exec
  s.modCluster k (fun c => { c with ixlb := (e :: c.ixlb.filter (fun x => !(x.grain = lg && x.tag = tag))).take 4096 })

/-- A fetch from host memory is counted; one that brings the count to the threshold, or the next past it once a record was dropped,
notifies the host (R257, R367). -/
def State.hostCount (s : State) (ctx lpn : Nat) : State :=
  let pg := s.page lpn
  let n := if pg.acnt < 65535 then pg.acnt + 1 else 65535
  let c := s.ctx ctx
  let s := s.modPage lpn (fun p => { p with acnt := n })
  if c.hpth ≤ n && c.pnqen && !pg.notified && (pg.acnt < c.hpth || pg.dropped) then
    let r := s.tryEvent { queue := c.pnq, kind := 3, ctx := ctx, data := lpn * 65536, info := n }
    r.1.modPage lpn (fun p => { p with notified := r.2, dropped := !r.2 })
  else s

/-- The record of a compressed unit that fails to expand (R258): log 33 for its level and address. -/
def decodeFailure (b : Nat) : ErrRec := { level := 0, kind := 6, unit := hbmUnit (posAddr (16 * b)), paddr := posAddr (16 * b) }

/-- A tile's L2 with the line of a source, which is fetched when it is missing: a log sector from HBM, 128 bytes of a host-resident
page, which count, or every sector of a compressed unit (R248, R257, R258, R367). -/
def State.l2Fill (s : State) (tile ctx lpn : Nat) (x : SecSrc) : State :=
  if (s.l2Find tile x).isSome then s
  else match x with
    | .zero => s
    | .lost => s
    | .log p =>
      let s := s.touchHbm p
      s.l2Put tile x (s.readSrc x)
    | .host a =>
      let base := a / 128 * 128
      ((s.hostCount ctx lpn).logHost base 128).each (List.range 4) (fun s i => s.l2Put tile (.host (base + 32 * i)) (s.hostSector (base + 32 * i)))
    | .comp b _ =>
      let s := s.each (List.range 16) (fun s i => s.touchHbm (16 * b + i))
      let u := s.unitBytes b
      let s := if u.isNone && !s.unitPoisoned b then s.logErr (decodeFailure b) else s
      s.each (List.range 32) (fun s i => s.l2Put tile (.comp b (32 * i)) (unitSector u (32 * i)))

/-- The content of a source as a reader of a tile gets it, through the tile's L2 (R248, R257, R258). -/
def State.fetchSrc (s : State) (tile ctx lpn : Nat) (x : SecSrc) : State × Sector :=
  match x with
  | .zero => (s, {})
  | .lost => (s, Sector.allPoison)
  | _ =>
    let s := (((s.l2Fill tile ctx lpn x).touchL2 tile x).l2Fill tile ctx lpn x)
    (s, ((s.l2Find tile x).map L2Line.sec).getD (s.readSrc x))

/-- The content of a sector as the log holds it, which never comes from L2 (R253, R285). -/
def State.homeSector (s : State) (x : SecSrc) : State × Sector :=
  let s := s.touchSrc x
  (s, s.readSrc x)

/-- What a load finds below L1 (R267): its content, the tag under which L1 may keep it, and the position it was filled from. A version
that a reader of tag 0 would not get is kept for its own tag only. -/
structure Below where
  sec : Sector
  tag : Nat := 0
  src : Option SecSrc := none
  deriving DecidableEq, Repr

/-- Sources 2 to 4 of a load of a sector of device memory (R267): the cluster's buffers, its IXLB, the home. `cached` is false for
LDNC.D, which neither reads nor refills the IXLB (R303). -/
def State.loadBelow (s : State) (core ctx tag lsec attr : Nat) (exec cached : Bool) : State × Below :=
  let k := clusterOf core
  let lpn := lsec / 2048
  let from_ (s : State) (x : SecSrc) : State × Below :=
    let r := s.fetchSrc (tileOf core) ctx lpn x
    (r.1, { sec := r.2, tag := if tag = 0 || x = s.lookup 0 lsec then 0 else tag, src := some x })
  let s := s.touchNewest k lsec tag
  match s.buffered k lsec tag with
  | some x => (s, { sec := x, tag := tag })
  | none =>
    if !cached then from_ s (s.lookup tag lsec)
    else match (s.cluster k).ix (lsec / 16) tag with
      | some e => from_ s (e.pos.getD (lsec % 16) .zero)
      | none => from_ (s.ixFill k (lsec / 16) tag attr ctx exec) (s.lookup tag lsec)

/-- An L1 sector without its copy, or, while stores of the core to it wait for the appender, the newest version below with those stores
performed again: what it holds once they are accepted and it is fetched again (R247, R269). -/
def State.rebuildL1 (s : State) (core lsec tag : Nat) : State :=
  let k := s.core core
  let is (e : L1Sector) : Bool := e.lsec = lsec && e.tag = tag
  match k.stq.filter (fun q => q.lsec = lsec && q.tag = tag) with
  | [] => s.modCore core (fun k => { k with l1 := k.l1.filter (fun e => !is e) })
  | qs =>
    let base := (s.buffered (clusterOf core) lsec tag).getD (s.readSrc (s.lookup tag lsec))
    let x := qs.foldl (fun (x : Sector) q => x.merge q.data q.mask q.poison) base
    s.modCore core (fun k => { k with l1 := mapIf is (fun e => { e with sec := x, dirty := true, src := none, flips := [] }) k.l1 })

/-- An L1 line is invalid: its four sectors go, those whose stores wait for the appender are fetched again behind them (R238, R247). -/
def State.dropLine (s : State) (core lsec tag : Nat) : State :=
  s.each (((s.core core).l1.filter (fun e => e.lsec / 4 = lsec / 4 && e.tag = tag)).map L1Sector.lsec) (fun s l => s.rebuildL1 core l tag)

/-- The L1 sector that serves a load, after the reads of the array that find it (R247, R267). -/
def State.l1Read (s : State) (core tag lsec : Nat) : State × Option L1Sector :=
  match (s.core core).l1Find lsec tag with
  | none => (s, none)
  | some e =>
    let t := s.touchL1 core lsec e
    let s := if t.2 then t.1.dropLine core lsec e.tag else t.1
    (s, (s.core core).l1Find lsec tag)

/-- A load of one sector of device memory by a crew, with the fills it makes (R267, R284, R300). `cached` is false for
LDNC.D, which neither reads nor fills L1 or the IXLB (R303). -/
def State.loadSector (s : State) (core ctx tag lsec attr : Nat) (exec cached : Bool) : State × Sector :=
  if attr = attrAtomic then s.homeSector (s.lookup tag lsec)
  else if !cached then
    let r := s.loadBelow core ctx tag lsec attr exec false
    (r.1, r.2.sec)
  else
    let r := s.l1Read core tag lsec
    match r.2 with
    | some e => (r.1, e.sec)
    | none =>
      let b := r.1.loadBelow core ctx tag lsec attr exec true
      (b.1.modCore core (fun c => c.l1Put
        { lsec := lsec, tag := b.2.tag, sec := b.2.sec, owner := 0, attr := attr, ctx := ctx, exec := exec, src := b.2.src }), b.2.sec)

/-- Bytes and byte-wise poison of a load that may span two sectors of a grain (R268, R300). -/
def State.loadBytes (s : State) (core ctx tag laddr n attr : Nat) (exec cached : Bool) : State × List Byte × Bool :=
  let r0 := s.loadSector core ctx tag (laddr / 32) attr exec cached
  let two := decide (laddr % 32 + n > 32)
  let r1 := if two then r0.1.loadSector core ctx tag (laddr / 32 + 1) attr exec cached else (r0.1, r0.2)
  let bytes := if two then r0.2.bytes ++ r1.2.bytes else r0.2.bytes
  let words := (List.range 4).map (fun i => r0.2.poison.getLsbD i) ++ (if two then (List.range 4).map (fun i => r1.2.poison.getLsbD i) else [])
  let w0 := laddr % 32 / 8
  (r1.1, (bytes.drop (laddr % 32)).take n, ((words.drop w0).take ((laddr % 8 + n + 7) / 8)).any id)

/-- A store becomes core-visible: it is merged into the L1 sector, and each sector goes on its way to the appender
(R247, R253, R266). A store of a staged node hides the sector's copy of tag 0, which leaves unless its own stores wait. `poison` are
words the writer carries poisoned, which only copies do. -/
def State.storeSector (s : State) (core sl : Nat) (q : StoreReq) (attr : Nat) (exec : Bool) : State :=
  let r := s.loadSector core q.ctx q.tag q.lsec attr exec true
  let e : L1Sector := { lsec := q.lsec, tag := q.tag, sec := r.2.merge q.data q.mask q.poison, owner := sl, dirty := true, attr := attr
                        ctx := q.ctx, exec := exec }
  r.1.modCore core (fun c =>
    let c := { c with l1 := c.l1.filter (fun x => !(x.lsec = q.lsec && x.tag = 0 && (q.tag = 0 || !x.dirty))) }
    { (c.l1Put e) with stq := c.stq ++ [q] })

/-- Write a gather entry into the log as one data block: summary, staged updates, LIVE and STAGED (R253). The updates that it
supersedes, those of the same release set, are gone. False when the append is held (R256); another entry that is due stays held. -/
def State.flushEntry (s : State) (k : Nat) (g : GatherEntry) : State × Bool :=
  match s.appendBlock k with
  | none => (s.modCluster k (fun c => { c with held := some (c.held.getD s.timeNs) }), false)
  | some (b, s) =>
    let s := s.writeBlock b g.grain g.sectors false false g.sectors.length
    let old := (s.cluster k).pend.filter (fun u => u.rel = g.rel && u.seq = 0 && u.tag = g.tag && u.lsec / 16 = g.grain
      && (Tab.find g.sectors (u.lsec % 16)).isSome)
    let ups := g.sectors.map (fun e => ({ lsec := 16 * g.grain + e.1, cluster := k, tag := g.tag, ctx := g.ctx, pos := 16 * b + e.1
                                          srcs := g.of e.1, rel := g.rel } : Update))
    let s := s.modCluster k (fun c =>
      let rest := c.gather.filter (fun x => x ≠ g)
      { c with
        gather := rest
        pend := c.pend.filter (fun u => !old.contains u) ++ ups
        held := if rest.any GatherEntry.isDue then c.held else none })
    (old.foldl (fun s u => (s.unstage u).unrefSrc (posSrc u.pos)) s, true)

/-- The newest version of a sector for a tag as the base of a merge, and the stores that it holds (R253): the cluster's buffers, else the
home, in whose place the IXLB stands only while the cluster holds the claim. -/
def State.mergeBase (s : State) (k lsec tag : Nat) : State × Sector × List StoreSrc :=
  let s := s.touchNewest k lsec tag
  match s.newest k lsec tag with
  | some x => (s, x)
  | none =>
    let home := s.lookup tag lsec
    let r := s.homeSector (if s.claimHeld k (lsec / 16) tag then
      match (s.cluster k).ix (lsec / 16) tag with
      | some e => e.pos.getD (lsec % 16) .zero
      | none => home
    else home)
    (r.1, r.2, [])

/-- The appender takes one sector: merged first with the newest version for the tag, then into the grain's entry; a full
entry, or the oldest where space is needed, is written (R253). False when it must be held (R256), or while the sector's home moves
(R352). -/
def State.accept (s : State) (core : Nat) (q : StoreReq) : State × Bool :=
  let k := clusterOf core
  let lg := q.lsec / 16
  let room : State × Bool :=
    if s.moving q.lsec then (s, false)
    else if ((s.cluster k).gatherOf lg q.tag).isSome || (s.cluster k).gather.length < 256 then (s, true)
    else match (s.cluster k).gather.head? with
      | some g => s.flushEntry k g
      | none => (s, true)
  if !room.2 then room
  else
    let s := room.1
    let m := s.mergeBase k q.lsec q.tag
    let s := m.1
    let base := m.2
    let x := if q.lost then Sector.allPoison else base.1.merge q.data q.mask q.poison
    let src : StoreSrc := { lid := q.crewLid, regaddr := q.regaddr, addr := q.addr, mask := q.mask }
    let srcs := if base.2.contains src then base.2 else base.2 ++ [src]
    let old := (s.cluster k).gatherOf lg q.tag
    let g : GatherEntry := old.getD { grain := lg, tag := q.tag, ctx := q.ctx, sectors := [] }
    let g' := { g with sectors := Tab.put g.sectors (q.lsec % 16) x, srcs := Tab.put g.srcs (q.lsec % 16) srcs }
    let s := s.modCluster k (fun c => { c with gather := if old.isSome then mapIf (fun y => y = g) (fun _ => g') c.gather else c.gather ++ [g'] })
    if g'.sectors.length = 16 then ((s.flushEntry k g').1, true) else (s, true)

/-- The stored sector leaves the core: its L1 copy counts as accepted once no other store of it waits, and the crew's
counter or the copy's count goes down (R273 to R277, R333). -/
def State.accepted (s : State) (core : Nat) (q : StoreReq) : State :=
  let s := s.modCore core (fun c =>
    let more := c.stq.any (fun x => x.lsec = q.lsec && x.tag = q.tag)
    { c with
      l1 := if more then c.l1 else mapIf (fun e => e.lsec = q.lsec && e.tag = q.tag) (fun e => { e with dirty := false }) c.l1
      copies := match q.copyId with
        | some id => mapIf (fun x => x.id = id) (fun x => { x with out := x.out - 1 }) c.copies
        | none => c.copies })
  if q.counted && (s.crew? core q.slot).isSome && s.crewLid core q.slot = q.crewLid then
    s.modCrew core q.slot (fun w => { w with ackCl := w.ackCl - 1 })
  else s

/-- Whether the cluster has a store to a grain under a tag that no commit covers yet, buffered or in flight (R282). -/
def State.grainOpen (s : State) (k lg tag : Nat) : Bool :=
  let c := s.cluster k
  c.gather.any (fun g => g.grain = lg && g.tag = tag) || c.pend.any (fun u => u.lsec / 16 = lg && u.tag = tag)
    || ((List.range 8).any (fun i => (s.core (8 * k + i)).stq.any (fun q => q.lsec / 16 = lg && q.tag = tag)))

/-- Close or release to the node the claims of a cluster under a tag that a commit has covered (R282, R283). -/
def State.closeClaims (s : State) (k tag : Nat) : State :=
  let covered (c : Claim) : Bool := c.cluster = k && c.tag = tag && !s.grainOpen k c.grain tag
  if tag = 0 then { s with homeClaims := s.homeClaims.filter (fun c => !covered c) }
  else { s with homeClaims := mapIf covered (fun c => { c with released := true }) s.homeClaims }

/-- The ownership home decides a claim (R281, R283). -/
def State.claim (s : State) (k lg tag : Nat) : State × Bool :=
  let mine := s.homeClaims.filter (fun c => c.grain = lg)
  let ok := mine.all (fun c => (c.cluster = k && c.tag = tag) || (c.released && c.tag = tag && tag ≠ 0))
  if !ok then (s, false)
  else
    let s := { s with homeClaims := { grain := lg, cluster := k, tag := tag } :: s.homeClaims.filter (fun c => !(c.grain = lg)) }
    match (s.cluster k).ix lg tag with
    | some e => (s.ixFill k lg tag e.attr e.ctx e.exec, true)
    | none => (s, true)

/-- Each IXLB entry of a cluster says anew whether the cluster holds the grain's claim (R354). -/
def State.refreshClaims (s : State) (k : Nat) : State :=
  s.modCluster k (fun c => { c with ixlb := c.ixlb.map (fun e => { e with claim := s.claimHeld k e.grain e.tag }) })

/-- The release set of a release (R270): every update of the tag that has reached the appender. What stands in the gather buffer is
written to the log; an entry whose append is held stays there as the release's own, and takes no later store (R256). -/
def State.takeSet (s : State) (k tag id : Nat) : State :=
  let s := s.modCluster k (fun c => { c with
    gather := mapIf (fun g => g.tag = tag && g.rel = 0) (fun g => { g with rel := id }) c.gather
    pend := mapIf (fun u => u.tag = tag && u.rel = 0) (fun u => { u with rel := id }) c.pend })
  s.each ((s.cluster k).gather.filter (fun g => g.rel = id)) (fun s g => (s.flushEntry k g).1)

/-- The releases of a cluster whose sets stand in the log get their numbers, in order, and their updates are to be sent (R270). DESIGN
CHOICE (log 33): a RELEASE with an empty set skips the step that assigns its number, and the spec does not say which number its commit
write then carries; it takes the next one like any other. -/
def State.numberRels (s : State) (k : Nat) : State :=
  ((s.cluster k).rels.foldl (fun (a : State × Bool) r =>
    if !a.2 || r.numbered then a
    else if (a.1.cluster k).gather.any (fun g => g.rel = r.id) then (a.1, false)
    else
      (a.1.modCluster k (fun c =>
        let n := c.nextSeq.toNat
        let pend := mapIf (fun u => u.rel = r.id) (fun u => { u with seq := n }) c.pend
        { c with
          nextSeq := c.nextSeq + 1
          pend := pend
          rels := mapIf (fun x => x.id = r.id) (fun x => { x with numbered := true, seq := n, left := pend.filter (fun u => u.rel = r.id) }) c.rels }),
        true)) (s, true)).1

/-- Whether a cluster holds updates of a tag that no release has taken yet; of tag 0, a node's own (R52, R290). -/
def State.unpublished (s : State) (k tag lid : Nat) : Bool :=
  let c := s.cluster k
  let mine (xs : List StoreSrc) : Bool := tag ≠ 0 || xs.any (fun x => x.lid = lid)
  c.gather.any (fun g => g.tag = tag && g.rel = 0 && g.srcs.any (fun e => mine e.2))
    || c.pend.any (fun u => u.tag = tag && u.rel = 0 && mine u.srcs)

/-- Whether a release that has taken updates of a node on a cluster has still to commit them (R52, R270). -/
def State.underway (s : State) (k tag lid : Nat) : Bool :=
  let c := s.cluster k
  let mine (xs : List StoreSrc) : Bool := tag ≠ 0 || xs.any (fun x => x.lid = lid)
  c.gather.any (fun g => g.tag = tag && g.rel ≠ 0 && g.srcs.any (fun e => mine e.2))
    || c.pend.any (fun u => u.tag = tag && u.rel ≠ 0 && mine u.srcs)

/-- Whether a node with a staging tag still runs (R355). -/
def State.tagRuns (s : State) (t : Nat) : Bool :=
  match s.staging t with
  | .running _ => true
  | _ => false

/-- A node commit word written into one of a cluster's four: that of its tag, else a free one, else one whose node no longer runs
(R289, R355). -/
def State.putNcw (s : State) (ws : List NodeWord) (w : NodeWord) : List NodeWord :=
  if ws.any (fun x => x.tag = w.tag) then mapIf (fun x => x.tag = w.tag) (fun _ => w) ws
  else if ws.length < 4 then ws ++ [w]
  else match ws.findIdx? (fun x => !s.tagRuns x.tag) with
    | some i => ws.set i w
    | none => ws

/-- Begin a release: its set is every update of the tag in the cluster, and it has the cluster's next number once the set stands in the
log (R270). -/
def State.beginRelease (s : State) (k tag core sl : Nat) (node : Option Nat) : State × Nat :=
  let i := s.newId
  let r : Rel := { id := i.1, tag := tag, core := core, slot := sl, left := [], node := node }
  ((((i.2.takeSet k tag i.1).modCluster k (fun c => { c with rels := c.rels ++ [r] })).numberRels k), i.1)

/-- Whether every update of a release stands acknowledged at its home: none left to send, none waiting there (R270). -/
def State.relAcked (s : State) (r : Rel) : Bool := r.numbered && r.left.isEmpty && !s.hwait.any (fun u => u.rel = r.id)

/-- The commit write of a release: the commit register, or the node commit word of its tag; then claims close, and the cluster's
buffers and its IXLB name what the homes now answer (R270, R282, R289, R355). -/
def State.commit (s : State) (k : Nat) (r : Rel) : State :=
  let mine := (s.cluster k).pend.filter (fun u => u.rel = r.id)
  let s := s.modCluster k (fun c => { c with
    rseq := if r.tag = 0 then BitVec.ofNat 32 r.seq else c.rseq
    ncw := if r.tag = 0 then c.ncw else s.putNcw c.ncw { tag := r.tag, rseq := BitVec.ofNat 32 r.seq }
    pend := c.pend.filter (fun u => u.rel ≠ r.id)
    rels := mapIf (fun x => x.id = r.id) (fun x => { x with committed := true }) c.rels })
  let s := s.closeClaims k r.tag
  let s := s.each mine (fun s u =>
    match (s.cluster k).ix (u.lsec / 16) r.tag with
    | some e => s.ixFill k (u.lsec / 16) r.tag e.attr e.ctx e.exec
    | none => s)
  (if r.tag = 0 then s.shipLater [.commit k 0 r.seq s.timeNs (mine.map (fun u => (u.lsec, u.pos)))] else s).refreshClaims k

/-- A cluster's commit register reaches the copies that the tiles hold (R271). -/
def State.broadcast (s : State) (k : Nat) : State :=
  { s with commitCopies := (List.range 8).foldl (fun t i => Tab.set t 0 (256 * i + k) (s.cluster k).rseq) s.commitCopies }

/-- Updates that no commit write covers are gone, wherever they stand (R253, R272, R291): their positions, and one count of STAGED for
each. -/
def State.loseUpdates (s : State) (p : Update → Bool) : State :=
  let us := ((s.clusters.flatMap (fun c => c.2.pend) ++ (s.hpend ++ s.hwait).filter (fun u => !s.committedAll u)).filter p).eraseDups
  let stays (u : Update) : Bool := !us.contains u
  let s := s.modClusters (fun c => { c with
    pend := c.pend.filter stays
    rels := c.rels.map (fun r => { r with left := r.left.filter stays }) })
  let s := { s with hpend := s.hpend.filter stays, hwait := s.hwait.filter stays }
  s.each us (fun s u => (s.unstage u).unrefSrc (posSrc u.pos))

/-- A page attribute under which ACQUIRE drops copies (R274). -/
def dropShared (attr : Nat) : Bool := attr = attrShared

/-- ACQUIRE: the cluster's IXLB entries and the core's L1 lines of the pages a predicate selects give way, save the
sectors the appender has not accepted (R274, R276, R288). -/
def State.dropCopies (s : State) (core : Nat) (ix l1 : Bool) (p : IxEntry → Bool) (q : L1Sector → Bool) : State :=
  let s := if ix then s.modCluster (clusterOf core) (fun c => { c with ixlb := c.ixlb.filter (fun e => !p e) }) else s
  if l1 then s.modCore core (fun k => { k with l1 := k.l1.filter (fun e => e.dirty || !q e) }) else s

/-- The effect of ACQUIRE (R274). -/
def State.acquire (s : State) (core : Nat) (ix : Bool) : State :=
  s.dropCopies core ix true (fun e => dropShared e.attr) (fun e => dropShared e.attr)

/-- The admission and restore acquire: every writable page of a context, whoever filled the copy (R276). -/
def State.admitAcquire (s : State) (core ctx : Nat) : State :=
  let wr (e : Word) : Bool :=
    let a := (e.extractLsb' 3 3).toNat
    a = attrPrivate || a = attrShared || a = attrAtomic || a = attrHost
  let lpns := ((s.leaves ctx).filter (fun e => wr e.2)).map (fun e => (e.2.extractLsb' 16 24).toNat)
  s.dropCopies core true true (fun e => lpns.contains (e.grain / 128)) (fun e => lpns.contains (e.lsec / 2048))

/-- The value arithmetic of an atomic (R310): the new value and the flags of AADDF.S. Operations by FN. -/
def atomicOp (op : Nat) (old a b : Word) : Word × FSet :=
  match op with
  | 8 => (old + a, 0)
  | 9 => (if a.toInt < old.toInt then a else old, 0)
  | 10 => (if old.toInt < a.toInt then a else old, 0)
  | 11 => (old &&& a, 0)
  | 12 => (old ||| a, 0)
  | 13 => (a, 0)
  | 14 => (if old = b then a else old, 0)
  | _ =>
    let r := fmtS.fadd .rne (old.toNat % 2 ^ 32) (a.toNat % 2 ^ 32)
    (BitVec.ofNat 64 r.1, r.2)

/-- The committed sector of an atomic page replaced by the home's atomic unit: one block with ATOMIC = 1 (R251, R285). None while no
block can be had (R256). DESIGN CHOICE (log 33): the spec names neither the segment nor the OWNER of these blocks; they go to the segment
that the dredge engine of a stack keeps open, owner 256 + stack, the stacks taken by grain number modulo 12. -/
def State.atomicStore (s : State) (lsec : Nat) (x : Sector) : Option State :=
  match s.stackBlock (lsec / 16 % 12) with
  | none => none
  | some (b, s) => (s.writeBlock b (lsec / 16) [(lsec % 16, x)] true false 0).setCommitted lsec (16 * b + lsec % 16)

/-- An atomic applied at its page's home: the old value, the store of the new one, and its tag kept for 64 µs; a tag
already kept returns the stored result (R285, R286). None while its store finds no block: it is then not applied yet. -/
def State.atomicHome (s : State) (core sl : Nat) (a : PAtom) (laddr : Nat) : Option (State × Elem × FSet) :=
  match s.atomTags.find? (fun t => t.lpn = laddr / 65536 && t.core = core && t.slot = sl && t.seq = a.seq && t.lane = a.lane) with
  | some t => some (s, t.old, t.flags)
  | none =>
    let lsec := laddr / 32
    let h := s.homeSector (s.lookup 0 lsec)
    let x := h.2
    let bytes := (x.bytes.drop (laddr % 32)).take a.size
    let old : Elem := { val := BitVec.ofNat 64 (leNat bytes), poison := x.poison.getLsbD (laddr % 32 / 8) }
    let r := atomicOp a.op old.val a.a a.b
    let data := BitVec.ofNat 256 (r.1.toNat % 2 ^ (8 * a.size) * 2 ^ (8 * (laddr % 32)))
    let mask := BitVec.ofNat 32 ((2 ^ a.size - 1) * 2 ^ (laddr % 32))
    let fl := if old.poison then 0 else r.2
    let keep (s : State) : State × Elem × FSet :=
      ({ s with atomTags := { lpn := laddr / 65536, core := core, slot := sl, seq := a.seq, lane := a.lane, old := old, flags := fl
                              time := s.timeNs } :: s.atomTags }, old, fl)
    if old.poison then some (keep h.1) else (h.1.atomicStore lsec (x.merge data mask 0)).map keep

end Sys2Proof.Machine
end

