-- ==== Sys2Proof/Machine/Sram.lean ====
section
/-! DEFINITION. The core's SRAM: scratchpad partitions with barrier tags and tile checksums, the operand die with its weight
slots, and error injection at those levels (R85, R124, R132, R209 to R211, R239 to R245, R260, R264). -/

namespace Sys2Proof.Machine

/-- Whether an atomic is to device memory on a page. -/
def PAtom.onPage (a : PAtom) (lpn : Nat) : Bool :=
  match a.place with
  | .mem l _ _ => l / 65536 = lpn
  | .pad _ _ => false
  | .die _ => false
  | .peer _ _ => false

/-- The tile descriptor of a group's tile (R124). -/
def Group.desc (g : Group) (t : Nat) : BitVec 8 := Tab.get g.tdesc 0 t

/-- FMT of a descriptor. -/
def descFmt (d : BitVec 8) : Nat := d.toNat % 16
/-- SCALED of a descriptor. -/
def descScaled (d : BitVec 8) : Bool := d.getLsbD 4
/-- A descriptor. -/
def mkDesc (fmt : Nat) (scaled : Bool) : BitVec 8 := BitVec.ofNat 8 (fmt % 16 + if scaled then 16 else 0)

/-- Bytes of a tile element by FMT (R124, R243). -/
def tileZ (fmt : Nat) : Nat := if fmt = 3 || fmt = 4 then 2 else if fmt = 5 || fmt = 6 then 4 else 1

/-- Bytes of a weight-slot element by FMT (R245). -/
def slotZ (fmt : Nat) : Nat := if fmt = 3 || fmt = 4 then 2 else if fmt = 5 then 4 else 1

/-- Bytes read with poisoned words reading as all ones, and whether any word is poisoned (R260). -/
def sramRead (m : Memory) (p : Tab Bool) (a n : Nat) : List Byte × Bool :=
  ((List.range n).map (fun i => if Tab.get p false ((a + i) / 8) then 0xFF#8 else m.read (a + i)),
    (wordsOf a n).any (fun w => Tab.get p false w))

/-- Poison after a write of bytes: a word written whole loses its mark (R260). -/
def sramClean (p : Tab Bool) (a n : Nat) : Tab Bool :=
  (wordsOf a n).foldl (fun p w => if a ≤ 8 * w && 8 * w + 8 ≤ a + n then Tab.set p false w false else p) p

/-- Mark words poisoned. -/
def sramMark (p : Tab Bool) (ws : List Nat) : Tab Bool := ws.foldl (fun p w => Tab.set p false w true) p

/-- Words stored as the poison pattern: data of all ones (R260). -/
def sramOnes (m : Memory) (ws : List Nat) : Memory := ws.foldl (fun m w => m.writeBytes (8 * w) (List.replicate 8 0xFF#8)) m

/-- The bytes that a write leaves in the memory: in a poisoned word of which it writes only some, the poison pattern stays (R260). -/
def sramFill (p : Tab Bool) (a : Nat) (bs : List Byte) : List Byte :=
  bs.zipIdx.map (fun e =>
    let w := (a + e.2) / 8
    if Tab.get p false w && !(decide (a ≤ 8 * w) && decide (8 * w + 8 ≤ a + bs.length)) then 0xFF#8 else e.1)

/-- Add to a 4-byte sum modulo 2^32 (R85); a poisoned sum stays as it is. -/
def addSum (p : Tab Bool) (m : Memory) (a : Nat) (d : Int) : Memory :=
  if Tab.get p false (a / 8) then m
  else m.writeBytes a (leBytes 4 (((leNat (m.readBytes a 4) : Int) + d) % 4294967296).toNat)

/-- Update a slot's checksums by delta for the elements that a write of bytes `lo` to `hi` of the slot touched (R85, R243). -/
def slotDelta (p : Tab Bool) (old new : Memory) (base z lo hi : Nat) : Memory :=
  let top := if hi < 1024 * z then hi else 1024 * z
  (List.range ((top + z - 1) / z - lo / z)).foldl (fun m i =>
    let e := lo / z + i
    let d : Int := (leNat (new.readBytes (base + e * z) z) : Int) - (leNat (old.readBytes (base + e * z) z) : Int)
    if d = 0 then m else addSum p (addSum p m (base + 4096 + 4 * (e / 32)) d) (base + 4224 + 4 * (e % 32)) d) new

/-- Bytes written into storage that is cut into slots of `size` bytes, `n` of them, with checksums updated (R243, R245, R260). -/
def slotsWrite (p : Tab Bool) (m : Memory) (base size n : Nat) (z : Nat → Nat) (off : Nat) (bs : List Byte) : Memory :=
  let m' := m.writeBytes (base + off) (sramFill p (base + off) bs)
  (List.range ((off % size + bs.length + size - 1) / size)).foldl (fun acc i =>
    let k := off / size + i
    if k < n then
      let lo := if k * size < off then off - k * size else 0
      let hi := if off + bs.length < (k + 1) * size then off + bs.length - k * size else size
      slotDelta (sramClean p (base + off) bs.length) m acc (base + k * size) (z k) lo hi
    else acc) m'

/-- Pool words of a core become poisoned (R260). -/
def Core.markPool (k : Core) (ws : List Nat) : Core := { k with pool := sramOnes k.pool ws, poolPoison := sramMark k.poolPoison ws }

/-- Operand-die words of a core become poisoned (R260). -/
def Core.markDie (k : Core) (ws : List Nat) : Core := { k with die := sramOnes k.die ws, diePoison := sramMark k.diePoison ws }

/-- A write of bytes into a group's scratchpad partition: data, poison, barrier tags and checksums (R243, R244). -/
def State.padWrite (s : State) (g off : Nat) (bs : List Byte) : State :=
  let r := s.group g
  let a := r.padBase + off
  s.modCore r.core (fun k => { k with
    pool := slotsWrite k.poolPoison k.pool r.padBase 4480 r.tiles (fun t => tileZ (descFmt (r.desc t))) off bs
    poolPoison := sramClean k.poolPoison a bs.length
    btags := (wordsOf a bs.length).foldl (fun t w => Tab.set t false w false) k.btags })

/-- Words of a partition marked poisoned. -/
def State.padMark (s : State) (g : Nat) (offs : List Nat) : State :=
  let r := s.group g
  s.modCore r.core (fun k => k.markPool (offs.map (fun o => (r.padBase + o) / 8)))

/-- Bytes of a partition and whether a word of them is poisoned. -/
def State.padRead (s : State) (g off n : Nat) : List Byte × Bool :=
  let r := s.group g
  let k := s.core r.core
  sramRead k.pool k.poolPoison (r.padBase + off) n

/-- Set the barrier tag of a word (R185, R186). -/
def State.setTag (s : State) (g off : Nat) : State :=
  let r := s.group g
  s.modCore r.core (fun k => { k with btags := Tab.set k.btags false ((r.padBase + off) / 8) true })

/-- Write an object word without touching its tag, and set the tag (R185, R332). -/
def State.padObject (s : State) (g off : Nat) (w : Nat) : State := (s.padWrite g off (leBytes 8 w)).setTag g off

/-- Whether a fibre waits on an object or ring word of its group's partition (R186, R332). -/
def Wait.onWord (w : Wait) (off : Nat) : Bool :=
  match w with
  | .barw o _ => o / 8 = off / 8
  | .ringFree o => o / 8 = off / 8 || o / 8 + 1 = off / 8
  | .ringTake o => o / 8 = off / 8 || o / 8 + 1 = off / 8
  | _ => false

/-- Whether some crew waits on a word of a group's partition. -/
def State.hasWaiter (s : State) (g off : Nat) : Bool :=
  (s.core (s.group g).core).slots.any (fun e => e.2.group = g && (List.range 32).any (fun l =>
    (e.2.fibre l).live && (e.2.fibre l).wait.onWord off))

/-- Whether a write of bytes meets a barrier-tagged word with a waiter (R244). -/
def State.tagBlocked (s : State) (g off n : Nat) : Bool :=
  let r := s.group g
  (wordsOf off n).any (fun w => Tab.get (s.core r.core).btags false (r.padBase / 8 + w) && s.hasWaiter g (8 * w))

/-- The slot descriptor of a weight slot (R211). -/
def Core.slotDesc (k : Core) (i : Nat) : Nat := leNat (k.die.readBytes (5120 * i + 4800) 8)

/-- The slot of a plane binding. -/
def Plane.slot? (p : Plane) : Option Nat :=
  match p with
  | .empty => none
  | .weights k _ _ _ _ => some k
  | .distance k _ _ _ => some k

/-- Bytes `lo` to `hi` of a weight slot as the array takes them. -/
def Core.slotImg (k : Core) (i lo hi : Nat) : SlotImg :=
  let b := 5120 * i
  { mem := (k.die.filter (fun e => decide (b + lo ≤ e.1) && decide (e.1 < b + hi))).map (fun e => (e.1 - b, e.2))
    pois := (k.diePoison.filter (fun e => decide (b + lo ≤ 8 * e.1) && decide (8 * e.1 < b + hi))).map (fun e => (e.1 - b / 8, e.2)) }

/-- The elements of a weight slot as a physical plane holds them (R209, R210). -/
def Core.slotCells (k : Core) (i : Nat) : SlotImg := k.slotImg i 0 4096

/-- Whether a weight slot is bound by a group of the core (R225). -/
def State.slotBound (s : State) (core i : Nat) : Bool :=
  s.groups.any (fun e => e.2.core = core && (e.2.active.slot? = some i || e.2.shadow.slot? = some i))

/-- A write of bytes into the operand die, with checksums (R245). -/
def State.dieWrite (s : State) (core off : Nat) (bs : List Byte) : State :=
  s.modCore core (fun k => { k with
    die := slotsWrite k.diePoison k.die 0 5120 96 (fun i => slotZ (k.slotDesc i % 16)) off bs
    diePoison := sramClean k.diePoison off bs.length })

/-- Bytes of the operand die and their poison. -/
def State.dieRead (s : State) (core off n : Nat) : List Byte × Bool :=
  let k := s.core core
  sramRead k.die k.diePoison off n

/-- A read of pool bytes. -/
def State.touchPool (s : State) (core a n : Nat) : State :=
  let b := (s.core core).injBit
  s.touch core 3 a n
    (fun s w => s.modCore core (fun k => { k with pool := flipBit k.pool w b }))
    (fun s w => s.modCore core (fun k => k.markPool [w]))

/-- A read of bytes of a group's partition. -/
def State.touchPad (s : State) (g off n : Nat) : State := s.touchPool (s.group g).core ((s.group g).padBase + off) n

/-- A read of operand-die bytes. -/
def State.touchDie (s : State) (core a n : Nat) : State :=
  let b := (s.core core).injBit
  s.touch core 4 a n
    (fun s w => s.modCore core (fun k => { k with die := flipBit k.die w b }))
    (fun s w => s.modCore core (fun k => k.markDie [w]))

/-- An atomic on a scratchpad word at its owning core: the old value and the flags; a poisoned word is not changed, and
answers poisoned (R311, R313). -/
def State.padAtomic (s : State) (g off : Nat) (a : PAtom) : State × Elem × FSet :=
  let s := s.touchPad g off a.size
  let r := s.padRead g off a.size
  let old : Elem := { val := BitVec.ofNat 64 (leNat r.1), poison := r.2 }
  if r.2 then (s, old, 0)
  else
    let x := atomicOp a.op old.val a.a a.b
    (s.padWrite g off (leBytes a.size x.1.toNat), old, x.2)

end Sys2Proof.Machine
end

