-- ==== Sys2Proof/Machine/NodeOps.lean ====
section
/-! DEFINITION. The ends of crews, groups and nodes: fault records, discarding, roll-back, failure and completion
(R16, R51 to R55, R272, R291, R326, R327, R338, R372, R373, R380, R381, R384). -/

namespace Sys2Proof.Machine

/-- What a fault record holds beside the fault itself (R372). -/
structure RecordCtx where
  exit_ : Bool := false
  state : Nat := 0
  rb : Bool := false
  handler : Bool := false
  unh : Bool := false
  ctx : Nat := 0
  stag : Nat := 0
  pc : BitVec 57 := 0
  resume : BitVec 57 := 0
  sibs : BitVec 32 := 0
  word : BitVec 32 := 0
  frag : Nat := 0
  parent : Nat := 0
  rep : Nat := 0
  core : Nat := 0
  slot : Nat := 0
  crew : Nat := 0
  rstack : List (BitVec 16) := []
  lid : Nat := 0
  count : Nat := 0
  time : Nat := 0
  deriving DecidableEq, Repr

/-- The 128 bytes of a fault record (R372). -/
def recordBytes (f : FaultInfo) (r : RecordCtx) : List Byte :=
  let b (x : Bool) (k : Nat) : Nat := if x then 2 ^ k else 0
  leBytes 8 (f.cause + f.sub * 2 ^ 8 + b f.other 16 + b f.impr 17 + b r.exit_ 18 + r.state * 2 ^ 19 + b r.rb 21 + b r.handler 23
      + b r.unh 24 + r.ctx * 2 ^ 32 + r.stag * 2 ^ 48)
    ++ leBytes 8 r.pc.toNat ++ leBytes 8 r.resume.toNat ++ leBytes 8 (f.lanes.toNat + r.sibs.toNat * 2 ^ 32) ++ leBytes 8 f.addr
    ++ leBytes 8 (r.word.toNat + r.frag * 2 ^ 32 + r.parent * 2 ^ 37 + r.rep * 2 ^ 42 + f.cv * 2 ^ 48)
    ++ leBytes 8 (r.core + r.slot % 32 * 2 ^ 11 + r.crew * 2 ^ 16 + (r.rstack.headD 0).toNat * 2 ^ 20
      + ((r.rstack.drop 1).headD 0).toNat * 2 ^ 36 + r.rstack.length * 2 ^ 52)
    ++ leBytes 8 f.detail ++ leBytes 8 (r.lid % 2 ^ 38) ++ leBytes 8 f.regaddr ++ leBytes 8 r.count ++ leBytes 8 r.time
    ++ List.replicate 32 0

/-- Where a fault stands: the fields of a record that the crew and its node give. -/
def State.recordCtx (s : State) (core sl : Nat) : RecordCtx :=
  let w := s.crew core sl
  let n := s.node (s.crewLid core sl)
  { ctx := n.ctx, stag := n.stag, handler := w.sys, core := core, slot := sl, crew := w.no, rstack := w.rstack, lid := n.lid, time := s.timeNs }

/-- An event of a node: the first fills its record, each later one only counts (R380). -/
def State.nodeEvent (s : State) (lid : Nat) (f : FaultInfo) (r : RecordCtx) : State :=
  let n := s.node lid
  let cnt := if n.count < 65535 then n.count + 1 else n.count
  let s := s.modNode lid (fun n => { n with count := cnt })
  if n.nfr = 0 || !s.devRange n.ctx n.nfr 128 then s
  else if n.count = 0 then
    s.devWrite n.ctx n.nfr (recordBytes f { r with ctx := n.ctx, stag := n.stag, lid := lid, count := 1, state := 0, time := s.timeNs })
  else s.devWrite n.ctx (n.nfr + 0x50) (leBytes 2 cnt)

/-- The place of a launch-queue entry: location, context and address (R322). -/
def State.entryAddr (s : State) (lid : Nat) : Bool × Nat × Nat :=
  let q : LQueue := Tab.get s.lqs {} (lid / 2 ^ 32)
  (q.loc, q.ctx, q.base + 256 * (lid % 2 ^ 32 % 2 ^ q.log2n))

/-- HEAD advances over the completed entries (R325). Fuel: the entries looked at. -/
def State.advanceHead (s : State) (q : Nat) : Nat → State
  | 0 => s
  | n + 1 =>
    let d : LQueue := Tab.get s.lqs {} q
    if d.head ≠ d.tail && (s.node (q * 2 ^ 32 + d.head)).phase == .completed && (Tab.find s.nodes (q * 2 ^ 32 + d.head)).isSome then
      State.advanceHead { s with lqs := Tab.set s.lqs {} q { d with head := (d.head + 1) % 2 ^ 32 } } q n
    else s

/-- Whether a queue has taken the doorbell for an entry. -/
def State.submitted (s : State) (lid : Nat) : Bool :=
  let d : LQueue := Tab.get s.lqs {} (lid / 2 ^ 32)
  decide ((lid % 2 ^ 32 + 2 ^ 32 - d.head) % 2 ^ 32 < (d.tail + 2 ^ 32 - d.head) % 2 ^ 32)

/-- Write STATUS and ROLLS into the node's entry and send its completion record on its way (R323, R326, R342). -/
def State.reportNode (s : State) (lid status : Nat) : State :=
  let n := s.node lid
  let q : LQueue := Tab.get s.lqs {} (lid / 2 ^ 32)
  let a := s.entryAddr lid
  let s := s.queueWrite a.1 a.2.1 (a.2.2 + 0xA8) (leBytes 8 (status + n.rolls * 256))
  let s := s.modNode lid (fun n => { n with status := status, phase := .retired })
  { s with evout := s.evout ++ [{ queue := q.evq, kind := 1, status := status, ctx := n.ctx, data := lid, info := n.rolls, node := some lid }] }

/-- The successors of a node as its entry names them (R323). -/
def succsOf (hdr : List Byte) : List Nat :=
  let n := min 4 (leNat ((hdr.drop 0x80).take 8) / 2 ^ 16 % 8)
  (List.range n).map (fun j =>
    let w := leNat ((hdr.drop (0x88 + 8 * j)).take 8)
    w % 64 * 2 ^ 32 + w / 256 % 2 ^ 32)

/-- More than the successors that the entries of all launch queues can name, one after another (R327). -/
def State.skipFuel (s : State) : Nat := 16 * (s.lqs.map (fun q => 2 ^ q.2.log2n)).sum + 64

/-- Skip successors in turn: status 4 and a completion record at once (R327). Fuel bounds the chain. -/
def State.skipSuccs (s : State) : Nat → List Nat → State
  | 0, _ => s
  | _, [] => s
  | k + 1, l :: ls =>
    let n := s.node l
    if (Tab.find s.nodes l).isSome && (n.phase == .completed || n.phase == .retired || n.phase == .running || n.phase == .publishing) then
      State.skipSuccs s k ls
    else
      let a := s.entryAddr l
      let e := s.queueRead a.1 a.2.1 a.2.2 256
      let q : LQueue := Tab.get s.lqs {} (l / 2 ^ 32)
      let s := { s with nodes := Tab.put s.nodes l { lid := l, ctx := q.ctx, phase := .waiting, nfr := 0, early := !s.submitted l } }
      let s := s.reportNode l 4
      State.skipSuccs s k (ls ++ succsOf e)

/-- Decrement DEPCNT in each successor, one indivisible step each (R324, R326). -/
def State.decrementSuccs (s : State) (ls : List Nat) : State :=
  s.each ls (fun s l =>
    let a := s.entryAddr l
    let w := leNat (s.queueRead a.1 a.2.1 (a.2.2 + 0x80) 8)
    let d := w % 65536
    s.queueWrite a.1 a.2.1 (a.2.2 + 0x80) (leBytes 2 (if d = 0 then 0 else d - 1)))

/-- What a failing crew or node leaves behind: its undelivered failures go to the node's record (R320, R338). -/
def State.flushFailures (s : State) (core sl : Nat) (exited : Bool) : State :=
  let w := s.crew core sl
  let lid := s.crewLid core sl
  let fs := w.impr ++ w.batches.filterMap (fun b => match b.fail with
    | some f => if b.delivered then none else some { f.2 with impr := true }
    | none => none)
  let s := s.each fs (fun s f => s.nodeEvent lid { f with impr := true } { s.recordCtx core sl with exit_ := exited })
  if fs.isEmpty then s else s.modNode lid (fun n => { n with imprecise := true })

/-- The addresses of a copy that may lie in the cluster window (R335, R339); those of a tile's rows stand in its record. -/
def CopyKind.addrs (k : CopyKind) : List Nat :=
  match k with
  | .cpy src dst _ _ _ => [src, dst]
  | .cpyq _ _ _ _ _ => []
  | .cpyt _ _ _ _ _ => []
  | .rget _ _ dst _ => [dst]
  | .ship _ _ => []

/-- Whether a copy reads a tensor shape record, which says where its data lies (R335). -/
def CopyKind.hasRec (k : CopyKind) : Bool :=
  match k with
  | .cpyq _ _ _ _ _ => true
  | .cpyt _ _ _ _ _ => true
  | .cpy _ _ _ _ _ => false
  | .rget _ _ _ _ => false
  | .ship _ _ => false

/-- Whether a copy of a core reads or writes a group's partition, or is the group's own: a gang-mate's reaches it through the cluster
window (R240, R338). One that has not yet read its record may reach every partition of the gang in the cluster: log 33. -/
def State.copyTouches (s : State) (core : Nat) (x : Copy) (g : Nat) : Bool :=
  let r := s.group g
  let y := s.group x.group
  x.group = g || (clusterOf core = clusterOf r.core && y.node = r.node && y.gang = r.gang
    && ((x.kind.hasRec && !x.started) || (x.kind.addrs ++ x.touch).any (fun a =>
      match regionOf a with
      | .cluster k _ => k = r.core % 8
      | _ => false)))

/-- The storage of a group's partition is freed with the group; copies that use it hold it (R338). -/
def State.groupBusy (s : State) (g : Nat) : Bool := s.cores.any (fun k => k.2.copies.any (fun x => s.copyTouches k.1 x g))

/-- A group ends: everything it held is free (R33, R135). -/
def State.endGroup (s : State) (g : Nat) : State :=
  let lid := (s.group g).node
  let s := { s with groups := Tab.erase s.groups g }
  s.modNode lid (fun n => { n with ended := n.ended + 1, left := n.left - 1 })

/-- What becomes of a remote scratchpad access when it arrives (R319): its target group has ended, or a tagged word has
waiters. -/
def State.padRefusal (s : State) (g off n : Nat) : Option Nat :=
  if (Tab.find s.groups g).isNone then some 9 else if s.tagBlocked g off n then some 8 else none

/-- Apply the atomics that a crew leaves behind at its end: their requests had been sent, and nothing undoes them (R55, R311). One whose
home moves or finds no block for it is applied later, and so is each later one of the crew to that page. A refusal is recorded with the
exited flag (R320). -/
def State.applyLeft (s : State) (core sl : Nat) : State :=
  s.each (s.crew core sl).atoms (fun s a =>
    if a.answer.isSome then s
    else match a.place with
      | .mem l _ _ =>
        let lid := s.crewLid core sl
        let later : State := { s with orphans := s.orphans ++ [{ core := core, slot := sl, lid := lid, atom := { a with moved := false } }] }
        if s.moving (l / 32) || s.orphans.any (fun o => o.core = core && o.slot = sl && o.lid = lid && o.atom.onPage (l / 65536)) then later
        else match s.atomicHome core sl a l with
          | some r => r.1
          | none => later
      | .pad g off =>
        match s.padRefusal g off a.size with
        | none => (s.padAtomic g off a).1
        | some sub =>
          let lid := s.crewLid core sl
          (s.nodeEvent lid { cause := 2, sub := sub, impr := true, addr := a.addr, regaddr := a.regaddr }
            { s.recordCtx core sl with exit_ := true }).modNode lid (fun n => { n with imprecise := true })
      | .die _ => s
      | .peer _ _ => s)

/-- The PROG increments a crew leaves behind are applied (R405). -/
def State.applyProgs (s : State) (core sl : Nat) : State :=
  s.each (s.crew core sl).progs (fun s p =>
    s.modCtx (s.crewCtx core sl) (fun c => { c with prog := Tab.set c.prog 0 p.1 (Tab.get c.prog 0 p.1 + p.2) }))

/-- The slot number under which the requests of an ended crew go on: no crew stands there, and the slot is still told. -/
def endedSlot (sl : Nat) : Nat := sl + 64

/-- The sequence number with which the atomics of a new crew of a slot begin, so that none repeats a tag that a home keeps or will keep
(R286). -/
def State.firstSeq (s : State) (core sl : Nat) : Nat :=
  match (s.orphans.filter (fun o => o.core = core && o.slot = sl)).getLast? with
  | some o => (o.atom.seq + 1) % 65536
  | none => match s.atomTags.find? (fun t => t.core = core && t.slot = sl) with
    | some t => (t.seq + 1) % 65536
    | none => 0

/-- Take a crew out of its slot: the lease row, its storage and its requests to the allocator are gone (R16, R358), and what it
has on its way counts for no crew. -/
def State.removeCrew (s : State) (core sl : Nat) : State :=
  let w := s.crew core sl
  let s := s.modGroup w.group (fun g => if sl < 32 then { g with retg := g.retg + w.reti } else g)
  let s := { s with
    peerOut := mapIf (fun r => r.core = core && r.slot = sl) (fun r => { r with slot := endedSlot sl }) s.peerOut
    evout := mapIf (fun e => e.crew = some (core, sl)) (fun e => { e with crew := some (core, endedSlot sl) }) s.evout }
  s.modCore core (fun k => { k with
    slots := Tab.erase k.slots sl
    stq := mapIf (fun q => q.slot = sl) (fun q => { q with slot := endedSlot sl }) k.stq
    remq := mapIf (fun r => r.slot = sl) (fun r => { r with slot := endedSlot sl }) k.remq
    grows := k.grows.filter (fun r => r.slot ≠ sl)
    sfu := k.sfu.filter (fun r => r.slot ≠ sl)
    arr := k.arr.filter (fun r => r.slot ≠ sl)
    traps := k.traps.filter (fun r => r.slot ≠ sl) })

/-- A crew ends by itself (R16): what it sent stands, what it failed at is recorded. -/
def State.endCrew (s : State) (core sl : Nat) : State :=
  let g := (s.crew core sl).group
  let s := ((s.applyLeft core sl).applyProgs core sl).flushFailures core sl true
  let s := s.removeCrew core sl
  if sl < 32 && (s.groupSlots g).isEmpty && !s.groupBusy g then s.endGroup g else s

/-- What a node has stored under tag 0 and no commit covers, cluster by cluster: sectors on the way to the appender, in its buffers, and
among its pending updates. A sector that holds another node's stores too is one of them: its version is one (R268, R272; log 35). -/
def State.lostSectors (s : State) (lid k : Nat) : List Nat :=
  let c := s.cluster k
  ((List.range 8).flatMap (fun i => ((s.core (8 * k + i)).stq.filter (fun q => q.tag = 0 && q.crewLid = lid)).map StoreReq.lsec)
    ++ (c.gather.filter (fun g => g.tag = 0)).flatMap (fun g => (g.srcs.filter (fun e => e.2.any (fun x => x.lid = lid))).map (fun e => 16 * g.grain + e.1))
    ++ (c.pend.filter (fun u => u.tag = 0 && u.srcs.any (fun x => x.lid = lid))).map Update.lsec).eraseDups

/-- A gather entry without the sectors that a node stored under tag 0. -/
def GatherEntry.without (g : GatherEntry) (lid : Nat) : GatherEntry :=
  let gone (i : Nat) : Bool := g.tag = 0 && (g.of i).any (fun x => x.lid = lid)
  { g with sectors := g.sectors.filter (fun e => !gone e.1), srcs := g.srcs.filter (fun e => !gone e.1) }

/-- Discard what an unstaged node has stored and no commit covers (R272): the claims of it close (R282), and copies of it in L1 go. -/
def State.discardOpen (s : State) (lid : Nat) : State :=
  let lost := s.clusters.map (fun c => (c.1, s.lostSectors lid c.1))
  let s := s.modCores (fun c => { c with stq := c.stq.filter (fun q => !(q.tag = 0 && q.crewLid = lid)) })
  let s := s.modClusters (fun c => { c with gather := (c.gather.map (fun g => g.without lid)).filter (fun g => !g.sectors.isEmpty) })
  let s := s.loseUpdates (fun u => u.tag = 0 && u.srcs.any (fun x => x.lid = lid))
  s.each lost (fun s e =>
    let s := s.each (List.range 8) (fun s i => s.each e.2 (fun s l => s.rebuildL1 (8 * e.1 + i) l 0))
    let s := { s with homeClaims := s.homeClaims.filter (fun c =>
      !(c.cluster = e.1 && c.tag = 0 && e.2.any (fun l => l / 16 = c.grain) && !s.grainOpen e.1 c.grain 0)) }
    s.refreshClaims e.1)

/-- Discard every update of a staging tag (R291): gather entries unwritten, pending ones dropped, its claims closed, and the copies that
only its crews could use. -/
def State.discardTag (s : State) (lid t : Nat) : State :=
  let s := s.modCores (fun c => { c with stq := c.stq.filter (fun q => q.tag ≠ t), l1 := c.l1.filter (fun x => x.tag ≠ t) })
  let s := s.modClusters (fun c => { c with
    gather := c.gather.filter (fun g => g.tag ≠ t)
    ixlb := c.ixlb.filter (fun e => e.tag ≠ t) })
  let s := s.loseUpdates (fun u => u.tag = t)
  { s with
    stagingT := Tab.set s.stagingT .free t (.discarded lid)
    homeClaims := s.homeClaims.filter (fun c => c.tag ≠ t) }

/-- Discard the updates of a node that no commit covers, and its stores on the way (R272, R291). -/
def State.discardUpdates (s : State) (lid : Nat) : State :=
  let t := (s.node lid).stag
  if t = 0 then s.discardOpen lid else s.discardTag lid t

/-- End every crew of a node, resident, stopped, halted or saved, and free its storage (R54, R384, R409). The atomics that it has sent
are applied (R55); what it asked of claims, copies and handlers is gone. -/
def State.killCrews (s : State) (lid : Nat) : State :=
  let gs := s.nodeGroups lid
  let t := (s.node lid).stag
  let s := s.each gs (fun s g =>
    let c := (s.group g).core
    let sls := ((s.core c).slots.filter (fun e => e.2.group = g)).map Prod.fst
    let s := s.each sls (fun s sl => ((s.applyLeft c sl).applyProgs c sl).removeCrew c sl)
    let s := s.modCore c (fun k => { k with
      copies := k.copies.filter (fun x => x.group ≠ g)
      handlers := k.handlers.filter (fun h => h.group ≠ g)
      remq := k.remq.filter (fun r => r.lid ≠ lid) })
    let s := s.modCluster (clusterOf c) (fun q => { q with
      claims := q.claims.filter (fun r => !(r.core = c && r.tag = t && (sls.contains r.slot || r.slot = engineSlot))) })
    { s with groups := Tab.erase s.groups g })
  let s := { s with
    pending := s.pending.filter (fun p => p.lid ≠ lid)
    savedGroups := s.savedGroups.filter (fun q => q.lid ≠ lid) }
  s.modClusters (fun c => { c with
    rels := c.rels.filter (fun r => !(t ≠ 0 && r.tag = t)) })

/-- A node fails or is killed: its crews end, what no commit covers is discarded, its claims close, and it completes with
the status, its successors skipped (R54, R327, R384, R409). -/
def State.failNode (s : State) (lid status : Nat) : State :=
  let n := s.node lid
  let s := (s.killCrews lid).discardUpdates lid
  let s := s.reportNode lid status
  s.skipSuccs s.skipFuel n.succs

/-- Put a dispatched node back among the ready ones: its crews end, its updates are discarded, its storage is free (R54, R395). -/
def State.requeue (s : State) (lid : Nat) : State :=
  ((s.killCrews lid).discardUpdates lid).modNode lid (fun n => { n with phase := .ready n.readySince, stag := 0, ended := 0, left := 0 })

/-- Roll a node back (R54, R381): a staged node is queued again, at most four times; the fifth fails it, and a node whose
staging flag is clear fails at once. DESIGN CHOICE (log 33): R54 does not say whether the roll-back that fails an unstaged node counts
in ROLLS; here it does not, and ROLLS stays 0. -/
def State.rollBack (s : State) (lid : Nat) (f : FaultInfo) (r : RecordCtx) : State :=
  let s := s.nodeEvent lid f { r with rb := true }
  let n := s.node lid
  let rolls := if n.rolls < 5 then n.rolls + 1 else 5
  if n.stag = 0 then s.failNode lid 2
  else
    let s := s.modNode lid (fun n => { n with rolls := rolls })
    if 5 ≤ rolls then s.failNode lid 2
    else
      let s := s.requeue lid
      let a := s.entryAddr lid
      s.queueWrite a.1 a.2.1 (a.2.2 + 0xA9) (leBytes 1 rolls)

end Sys2Proof.Machine
end

