-- ==== Sys2Proof/Machine/Ops.lean ====
section
/-! DEFINITION. The shared operations of an issue: fragments and guards, retirement and latches, rewinds, waits, and
taking an exception (R10, R20, R21, R38 to R45, R98, R299, R371, R374, R375, R402). -/

namespace Sys2Proof.Machine

/-- Add to the crew's event counters that count a code (R403). -/
def Crew.countEv (w : Crew) (code n : Nat) : Crew :=
  { w with ev := (List.range 4).foldl (fun t i => if Tab.get w.evSel 0 i = code then Tab.set t 0 i ((Tab.get t 0 i + n) % 2 ^ 64) else t) w.ev }

/-- The value of a predicate of a fibre; p0 reads as 1 (R17). -/
def Fibre.pred (f : Fibre) (n : Nat) : Bool := n = 0 || f.preds.getLsbD n

/-- The lanes of a mask whose guard is true (R93). -/
def Crew.active (w : Crew) (m : BitVec 32) (g : BitVec 3) : BitVec 32 :=
  m &&& w.lanesWhere (fun f => f.live && f.pred g.toNat)

/-- A write of a predicate; one to p0 is ignored, any other rewrites the word and clears its poison (R17, R133). -/
def Fibre.setPred (f : Fibre) (n : Nat) (b : Bool) : Fibre :=
  if n = 0 then f
  else { f with
    preds := ((f.preds &&& ~~~(BitVec.ofNat 16 (2 ^ n))) ||| (if b then BitVec.ofNat 16 (2 ^ n) else 0)) ||| 1
    predPoison := false }

/-- The latches of a fibre become invalid (R39). -/
def Fibre.noLatch (f : Fibre) : Fibre := { f with l0 := none, l1 := none, l2 := none, l3 := none, lbad := 0 }

/-- A latch result enters l0 and the others shift down (R39). -/
def Fibre.push (f : Fibre) (x : Word) : Fibre :=
  { f with l0 := some x, l1 := f.l0, l2 := f.l1, l3 := f.l2, lbad := f.lbad <<< 1 }

/-- The live lanes whose fibres some fibre of a mask spawned after its restart point (R20). -/
def Crew.children (w : Crew) (m : BitVec 32) : BitVec 32 :=
  w.lanesWhere (fun f => f.live && (match f.spawner with
    | some p => m.getLsbD p.toNat
    | none => false))

/-- A mask with what its fibres spawned after their restart points, transitively (R20). Fuel: the 32 lanes. -/
def Crew.family (w : Crew) : Nat → BitVec 32 → BitVec 32
  | 0, m => m
  | n + 1, m => Crew.family w n (m ||| w.children m)

/-- The lanes that a rewind of a mask ends (R20): a spawned fibre ends though it stands in the mask itself. -/
def Crew.spawnedBy (w : Crew) (m : BitVec 32) : BitVec 32 := w.children (w.family 32 m)

/-- Whether a pending load is a uniform one (R301). -/
def PLoad.isUniform (p : PLoad) : Bool :=
  match p.kind with
  | .plain _ _ => false
  | .quad => false
  | .uniform _ => true
  | .acquire _ => false
  | .nocache => false

/-- A pending load after a rewind of some lanes: what they issued since their restart points last advanced is discarded (R321). -/
def PLoad.rewound (p : PLoad) (m : BitVec 32) : PLoad :=
  let gone := m &&& ~~~p.past
  if p.isUniform then (if p.by_ &&& ~~~gone = 0 then { p with lanes := [] } else p)
  else { p with lanes := p.lanes.filter (fun e => !gone.getLsbD e.lane) }

/-- The pending loads of a crew after a rewind of some lanes. -/
def Crew.dropLoads (w : Crew) (m : BitVec 32) : Crew :=
  { w with loads := (w.loads.map (fun l => l.rewound m)).filter (fun l => !l.lanes.isEmpty) }

/-- A pending load once the restart points of some lanes have advanced, or their fibres have exited: no rewind of the lanes discards
it (R321). -/
def PLoad.passed (p : PLoad) (m : BitVec 32) : PLoad := { p with past := p.past ||| (m &&& p.by_) }

/-- The open prefix unit of a crew once some lanes leave it: it is closed, unless it is one of other lanes (R103). -/
def Crew.unitApart (w : Crew) (m : BitVec 32) : Option PfxUnit :=
  match w.unit with
  | some u => if u.lanes &&& m = 0 then some u else none
  | none => none

/-- A fibre that a fibre of a mask spawned is no longer one that its rewind would end (R20). -/
def Fibre.settled (f : Fibre) (m : BitVec 32) : Fibre :=
  match f.spawner with
  | some p => if m.getLsbD p.toNat then { f with spawner := none } else f
  | none => f

/-- The fibres that the fibres of a mask spawned stand on their own from now on (R20). -/
def Crew.settle (w : Crew) (m : BitVec 32) : Crew := { w with fibres := Tab.mapVals {} (fun f : Fibre => f.settled m) w.fibres }

/-- The nearest spawner of a fibre outside a mask, its restart point not yet past the spawn (R20). Fuel: the 32 lanes. -/
def Crew.ancestor (w : Crew) (m : BitVec 32) : Nat → Nat → Option Nat
  | 0, _ => none
  | n + 1, l => match (w.fibre l).spawner with
    | none => none
    | some p => if m.getLsbD p.toNat then Crew.ancestor w m n p.toNat else some p.toNat

/-- Some lanes exit: their retirements stay to be taken back with those of the fibre that a rewind would end them with (R20, R402). -/
def Crew.credit (w : Crew) (m : BitVec 32) : Crew :=
  (lanesOf m).foldl (fun x l => match w.ancestor m 32 l with
    | some p => x.modFibre p (fun f => { f with since := f.since + (w.fibre l).life, life := f.life + (w.fibre l).life })
    | none => x) w

/-- Lanes exit: their slots, the pending SYNCM mask, the participation sets of the crew's registers, and the traps that still wait
for a record slot (R16, R25, R32, R374). What the lanes spawned stands on its own; loads on their way arrive in the registers
that they were issued for. -/
def State.exitLanes (s : State) (core sl : Nat) (m : BitVec 32) : State :=
  let w := (s.crew core sl).credit m
  let s := s.setCrew core sl
    { ((w.modLanes m (fun _ f => { f.noLatch with st := .exited, wait := .none, pfx := {}, rep := 0, spawner := none })).settle m) with
      sync := match w.sync with
        | some y => some { y with mask := y.mask &&& ~~~m }
        | none => none
      unit := match w.unit with
        | some u => if u.lanes &&& ~~~m = 0 then none else some { u with lanes := u.lanes &&& ~~~m }
        | none => none
      loads := w.loads.map (fun p => p.passed m) }
  let s := if (s.core core).traps.any (fun t => t.slot = sl) || (s.core core).sfu.any (fun q => q.slot = sl) then
    s.modCore core (fun k => { k with
      traps := (mapIf (fun t : TrapReq => t.slot = sl) (fun t => { t with lanes := t.lanes &&& ~~~m }) k.traps).filter (fun t => t.lanes ≠ 0)
      sfu := mapIf (fun q : SfuOp => q.slot = sl) (fun q => { q with lanes := q.lanes &&& ~~~m }) k.sfu })
    else s
  if sl < 32 then
    s.modGroup w.group (fun g => { g with cvs := Tab.mapVals {} (fun r : CvReg =>
      if r.owned && r.owner = w.no then { r with set := r.set &&& ~~~m, signed_ := r.signed_ &&& ~~~m } else r) g.cvs })
  else s

/-- Whether a fibre is suspended for a trap (R375). -/
def Wait.isTrap (x : Wait) : Bool := x = .suspended || x = .recordSlot

/-- Rewind the fibres of a mask (R44): the fibres they spawned end, the PC goes after the restart point, the latches and
the loads issued since are gone, the signatures they gave and their pending grows are removed (R217, R191), and RETI is taken back,
that of the fibres that end with it (R402). A suspended fibre stays suspended (R375). An open prefix unit of a rewound fibre is gone; one
of other fibres stays (R103). -/
def State.rewind (s : State) (core sl : Nat) (all : BitVec 32) (retry : Bool) : State :=
  let kids := (s.crew core sl).spawnedBy all
  let m := all &&& ~~~kids
  let s := s.modCrew core sl (fun w => w.dropLoads (all ||| kids))
  let s := if kids = 0 then s else s.exitLanes core sl kids
  let s := if (s.core core).grows.any (fun r => r.slot = sl && r.lanes &&& all ≠ 0) then
    s.modCore core (fun k => { k with grows := k.grows.filter (fun r => !(r.slot = sl && r.lanes &&& all ≠ 0)) }) else s
  let w := s.crew core sl
  let lost := ((lanesOf m).map (fun l => (w.fibre l).since)).sum
  let w := w.modLanes m (fun _ f => { f.noLatch with
    pc := f.restart + 4, rep := 0, pfx := {}, word := 0, wait := if f.wait.isTrap then f.wait else .none, since := 0, readyAt := w.units
    retry := f.retry || retry })
  let w := { (w.countEv 6 1) with
    reti := w.reti - lost
    unit := w.unitApart all }
  let s := s.setCrew core sl w
  if sl < 32 then
    s.modGroup w.group (fun g => { g with cvs := Tab.mapVals {} (fun r : CvReg =>
      if r.owned && r.owner = w.no then { r with signed_ := r.signed_ &&& ~~~m } else r) g.cvs })
  else s

/-- What an instruction leaves for its retirement: branch targets, latch results, and its kind (R38, R42, R98). -/
structure Done where
  pcs : List (Nat × BitVec 57) := []
  latch : List (Nat × Word) := []
  swap : Bool := false
  restart : Bool := false
  deriving DecidableEq, Repr

/-- Repetitions of the instruction in hand (R107). -/
def Pfx.count (p : Pfx) : Nat := match p.rep with
  | some o => o.n.toNat + 1
  | none => 1

/-- Whether the repetition in hand is the last (R107). -/
def Cur.last (c : Cur) : Bool := decide (c.pfx.count ≤ c.rep + 1)

/-- Where a lane goes on: at its branch target, else after the instruction, or at it again for the next repetition (R98, R107). -/
def Cur.target (c : Cur) (r : Done) (l : Nat) : BitVec 57 :=
  match r.pcs.find? (fun e => e.1 = l) with
  | some e => e.2
  | none => if c.last then c.pc + 4 else c.pc

/-- Whether the fibres of a fragment go different ways (R24). -/
def Cur.splits (c : Cur) (r : Done) : Bool := decide (2 ≤ ((lanesOf c.lanes).map (c.target r)).eraseDups.length)

/-- A fibre whose fragment retires an instruction: latch, PC, repeat index, restart point (R17, R24, R39, R42, R107); it is ready
from now on, by the crew's count of issue units (R23). -/
def Fibre.retired (f : Fibre) (c : Cur) (r : Done) (units l : Nat) : Fibre :=
  let f := match r.latch.find? (fun e => e.1 = l) with
    | some e => f.push e.2
    | none => f
  let f := if r.swap then f.noLatch else f
  { f with
    pc := c.target r l
    rep := if c.last then 0 else c.rep + 1
    pfx := if c.last then {} else c.pfx
    word := if c.last then 0 else c.word
    wait := .none
    readyAt := units
    restart := if r.restart then c.pc else f.restart
    retry := f.retry && !r.restart
    since := if r.restart then 0 else f.since + 1
    life := f.life + 1
    parent := if c.splits r then BitVec.ofNat 5 (lowestLane c.lanes) else f.parent }

/-- A crew whose fragment retires the instruction in hand (R42, R402, R406). -/
def Crew.retired (w : Crew) (c : Cur) (r : Done) : Crew :=
  let x := w.modLanes c.lanes (fun l f => f.retired c r w.units l)
  let x := if r.restart then { (x.settle c.lanes) with loads := w.loads.map (fun p => p.passed c.lanes) } else x
  { x with reti := w.reti + popMask c.lanes, wdog := 0, unit := w.unitApart c.lanes, lastPc := c.pc }

/-- Retire the instruction in hand for its fragment: PCs, repeat index, latches, restart points, RETI and the watchdog
(R17, R24, R39, R42, R107, R402, R406). -/
def State.retire (s : State) (c : Cur) (r : Done) : State := s.modCrew c.core c.slot (fun w => w.retired c r)

/-- Whether a wait comes before its instruction issues, so that an open prefix unit stays open (R103, R146, R161). -/
def Wait.beforeIssue (x : Wait) : Bool :=
  match x with
  | .operands _ => true
  | .sfuFull => true
  | .flags => true
  | _ => false

/-- The fragment waits: it keeps its word and prefix, and is not ready until the wait ends (R36, R56). A wait for operands, for flags or
for a place in the special-function queue falls inside the prefix unit, which stays the crew's only fragment (R103). -/
def State.hold (s : State) (c : Cur) (wt : Wait) : State :=
  s.modCrew c.core c.slot (fun w => { (w.modLanes c.lanes (fun _ f => { f with wait := wt, word := c.word, pfx := c.pfx })) with
    unit := if wt.beforeIssue then w.unit else w.unitApart c.lanes })

/-- The level that a PRIO of the unit gives; 0 without one (R110). -/
def Pfx.level (p : Pfx) : Nat := match p.prio with
  | some x => x.toNat
  | none => 0

/-- Sibling mask of a fragment: the crew's other live fibres with the parent id of its lowest fibre (R24). -/
def Crew.sibs (w : Crew) (m : BitVec 32) : BitVec 32 :=
  let p := (w.fibre (lowestLane m)).parent
  w.lanesWhere (fun f => f.live && f.parent == p) &&& ~~~m

/-- The lane number of a fragment id in a record: visible in tandem mode (R379). -/
def Crew.fragId (w : Crew) (m : BitVec 32) : Nat := w.visible (lowestLane m)

/-- The convergence register that a group-13 instruction names; 0 for every other (R372). -/
def Cur.cvNo (c : Cur) : Nat := if c.word.extractLsb' 0 4 = 13#4 then (c.word.extractLsb' 12 3).toNat else 0

/-- What a node record of a fault of the fragment in hand holds (R372, R379). -/
def State.faultCtx (s : State) (c : Cur) : RecordCtx :=
  let w := s.crew c.core c.slot
  { s.recordCtx c.core c.slot with
    pc := c.pc, word := c.word, rep := c.rep, frag := w.fragId c.lanes, parent := (w.fibre (lowestLane c.lanes)).parent.toNat
    sibs := w.visMask (w.sibs c.lanes) }

/-- An event that fails the trapping fragment's node (R377). -/
def State.failTrap (s : State) (core sl : Nat) (f : FaultInfo) (r : RecordCtx) : State :=
  let lid := s.crewLid core sl
  (s.nodeEvent lid f { r with rb := true }).failNode lid 2

/-- The place of the next fault record of a context and its index; none when the queue cannot be used, a wait when its
slot still holds a suspended fragment's record (R374, R377). -/
inductive RecordSlot where
  | bad
  | full
  | at_ (addr index : Nat)
  deriving DecidableEq, Repr

/-- Whether the reserved bits of a fault-record queue's header are 0 and its LOG2N is valid (R374). -/
def headerOk (hdr : List Byte) : Bool :=
  decide (leNat (hdr.take 8) ≤ 12) && leNat ((hdr.drop 12).take 4) = 0 && leNat ((hdr.drop 16).take 48) = 0

/-- The device's reads of the header and of the next slot of a context's fault-record queue (R132, R374). -/
def State.touchRecord (s : State) (ctx : Nat) : State :=
  let base := (s.ctx ctx).frptr.toNat
  let s := s.devTouch ctx base 64
  match s.devRead ctx base 64 with
  | none => s
  | some hdr => s.devTouch ctx (base + 64 + 128 * (leNat ((hdr.drop 8).take 4) % 2 ^ leNat (hdr.take 8))) 128

/-- Find the next record slot of a context's fault-record queue (R374). -/
def State.recordSlot (s : State) (ctx : Nat) : RecordSlot :=
  let x := s.ctx ctx
  let base := x.frptr.toNat
  if x.tvec = 0 || x.frptr = 0 then .bad
  else match s.devRead ctx base 64 with
    | none => .bad
    | some hdr =>
      let w0 := leNat (hdr.take 8)
      let tail := leNat ((hdr.drop 8).take 4)
      if !headerOk hdr then .bad
      else
        let i := tail % 2 ^ w0
        let a := base + 64 + 128 * i
        match s.devRead ctx a 128 with
        | none => .bad
        | some old =>
          if leNat (old.take 8) / 2 ^ 19 % 4 = 1 then .full
          else if s.devRange ctx a 128 && s.devRange ctx base 64 then .at_ a tail else .bad

/-- Remove the copies of a record's sectors before its handler starts (R378). -/
def State.dropRecord (s : State) (core ctx a : Nat) : State :=
  s.each (List.range 4) (fun s i => match s.xlate ctx (a + 32 * i) with
    | none => s
    | some x =>
      let s := s.modCluster (clusterOf core) (fun c => { c with ixlb := c.ixlb.filter (fun e => e.grain ≠ x.laddr / 512) })
      s.modCore core (fun k => { k with l1 := k.l1.filter (fun e => e.lsec ≠ x.laddr / 32) }))

/-- Write the record of a trap and queue its handler, or leave the trap waiting for its slot (R374, R375). -/
def State.writeTrap (s : State) (core : Nat) (t : TrapReq) : State :=
  let ctx := s.crewCtx core t.slot
  let s := s.touchRecord ctx
  let w := s.crew core t.slot
  let resume := (w.fibre (lowestLane t.lanes)).restart + 4
  let r := { s.recordCtx core t.slot with
    pc := t.pc, word := t.word, rep := t.rep, parent := t.parent.toNat, sibs := w.visMask t.sibs, frag := w.visible t.frag
    resume := resume, state := 1 }
  let f := { t.info with lanes := w.visMask t.info.lanes }
  match s.recordSlot ctx with
  | .bad => s.failTrap core t.slot f { r with unh := true, state := 0 }
  | .full =>
    let s := s.modCrew core t.slot (fun w => w.modLanes t.lanes (fun _ f => { f with wait := .recordSlot }))
    s.modCore core (fun k => { k with traps := k.traps ++ [t] })
  | .at_ a i =>
    let s := s.devWrite ctx a (recordBytes f r)
    let s := s.devWrite ctx ((s.ctx ctx).frptr.toNat + 8) (leBytes 4 ((i + 1) % 2 ^ 32))
    let s := s.dropRecord core ctx a
    let s := s.modCrew core t.slot (fun w => w.modLanes t.lanes (fun _ f => { f with wait := .suspended, record := a, recNo := i, resumeAt := resume }))
    let s := if w.trmask.getLsbD 11 then s.trace core t.slot 11 t.pc a t.lanes (f.cause + f.sub * 256) t.prio else s
    s.modCore core (fun k => { k with handlers := k.handlers ++
      [{ slot := t.slot, record := a, index := i, info := s.crewinfo core t.slot, group := w.group, ctx := ctx }] })

/-- TAKING AN EXCEPTION: a precise fault on the fragment in hand (R375). The instruction has had no effect; the fibres are
rewound and suspended, save those that the rewind ends (R20), and the record is written and its handler queued, or waits for its slot. A fault of a system-mode
crew fails the node with the handler's own cause (R377, R379). -/
def State.takeFault (s : State) (c : Cur) (f : FaultInfo) : State :=
  let w := s.crew c.core c.slot
  let f := if f.lanes = 0 then { f with lanes := c.lanes } else f
  let f := { f with cv := if f.cause = 8 then f.cv else c.cvNo }
  let s := if f.cause = 6 then s.modCrew c.core c.slot (fun w => w.countEv 9 1) else s
  if w.sys then
    s.failTrap c.core c.slot { f with lanes := w.visMask f.lanes } { s.faultCtx c with handler := true }
  else
    let rest := c.lanes &&& ~~~(w.spawnedBy c.lanes)
    let t : TrapReq := { slot := c.slot, lanes := rest, frag := lowestLane c.lanes, prio := c.pfx.level, info := f, pc := c.pc
                         word := c.word, rep := c.rep, parent := (w.fibre (lowestLane c.lanes)).parent, sibs := w.sibs c.lanes }
    let s := s.rewind c.core c.slot c.lanes false
    let s := s.modCrew c.core c.slot (fun w => w.modLanes rest (fun _ g => { g with wait := .suspended }))
    s.writeTrap c.core t

/-- A fault on the whole fragment. -/
def faultOf (cause sub : Nat) : FaultInfo := { cause := cause, sub := sub }

/-- A replay, a tandem mismatch or a consumed error (R44, R45, R49, R299): the fragment is rewound and its retry bits are
set; where a bit already stands, the node is rolled back with the subcode (R381). A handler crew that consumes poison
rolls the node back at once. -/
def State.errorRewind (s : State) (c : Cur) (sub : Nat) : State :=
  let w := s.crew c.core c.slot
  let again := (lanesOf c.lanes).any (fun l => (w.fibre l).retry)
  if again || (c.slot = 32 && sub = 1) then
    s.rollBack (s.crewLid c.core c.slot) { cause := 1, sub := sub, lanes := w.visMask c.lanes, cv := c.cvNo } (s.faultCtx c)
  else
    let s := if sub = 3 then s.modCrew c.core c.slot (fun w => w.countEv 5 1) else s
    s.rewind c.core c.slot c.lanes true

/-- The fragment in hand consumed a poisoned value (R133, R299): logged, then handled by R44 and R45. -/
def State.consume (s : State) (c : Cur) : State :=
  (s.logErr { level := 6, kind := 3, unit := c.core }).errorRewind c 1

/-- A parity error in a latch or a queue entry: logged, and a replay of its fragment (R44, R133, R161). R263 has no kind for
a parity error: log 33. -/
def State.replay (s : State) (c : Cur) : State := (s.logErr { level := 6, kind := 2, unit := c.core }).errorRewind c 3

/-- The suspended fragment that a record names: core, slot and lanes (R190). -/
def State.rettTarget (s : State) (ctx a : Nat) : Option (Nat × Nat × BitVec 32) :=
  (s.cores.flatMap (fun k => k.2.slots.filterMap (fun e =>
    let m := e.2.lanesWhere (fun f => f.live && f.wait = .suspended && f.record = a)
    if m = 0 || s.crewCtx k.1 e.1 ≠ ctx then none else some (k.1, e.1, m)))).head?

/-- Whether the record of a handler crew still holds its fragment: the slot may have been used again since (R374, R377). -/
def State.stillHeld (s : State) (ctx : Nat) (w : Crew) : Bool :=
  s.cores.any (fun k => k.2.slots.any (fun e => s.crewCtx k.1 e.1 = ctx
    && e.2.lanesWhere (fun f => f.live && f.wait = .suspended && f.record = w.record && f.recNo = w.recNo) ≠ 0))

/-- Whether the STATE of a handler's record still is 1, with device visibility; one that cannot be read counts as unchanged (R374, R377;
log 33). -/
def State.stateOne (s : State) (ctx : Nat) (w : Crew) : Bool :=
  match s.devRead ctx w.record 8 with
  | none => true
  | some b => leNat b / 2 ^ 19 % 4 = 1

/-- A crew without a live slot ends (R16). A handler whose record still holds its fragment with STATE 1 fails the node (R377). -/
def State.reapCrew (s : State) (core sl : Nat) : State :=
  match s.crew? core sl with
  | none => s
  | some w =>
    if w.liveMask = 0 then
      let ctx := s.crewCtx core sl
      let s := if sl = 32 then s.devTouch ctx w.record 8 else s
      if sl = 32 && s.stillHeld ctx w && s.stateOne ctx w then
        s.failTrap core sl (faultOf 18 0) (s.recordCtx core w.trapSlot)
      else s.endCrew core sl
    else s

/-- The device's change of STATE to 2 in a record: at the home, and in the buffered versions of the handler's cluster (R378, R456). -/
def State.setResumed (s : State) (core ctx a : Nat) : State :=
  match s.xlate ctx a with
  | none => s
  | some x =>
    let lsec := x.laddr / 32
    let sh := 8 * (x.laddr % 32 + 2)
    let h : HeldWrite := { lsec := lsec, data := BitVec.ofNat 256 (0x10 * 2 ^ sh), mask := BitVec.ofNat 256 (0x18 * 2 ^ sh) }
    let s := s.modCluster (clusterOf core) (fun c => { c with
      gather := mapIf (fun g => g.grain = lsec / 16) (fun g => { g with
        sectors := g.sectors.map (fun e => if e.1 = lsec % 16 then (e.1, e.2.setBits h.data h.mask) else e) }) c.gather })
    if s.devRange ctx a 32 then s.devPieces [h] ((s.cluster (clusterOf core)).pend.filter (fun u => u.lsec = lsec)) else s

/-- THE RETURN FROM AN EXCEPTION: RETT resumes, or with KILL ends, the fragment that a record names (R190, R377, R378).
The answer is the status for sD and whether the record was read poisoned. -/
def State.returnFrom (s : State) (core sl a : Nat) : State × Nat × Bool :=
  let ctx := s.crewCtx core sl
  match s.rettTarget ctx a, s.coreXlate core ctx a with
  | some (k, t, m), some x =>
    let r := s.loadBytes core ctx (s.crewTag core sl) x.laddr 24 x.attr x.x true
    let s := r.1
    let resume : BitVec 57 := BitVec.ofNat 57 (leNat (r.2.1.drop 16))
    let kill := (r.2.1.getD 2 0).getLsbD 6
    let w := s.crew k t
    let kept := resume = (w.fibre (lowestLane m)).resumeAt
    if r.2.2 then (s, 0, true)
    else
      let s := s.setResumed core ctx a
      if kill then ((s.exitLanes k t m).reapCrew k t, 0, false)
      else
        (s.modCrew k t (fun w => w.modLanes m (fun _ f => { f.noLatch with
          pc := if kept then f.restart + 4 else resume
          wait := .none, record := 0, recNo := 0, resumeAt := 0, rep := 0, pfx := {}, word := 0, readyAt := w.units })), 0, false)
  | _, _ => (s, 1, false)

/-- The rank of a cause among the lanes of one instruction: 0 is highest (R297, R370). -/
def causeRank (c : Nat) : Nat :=
  match c with
  | 1 => 0
  | 2 => 1
  | 3 => 2
  | 4 => 3
  | 6 => 4
  | 7 => 5
  | _ => 6

/-- The fault that the causes of some lanes give together (R297): the highest-ranked cause, every lane that has it, and the
subcode and address of the lowest such lane. -/
def pickFault (fs : List (Nat × FaultInfo)) : Option FaultInfo :=
  match fs with
  | [] => none
  | f :: rest =>
    let best := rest.foldl (fun b e => if causeRank e.2.cause < causeRank b then e.2.cause else b) f.2.cause
    let mine := fs.filter (fun e => e.2.cause = best)
    match mine with
    | [] => none
    | e :: es =>
      let low := es.foldl (fun a b => if b.1 < a.1 then b else a) e
      some { low.2 with lanes := maskOf (mine.map Prod.fst), other := fs.any (fun e => e.2.cause ≠ best) }

end Sys2Proof.Machine
end

