-- ==== Sys2Proof/Machine/Operands.lean ====
section
/-! DEFINITION. Operand forms: source codes, repetition steps, immediates, the register-range, role and interlock checks,
poison consumption, and the ways a result is written (R28, R96 to R98, R107, R121, R133, R144, R146, R299). -/

namespace Sys2Proof.Machine

/-- What a source operand gives in a lane: its value, its poison mark, and a latch parity error (R96, R133). -/
structure Rd where
  val : Word := 0
  poison : Bool := false
  parity : Bool := false
  deriving DecidableEq, Repr

/-- A latch as a source: an invalid one reads 0 (R39). -/
def Fibre.latch (f : Fibre) (n : Nat) : Word :=
  match n with
  | 0 => f.l0.getD 0
  | 1 => f.l1.getD 0
  | 2 => f.l2.getD 0
  | _ => f.l3.getD 0

/-- A source operand in a lane (R96). -/
def Crew.rd (w : Crew) (lane : Nat) (x : Src) : Rd :=
  match x with
  | .v n => let e := w.vreg lane ((w.fibre lane).wbase.toNat + n.toNat); { val := e.val, poison := e.poison }
  | .s n => let e := w.sreg n.toNat; { val := e.val, poison := e.poison }
  | .l n => { val := (w.fibre lane).latch n.toNat, parity := (w.fibre lane).lbad.getLsbD n.toNat }
  | .zero => {}
  | .lane => { val := BitVec.ofNat 64 (w.visible lane) }
  | .crew => { val := BitVec.ofNat 64 w.no }
  | .ones => { val := BitVec.allOnes 64 }

/-- The value of a source operand in a lane. -/
def Crew.val (w : Crew) (lane : Nat) (x : Src) : Word := (w.rd lane x).val

/-- The crew of the instruction in hand. -/
def State.cw (s : State) (c : Cur) : Crew := s.crew c.core c.slot

/-- The value of a lane-independent source (R145). -/
def State.uval (s : State) (c : Cur) (x : Src) : Word := (s.cw c).val (lowestLane c.lanes) x

/-- A register number moved by a signed step for the repetition in hand (R107). -/
def stepNo {w : Nat} (n : BitVec w) (st : BitVec 4) (i : Nat) : BitVec w := BitVec.ofInt w ((n.toNat : Int) + st.toInt * (i : Int))

/-- A source code moved by a step: register codes only (R107). -/
def stepSrc (x : Src) (st : BitVec 4) (i : Nat) : Src :=
  match x with
  | .v n => .v (stepNo n st i)
  | .s n => .s (stepNo n st i)
  | .l n => .l n
  | .zero => .zero
  | .lane => .lane
  | .crew => .crew
  | .ones => .ones

/-- Source A of the repetition in hand (R107). -/
def Cur.srcA (c : Cur) (x : Src) : Src := match c.pfx.rep with
  | some o => stepSrc x o.ast c.rep
  | none => x

/-- Source B of the repetition in hand (R107). -/
def Cur.srcB (c : Cur) (x : Src) : Src := match c.pfx.rep with
  | some o => stepSrc x o.bst c.rep
  | none => x

/-- Destination D of the repetition in hand (R107). -/
def Cur.dst {w : Nat} (c : Cur) (d : BitVec w) : BitVec w := match c.pfx.rep with
  | some o => stepNo d o.dst c.rep
  | none => d

/-- The immediate of format I (R97). -/
def Cur.imm (c : Cur) (i7 : BitVec 7) : Word := match c.pfx.imm with
  | some p => (p ++ i7 : BitVec 31).signExtend 64
  | none => i7.signExtend 64

/-- A register an instruction names, for the range check and the interlock. -/
inductive Use where
  | v (n : Nat)
  | s (n : Nat)
  | m (k : Nat)
  | tile (k : Nat)
  | acc (k : Nat)
  | none
  deriving DecidableEq, Repr

/-- The register a source names. -/
def srcUse (x : Src) : Use :=
  match x with
  | .v n => .v n.toNat
  | .s n => .s n.toNat
  | .l _ => .none
  | .zero => .none
  | .lane => .none
  | .crew => .none
  | .ones => .none

/-- The vector register that D names, when K leaves it to be written. -/
def useD (k : Bool) (d : BitVec 6) : Use := if k then .none else .v d.toNat

/-- The uniform register that D names, when K leaves it to be written. -/
def useU (k : Bool) (d : BitVec 5) : Use := if k then .none else .s d.toNat

/-- Whether a named register is in range for every fibre of the fragment (R121). A handler crew has no tiles and no
accumulators (R376). -/
def State.useOk (s : State) (c : Cur) (u : Use) : Bool :=
  let w := s.cw c
  match u with
  | .v n => (lanesOf c.lanes).all (fun l => decide ((w.fibre l).wbase.toNat + n < 8 * w.vgran))
  | .s _ => true
  | .m k => decide (k < w.mregs)
  | .tile k => c.slot ≠ 32 && decide (k < (s.group w.group).tiles)
  | .acc k => c.slot ≠ 32 && decide (k < (s.group w.group).accPlaces.length)
  | .none => true

/-- The register-range check of an instruction (R121). -/
def State.inRange (s : State) (c : Cur) (us : List Use) : Bool := us.all (fun u => s.useOk c u)

/-- The vector registers that a pending load will write: lane, and register of the lane. -/
def PLoad.writes (p : PLoad) : List (Nat × Nat) :=
  match p.kind with
  | .plain _ _ => p.lanes.map (fun x => (x.lane, x.reg))
  | .quad => p.lanes.flatMap (fun x => [(x.lane, x.reg), (x.lane, x.reg + 1)])
  | .uniform _ => []
  | .acquire _ => p.lanes.map (fun x => (x.lane, x.reg))
  | .nocache => p.lanes.map (fun x => (x.lane, x.reg))

/-- Whether pending writes of vector registers touch a register that the fragment names, in the windows that its fibres have now;
`all` widens the test to every lane, for the instructions that read other lanes (R120, R146, R169). -/
def Crew.hits (w : Crew) (all : Bool) (m : BitVec 32) (ws : List (Nat × Nat)) (us : List Use) : Bool :=
  us.any (fun u => match u with
    | .v n => ws.any (fun e => (all || m.getLsbD e.1) && e.2 = (w.fibre e.1).wbase.toNat + n)
    | .s _ => false
    | .m _ => false
    | .tile _ => false
    | .acc _ => false
    | .none => false)

/-- Identifiers of the loads, atomics, special-function operations and array reports whose results the fragment must wait for (R146). -/
def State.pendIds (s : State) (c : Cur) (all : Bool) (us : List Use) : List Nat :=
  let w := s.cw c
  (w.loads.filter (fun p => w.hits all c.lanes p.writes us || (p.isUniform && us.contains (.s p.d)))).map PLoad.id
    ++ (w.atoms.filter (fun a => w.hits all c.lanes [(a.lane, a.d)] us)).map PAtom.id
    ++ ((s.core c.core).sfu.filter (fun q => q.slot = c.slot && w.hits all c.lanes (q.results.map (fun e => (e.1, e.2.1))) us)).map SfuOp.id
    ++ ((s.core c.core).arr.filter (fun q => q.slot = c.slot && (match q.report with
      | some r => us.contains (.s r.1)
      | none => false))).map ArrOp.id

/-- The roles that may issue an instruction (R27). -/
inductive Roles where
  | any
  | copy
  | matrix
  | vector
  deriving DecidableEq, Repr

/-- Whether a role may issue. -/
def Roles.allows (r : Roles) (x : Role) : Bool :=
  match r with
  | .any => true
  | .copy => x == .copy
  | .matrix => x == .matrix
  | .vector => x == .vector

/-- Whether some fibre of the fragment holds a poisoned predicate word (R133). -/
def State.predPoison (s : State) (c : Cur) : Bool := (lanesOf c.lanes).any (fun l => ((s.cw c).fibre l).predPoison)

/-- The active lanes of the instruction in hand (R93). -/
def State.act (s : State) (c : Cur) (g : BitVec 3) : BitVec 32 := (s.cw c).active c.lanes g

/-- Whether some source that some lane reads is poisoned. -/
def State.anyPoison (s : State) (c : Cur) (m : BitVec 32) (xs : Nat → List Src) : Bool :=
  (lanesOf m).any (fun l => (xs l).any (fun x => ((s.cw c).rd l x).poison))

/-- Whether some source that some lane reads is a latch with a parity error. -/
def State.anyParity (s : State) (c : Cur) (m : BitVec 32) (xs : Nat → List Src) : Bool :=
  (lanesOf m).any (fun l => (xs l).any (fun x => ((s.cw c).rd l x).parity))

/-- The data-independent checks in their order, then the interlock: register range, role, pending operands (R28, R101,
R121, R146). -/
def State.gate (s : State) (c : Cur) (r : Roles) (all : Bool) (us : List Use) (k : State) : State :=
  if !s.inRange c us then s.takeFault c (faultOf 9 0)
  else if !r.allows (s.cw c).role then s.takeFault c (faultOf 5 0)
  else match s.pendIds c all us with
    | [] => k
    | ids => s.hold c (.operands ids)

/-- Consumption of the predicates, where `pr` says that the instruction reads some (a guard G = 0 reads none), and of the
sources that the lanes of `m` read (R93, R133, R299). -/
def State.reads (s : State) (c : Cur) (pr : Bool) (m : BitVec 32) (xs : Nat → List Src) (k : State) : State :=
  if s.anyParity c m xs then s.replay c
  else if (pr && s.predPoison c) || s.anyPoison c m xs then s.consume c
  else k

/-- The state with flags ORed into the crew's FFLAGS (R64, R65). -/
def State.raise (s : State) (c : Cur) (f : FSet) : State :=
  s.modCrew c.core c.slot (fun w => { w with fflags := w.fflags ||| f })

/-- Write lane values into a vector register of each lane's window. -/
def Crew.writeV (w : Crew) (d : Nat) (vals : List (Nat × Word)) : Crew :=
  vals.foldl (fun w e => w.setVreg e.1 ((w.fibre e.1).wbase.toNat + d) { val := e.2 }) w

/-- The lanes whose flags count: primaries alone in tandem mode (R65). -/
def Crew.flagLane (w : Crew) (l : Nat) : Bool := !w.tandem || l % 2 = 0

/-- The flags that lane results raise (R65). -/
def Crew.flagsOf (w : Crew) (rs : List (Nat × Word × FSet)) : FSet :=
  rs.foldl (fun f r => if w.flagLane r.1 then f ||| r.2.2 else f) 0

/-- A vector result: the register unless K, the flags, the latch, and retirement (R39, R65, R98, R144). -/
def State.putV (s : State) (c : Cur) (k : Bool) (d : BitVec 6) (rs : List (Nat × Word × FSet)) : State :=
  let vals := rs.map (fun r => (r.1, r.2.1))
  let s := s.modCrew c.core c.slot (fun w =>
    { (if k then w else w.writeV d.toNat vals) with fflags := w.fflags ||| w.flagsOf rs })
  s.retire c { latch := vals }

/-- A vector instruction: the checks, the reads, and its result in every active lane (R144). `rd` says that D is read too. -/
def State.vec (s : State) (c : Cur) (r : Roles) (k : Bool) (g : BitVec 3) (d : BitVec 6) (xs : List Src) (rd : Bool)
    (f : Crew → Nat → Word × FSet) : State :=
  s.gate c r false (xs.map srcUse ++ [if rd then .v d.toNat else useD k d])
    (s.reads c (g ≠ 0) (s.act c g) (fun _ => if rd then xs ++ [.v d] else xs)
      (s.putV c k d ((lanesOf (s.act c g)).map (fun l => (l, f (s.cw c) l)))))

/-- A uniform result: the register unless K, the latch of each active fibre, and retirement (R39, R175). -/
def State.putU (s : State) (c : Cur) (k : Bool) (d : BitVec 5) (m : BitVec 32) (x : Word) (r : Done) : State :=
  let s := s.modCrew c.core c.slot (fun w => if k then w else w.setSreg d.toNat { val := x })
  s.retire c { r with latch := (lanesOf m).map (fun l => (l, x)) }

/-- A uniform instruction: it acts once when some fibre of the fragment is active (R175). -/
def State.uni (s : State) (c : Cur) (k : Bool) (g : BitVec 3) (d : BitVec 5) (xs : List Src) (f : (Src → Word) → Word) : State :=
  s.gate c .any false (xs.map srcUse ++ [useU k d])
    (s.reads c (g ≠ 0) (s.act c g) (fun _ => xs)
      (if s.act c g = 0 then s.retire c {} else s.putU c k d (s.act c g) (f (fun x => s.uval c x)) {}))

/-- Predicates written in some lanes: `and` keeps the AND with the prior value (R157). -/
def Crew.writeP (w : Crew) (p : BitVec 4) (j : Bool) (vals : List (Nat × Bool)) : Crew :=
  vals.foldl (fun w e => w.modFibre e.1 (fun f => f.setPred p.toNat (e.2 && (!j || f.pred p.toNat)))) w

/-- Predicates written for a fragment, and retirement. -/
def State.putP (s : State) (c : Cur) (p : BitVec 4) (j : Bool) (vals : List (Nat × Bool)) : State :=
  (s.modCrew c.core c.slot (fun w => w.writeP p j vals)).retire c {}

/-- A meaning acts for the fragment in hand. -/
def State.run (s : State) (f : Cur → State) : Host.Outcome State Fault Refusal :=
  match s.cur with
  | none => .fault .noIssuer
  | some c => .next (f c)

/-- Element `k` of width `w` of a packed value (R143). -/
def lmt (w k : Nat) (x : Word) : Nat := x.toNat / 2 ^ (w * k) % 2 ^ w

/-- A packed value from its elements, element 0 first (R143). -/
def packEls (w : Nat) (es : List Nat) : Word := BitVec.ofNat 64 (es.foldr (fun e acc => e % 2 ^ w + 2 ^ w * acc) 0)

/-- Element-wise map over packed values (R143). -/
def mapEls (w : Nat) (f : Nat → Nat → Nat) (a b : Word) : Word :=
  packEls w ((List.range (64 / w)).map (fun k => f (lmt w k a) (lmt w k b)))

/-- Whether the two lanes of a pair differ in what R48 compares: their activity, and the given values (R47 to R49). -/
def State.pairsDiffer (s : State) (c : Cur) (m : BitVec 32) (xs : Nat → List Word) : Bool :=
  (s.cw c).tandem && (List.range 16).any (fun v =>
    let p := 2 * v
    let q := 2 * v + 1
    (c.lanes.getLsbD p || c.lanes.getLsbD q) &&
      (m.getLsbD p != m.getLsbD q || (m.getLsbD p && xs p ≠ xs q)))

/-- A tandem mismatch: the instruction is suppressed and the fragment rewound (R49). -/
def State.mismatch (s : State) (c : Cur) : State := s.errorRewind c 4

end Sys2Proof.Machine
end

