-- ==== Sys2Proof/Machine/Flags.lean ====
section
/-! DEFINITION. Flag words and modes: FFLAGS, FRM, CKTOL and MSTAT as registers show them, rounding modes, packed
floating results with their flags, and the matrix flags with their traps (R61, R64 to R66, R89, R109, R129). -/

namespace Sys2Proof.Machine

/-- The rounding mode of the instruction in hand: FRM, or a HINT.MOD override (R61, R109). -/
def State.rmode (s : State) (c : Cur) : RMode :=
  match c.pfx.mod with
  | some o => if o.en then RMode.ofCode o.rm.toNat else RMode.ofCode (s.cw c).frm.toNat
  | none => RMode.ofCode (s.cw c).frm.toNat

/-- Whether a HINT.MOD asks for saturation (R109). -/
def Cur.sat (c : Cur) : Bool := match c.pfx.mod with
  | some o => o.sat
  | none => false

/-- The cache policy of a HINT.MOD (R109). -/
def Cur.policy (c : Cur) : Nat := match c.pfx.mod with
  | some o => o.cache.toNat
  | none => 0

/-- The flags of element results together (R65). -/
def orFlags (fs : List FSet) : FSet := fs.foldl (· ||| ·) 0

/-- A packed floating result: elements of width `w` and their flags (R65, R143). -/
def packF (w : Nat) (rs : List (Nat × FSet)) : Word × FSet := (packEls w (rs.map Prod.fst), orFlags (rs.map Prod.snd))

/-- The OR of the matrix flags of the crew's live lanes (R129). -/
def Crew.mflags (w : Crew) : BitVec 4 := (lanesOf w.liveMask).foldl (fun a l => a ||| (w.fibre l).mflags) 0

/-- MSTAT as read (R129). -/
def Crew.mstat (w : Crew) : Word :=
  BitVec.ofNat 64 (w.mflags.toNat + (if w.tnpp then 256 else 0) + (if w.tzp then 512 else 0))

/-- CKTOL as read (R89). -/
def Crew.cktol (w : Crew) : Word := BitVec.ofNat 64 (w.tbf.toNat + 256 * w.tf32.toNat)

/-- Whether the results that set FFLAGS are still to come: group-5 operations, AADDF.S and array operations of the crew
whose flags are not in FFLAGS yet (R66). Copies are not waited for. -/
def State.flagsPending (s : State) (c : Cur) : Bool :=
  let k := s.core c.core
  k.sfu.any (fun q => q.slot = c.slot) || k.arr.any (fun q => q.slot = c.slot)
    || (s.cw c).atoms.any (fun a => a.op = 15)

/-- NPP of R129. -/
def mfNPP : BitVec 4 := 1
/-- ZP of R129. -/
def mfZP : BitVec 4 := 2
/-- SHP of R129. -/
def mfSHP : BitVec 4 := 4
/-- NFN of R129. -/
def mfNFN : BitVec 4 := 8

end Sys2Proof.Machine
end

