-- ==== Sys2Proof/Machine/Cmp.lean ====
section
/-! DEFINITION. Group 4: compares, predicates and selections (R156 to R160). -/

namespace Sys2Proof.Machine

/-- An integer condition on `w`-bit values (R156). -/
def intCond (w : Nat) (k : Cond) (a b : Nat) : Bool :=
  match k with
  | .eq => decide (a = b)
  | .ne => decide (a ≠ b)
  | .lt => decide (sgn w a < sgn w b)
  | .le => decide (sgn w a ≤ sgn w b)
  | .ltu => decide (a < b)
  | .leu => decide (a ≤ b)
  | .unord => false
  | .ord => true

/-- A floating condition on an ordering (R156). -/
def fpCond (k : Cond) (o : FOrd) : Bool :=
  match k with
  | .eq => o == .eq
  | .ne => o != .eq
  | .lt => o == .lt
  | .le => o == .lt || o == .eq
  | .ltu => o == .un || o == .lt
  | .leu => o == .un || o == .lt || o == .eq
  | .unord => o == .un
  | .ord => o != .un

/-- A floating compare of two encodings: the condition and NV for a signalling NaN (R156). -/
def fpCompare (f : Fmt) (k : Cond) (a b : Nat) : Bool × FSet :=
  let x := f.decode a
  let y := f.decode b
  (fpCond k (x.cmp y), flagIf (x.isSnan || y.isSnan) flagNV)

/-- A compare into predicates, unguarded: every fibre of the fragment (R157). -/
def State.cmpOp (s : State) (c : Cur) (r : Roles) (p : BitVec 4) (j : Bool) (xs : List Src) (pr : Bool)
    (f : Crew → Nat → Bool × FSet) : State :=
  s.gate c r false (xs.map srcUse)
    (s.reads c (j || pr) c.lanes (fun _ => xs)
      (let rs := (lanesOf c.lanes).map (fun l => (l, f (s.cw c) l))
       (s.raise c ((s.cw c).flagsOf (rs.map (fun x => (x.1, 0, x.2.2))))).putP c p j (rs.map (fun x => (x.1, x.2.1)))))

/-- An integer compare on the low `w` bits (R157). -/
def State.cmpInt (s : State) (o : OpC) (w : Nat) : Host.Outcome State Fault Refusal :=
  s.run (fun c => s.cmpOp c .any o.p o.j [o.a, o.b] false
    (fun x l => (intCond w o.cond (lmt w 0 (x.val l o.a)) (lmt w 0 (x.val l o.b)), 0)))

/-- A floating compare on element 0 (R157). -/
def State.cmpFp (s : State) (o : OpC) (f : Fmt) : Host.Outcome State Fault Refusal :=
  s.run (fun c => s.cmpOp c .vector o.p o.j [o.a, o.b] false
    (fun x l => fpCompare f o.cond (lmt f.width 0 (x.val l o.a)) (lmt f.width 0 (x.val l o.b))))

/-- A predicate operation on two predicates of each fibre (R158). -/
def State.predOp (s : State) (o : OpP) (f : Bool → Bool → Bool) : Host.Outcome State Fault Refusal :=
  s.run (fun c => s.cmpOp c .any o.p o.j [] true
    (fun x l => (f ((x.fibre l).pred o.pa.toNat) ((x.fibre l).pred o.pb.toNat), 0)))

/-- A mask compare into a vector register, unguarded and without a latch result (R160). -/
def State.maskCmp (s : State) (o : OpC) (r : Roles) (w : Nat) (f : Nat → Nat → Bool × FSet) : Host.Outcome State Fault Refusal :=
  s.run (fun c =>
    let d : BitVec 6 := o.p.setWidth 6
    s.gate c r false [srcUse o.a, srcUse o.b, .v d.toNat]
      (s.reads c false c.lanes (fun _ => if o.j then [o.a, o.b, .v d] else [o.a, o.b])
        (let x := s.cw c
         let rs := (lanesOf c.lanes).map (fun l =>
           let es := (List.range (64 / w)).map (fun k => f (lmt w k (x.val l o.a)) (lmt w k (x.val l o.b)))
           let m := packEls w (es.map (fun e => if e.1 then 2 ^ w - 1 else 0))
           (l, (if o.j then m &&& x.val l (.v d) else m), orFlags (es.map Prod.snd)))
         (s.modCrew c.core c.slot (fun x => { x.writeV d.toNat (rs.map (fun r => (r.1, r.2.1))) with
            fflags := x.fflags ||| x.flagsOf rs })).retire c {})))

/-- ICMP.D (R157). -/
def execIcmpD (o : OpC) (s : State) : Host.Outcome State Fault Refusal := s.cmpInt o 64
/-- ICMP.W (R157). -/
def execIcmpW (o : OpC) (s : State) : Host.Outcome State Fault Refusal := s.cmpInt o 32
/-- FCMP.D (R157). -/
def execFcmpD (o : OpC) (s : State) : Host.Outcome State Fault Refusal := s.cmpFp o fmtD
/-- FCMP.S (R157). -/
def execFcmpS (o : OpC) (s : State) : Host.Outcome State Fault Refusal := s.cmpFp o fmtS
/-- ICMPI.D (R157). -/
def execIcmpiD (o : OpCI) (s : State) : Host.Outcome State Fault Refusal :=
  s.run (fun c => s.cmpOp c .any o.p o.j [o.a] false
    (fun x l => (intCond 64 o.cond (x.val l o.a).toNat (c.imm o.imm).toNat, 0)))
/-- PAND (R158). -/
def execPand (o : OpP) (s : State) : Host.Outcome State Fault Refusal := s.predOp o (· && ·)
/-- POR (R158). -/
def execPor (o : OpP) (s : State) : Host.Outcome State Fault Refusal := s.predOp o (· || ·)
/-- PXOR (R158). -/
def execPxor (o : OpP) (s : State) : Host.Outcome State Fault Refusal := s.predOp o (· != ·)
/-- PNOT (R158). -/
def execPnot (o : OpP1) (s : State) : Host.Outcome State Fault Refusal :=
  s.run (fun c => s.cmpOp c .any o.p o.j [] true (fun x l => (!(x.fibre l).pred o.pa.toNat, 0)))
/-- SEL (R159): G selects, every live fibre of the fragment is active, and only the selected source is read. -/
def execSel (o : OpA) (s : State) : Host.Outcome State Fault Refusal :=
  s.run (fun c =>
    let pick (l : Nat) : Src := if ((s.cw c).fibre l).pred o.g.toNat then o.a else o.b
    s.gate c .any false [srcUse o.a, srcUse o.b, useD o.k o.d]
      (s.reads c (o.g ≠ 0) c.lanes (fun l => [pick l])
        (s.putV c o.k o.d ((lanesOf c.lanes).map (fun l => (l, (s.cw c).val l (pick l), 0))))))
/-- PTOV (R159): the predicate word, bit 0 reading 1. -/
def execPtov (o : OpD) (s : State) : Host.Outcome State Fault Refusal :=
  s.run (fun c =>
    s.gate c .any false [useD o.k o.d]
      (s.reads c true (s.act c o.g) (fun _ => [])
        (s.putV c o.k o.d ((lanesOf (s.act c o.g)).map (fun l => (l, (((s.cw c).fibre l).preds ||| 1).setWidth 64, 0))))))
/-- VTOP (R159). -/
def execVtop (o : OpVt) (s : State) : Host.Outcome State Fault Refusal :=
  s.run (fun c => s.cmpOp c .any o.p o.j [o.a, o.b] false
    (fun x l => ((x.val l o.a).getLsbD ((x.val l o.b).toNat % 64), 0)))
/-- VCMPM.H (R160). -/
def execVcmpmH (o : OpC) (s : State) : Host.Outcome State Fault Refusal := s.maskCmp o .any 16 (fun a b => (intCond 16 o.cond a b, 0))
/-- VCMPM.B (R160). -/
def execVcmpmB (o : OpC) (s : State) : Host.Outcome State Fault Refusal := s.maskCmp o .any 8 (fun a b => (intCond 8 o.cond a b, 0))
/-- FCMPM.H (R160). -/
def execFcmpmH (o : OpC) (s : State) : Host.Outcome State Fault Refusal := s.maskCmp o .vector 16 (fpCompare fmtH o.cond)

end Sys2Proof.Machine
end

