-- ==== Sys2Proof/Machine/CrossLane.lean ====
section
/-! DEFINITION. Groups 6 and 7: cross-lane and uniform instructions (R169 to R177). -/

namespace Sys2Proof.Machine

/-- A vector register of another lane as R169 reads it: 0 from a slot without a live fibre and beyond the allocation. -/
def Crew.xread (w : Crew) (lane n : Nat) : Elem :=
  let f := w.fibre lane
  if f.live && decide (f.wbase.toNat + n < 8 * w.vgran) then w.vreg lane (f.wbase.toNat + n) else {}

/-- The number of the vector register that A names; A takes codes 0 to 63 only (R169). -/
def srcV (x : Src) : Nat := match x with
  | .v n => n.toNat
  | .s _ => 0
  | .l _ => 0
  | .zero => 0
  | .lane => 0
  | .crew => 0
  | .ones => 0

/-- The physical lane that a lane's instruction means by a visible lane: shadows exchange among themselves (R47). -/
def Crew.srcLane (w : Crew) (lane v : Nat) : Nat := if w.tandem then 2 * v + lane % 2 else v

/-- The lanes of a mask that a lane exchanges with (R47). -/
def Crew.peers (w : Crew) (lane : Nat) (m : BitVec 32) : List Nat :=
  (lanesOf m).filter (fun l => !w.tandem || l % 2 = lane % 2)

/-- The mask of visible lanes of some physical lanes (R47, R172). -/
def Crew.visBits (w : Crew) (ls : List Nat) : Word := (maskOf (ls.map w.visible)).setWidth 64

/-- An exchange: `src` names the visible lanes that a lane reads, `f` computes from them (R169 to R171). -/
def State.xchg (s : State) (c : Cur) (k : Bool) (g : BitVec 3) (d : BitVec 6) (a b : Src)
    (src : Crew → Nat → List Nat) (f : Crew → Nat → (Nat → Word) → Word) : State :=
  s.gate c .any true [srcUse a, srcUse b, useD k d]
    (s.reads c (g ≠ 0) (s.act c g) (fun _ => [b])
      (let w := s.cw c
       let ls := lanesOf (s.act c g)
       if ls.any (fun l => (src w l).any (fun v => (w.xread (w.srcLane l v) (srcV a)).poison)) then s.consume c
       else s.putV c k d (ls.map (fun l => (l, f w l (fun v => (w.xread (w.srcLane l v) (srcV a)).val), 0)))))

/-- PERM with elements of width `w` (R170). -/
def State.perm (s : State) (o : OpA) (w : Nat) : Host.Outcome State Fault Refusal :=
  s.run (fun c =>
    let a := c.srcA o.a
    let b := c.srcB o.b
    let e := 64 / w
    let ix (x : Crew) (l k : Nat) : Nat := lmt w k (x.val l b) % (x.nl * e)
    s.xchg c o.k o.g (c.dst o.d) a b
      (fun x l => (List.range e).map (fun k => ix x l k / e))
      (fun x l rd => packEls w ((List.range e).map (fun k => lmt w (ix x l k % e) (rd (ix x l k / e))))))

/-- A reduction or mask over the active lanes of the fragment (R172 to R174). -/
def State.reduce (s : State) (o : OpA1) (f : Crew → BitVec 32 → Src → Nat → Word) : Host.Outcome State Fault Refusal :=
  s.run (fun c =>
    let a := c.srcA o.a
    s.vec c .any o.k o.g (c.dst o.d) [a] false (fun w l => (f w (s.act c o.g) a l, 0)))

/-- The values of A over the lanes that a lane exchanges with. -/
def Crew.terms (w : Crew) (m : BitVec 32) (a : Src) (l : Nat) : List (Nat × Word) := (w.peers l m).map (fun p => (p, w.val p a))

/-- The key of MATCH.S (R174). -/
def matchKeyS (x : Word) : Word := if lmt 32 0 x = 2 ^ 31 then 0 else BitVec.ofNat 64 (lmt 32 0 x)

/-- The mask of active lanes with a lane's key (R174). -/
def Crew.matchMask (w : Crew) (m : BitVec 32) (a : Src) (l : Nat) (key : Word → Word) : Word :=
  w.visBits (((w.terms m a l).filter (fun e => key e.2 = key (w.val l a))).map Prod.fst)

/-- PERM.D (R170). -/
def execPermD (o : OpA) (s : State) : Host.Outcome State Fault Refusal := s.perm o 64
/-- PERM.W (R170). -/
def execPermW (o : OpA) (s : State) : Host.Outcome State Fault Refusal := s.perm o 32
/-- PERM.H (R170). -/
def execPermH (o : OpA) (s : State) : Host.Outcome State Fault Refusal := s.perm o 16
/-- PERM.B (R170). -/
def execPermB (o : OpA) (s : State) : Host.Outcome State Fault Refusal := s.perm o 8
/-- BCAST (R171). -/
def execBcast (o : OpA) (s : State) : Host.Outcome State Fault Refusal :=
  s.run (fun c =>
    let b := c.srcB o.b
    let v (w : Crew) (l : Nat) : Nat := (w.val l b).toNat % w.nl
    s.xchg c o.k o.g (c.dst o.d) (c.srcA o.a) b (fun w l => [v w l]) (fun w l rd => rd (v w l)))
/-- ROTX.H (R171). -/
def execRotxH (o : OpA) (s : State) : Host.Outcome State Fault Refusal :=
  s.run (fun c =>
    let b := c.srcB o.b
    let ix (w : Crew) (l k : Nat) : Nat := (4 * w.visible l + k + (w.val l b).toNat % (4 * w.nl)) % (4 * w.nl)
    s.xchg c o.k o.g (c.dst o.d) (c.srcA o.a) b
      (fun w l => (List.range 4).map (fun k => ix w l k / 4))
      (fun w l rd => packEls 16 ((List.range 4).map (fun k => lmt 16 (ix w l k % 4) (rd (ix w l k / 4))))))
/-- BALLOT (R172). -/
def execBallot (o : OpA1) (s : State) : Host.Outcome State Fault Refusal :=
  s.reduce o (fun w m a l => w.visBits (((w.terms m a l).filter (fun e => e.2 ≠ 0)).map Prod.fst))
/-- VOTE (R172): mode 0 ALL, 1 ANY, 2 UNI. -/
def execVote (o : OpVote) (s : State) : Host.Outcome State Fault Refusal :=
  s.run (fun c => s.cmpOp c .any o.p o.j [] true (fun w l =>
    let ps := (w.peers l c.lanes).map (fun i => (w.fibre i).pred o.pa.toNat)
    (match o.mode.toNat with
     | 0 => ps.all id
     | 1 => ps.any id
     | _ => ps.all id || !ps.any id, 0)))
/-- REDADD (R173). -/
def execRedadd (o : OpA1) (s : State) : Host.Outcome State Fault Refusal :=
  s.reduce o (fun w m a l => (w.terms m a l).foldl (fun x e => x + e.2) 0)
/-- REDMIN (R173). -/
def execRedmin (o : OpA1) (s : State) : Host.Outcome State Fault Refusal :=
  s.reduce o (fun w m a l => (w.terms m a l).foldl (fun x e => if e.2.slt x then e.2 else x) (w.val l a))
/-- REDMAX (R173). -/
def execRedmax (o : OpA1) (s : State) : Host.Outcome State Fault Refusal :=
  s.reduce o (fun w m a l => (w.terms m a l).foldl (fun x e => if x.slt e.2 then e.2 else x) (w.val l a))
/-- SCANADD (R173). -/
def execScanadd (o : OpA1) (s : State) : Host.Outcome State Fault Refusal :=
  s.reduce o (fun w m a l => ((w.terms m a l).filter (fun e => decide (e.1 ≤ l))).foldl (fun x e => x + e.2) 0)
/-- MATCH.D (R174). -/
def execMatchD (o : OpA1) (s : State) : Host.Outcome State Fault Refusal := s.reduce o (fun w m a l => w.matchMask m a l id)
/-- MATCH.S (R174). -/
def execMatchS (o : OpA1) (s : State) : Host.Outcome State Fault Refusal := s.reduce o (fun w m a l => w.matchMask m a l matchKeyS)
/-- SUBPERM (R171). -/
def execSubperm (o : OpA) (s : State) : Host.Outcome State Fault Refusal :=
  s.run (fun c =>
    let b := c.srcB o.b
    let v (w : Crew) (l : Nat) : Nat := 8 * (w.visible l / 8) + (w.val l b).toNat % 8
    s.xchg c o.k o.g (c.dst o.d) (c.srcA o.a) b (fun w l => [v w l]) (fun w l rd => rd (v w l)))
/-- LANEMASK (R172). -/
def execLanemask (o : OpA1) (s : State) : Host.Outcome State Fault Refusal :=
  s.run (fun c =>
    let a := c.srcA o.a
    s.vec c .any o.k o.g (c.dst o.d) [a] false (fun w l =>
      let v := w.visible l
      (match (w.val l a).toNat % 8 with
       | 0 => BitVec.ofNat 64 (2 ^ v)
       | 1 => BitVec.ofNat 64 (2 ^ v - 1)
       | 2 => BitVec.ofNat 64 (2 ^ (v + 1) - 1)
       | 3 => w.visBits (w.peers l w.liveMask)
       | 4 => w.visBits (w.peers l c.lanes)
       | 5 => w.visBits (w.peers l (s.act c o.g))
       | _ => 0, 0)))

/-- A group-7 instruction of two sources (R176). -/
def State.uniA (s : State) (o : OpU) (f : Word → Word → Word) : Host.Outcome State Fault Refusal :=
  s.run (fun c =>
    let a := c.srcA o.a
    let b := c.srcB o.b
    s.uni c o.k o.g (c.dst o.d) [a, b] (fun v => f (v a) (v b)))

/-- UADD (R176). -/
def execUadd (o : OpU) (s : State) : Host.Outcome State Fault Refusal := s.uniA o (· + ·)
/-- USUB (R176). -/
def execUsub (o : OpU) (s : State) : Host.Outcome State Fault Refusal := s.uniA o (· - ·)
/-- UMUL (R176). -/
def execUmul (o : OpU) (s : State) : Host.Outcome State Fault Refusal := s.uniA o (· * ·)
/-- UAND (R176). -/
def execUand (o : OpU) (s : State) : Host.Outcome State Fault Refusal := s.uniA o (· &&& ·)
/-- UOR (R176). -/
def execUor (o : OpU) (s : State) : Host.Outcome State Fault Refusal := s.uniA o (· ||| ·)
/-- UXOR (R176). -/
def execUxor (o : OpU) (s : State) : Host.Outcome State Fault Refusal := s.uniA o (· ^^^ ·)
/-- USHL (R176). -/
def execUshl (o : OpU) (s : State) : Host.Outcome State Fault Refusal := s.uniA o (fun a b => a <<< (b.toNat % 64))
/-- USHR (R176). -/
def execUshr (o : OpU) (s : State) : Host.Outcome State Fault Refusal := s.uniA o (fun a b => a >>> (b.toNat % 64))
/-- USAR (R176). -/
def execUsar (o : OpU) (s : State) : Host.Outcome State Fault Refusal := s.uniA o (fun a b => a.sshiftRight (b.toNat % 64))
/-- UADDI (R176). -/
def execUaddi (o : OpUI) (s : State) : Host.Outcome State Fault Refusal :=
  s.run (fun c => s.uni c o.k o.g o.d [o.a] (fun v => v o.a + c.imm o.imm))
/-- UMOVI (R176). -/
def execUmovi (o : OpUMov) (s : State) : Host.Outcome State Fault Refusal :=
  s.run (fun c => s.uni c o.k o.g o.d [] (fun _ => c.imm o.imm))
/-- UMOVH (R176). -/
def execUmovh (o : OpUI) (s : State) : Host.Outcome State Fault Refusal :=
  s.run (fun c => s.uni c o.k o.g o.d [o.a] (fun v => (v o.a <<< 24) ||| ((c.imm o.imm).setWidth 24).setWidth 64))
/-- UCMP (R177): once on the uniform values, for every fibre of the fragment. -/
def execUcmp (o : OpC) (s : State) : Host.Outcome State Fault Refusal :=
  s.run (fun c => s.cmpOp c .any o.p o.j [o.a, o.b] false
    (fun w l => (intCond 64 o.cond (w.val l o.a).toNat (w.val l o.b).toNat, 0)))
/-- UMIN (R176). -/
def execUmin (o : OpU) (s : State) : Host.Outcome State Fault Refusal := s.uniA o (fun a b => if b.slt a then b else a)
/-- UMAX (R176). -/
def execUmax (o : OpU) (s : State) : Host.Outcome State Fault Refusal := s.uniA o (fun a b => if a.slt b then b else a)
/-- UREAD (R176): in tandem mode the primary's and the shadow's values are compared first (R48, R49). -/
def execUread (o : OpU) (s : State) : Host.Outcome State Fault Refusal :=
  s.run (fun c =>
    let a := c.srcA o.a
    let b := c.srcB o.b
    let d := c.dst o.d
    s.gate c .any true [srcUse a, srcUse b, useU o.k d]
      (s.reads c (o.g ≠ 0) (s.act c o.g) (fun _ => [b])
        (if s.act c o.g = 0 then s.retire c {}
         else
           let w := s.cw c
           let v := (s.uval c b).toNat % w.nl
           let x := w.xread (w.srcLane 0 v) (srcV a)
           let y := w.xread (w.srcLane 1 v) (srcV a)
           if x.poison || (w.tandem && y.poison) then s.consume c
           else if w.tandem && x.val ≠ y.val then s.mismatch c
           else s.putU c o.k d (s.act c o.g) x.val {})))

end Sys2Proof.Machine
end

