-- ==== Sys2Proof/Machine/Alloc.lean ====
section
/-! DEFINITION. The core's storage allocator: pool granules, store tiles, grows and shrinks (R33, R125, R126, R135, R136). -/

namespace Sys2Proof.Machine

/-- The groups resident on a core. -/
def State.coreGroups (s : State) (core : Nat) : List (Nat × Group) := s.groups.filter (fun e => e.2.core = core)

/-- The granules of a run. -/
def runOf (first n : Nat) : List Nat := (List.range n).map (· + first)

/-- The accumulator granules of a group outside its AG run (R125, R135). -/
def Group.extraA (g : Group) : List Nat :=
  g.accPlaces.filterMap (fun p => match p with
    | .granule x => if g.agr.contains x then none else some x
    | .store _ => none)

/-- Every pool granule a group holds. -/
def Group.granules (g : Group) : List Nat :=
  g.vgr ++ runOf g.sg0 g.sg ++ g.agr ++ g.extraV ++ g.extraA

/-- The free pool granules of a core, ascending. -/
def State.freeGranules (s : State) (core : Nat) : List Nat :=
  let used := (s.coreGroups core).flatMap (fun e => e.2.granules)
  (List.range 96).filter (fun x => !used.contains x)

/-- The free store tiles of a core, ascending. -/
def State.freeTiles (s : State) (core : Nat) : List Nat :=
  let used := (s.coreGroups core).flatMap (fun e => e.2.accPlaces)
  (List.range 48).filter (fun x => !used.contains (.store x))

/-- Vector usage of a group in bytes (R135). -/
def State.groupBytes (s : State) (g : Nat) : Nat :=
  ((s.groupSlots g).map (fun sl => (s.crew (s.group g).core sl).bytes)).sum

/-- Granules beyond the reservation that some usage needs (R135). -/
def Group.overV (g : Group) (bytes : Nat) : Nat := (bytes + 16383) / 16384 - g.vg

/-- The vector usage of a group is now what its crews hold: granules beyond the reservation are taken or returned (R135).
None when too few granules are free. -/
def State.fitV (s : State) (g : Nat) (bytes : Nat) : Option State :=
  let r := s.group g
  let need := r.overV bytes
  if need ≤ r.extraV.length then some (s.modGroup g (fun r => { r with extraV := r.extraV.take need }))
  else
    let more := (s.freeGranules r.core).take (need - r.extraV.length)
    if r.extraV.length + more.length = need then some (s.modGroup g (fun r => { r with extraV := r.extraV ++ more })) else none

/-- Change a crew's VGRAN: registers removed are lost, with what is on its way to them, so registers added read 0 (R120, R191). None when a grow does not fit. -/
def State.setVgran (s : State) (core sl v : Nat) : Option State :=
  let w := s.crew core sl
  let bytes := s.groupBytes w.group + v * 2048 - w.vgran * 2048
  match s.fitV w.group bytes with
  | none => none
  | some s =>
    let top := 8 * min v w.vgran
    let s := s.modCrew core sl (fun w => { w with
      vgran := v
      v := w.v.filter (fun e => decide (e.1 < 32 * top))
      loads := w.loads.map (fun p => { p with lanes := p.lanes.map (fun x => { x with lim := min x.lim top }) })
      atoms := w.atoms.map (fun a => { a with lim := min a.lim top }) })
    some (s.modCore core (fun k => { k with
      sfu := mapIf (fun q => q.slot = sl) (fun q => { q with results := q.results.filter (fun r => decide (r.2.1 < top)) }) k.sfu }))

/-- The places that a grow of accumulators takes, in order: store tiles, unused AG granules, free pool granules (R135). -/
def State.accRoom (s : State) (g : Nat) : List AccPlace :=
  let r := s.group g
  (s.freeTiles r.core).map .store ++ (r.agr.filter (fun x => !r.accPlaces.contains (.granule x))).map .granule
    ++ (s.freeGranules r.core).map .granule

/-- The grow order of a place: store tiles, AG granules, granules beyond (R135). -/
def Group.placeRank (g : Group) (p : AccPlace) : Nat :=
  match p with
  | .store _ => 0
  | .granule x => if g.agr.contains x then 1 else 2

/-- Change a group's accumulator count (R135, R232): a shrink keeps the places first in grow order and loses the
accumulators beyond the count; a grow adds cleared ones. None when it does not fit. -/
def State.setAccs (s : State) (g n : Nat) : Option State :=
  let r := s.group g
  let old := r.accPlaces.length
  if n ≤ old then
    let order := r.accPlaces.filter (fun p => r.placeRank p = 0) ++ r.accPlaces.filter (fun p => r.placeRank p = 1)
      ++ r.accPlaces.filter (fun p => r.placeRank p = 2)
    some (s.modGroup g (fun r => { r with accPlaces := order.take n, accs := r.accs.filter (fun e => decide (e.1 < 1024 * n)) }))
  else
    let more := (s.accRoom g).take (n - old)
    if old + more.length = n then some (s.modGroup g (fun r => { r with accPlaces := r.accPlaces ++ more })) else none

/-- Whether an array operation of a group that is not complete names an accumulator from number `n` on (R232). -/
def State.accNamed (s : State) (core g n : Nat) : Bool :=
  (s.core core).arr.any (fun q => (s.crew core q.slot).group = g && q.accs.any (fun a => decide (n ≤ a)))

/-- Whether launch sequence number `a` is older than `b`, modulo 2^32 (R130). -/
def olderSeq (a b : Nat) : Bool := decide (a ≠ b) && decide ((b + 2 ^ 32 - a % 2 ^ 32) % 2 ^ 32 < 2 ^ 31)

/-- Whether one request comes before another: older group first, then the lower crew number (R135). -/
def State.growBefore (s : State) (core : Nat) (a b : GrowReq) : Bool :=
  let x := s.crew core a.slot
  let y := s.crew core b.slot
  let p := (s.group x.group).lseq
  let q := (s.group y.group).lseq
  olderSeq p q || (p = q && decide (x.no < y.no))

/-- The request an allocator would grant first (R135). -/
def State.firstGrow (s : State) (core : Nat) : Option GrowReq :=
  (s.core core).grows.foldl (fun b r => match b with
    | none => some r
    | some x => if s.growBefore core r x then some r else some x) none

/-- The grant of a request, when it fits. -/
def State.grantOf (s : State) (core : Nat) (r : GrowReq) : Option State :=
  if r.acc then s.setAccs (s.crew core r.slot).group r.want else s.setVgran core r.slot r.want

/-- Whether a request grows what its crew or group has (R135): anything else completes at once. -/
def State.isGrow (s : State) (core : Nat) (r : GrowReq) : Bool :=
  let w := s.crew core r.slot
  decide ((if r.acc then (s.group w.group).accPlaces.length else w.vgran) < r.want)

/-- A REGG or ACCG request of the fragment in hand (R135, R191, R232): a shrink or an equal value completes at once, a grow when
nothing older waits and it fits; else it waits. The answer is the state and the status, which is for uniform register `d`, or none while
it waits: its grant, or the break of a deadlock, then ends the instruction. -/
def State.askGrow (s : State) (c : Cur) (acc : Bool) (want : Nat) (d : BitVec 5) : State × Option Nat :=
  match (s.core c.core).grows.find? (fun r => r.slot = c.slot && r.acc = acc && r.lanes = c.lanes) with
  | some _ => (s, none)
  | none =>
    let r : GrowReq := { slot := c.slot, lanes := c.lanes, acc := acc, want := want, d := d }
    let free := !s.isGrow c.core r || (s.core c.core).grows.all (fun x => s.growBefore c.core r x)
    match (if free then s.grantOf c.core r else none) with
    | some s => (s, some 0)
    | none => (s.modCore c.core (fun k => { k with grows := k.grows ++ [r] }), none)

end Sys2Proof.Machine
end

