-- ==== Sys2Proof/Machine/Wait.lean ====
section
/-! DEFINITION. The meetings of fibres and crews: SYNCM, REGION and REGEND, GBAR, and the comparison points of a run
(R25, R35, R40 to R42, R182, R187, R188, R393, R411, R415). -/

namespace Sys2Proof.Machine

/-- The fragment of waiting lanes as the instruction in hand: word and prefix of its lowest fibre. -/
def State.curAt (s : State) (core sl : Nat) (m : BitVec 32) : Cur :=
  let f := (s.crew core sl).fibre (lowestLane m)
  { core := core, slot := sl, lanes := m, pc := f.pc, word := f.word, ins := .hintNop, pfx := f.pfx }

/-- The lanes of a crew that wait for a reason. -/
def Crew.waiting (w : Crew) (p : Wait → Bool) : BitVec 32 := w.lanesWhere (fun f => f.live && p f.wait)

/-- Whether all lanes of a mask stand at one PC. -/
def Crew.onePc (w : Crew) (m : BitVec 32) : Bool :=
  (lanesOf m).all (fun l => (w.fibre l).pc == (w.fibre (lowestLane m)).pc)

/-- The lanes of a mask at its lowest PC. -/
def Crew.lowPc (w : Crew) (m : BitVec 32) : BitVec 32 :=
  let p := (lanesOf m).foldl (fun (b : Nat) l => if (w.fibre l).pc.toNat < b then (w.fibre l).pc.toNat else b) (2 ^ 57)
  maskOf ((lanesOf m).filter (fun l => (w.fibre l).pc.toNat = p))

/-- Write a trace record of a kind that the crew's mask enables (R411). -/
def State.traceOn (s : State) (c : Cur) (kind : Nat) (data info : Nat) : State :=
  if (s.crew c.core c.slot).trmask.getLsbD kind then
    s.trace c.core c.slot kind c.pc data c.lanes info c.pfx.level
  else s

/-- Request a debug stop of a group (R412). -/
def State.debugStop (s : State) (g : Nat) : State := s.modGroup g (fun r => { r with haltReq := true })

/-- RETG (R399): the retirements of the group's crews, ended crews included. -/
def State.retg (s : State) (g : Nat) : Nat :=
  let r := s.group g
  r.retg + ((s.groupSlots g).map (fun sl => (s.crew r.core sl).reti)).sum

/-- A comparison point of run comparison (R415): recorded, or compared with the next entry for the group and crew, a handler crew under
number 32; a restored group is recorded but no longer compared. `what` is 1 BARA, 2 GBAR, 3 RELEASE, `m` the lanes that issued it; a skipped point compares equal only with a skipped entry. `prio` is the level of a PRIO (R110). -/
def State.comparePoint (s : State) (core sl what count : Nat) (m : BitVec 32) (skip : Bool) (prio : Nat) : State :=
  let w := s.crew core sl
  let g := s.group w.group
  let q := s.runcmp
  if !q.on || q.lid ≠ g.node || (q.compare && g.restored) then s
  else if !q.compare then s.trace core sl 5 w.lastPc count m (if skip then 0 else what) prio
  else
    let no := if what = 2 then 16 else if sl = 32 then 32 else w.no
    let e := q.recording.find? (fun e => e.1 = g.gnum && e.2.1 = no)
    let s := match e with
      | some e => { s with runcmp := { q with recording := q.recording.erase e } }
      | none => s
    let same := match e with
      | some e => e.2.2.1 == skip && (skip || e.2.2.2 = count)
      | none => false
    if same then s
    else
      let s := s.trace core sl 6 w.lastPc count m (match e with
        | some e => e.2.2.2
        | none => 0) prio
      if (s.ctx (s.node g.node).ctx).dstop then s.debugStop w.group else s

/-- Complete the pending SYNCM set when every fibre it names waits (R25, R182). -/
def State.trySync (s : State) (core sl : Nat) : State :=
  let w := s.crew core sl
  match w.sync with
  | none => s
  | some y =>
    let m := y.mask &&& w.liveMask
    let here := w.waiting (fun x => x = .syncm) &&& m
    if here = m then
      let s := s.setCrew core sl { w with sync := none }
      if m = 0 then s else s.retire { (s.curAt core sl m) with pc := y.pc } { swap := true }
    else s

/-- REGION or REGEND once for the crew (R40, R42, R188): push or pop the region stack, advance the restart points. -/
def State.doRegion (s : State) (c : Cur) : State :=
  let w := s.crew c.core c.slot
  if (c.word.extractLsb' 4 4).toNat = 11 then
    if 8 ≤ w.rstack.length then s.takeFault c (faultOf 12 1)
    else
      let id : BitVec 16 := (c.word.extractLsb' 25 7).setWidth 16
      let id : BitVec 16 := match c.pfx.imm with
        | some p => (p ++ (c.word.extractLsb' 25 7) : BitVec 31).setWidth 16
        | none => id
      let s := s.modCrew c.core c.slot (fun w => { w with rstack := id :: w.rstack })
      (s.retire c { swap := true, restart := true }).traceOn c 10 id.toNat 0
  else
    match w.rstack with
    | [] => s.takeFault c (faultOf 12 2)
    | id :: rest =>
      let s := s.modCrew c.core c.slot (fun w => { w with rstack := rest })
      (s.retire c { swap := true, restart := true }).traceOn c 10 id.toNat 1

/-- The crew's fibres meet at a REGION or REGEND (R41); a crew whose group is to halt stops before it executes (R393). -/
def State.tryRegion (s : State) (core sl : Nat) : State :=
  let w := s.crew core sl
  let m := w.waiting (fun x => x = .region)
  if m = 0 || m ≠ w.liveMask || w.halted then s
  else if !w.onePc m then
    let low := w.lowPc m
    s.takeFault (s.curAt core sl low) (faultOf 12 3)
  else if sl < 32 && (s.group w.group).haltReq then
    let s := (s.setCrew core sl { w with halted := true }).modGroup w.group (fun g => { g with stopTime := s.timeNs })
    s.trace core sl 3 (w.fibre (lowestLane m)).pc (s.group w.group).lseq m 0 (w.fibre (lowestLane m)).pfx.level
  else s.doRegion (s.curAt core sl m)

/-- Whether a crew has arrived at GBAR: each of its live fibres waits at a GBAR at one PC (R187). One that has migrated arrives once the
flush of its old core has ended, for GBAR acquires (R280, R292). -/
def Crew.atGbar (w : Crew) : Bool :=
  let m := w.waiting (fun x => x = .gbar)
  m ≠ 0 && m = w.liveMask && w.onePc m && w.heldBy.isNone

/-- The key of the arrivals of a partner's gang: at most 16 partners (R442). -/
def arrivalKey (i gang : Nat) : Nat := 16 * gang + i

/-- GBAR of a gang (R35, R187): the crews at different PCs fault, once every live fibre of the crew waits at a GBAR (log 33); when every
live crew has arrived, all go on together, with the acquire of R280. -/
def State.tryGbar (s : State) (g : Nat) : State :=
  let gs := s.gangGroups g
  let crews := gs.flatMap (fun x => (s.groupSlots x).map (fun sl => ((s.group x).core, sl)))
  let s := s.each crews (fun s e =>
    let w := s.crew e.1 e.2
    let m := w.waiting (fun x => x = .gbar)
    if m ≠ 0 && m = w.liveMask && !w.onePc m then s.takeFault (s.curAt e.1 e.2 (w.lowPc m)) (faultOf 13 2) else s)
  let node := (s.group g).node
  let bound := s.xbars.filter (fun b => b.lid = node)
  let gang := (s.group g).gang
  let away := bound.all (fun b => (List.range b.partners.length).all (fun i =>
    decide (Tab.get b.done 0 gang < Tab.get b.arrivals 0 (arrivalKey i gang))))
  if crews.isEmpty || !crews.all (fun e => (s.crew e.1 e.2).atGbar) || !away then s
  else
    let handlers := gs.filterMap (fun x =>
      let k := (s.group x).core
      match s.crew? k 32 with
      | some w => if w.group = x && w.atGbar then some (k, 32) else none
      | none => none)
    let level (x : Nat) : Nat := match s.groupSlots x with
      | sl :: _ => let w := s.crew (s.group x).core sl; (w.fibre (lowestLane (w.waiting (fun y => y = .gbar)))).pfx.level
      | [] => 0
    let levels := gs.map (fun x => (x, level x))
    let s := s.each (crews ++ handlers) (fun s e =>
      let m := (s.crew e.1 e.2).waiting (fun x => x = .gbar)
      (s.retire (s.curAt e.1 e.2 m) { swap := true, restart := true }).acquire e.1 true)
    let s := { s with xbars := mapIf (fun b => b.lid = node) (fun b => { b with done := Tab.set b.done 0 gang (Tab.get b.done 0 gang + 1) }) s.xbars }
    s.each levels (fun s x => match s.groupSlots x.1 with
      | sl :: _ => s.comparePoint (s.group x.1).core sl 2 (s.retg x.1) (s.crew (s.group x.1).core sl).liveMask false x.2
      | [] => s)

/-- End a wait of some fibres of a crew: each set at one PC goes on as one fragment. -/
def State.retireWaiting (s : State) (core sl : Nat) (p : Wait → Bool) (r : Done) : State :=
  s.each (List.range 32) (fun s l =>
    let w := s.crew core sl
    let f := w.fibre l
    if f.live && p f.wait then
      s.retire (s.curAt core sl (w.lanesWhere (fun g => g.live && p g.wait && g.pc == f.pc))) r
    else s)

/-- End the waits at a barrier object whose PHASE has moved on (R186). -/
def State.releaseBarw (s : State) (g off : Nat) : State :=
  let core := (s.group g).core
  s.each (((s.core core).slots.filter (fun e => e.2.group = g)).map Prod.fst) (fun s sl =>
    s.retireWaiting core sl (fun x => match x with
      | .barw o _ => o = off
      | _ => false) { swap := true })

/-- Deliver the earliest-issued imprecise fault that has arrived, in place of the instruction's effect (R320). -/
def State.deliver (s : State) (c : Cur) (k : State) : State :=
  match (s.crew c.core c.slot).impr with
  | [] => k
  | f :: rest =>
    let e := rest.foldl (fun a b => if b.seq < a.seq then b else a) f
    let s := s.modCrew c.core c.slot (fun w => { w with impr := w.impr.erase e })
    s.takeFault c { e with impr := true, lanes := c.lanes }

/-- Whether a fence of a scope still waits: loads not performed, then the counters (R278). -/
def Crew.fenceWaits (w : Crew) (scope : Nat) : Bool :=
  !w.loads.isEmpty || (2 ≤ scope && w.ackCl ≠ 0) || (3 ≤ scope && w.ackDv ≠ 0) || (4 ≤ scope && w.ackSy ≠ 0)

/-- Whether earlier loads, atomics or peer stores of the crew are still to be answered, which ACQUIRE waits for (R274, R317). -/
def Crew.answersDue (w : Crew) : Bool := !w.loads.isEmpty || w.ackDv ≠ 0 || w.ackSy ≠ 0

/-- Wait as a fence of a scope, then go on. -/
def State.fenced (s : State) (c : Cur) (scope : Nat) (k : State) : State :=
  if (s.crew c.core c.slot).fenceWaits scope then s.hold c (.fence scope) else k

end Sys2Proof.Machine
end

