-- ==== Sys2Proof/Machine/Control.lean ====
section
/-! DEFINITION. Group 8: branches, fibres, meetings, barriers, traps and the return from one (R178 to R191). -/

namespace Sys2Proof.Machine

/-- An address as a fault reports it. -/
def lanesFault (cause sub : Nat) (l : Nat) (a : Word) : Nat × FaultInfo := (l, { cause := cause, sub := sub, addr := a.toNat })

/-- The faults of code addresses: not a multiple of 4, or at or above 2^57 (R179, R180). -/
def codeFaults (ts : List (Nat × Word)) : List (Nat × FaultInfo) :=
  ts.filterMap (fun t =>
    if 2 ^ 57 ≤ t.2.toNat then some (lanesFault 2 1 t.1 t.2)
    else if t.2.toNat % 4 ≠ 0 then some (lanesFault 4 1 t.1 t.2) else none)

/-- A branch (R26, R48, R179): targets checked in every active fibre before any moves; `link` is CALL's write of v7. -/
def State.branch (s : State) (c : Cur) (g : BitVec 3) (xs : List Src) (link : Bool) (kind : Nat) (target : Crew → Nat → Word) : State :=
  s.gate c .any false (xs.map srcUse ++ [if link then .v 7 else .none])
    (s.reads c (g ≠ 0) (s.act c g) (fun _ => xs)
      (let w := s.cw c
       let m := s.act c g
       let ts := (lanesOf m).map (fun l => (l, target w l))
       if w.sys && ((m ≠ 0 && m ≠ c.lanes) || ((lanesOf c.lanes).map (target w)).eraseDups.length ≥ 2) then s.takeFault c (faultOf 8 0)
       else if s.pairsDiffer c m (fun l => [target w l]) then s.mismatch c
       else match pickFault (codeFaults ts) with
         | some f => s.takeFault c f
         | none =>
           let s := if link then
               s.modCrew c.core c.slot (fun w => w.writeV 7 ((lanesOf m).map (fun l => (l, (c.pc + 4).setWidth 64))))
             else s
           let s := s.retire c { pcs := ts.map (fun t => (t.1, t.2.setWidth 57)) }
           if m = 0 then s else s.traceOn c kind (target w (lowestLane m)).toNat 0))

/-- The target of a format B branch: PC + 4 × OFF21 (R179). -/
def Cur.rel (c : Cur) (off : BitVec 21) : Word := c.pc.setWidth 64 + (off.signExtend 64 <<< 2)

/-- BRA (R179). -/
def execBra (o : OpB) (s : State) : Host.Outcome State Fault Refusal :=
  s.run (fun c => s.branch c o.g [] false 7 (fun _ _ => c.rel o.off))
/-- BRX (R179). -/
def execBrx (o : OpJ) (s : State) : Host.Outcome State Fault Refusal :=
  s.run (fun c => s.branch c o.g [o.a, o.b] false 7 (fun w l => w.val l o.a + w.val l o.b))
/-- CALL (R179). -/
def execCall (o : OpB) (s : State) : Host.Outcome State Fault Refusal :=
  s.run (fun c => s.branch c o.g [] true 8 (fun _ _ => c.rel o.off))
/-- RET (R179). -/
def execRet (o : OpJ) (s : State) : Host.Outcome State Fault Refusal :=
  s.run (fun c => s.branch c o.g [o.a, o.b] false 9 (fun w l => w.val l o.a + w.val l o.b))

/-- A fibre made by FSPAWN in a slot (R19, R180). -/
def Fibre.spawned (f : Fibre) (pc : BitVec 57) (wbase : BitVec 6) (parent spawner : Nat) (units : Nat) : Fibre :=
  { ({} : Fibre) with
    st := .live, pc := pc, wbase := wbase, restart := pc - 4, parent := BitVec.ofNat 5 parent
    spawner := some (BitVec.ofNat 5 spawner), readyAt := units, mflags := f.mflags }

/-- The spawn requests of a fragment in ascending lanes: those that find a free slot, as (lane, slot) in visible numbers. -/
def Crew.spawns (w : Crew) (ls : List Nat) (slot : Nat → Nat) : List (Nat × Nat) :=
  ls.foldl (fun acc l =>
    let t := slot l
    let p := if w.tandem then 2 * t else t
    if w.sys || decide (w.nl ≤ t) || (w.fibre p).live || acc.any (fun e => e.2 = t) then acc else acc ++ [(l, t)]) []

/-- FSPAWN (R19, R180). -/
def execFspawn (o : OpU) (s : State) : Host.Outcome State Fault Refusal :=
  s.run (fun c =>
    s.gate c .any false [srcUse o.a, srcUse o.b, useU o.k o.d]
      (s.reads c (o.g ≠ 0) (s.act c o.g) (fun _ => [o.a, o.b])
        (let w := s.cw c
         let m := s.act c o.g
         match pickFault (codeFaults ((lanesOf m).map (fun l => (l, w.val l o.a)))) with
         | some f => s.takeFault c f
         | none =>
           let ok := w.spawns (lanesOf (w.primaries m)) (fun l => (w.val l o.b).toNat % 32)
           let s := s.modCrew c.core c.slot (fun w => ok.foldl (fun w e =>
             let b := w.val e.1 o.b
             let pc : BitVec 57 := (w.val e.1 o.a).setWidth 57
             let kid (w : Crew) (p by_ : Nat) : Crew :=
               w.modFibre p (fun f => f.spawned pc (b.extractLsb' 5 6) (lowestLane c.lanes) by_ w.units)
             if w.tandem then kid (kid w (2 * e.2) e.1) (2 * e.2 + 1) (e.1 + 1) else kid w e.2 e.1) w)
           s.putU c o.k o.d m (BitVec.ofNat 64 (ok.foldl (fun a e => a + 2 ^ (w.visible e.1)) 0)) {})))

/-- FEND (R16, R181): in tandem mode a pair exits as one (R47). -/
def execFend (o : OpG) (s : State) : Host.Outcome State Fault Refusal :=
  s.run (fun c =>
    s.gate c .any false []
      (s.reads c (o.g ≠ 0) (s.act c o.g) (fun _ => [])
        (let w := s.cw c
         let m := s.act c o.g
         let m := if w.tandem then w.physMask (w.visMask m) &&& c.lanes else m
         ((s.retire c {}).exitLanes c.core c.slot m).reapCrew c.core c.slot)))

/-- SYNCM (R25, R182). -/
def execSyncm (o : OpS1) (s : State) : Host.Outcome State Fault Refusal :=
  s.run (fun c =>
    s.gate c .any false [srcUse o.a]
      (s.reads c false c.lanes (fun _ => [o.a])
        (let w := s.cw c
         let x := s.uval c o.a
         let m := w.physMask (x.setWidth 32) &&& w.liveMask
         let fault (sub : Nat) (y : SyncSet) : State :=
           s.takeFault c { cause := 11, sub := sub
                           detail := (w.visMask (y.mask &&& w.liveMask)).toNat + (w.visMask m).toNat * 2 ^ 32 }
         let join (s : State) : State :=
           let out := c.lanes &&& ~~~m
           let s := if out = 0 || out = c.lanes then s
             else s.modCrew c.core c.slot (fun w => w.modLanes c.lanes (fun _ f => { f with parent := BitVec.ofNat 5 (lowestLane c.lanes) }))
           let s := if c.lanes &&& m = 0 then s else s.hold { c with lanes := c.lanes &&& m } .syncm
           let s := if out = 0 then s else s.retire { c with lanes := out } { swap := true }
           s.trySync c.core c.slot
         match w.sync with
         | none => if m = 0 then s.retire c { swap := true }
                   else join (s.setCrew c.core c.slot { w with sync := some { mask := m, pc := c.pc } })
         | some y =>
           if y.pc ≠ c.pc then fault 1 y
           else if y.mask &&& w.liveMask ≠ m then fault 0 y
           else join s)))

/-- CVSET (R30, R183): its convergence checks come before it reads A (R371). A handler crew has no convergence registers (R376): log 8. -/
def execCvset (o : OpCv) (s : State) : Host.Outcome State Fault Refusal :=
  s.run (fun c =>
    s.gate c .any false [srcUse o.a]
      (let w := s.cw c
       let r := (s.group w.group).cv o.cv.toNat
       if c.slot = 32 then s.takeFault c (faultOf 10 2)
       else if r.signed_ ≠ 0 then s.takeFault c (faultOf 10 1)
       else s.reads c false c.lanes (fun _ => [o.a])
         (let m := w.primaries (w.physMask ((s.uval c o.a).setWidth 32)) &&& w.liveMask
          (s.modGroup w.group (fun g => g.setCv o.cv.toNat { owned := true, owner := w.no, set := m })).retire c {})))

/-- The offset of an address in the issuing group's own partition: the local window, or the cluster window naming the
issuing core (R185, R240). -/
def State.ownPad (s : State) (c : Cur) (x : Nat) : Option Nat :=
  let g := s.group (s.cw c).group
  match regionOf x with
  | .local_ o => if o < g.padLimit then some o else none
  | .cluster k o => if k = c.core % 8 && o < g.padLimit then some o else none
  | _ => none

/-- A barrier object or descriptor word by its checks (R185): alignment, partition; then what is done with the offset. -/
def State.withObject (s : State) (c : Cur) (x : Word) (k : Nat → State) : State :=
  if x.toNat % 8 ≠ 0 then s.takeFault c { cause := 4, sub := 1, addr := x.toNat }
  else match s.ownPad c x.toNat with
    | none => s.takeFault c { cause := 2, sub := 6, addr := x.toNat }
    | some off => k off

/-- The object word, with the consumption of a poisoned one (R133, R260). -/
def State.objectWord (s : State) (c : Cur) (off : Nat) (k : State → Nat → State) : State :=
  let g := (s.cw c).group
  let s := s.touchPad g off 8
  let r := s.padRead g off 8
  if r.2 then s.consume c else k s (leNat r.1)

/-- COUNT, ARRIVED and PHASE of a barrier object, and whether it is well formed (R184, R185). -/
def barOk (w : Nat) : Bool := decide (w / 2 ^ 33 = 0) && decide (w % 65536 ≠ 0) && decide (w / 65536 % 65536 < w % 65536)

/-- The object after one arrival (R185). -/
def barArrive (w : Nat) : Nat :=
  let count := w % 65536
  let n := w / 65536 % 65536 + 1
  let ph := w / 2 ^ 32 % 2
  if n = count then count + (1 - ph) * 2 ^ 32 else count + n * 65536 + ph * 2 ^ 32

/-- BARA (R185, R280). -/
def execBara (o : OpBar) (s : State) : Host.Outcome State Fault Refusal :=
  s.run (fun c =>
    s.gate c .any false [srcUse o.a, useU o.k o.d]
      (s.reads c false c.lanes (fun _ => [o.a])
        (s.fenced c 2 (s.deliver c
          (s.withObject c (s.uval c o.a) (fun off =>
            s.objectWord c off (fun s w =>
              if !barOk w then s.takeFault c { cause := 13, sub := 1, addr := 0 }
              else
                let g := (s.cw c).group
                let all := c.lanes = (s.cw c).liveMask
                let s := s.padObject g off (barArrive w)
                let s := if barArrive w / 2 ^ 32 = w / 2 ^ 32 then s else s.releaseBarw g off
                let s := s.putU c o.k o.d c.lanes (BitVec.ofNat 64 (w / 2 ^ 32 % 2)) { restart := true }
                s.comparePoint c.core c.slot 1 (s.crew c.core c.slot).reti c.lanes (!all) c.pfx.level)))))))

/-- BARW (R186): waits until PHASE differs from B<0>. -/
def execBarw (o : OpS2) (s : State) : Host.Outcome State Fault Refusal :=
  s.run (fun c =>
    s.gate c .any false [srcUse o.a, srcUse o.b]
      (s.reads c false c.lanes (fun _ => [o.a, o.b])
        (s.withObject c (s.uval c o.a) (fun off =>
          s.objectWord c off (fun s w =>
            if !barOk w then s.takeFault c { cause := 13, sub := 1, addr := 0 }
            else
              let s := s.setTag (s.cw c).group off
              if (w / 2 ^ 32 % 2 = 1) = (s.uval c o.b).getLsbD 0 then
                s.hold c (.barw off ((s.uval c o.b).getLsbD 0))
              else s.retire c { swap := true })))))

/-- GBAR (R35, R187, R280). -/
def execGbar (s : State) : Host.Outcome State Fault Refusal :=
  s.run (fun c =>
    s.gate c .any false []
      (s.fenced c 2 (s.deliver c
        ((s.hold c .gbar).tryGbar (s.cw c).group))))

/-- REGION (R40, R41, R188). -/
def execRegion (_o : OpRg) (s : State) : Host.Outcome State Fault Refusal :=
  s.run (fun c => s.gate c .any false [] ((s.hold c .region).tryRegion c.core c.slot))

/-- REGEND (R40, R41, R188). -/
def execRegend (s : State) : Host.Outcome State Fault Refusal :=
  s.run (fun c => s.gate c .any false [] ((s.hold c .region).tryRegion c.core c.slot))

/-- TRAP (R189): the instruction retires, so the active fibres are rewound to the one after it, and trap there. DESIGN CHOICE (log 33):
where a guard leaves out the lowest lane, the record's FRAG is the lowest of the fibres that trap. -/
def execTrap (o : OpTr) (s : State) : Host.Outcome State Fault Refusal :=
  s.run (fun c =>
    s.gate c .any false []
      (s.reads c (o.g ≠ 0) (s.act c o.g) (fun _ => [])
        (let m := s.act c o.g
         let s := s.retire c { swap := true, restart := true }
         if m = 0 then s
         else s.takeFault { c with lanes := m } { cause := 15, lanes := m, detail := (c.imm o.imm).toNat % 65536 })))

/-- RETT (R190, R377, R378). -/
def execRett (o : OpRt) (s : State) : Host.Outcome State Fault Refusal :=
  s.run (fun c =>
    s.gate c .any false [srcUse o.a, .s o.d.toNat]
      (if !(s.cw c).sys then s.takeFault c { cause := 2, sub := 10 }
       else s.reads c false c.lanes (fun _ => [o.a])
        (let a := (s.uval c o.a).toNat
         let mine := (s.core c.core).stq.filter (fun q => q.slot = c.slot && decide (a / 32 ≤ q.addr / 32) && decide (q.addr / 32 ≤ (a + 127) / 32))
         if !mine.isEmpty then s.hold c (.accepted a)
         else
           let r := s.returnFrom c.core c.slot a
           if r.2.2 then r.1.consume c
           else r.1.putU c false o.d c.lanes (BitVec.ofNat 64 r.2.1) { swap := true })))

/-- REGG (R135, R191). A handler crew's file is its own: a value other than its one granule is not granted (log 8). -/
def execRegg (o : OpRt) (s : State) : Host.Outcome State Fault Refusal :=
  s.run (fun c =>
    s.gate c .any false [srcUse o.a, .s o.d.toNat]
      (s.reads c false c.lanes (fun _ => [o.a])
        (let v := (s.uval c o.a).toNat
         let done (s : State) (st : Nat) : State := s.putU c false o.d c.lanes (BitVec.ofNat 64 st) { swap := true }
         if v < 1 || 8 < v then done s 2
         else if c.slot = 32 then done s (if v = 1 then 0 else 1)
         else
           let r := s.askGrow c false v o.d
           match r.2 with
           | some st => done r.1 st
           | none => r.1.hold c .grow)))

end Sys2Proof.Machine
end

