-- ==== Sys2Proof/Machine/Mem.lean ====
section
/-! DEFINITION. What groups 9 and 10 share: addresses, the checks of each lane, grain claims, orders within a crew, and the
performing of loads (R293 to R300, R267 to R269, R281). -/

namespace Sys2Proof.Machine

/-- The kinds of access that R296 tells apart. -/
inductive Acc where
  | load
  | store
  | atomic
  deriving DecidableEq, Repr

/-- The offset of format M: O7 in units of `z` bytes (R293). -/
def offM (off : BitVec 7) (z : Nat) : Word := off.signExtend 64 * BitVec.ofNat 64 z

/-- The group of the crew's gang on core `k` of its cluster (R240). -/
def State.gangOn (s : State) (c : Cur) (k : Nat) : Option Nat :=
  if 8 ≤ k then none
  else (s.gangGroups (s.cw c).group).find? (fun g => (s.group g).core = 8 * clusterOf c.core + k)

/-- Whether a byte of an access lies in the reserved window (R240). -/
def inReserved (va n : Nat) : Bool := decide (va < 0x01FFFFFD00000000) && decide (0x01FFFFFC00000000 < va + n)

/-- Whether a group of the core has bound a weight slot that some bytes of the operand die touch (R225). -/
def State.dieBound (s : State) (core off n : Nat) : Bool :=
  (List.range ((off % 5120 + n + 5119) / 5120)).any (fun i => s.slotBound core (off / 5120 + i))

/-- Cause and subcode of an access, or its place, its alignment apart (R296, R298, R437). DESIGN CHOICE (log 33): of a misaligned access
that reaches into a second page, whose mapping and permission the spec does not mention, the page of the first byte alone is checked. -/
def State.placeAt (s : State) (c : Cur) (acc : Acc) (va n : Nat) : Except (Nat × Nat) Place :=
  if inReserved va n then .error (2, 6)
  else match regionOf va with
  | .beyond => .error (2, 1)
  | .reserved => .error (2, 6)
  | .aperture p x =>
    match Tab.find s.peers p with
    | none => .error (2, 6)
    | some r =>
      if !(s.ctx (s.crewCtx c.core c.slot)).aper then .error (2, 6)
      else match r.windows.find? (fun w => decide (w.base ≤ x) && decide (x < w.base + w.len)) with
        | none => .error (2, 2)
        | some w =>
          if acc == .atomic then .error (2, 5)
          else if acc == .store && !w.write then .error (2, 4)
          else .ok (.peer p x)
  | .die off =>
    if 491520 < off + n then .error (2, 6)
    else if acc == .atomic then .error (2, 5)
    else if acc == .store && s.dieBound c.core off n then .error (2, 7)
    else .ok (.die off)
  | .cluster k off =>
    match s.gangOn c k with
    | none => .error (2, 6)
    | some g => if (s.group g).padLimit < off + n then .error (2, 6) else .ok (.pad g off)
  | .local_ off =>
    let g := (s.cw c).group
    if (s.group g).padLimit < off + n then .error (2, 6)
    else if acc != .load && s.tagBlocked g off n then .error (2, 8)
    else .ok (.pad g off)
  | .mapped =>
    match s.coreXlate c.core (s.crewCtx c.core c.slot) va with
    | none => .error (2, 2)
    | some x =>
      let ro := x.attr = attrReadOnly || x.attr = attrCompressed
      if acc == .load && !x.r then .error (2, 3)
      else if acc != .load && ro then .error (2, 4)
      else if acc == .store && x.attr = attrAtomic then .error (2, 5)
      else if acc == .atomic && x.attr ≠ attrAtomic then .error (2, 5)
      else .ok (.mem x.laddr x.attr x.x)

/-- Whether a place lies in device memory. -/
def Place.isMem (p : Place) : Bool :=
  match p with
  | .mem _ _ _ => true
  | .pad _ _ => false
  | .die _ => false
  | .peer _ _ => false

/-- An access with its alignment (R295): `plain` accesses to device memory need only lie in one grain; every other access is
naturally aligned. -/
def State.placeOf (s : State) (c : Cur) (acc : Acc) (va n : Nat) (plain : Bool) : Except (Nat × Nat) Place :=
  match s.placeAt c acc va n with
  | .error e => .error e
  | .ok p =>
    if plain && p.isMem then (if va % 512 + n ≤ 512 then .ok p else .error (4, 2))
    else if va % n = 0 then .ok p else .error (4, 1)

/-- A lane's access: its address, and its place or its cause. -/
structure LaneAcc where
  lane : Nat
  va : Word
  res : Except (Nat × Nat) Place

/-- The accesses of some lanes (R297). -/
def State.laneAccs (s : State) (c : Cur) (acc : Acc) (m : BitVec 32) (ea : Nat → Word) (n : Nat) (plain : Bool) : List LaneAcc :=
  (lanesOf m).map (fun l => { lane := l, va := ea l, res := s.placeOf c acc (ea l).toNat n plain })

/-- The faults of the lanes that have a cause. -/
def accFaults (xs : List LaneAcc) : List (Nat × FaultInfo) :=
  xs.filterMap (fun x => match x.res with
    | .error e => some (x.lane, { cause := e.1, sub := e.2, addr := x.va.toNat })
    | .ok _ => none)

/-- The lanes that have a place. -/
def accLanes (xs : List LaneAcc) : List PLane :=
  xs.filterMap (fun x => match x.res with
    | .ok p => some { lane := x.lane, va := x.va.toNat, place := p }
    | .error _ => none)

/-- Whether two accesses of `n` and `k` bytes touch a common sector of memory, or common bytes elsewhere (R269). -/
def Place.meets (a : Place) (n : Nat) (b : Place) (k : Nat) : Bool :=
  let cut (x y : Nat) : Bool := decide (x < y + k) && decide (y < x + n)
  match a, b with
  | .mem x _ _, .mem y _ _ => decide (x / 32 ≤ (y + k - 1) / 32) && decide (y / 32 ≤ (x + n - 1) / 32)
  | .pad g x, .pad h y => g = h && cut x y
  | .die x, .die y => cut x y
  | .peer p x, .peer q y => p = q && cut x y
  | _, _ => false

/-- An access whose place lies in this core's own SRAM by the local or operand-die window, performed at issue (R241, R279). -/
def PLane.inPlace (p : PLane) : Bool :=
  match regionOf p.va with
  | .local_ _ => true
  | .die _ => true
  | _ => false

/-- Bytes a load reads in a lane. -/
def LoadKind.size (k : LoadKind) : Nat :=
  match k with
  | .plain n _ => n
  | .quad => 16
  | .uniform n => n
  | .acquire _ => 8
  | .nocache => 8

/-- The crew's requests in flight that an access must follow: acquiring loads whatever they name, and those that touch a
common byte (R269, R302). A load performed at issue follows a pending load of the byte; other loads do not follow loads here, and remote stores
do not follow remote stores: they are performed in their order. -/
def State.mustFollow (s : State) (c : Cur) (acc : Acc) (ps : List PLane) (n : Nat) : List Nat :=
  let w := s.cw c
  let hit (q : Place) (k : Nat) : Bool := ps.any (fun p => p.place.meets n q k)
  (w.loads.filter (fun l => (match l.kind with
      | .acquire _ => true
      | _ => l.lanes.any (fun x =>
          if acc == .load then ps.any (fun p => p.inPlace && p.place.meets n x.place l.kind.size) else hit x.place 16)))).map PLoad.id
    ++ (w.atoms.filter (fun a => a.answer.isNone && hit a.place a.size)).map PAtom.id
    ++ ((s.core c.core).remq.filter (fun r => r.slot = c.slot && !r.acked
      && ((acc == .load && hit (.pad r.tgroup r.off) r.data.length)
        || ps.any (fun p => (acc == .atomic || (acc == .store && p.inPlace)) && p.place.meets n (.pad r.tgroup r.off) r.data.length)))).map RemReq.id
    ++ (s.peerOut.filter (fun r => r.core = c.core && r.slot = c.slot && acc == .load && hit (.peer r.peer r.addr) r.data.length)).map PeerReq.id

/-- What loads of some kinds follow beside those: LDNC.D, which passes L1 by, the crew's own stores to its sectors that the appender has
not accepted (R269, R303), and an LDA.D with an acquire whose lanes all are performed at issue, every earlier load (R274, R302). -/
def State.loadFollow (s : State) (c : Cur) (kind : LoadKind) (ps : List PLane) : List Nat :=
  match kind with
  | .nocache => ((s.core c.core).stq.filter (fun q => q.slot = c.slot && q.copyId.isNone
      && ps.any (fun p => p.place.meets 8 (.mem (32 * q.lsec) 0 false) 32))).map StoreReq.seq
  | .acquire sc => if sc ≠ 0 && ps.all PLane.inPlace then (s.cw c).loads.map PLoad.id else []
  | .plain _ _ => []
  | .quad => []
  | .uniform _ => []

/-- Wait for those requests; the first load of a migrated crew waits for the flush of its old core (R292). -/
def State.ordered (s : State) (c : Cur) (acc : Acc) (ps : List PLane) (n : Nat) (k : State) : State :=
  match s.mustFollow c acc ps n with
  | [] => match (if acc == .load then (s.cw c).heldBy else none) with
    | some h => s.hold c (.flush h.1 h.2.1 h.2.2)
    | none => k
  | ids => s.hold c (.operands ids)

/-- The TLB after the accesses of an instruction (R348). -/
def State.tlbFills (s : State) (c : Cur) (ps : List PLane) : State :=
  s.each ps (fun s p => match p.place with
    | .mem _ _ _ => s.tlbFill c.core (s.crewCtx c.core c.slot) p.va
    | .pad _ _ => s
    | .die _ => s
    | .peer _ _ => s)

/-- The state of a peer by its ports (R434): 0 reachable, 1 recovering, 2 failed. -/
def State.peerState (s : State) (p : Nat) : Nat :=
  match Tab.find s.peers p with
  | none => 2
  | some r =>
    let st := r.ports.map (fun i => (Tab.get s.ports {} i).st)
    if st.any (fun x => x = .up || x = .half) then 0
    else if st.any (fun x => match x with
      | .recovering _ => true
      | _ => false) then 1 else 2

/-- How long a peer wait may last: 2 s of device time (R339, R407). -/
def peerLimit : Nat := 2000000000

/-- The misses that an access to a sector meets, for the event counters (R403): L1, then the IXLB. -/
def State.misses (s : State) (core tag lsec attr : Nat) : Nat × Nat :=
  if attr = attrAtomic || ((s.core core).l1Find lsec tag).isSome then (0, 0)
  else if (s.buffered (clusterOf core) lsec tag).isSome || ((s.cluster (clusterOf core)).ix (lsec / 16) tag).isSome then (1, 0)
  else (1, 1)

/-- The crew in a slot is charged with the misses of an access (R403). -/
def State.charge (s : State) (core sl : Nat) (n : Nat × Nat) : State :=
  if n.1 + n.2 = 0 || (s.crew? core sl).isNone then s else s.modCrew core sl (fun w => (w.countEv 1 n.1).countEv 2 n.2)

/-- The misses of the sectors that a read of `n` bytes of device memory names are charged to its crew (R403). -/
def State.chargeRead (s : State) (core sl laddr n attr : Nat) : State :=
  s.each (List.range ((laddr % 32 + n + 31) / 32)) (fun s i => s.charge core sl (s.misses core (s.crewTag core sl) (laddr / 32 + i) attr))

/-- Pages whose homes move, among those of some sectors that L1 does not serve a crew (R352). -/
def State.movingPages (s : State) (core tag : Nat) (lsecs : List Nat) : List Nat :=
  ((lsecs.filter (fun x => s.moving x && ((s.core core).l1Find x tag).isNone)).map (· / 2048)).eraseDups

/-- Whether a read at a place is to be tried again: the home of its page moves (R352), or the link to its peer recovers (R439). -/
def State.notYet (s : State) (core sl : Nat) (p : Place) (n : Nat) : Bool :=
  match p with
  | .mem l _ _ => !(s.movingPages core (s.crewTag core sl) [l / 32, (l + n - 1) / 32]).isEmpty
  | .peer q _ => s.peerState q = 1
  | .pad _ _ => false
  | .die _ => false

/-- Bytes at a place as a load of a crew reads them now, and whether a word of them is poisoned. A peer's bytes and a
partition that has ended give free values; those of a failed peer are poisoned and logged (R408, R439). -/
def State.readPlace (s : State) (core sl : Nat) (p : Place) (n : Nat) (cached : Bool) : State × List Byte × Bool :=
  match p with
  | .mem l attr x => (s.chargeRead core sl l n attr).loadBytes core (s.crewCtx core sl) (s.crewTag core sl) l n attr x cached
  | .pad g off =>
    match Tab.find s.groups g with
    | some _ => let s := s.touchPad g off n; (s, s.padRead g off n)
    | none => let f := s.newFree; (f.2, leBytes n (Config.lostLoad f.1).toNat, false)
  | .die off => let s := s.touchDie core off n; (s, s.dieRead core off n)
  | .peer q a =>
    if s.peerState q = 2 then (s.logErr { level := 0, kind := 2, unit := 0, paddr := a / 8 * 8 }, List.replicate n 0, true)
    else let f := s.newFree; (f.2, leBytes n (Config.peerData f.1).toNat, false)

/-- The value of a plain load (R300). -/
def loadVal (size : Nat) (signed : Bool) (bs : List Byte) : Word :=
  let x := leNat bs
  if signed then BitVec.ofInt 64 (sgn (8 * size) x) else BitVec.ofNat 64 x

/-- Perform one lane of a load: read and write its destination, the register that the lane named at issue. -/
def State.loadLane (s : State) (core sl : Nat) (kind : LoadKind) (d : Nat) (p : PLane) : State :=
  let one (s : State) (n : Nat) (cached : Bool) (f : List Byte → Word) (put : Crew → Elem → Crew) (at_ : Place) : State :=
    let r := s.readPlace core sl at_ n cached
    r.1.modCrew core sl (fun w => put w { val := if r.2.2 then BitVec.allOnes 64 else f r.2.1, poison := r.2.2 })
  let plus8 : Place := match p.place with
    | .mem l a x => .mem (l + 8) a x
    | .pad g o => .pad g (o + 8)
    | .die o => .die (o + 8)
    | .peer q a => .peer q (a + 8)
  match kind with
  | .plain n sg => one s n true (loadVal n sg) (fun w e => w.putLate p.lim p.lane p.reg e) p.place
  | .quad =>
    let s := one s 8 true (loadVal 8 false) (fun w e => w.putLate p.lim p.lane p.reg e) p.place
    one s 8 true (loadVal 8 false) (fun w e => w.putLate p.lim p.lane (p.reg + 1) e) plus8
  | .uniform n => one s n true (loadVal n false) (fun w e => w.setSreg d e) p.place
  | .acquire _ => one s 8 true (loadVal 8 false) (fun w e => w.putLate p.lim p.lane p.reg e) p.place
  | .nocache => one s 8 false (loadVal 8 false) (fun w e => w.putLate p.lim p.lane p.reg e) p.place

/-- What follows a load once it is performed: the acquire of LDA.D by its scope (R302). -/
def State.afterLoad (s : State) (core : Nat) (kind : LoadKind) : State :=
  match kind with
  | .acquire sc => if sc = 0 then s else s.acquire core (2 ≤ sc)
  | .plain _ _ => s
  | .quad => s
  | .uniform _ => s
  | .nocache => s

/-- The data of a pending load arrives: its lanes are performed, those of a peer apart (R300, R438). -/
def State.performLoad (s : State) (core sl : Nat) (q : PLoad) : State :=
  let here (p : PLane) : Bool := match p.place with
    | .peer _ _ => false
    | .mem _ _ _ => true
    | .pad _ _ => true
    | .die _ => true
  let s := s.each (q.lanes.filter here) (fun s p => s.loadLane core sl q.kind q.d p)
  let rest := q.lanes.filter (fun p => !here p)
  if rest.isEmpty then
    (s.modCrew core sl (fun w => { w with loads := w.loads.filter (fun x => x.id ≠ q.id) })).afterLoad core q.kind
  else s.modCrew core sl (fun w => { w with loads := mapIf (fun x : PLoad => x.id = q.id) (fun x => { x with lanes := rest }) w.loads })

/-- The cycles beyond one for each lane octet that scratchpad accesses of `n` bytes take: in an octet, the greatest number of distinct
words that its lanes touch in one of the 32 banks of a scratchpad (R242). -/
def bankExtra (ps : List PLane) (n : Nat) : Nat :=
  ((List.range 4).map (fun o =>
    let ws := ((ps.filter (fun p => p.lane / 8 = o)).flatMap (fun p => match p.place with
      | .pad g off => (wordsOf off n).map (fun w => (g, w))
      | .mem _ _ _ => []
      | .die _ => []
      | .peer _ _ => [])).eraseDups
    ws.foldl (fun (m : Nat) x =>
      let k := (ws.filter (fun y => y.1 = x.1 && y.2 % 32 = x.2 % 32)).length - 1
      if m < k then k else m) 0)).sum

/-- The crew's event counters of bank conflicts after the accesses of an instruction (R242, R403). -/
def State.countBanks (s : State) (c : Cur) (ps : List PLane) (n : Nat) : State :=
  match bankExtra ps n with
  | 0 => s
  | k + 1 => s.modCrew c.core c.slot (fun w => w.countEv 4 (k + 1))

/-- Issue a load: the lanes in this core's SRAM are performed, the others go on their way (R241, R300). -/
def State.issueLoad (s : State) (c : Cur) (kind : LoadKind) (d : Nat) (m : BitVec 32) (ps : List PLane) : State :=
  let s := (s.tlbFills c ps).countBanks c ps kind.size
  let ps := ps.map (fun p => { p with reg := (s.cw c).vnum p.lane d })
  let now := ps.filter PLane.inPlace
  let later := ps.filter (fun p => !p.inPlace)
  let s := s.each now (fun s p => s.loadLane c.core c.slot kind d p)
  let s := if later.isEmpty then s.afterLoad c.core kind
    else
      let i := s.newId
      let q : PLoad := { id := i.1, kind := kind, d := d, lanes := later, by_ := m, pol := c.policy }
      i.2.modCrew c.core c.slot (fun w => { w with loads := w.loads ++ [q] })
  s.retire c { swap := true }

/-- A vector load (R297, R300). -/
def State.vload (s : State) (c : Cur) (g : BitVec 3) (a : Src) (off : Word) (kind : LoadKind) (plain : Bool) (d : BitVec 6) : State :=
  let dst : List Use := match kind with
    | .quad => [.v d.toNat, .v (d.toNat + 1)]
    | .plain _ _ => [.v d.toNat]
    | .uniform _ => [.v d.toNat]
    | .acquire _ => [.v d.toNat]
    | .nocache => [.v d.toNat]
  s.gate c .any false (srcUse a :: dst)
    (s.reads c (g ≠ 0) (s.act c g) (fun _ => [a])
      (let m := s.act c g
       let xs := s.laneAccs c .load m (fun l => (s.cw c).val l a + off) kind.size plain
       match pickFault (accFaults xs) with
       | some f => s.takeFault c f
       | none => match s.loadFollow c kind (accLanes xs) with
         | [] => s.ordered c .load (accLanes xs) kind.size (s.issueLoad c kind d.toNat m (accLanes xs))
         | ids => s.hold c (.operands ids)))

/-- A uniform load: one address for the crew, once for the issue (R301). -/
def State.uload (s : State) (c : Cur) (g : BitVec 3) (a : Src) (off : Word) (n : Nat) (d : BitVec 5) : State :=
  s.gate c .any false [srcUse a, .s d.toNat]
    (s.reads c (g ≠ 0) (s.act c g) (fun _ => [a])
      (let m := s.act c g
       let l := lowestLane m
       let xs := s.laneAccs c .load (if m = 0 then 0 else maskOf [l]) (fun _ => s.uval c a + off) n false
       match pickFault (accFaults xs) with
       | some f => s.takeFault c { f with lanes := m }
       | none =>
         if m = 0 then s.retire c { swap := true }
         else s.ordered c .load (accLanes xs) n (s.issueLoad c (.uniform n) d.toNat m (accLanes xs))))

/-- The logical grain of a shared-writable page that an address lies in, with the grain's own address; none in another page (R281). -/
def State.claimGrain (s : State) (c : Cur) (a : Nat) : List (Nat × Nat) :=
  match regionOf a with
  | .mapped => match s.coreXlate c.core (s.crewCtx c.core c.slot) a with
    | some y => if y.attr = attrShared then [(y.laddr / 512, a / 512 * 512)] else []
    | none => []
  | _ => []

/-- The logical grains of shared-writable pages that a lane would store to, with their addresses. A lane whose access breaks alignment
alone still counts, with the second grain that it reaches into (R297 step 3). -/
def State.storeGrains (s : State) (c : Cur) (x : LaneAcc) (n : Nat) : List (Nat × Nat) :=
  let a := x.va.toNat
  match x.res with
  | .ok _ => s.claimGrain c a
  | .error e =>
    if e.1 ≠ 4 then []
    else s.claimGrain c a ++ (if a / 512 = (a + n - 1) / 512 then [] else s.claimGrain c (a / 512 * 512 + 512))

/-- Claims of a store (R281, R297): asks for those not held, waits for the answers, and turns a refusal into the lane's
cause unless the lane has a higher one. A claim that was granted and closed again since is asked for afresh (R282). `k` gets the lanes'
faults. -/
def State.withClaims (s : State) (c : Cur) (xs : List LaneAcc) (n : Nat) (k : State → List (Nat × FaultInfo) → State) : State :=
  let tag := s.crewTag c.core c.slot
  let cl := clusterOf c.core
  let need := (((xs.flatMap (fun x => s.storeGrains c x n)).map Prod.fst).eraseDups).filter (fun g => !s.claimHeld cl g tag)
  let mine (r : ClaimReq) : Bool := r.core = c.core && r.slot = c.slot && !r.retry
  let reqs := (s.cluster cl).claims.filter (fun r => mine r && r.outcome ≠ 1)
  let asked (g : Nat) : Option ClaimReq := reqs.find? (fun r => r.grain = g)
  let refused (g : Nat) : Bool := match asked g with
    | some r => r.outcome = 2
    | none => false
  if need.all refused then
    let s := s.modCluster cl (fun q => { q with claims := q.claims.filter (fun r => !mine r) })
    let own := accFaults xs
    let fs := xs.filterMap (fun x =>
      let high := own.find? (fun f => f.1 = x.lane && f.2.cause < 3)
      match high with
      | some f => some f
      | none =>
        match (s.storeGrains c x n).find? (fun g => need.contains g.1) with
        | some g => some (x.lane, ({ cause := 3, addr := g.2 } : FaultInfo))
        | none => own.find? (fun f => f.1 = x.lane))
    k s fs
  else
    let new := need.filter (fun g => (asked g).isNone)
    let s := s.modCluster cl (fun q => { q with claims := q.claims.filter (fun r => !(mine r && r.outcome = 1)) ++ new.map (fun g =>
      { grain := g, tag := tag, core := c.core, slot := c.slot, since := s.cycle }) })
    s.hold c (.claims need)

/-- The lanes of a mask that read a poisoned source. -/
def State.poisonLanes (s : State) (c : Cur) (m : BitVec 32) (xs : Nat → List Src) : BitVec 32 :=
  maskOf ((lanesOf m).filter (fun l => (xs l).any (fun x => ((s.cw c).rd l x).poison)))

/-- The reads of a store's operands: where some lanes read poison, the claims of the others are asked for before the instruction
consumes it (R297, R299). -/
def State.readsStore (s : State) (c : Cur) (pr : Bool) (m : BitVec 32) (xs : Nat → List Src) (accs : BitVec 32 → List LaneAcc) (n : Nat)
    (k : State) : State :=
  let bad := s.poisonLanes c m xs
  if bad = 0 || (pr && s.predPoison c) || s.anyParity c m xs then s.reads c pr m xs k
  else s.withClaims c (accs (m &&& ~~~bad)) n (fun s _ => s.consume c)

end Sys2Proof.Machine
end

