-- ==== Sys2Proof/Machine/Store.lean ====
section
/-! DEFINITION. Group 10: stores and atomics (R306 to R313). -/

namespace Sys2Proof.Machine

/-- One lane's store: where and what; `pois` says that its words are stored poisoned, as only the array and copies do. -/
structure LaneStore where
  at_ : PLane
  data : List Byte
  regaddr : Nat
  pois : Bool := false

/-- The bytes of one sector that a store sends to the appender. -/
structure SecStore where
  lsec : Nat
  data : BitVec 256
  mask : BitVec 32
  pois : BitVec 4
  va : Nat
  regaddr : Nat

/-- The words that a byte mask of a sector touches. -/
def maskWords (m : BitVec 32) : BitVec 4 :=
  BitVec.ofNat 4 (((List.range 4).map (fun i => if m.extractLsb' (8 * i) 8 = 0 then 0 else 2 ^ i)).sum)

/-- The sectors a store sends to the appender, with the bytes of its lanes merged, the higher lane standing (R10, R253). -/
def mergeStores (xs : List LaneStore) : List SecStore :=
  xs.foldl (fun acc x => match x.at_.place with
    | .mem l _ _ =>
      (sectorPieces l x.data).foldl (fun acc p =>
        let bad : BitVec 4 := if x.pois then maskWords p.2.2 else 0
        if acc.any (fun e => e.lsec = p.1) then
          mapIf (fun q : SecStore => q.lsec = p.1) (fun q => { q with
            data := mergeBytes q.data p.2.1 p.2.2, mask := q.mask ||| p.2.2, pois := q.pois ||| bad }) acc
        else acc ++ [{ lsec := p.1, data := p.2.1, mask := p.2.2, pois := bad
                       va := x.at_.va / 32 * 32 + 32 * (p.1 - l / 32), regaddr := x.regaddr }]) acc
    | .pad _ _ => acc
    | .die _ => acc
    | .peer _ _ => acc) []

/-- The attribute of the page of a sector among the stores. -/
def attrOf (xs : List LaneStore) (lsec : Nat) : Nat :=
  match xs.findSome? (fun x => match x.at_.place with
    | .mem l a _ => if l / 65536 = lsec / 2048 then some a else none
    | .pad _ _ => none
    | .die _ => none
    | .peer _ _ => none) with
  | some a => a
  | none => attrPrivate

/-- Whether the page of a sector among the stores has execute permission. -/
def execOf (xs : List LaneStore) (lsec : Nat) : Bool :=
  xs.any (fun x => match x.at_.place with
    | .mem l _ e => l / 65536 = lsec / 2048 && e
    | .pad _ _ => false
    | .die _ => false
    | .peer _ _ => false)

/-- Requests that the stores of an instruction send: sectors and remote accesses, and peer requests (R401). -/
def storeCounts (xs : List LaneStore) : Nat × Nat :=
  let remote := (xs.filter (fun x => match x.at_.place with
    | .pad _ _ => !x.at_.inPlace
    | .mem _ _ _ => false
    | .die _ => false
    | .peer _ _ => false)).length
  let peer := (xs.filter (fun x => match x.at_.place with
    | .peer _ _ => true
    | .mem _ _ _ => false
    | .pad _ _ => false
    | .die _ => false)).length
  ((mergeStores xs).length + remote, peer)

/-- The words of an operand die marked poisoned. -/
def State.dieMark (s : State) (core : Nat) (ws : List Nat) : State :=
  s.modCore core (fun k => k.markDie ws)

/-- Whether a lane names bytes of this core's own partition by the cluster window that another lane of the instruction names by the local
window: the two are performed together, in the order of their lanes (R10, R269). -/
def State.mixedLane (s : State) (core : Nat) (p : PLane) (n : Nat) (ps : List PLane) : Bool :=
  match p.place with
  | .pad g _ => !p.inPlace && (s.group g).core = core && ps.any (fun q => q.inPlace && p.place.meets n q.place n)
  | .mem _ _ _ => false
  | .die _ => false
  | .peer _ _ => false

/-- Perform stores for a crew, lanes ascending (R10, R241, R247, R306, R438). `copy` names the copy whose writes they are: those are
counted in no counter (R333). -/
def State.performStores (s : State) (core sl lid ctx tag : Nat) (copy : Option Nat) (xs : List LaneStore) : State :=
  let s := s.each xs (fun s x => match x.at_.place with
    | .mem _ _ _ => s
    | .die off =>
      let s := s.dieWrite core off x.data
      if x.pois then s.dieMark core (wordsOf off x.data.length) else s
    | .pad g off =>
      if x.at_.inPlace then
        let s := s.padWrite g off x.data
        if x.pois then s.padMark g ((wordsOf off x.data.length).map (8 * ·)) else s
      else
        let i := s.newId
        let now := copy.isNone && s.mixedLane core x.at_ x.data.length (xs.map LaneStore.at_)
        let s := if now then i.2.padWrite g off x.data else i.2
        s.modCore core (fun k => { k with remq := k.remq ++
          [{ id := i.1, slot := sl, target := (s.group g).core, tgroup := g, off := off, data := x.data, pois := x.pois, lid := lid, copyId := copy
             addr := x.at_.va, regaddr := x.regaddr, acked := now }] })
    | .peer p a =>
      let i := s.newId
      { i.2 with peerOut := i.2.peerOut ++ [{ id := i.1, peer := p, core := core, slot := sl, lid := lid, addr := a, data := x.data,
                                                pois := if x.pois then List.range ((a % 8 + x.data.length + 7) / 8) else [], regaddr := x.regaddr, vaddr := x.at_.va, sy := copy.isNone, copyId := copy }] })
  s.each (mergeStores xs) (fun s p =>
    let i := (if copy.isNone then s.charge core sl (s.misses core tag p.lsec (attrOf xs p.lsec)) else s).newId
    i.2.storeSector core sl { slot := sl, crewLid := lid, lsec := p.lsec, tag := tag, ctx := ctx, data := p.data, mask := p.mask
                              poison := p.pois, addr := p.va, regaddr := p.regaddr, seq := i.1, counted := copy.isNone
                              copyId := copy } (attrOf xs p.lsec) (execOf xs p.lsec))

/-- Perform the stores of an instruction and count them (R277, R401). -/
def State.doStores (s : State) (core sl : Nat) (xs : List LaneStore) : State :=
  let n := storeCounts xs
  let s := s.performStores core sl (s.crewLid core sl) (s.crewCtx core sl) (s.crewTag core sl) none xs
  s.modCrew core sl (fun w => { w with ackCl := w.ackCl + n.1, ackSy := w.ackSy + n.2 })

/-- Pages whose write-blocking bit is set among the stores (R296, R368). -/
def State.writeBlocked (s : State) (xs : List LaneStore) : Option Nat :=
  xs.findSome? (fun x => match x.at_.place with
    | .mem l a _ => if a = attrHost && (s.page (l / 65536)).wb then some (l / 65536) else none
    | .pad _ _ => none
    | .die _ => none
    | .peer _ _ => none)

/-- The crew's remote stores to its own core that a store must follow because lanes of it are performed together, at its issue (R269). -/
def State.mixedFollow (s : State) (c : Cur) (ps : List PLane) (n : Nat) : List Nat :=
  if ps.any (fun p => s.mixedLane c.core p n ps) then
    ((s.core c.core).remq.filter (fun r => r.slot = c.slot && r.target = c.core && !r.acked)).map RemReq.id
  else []

/-- Pages among some stores whose homes move, and whose sectors L1 does not hold (R352). -/
def State.storeMoves (s : State) (c : Cur) (xs : List LaneStore) : List Nat :=
  s.movingPages c.core (s.crewTag c.core c.slot) ((mergeStores xs).map SecStore.lsec)

/-- The store of an instruction whose lanes are checked (R297, R306, R352, R401): orders, claims, write blocks, homes that move, counters;
then the stores, and retirement. -/
def State.storeLanes (s : State) (c : Cur) (xs : List LaneAcc) (n : Nat) (data : Nat → List Byte) (fl : BitVec 32) : State :=
  s.ordered c .store (accLanes xs) n
    (s.withClaims c xs n (fun s fs =>
      match pickFault fs with
      | some f => s.takeFault c { f with lanes := if fl = 0 then f.lanes else fl }
      | none =>
        let w := s.cw c
        let st := (accLanes xs).map (fun p => ({ at_ := p, data := data p.lane, regaddr := (w.fibre p.lane).restart.toNat } : LaneStore))
        match s.writeBlocked st with
        | some lpn => s.hold c (.writeBlock lpn)
        | none => match s.storeMoves c st, s.mixedFollow c (accLanes xs) n with
          | l :: ls, _ => s.hold c (.homes (l :: ls))
          | _, i :: is => s.hold c (.operands (i :: is))
          | _, _ =>
          let k := storeCounts st
          if 65535 < w.ackCl + k.1 || 4095 < w.ackSy + k.2 then s.hold c (.storeRoom k.1 k.2)
          else (((s.tlbFills c (accLanes xs)).countBanks c (accLanes xs) n).doStores c.core c.slot st).retire c {}))

/-- A vector store (R306): data from D, and D + 1 for ST.Q; in tandem mode compared and performed once per pair (R48). -/
def State.vstore (s : State) (c : Cur) (g : BitVec 3) (a : Src) (off : Word) (d : BitVec 6) (n : Nat) (plain : Bool) : State :=
  let ds : List Src := if n = 16 then [.v d, .v (d + 1)] else [.v d]
  s.gate c .any false (srcUse a :: .v d.toNat :: (if n = 16 then [.v (d.toNat + 1)] else []))
    (s.readsStore c (g ≠ 0) (s.act c g) (fun _ => a :: ds)
      (fun m => s.laneAccs c .store ((s.cw c).primaries m) (fun l => (s.cw c).val l a + off) n plain) n
      (let w := s.cw c
       let m := s.act c g
       if s.pairsDiffer c m (fun l => (w.val l a + off) :: ds.map (w.val l)) then s.mismatch c
       else
         let data (l : Nat) : List Byte := if n = 16 then ds.flatMap (fun x => leBytes 8 (w.val l x).toNat) else leBytes n (w.val l (.v d)).toNat
         s.storeLanes c (s.laneAccs c .store (w.primaries m) (fun l => w.val l a + off) n plain) n data 0))

/-- A plain store (R306). -/
def State.st (s : State) (o : OpM) (n : Nat) : Host.Outcome State Fault Refusal :=
  s.run (fun c => s.vstore c o.g (c.srcA o.a) (offM o.off n) (c.dst o.d) n true)

/-- ST.B (R306). -/
def execStB (o : OpM) (s : State) : Host.Outcome State Fault Refusal := s.st o 1
/-- ST.H (R306). -/
def execStH (o : OpM) (s : State) : Host.Outcome State Fault Refusal := s.st o 2
/-- ST.W (R306). -/
def execStW (o : OpM) (s : State) : Host.Outcome State Fault Refusal := s.st o 4
/-- ST.D (R306). -/
def execStD (o : OpM) (s : State) : Host.Outcome State Fault Refusal := s.st o 8
/-- ST.Q (R306). -/
def execStQ (o : OpM) (s : State) : Host.Outcome State Fault Refusal := s.st o 16
/-- STU.D (R307): once for the issue. -/
def execStuD (o : OpMU) (s : State) : Host.Outcome State Fault Refusal :=
  s.run (fun c =>
    let a := c.srcA o.a
    let d := c.dst o.d
    s.gate c .any false [srcUse a, .s d.toNat]
      (s.reads c (o.g ≠ 0) (s.act c o.g) (fun _ => [a, .s d])
        (let m := s.act c o.g
         let l := lowestLane m
         if s.pairsDiffer c m (fun _ => []) then s.mismatch c
         else if m = 0 then s.retire c {}
         else s.storeLanes c (s.laneAccs c .store (maskOf [l]) (fun _ => s.uval c a + offM o.off 8) 8 false) 8
           (fun _ => leBytes 8 ((s.cw c).sreg d.toNat).val.toNat) m)))
/-- STL.D (R308): waits as a FENCE of its scope, delivers an imprecise fault from cluster scope on (R320), then stores. -/
def execStlD (o : OpMS) (s : State) : Host.Outcome State Fault Refusal :=
  s.run (fun c =>
    let a := c.srcA o.a
    let d := c.dst o.d
    let go : State := s.vstore c o.g a 0 d 8 false
    s.gate c .any false [srcUse a, .v d.toNat]
      (if s.act c o.g = 0 then go
       else s.fenced c (o.scope.toNat + 1) (if o.scope.toNat = 0 then go else s.deliver c go)))

/-- Send the requests of an atomic, or perform it where the word lies in this core's own partition, lanes that name one word by two windows
in ascending order (R10, R311). -/
def State.sendAtomics (s : State) (c : Cur) (op size : Nat) (d : BitVec 6) (ps : List PLane) : State :=
  let w := s.cw c
  let seq := w.atomSeq
  let req (id : Nat) (p : PLane) : PAtom :=
    { id := id, seq := seq, lane := p.lane, op := op, addr := p.va, place := p.place, size := size
      a := w.val p.lane (.v d), b := w.val p.lane (.v (d + 1)), d := w.vnum p.lane d.toNat, regaddr := (w.fibre p.lane).restart.toNat }
  let s := s.each ps (fun s p =>
    match p.place with
    | .pad g off =>
      if p.inPlace then
        let r := s.padAtomic g off (req 0 p)
        r.1.modCrew c.core c.slot (fun w =>
          let w := w.setVreg p.lane (w.vnum p.lane d.toNat) r.2.1
          let w := if w.tandem then w.setVreg (p.lane + 1) (w.vnum p.lane d.toNat) r.2.1 else w
          { w with fflags := w.fflags ||| r.2.2 })
      else
        let i := s.newId
        let r := i.2.padAtomic g off (req i.1 p)
        let now := s.mixedLane c.core p size ps
        (if now then r.1 else i.2).modCrew c.core c.slot (fun w => { w with
          atoms := w.atoms ++ [{ req i.1 p with answer := if now then some (r.2.1, r.2.2) else none }], ackCl := w.ackCl + 1 })
    | .mem _ _ _ =>
      let i := s.newId
      i.2.modCrew c.core c.slot (fun w => { w with atoms := w.atoms ++ [req i.1 p], ackDv := w.ackDv + 1 })
    | .die _ => s
    | .peer _ _ => s)
  s.modCrew c.core c.slot (fun w => { w with atomSeq := (seq + 1) % 65536 })

/-- An atomic (R309, R311): every check of every active lane before any request leaves. -/
def State.atomic (s : State) (o : OpM) (op size : Nat) : Host.Outcome State Fault Refusal :=
  s.run (fun c =>
    let cas := op = 14
    let ds : List Src := if cas then [.v o.d, .v (o.d + 1)] else [.v o.d]
    s.gate c .any false ([srcUse o.a, .v o.d.toNat] ++ if cas then [.v (o.d.toNat + 1)] else [])
      (s.reads c (o.g ≠ 0) (s.act c o.g) (fun _ => o.a :: ds)
        (let w := s.cw c
         let m := s.act c o.g
         let ea (l : Nat) : Word := w.val l o.a + offM o.off size
         if s.pairsDiffer c m (fun l => ea l :: ds.map (w.val l)) then s.mismatch c
         else
           let xs := s.laneAccs c .atomic (w.primaries m) ea size false
           match pickFault (accFaults xs) with
           | some f => s.takeFault c f
           | none =>
             let ps := accLanes xs
             let dv := (ps.filter (fun p => match p.place with
               | .mem _ _ _ => true
               | .pad _ _ => false
               | .die _ => false
               | .peer _ _ => false)).length
             let cl := (ps.filter (fun p => !p.inPlace)).length - dv
             s.ordered c .atomic ps size
               (if 65535 < w.ackCl + cl || 4095 < w.ackDv + dv then s.hold c (.counters cl dv 0)
                else (((s.tlbFills c ps).countBanks c ps size).sendAtomics c op size o.d ps).retire c { restart := true, swap := true }))))

/-- AADD (R309). -/
def execAadd (o : OpM) (s : State) : Host.Outcome State Fault Refusal := s.atomic o 8 8
/-- AMIN (R309). -/
def execAmin (o : OpM) (s : State) : Host.Outcome State Fault Refusal := s.atomic o 9 8
/-- AMAX (R309). -/
def execAmax (o : OpM) (s : State) : Host.Outcome State Fault Refusal := s.atomic o 10 8
/-- AAND (R309). -/
def execAand (o : OpM) (s : State) : Host.Outcome State Fault Refusal := s.atomic o 11 8
/-- AOR (R309). -/
def execAor (o : OpM) (s : State) : Host.Outcome State Fault Refusal := s.atomic o 12 8
/-- AXCH (R309). -/
def execAxch (o : OpM) (s : State) : Host.Outcome State Fault Refusal := s.atomic o 13 8
/-- ACAS (R309). -/
def execAcas (o : OpM) (s : State) : Host.Outcome State Fault Refusal := s.atomic o 14 8
/-- AADDF.S (R309, R310). -/
def execAaddfS (o : OpM) (s : State) : Host.Outcome State Fault Refusal := s.atomic o 15 4

end Sys2Proof.Machine
end

