-- ==== Sys2Proof/Machine/Order.lean ====
section
/-! DEFINITION. Group 11, ordering: FENCE, RELEASE, ACQUIRE, IFENCE and RFENCE (R270, R274, R278, R288, R289, R292,
R314 to R318, R320). -/

namespace Sys2Proof.Machine

/-- An ordering instruction: it acts once for its issue when some fibre of the fragment is active; otherwise it only
retires, as the swap point it is (R314). -/
def State.order (s : State) (c : Cur) (g : BitVec 3) (off : Done) (k : State) : State :=
  s.gate c .any false []
    (s.reads c (g ≠ 0) (s.act c g) (fun _ => []) (if s.act c g = 0 then s.retire c off else k))

/-- FENCE (R278, R315, R320). -/
def execFence (o : OpF) (s : State) : Host.Outcome State Fault Refusal :=
  s.run (fun c => s.order c o.g { swap := true }
    (s.fenced c o.scope.toNat
      (if 2 ≤ o.scope.toNat then s.deliver c (s.retire c { swap := true }) else s.retire c { swap := true })))

/-- The retirement of a RELEASE: its restart point advances, and it is a comparison point (R42, R43, R415). -/
def State.released (s : State) (c : Cur) : State :=
  let all := c.lanes = (s.cw c).liveMask
  let s := s.retire c { swap := true, restart := true }
  s.comparePoint c.core c.slot 3 (s.cw c).reti c.lanes (!all) c.pfx.level

/-- The commit write of a release whose set is acknowledged and which is first of its cluster (R270). -/
def State.tryCommit (s : State) (k : Nat) : State :=
  match (s.cluster k).rels.find? (fun r => !r.committed) with
  | some r => if s.relAcked r then s.commit k r else s
  | none => s

/-- RELEASE (R270, R289, R316): the release in progress is the one the wait of the fragment names. -/
def execRelease (o : OpG) (s : State) : Host.Outcome State Fault Refusal :=
  s.run (fun c => s.order c o.g { swap := true, restart := true }
    (let k := clusterOf c.core
     let mine : Option Rel := match ((s.cw c).fibre (lowestLane c.lanes)).wait with
       | .release id => (s.cluster k).rels.find? (fun r => r.id = id)
       | _ => none
     let done (s : State) (id : Nat) : Bool := (s.cluster k).rels.any (fun r => r.id = id && r.committed)
     let finish (s : State) (id : Nat) : State :=
       (s.modCluster k (fun q => { q with rels := q.rels.filter (fun r => r.id ≠ id) })).released c
     match mine with
     | some r => if r.committed then finish s r.id else s.hold c (.release r.id)
     | none =>
       s.fenced c 2 (s.deliver c
         (let b := s.beginRelease k (s.crewTag c.core c.slot) c.core c.slot none
          let s := b.1.tryCommit k
          if done s b.2 then finish s b.2 else s.hold c (.release b.2)))))

/-- ACQUIRE (R274, R289, R317); the first one after a migration is held until the flush of the old core (R292). It waits for earlier
atomics and peer stores too, so that with a RELEASE before it every earlier access is performed before every later one (R317): log 33. -/
def execAcquire (o : OpG) (s : State) : Host.Outcome State Fault Refusal :=
  s.run (fun c => s.order c o.g { swap := true }
    (match (s.cw c).heldBy with
     | some h => s.hold c (.flush h.1 h.2.1 h.2.2)
     | none =>
       if (s.cw c).answersDue then s.hold c .answers
       else (s.acquire c.core true).retire c { swap := true }))

/-- The words that other fragments of a crew have fetched and not issued are discarded, and fetched afresh (R318). -/
def Crew.refetch (w : Crew) (m : BitVec 32) : Crew :=
  w.modLanes (w.lanesWhere (fun f => f.live && f.wait.beforeIssue && f.rep = 0) &&& ~~~m) (fun _ f => { f with wait := .none, word := 0 })

/-- The logical pages that some context maps with execute permission (R347). -/
def State.execPages (s : State) : List Nat :=
  (s.ctxs.flatMap (fun x => ((s.leaves x.1).filter (fun e => match s.checkEntry 0 e.2 with
    | some y => y.x
    | none => false)).map (fun e => (e.2.extractLsb' 16 24).toNat))).eraseDups

/-- IFENCE (R288, R318): the instruction cache, the cluster's IXLB entries of executable pages and the core's L1 lines of
them give way, whatever mapping filled them, and so do the words that other fragments of the crew hold fetched but not issued. -/
def execIfence (o : OpG) (s : State) : Host.Outcome State Fault Refusal :=
  s.run (fun c => s.order c o.g { swap := true }
    (if !(s.cw c).loads.isEmpty then s.hold c .loads
     else
       let xs := s.execPages
       let s := s.dropCopies c.core true true (fun e => e.exec || xs.contains (e.grain / 128)) (fun e => e.exec || xs.contains (e.lsec / 2048))
       ((s.modCore c.core (fun k => { k with l1i := [] })).modCrew c.core c.slot (fun w => w.refetch c.lanes)).retire c { swap := true }))

/-- RFENCE (R318): the record cache is emptied; in this model an array operation has read its record when it issued. -/
def execRfence (o : OpG) (s : State) : Host.Outcome State Fault Refusal :=
  s.run (fun c => s.order c o.g { swap := true }
    ((s.modCore c.core (fun k => { k with recs := [] })).retire c { swap := true }))

end Sys2Proof.Machine
end

