-- ==== Sys2Proof/Machine/Csr.lean ====
section
/-! DEFINITION. The control and status registers and CSRR, CSRW, CSRS and CSRC (R127 to R132, R192, R193). -/

namespace Sys2Proof.Machine

/-- A register's value as a CSR instruction reads it (R64, R89, R126, R128 to R132). PARTW is the launch record's word of the crew's
group, in a handler crew that of the trapping crew's group: log 33. The numbers listed are those the
decoder accepts. -/
def State.csrRead (s : State) (c : Cur) (n : Nat) : Word :=
  let w := s.cw c
  let ctx := s.crewCtx c.core c.slot
  match n with
  | 0x000 => w.fflags.setWidth 64
  | 0x001 => w.frm.setWidth 64
  | 0x002 => w.cktol
  | 0x003 => w.mstat
  | 0x010 => (s.group w.group).partw.setWidth 64
  | 0x011 => s.valloc c.core c.slot
  | 0x012 => s.crewinfo c.core c.slot
  | 0x013 => w.rstackWord
  | 0x014 => BitVec.ofNat 64 (ctx % 65536)
  | 0x1000 => (s.ctx ctx).tvec
  | 0x1001 => (s.ctx ctx).frptr
  | 0x1010 => (s.core c.core).injAddr.setWidth 64
  | 0x1011 => (s.core c.core).injCtl.setWidth 64
  | _ => 0

/-- Whether an injection may be armed: KIND 0 to 2, LEVEL 0 to 5, and an address of the level's space (R132, R264), a partition's being that
of the crew that wrote ERRINJ_ADDR (R448). -/
def State.injOk (s : State) (c : Cur) (x : Word) : Bool :=
  let a := (s.core c.core).injAddr.toNat
  let g := s.group (s.core c.core).injGroup
  x.toNat / 2 % 4 ≠ 3 &&
    (match x.toNat / 512 % 16 with
     | 0 => decide (a < 768 * 2 ^ 30)
     | 1 => decide (a < 2 ^ 26)
     | 2 => decide (a < 2 ^ 17)
     | 3 => decide (a < 1572864) || (decide (2097152 ≤ a) && decide (a < 2097152 + g.padLimit))
     | 4 => decide (a < 524288)
     | 5 => decide (a < 786432)
     | _ => false)

/-- The write of ERRINJ_CTL: the RW fields from `rw`, FIRED cleared by a 1 in `w1c`; an injection that may not be armed
leaves ARM at 0 (R132). -/
def State.writeInj (s : State) (c : Cur) (rw : Word) (w1c : Bool) : State :=
  s.modCore c.core (fun k =>
    let fired := k.injCtl &&& (if w1c then 0 else 0x2000)
    let x : BitVec 14 := rw.setWidth 14 &&& 0x1FFF
    let x := if s.injOk c rw then x else x &&& 0x1FFE
    { k with injCtl := x ||| fired })

/-- Write the RW fields of a register from `rw`; `w1c` are the bits written as 1 to W1C fields; RO fields stay (R192). -/
def State.csrWrite (s : State) (c : Cur) (n : Nat) (rw w1c : Word) : State :=
  let ctx := s.crewCtx c.core c.slot
  let crew (f : Crew → Crew) : State := s.modCrew c.core c.slot f
  match n with
  | 0x000 => crew (fun w => { w with fflags := rw.setWidth 8 })
  | 0x001 => crew (fun w => { w with frm := rw.setWidth 2 })
  | 0x002 => crew (fun w => { w with tbf := rw.extractLsb' 0 6, tf32 := rw.extractLsb' 8 6 })
  | 0x003 => crew (fun w =>
      { (w.modLanes (BitVec.allOnes 32) (fun _ f => { f with mflags := f.mflags &&& ~~~(w1c.setWidth 4) })) with
        tnpp := rw.getLsbD 8, tzp := rw.getLsbD 9 })
  | 0x1000 => s.modCtx ctx (fun x => { x with tvec := rw &&& 0x01FFFFFFFFFFFFFC })
  | 0x1001 => s.modCtx ctx (fun x => { x with frptr := rw &&& 0x01FFFFFFFFFFFFC0 })
  | 0x1010 => s.modCore c.core (fun k => { k with injAddr := rw.setWidth 57, injGroup := (s.cw c).group })
  | 0x1011 => s.writeInj c rw (w1c.getLsbD 13)
  | _ => s

/-- A CSR instruction (R192, R193): `rd` says that sD is read; `f` gives from the old value and sD the RW value and the
W1C bits, or none for no write. It acts once when some fibre is active; its privilege check comes before the read of sD, and FFLAGS waits for the
pending results (R66). -/
def State.csr (s : State) (o : OpCsr) (rd : Bool) (f : Word → Word → Option (Word × Word)) : Host.Outcome State Fault Refusal :=
  s.run (fun c =>
    s.gate c .any false [.s o.d.toNat]
      (s.reads c (o.g ≠ 0) (s.act c o.g) (fun _ => [])
        (let m := s.act c o.g
         if m = 0 then s.retire c {}
         else if 0x1000 ≤ o.csr.toNat && !(s.cw c).sys then s.takeFault c { cause := 2, sub := 10, addr := o.csr.toNat }
         else s.reads c false m (fun _ => if rd then [.s o.d] else [])
           (if o.csr = 0 && s.flagsPending c then s.hold c .flags
            else
              let old := s.csrRead c o.csr.toNat
              let s := match f old (s.uval c (.s o.d)) with
                | some x => s.csrWrite c o.csr.toNat x.1 x.2
                | none => s
              s.putU c false o.d m old {}))))

/-- CSRR (R192). -/
def execCsrr (o : OpCsr) (s : State) : Host.Outcome State Fault Refusal := s.csr o false (fun _ _ => none)
/-- CSRW (R192). -/
def execCsrw (o : OpCsr) (s : State) : Host.Outcome State Fault Refusal := s.csr o true (fun _ x => some (x, x))
/-- CSRS (R192). -/
def execCsrs (o : OpCsr) (s : State) : Host.Outcome State Fault Refusal := s.csr o true (fun old x => some (old ||| x, x))
/-- CSRC (R192). -/
def execCsrc (o : OpCsr) (s : State) : Host.Outcome State Fault Refusal :=
  s.csr o true (fun old x => some (old &&& ~~~x, 0))

end Sys2Proof.Machine
end

