-- ==== Sys2Proof/Machine/Hints.lean ====
section
/-! DEFINITION. Group 15: the hints, which build the prefix unit in progress (R102 to R110). -/

namespace Sys2Proof.Machine

/-- The fragment steps over a hint: it counts as no retirement (R402, R406). -/
def Crew.pass (w : Crew) (c : Cur) : Crew := w.modLanes c.lanes (fun _ f => { f with pc := c.pc + 4 })

/-- A hint joins the open sequence of its fragment, or begins one (R103, R105). -/
def State.joinHint (s : State) (c : Cur) (f : Pfx → Pfx) : State :=
  s.modCrew c.core c.slot (fun w =>
    let p : Pfx := match w.unit with
      | some u => u.pfx
      | none => {}
    { (w.pass c) with unit := some { lanes := c.lanes, pc := c.pc + 4, pfx := f p } })

/-- A NOP or reserved hint: inside a sequence the fifth makes the unit illegal; outside one it is an issue unit of its own
(R102, R105). -/
def State.nopHint (s : State) (c : Cur) : State :=
  match (s.cw c).unit with
  | some _ => s.joinHint c (fun p => { p with nops := p.nops + 1, bad := p.bad || decide (4 ≤ p.nops) })
  | none => s.modCrew c.core c.slot (fun w => w.modLanes c.lanes (fun _ f => { f with pc := c.pc + 4, readyAt := w.units }))

/-- HINT.NOP (R105). -/
def execHintNop (s : State) : Host.Outcome State Fault Refusal := s.run (fun c => s.nopHint c)
/-- A reserved hint executes as HINT.NOP (R102). -/
def execReservedHint (s : State) : Host.Outcome State Fault Refusal := s.run (fun c => s.nopHint c)
/-- HINT.IMM (R97, R106). -/
def execHintImm (o : OpHint) (s : State) : Host.Outcome State Fault Refusal :=
  s.run (fun c => s.joinHint c (fun p => { p with imm := some o.p, bad := p.bad || p.imm.isSome }))
/-- HINT.REP (R107). -/
def execHintRep (o : OpHRep) (s : State) : Host.Outcome State Fault Refusal :=
  s.run (fun c => s.joinHint c (fun p => { p with rep := some o, bad := p.bad || p.rep.isSome }))
/-- HINT.SCHED (R38, R108). With its yield bit it is itself a swap point: the fragment's latches go here, and its crew leaves the peloton
here. Where its unit turns out to be at fault, the fault discards the same latches (R44, R101). -/
def execHintSched (o : OpHSched) (s : State) : Host.Outcome State Fault Refusal :=
  s.run (fun c =>
    let t := s.joinHint c (fun p => { p with sched := some o, schedAt := s.cycle, bad := p.bad || p.sched.isSome })
    if o.yld then t.modCrew c.core c.slot (fun w => w.modLanes c.lanes (fun _ f => f.noLatch)) else t)
/-- HINT.MOD (R109). -/
def execHintMod (o : OpHMod) (s : State) : Host.Outcome State Fault Refusal :=
  s.run (fun c => s.joinHint c (fun p => { p with mod := some o, bad := p.bad || p.mod.isSome }))
/-- HINT.PRIO (R110). -/
def execHintPrio (o : OpHPrio) (s : State) : Host.Outcome State Fault Refusal :=
  s.run (fun c => s.joinHint c (fun p => { p with prio := some o.lvl, bad := p.bad || p.prio.isSome }))

end Sys2Proof.Machine
end

