-- ==== Sys2Proof/Machine/Counter.lean ====
section
/-! DEFINITION. Group 14, FN 4 to 8: CNTRD, the CNTCTL operations, BKPT, TRACE and PROG (R399 to R420). -/

namespace Sys2Proof.Machine

/-- A counter by its selector (R399); none is reserved (R400). -/
def State.counter (s : State) (c : Cur) (sel : Nat) : Option Word :=
  let w := s.cw c
  let x := s.ctx (s.crewCtx c.core c.slot)
  let n (k : Nat) : Option Word := some (BitVec.ofNat 64 k)
  if 0x10 ≤ sel && sel ≤ 0x17 then some (Tab.get x.prog 0 (sel - 0x10))
  else if 0x0C ≤ sel && sel ≤ 0x0F then n (Tab.get w.ev 0 (sel - 0x0C))
  else if 0x20 ≤ sel && sel ≤ 0x29 then n (Tab.get s.ce 0 (sel - 0x20))
  else if 0x30 ≤ sel && sel ≤ 0x39 then n (Tab.get s.ue 0 (sel - 0x30))
  else if 0x40 ≤ sel && sel ≤ 0x49 then n (Tab.get s.elost 0 (sel - 0x40))
  else match sel with
    | 0x00 => n s.cycle
    | 0x01 => n s.timeNs
    | 0x02 => n w.reti
    | 0x03 => n (s.retg w.group)
    | 0x04 => n w.iss
    | 0x05 => n w.ackCl
    | 0x06 => n w.ackDv
    | 0x07 => n w.ackSy
    | 0x08 => n (if w.wdog < 2 ^ 32 then w.wdog else 2 ^ 32 - 1)
    | 0x18 => n x.trdly
    | 0x19 => n x.trlost
    | _ => none

/-- CNTRD (R399, R400, R405, R417). -/
def execCntrd (o : OpUa) (s : State) : Host.Outcome State Fault Refusal :=
  s.run (fun c =>
    s.gate c .any false [srcUse o.a, useU o.k o.d]
      (s.reads c (o.g ≠ 0) (s.act c o.g) (fun _ => [o.a])
        (let a := (s.uval c o.a).toNat
         let m := s.act c o.g
         if m = 0 then s.retire c {}
         else if 256 ≤ a then s.takeFault c (faultOf 14 1)
         else match s.counter c a with
           | none => s.takeFault c (faultOf 14 1)
           | some x =>
             if 0x20 ≤ a && !(s.cw c).sys then s.takeFault c (faultOf 2 10)
             else if 0x10 ≤ a && a ≤ 0x17 && !(s.cw c).progs.isEmpty then s.hold c .progs
             else s.putU c o.k o.d m x {})))

/-- The operands of a word that several rows share, CNTCTL (R418). -/
def Cur.opCntctl (c : Cur) : OpU :=
  match c.ins with
  | .cntctlEvsel o => o
  | _ => { b := .zero, a := .zero, d := 0, k := false, g := 0 }

/-- A CNTCTL operation (R418): `op` is its code, `sys` its class, `need` its condition on IDX and B, `wait` whether it waits
for the crew's PROGs; `f` makes the change and gives the old value. A row that names no IDX takes any (log 14). -/
def State.cntctl (s : State) (c : Cur) (o : OpU) (op : Nat) (sys wait : Bool) (need : Nat → Nat → Bool)
    (f : Nat → Nat → State × Word) : State :=
  s.gate c .any false [srcUse o.a, srcUse o.b, useU o.k o.d]
    (s.reads c (o.g ≠ 0) (s.act c o.g) (fun _ => [o.a, o.b])
      (let a := (s.uval c o.a).toNat
       let b := (s.uval c o.b).toNat
       let idx := a / 256 % 8
       let m := s.act c o.g
       if m = 0 then s.retire c {}
       else if 2048 ≤ a || a % 256 ≠ op then s.takeFault c (faultOf 14 1)
       else if sys && !(s.cw c).sys then s.takeFault c (faultOf 2 10)
       else if !need idx b then s.takeFault c (faultOf 14 1)
       else if wait && !(s.cw c).progs.isEmpty then s.hold c .progs
       else
         let r := f idx b
         r.1.putU c o.k o.d m r.2 {}))

/-- CNTCTL EVSEL, operation 0 (R403, R418). -/
def execCntctlEvsel (o : OpU) (s : State) : Host.Outcome State Fault Refusal :=
  s.run (fun c => s.cntctl c o 0 false false (fun i b => decide (i < 4) && decide (b ≤ 10)) (fun i b =>
    (s.modCrew c.core c.slot (fun w => { w with evSel := Tab.set w.evSel 0 i b, ev := Tab.set w.ev 0 i 0 }),
      BitVec.ofNat 64 (Tab.get (s.cw c).evSel 0 i))))
/-- CNTCTL TRMASK, operation 1 (R411, R418). -/
def execCntctlTrmask (s : State) : Host.Outcome State Fault Refusal :=
  s.run (fun c => s.cntctl c c.opCntctl 1 false false (fun _ b => decide (b < 65536)) (fun _ b =>
    (s.modCrew c.core c.slot (fun w => { w with trmask := BitVec.ofNat 16 b }), (s.cw c).trmask.setWidth 64)))
/-- CNTCTL PCLR, operation 2 (R418). -/
def execCntctlPclr (s : State) : Host.Outcome State Fault Refusal :=
  s.run (fun c => s.cntctl c c.opCntctl 2 false true (fun _ b => decide (b = 0)) (fun i _ =>
    let t := s.crewCtx c.core c.slot
    (s.modCtx t (fun x => { x with prog := Tab.set x.prog 0 i 0 }), Tab.get (s.ctx t).prog 0 i)))
/-- CNTCTL SAMPLE, operation 3 (R413, R418). -/
def execCntctlSample (s : State) : Host.Outcome State Fault Refusal :=
  s.run (fun c => s.cntctl c c.opCntctl 3 true false (fun _ b => b = 0 || (decide (10 ≤ b) && decide (b ≤ 40))) (fun _ b =>
    (s.modCore c.core (fun k => { k with samplePeriod := BitVec.ofNat 6 b }), (s.core c.core).samplePeriod.setWidth 64)))
/-- CNTCTL TRLO, operation 4 (R418). -/
def execCntctlTrlo (s : State) : Host.Outcome State Fault Refusal :=
  s.run (fun c => s.cntctl c c.opCntctl 4 true false (fun _ b => b % 4 = 0 && decide (b < 2 ^ 57)) (fun _ b =>
    ({ s with trial := { s.trial with lo := BitVec.ofNat 57 b } }, s.trial.lo.setWidth 64)))
/-- CNTCTL TRHI, operation 5 (R418). -/
def execCntctlTrhi (s : State) : Host.Outcome State Fault Refusal :=
  s.run (fun c => s.cntctl c c.opCntctl 5 true false (fun _ b => b % 4 = 0 && decide (b < 2 ^ 57)) (fun _ b =>
    ({ s with trial := { s.trial with hi := BitVec.ofNat 57 b } }, s.trial.hi.setWidth 64)))
/-- CNTCTL TRSTART, operation 6 (R414, R418). -/
def execCntctlTrstart (s : State) : Host.Outcome State Fault Refusal :=
  s.run (fun c => s.cntctl c c.opCntctl 6 true false
    (fun _ b => b % 256 ≠ 0 && decide (b < 2 ^ 40) && decide (s.trial.lo.toNat < s.trial.hi.toNat)) (fun _ b =>
      let t := s.crewCtx c.core c.slot
      let s := s.modCtx t (fun x => { x with trdly := 0 })
      ({ s with trial := { s.trial with
          active := true, ctx := t, delay := b % 256
          endAt := if b / 256 = 0 then none else some (s.cycle + 1024 * (b / 256)) } }, 0)))
/-- CNTCTL TRSTOP, operation 7 (R414, R418). -/
def execCntctlTrstop (s : State) : Host.Outcome State Fault Refusal :=
  s.run (fun c => s.cntctl c c.opCntctl 7 true false (fun _ b => b = 0) (fun _ _ =>
    ({ s with trial := { s.trial with active := false, endAt := none } },
      BitVec.ofNat 64 (s.ctx (s.crewCtx c.core c.slot)).trdly)))
/-- CNTCTL ECLR, operation 8 (R399, R418). -/
def execCntctlEclr (s : State) : Host.Outcome State Fault Refusal :=
  s.run (fun c => s.cntctl c c.opCntctl 8 true false (fun _ b => decide (b < 10)) (fun _ b =>
    ({ s with ce := Tab.set s.ce 0 b 0, ue := Tab.set s.ue 0 b 0, elost := Tab.set s.elost 0 b 0 },
      BitVec.ofNat 64 (Tab.get s.ce 0 b))))
/-- CNTCTL DSTOP, operation 9 (R412, R418). -/
def execCntctlDstop (s : State) : Host.Outcome State Fault Refusal :=
  s.run (fun c => s.cntctl c c.opCntctl 9 true false (fun _ b => decide (b < 2)) (fun _ b =>
    let t := s.crewCtx c.core c.slot
    (s.modCtx t (fun x => { x with dstop := b = 1 }), if (s.ctx t).dstop then 1 else 0)))

/-- BKPT (R412, R419). -/
def execBkpt (o : OpS1g) (s : State) : Host.Outcome State Fault Refusal :=
  s.run (fun c =>
    s.gate c .any false [srcUse o.a]
      (s.reads c (o.g ≠ 0) (s.act c o.g) (fun _ => [o.a])
        (if s.act c o.g = 0 then s.retire c { swap := true }
         else
           let stop := (s.ctx (s.crewCtx c.core c.slot)).dstop
           let t := s.traceOn c 2 (s.uval c o.a).toNat (if stop then 1 else 0)
           (if stop then t.debugStop (s.cw c).group else t).retire c { swap := true })))

/-- TRACE (R411, R419). -/
def execTrace (o : OpJ) (s : State) : Host.Outcome State Fault Refusal :=
  s.run (fun c =>
    s.gate c .any false [srcUse o.a, srcUse o.b]
      (s.reads c (o.g ≠ 0) (s.act c o.g) (fun _ => [o.a, o.b])
        (if s.act c o.g = 0 then s.retire c {}
         else (s.traceOn c 1 (s.uval c o.a).toNat ((s.uval c o.b).toNat % 2 ^ 32)).retire c {})))

/-- PROG (R405, R420): the increment goes on its way to the device's counter. -/
def execProg (o : OpJ) (s : State) : Host.Outcome State Fault Refusal :=
  s.run (fun c =>
    s.gate c .any false [srcUse o.a, srcUse o.b]
      (s.reads c (o.g ≠ 0) (s.act c o.g) (fun _ => [o.a, o.b])
        (let a := (s.uval c o.a).toNat
         if s.act c o.g = 0 then s.retire c {}
         else if 8 ≤ a then s.takeFault c (faultOf 14 1)
         else (s.modCrew c.core c.slot (fun w => { w with progs := w.progs ++ [(a, s.uval c o.b)] })).retire c {})))

end Sys2Proof.Machine
end

