-- ==== Sys2Proof/Machine/Debug.lean ====
section
/-! DEFINITION. Group 14, FN 9 to 11: CTXFL, HALTG and RESUMEG (R391 to R394). -/

namespace Sys2Proof.Machine

/-- A system instruction with a status in sD: it acts once when some fibre is active; outside system mode it faults (R391). -/
def State.system (s : State) (o : OpDA) (k : Cur → Nat → State) : Host.Outcome State Fault Refusal :=
  s.run (fun c =>
    s.gate c .any false [srcUse o.a, .s o.d.toNat]
      (s.reads c (o.g ≠ 0) (s.act c o.g) (fun _ => [o.a])
        (if s.act c o.g = 0 then s.retire c { swap := true }
         else if !(s.cw c).sys then s.takeFault c (faultOf 2 10)
         else k c (s.uval c o.a).toNat)))

/-- The status of such an instruction in sD, and its retirement as a swap point. -/
def State.status (s : State) (c : Cur) (d : BitVec 5) (m : BitVec 32) (st : Nat) : State :=
  s.putU c false d m (BitVec.ofNat 64 st) { swap := true }

/-- The stores and copies that crews of a context have on their way on a core (R392). -/
def State.flushIds (s : State) (core tag : Nat) : List Nat :=
  let k := s.core core
  (k.stq.filter (fun q => q.ctx = tag)).map StoreReq.seq ++ (k.copies.filter (fun x => x.ctx = tag)).map Copy.id
    ++ (k.remq.filter (fun r => !r.acked && (s.node r.lid).ctx = tag)).map RemReq.id
    ++ (s.peerOut.filter (fun r => r.core = core && (s.node r.lid).ctx = tag)).map PeerReq.id

/-- What a flush of a context tag invalidates on a core (R392). -/
def State.ctxInvalidate (s : State) (core tag : Nat) : State :=
  s.modCore core (fun k => { k with
    tlb := k.tlb.filter (fun t => t.ctx ≠ tag)
    recs := []
    l1 := k.l1.filter (fun e => e.dirty || !(e.attr = attrPrivate || e.attr = attrShared)) })

/-- CTXFL (R392): waits for what was on its way when it issued. -/
def execCtxfl (o : OpDA) (s : State) : Host.Outcome State Fault Refusal :=
  s.system o (fun c a =>
    let m := s.act c o.g
    if 2 ^ 27 ≤ a then s.status c o.d m 5
    else
      let core := a / 65536
      let tag := a % 65536
      let ids := match ((s.cw c).fibre (lowestLane c.lanes)).wait with
        | .flush _ _ ids => ids.filter (fun i => (s.flushIds core tag).contains i)
        | _ => s.flushIds core tag
      if ids.isEmpty then (s.ctxInvalidate core tag).status c o.d m 0 else s.hold c (.flush core tag ids))

/-- A wait that counts as halted while it lasts (R393). -/
def Wait.haltLike (w : Wait) : Bool :=
  match w with
  | .conv _ => true
  | .gbar => true
  | .barw _ _ => true
  | .ringFree _ => true
  | .ringTake _ => true
  | .batch _ => true
  | .grow => true
  | .region => true
  | _ => false

/-- Whether a crew is halted, or counts as halted while it waits (R393). -/
def Crew.haltDone (w : Crew) : Bool := w.halted || w.waiting Wait.haltLike = w.liveMask

/-- Whether the halt of a group is complete. -/
def State.groupHalted (s : State) (g : Nat) : Bool :=
  (s.group g).haltReq && (s.groupSlots g).all (fun sl => (s.crew (s.group g).core sl).haltDone)

/-- Whether a resident group is stopped by a pre-emption: each of its crews is stopped, save those that were halted before (R382, R383). -/
def State.groupStopped (s : State) (g : Nat) : Bool :=
  let ws := (s.groupSlots g).map (s.crew (s.group g).core)
  ws.any Crew.stopped && ws.all (fun w => w.stopped || w.halted)

/-- The resident group of a launch sequence number. -/
def State.groupOfSeq (s : State) (q : Nat) : Option Nat := (s.groups.find? (fun e => e.2.lseq = q)).map Prod.fst

/-- HALTG (R393). -/
def execHaltg (o : OpDA) (s : State) : Host.Outcome State Fault Refusal :=
  s.system o (fun c a =>
    let m := s.act c o.g
    let again := match ((s.cw c).fibre (lowestLane c.lanes)).wait with
      | .halt _ _ => true
      | _ => false
    if 2 ^ 32 ≤ a then s.status c o.d m 5
    else match s.groupOfSeq a with
      | none => s.status c o.d m 1
      | some g =>
        if (s.node (s.group g).node).ctx ≠ s.crewCtx c.core c.slot then s.status c o.d m 2
        else if s.groupStopped g then s.status c o.d m 6
        else if !again && s.groupHalted g then s.status c o.d m 4
        else
          let s := s.debugStop g
          if s.groupHalted g then s.status c o.d m 0
          else if again then s else s.hold c (.halt a s.cycle))

/-- RESUMEG (R394): the halted crews execute the REGION or REGEND at which they stopped. -/
def execResumeg (o : OpDA) (s : State) : Host.Outcome State Fault Refusal :=
  s.system o (fun c a =>
    let m := s.act c o.g
    if 2 ^ 32 ≤ a then s.status c o.d m 5
    else match s.groupOfSeq a with
      | none => s.status c o.d m 1
      | some g =>
        if (s.node (s.group g).node).ctx ≠ s.crewCtx c.core c.slot then s.status c o.d m 2
        else if !s.groupHalted g then s.status c o.d m 4
        else
          let core := (s.group g).core
          let sls := s.groupSlots g
          let s := s.modGroup g (fun r => { r with haltReq := false })
          let s := s.each sls (fun s sl => (s.modCrew core sl (fun w => { w with halted := false })).tryRegion core sl)
          s.status c o.d m 0)

/-- ACCG (R125, R135, R232). A handler crew's group is the trapping crew's; its request is made for that group (log 8). -/
def execAccg (o : OpDA) (s : State) : Host.Outcome State Fault Refusal :=
  s.run (fun c =>
    s.gate c .any false [srcUse o.a, .s o.d.toNat]
      (s.reads c (o.g ≠ 0) (s.act c o.g) (fun _ => [o.a])
        (let m := s.act c o.g
         let n := (s.uval c o.a).toNat
         if m = 0 then s.retire c { swap := true }
         else if 48 < n then s.status c o.d m 2
         else
           if s.accNamed c.core (s.cw c).group n then s.hold c (.array n)
           else
             let r := s.askGrow c true n o.d
             match r.2 with
             | some st => r.1.status c o.d m st
             | none => r.1.hold c .grow)))

end Sys2Proof.Machine
end

