-- ==== Sys2Proof/Machine/LaneMat.lean ====
section
/-! DEFINITION. Group 12: lane matrices (R123, R194 to R208). -/

namespace Sys2Proof.Machine

/-- A shape tag (R123). -/
def mkTag (r c : Nat) (ty : Bool) : BitVec 8 := BitVec.ofNat 8 (r + 8 * c + if ty then 64 else 0)

/-- The format of a TYPE. -/
def mfmt (ty : Bool) : Fmt := if ty then fmtD else fmtS

/-- A lane's matrix: its register, shape, TYPE and element encodings. -/
structure MView where
  k : Nat
  r : Nat
  c : Nat
  ty : Bool
  el : Nat → Nat → Nat

/-- The matrix in a lane's register. -/
def Crew.mview (w : Crew) (k : BitVec 4) (lane : Nat) : MView :=
  let t := (w.mtagOf k.toNat lane).tag.toNat
  let ty := decide (t / 64 % 2 = 1)
  { k := k.toNat, r := t % 8, c := t / 8 % 8, ty := ty
    el := fun i j => (w.mel k.toNat lane (6 * i + j)).val.toNat % 2 ^ (mfmt ty).width }

/-- The matrix or its transpose. -/
def MView.op (x : MView) (tr : Bool) : MView := if tr then { x with r := x.c, c := x.r, el := fun i j => x.el j i } else x

/-- Index pairs of a shape, row by row. -/
def cells (r c : Nat) : List (Nat × Nat) := (List.range r).flatMap (fun i => (List.range c).map (fun j => (i, j)))

/-- The positions within the shape of a register, as (register, position). -/
def MView.all (x : MView) : List (Nat × Nat) := (cells x.r x.c).map (fun e => (x.k, 6 * e.1 + e.2))

/-- The diagonal and lower triangle (R133). -/
def MView.lower (x : MView) : List (Nat × Nat) := ((cells x.r x.c).filter (fun e => decide (e.2 ≤ e.1))).map (fun e => (x.k, 6 * e.1 + e.2))

/-- What an instruction does in one lane: the matrix it writes, one position or a vector register it writes, the matrix
flags it sets and clears, its FFLAGS, and the positions and vector registers it reads. -/
structure LRes where
  mat : Option (BitVec 8 × List (Nat × Nat)) := none
  one : Option (Nat × Nat) := none
  vec : Option (BitVec 6 × Word) := none
  mf : BitVec 4 := 0
  clr : BitVec 4 := 0
  ff : FSet := 0
  rd : List (Nat × Nat) := []
  vr : List (BitVec 6) := []

/-- An operand shape that does not suit: SHP and nothing else (R196). -/
def LRes.shp : LRes := { mf := mfSHP }

/-- A result matrix, element by element, with the flags of its roundings. -/
def lresOf (r c : Nat) (ty : Bool) (rd : List (Nat × Nat)) (f : Nat → Nat → Nat × FSet) : LRes :=
  let es := (cells r c).map (fun e => (6 * e.1 + e.2, f e.1 e.2))
  { mat := some (mkTag r c ty, es.map (fun e => (e.1, e.2.1))), ff := orFlags (es.map (fun e => e.2.2)), rd := rd }

/-- A result of the canonical NaN in every element (R203, R205, R206). -/
def lresNan (r c : Nat) (ty : Bool) (rd : List (Nat × Nat)) (mf : BitVec 4) : LRes :=
  { lresOf r c ty rd (fun _ _ => ((mfmt ty).nanBits, 0)) with mf := mf }

/-- A lane's result written into the crew (R194). -/
def Crew.putLane (w : Crew) (d : Nat) (lane : Nat) (x : LRes) : Crew :=
  let w := match x.mat with
    | some m =>
      let w := (List.range 36).foldl (fun (w : Crew) q => w.setMel d lane q
        { val := BitVec.ofNat 64 (((m.2.find? (fun (e : Nat × Nat) => e.1 = q)).map Prod.snd).getD 0) }) w
      w.setMtag d lane m.1
    | none => w
  let w := match x.one with
    | some p => w.setMel d lane p.1 { val := BitVec.ofNat 64 p.2 }
    | none => w
  let w := match x.vec with
    | some p => w.setVreg lane ((w.fibre lane).wbase.toNat + p.1.toNat) { val := p.2 }
    | none => w
  w.modFibre lane (fun f => { f with mflags := (f.mflags ||| x.mf) &&& ~~~x.clr })

/-- A group-12 instruction: the checks, the poison of tags, positions and registers its effect reads, the arithmetic trap, and
its result in every active lane (R133, R194, R196, R207). -/
def State.laneMat (s : State) (g : BitVec 3) (d : Nat) (us : List Use) (tags : List (BitVec 4)) (f : Crew → RMode → Nat → LRes) :
    Host.Outcome State Fault Refusal :=
  s.run (fun c =>
    s.gate c .vector false us
      (let w := s.cw c
       let m := s.act c g
       let rs := (lanesOf m).map (fun l => (l, f w (RMode.ofCode w.frm.toNat) l))
       let resOf (l : Nat) : LRes := ((rs.find? (fun e => e.1 = l)).map Prod.snd).getD {}
       s.reads c (g ≠ 0) m (fun l => (resOf l).vr.map Src.v)
        (if rs.any (fun e => tags.any (fun k => (w.mtagOf k.toNat e.1).bad)
              || e.2.rd.any (fun p => (w.mel p.1 e.1 p.2).poison)) then s.consume c
         else
           let hit (b : BitVec 4) (on : Bool) : BitVec 32 := if on then maskOf ((rs.filter (fun e => e.2.mf &&& b ≠ 0)).map Prod.fst) else 0
           let np := hit mfNPP w.tnpp
           let zp := hit mfZP w.tzp
           if np ≠ 0 then s.takeFault c { cause := 7, sub := 1, lanes := np }
           else if zp ≠ 0 then s.takeFault c { cause := 7, sub := 2, lanes := zp }
           else
             let s := s.modCrew c.core c.slot (fun w =>
               let w := rs.foldl (fun w e => w.putLane d e.1 e.2) w
               { w with fflags := w.fflags ||| w.flagsOf (rs.map (fun e => (e.1, 0, e.2.ff))) })
             s.retire c {})))

/-- MSHAPE (R198). -/
def execMshape (o : OpMsh) (s : State) : Host.Outcome State Fault Refusal :=
  s.laneMat o.g o.d.toNat [.m o.d.toNat] [] (fun _ _ _ =>
    { mat := some (mkTag o.rows.toNat o.cols.toNat o.ty, []) })

/-- MIDN (R198). -/
def execMidn (o : OpMid) (s : State) : Host.Outcome State Fault Refusal :=
  s.laneMat o.g o.d.toNat [.m o.d.toNat] [] (fun _ _ _ =>
    lresOf o.n.toNat o.n.toNat o.ty [] (fun i j => (if i = j then (mfmt o.ty).bias * 2 ^ (mfmt o.ty).fbits else 0, 0)))

/-- MMOVV (R200). -/
def execMmovv (o : OpMmv) (s : State) : Host.Outcome State Fault Refusal :=
  s.laneMat o.g o.m.toNat [.m o.m.toNat, .v o.v.toNat] [o.m] (fun w _ l =>
    let x := w.mview o.m l
    let i := o.i.toNat
    let j := o.j.toNat
    let q := 6 * i + j
    if x.r = 0 || x.r ≤ i || x.c ≤ j then LRes.shp
    else if o.dir then { vec := some (o.v, (w.mel o.m.toNat l q).val), rd := [(o.m.toNat, q)] }
    else { one := some (q, (w.val l (.v o.v)).toNat % 2 ^ (mfmt x.ty).width), vr := [o.v] })

/-- MFLAG (R200). -/
def execMflag (o : OpMfl) (s : State) : Host.Outcome State Fault Refusal :=
  s.laneMat o.g 0 [.v o.v.toNat] [] (fun w _ l =>
    { vec := some (o.v, ((w.fibre l).mflags).setWidth 64), clr := if o.clr then 0xF else 0 })

/-- A sum of products, with `extra` terms, rounded once (R197): `ps` are the factor pairs, `neg` subtracts them. -/
def mdot (f : Fmt) (m : RMode) (neg : Bool) (extra : List Nat) (ps : List (Nat × Nat)) : Nat × FSet :=
  let xs := ps.map (fun p => (f.decode p.1, f.decode p.2))
  let ts := xs.map (fun p => p.1.mulTerm p.2)
  let es := extra.map f.decode
  f.sumRound m (es ++ xs.map Prod.fst ++ xs.map Prod.snd) (es ++ ts.map (fun t => if neg then t.1.negate else t.1)) (ts.any Prod.snd)

/-- The factor pairs of element (i, j) of a product. -/
def mpairs (a b : MView) (i j : Nat) : List (Nat × Nat) := (List.range a.c).map (fun k => (a.el i k, b.el k j))

/-- MMUL (R196, R201). -/
def execMmul (o : OpMm) (s : State) : Host.Outcome State Fault Refusal :=
  s.laneMat o.g o.d.toNat [.m o.d.toNat, .m o.a.toNat, .m o.b.toNat] [o.a, o.b] (fun w m l =>
    let x := (w.mview o.a l).op o.ta
    let y := (w.mview o.b l).op o.tb
    if x.r = 0 || y.r = 0 || x.c ≠ y.r || x.ty ≠ y.ty then LRes.shp
    else lresOf x.r y.c x.ty ((w.mview o.a l).all ++ (w.mview o.b l).all) (fun i j => mdot (mfmt x.ty) m false [] (mpairs x y i j)))

/-- MMAC (R196, R201). -/
def execMmac (o : OpMmn) (s : State) : Host.Outcome State Fault Refusal :=
  s.laneMat o.g o.d.toNat [.m o.d.toNat, .m o.a.toNat, .m o.b.toNat] [o.a, o.b, o.d] (fun w m l =>
    let x := (w.mview o.a l).op o.ta
    let y := (w.mview o.b l).op o.tb
    let d := w.mview o.d l
    if x.r = 0 || y.r = 0 || x.c ≠ y.r || x.ty ≠ y.ty || d.r ≠ x.r || d.c ≠ y.c || d.ty ≠ x.ty then LRes.shp
    else lresOf x.r y.c x.ty ((w.mview o.a l).all ++ (w.mview o.b l).all ++ d.all)
      (fun i j => mdot (mfmt x.ty) m o.neg [d.el i j] (mpairs x y i j)))

/-- MMV (R196, R201): a 1×1 MB is a column. -/
def execMmv (o : OpMvv) (s : State) : Host.Outcome State Fault Refusal :=
  s.laneMat o.g o.d.toNat [.m o.d.toNat, .m o.a.toNat, .m o.b.toNat] (if o.acc then [o.a, o.b, o.d] else [o.a, o.b]) (fun w m l =>
    let x := (w.mview o.a l).op o.ta
    let b := w.mview o.b l
    let d := w.mview o.d l
    let col := b.c = 1
    let q := if col then b.r else b.c
    let v (k : Nat) : Nat := if col then b.el k 0 else b.el 0 k
    let rr := if col then x.r else 1
    let rc := if col then 1 else x.r
    if x.r = 0 || b.r = 0 || (b.c ≠ 1 && b.r ≠ 1) || x.c ≠ q || x.ty ≠ b.ty
        || (o.acc && (d.r ≠ rr || d.c ≠ rc || d.ty ≠ x.ty)) then LRes.shp
    else lresOf rr rc x.ty ((w.mview o.a l).all ++ b.all ++ (if o.acc then d.all else []))
      (fun i j => mdot (mfmt x.ty) m o.neg (if o.acc then [d.el i j] else [])
        ((List.range x.c).map (fun k => (x.el (if col then i else j) k, v k)))))

/-- MADD (R196, R201). -/
def execMadd (o : OpMad) (s : State) : Host.Outcome State Fault Refusal :=
  s.laneMat o.g o.d.toNat [.m o.d.toNat, .m o.a.toNat, .m o.b.toNat] [o.a, o.b] (fun w m l =>
    let x := w.mview o.a l
    let y := w.mview o.b l
    let f := mfmt x.ty
    if x.r = 0 || x.r ≠ y.r || x.c ≠ y.c || x.ty ≠ y.ty then LRes.shp
    else lresOf x.r x.c x.ty (x.all ++ y.all) (fun i j =>
      if o.sub then f.fsub m (x.el i j) (y.el i j) else f.fadd m (x.el i j) (y.el i j)))

/-- MSCAL (R196, R201). -/
def execMscal (o : OpM2v) (s : State) : Host.Outcome State Fault Refusal :=
  s.laneMat o.g o.d.toNat [.m o.d.toNat, .m o.a.toNat, .v o.v.toNat] [o.a] (fun w m l =>
    let x := w.mview o.a l
    let f := mfmt x.ty
    if x.r = 0 then LRes.shp
    else { lresOf x.r x.c x.ty x.all (fun i j => f.fmul m ((w.val l (.v o.v)).toNat % 2 ^ f.width) (x.el i j)) with vr := [o.v] })

/-- MTRN (R196, R201). -/
def execMtrn (o : OpM2) (s : State) : Host.Outcome State Fault Refusal :=
  s.laneMat o.g o.d.toNat [.m o.d.toNat, .m o.a.toNat] [o.a] (fun w _ l =>
    let x := w.mview o.a l
    if x.r = 0 then LRes.shp else lresOf x.c x.r x.ty x.all (fun i j => (x.el j i, 0)))

/-- Where a factorisation or solve stands: whether a step has given a non-finite value, and its flags (R206). -/
structure Stp where
  broke : Bool := false
  fl : FSet := 0

/-- Whether an encoding is finite. -/
def Fmt.isFin (f : Fmt) (e : Nat) : Bool := !(f.decode e).isNan && !(f.decode e).isInf

/-- The value of a step, with its flags; a non-finite one ends the computation (R206). -/
def Stp.out (st : Stp) (f : Fmt) (r : Nat × FSet) : Nat × Stp :=
  (r.1, { broke := st.broke || !f.isFin r.1, fl := st.fl ||| r.2 })

/-- One rounded step (R197, R202 to R205): `(base − Σ a × b) ÷ d`, or without the quotient; after a broken step, NaN. -/
def Stp.step (st : Stp) (f : Fmt) (m : RMode) (base : Nat) (ps : List (Nat × Nat)) (d : Option Nat) : Nat × Stp :=
  if st.broke then (f.nanBits, st)
  else
    let ts := f.decode base :: ps.map (fun p => ((f.decode p.1).mulTerm (f.decode p.2)).1.negate)
    match d with
    | none => st.out f (f.round m (zeroSumNeg m ts) (sumReal ts))
    | some q => st.out f (f.round m (zeroSumNeg m ts != (f.decode q).neg) ((sumReal ts).div (f.decode q).real))

/-- An element of a working matrix: position 6i + j, 0 unless listed. -/
def wel (t : Tab Nat) (i j : Nat) : Nat := Tab.get t 0 (6 * i + j)

/-- A working matrix with an element replaced. -/
def wput (t : Tab Nat) (i j x : Nat) : Tab Nat := Tab.put t (6 * i + j) x

/-- The result of a factorisation or solve (R206): its NFN when a step broke. -/
def lresWork (n c : Nat) (ty : Bool) (rd : List (Nat × Nat)) (t : Tab Nat) (st : Stp) (mf : BitVec 4) : LRes :=
  { lresOf n c ty rd (fun i j => (wel t i j, 0)) with ff := st.fl, mf := mf ||| (if st.broke then mfNFN else 0) }

/-- The columns of MCHOL (R202): the factor so far, the step state, and whether a pivot ≤ 0 ended it. -/
def cholCols (f : Fmt) (m : RMode) (n : Nat) (a : Nat → Nat → Nat) : Tab Nat × Stp × Bool :=
  (List.range n).foldl (fun (acc : Tab Nat × Stp × Bool) j =>
    let l := acc.1
    let st := acc.2.1
    if acc.2.2 then acc
    else
      let d := sumReal (f.decode (a j j) :: (List.range j).map (fun k => ((f.decode (wel l j k)).mulTerm (f.decode (wel l j k))).1.negate))
      if !st.broke && decide (d.num ≤ 0) then (l, st, true)
      else
        let p := if st.broke then (f.nanBits, st) else st.out f (f.round m false (sqrtReal d))
        let l := wput l j j p.1
        let r := ((List.range n).filter (fun i => decide (j < i))).foldl (fun (q : Tab Nat × Stp) i =>
          let x := q.2.step f m (a i j) ((List.range j).map (fun k => (wel q.1 i k, wel q.1 j k))) (some (wel q.1 j j))
          (wput q.1 i j x.1, x.2)) (l, p.2)
        (r.1, r.2, false)) ([], {}, false)

/-- MCHOL (R202, R206). -/
def execMchol (o : OpM2) (s : State) : Host.Outcome State Fault Refusal :=
  s.laneMat o.g o.d.toNat [.m o.d.toNat, .m o.a.toNat] [o.a] (fun w m l =>
    let x := w.mview o.a l
    let f := mfmt x.ty
    if x.r = 0 || x.r ≠ x.c then LRes.shp
    else if !(cells x.r x.r).all (fun e => decide (e.1 < e.2) || f.isFin (x.el e.1 e.2)) then lresNan x.r x.r x.ty x.lower mfNFN
    else
      let r := cholCols f m x.r x.el
      lresWork x.r x.r x.ty x.lower r.1 r.2.1 (if r.2.2 then mfNPP else 0))

/-- Whether |x| > |y| among encodings; a NaN counts as greatest (R204). -/
def magGt (f : Fmt) (x y : Nat) : Bool :=
  match f.decode x, f.decode y with
  | _, .nan _ => false
  | .nan _, _ => true
  | _, .inf _ => false
  | .inf _, _ => true
  | .fin _ p, .fin _ q => q.lt p

/-- Rows `p` and `k` of a working matrix of `n` columns exchanged. -/
def wswap (n : Nat) (t : Tab Nat) (p k : Nat) : Tab Nat :=
  (List.range n).foldl (fun (acc : Tab Nat) j => wput (wput acc p j (wel t k j)) k j (wel t p j)) t

/-- One column of MLU (R204, R206): the working matrix, the step state, the pivots and ZP. -/
def luCol (f : Fmt) (m : RMode) (n : Nat) (acc : Tab Nat × Stp × List Nat × Bool) (k : Nat) : Tab Nat × Stp × List Nat × Bool :=
  let t := acc.1
  let later := (List.range n).filter (fun i => decide (k < i))
  let cs := (k :: later).foldl (fun (q : Tab Nat × Stp) i =>
    let x := q.2.step f m (wel t i k) ((List.range k).map (fun a => (wel t i a, wel t a k))) none
    (wput q.1 0 i x.1, x.2)) (([] : Tab Nat), acc.2.1)
  let p := later.foldl (fun p i => if magGt f (wel cs.1 0 i) (wel cs.1 0 p) then i else p) k
  let p := if acc.2.1.broke then k else p
  let t := wswap n t p k
  let c (i : Nat) : Nat := if i = k then wel cs.1 0 p else if i = p then wel cs.1 0 k else wel cs.1 0 i
  let t := wput t k k (c k)
  let zero := !cs.2.broke && (f.decode (c k)).isZero
  let r := later.foldl (fun (q : Tab Nat × Stp) j =>
    let x := q.2.step f m (wel q.1 k j) ((List.range k).map (fun a => (wel q.1 k a, wel q.1 a j))) none
    (wput q.1 k j x.1, x.2)) (t, cs.2)
  let r := later.foldl (fun (q : Tab Nat × Stp) i =>
    let x := if q.2.broke then (f.nanBits, q.2) else if zero then (0, q.2) else q.2.step f m (c i) [] (some (c k))
    (wput q.1 i k x.1, x.2)) r
  (r.1, r.2, acc.2.2.1 ++ [p], acc.2.2.2 || zero)

/-- MLU (R204, R206). -/
def execMlu (o : OpM2v) (s : State) : Host.Outcome State Fault Refusal :=
  s.laneMat o.g o.d.toNat [.m o.d.toNat, .m o.a.toNat, .v o.v.toNat] [o.a] (fun w m l =>
    let x := w.mview o.a l
    let f := mfmt x.ty
    if x.r = 0 || x.r ≠ x.c then LRes.shp
    else if !(cells x.r x.r).all (fun e => f.isFin (x.el e.1 e.2)) then
      { lresNan x.r x.r x.ty x.all mfNFN with vec := some (o.v, 0) }
    else
      let t0 : Tab Nat := (cells x.r x.r).foldl (fun (t : Tab Nat) e => wput t e.1 e.2 (x.el e.1 e.2)) []
      let r := (List.range x.r).foldl (luCol f m x.r) (t0, {}, [], false)
      { lresWork x.r x.r x.ty x.all r.1 r.2.1 (if r.2.2.2 then mfZP else 0) with vec := some (o.v, packEls 8 r.2.2.1) })

/-- Forward and backward substitution of one column (R203, R205): `lo` and `up` are the factors' elements, `dl` and `du` say
whether the step divides by the diagonal. -/
def solveCol (f : Fmt) (m : RMode) (n : Nat) (fwd bwd dl : Bool) (lo up : Nat → Nat → Nat) (b : Nat → Nat) (st : Stp) :
    List Nat × Stp :=
  let y := if fwd then (List.range n).foldl (fun (q : Tab Nat × Stp) i =>
        let x := q.2.step f m (b i) ((List.range i).map (fun a => (lo i a, Tab.get q.1 0 a))) (if dl then some (lo i i) else none)
        (Tab.put q.1 i x.1, x.2)) (([] : Tab Nat), st)
    else ((List.range n).foldl (fun (t : Tab Nat) i => Tab.put t i (b i)) [], st)
  let z := if bwd then ((List.range n).reverse).foldl (fun (q : Tab Nat × Stp) i =>
        let x := q.2.step f m (Tab.get y.1 0 i)
          (((List.range n).filter (fun a => decide (i < a))).map (fun a => (up i a, Tab.get q.1 0 a))) (some (up i i))
        (Tab.put q.1 i x.1, x.2)) (([] : Tab Nat), y.2)
    else y
  ((List.range n).map (fun i => Tab.get z.1 0 i), z.2)

/-- The columns of a solve in turn. -/
def solveCols (n c : Nat) (one : Nat → Stp → List Nat × Stp) : Tab Nat × Stp :=
  (List.range c).foldl (fun (q : Tab Nat × Stp) j =>
    let r := one j q.2
    ((List.range n).foldl (fun (t : Tab Nat) i => wput t i j (r.1.getD i 0)) q.1, r.2)) (([] : Tab Nat), {})

/-- MSOLC (R203, R206). -/
def execMsolc (o : OpMsc) (s : State) : Host.Outcome State Fault Refusal :=
  s.laneMat o.g o.d.toNat [.m o.d.toNat, .m o.a.toNat, .m o.b.toNat] [o.a, o.b] (fun w m l =>
    let x := w.mview o.a l
    let b := w.mview o.b l
    let f := mfmt x.ty
    let n := x.r
    let rd := x.lower ++ b.all
    if n = 0 || n ≠ x.c || b.r ≠ n || b.ty ≠ x.ty then LRes.shp
    else if !((cells n n).all (fun e => decide (e.1 < e.2) || f.isFin (x.el e.1 e.2)) && (cells n b.c).all (fun e => f.isFin (b.el e.1 e.2))) then
      lresNan n b.c x.ty rd mfNFN
    else if (List.range n).any (fun i => decide ((f.decode (x.el i i)).real.num ≤ 0)) then lresNan n b.c x.ty rd (mfNPP ||| mfNFN)
    else
      let r := solveCols n b.c (fun j st => solveCol f m n (o.mode ≠ 2) (o.mode ≠ 1) true x.el (fun i a => x.el a i) (fun i => b.el i j) st)
      lresWork n b.c x.ty rd r.1 r.2 0)

/-- MSOLL (R205, R206): the pivot record is tested first, as the description orders it. -/
def execMsoll (o : OpM3v) (s : State) : Host.Outcome State Fault Refusal :=
  s.laneMat o.g o.d.toNat [.m o.d.toNat, .m o.a.toNat, .m o.b.toNat, .v o.v.toNat] [o.a, o.b] (fun w m l =>
    let x := w.mview o.a l
    let b := w.mview o.b l
    let f := mfmt x.ty
    let n := x.r
    let rd := x.all ++ b.all
    let piv (k : Nat) : Nat := lmt 8 k (w.val l (.v o.v))
    if n = 0 || n ≠ x.c || b.r ≠ n || b.ty ≠ x.ty then LRes.shp
    else if (List.range 8).any (fun k => if k < n then decide (piv k < k) || decide (n ≤ piv k) else decide (piv k ≠ 0)) then
      { LRes.shp with vr := [o.v] }
    else if !((cells n n).all (fun e => f.isFin (x.el e.1 e.2)) && (cells n b.c).all (fun e => f.isFin (b.el e.1 e.2))) then
      { lresNan n b.c x.ty rd mfNFN with vr := [o.v] }
    else if (List.range n).any (fun i => (f.decode (x.el i i)).isZero) then { lresNan n b.c x.ty rd (mfZP ||| mfNFN) with vr := [o.v] }
    else
      let t0 : Tab Nat := (cells n b.c).foldl (fun (t : Tab Nat) e => wput t e.1 e.2 (b.el e.1 e.2)) []
      let t := (List.range n).foldl (fun (t : Tab Nat) k => wswap b.c t (piv k) k) t0
      let r := solveCols n b.c (fun j st => solveCol f m n true true false x.el x.el (fun i => wel t i j) st)
      { lresWork n b.c x.ty rd r.1 r.2 0 with vr := [o.v] })

/-- The elements of an MLD or MST in a lane: position, address (R199). -/
def Crew.mlAddrs (w : Crew) (o : OpMl) (l : Nat) : List (Nat × Word) :=
  let x := w.mview o.d l
  let z := if x.ty then 8 else 4
  let st := if o.stride = 0 then (if o.xp then x.r else x.c) else o.stride.toNat
  (cells x.r x.c).map (fun e =>
    (6 * e.1 + e.2, w.val l o.a + BitVec.ofNat 64 (z * (if o.xp then e.2 * st + e.1 else e.1 * st + e.2))))

/-- Bytes of an element of a lane's matrix. -/
def Crew.mz (w : Crew) (k : BitVec 4) (l : Nat) : Nat := if (w.mview k l).ty then 8 else 4

/-- The faults of an MLD or MST in the lanes of a mask (R199, R244). -/
def State.mlFaults (s : State) (c : Cur) (o : OpMl) (m : BitVec 32) (store : Bool) : List (Nat × FaultInfo) :=
  let w := s.cw c
  (lanesOf m).flatMap (fun l => (w.mlAddrs o l).filterMap (fun e =>
    let z := w.mz o.d l
    if e.2.toNat % z ≠ 0 then some (lanesFault 4 1 l e.2)
    else match s.ownPad c e.2.toNat with
      | none => some (lanesFault 2 6 l e.2)
      | some off => if store && s.tagBlocked w.group off z then some (lanesFault 2 8 l e.2) else none))

/-- The bank conflicts of an MLD or MST in the lanes of a mask (R242, R403). DESIGN CHOICE (log 33): each position of the matrix is one
scratchpad access of the lanes that have it. -/
def State.countMatBanks (s : State) (c : Cur) (o : OpMl) (m : BitVec 32) : State :=
  let w := s.cw c
  let at_ (l q : Nat) : Option PLane := ((w.mlAddrs o l).find? (fun e => e.1 = q)).map (fun e =>
    { lane := l, va := e.2.toNat, place := .pad w.group ((s.ownPad c e.2.toNat).getD 0) })
  s.each (List.range 36) (fun s q => s.countBanks c ((lanesOf m).filterMap (fun l => at_ l q)) 4)

/-- The lanes whose MD is unshaped set SHP (R196, R199). -/
def Crew.shpLanes (w : Crew) (k : BitVec 4) (m : BitVec 32) : Crew :=
  w.modLanes (m &&& w.lanesWhere (fun _ => true)) (fun l f => if (w.mview k l).r = 0 then { f with mflags := f.mflags ||| mfSHP } else f)

/-- The accesses of an MLD or MST as accesses by the local window, which earlier ones of the crew must precede (R269, R302). -/
def State.mlPlaces (s : State) (c : Cur) (o : OpMl) (m : BitVec 32) : List PLane :=
  let w := s.cw c
  (lanesOf m).flatMap (fun l => (w.mlAddrs o l).map (fun e =>
    let off := (s.ownPad c e.2.toNat).getD 0
    { lane := l, va := 0x01FFFFFF00000000 + off, place := .pad w.group off }))

/-- MLD (R199, R260, R269). -/
def execMld (o : OpMl) (s : State) : Host.Outcome State Fault Refusal :=
  s.run (fun c =>
    s.gate c .vector false [.m o.d.toNat, srcUse o.a]
      (s.reads c (o.g ≠ 0) (s.act c o.g) (fun _ => [o.a])
        (let m := s.act c o.g
         if (lanesOf m).any (fun l => ((s.cw c).mtagOf o.d.toNat l).bad) then s.consume c
         else match pickFault (s.mlFaults c o m false) with
           | some f => s.takeFault c f
           | none =>
             s.ordered c .load (s.mlPlaces c o m) 8
             (let w := s.cw c
             let s := (s.countMatBanks c o m).modCrew c.core c.slot (fun w => w.shpLanes o.d m)
             let s := s.each (lanesOf m) (fun s l =>
               let z := w.mz o.d l
               if (w.mview o.d l).r = 0 then s
               else
                 let clear := s.modCrew c.core c.slot (fun w => (List.range 36).foldl (fun (w : Crew) q => w.setMel o.d.toNat l q {}) w)
                 clear.each (w.mlAddrs o l) (fun s e =>
                   let off := (s.ownPad c e.2.toNat).getD 0
                   let s := s.touchPad w.group off z
                   let r := s.padRead w.group off z
                   s.modCrew c.core c.slot (fun w => w.setMel o.d.toNat l e.1 { val := BitVec.ofNat 64 (leNat r.1), poison := r.2 })))
             s.retire c {}))))

/-- MST (R48, R199, R243, R244, R269). -/
def execMst (o : OpMl) (s : State) : Host.Outcome State Fault Refusal :=
  s.run (fun c =>
    s.gate c .vector false [.m o.d.toNat, srcUse o.a]
      (s.reads c (o.g ≠ 0) (s.act c o.g) (fun _ => [o.a])
        (let m := s.act c o.g
         let w := s.cw c
         let data (l : Nat) (q : Nat) : Word := (w.mel o.d.toNat l q).val
         if (lanesOf m).any (fun l => (w.mtagOf o.d.toNat l).bad || (w.mlAddrs o l).any (fun e => (w.mel o.d.toNat l e.1).poison)) then s.consume c
         else if s.pairsDiffer c m (fun l => (w.mlAddrs o l).flatMap (fun e => [e.2, data l e.1])) then s.mismatch c
         else match pickFault (s.mlFaults c o m true) with
           | some f => s.takeFault c f
           | none =>
             s.ordered c .store (s.mlPlaces c o (w.primaries m)) 8
             (let s := (s.countMatBanks c o (w.primaries m)).modCrew c.core c.slot (fun w => w.shpLanes o.d m)
             let s := s.each (lanesOf (w.primaries m)) (fun s l =>
               s.each (w.mlAddrs o l) (fun s e =>
                 s.padWrite w.group ((s.ownPad c e.2.toNat).getD 0) (leBytes (w.mz o.d l) (data l e.1).toNat)))
             s.retire c {}))))

end Sys2Proof.Machine
end

