-- ==== Sys2Proof/Machine/Accum.lean ====
section
/-! DEFINITION. Tiles and weight slots as the array sees them, storage checksums, and the arithmetic of accumulators
(R75, R78 to R90, R124, R210). -/

namespace Sys2Proof.Machine

/-- A tile slot or weight slot in its memory: `bst` is the step of its block-scale rows (R124, R210). -/
structure SlotV where
  mem : Memory
  pois : Tab Bool
  base : Nat
  fmt : Nat
  scaled : Bool
  bst : Nat

/-- Bytes of an element. -/
def SlotV.z (v : SlotV) : Nat := tileZ v.fmt

/-- The number in some bytes of the slot, as reads give them. -/
def SlotV.num (v : SlotV) (off n : Nat) : Nat := leNat (sramRead v.mem v.pois (v.base + off) n).1

/-- Whether a word of some bytes of the slot is poisoned. -/
def SlotV.bad (v : SlotV) (off n : Nat) : Bool := (wordsOf (v.base + off) n).any (fun w => Tab.get v.pois false w)

/-- Element (i, j). -/
def SlotV.el (v : SlotV) (i j : Nat) : Nat := v.num ((32 * i + j) * v.z) v.z

/-- Row scale i. -/
def SlotV.rs (v : SlotV) (i : Nat) : Nat := v.num (4352 + 2 * i) 2

/-- Block scale (i, b). -/
def SlotV.bs (v : SlotV) (i b : Nat) : Nat := v.num (4416 + v.bst * i + b) 1

/-- Metadata of entry r of row n of a sparse slot (R210). -/
def SlotV.meta_ (v : SlotV) (n r : Nat) : Nat := v.num (4544 + 8 * n) 8 / 4 ^ r % 4

/-- The 32 row sums and 32 column sums of the elements (R84). -/
def SlotV.fresh (v : SlotV) : List Nat × List Nat :=
  let ix := List.range 32
  (ix.map (fun i => (ix.map (fun j => v.el i j)).sum % 2 ^ 32), ix.map (fun j => (ix.map (fun i => v.el i j)).sum % 2 ^ 32))

/-- The class of a tile with its row, column and corrected element (R86). -/
structure TileClass where
  cls : Nat := 0
  row : Nat := 0
  col : Nat := 0
  fix : Nat := 0
  deriving DecidableEq, Repr

/-- The class that the nonzero differences give (R86): rows and columns with their differences, `el` the elements of width
`w`. -/
def classOf (w : Nat) (el : Nat → Nat → Nat) (rs cs : List (Nat × Nat)) : TileClass :=
  match rs, cs with
  | [], [] => {}
  | [(i, d)], [(j, e)] =>
    let x := (el i j + 2 ^ 32 - d) % 2 ^ 32
    if d = e && decide (x < 2 ^ w) then { cls := 1, row := i, col := j, fix := x } else { cls := 4 }
  | [(i, _)], [] => { cls := 2, row := i }
  | [], [(j, _)] => { cls := 3, col := j }
  | _, _ => { cls := 4 }

/-- The check of storage checksums (R86). -/
def SlotV.classify (v : SlotV) : TileClass :=
  let f := v.fresh
  let diff (l : List Nat) (off : Nat) : List (Nat × Nat) :=
    (l.zipIdx.map (fun e => (e.2, (e.1 + 2 ^ 32 - v.num (off + 4 * e.2) 4) % 2 ^ 32))).filter (fun e => e.2 ≠ 0)
  classOf (8 * v.z) v.el (diff f.1 4096) (diff f.2 4224)

/-- Whether an element or checksum word is poisoned. -/
def SlotV.sumBad (v : SlotV) : Bool := v.bad 0 (1024 * v.z) || v.bad 4096 256

/-- The row scales and the scales of two block columns are poisoned somewhere. -/
def SlotV.scaleBad (v : SlotV) : Bool := v.scaled && (v.bad 4352 64 || v.bad 4416 (32 * v.bst))

/-- The checksum bytes of some elements, computed afresh (R84). -/
def sumBytes (v : SlotV) : List Byte := (v.fresh.1 ++ v.fresh.2).flatMap (leBytes 4)

/-- What multiplies a block (R75): nothing usable, a zero block, or a scale. -/
inductive EffScale where
  | invalid
  | zero
  | value (v : Rat2)

/-- The effective scale of a block (R73 to R75). -/
def SlotV.scale (v : SlotV) (i b : Nat) : EffScale :=
  if !v.scaled then .value (.ofInt 1)
  else match rowScale (v.rs i), blockScale (v.bs i b) with
    | none, _ => .invalid
    | _, .invalid => .invalid
    | _, .zero => .zero
    | some r, .value x => .value (r.mul x)

/-- The value of an operand of the fixed set: none for void, ±∞ and NaN (R80). -/
def fixedVal (fmt e : Nat) : Option Rat2 :=
  match fmt with
  | 1 => some (.ofInt (sgn 8 e))
  | 2 => d8Real e
  | _ => match fmtH.decode e with
    | .nan _ => none
    | .inf _ => none
    | .fin n q => some (if n then q.neg else q)

/-- The value of an operand of the pair set. -/
def pairVal (fmt e : Nat) : FVal := if fmt = 4 then fmtB.decode e else fmtS.decode e

/-- The mode of an operand pair: 1 fixed, 2 pair, none where the array does not compute (R78). -/
def accMode (w a : Nat) : Option Nat :=
  let fx (f : Nat) : Bool := f = 1 || f = 2 || f = 3
  let pr (f : Nat) : Bool := f = 4 || f = 5
  if fx w && fx a then some 1 else if pr w && pr a then some 2 else none

/-- The operands of a product: activation tiles by number, the weight slot, its sparsity, rows and blocks. -/
structure Prod where
  act : Nat → SlotV
  wt : SlotV
  sparse : Bool
  m : Nat
  blocks : Nat

/-- The activation element at position k of row m (R228). -/
def Prod.a (p : Prod) (m k : Nat) : Nat := (p.act (k / 32)).el m (k % 32)

/-- The weight entries of block b of row n: position and entry number, ascending (R210). -/
def Prod.ents (p : Prod) (n b : Nat) : List (Nat × Nat) :=
  if p.sparse then (List.range 4).flatMap (fun q =>
      let g := 4 * b + q
      let e0 := (4 * g + p.wt.meta_ n (2 * g), 2 * g)
      let e1 := (4 * g + p.wt.meta_ n (2 * g + 1), 2 * g + 1)
      if e1.1 < e0.1 then [e1, e0] else [e0, e1])
  else (List.range 16).map (fun k => (16 * b + k, 16 * b + k))

/-- Whether two kept elements of a group of a block share a position (R81). -/
def Prod.clash (p : Prod) (n b : Nat) : Bool :=
  p.sparse && (List.range 4).any (fun q => p.wt.meta_ n (2 * (4 * b + q)) = p.wt.meta_ n (2 * (4 * b + q) + 1))

/-- What a block enters (R80). -/
inductive Entry where
  | skip
  | void
  | val (y : Rat2)

/-- The exact sum of products of a block; none for void (R80, R81). -/
def Prod.dot (p : Prod) (m n b : Nat) : Option Rat2 :=
  if p.clash n b then none
  else (p.ents n b).foldl (fun acc e =>
    match acc, fixedVal (p.act (e.1 / 32)).fmt (p.a m e.1), fixedVal p.wt.fmt (p.wt.el n e.2) with
    | some s, some x, some y => some (s.add (x.mul y))
    | _, _, _ => none) (some (.ofInt 0))

/-- The scales of block b of activation row m and of weight row n. -/
def Prod.scales (p : Prod) (m n b : Nat) : EffScale × EffScale := ((p.act (b / 2)).scale m (b % 2), p.wt.scale n b)

/-- The entry of a block (R80). -/
def Prod.entry (p : Prod) (m n b : Nat) : Entry :=
  match p.scales m n b with
  | (.invalid, _) => .void
  | (_, .invalid) => .void
  | (.zero, _) => .skip
  | (_, .zero) => .skip
  | (.value x, .value y) => match p.dot m n b with
    | none => .void
    | some s => .val ((s.mul x).mul y)

/-- Whether what block b of element (m, n) reads is poisoned (R217): scales, metadata, and the elements of a block that is
not a zero block. -/
def Prod.badBlock (p : Prod) (m n b : Nat) : Bool :=
  let t := p.act (b / 2)
  let sc := (t.scaled && (t.bad (4352 + 2 * m) 2 || t.bad (4416 + t.bst * m + b % 2) 1))
    || (p.wt.scaled && (p.wt.bad (4352 + 2 * n) 2 || p.wt.bad (4416 + p.wt.bst * n + b) 1))
    || (p.sparse && p.wt.bad (4544 + 8 * n) 8)
  let el := match p.scales m n b with
    | (.value _, .value _) => (p.ents n b).any (fun e =>
        (p.act (e.1 / 32)).bad ((32 * m + e.1 % 32) * t.z) t.z || p.wt.bad ((32 * n + e.2) * p.wt.z) p.wt.z)
    | _ => false
  sc || el

/-- The void code of the fixed mode (R79). -/
def accVoid : BitVec 128 := BitVec.ofNat 128 (2 ^ 127)

/-- An entry of an integer q into a fixed-mode code: saturation sets ACCOV (R79, R80). -/
def fixedAdd (acc : BitVec 128) (q : Int) : BitVec 128 × FSet :=
  if acc = accVoid then (acc, 0)
  else
    let x := acc.toInt + q
    let hi : Int := 2 ^ 127 - 1
    if hi < x then (BitVec.ofInt 128 hi, flagACCOV) else if x < -hi then (BitVec.ofInt 128 (-hi), flagACCOV)
    else (BitVec.ofInt 128 x, 0)

/-- y × 2^64 rounded to the nearest integer, ties to even, and whether that was inexact (R80). -/
def fixedQ (y : Rat2) : Int × Bool := roundInt .rne (y.mul (.ofInt (2 ^ 64)))

/-- Element (m, n) of the fixed mode after a product (R80): its code and flags. -/
def Prod.fixedEl (p : Prod) (acc : BitVec 128) (m n : Nat) : BitVec 128 × FSet :=
  (List.range p.blocks).foldl (fun (r : BitVec 128 × FSet) b =>
    match p.entry m n b with
    | .skip => r
    | .void => (accVoid, r.2)
    | .val y => let x := fixedAdd r.1 (fixedQ y).1; (x.1, r.2 ||| x.2)) (acc, 0)

/-- Whether column n of the fixed mode fails the arithmetic check (R87). -/
def Prod.fixedMismatch (p : Prod) (n : Nat) : Bool :=
  let rows := List.range p.m
  let blks := List.range p.blocks
  let ents := rows.flatMap (fun m => blks.filterMap (fun b => match p.entry m n b with
    | .val y => some y
    | _ => none))
  let out : Int := (ents.map (fun y => (fixedQ y).1)).sum
  let inexact := (ents.filter (fun y => (fixedQ y).2)).length
  let chk := blks.foldl (fun (acc : Rat2) b => (p.ents n b).foldl (fun (acc : Rat2) e =>
    match p.wt.scale n b, fixedVal p.wt.fmt (p.wt.el n e.2) with
    | .value sw, some w =>
      let u := rows.foldl (fun (u : Rat2) m => match (p.act (b / 2)).scale m (b % 2), fixedVal (p.act (b / 2)).fmt (p.a m e.1) with
        | .value sa, some a => u.add (sa.mul a)
        | _, _ => u) (Rat2.ofInt 0)
      acc.add ((sw.mul u).mul w)
    | _, _ => acc) acc) (Rat2.ofInt 0)
  ({ num := inexact, den := 2 ^ 65 } : Rat2).lt (({ num := out, den := 2 ^ 64 } : Rat2).sub chk).abs

/-- The sum of a pair-mode element (R79). -/
def pairS (x : BitVec 128) : Nat := x.toNat / 2 ^ 64
/-- Its compensation. -/
def pairC (x : BitVec 128) : Nat := x.toNat % 2 ^ 64
/-- A pair-mode element. -/
def mkPair (s c : Nat) : BitVec 128 := BitVec.ofNat 128 (s * 2 ^ 64 + c % 2 ^ 64)

/-- Entry of a product value into a pair (R82): the pair and its flags. -/
def pairAdd (x : BitVec 128) (p : FVal) : BitVec 128 × FSet :=
  let s := fmtD.decode (pairS x)
  if s.isNan then (x, 0)
  else match s, p with
    | .fin _ _, .fin _ _ =>
      let sum := s.real.add p.real
      let t := (fmtD.round .rne (zeroSumNeg .rne [s, p]) sum).1
      if fmtD.isFin t then
        let e := sum.sub (fmtD.decode t).real
        (mkPair t (fmtD.round .rne false ((fmtD.decode (pairC x)).real.add e)).1, 0)
      else (mkPair t 0, flagOF)
    | _, _ =>
      if p.isNan then (mkPair fmtD.nanBits 0, 0)
      else if s.isInf && p.isInf && (s.neg != p.neg) then (mkPair fmtD.nanBits 0, flagNV)
      else (mkPair (fmtD.encInf (if s.isInf then s.neg else p.neg)) 0, 0)

/-- Entry of the product of two operands (R82). -/
def pairEnter (x : BitVec 128) (a w : FVal) : BitVec 128 × FSet :=
  let p := a.mulTerm w
  let r := pairAdd x p.1
  (r.1, r.2 ||| flagIf (a.isSnan || w.isSnan || p.2) flagNV)

/-- The entries of row n of the weights in the order of R82. -/
def Prod.order (p : Prod) (n : Nat) : List (Nat × Nat) := (List.range p.blocks).flatMap (p.ents n)

/-- The activation and weight values of an entry. -/
def Prod.pv (p : Prod) (m n : Nat) (e : Nat × Nat) : FVal × FVal :=
  (pairVal (p.act (e.1 / 32)).fmt (p.a m e.1), pairVal p.wt.fmt (p.wt.el n e.2))

/-- Element (m, n) of the pair mode after a product (R81, R82): a clash of positions makes it NaN. -/
def Prod.pairEl (p : Prod) (acc : BitVec 128) (m n : Nat) : BitVec 128 × FSet :=
  let acc := if (List.range p.blocks).any (p.clash n) then mkPair fmtD.nanBits 0 else acc
  (p.order n).foldl (fun (r : BitVec 128 × FSet) e =>
    let v := p.pv m n e
    let x := pairEnter r.1 v.1 v.2
    (x.1, r.2 ||| x.2)) (acc, 0)

/-- The exact value of a finite pair. -/
def pairReal (x : BitVec 128) : Rat2 := (fmtD.decode (pairS x)).real.add (fmtD.decode (pairC x)).real

/-- Whether both halves of a pair are finite. -/
def pairFin (x : BitVec 128) : Bool := fmtD.isFin (pairS x) && fmtD.isFin (pairC x)

/-- Whether column n of the pair mode fails the arithmetic check (R88): old and new elements of the column, `t` of R89. -/
def Prod.pairMismatch (p : Prod) (n t : Nat) (olds news : List (BitVec 128)) : Bool :=
  let rows := List.range p.m
  let chk := (p.order n).foldl (fun (x : BitVec 128) e =>
    let as := rows.map (fun m => (p.pv m n e).1)
    let u := (fmtD.sumRound .rne as as false).1
    let w := (fmtD.round .rne false ((p.pv 0 n e).2.real)).1
    (pairAdd x (fmtD.decode (fmtD.fmul .rne u w).1)).1) (mkPair 0 0)
  let mass := rows.foldl (fun (s : Rat2) m => (p.order n).foldl (fun (s : Rat2) e =>
    let v := p.pv m n e
    s.add (v.1.real.mul v.2.real).abs) s) (Rat2.ofInt 0)
  let out := (olds.zip news).foldl (fun (s : Rat2) e => s.add ((pairReal e.2).sub (pairReal e.1))) (Rat2.ofInt 0)
  if !news.all pairFin || !pairFin chk then false
  else (mass.mul { num := 1, den := 2 ^ t }).lt (out.sub (pairReal chk)).abs

/-- What an accumulator element says when read out (R79, R83): a finite value, an infinity, or void. -/
inductive AccVal where
  | void
  | inf (neg : Bool)
  | val (y : Rat2)

/-- The value of an accumulator element (R83). -/
def AccEl.read (x : AccEl) : AccVal :=
  if x.tag = 0 then .val (.ofInt 0)
  else if x.tag = 1 then (if x.bits = accVoid then .void else .val { num := x.bits.toInt, den := 2 ^ 64 })
  else match fmtD.decode (pairS x.bits) with
    | .nan _ => .void
    | .inf n => .inf n
    | .fin _ _ => .val (pairReal x.bits)

/-- The value as an operand of a conversion: void counts as a NaN (R83, R231). -/
def AccVal.fval (v : AccVal) : FVal :=
  match v with
  | .void => .nan false
  | .inf n => .inf n
  | .val y => .fin (decide (y.num < 0)) y.abs

/-- One element of ACVT into a binary or integer format (R83, R231). -/
def acvtEl (fmt : Nat) (m : RMode) (v : AccVal) : Nat × FSet :=
  let bin (f : Fmt) : Nat × FSet :=
    match v with
    | .void => (f.nanBits, 0)
    | .inf n => (f.encInf n, 0)
    | .val y => f.round m false y
  match fmt with
  | 1 => valToInt 8 false m v.fval
  | 3 => bin fmtH
  | 4 => bin fmtB
  | 5 => bin fmtS
  | _ => valToInt 32 false m v.fval

end Sys2Proof.Machine
end

