-- ==== Sys2Proof/Machine/Tensor.lean ====
section
/-! DEFINITION. Tensor shape records and the tiles they describe, as the array, the copy engine and the prologue engine read
and write them (R219, R220, R359, R360), and raw writes of tile and weight slots. -/

namespace Sys2Proof.Machine

/-- A tensor shape record (R359). -/
structure TRec where
  data : Nat
  rows : Nat
  cols : Nat
  rstride : Nat
  fmt : Nat
  scaled : Bool
  sparse : Bool
  rscale : Nat
  bscale : Nat
  bstride : Nat
  meta_ : Nat
  mstride : Nat
  deriving DecidableEq, Repr

/-- The 192 bytes of a record parsed and checked; none breaks a rule of R359 (R360). -/
def parseRec (bs : List Byte) : Option TRec :=
  let w (i : Nat) : Nat := leNat ((bs.drop (8 * i)).take 8)
  let r : TRec := { data := w 0, rows := w 1 % 2 ^ 32, cols := w 1 / 2 ^ 32, rstride := w 2, fmt := w 3 % 16
                    scaled := w 3 / 16 % 2 = 1, sparse := w 3 / 32 % 2 = 1, rscale := w 4, bscale := w 5, bstride := w 6
                    meta_ := w 7, mstride := w 8 }
  let z := tileZ r.fmt
  let ok := decide (w 0 < 2 ^ 57) && decide (w 2 < 2 ^ 40) && decide (w 3 < 64) && decide (w 4 < 2 ^ 57) && decide (w 5 < 2 ^ 57)
    && decide (w 6 < 2 ^ 40) && decide (w 7 < 2 ^ 57) && decide (w 8 < 2 ^ 40) && (List.range 15).all (fun i => w (9 + i) = 0)
    && decide (1 ≤ r.rows) && decide (1 ≤ r.cols) && decide (1 ≤ r.fmt) && decide (r.fmt ≤ 6) && decide (r.rstride % z = 0)
    && decide ((if r.sparse then r.cols / 2 else r.cols) * z ≤ r.rstride)
    && (r.scaled || (r.rscale = 0 && r.bscale = 0 && r.bstride = 0)) && (r.sparse || (r.meta_ = 0 && r.mstride = 0))
    && (!r.sparse || r.cols % 64 = 0)
  if ok then some r else none

/-- What a read by the array or a copy gives: a value, a fault, or a consumed poisoned word. -/
inductive Got (α : Type) where
  | ok (a : α)
  | bad (f : FaultInfo)
  | poison

/-- A fault at an address. -/
def faultAt (e : Nat × Nat) (va : Nat) : FaultInfo := { cause := e.1, sub := e.2, addr := va }

/-- Cut a range at 32-byte boundaries: address and length. -/
def cuts32 (va n : Nat) : List (Nat × Nat) :=
  (List.range ((va % 32 + n + 31) / 32)).map (fun i =>
    let a := if i = 0 then va else va / 32 * 32 + 32 * i
    let e := va / 32 * 32 + 32 * (i + 1)
    (a, (if e < va + n then e else va + n) - a))

/-- Where one unit of `n` bytes of an array or copy access lies: in device memory any alignment, in a window its own
(R240, R295, R437). -/
def State.unitPlaces (s : State) (c : Cur) (acc : Acc) (va n : Nat) : Except (Nat × Nat) (List (PLane × Nat)) :=
  match regionOf va with
  | .mapped => (cuts32 va n).foldr (fun p r =>
      match r, s.placeAt c acc p.1 p.2 with
      | .ok l, .ok q => .ok (({ lane := 0, va := p.1, place := q }, p.2) :: l)
      | _, .error e => .error e
      | .error e, _ => .error e) (.ok [])
  | _ => match s.placeAt c acc va n with
    | .error e => .error e
    | .ok q => if va % n = 0 then .ok [({ lane := 0, va := va, place := q }, n)] else .error (4, 1)

/-- The answer of a read that is to be tried again: no fault (R352, R439). -/
def tryAgain : FaultInfo := { cause := 0 }

/-- Read one unit with the visibility of a load of the crew: bytes and poison (R219, R333). -/
def State.readUnit (s : State) (c : Cur) (va n : Nat) : State × Except FaultInfo (List Byte × Bool) :=
  match s.unitPlaces c .load va n with
  | .error e => (s, .error (faultAt e va))
  | .ok ps =>
    if ps.any (fun p => s.notYet c.core c.slot p.1.place p.2) then (s, .error tryAgain)
    else
    let r := ps.foldl (fun (acc : State × List Byte × Bool) p =>
      let x := acc.1.readPlace c.core c.slot p.1.place p.2 true
      (x.1, acc.2.1 ++ x.2.1, acc.2.2 || x.2.2)) (s, [], false)
    (r.1, .ok r.2)

/-- Read the bytes of a tensor shape record through the core's record cache of 16 entries, and check them (R288, R360). -/
def State.readRecBytes (s : State) (c : Cur) (va : Nat) : State × Got (List Byte) :=
  let key := s.crewCtx c.core c.slot * 2 ^ 57 + va
  let check (s : State) (bs : List Byte) (s' : State) : State × Got (List Byte) := match parseRec bs with
    | some _ => (s', .ok bs)
    | none => (s, .bad (faultOf 14 1))
  if 2 ^ 57 ≤ va then (s, .bad (faultAt (2, 1) va))
  else if va % 64 ≠ 0 then (s, .bad (faultAt (4, 1) va))
  else match (s.core c.core).recs.find? (fun e => e.1 = key) with
    | some e => check s e.2 s
    | none =>
      let r := (List.range 24).foldl (fun (acc : State × Got (List Byte)) i =>
        match acc.2 with
        | .ok bs =>
          let x := acc.1.readUnit c (va + 8 * i) 8
          match x.2 with
          | .error f => (x.1, .bad f)
          | .ok b => if b.2 then (x.1, .poison) else (x.1, .ok (bs ++ b.1))
        | _ => acc) (s, .ok [])
      match r.2 with
      | .bad f => (r.1, .bad f)
      | .poison => (r.1, .poison)
      | .ok bs => check r.1 bs (r.1.modCore c.core (fun k => { k with recs := ((key, bs) :: k.recs).take 16 }))

/-- Read a tensor shape record (R360). -/
def State.readRec (s : State) (c : Cur) (va : Nat) : State × Got TRec :=
  let r := s.readRecBytes c va
  match r.2 with
  | .bad f => (r.1, .bad f)
  | .poison => (r.1, .poison)
  | .ok bs => match parseRec bs with
    | some t => (r.1, .ok t)
    | none => (r.1, .bad (faultOf 14 1))

/-- Element numbers with a poison mark. -/
abbrev MarkN := Nat × Bool

/-- What a tensor tile holds, row-major: elements, row scales, block scales and metadata words. -/
structure TData where
  els : List MarkN := []
  rs : List MarkN := []
  bs : List MarkN := []
  ms : List MarkN := []

/-- Read units in turn, `none` standing for what lies beyond the extent and reads as the given number. -/
def State.readUnits (s : State) (c : Cur) (us : List (Option (Nat × Nat) × Nat)) : State × Except FaultInfo (List MarkN) :=
  us.foldl (fun (acc : State × Except FaultInfo (List MarkN)) u =>
    match acc.2, u.1 with
    | .error f, _ => (acc.1, .error f)
    | .ok l, none => (acc.1, .ok (l ++ [(u.2, false)]))
    | .ok l, some p =>
      let x := acc.1.readUnit c p.1 p.2
      match x.2 with
      | .error f => (x.1, .error f)
      | .ok b => (x.1, .ok (l ++ [(leNat b.1, b.2)]))) (s, .ok [])

/-- Block columns of a tile: two, or four of a sparse one. -/
def TRec.nb (t : TRec) : Nat := if t.sparse then 4 else 2

/-- The address of entry j of row i of a tile (R219, R359), none beyond the extent. -/
def TRec.elAt (t : TRec) (rt ct i j : Nat) : Option (Nat × Nat) :=
  let z := tileZ t.fmt
  let r := 32 * rt + i
  let k := 32 * ct + j
  let lim := if t.sparse then t.cols / 2 else t.cols
  if r < t.rows && k < lim then some (t.data + r * t.rstride + k * z, z) else none

/-- The address of row scale i. -/
def TRec.rsAt (t : TRec) (rt i : Nat) : Option (Nat × Nat) :=
  let r := 32 * rt + i
  if t.scaled && r < t.rows then some (t.rscale + 2 * r, 2) else none

/-- The address of block scale (i, b). -/
def TRec.bsAt (t : TRec) (rt ct i b : Nat) : Option (Nat × Nat) :=
  let r := 32 * rt + i
  let k := t.nb * ct + b
  if t.scaled && r < t.rows && 16 * k < t.cols then some (t.bscale + r * t.bstride + k, 1) else none

/-- The address of the metadata word of row i. -/
def TRec.msAt (t : TRec) (rt ct i : Nat) : Option (Nat × Nat) :=
  let r := 32 * rt + i
  if t.sparse && r < t.rows && 64 * ct < t.cols then some (t.meta_ + r * t.mstride + 8 * ct, 8) else none

/-- Read some rows of a tensor tile (R219, R335): beyond the extent, elements 0, row scales 1.0 and block scales 0. -/
def State.readRows (s : State) (c : Cur) (t : TRec) (coords : Nat) (rows : List Nat) : State × Except FaultInfo TData :=
  let rt := coords % 2 ^ 32
  let ct := coords / 2 ^ 32
  let grid (n : Nat) : List (Nat × Nat) := rows.flatMap (fun i => (List.range n).map (fun j => (i, j)))
  let e := s.readUnits c ((grid 32).map (fun x => (t.elAt rt ct x.1 x.2, 0)))
  let r := e.1.readUnits c (if t.scaled then rows.map (fun i => (t.rsAt rt i, 0x3F80)) else [])
  let b := r.1.readUnits c (if t.scaled then (grid t.nb).map (fun x => (t.bsAt rt ct x.1 x.2, 0)) else [])
  let m := b.1.readUnits c (if t.sparse then rows.map (fun i => (t.msAt rt ct i, 0)) else [])
  match e.2, r.2, b.2, m.2 with
  | .ok e', .ok r', .ok b', .ok m' => (m.1, .ok { els := e', rs := r', bs := b', ms := m' })
  | .error f, _, _, _ => (m.1, .error f)
  | _, .error f, _, _ => (m.1, .error f)
  | _, _, .error f, _ => (m.1, .error f)
  | _, _, _, .error f => (m.1, .error f)

/-- Read a tensor tile (R219). -/
def State.readTile (s : State) (c : Cur) (t : TRec) (coords : Nat) : State × Except FaultInfo TData :=
  s.readRows c t coords (List.range 32)

/-- Where slots are written whole: a tile of a group or a weight slot of a core. -/
inductive SlotRef where
  | tile (g t : Nat)
  | slot (core k : Nat)

/-- Raw bytes written into a slot at an offset, without the delta of R85; each with its poison. A barrier-tagged word with a waiter is
not written and keeps its tag (R244). DESIGN CHOICE (log 33): R244 names no failure for a write of the array to such a word, and the
operation goes on with its other words. -/
def State.slotRaw (s : State) (r : SlotRef) (off : Nat) (z : Nat) (xs : List MarkN) : State :=
  let bs := xs.flatMap (fun e => leBytes z e.1)
  let marks (base : Nat) : List Nat := (xs.zipIdx.filter (fun e => e.1.2)).flatMap (fun e => wordsOf (base + off + e.2 * z) z)
  match r with
  | .tile g t =>
    let q := s.group g
    let base := q.padBase + 4480 * t
    let ws := wordsOf (base + off) bs.length
    let held := ws.filter (fun w => s.tagBlocked g (8 * w - q.padBase) 8)
    s.modCore q.core (fun k => ({ k with
      pool := k.pool.writeBytes (base + off) ((sramFill k.poolPoison (base + off) bs).zipIdx.map (fun e =>
        if held.contains ((base + off + e.2) / 8) then k.pool.read (base + off + e.2) else e.1))
      poolPoison := held.foldl (fun p w => Tab.set p false w (Tab.get k.poolPoison false w)) (sramClean k.poolPoison (base + off) bs.length)
      btags := (ws.filter (fun w => !held.contains w)).foldl (fun t w => Tab.set t false w false) k.btags } : Core).markPool
        ((marks base).filter (fun w => !held.contains w)))
  | .slot core i =>
    let base := 5120 * i
    s.modCore core (fun k => ({ k with
      die := k.die.writeBytes (base + off) (sramFill k.diePoison (base + off) bs)
      diePoison := sramClean k.diePoison (base + off) bs.length } : Core).markDie (marks base))

/-- The slot as it stands. -/
def State.slotView (s : State) (r : SlotRef) : SlotV :=
  match r with
  | .tile g t =>
    let q := s.group g
    let k := s.core q.core
    { mem := k.pool, pois := k.poolPoison, base := q.padBase + 4480 * t, fmt := descFmt (q.desc t), scaled := descScaled (q.desc t), bst := 2 }
  | .slot core i =>
    let k := s.core core
    let d := k.slotDesc i
    { mem := k.die, pois := k.diePoison, base := 5120 * i, fmt := d % 16, scaled := d / 16 % 2 = 1, bst := 4 }

/-- Whether a slot descriptor says sparse (R211). -/
def State.slotSparse (s : State) (core i : Nat) : Bool := (s.core core).slotDesc i / 32 % 2 = 1

/-- Checksums of elements computed afresh (R84). -/
def freshSums (els : List Nat) : List MarkN :=
  let ix := List.range 32
  (ix.map (fun i => ((ix.map (fun j => els.getD (32 * i + j) 0)).sum % 2 ^ 32, false)))
    ++ ix.map (fun j => ((ix.map (fun i => els.getD (32 * i + j) 0)).sum % 2 ^ 32, false))

/-- Set the descriptor of a slot. -/
def State.setDesc (s : State) (r : SlotRef) (fmt : Nat) (scaled sparse : Bool) : State :=
  match r with
  | .tile g t => s.modGroup g (fun q => { q with tdesc := Tab.set q.tdesc 0 t (mkDesc fmt scaled) })
  | .slot _ _ => s.slotRaw r 4800 8 [(fmt + (if scaled then 16 else 0) + (if sparse then 32 else 0), false)]

/-- Write rows from `i` on of a slot: elements, and the scales and metadata it has (R210, R219). -/
def State.putRows (s : State) (r : SlotRef) (fmt i : Nat) (scaled sparse : Bool) (d : TData) : State :=
  let z := tileZ fmt
  let nb := if sparse then 4 else 2
  let bst := (s.slotView r).bst
  let s := s.slotRaw r (32 * i * z) z d.els
  let s := if scaled then s.slotRaw r (4352 + 2 * i) 2 d.rs else s
  let s := if !scaled then s
    else if nb = bst then s.slotRaw r (4416 + bst * i) 1 (d.bs.take (nb * d.rs.length))
    else s.each (List.range d.rs.length) (fun s k => s.slotRaw r (4416 + bst * (i + k)) 1 ((d.bs.drop (nb * k)).take nb))
  if sparse then s.slotRaw r (4544 + 8 * i) 8 d.ms else s

/-- Write a tile's elements with their sums, the scales it has, and its descriptor (R210, R219). -/
def State.putTile (s : State) (r : SlotRef) (fmt : Nat) (scaled sparse : Bool) (d : TData) : State :=
  let s := s.putRows r fmt 0 scaled sparse d
  let s := s.slotRaw r 4096 4 (freshSums (d.els.map Prod.fst))
  s.setDesc r fmt scaled sparse

/-- The writes of some rows of a tile into its tensor: address, bytes and poison (R220). -/
def rowWrites (t : TRec) (coords : Nat) (v : SlotV) (rows : List Nat) : List (Nat × List Byte × Bool) :=
  let grid (n : Nat) : List (Nat × Nat) := rows.flatMap (fun i => (List.range n).map (fun j => (i, j)))
  let rt := coords % 2 ^ 32
  let ct := coords / 2 ^ 32
  let one (p : Option (Nat × Nat)) (off n : Nat) : Option (Nat × List Byte × Bool) :=
    p.map (fun q => (q.1, leBytes q.2 (v.num off n), v.bad off n))
  (grid 32).filterMap (fun x => one (t.elAt rt ct x.1 x.2) ((32 * x.1 + x.2) * v.z) v.z)
    ++ rows.filterMap (fun i => one (t.rsAt rt i) (4352 + 2 * i) 2)
    ++ (grid 2).filterMap (fun x => one (t.bsAt rt ct x.1 x.2) (4416 + v.bst * x.1 + x.2) 1)

/-- The writes of a tile into its tensor (R220). -/
def tileWrites (t : TRec) (coords : Nat) (v : SlotV) : List (Nat × List Byte × Bool) := rowWrites t coords v (List.range 32)

/-- Reads that fire an armed injection in a slot: elements, sums, scales, and a sparse slot's metadata (R132). -/
def State.touchSlot (s : State) (r : SlotRef) : State :=
  let v := s.slotView r
  let z := v.z
  match r with
  | .tile g t =>
    let b := 4480 * t
    let s := (s.touchPad g b (1024 * z)).touchPad g (b + 4096) 256
    if v.scaled then s.touchPad g (b + 4352) 128 else s
  | .slot core i =>
    let b := 5120 * i
    let s := (s.touchDie core b (1024 * z)).touchDie core (b + 4096) 256
    let s := if v.scaled then s.touchDie core (b + 4352) 192 else s
    if s.slotSparse core i then s.touchDie core (b + 4544) 256 else s

/-- The first error among the places of some writes, and their stores. -/
def State.planWrites (s : State) (c : Cur) (ws : List (Nat × List Byte × Bool)) : Except FaultInfo (List LaneStore) :=
  let reg := ((s.cw c).fibre (lowestLane c.lanes)).restart.toNat
  ws.foldr (fun w acc =>
    match s.unitPlaces c .store w.1 w.2.1.length, acc with
    | .error e, _ => .error (faultAt e w.1)
    | _, .error f => .error f
    | .ok ps, .ok l =>
      .ok ((ps.map (fun p => ({ at_ := p.1, data := (w.2.1.drop (p.1.va - w.1)).take p.2, regaddr := reg, pois := w.2.2 } : LaneStore))) ++ l))
    (.ok [])

/-- Grains of shared-writable pages among some stores whose claim is not held (R281). -/
def State.unclaimed (s : State) (core tag : Nat) (xs : List LaneStore) : List (Nat × Nat) :=
  ((xs.filterMap (fun x => match x.at_.place with
    | .mem l a _ => if a = attrShared then some (l / 512, x.at_.va / 512 * 512) else none
    | .pad _ _ => none
    | .die _ => none
    | .peer _ _ => none)).eraseDups).filter (fun g => !s.claimHeld (clusterOf core) g.1 tag)

end Sys2Proof.Machine
end

