-- ==== Sys2Proof/Machine/Array.lean ====
section
/-! DEFINITION. Group 13: signing a convergence register, and the operations of the core's array (R30 to R32, R209 to R237).
An operation has its effects when it issues; its signers go on, and its report, flags and fault arrive, when it completes. -/

namespace Sys2Proof.Machine

/-- What issuing an operation gives: the operation in flight, or none while it cannot issue yet. -/
abbrev ArrRet := State × Option ArrOp

/-- The operation of the signers in hand. -/
def arrOp (c : Cur) (cv : Nat) (cycles : Nat) : ArrOp :=
  { slot := c.slot, cv := cv, signers := c.lanes, word := c.word, pc := c.pc, cycles := cycles }

/-- An operation that raises a fault and has no effect (R213). -/
def State.arrFault (s : State) (c : Cur) (cv : Nat) (f : FaultInfo) : ArrRet :=
  (s, some { arrOp c cv 1 with fault := some { f with cv := cv } })

/-- An array-operand fault (R213). -/
def State.aop (s : State) (c : Cur) (cv sub : Nat) : ArrRet := s.arrFault c cv (faultOf 14 sub)

/-- An operation that consumed poison before it could have an effect (R217). -/
def State.arrConsumed (s : State) (c : Cur) (cv : Nat) : ArrRet := (s, some { arrOp c cv 1 with consumed := true })

/-- The operand s(W) of an operation (R212): a poisoned one is consumed. -/
def State.withW (s : State) (c : Cur) (cv : Nat) (w : BitVec 5) (k : Nat → ArrRet) : ArrRet :=
  let e := (s.cw c).sreg w.toNat
  if e.poison then s.arrConsumed c cv else k e.val.toNat

/-- The group of the crew in hand. -/
def Cur.grp (c : Cur) (s : State) : Nat := (s.cw c).group

/-- DETAIL of a checksum fault (R373). -/
def sumDetail (slot : Bool) (tile index cols : Nat) : Nat :=
  (if slot then 1 else 0) + tile % 16 * 2 + index % 128 * 32 + cols * 2 ^ 32

/-- The storage-checksum fault of a tile or slot (R213, R373). -/
def sumFault (slot : Bool) (tile index : Nat) : FaultInfo := { cause := 6, sub := 1, detail := sumDetail slot tile index 0 }

/-- A tile of the crew's group. -/
def State.tile (s : State) (c : Cur) (t : Nat) : SlotV := s.slotView (.tile (c.grp s) t)

/-- A weight slot of the core. -/
def State.wslot (s : State) (c : Cur) (k : Nat) : SlotV := s.slotView (.slot c.core k)

/-- Whether a slot is clean (R86). A poisoned one is consumed, so its sums are not judged. -/
def SlotV.passes (v : SlotV) : Bool := v.sumBad || v.classify.cls = 0

/-- Store byte or pool byte of an accumulator (R246). -/
def Group.accBase (g : Group) (a : Nat) : Nat × Nat :=
  match g.accPlaces.getD a (.store 0) with
  | .store t => (5, 16384 * t)
  | .granule x => (3, 16384 * x)

/-- An element of an accumulator. -/
def Group.acc (g : Group) (a m n : Nat) : AccEl := Tab.get g.accs {} (1024 * a + 32 * m + n)

/-- A write of an element; a cleared element holds zeros (R79). -/
def Group.setAcc (g : Group) (a m n : Nat) (e : AccEl) : Group := { g with accs := Tab.set g.accs {} (1024 * a + 32 * m + n) e }

/-- Accumulators cleared (R230). -/
def Group.clearAccs (g : Group) (a n : Nat) : Group :=
  { g with accs := g.accs.filter (fun e => !(decide (1024 * a ≤ e.1) && decide (e.1 < 1024 * (a + n)))) }

/-- The reads of rows 0 to `rows` − 1 of an accumulator fire an armed injection on a word of them (R132, R246). -/
def State.touchAcc (s : State) (c : Cur) (a rows : Nat) : State :=
  let g := c.grp s
  let b := (s.group g).accBase a
  let bit := (s.core c.core).injBit
  let el (w : Nat) : Nat := 1024 * a + (8 * w - b.2) / 16
  let change (s : State) (w : Nat) (f : AccEl → AccEl) : State := s.modGroup g (fun r =>
    let e := Tab.get r.accs {} (el w)
    { r with accs := Tab.set r.accs {} (el w) (f e) })
  s.touch c.core b.1 b.2 (512 * rows)
    (fun s w => change s w (fun e => if e.tag = 0 then e else { e with bits := e.bits ^^^ BitVec.ofNat 128 (2 ^ (64 * (w % 2) + bit)) }))
    (fun s w => change s w (fun e => { e with poison := true }))

/-- TLD (R219): reads the record, then the tile with the visibility of a load of the owning crew. -/
def State.opTld (s : State) (c : Cur) (cv : Nat) (o : OpTt) : ArrRet :=
  s.withW c cv o.w (fun rec_ => s.withW c cv (o.w + 1) (fun coords =>
    let r := s.readRec c rec_
    match r.2 with
    | .bad f => r.1.arrFault c cv f
    | .poison => r.1.arrConsumed c cv
    | .ok t =>
      if t.sparse then r.1.aop c cv 2
      else
        let d := r.1.readTile c t coords
        match d.2 with
        | .error f => d.1.arrFault c cv f
        | .ok x => (d.1.putTile (.tile (c.grp s) o.t.toNat) t.fmt t.scaled false x, some (arrOp c cv 40))))

/-- Claims of TST (R220): asks for those not held, afresh where one was granted and closed again, and waits; a refusal is the write-grain fault of the first such grain. -/
def State.arrClaims (s : State) (c : Cur) (cv : Nat) (xs : List LaneStore) (k : State → ArrRet) : ArrRet :=
  let tag := s.crewTag c.core c.slot
  let cl := clusterOf c.core
  let need := s.unclaimed c.core tag xs
  let mine (r : ClaimReq) : Bool := r.core = c.core && r.slot = c.slot && !r.retry
  let reqs := (s.cluster cl).claims.filter (fun r => mine r && r.outcome ≠ 1)
  let drop : State := s.modCluster cl (fun q => { q with claims := q.claims.filter (fun r => !mine r) })
  let refused (g : Nat) : Bool := reqs.any (fun r => r.grain = g && r.outcome = 2)
  match need with
  | [] => k drop
  | g :: _ =>
    if need.all (fun x => refused x.1) then drop.arrFault c cv { cause := 3, addr := g.2 }
    else
      let new := need.filter (fun x => !reqs.any (fun r => r.grain = x.1))
      (s.modCluster cl (fun q => { q with claims := q.claims.filter (fun r => !(mine r && r.outcome = 1)) ++ new.map (fun x =>
        { grain := x.1, tag := tag, core := c.core, slot := c.slot, since := s.cycle }) }), none)

/-- TST (R220). -/
def State.opTst (s : State) (c : Cur) (cv : Nat) (o : OpTt) : ArrRet :=
  s.withW c cv o.w (fun rec_ => s.withW c cv (o.w + 1) (fun coords =>
    let r := s.readRec c rec_
    match r.2 with
    | .bad f => r.1.arrFault c cv f
    | .poison => r.1.arrConsumed c cv
    | .ok t =>
      let s := r.1
      let v := s.tile c o.t.toNat
      if t.sparse || v.fmt ≠ t.fmt || v.scaled != t.scaled then s.aop c cv 2
      else match s.planWrites c (tileWrites t coords v) with
        | .error f => s.arrFault c cv f
        | .ok xs =>
          s.arrClaims c cv xs (fun s =>
            let s := s.touchSlot (.tile (c.grp s) o.t.toNat)
            let v := s.tile c o.t.toNat
            if !v.passes then s.arrFault c cv (sumFault false o.t.toNat 0)
            else match s.planWrites c (tileWrites t coords v) with
              | .error f => s.arrFault c cv f
              | .ok xs =>
                let w := s.cw c
                let n := storeCounts xs
                if (s.writeBlocked xs).isSome || !(s.storeMoves c xs).isEmpty || 65535 < w.ackCl + n.1 || 4095 < w.ackSy + n.2 then (s, none)
                else (s.doStores c.core c.slot xs, some (arrOp c cv 40)))))

/-- The descriptor of a weight slot, or none where its word is poisoned. -/
def State.slotDescOf (s : State) (c : Cur) (k : Nat) : Option Nat :=
  let r := s.dieRead c.core (5120 * k + 4800) 8
  if r.2 then none else some (leNat r.1)

/-- Whether a format and its scales suit a weight or activation operand (R224, R227). -/
def fmtSuits (fmt : Nat) (scaled : Bool) : Bool :=
  decide (1 ≤ fmt) && decide (fmt ≤ 5) && (if fmt = 2 then scaled else fmt = 1 || !scaled)

/-- Whether the physical planes hold what a group's bindings name: they do from its first binding while they serve it (R209, R226). -/
def State.serves (s : State) (core g : Nat) : Bool :=
  match (s.core core).served with
  | none => true
  | some h => h = g

/-- A change of a group's bindings, and of the physical planes where the array serves the group (R209, R224). -/
def State.bind (s : State) (core g : Nat) (f : Group → Group) (h : Core → Core) : State :=
  let s := if s.serves core g then s.modCore core (fun k => { (h k) with served := some g }) else s
  s.modGroup g f

/-- The verification of a slot about to be bound (R224, R233). DESIGN CHOICE (log 33): nonzero reserved bits of the slot descriptor,
which R211 says must be 0 and for which it states no effect, are ignored here and by TCOPY. -/
def State.bindSlot (s : State) (c : Cur) (cv k : Nat) (suits : Nat → Bool) (f : State → Nat → State) : ArrRet :=
  match s.slotDescOf c k with
  | none => s.arrConsumed c cv
  | some d =>
    if !suits d then s.aop c cv 2
    else
      let s := s.touchSlot (.slot c.core k)
      let v := s.wslot c k
      if !v.passes then s.arrFault c cv (sumFault true 0 k)
      else (f s d, some { arrOp c cv 32 with consumed := v.sumBad || v.scaleBad || (d / 32 % 2 = 1 && v.bad 4544 256) })

/-- WLOAD (R224). -/
def State.opWload (s : State) (c : Cur) (cv : Nat) (o : OpTw) : ArrRet :=
  s.withW c cv o.w (fun x =>
    let k := x % 128
    if 256 ≤ x || (x / 128 % 2 = 1 && k ≠ 0) || 95 < k then s.aop c cv 1
    else if x / 128 % 2 = 1 then
      (s.bind c.core (c.grp s) (fun g => { g with shadow := .empty }) (fun k => { k with shadowCells := {} }), some (arrOp c cv 32))
    else s.bindSlot c cv k (fun d => fmtSuits (d % 16) (d / 16 % 2 = 1)) (fun s d =>
      let lat := (s.core c.core).slotImg k 4352 4800
      s.bind c.core (c.grp s) (fun g => { g with shadow := .weights k (d % 16) (d / 16 % 2 = 1) (d / 32 % 2 = 1) lat })
        (fun q => { q with shadowCells := q.slotCells k })))

/-- WSWAP (R224). -/
def State.opWswap (s : State) (c : Cur) (cv : Nat) : ArrRet :=
  (s.bind c.core (c.grp s) (fun g => { g with active := g.shadow, shadow := g.active })
    (fun k => { k with activeCells := k.shadowCells, shadowCells := k.activeCells }), some (arrOp c cv 1))

/-- The reload of the planes when the array turns to another group for a cell operation (R226): the slot that fails its
verification, how many planes a reload loaded, and whether it read poison. -/
def State.reload (s : State) (c : Cur) : State × Option Nat × Nat × Bool :=
  let g := c.grp s
  if s.serves c.core g then (s, none, 0, false)
  else
    let r := s.group g
    let ks := ([r.active, r.shadow].filterMap Plane.slot?)
    let s := s.each ks (fun s k => s.touchSlot (.slot c.core k))
    match ks.find? (fun k => !(s.wslot c k).passes) with
    | some k => (s, some k, ks.length, false)
    | none =>
      let cells (q : Core) (p : Plane) : SlotImg := match p.slot? with
        | some k => q.slotCells k
        | none => {}
      (s.modCore c.core (fun q => { q with served := some g, activeCells := cells q r.active, shadowCells := cells q r.shadow }), none, ks.length,
        ks.any (fun k => (s.wslot c k).sumBad))

/-- The active plane as a cell operation reads it: the elements in the cells, and what its binding latched (R209, R224). -/
def State.activeView (s : State) (c : Cur) (fmt : Nat) (scaled : Bool) (lat : SlotImg) : SlotV :=
  let a := (s.core c.core).activeCells
  { mem := a.mem ++ lat.mem, pois := a.pois ++ lat.pois, base := 0, fmt := fmt, scaled := scaled, bst := 4 }

/-- The elements of a column of an accumulator. -/
def Group.accCol (g : Group) (a n : Nat) : List AccEl := (List.range 32).map (fun m => g.acc a m n)

/-- Whether a column is left out of the arithmetic check (R87, R88, R217): poison after the operation, void before or after in
fixed mode, and a value that is not finite after it in pair mode. -/
def colSkipped (mode : Nat) (olds news : List AccEl) : Bool :=
  news.any AccEl.poison ||
    (if mode = 1 then (olds ++ news).any (fun e => e.tag = 1 && e.bits = accVoid)
     else news.any (fun e => e.tag = 2 && !pairFin e.bits))

/-- The entries of a product into an accumulator, and what they give (R80 to R82, R87, R88, R217, R227, R229). DESIGN CHOICE (log 33): an
element of the M rows all of whose blocks are zero blocks, so that R80 makes no entry into it, takes the mode tag too (R78). -/
def State.product (s : State) (c : Cur) (cv a : Nat) (p : Prod) (mode t cycles : Nat) (pre : Bool) : ArrRet :=
  let g := c.grp s
  let r := s.group g
  let one (m n : Nat) : AccEl × FSet :=
    let old := r.acc a m n
    let x := if mode = 1 then p.fixedEl old.bits m n else p.pairEl old.bits m n
    ({ bits := x.1, tag := BitVec.ofNat 2 mode, poison := old.poison || (List.range p.blocks).any (p.badBlock m n) }, x.2)
  let els := (List.range p.m).flatMap (fun m => (List.range 32).map (fun n => (m, n, one m n)))
  let r' := els.foldl (fun (r : Group) e => r.setAcc a e.1 e.2.1 e.2.2.1) r
  let bad := (List.range 32).filter (fun n =>
    let olds := r.accCol a n
    let news := r'.accCol a n
    !colSkipped mode olds news &&
      (if mode = 1 then p.fixedMismatch n
       else p.pairMismatch n t ((olds.take p.m).map AccEl.bits) ((news.take p.m).map AccEl.bits)))
  let s := s.modGroup g (fun _ => r')
  let op := { arrOp c cv cycles with consumed := pre || els.any (fun e => e.2.2.1.poison), flags := orFlags (els.map (fun e => e.2.2.2)) }
  if bad.isEmpty then (s, some op)
  else (s, some { op with fault := some { cause := 6, sub := 2, cv := cv
                                          detail := sumDetail false 0 0 (bad.map (2 ^ ·)).sum } })

/-- Cycles of a product row (R218). -/
def rowCycles (fmt : Nat) : Nat := if fmt ≤ 2 then 1 else if fmt ≤ 4 then 4 else 16

/-- TMMA and TMMAS (R226 to R229): `sparse` says which. DESIGN CHOICE (log 33): the table of R218 lists no pair of mixed formats; the
cycles of one are those of its activation tile's format. -/
def State.opProduct (s : State) (c : Cur) (cv : Nat) (o : OpTa) (sparse : Bool) : ArrRet :=
  s.withW c cv o.w (fun m =>
    let a := o.ad.toNat
    let t := o.t.toNat
    let r := s.group (c.grp s)
    let v := s.tile c t
    let v1 := s.tile c (t + 1)
    if m < 1 || 32 < m then s.aop c cv 1
    else match r.active with
      | .empty => s.aop c cv 4
      | .distance _ _ _ _ => s.aop c cv 4
      | .weights _ wf ws sp lat =>
        if sp != sparse then s.aop c cv 4
        else if !fmtSuits v.fmt v.scaled || (sparse && (v1.fmt ≠ v.fmt || v1.scaled != v.scaled)) then s.aop c cv 2
        else match accMode wf v.fmt with
          | none => s.aop c cv 2
          | some mode =>
            if (List.range m).any (fun i => (List.range 32).any (fun n =>
                let e := r.acc a i n
                e.tag ≠ 0 && e.tag.toNat ≠ mode)) then s.aop c cv 3
            else
              let ts := if sparse then [t, t + 1] else [t]
              let s := s.each ts (fun s i => s.touchSlot (.tile (c.grp s) i))
              match ts.find? (fun i => !(s.tile c i).passes) with
              | some i => s.arrFault c cv (sumFault false i 0)
              | none =>
                let rl := s.reload c
                match rl.2.1 with
                | some i => rl.1.arrFault c cv (sumFault true 0 i)
                | none =>
                  let s := rl.1.touchAcc c a m
                  let p : Prod := { act := fun i => s.tile c (t + i), wt := s.activeView c wf ws lat, sparse := sparse, m := m, blocks := if sparse then 4 else 2 }
                  let w := s.cw c
                  let tol := (if v.fmt = 4 then w.tbf else w.tf32).toNat
                  let pre := rl.2.2.2 || ts.any (fun i => (s.tile c i).sumBad)
                  s.product c cv a p mode tol (m * rowCycles v.fmt + 20 + 32 * rl.2.2.1) pre)

/-- ACLR (R230). -/
def State.opAclr (s : State) (c : Cur) (cv : Nat) (o : OpTl) : ArrRet :=
  s.withW c cv o.w (fun n =>
    if n < 1 || 48 < n then s.aop c cv 1
    else if (s.group (c.grp s)).accPlaces.length < o.ad.toNat + n then s.aop c cv 6
    else (s.modGroup (c.grp s) (fun g => g.clearAccs o.ad.toNat n), some (arrOp c cv (2 * n))))

/-- The read-out of one row of an accumulator into D8 (R77, R231): elements, block scales, flags. -/
def acvtRow (rho : Option Rat2) (vs : List FVal) : List Nat × List Nat × FSet :=
  let a := cpyqBlock rho (vs.take 16)
  let b := cpyqBlock rho (vs.drop 16)
  (a.2.1 ++ b.2.1, [a.1, b.1], a.2.2 ||| b.2.2)

/-- ACVT (R231). -/
def State.opAcvt (s : State) (c : Cur) (cv : Nat) (o : OpTak) : ArrRet :=
  s.withW c cv o.w (fun fmt =>
    if fmt < 1 || 6 < fmt then s.aop c cv 1
    else
      let g := c.grp s
      let a := o.ad.toNat
      let s := s.touchAcc c a 32
      let s := if fmt = 2 then s.touchPad g (4480 * o.t.toNat + 4352) 64 else s
      let r := s.group g
      let v := s.tile c o.t.toNat
      let rows := List.range 32
      let cols := List.range 32
      let mode := s.rmode c
      let rbad (m : Nat) : Bool := fmt = 2 && v.bad (4352 + 2 * m) 2
      let pois (m n : Nat) : Bool := (r.acc a m n).poison || rbad m
      let out (m : Nat) : List Nat × List Nat × FSet :=
        let vs := cols.map (fun n => (r.acc a m n).read)
        if fmt = 2 then acvtRow (rowScale (v.rs m)) (vs.map AccVal.fval)
        else
          let xs := vs.map (acvtEl fmt mode)
          (xs.map Prod.fst, [], orFlags (xs.map Prod.snd))
      let outs := rows.map (fun m => (m, out m))
      let half (m b : Nat) : Bool := cols.any (fun n => n / 16 = b && pois m n)
      let mark (m n : Nat) : Bool := if fmt = 2 then half m (n / 16) else pois m n
      let d : TData :=
        { els := outs.flatMap (fun e => e.2.1.zipIdx.map (fun x => (x.1, mark e.1 x.2)))
          rs := rows.map (fun m => (v.rs m, v.bad (4352 + 2 * m) 2))
          bs := outs.flatMap (fun e => e.2.2.1.zipIdx.map (fun x => (x.1, half e.1 x.2))) }
      let s := s.putTile (.tile g o.t.toNat) fmt (fmt = 2) false d
      let s := if o.k then s.modGroup g (fun r => r.clearAccs a 1) else s
      (s, some { arrOp c cv 40 with flags := orFlags (outs.map (fun e => e.2.2.2)), consumed := rows.any (fun m => cols.any (pois m)) }))

/-- The report of a class (R222). -/
def TileClass.report (x : TileClass) : Nat := x.cls + x.row * 2 ^ 3 + x.col * 2 ^ 8

/-- TCKV (R222). -/
def State.opTckv (s : State) (c : Cur) (cv : Nat) (o : OpTtk) : ArrRet :=
  let s := s.touchSlot (.tile (c.grp s) o.t.toNat)
  let v := s.tile c o.t.toNat
  let x := v.classify
  let op := { arrOp c cv 24 with report := some (o.w.toNat, BitVec.ofNat 64 x.report), consumed := v.sumBad }
  (s, some (if o.k && x.cls ≠ 0 && !v.sumBad then
      { op with fault := some { sumFault false o.t.toNat 0 with cv := cv } } else op))

/-- TCKFIX (R86, R222). -/
def State.opTckfix (s : State) (c : Cur) (cv : Nat) (o : OpTt) : ArrRet :=
  let t := o.t.toNat
  let ref := SlotRef.tile (c.grp s) t
  let s := s.touchSlot ref
  let v := s.tile c t
  let x := v.classify
  let fixed := (x.cls = 1 || x.cls = 2 || x.cls = 3) && !v.sumBad
  let f := v.fresh
  let s' := if !fixed then s
    else match x.cls with
      | 1 => s.slotRaw ref ((32 * x.row + x.col) * v.z) v.z [(x.fix, false)]
      | 2 => s.slotRaw ref (4096 + 4 * x.row) 4 [(f.1.getD x.row 0, false)]
      | _ => s.slotRaw ref (4224 + 4 * x.col) 4 [(f.2.getD x.col 0, false)]
  (s', some { arrOp c cv 24 with
    report := some (o.w.toNat, BitVec.ofNat 64 (x.report + if fixed then 2 ^ 13 else 0)), consumed := v.sumBad })

/-- TCKSET (R223). -/
def State.opTckset (s : State) (c : Cur) (cv : Nat) (o : OpTt) : ArrRet :=
  s.withW c cv o.w (fun x =>
    if 32 ≤ x || 7 ≤ x % 16 then s.aop c cv 1
    else
      let ref := SlotRef.tile (c.grp s) o.t.toNat
      let s := s.setDesc ref (x % 16) (x / 16 % 2 = 1) false
      let z := tileZ (x % 16)
      let s := s.touchPad (c.grp s) (4480 * o.t.toNat) (1024 * z)
      let v := s.tile c o.t.toNat
      let ix := List.range 32
      let sums := v.fresh
      let el (i j : Nat) : Bool := v.bad ((32 * i + j) * z) z
      let marks := ix.map (fun i => ix.any (fun j => el i j)) ++ ix.map (fun j => ix.any (fun i => el i j))
      (s.slotRaw ref 4096 4 ((sums.1 ++ sums.2).zip marks), some { arrOp c cv 24 with consumed := marks.any id }))

/-- What TCOPY carries from a slot as it stands: elements, sums and scales, with their poison (R217, R221). -/
def State.copySlot (s : State) (src dst : SlotRef) (sparseMeta : Bool) : State :=
  let v := s.slotView src
  let z := v.z
  let get (off n k : Nat) : List MarkN := (List.range k).map (fun i => (v.num (off + n * i) n, v.bad (off + n * i) n))
  let s := s.slotRaw dst 0 z (get 0 z 1024)
  let s := s.slotRaw dst 4096 4 (get 4096 4 64)
  let s := s.slotRaw dst 4352 2 (get 4352 2 32)
  let bst := (s.slotView dst).bst
  let row (i : Nat) : List MarkN := get (4416 + v.bst * i) 1 2
  let s := if bst = 2 then s.slotRaw dst 4416 1 ((List.range 32).flatMap row)
    else s.each (List.range 32) (fun s i => s.slotRaw dst (4416 + bst * i) 1 (row i))
  let s := if sparseMeta then s.slotRaw dst 4544 8 (List.replicate 32 (0, false)) else s
  s.setDesc dst v.fmt v.scaled false

/-- TCOPY (R221). -/
def State.opTcopy (s : State) (c : Cur) (cv : Nat) (o : OpTt) : ArrRet :=
  s.withW c cv o.w (fun x =>
    let k := x % 128
    let g := c.grp s
    let t := o.t.toNat
    let fmtOk (f : Nat) : Bool := decide (1 ≤ f) && decide (f ≤ 5)
    let done (s : State) (bad : Bool) : ArrRet := (s, some { arrOp c cv 40 with consumed := bad })
    if 512 ≤ x then s.aop c cv 1
    else match x / 128 with
      | 0 =>
        if 95 < k then s.aop c cv 1
        else if !fmtOk (s.tile c t).fmt then s.aop c cv 2
        else if s.slotBound c.core k then s.aop c cv 5
        else done ((s.touchSlot (.tile g t)).copySlot (.tile g t) (.slot c.core k) true) false
      | 1 =>
        if 95 < k then s.aop c cv 1
        else match s.slotDescOf c k with
          | none => s.arrConsumed c cv
          | some d =>
            if d / 32 % 2 = 1 || !fmtOk (d % 16) then s.aop c cv 2
            else done ((s.touchSlot (.slot c.core k)).copySlot (.slot c.core k) (.tile g t) false) false
      | 2 =>
        if 16 ≤ k || (s.group g).tiles ≤ k then s.aop c cv 1
        else done ((s.touchSlot (.tile g t)).copySlot (.tile g t) (.tile g k) false) false
      | _ => s.aop c cv 1)

/-- DLOAD (R233). -/
def State.opDload (s : State) (c : Cur) (cv : Nat) (o : OpTw) : ArrRet :=
  s.withW c cv o.w (fun x =>
    let k := x % 128
    let n := x / 512 % 64
    if 2 ^ 32 ≤ x || x / 2 ^ 15 % 2 = 1 || 95 < k || n < 1 || 32 < n then s.aop c cv 1
    else s.bindSlot c cv k (fun d => d % 64 = 1) (fun s _ =>
      s.bind c.core (c.grp s) (fun g => { g with active := .distance k (x / 128 % 2) n [x / 256 % 2, x / 65536 % 65536] })
        (fun q => { q with activeCells := q.slotCells k })))

/-- An accumulator element as an exact fixed-mode code. -/
def fixedOf (q : Int) : AccEl := { bits := BitVec.ofInt 128 (q * 2 ^ 64), tag := 1 }

/-- Whether an element is void in fixed mode. -/
def AccEl.isVoid (e : AccEl) : Bool := e.tag = 1 && e.bits = accVoid

/-- A signed INT8 element of a slot. -/
def SlotV.int8 (v : SlotV) (i j : Nat) : Int := sgn 8 (v.el i j)

/-- Whether a row of a tile's elements holds poison. -/
def SlotV.rowBad (v : SlotV) (i : Nat) : Bool := v.bad (32 * i * v.z) (32 * v.z)

/-- The distance of a query row from a code vector (R234). -/
def dist (metric : Nat) (q w : SlotV) (m n : Nat) : Int :=
  ((List.range 32).map (fun k =>
    let d := q.int8 m k - w.int8 n k
    if metric = 0 then (d.natAbs : Int) else d * d)).sum

/-- The merge of a new best into row m of an accumulator (R235): distance code and index code as held, and as found. -/
def mergeBest (tie : Nat) (d i : AccEl) (dn ix : Int) : AccEl × AccEl :=
  if d.isVoid || i.isVoid then (d, i)
  else
    let new := (fixedOf dn, fixedOf ix)
    let dq := d.bits.toInt
    let iq := i.bits.toInt
    if d.tag = 0 then new
    else if dn * 2 ^ 64 < dq then new
    else if dn * 2 ^ 64 = dq && (if tie = 0 then decide (ix * 2 ^ 64 < iq) else decide (iq < ix * 2 ^ 64)) then new
    else (d, { i with tag := 1 })

/-- DQRY (R226, R234, R235). -/
def State.opDqry (s : State) (c : Cur) (cv : Nat) (o : OpTa) : ArrRet :=
  s.withW c cv o.w (fun m =>
    let a := o.ad.toNat
    let g := c.grp s
    let r := s.group g
    let t := o.t.toNat
    if m < 1 || 32 < m then s.aop c cv 1
    else match r.active with
      | .empty => s.aop c cv 4
      | .weights _ _ _ _ _ => s.aop c cv 4
      | .distance _ metric codes rest =>
        let tie := rest.headD 0
        let base := (rest.drop 1).headD 0
        if (s.tile c t).fmt ≠ 1 || (s.tile c t).scaled then s.aop c cv 2
        else if (List.range m).any (fun i => (r.acc a i 0).tag = 2 || (r.acc a i 1).tag = 2) then s.aop c cv 3
        else
          let s := s.touchSlot (.tile g t)
          if !(s.tile c t).passes then s.arrFault c cv (sumFault false t 0)
          else
            let rl := s.reload c
            match rl.2.1 with
            | some i => rl.1.arrFault c cv (sumFault true 0 i)
            | none =>
              let s := rl.1.touchAcc c a m
              let q := s.tile c t
              let w := s.activeView c 1 false {}
              let r := s.group g
              let wbad := (List.range codes).any w.rowBad
              let row (r : Group) (i : Nat) : Group :=
                let ds := (List.range codes).map (fun n => (n, dist metric q w i n))
                let best := ds.foldl (fun (b : Nat × Int) e =>
                  if e.2 < b.2 || (e.2 = b.2 && tie ≠ 0) then e else b) (ds.headD (0, 0))
                let d := r.acc a i 0
                let x := r.acc a i 1
                let n := mergeBest tie d x best.2 ((base + best.1 : Nat) : Int)
                let p := d.poison || x.poison || wbad || q.rowBad i
                if d.isVoid || x.isVoid then r else (r.setAcc a i 0 { n.1 with poison := p }).setAcc a i 1 { n.2 with poison := p }
              let r' := (List.range m).foldl row r
              let pois := rl.2.2.2 || q.sumBad || wbad || (List.range m).any (fun i => q.rowBad i || (r.acc a i 0).poison || (r.acc a i 1).poison)
              (s.modGroup g (fun _ => r'), some { arrOp c cv (m + 24 + 32 * rl.2.2.1) with consumed := pois }))

/-- Whether some element of an accumulator is tagged for pair mode. -/
def Group.pairTagged (g : Group) (a : Nat) : Bool :=
  g.accs.any (fun e => decide (1024 * a ≤ e.1) && decide (e.1 < 1024 * (a + 1)) && e.2.tag = 2)

/-- An entry of an integer into an accumulator element (R79, R80, R236). -/
def Group.addInt (g : Group) (a m n : Nat) (q : Int) (bad : Bool) : Group × FSet :=
  let e := g.acc a m n
  let x := fixedAdd e.bits (q * 2 ^ 64)
  (g.setAcc a m n { bits := x.1, tag := 1, poison := e.poison || bad }, x.2)

/-- The code that an assignment element names, when its value is an integer (R236). DESIGN CHOICE (log 33): a poisoned index names no
code: DCENT consumes it (R217) and skips its row, and marks no sum or count, for the rule does not say which would depend on it. -/
def AccEl.code (e : AccEl) : Option Int :=
  if e.tag = 0 || e.poison then none
  else match e.read with
    | .val y => if y.num % (y.den : Int) = 0 then some (y.num / (y.den : Int)) else none
    | .void => none
    | .inf _ => none

/-- The checks that DCENT and DFIN share after subcode 1 (R236, R237). -/
def State.centChecks (s : State) (c : Cur) (cv a t : Nat) (k : ArrRet) : ArrRet :=
  let r := s.group (c.grp s)
  if r.accPlaces.length ≤ a + 1 then s.aop c cv 6
  else if (s.tile c t).fmt ≠ 1 || (s.tile c t).scaled then s.aop c cv 2
  else if r.pairTagged a || r.pairTagged (a + 1) then s.aop c cv 3
  else k

/-- DCENT (R236). -/
def State.opDcent (s : State) (c : Cur) (cv : Nat) (o : OpTa) : ArrRet :=
  s.withW c cv o.w (fun x =>
    let a := o.ad.toNat
    let g := c.grp s
    let t := o.t.toNat
    let as_ := x % 64
    let base := x / 65536 % 65536
    if 2 ^ 32 ≤ x || x / 64 % 1024 ≠ 0 || (s.group g).accPlaces.length ≤ as_ then s.aop c cv 1
    else s.centChecks c cv a t
      (let s := s.touchSlot (.tile g t)
       let q := s.tile c t
       if !q.passes then s.arrFault c cv (sumFault false t 0)
       else
         let s := ((s.touchAcc c as_ 32).touchAcc c a 32).touchAcc c (a + 1) 32
         let r := s.group g
         let row (acc : Group × FSet × Bool) (m : Nat) : Group × FSet × Bool :=
           let e := acc.1.acc as_ m 1
           let skip := (acc.1, acc.2.1, acc.2.2 || e.poison)
           match e.code with
           | none => skip
           | some i =>
             let j := i - (base : Int)
             if j < 0 || 31 < j then skip
             else
               let jn := j.toNat
               let sums := (List.range 32).foldl (fun (z : Group × FSet × Bool) k =>
                 let y := z.1.addInt a jn k (q.int8 m k) (q.bad (32 * m + k) 1)
                 (y.1, z.2.1 ||| y.2, z.2.2 || (y.1.acc a jn k).poison)) skip
               let y := sums.1.addInt (a + 1) jn 0 1 false
               (y.1, sums.2.1 ||| y.2, sums.2.2 || (y.1.acc (a + 1) jn 0).poison)
         let out := (List.range 32).foldl row (r, 0, q.sumBad)
         let rows := ((List.range 32).filter (fun m => (r.acc as_ m 1).tag ≠ 0)).length
         (s.modGroup g (fun _ => out.1), some { arrOp c cv (rows + 16) with flags := out.2.1, consumed := out.2.2 })))

/-- DFIN (R237): the new element of a row, its flags, and whether it depends on poison; none keeps the element. -/
def dfinEl (sum cnt : AccEl) : Option (Int × FSet) :=
  if sum.isVoid then none
  else
    let q := (roundInt .rne (({ num := sum.bits.toInt, den := 1 } : Rat2).div { num := cnt.bits.toInt, den := 1 })).1
    let z := clampInt 8 false q
    some (z, flagIf (z ≠ q) flagACCOV)

/-- DFIN (R237). -/
def State.opDfin (s : State) (c : Cur) (cv : Nat) (o : OpTa) : ArrRet :=
  s.withW c cv o.w (fun x =>
    let a := o.ad.toNat
    let g := c.grp s
    let t := o.t.toNat
    if 2 ≤ x then s.aop c cv 1
    else s.centChecks c cv a t
      (let s := (s.touchAcc c a 32).touchAcc c (a + 1) 32
       let r := s.group g
       let v := s.tile c t
       let cnt (j : Nat) : AccEl := r.acc (a + 1) j 0
       let counted (j : Nat) : Bool := (cnt j).tag ≠ 0 && !(cnt j).isVoid && (cnt j).bits ≠ 0
       let step (acc : State × FSet) (e : Nat × Nat) : State × FSet :=
         let sum := r.acc a e.1 e.2
         let fl := acc.2 ||| flagIf sum.isVoid flagACCOV
         if !counted e.1 then (acc.1, fl)
         else match dfinEl sum (cnt e.1) with
           | none => (acc.1, fl)
           | some y =>
             let off := 4480 * t + 32 * e.1 + e.2
             let s := if encInt 8 y.1 = v.el e.1 e.2 || acc.1.tagBlocked g off 1 then acc.1 else acc.1.padWrite g off [BitVec.ofInt 8 y.1]
             (if (sum.poison || (cnt e.1).poison) && !acc.1.tagBlocked g off 1 then s.padMark g [off] else s, fl ||| y.2)
       let out := (cells 32 32).foldl step (s, 0)
       let bad := (cells 32 32).any (fun e => e.2 < 32 && ((r.acc a e.1 e.2).poison || (cnt e.1).poison))
       let s := if x % 2 = 1 then out.1.modGroup g (fun r => r.clearAccs a 2) else out.1
       (s, some { arrOp c cv 48 with flags := out.2, consumed := bad })))

/-- The operation that an instruction of group 13 asks of the array. -/
def State.arrayOp (s : State) (c : Cur) (cv : Nat) (i : Instr) : ArrRet :=
  match i with
  | .tld o => s.opTld c cv o
  | .tst o => s.opTst c cv o
  | .wload o => s.opWload c cv o
  | .wswap _ => s.opWswap c cv
  | .tmma o => s.opProduct c cv o false
  | .tmmas o => s.opProduct c cv o true
  | .aclr o => s.opAclr c cv o
  | .acvt o => s.opAcvt c cv o
  | .tckv o => s.opTckv c cv o
  | .tckfix o => s.opTckfix c cv o
  | .tckset o => s.opTckset c cv o
  | .tcopy o => s.opTcopy c cv o
  | .dload o => s.opDload c cv o
  | .dqry o => s.opDqry c cv o
  | .dcent o => s.opDcent c cv o
  | .dfin o => s.opDfin c cv o
  | _ => (s, none)

/-- The accumulators that an operation names, for a grow or a shrink of them waits for it (R232). -/
def State.namedAccs (s : State) (c : Cur) (i : Instr) : List Nat :=
  let arg (w : BitVec 5) : Nat := ((s.cw c).sreg w.toNat).val.toNat
  match i with
  | .tmma o => [o.ad.toNat]
  | .tmmas o => [o.ad.toNat]
  | .aclr o => (List.range (arg o.w % 64)).map (· + o.ad.toNat)
  | .acvt o => [o.ad.toNat]
  | .dqry o => [o.ad.toNat]
  | .dcent o => [o.ad.toNat, o.ad.toNat + 1, arg o.w % 64]
  | .dfin o => [o.ad.toNat, o.ad.toNat + 1]
  | _ => []

/-- The guard field of an instruction of group 13: bits 10 to 8 (R92). -/
def wordGuard (w : BitVec 32) : BitVec 3 := w.extractLsb' 8 3

/-- A register file's requests that a tensor operation of the crew must follow (R269): acquiring loads, atomics without an
answer, remote and peer requests, and for a store every load. -/
def State.crewQuiet (s : State) (c : Cur) : Bool :=
  let w := s.cw c
  w.loads.isEmpty && w.atoms.all (fun a => a.answer.isSome)
    && (s.core c.core).remq.all (fun r => r.slot ≠ c.slot || r.acked)
    && s.peerOut.all (fun r => r.core ≠ c.core || r.slot ≠ c.slot)

/-- The signature masks of a register emptied (R31). -/
def State.unsign (s : State) (g cv : Nat) : State :=
  s.modGroup g (fun r => r.setCv cv { r.cv cv with signed_ := 0, word := 0, pc := 0, pfx := {} })

/-- No group's number: the planes hold what no group has bound, for another group's operation came between (R226). -/
def noGroup : Nat := 2 ^ 64

/-- A convergence register whose set has signed (R31): the operation issues, or is skipped when every guard was false. One whose read is
to be tried again (`notYet`) waits. An operation of a group other than the one served turns the array from that group, so that the next
cell operation of either reloads (R226). -/
def State.tryConv (s : State) (core g cv : Nat) : State :=
  let r := (s.group g).cv cv
  let sls := ((s.core core).slots.filter (fun e => e.2.group = g && e.1 < 32 && e.2.no = r.owner)).map Prod.fst
  match sls with
  | [] => s
  | sl :: _ =>
    let busy := (s.core core).arr.any (fun q => q.slot = sl && q.cv = cv)
    if !r.owned || r.signed_ = 0 || r.signed_ ≠ r.set || busy then s
    else
      let m := (s.crew core sl).waiting (fun x => x = .conv cv)
      let c : Cur := { (s.curAt core sl m) with pc := r.pc, word := r.word, pfx := r.pfx }
      if (s.crew core sl).active m (wordGuard r.word) = 0 then (s.unsign g cv).retire c { swap := true }
      else match decodeWord r.word with
        | .error _ => s
        | .ok i =>
          let c := { c with ins := i }
          let tensor := match i with
            | .tld _ => true
            | .tst _ => true
            | _ => false
          if tensor && (!s.crewQuiet c || (s.cw c).heldBy.isSome) then s
          else
            let o := s.arrayOp c cv i
            match o.2 with
            | none => o.1
            | some q =>
              if q.fault.any (fun f => f.cause == 0) then s
              else
                let n := o.1.newId
                n.2.modCore core (fun k => { k with
                  served := if q.fault.isNone && k.served.isSome && k.served ≠ some g then some noGroup else k.served
                  arr := k.arr ++ [{ q with id := n.1, accs := s.namedAccs c i }] })

/-- An instruction of group 13 reaches its convergence register and signs it (R31, R32, R121, R212). `us` are the registers it
names. -/
def State.sign (s : State) (c : Cur) (cv : BitVec 3) (g : BitVec 3) (us : List Use) : State :=
  s.gate c .matrix false us
    (let w := s.cw c
     let n := cv.toNat
     let r := (s.group w.group).cv n
     let bad (sub : Nat) : State := s.takeFault c { cause := 10, sub := sub, cv := n }
     if c.slot = 32 || !r.owned || r.owner ≠ w.no then bad 2
     else if r.set = 0 then bad 4
     else if w.primaries c.lanes &&& ~~~r.set ≠ 0 then bad 2
     else if r.signed_ ≠ 0 && (r.word ≠ c.word || r.pc ≠ c.pc) then bad 3
     else s.reads c (g ≠ 0) c.lanes (fun _ => [])
       (let first := r.signed_ = 0
        let r' : CvReg := { r with signed_ := r.signed_ ||| w.primaries c.lanes, word := c.word, pc := c.pc
                                   pfx := if first then c.pfx else r.pfx }
        let s := s.modGroup w.group (fun q => q.setCv n r')
        (s.hold c (.conv n)).tryConv c.core w.group n))

/-- An array operation completes (R212, R213, R217): its report is written, its flags are ORed into the owner's FFLAGS, and its
signers go on, are rewound for what it consumed, or else take its fault: an uncorrectable error ranks above a checksum (R370). -/
def State.arrDone (s : State) (core : Nat) (q : ArrOp) : State :=
  let g := (s.crew core q.slot).group
  let m := (s.crew core q.slot).waiting (fun x => x = .conv q.cv)
  let c : Cur := { (s.curAt core q.slot m) with pc := q.pc, word := q.word }
  let s := s.modCore core (fun k => { k with arr := k.arr.erase q })
  let s := s.unsign g q.cv
  let s := match q.report with
    | some r => s.modCrew core q.slot (fun w => w.setSreg r.1 { val := if q.consumed then BitVec.allOnes 64 else r.2, poison := q.consumed })
    | none => s
  let s := s.modCrew core q.slot (fun w => (w.countEv 8 q.cycles))
  let s := if q.fault.isNone || q.consumed then s.modCrew core q.slot (fun w => { w with fflags := w.fflags ||| q.flags }) else s
  if q.consumed then s.consume c
  else match q.fault with
    | some f => s.takeFault c f
    | none => s.retire c { swap := true }

/-- TLD (R219). -/
def execTld (o : OpTt) (s : State) : Host.Outcome State Fault Refusal :=
  s.run (fun c => s.sign c o.cv o.g [.s o.w.toNat, .s (o.w.toNat + 1), .tile o.t.toNat])
/-- TST (R220). -/
def execTst (o : OpTt) (s : State) : Host.Outcome State Fault Refusal :=
  s.run (fun c => s.sign c o.cv o.g [.s o.w.toNat, .s (o.w.toNat + 1), .tile o.t.toNat])
/-- WLOAD (R224). -/
def execWload (o : OpTw) (s : State) : Host.Outcome State Fault Refusal := s.run (fun c => s.sign c o.cv o.g [.s o.w.toNat])
/-- WSWAP (R224). -/
def execWswap (o : OpTc) (s : State) : Host.Outcome State Fault Refusal := s.run (fun c => s.sign c o.cv o.g [])
/-- TMMA (R227). -/
def execTmma (o : OpTa) (s : State) : Host.Outcome State Fault Refusal :=
  s.run (fun c => s.sign c o.cv o.g [.s o.w.toNat, .tile o.t.toNat, .acc o.ad.toNat])
/-- TMMAS (R228). -/
def execTmmas (o : OpTa) (s : State) : Host.Outcome State Fault Refusal :=
  s.run (fun c => s.sign c o.cv o.g [.s o.w.toNat, .tile o.t.toNat, .tile (o.t.toNat + 1), .acc o.ad.toNat])
/-- ACLR (R230). -/
def execAclr (o : OpTl) (s : State) : Host.Outcome State Fault Refusal :=
  s.run (fun c => s.sign c o.cv o.g [.s o.w.toNat, .acc o.ad.toNat])
/-- ACVT (R231). -/
def execAcvt (o : OpTak) (s : State) : Host.Outcome State Fault Refusal :=
  s.run (fun c => s.sign c o.cv o.g [.s o.w.toNat, .tile o.t.toNat, .acc o.ad.toNat])
/-- TCKV (R222). -/
def execTckv (o : OpTtk) (s : State) : Host.Outcome State Fault Refusal :=
  s.run (fun c => s.sign c o.cv o.g [.s o.w.toNat, .tile o.t.toNat])
/-- TCKFIX (R222). -/
def execTckfix (o : OpTt) (s : State) : Host.Outcome State Fault Refusal :=
  s.run (fun c => s.sign c o.cv o.g [.s o.w.toNat, .tile o.t.toNat])
/-- TCKSET (R223). -/
def execTckset (o : OpTt) (s : State) : Host.Outcome State Fault Refusal :=
  s.run (fun c => s.sign c o.cv o.g [.s o.w.toNat, .tile o.t.toNat])
/-- TCOPY (R221). -/
def execTcopy (o : OpTt) (s : State) : Host.Outcome State Fault Refusal :=
  s.run (fun c => s.sign c o.cv o.g [.s o.w.toNat, .tile o.t.toNat])
/-- DLOAD (R233). -/
def execDload (o : OpTw) (s : State) : Host.Outcome State Fault Refusal := s.run (fun c => s.sign c o.cv o.g [.s o.w.toNat])
/-- DQRY (R234). -/
def execDqry (o : OpTa) (s : State) : Host.Outcome State Fault Refusal :=
  s.run (fun c => s.sign c o.cv o.g [.s o.w.toNat, .tile o.t.toNat, .acc o.ad.toNat])
/-- DCENT (R236). -/
def execDcent (o : OpTa) (s : State) : Host.Outcome State Fault Refusal :=
  s.run (fun c => s.sign c o.cv o.g [.s o.w.toNat, .tile o.t.toNat, .acc o.ad.toNat])
/-- DFIN (R237). -/
def execDfin (o : OpTa) (s : State) : Host.Outcome State Fault Refusal :=
  s.run (fun c => s.sign c o.cv o.g [.s o.w.toNat, .tile o.t.toNat, .acc o.ad.toNat])

end Sys2Proof.Machine
end

