-- ==== Sys2Proof/Machine/Copy.lean ====
section
/-! DEFINITION. The copy engine: its reads and writes, pieces of each kind of copy, failures, completions, batches and the
filling of stage rings (R331 to R339, R258, R287, R366). -/

namespace Sys2Proof.Machine

/-- The engine acts for a copy: a crew of the copy's group stands in its slot while it does, for a crew may have ended (R338). -/
def State.enter (s : State) (core : Nat) (x : Copy) : State := s.setCrew core engineSlot { role := .copy, group := x.group }

/-- The engine is done. -/
def State.leave (s : State) (core : Nat) : State := s.modCore core (fun k => { k with slots := Tab.erase k.slots engineSlot })

/-- The engine as an issuer. -/
def copyCur (core : Nat) : Cur := { core := core, slot := engineSlot, lanes := 1, pc := 0, word := 0, ins := .hintNop }

/-- Change a copy of a core. -/
def State.modCopy (s : State) (core id : Nat) (f : Copy → Copy) : State :=
  s.modCore core (fun k => { k with copies := mapIf (fun x => x.id = id) f k.copies })

/-- A copy of a core. -/
def State.copy? (s : State) (core id : Nat) : Option Copy := (s.core core).copies.find? (fun x => x.id = id)

/-- Whether the crew that issued a copy is still in its slot. -/
def State.copyCrew (s : State) (core : Nat) (x : Copy) : Bool :=
  match s.crew? core x.slot with
  | some w => w.group = x.group && w.batches.any (fun b => b.no = x.batch)
  | none => false

/-- Cut a range at multiples of `k`: address and length. -/
def cutsBy (k va n : Nat) : List (Nat × Nat) :=
  (List.range ((va % k + n + k - 1) / k)).map (fun i =>
    let a := if i = 0 then va else va / k * k + k * i
    let e := va / k * k + k * (i + 1)
    (a, (if e < va + n then e else va + n) - a))

/-- Bytes with their poison marks. -/
abbrev MarkBytes := List (Byte × Bool)

/-- A read of the engine: any alignment, each byte with its word's poison (R333). -/
def State.copyRead (s : State) (c : Cur) (va n : Nat) : State × Except FaultInfo MarkBytes :=
  (cutsBy 8 va n).foldl (fun (acc : State × Except FaultInfo MarkBytes) u =>
    match acc.2 with
    | .error f => (acc.1, .error f)
    | .ok bs => match acc.1.placeAt c .load u.1 u.2 with
      | .error e => (acc.1, .error (faultAt e u.1))
      | .ok p =>
        if acc.1.notYet c.core c.slot p u.2 then (acc.1, .error tryAgain)
        else
        let r := acc.1.readPlace c.core c.slot p u.2 true
        (r.1, .ok (bs ++ r.2.1.map (fun b => (b, r.2.2))))) (s, .ok [])

/-- The stores of some bytes, word by word of the destination: a word that gets any poisoned byte is stored poisoned (R260, R333). -/
def State.copyPlan (s : State) (c : Cur) (va : Nat) (bs : MarkBytes) : Except FaultInfo (List LaneStore) :=
  (cutsBy 8 va bs.length).foldr (fun u acc =>
    let part := (bs.drop (u.1 - va)).take u.2
    match s.placeAt c .store u.1 u.2, acc with
    | .error e, _ => .error (faultAt e u.1)
    | _, .error f => .error f
    | .ok p, .ok l =>
      .ok ({ at_ := { lane := 0, va := u.1, place := p }, data := part.map Prod.fst, regaddr := 0, pois := part.any Prod.snd } :: l))
    (.ok [])

/-- A copy fails (R336): its remaining writes are not performed. `peer` is the peer-unavailable outcome. A read that is to be tried again is
no failure. -/
def State.failCopy (s : State) (core id : Nat) (f : FaultInfo) (peer : Bool) : State :=
  if f.cause = 0 then s else s.modCopy core id (fun x => if x.fail.isSome then x else { x with fail := some f, peerFail := peer, started := true })

/-- An uncorrectable error of a copy rolls its node back at once (R336, R381). -/
def State.copyLost (s : State) (core : Nat) (x : Copy) (f : FaultInfo) : State :=
  s.rollBack x.lid { f with cause := 1, sub := if f.sub = 0 then 1 else f.sub } { core := core, slot := x.slot, time := s.timeNs }

/-- Perform a copy's writes: counted in the copy until they are performed (R333). -/
def State.copyStores (s : State) (core : Nat) (x : Copy) (xs : List LaneStore) : State :=
  let n := storeCounts xs
  let s := s.performStores core x.slot x.lid x.ctx x.tag (some x.id) xs
  s.modCopy core x.id (fun y => { y with out := y.out + n.1 + n.2 })

/-- Whether the writes of a copy may be made now: a claim not held is asked for, again and again, and a write-blocked page
waits (R333). -/
def State.copyMay (s : State) (core : Nat) (x : Copy) (xs : List LaneStore) : State × Bool :=
  let need := s.unclaimed core x.tag xs
  let cl := clusterOf core
  match need with
  | [] => (s.modCopy core x.id (fun y => { y with since := none }), (s.writeBlocked xs).isNone)
  | g :: _ =>
    let asked (l : Nat) : Bool := (s.cluster cl).claims.any (fun r => r.grain = l && r.tag = x.tag && r.core = core && r.slot = engineSlot)
    let new := need.filter (fun y => !asked y.1)
    let s := s.modCluster cl (fun q => { q with claims := q.claims ++ new.map (fun y =>
      { grain := y.1, tag := x.tag, core := core, slot := engineSlot, since := s.cycle, retry := true }) })
    (s.modCopy core x.id (fun y => { y with since := some (y.since.getD s.cycle), claimAddr := g.2 }), false)

/-- One piece of a plain copy or of an RGET: up to 64 bytes (R333, R339). -/
def movePiece (core : Nat) (x : Copy) (src : State × Except FaultInfo MarkBytes) (dst n : Nat) : State :=
  match src.2 with
  | .error f => src.1.failCopy core x.id f false
  | .ok bs =>
    match src.1.copyPlan (copyCur core) (dst + x.done) bs with
    | .error f => src.1.failCopy core x.id f false
    | .ok xs =>
      let m := src.1.copyMay core x xs
      if m.2 then (m.1.copyStores core x xs).modCopy core x.id (fun y => { y with done := y.done + n }) else m.1

/-- Whether a remote scratchpad store that the issuing crew, which may have ended, made before a copy is still on its way, or that crew has migrated and its
old core still flushes: the copy's reads wait for it (R292, R333). -/
def State.copyWaits (s : State) (core : Nat) (x : Copy) : Bool :=
  s.copyCrew core x && (s.crew core x.slot).heldBy.isSome ||
  (s.core core).remq.any (fun r => (r.slot = x.slot || r.slot = endedSlot x.slot) && r.lid = x.lid && r.copyId.isNone && !r.acked && decide (r.id < x.id))

/-- The sectors of 512 bytes of a block. -/
def blockSectors (bs : MarkBytes) : Tab Sector :=
  (List.range 16).map (fun i =>
    let b := (bs.drop (32 * i)).take 32
    let p (w : Nat) : Nat := if ((b.drop (8 * w)).take 8).any Prod.snd then 2 ^ w else 0
    (i, { data := BitVec.ofNat 256 (leNat (b.map Prod.fst)), poison := BitVec.ofNat 4 (p 0 + p 1 + p 2 + p 3) }))

/-- The 512-byte block of a compressed unit (R258). -/
def compBlock (seq : List Byte) : MarkBytes :=
  let raw := leBytes 2 seq.length ++ seq
  (raw ++ List.replicate (512 - raw.length) 0).map (fun b => (b, false))

/-- The compressed form that the device chose for a unit, when it has one that expands to the bytes (R258, R335). -/
def compChoice (bs : List Byte) : Option MarkBytes :=
  match Config.lz4Choice bs with
  | some q =>
    if decide (1 ≤ q.length) && decide (q.length ≤ 510) && unitExpand ((compBlock q).map Prod.fst) = some bs then some (compBlock q) else none
  | none => none

/-- Append a unit of a compressed page: the blocks of its kind, and one staged update for each of its 32 sectors (R258, R335).
None while the append is held (R256). -/
def State.appendUnit (s : State) (core : Nat) (x : Copy) (lsec : Nat) (bs : MarkBytes) : Option State :=
  let k := clusterOf core
  let up (i p : Nat) : Update := { lsec := lsec + i, cluster := k, tag := x.tag, ctx := x.ctx, pos := p, srcs := [{ lid := x.lid }] }
  let join (s : State) (us : List Update) : State :=
    let old := (s.cluster k).pend.filter (fun u => u.rel = 0 && u.tag = x.tag && decide (lsec ≤ u.lsec) && decide (u.lsec < lsec + 32))
    let s := s.modCluster k (fun c => { c with pend := c.pend.filter (fun u => !old.contains u) ++ us })
    let s := s.each old (fun s u => (s.unstage u).unrefSrc (posSrc u.pos))
    s.modCore core (fun c => { c with l1 := c.l1.filter (fun e => !(decide (lsec ≤ e.lsec) && decide (e.lsec < lsec + 32) && e.usable x.tag)) })
  let six := List.range 16
  if bs.all (fun b => b.1 = 0 && !b.2) then some (join s ((List.range 32).map (fun i => up i zeroPos)))
  else
    let comp := if bs.any Prod.snd then none else compChoice (bs.map Prod.fst)
    match comp with
    | some blk => match s.appendBlock k with
      | none => none
      | some (b, s) =>
        let s := s.writeBlock b (lsec / 16) (blockSectors blk) false false 32
        some (join s ((List.range 32).map (fun i => up i (compPos b i))))
    | none => match s.appendBlock k with
      | none => none
      | some (b, s) => match s.appendBlock k with
        | none => none
        | some (d, s) =>
          let s := s.writeBlock b (lsec / 16) (blockSectors (bs.take 512)) false false 16
          let s := s.writeBlock d (lsec / 16 + 1) (blockSectors (bs.drop 512)) false false 16
          some (join s (six.map (fun i => up i (16 * b + i)) ++ six.map (fun i => up (16 + i) (16 * d + i))))

/-- One piece of a copy with COMP = 1: a unit of 1 KiB (R335). -/
def State.compPiece (s : State) (core : Nat) (x : Copy) (src dst : Nat) : State :=
  let va := dst + x.done
  let page := match regionOf va with
    | .mapped => s.coreXlate core x.ctx va
    | _ => none
  let tr := match regionOf va with
    | .mapped => true
    | _ => false
  match page with
  | none => s.failCopy core x.id (faultAt (2, if tr then 2 else 5) va) false
  | some p =>
    if p.attr ≠ attrCompressed then s.failCopy core x.id (faultAt (2, 5) va) false
    else
      let r := s.copyRead (copyCur core) (src + x.done) 1024
      match r.2 with
      | .error f => r.1.failCopy core x.id f false
      | .ok bs => match r.1.appendUnit core x (p.laddr / 32) bs with
        | none => r.1.modCopy core x.id (fun y => { y with held := some (y.held.getD r.1.timeNs) })
        | some s => s.modCopy core x.id (fun y => { y with done := y.done + 1024, held := none })

/-- Add the elements of row `i` to the running sums of a tile copy: 32 row sums, then 32 column sums (R84, R335). -/
def addSums (sums : List Nat) (i : Nat) (els : List Nat) : List Nat :=
  let s0 := if sums.isEmpty then List.replicate 64 0 else sums
  let s1 := s0.set i (els.sum % 2 ^ 32)
  (els.zipIdx).foldl (fun (l : List Nat) e => l.set (32 + e.2) ((l.getD (32 + e.2) 0 + e.1) % 2 ^ 32)) s1

/-- The slot a tile copy fills. -/
def Copy.target (x : Copy) (core : Nat) (weight : Bool) (index : Nat) : SlotRef :=
  if weight then .slot core index else .tile x.group index

/-- Whether the slot may be written now: a bound weight slot may not (R225), nor a tile slot with a waiter on a tagged word
(R244). -/
def State.slotRefusal (s : State) (r : SlotRef) : Option FaultInfo :=
  match r with
  | .slot core k => if s.slotBound core k then some (faultOf 2 7) else none
  | .tile g t => if s.tagBlocked g (4480 * t) 4480 then some (faultOf 2 8) else none

/-- A row of a tile copy has been written: on the last, its sums and its descriptor (R335). -/
def State.rowDone (s : State) (core : Nat) (x : Copy) (r : SlotRef) (els : List Nat) (fmt : Nat) (scaled sparse : Bool) (fl : FSet) : State :=
  let sums := addSums x.sums x.done els
  let s := s.modCopy core x.id (fun y => { y with done := y.done + 1, sums := sums, flags := y.flags ||| fl })
  if x.done = 31 then (s.slotRaw r 4096 4 (sums.map (fun v => (v, false)))).setDesc r fmt scaled sparse else s

/-- One row of a CPYT into a slot (R335). -/
def State.cpytIn (s : State) (core : Nat) (x : Copy) (t : TRec) (coord : Nat) (r : SlotRef) : State :=
  match s.slotRefusal r with
  | some f => s.failCopy core x.id f false
  | none =>
    let d := s.readRows (copyCur core) t coord [x.done]
    match d.2 with
    | .error f => d.1.failCopy core x.id f false
    | .ok row => (d.1.putRows r t.fmt x.done t.scaled t.sparse row).rowDone core x r (row.els.map Prod.fst) t.fmt t.scaled t.sparse 0

/-- One row of a CPYT out of a tile slot (R335). -/
def State.cpytOut (s : State) (core : Nat) (x : Copy) (t : TRec) (coord tile : Nat) : State :=
  let s := s.touchSlot (.tile x.group tile)
  let v := s.slotView (.tile x.group tile)
  match s.planWrites (copyCur core) (rowWrites t coord v [x.done]) with
  | .error f => s.failCopy core x.id f false
  | .ok xs =>
    let m := s.copyMay core x xs
    if m.2 then (m.1.copyStores core x xs).modCopy core x.id (fun y => { y with done := y.done + 1 }) else m.1

/-- The value of a source element of a quantising copy. -/
def srcVal (fmt e : Nat) : FVal := if fmt = 3 then fmtH.decode e else if fmt = 4 then fmtB.decode e else fmtS.decode e

/-- One row of a CPYQ (R77, R335): the row scale as it stands, block scales and bytes; a poisoned word marks its block. -/
def State.cpyqRow (s : State) (core : Nat) (x : Copy) (t : TRec) (coord : Nat) (r : SlotRef) : State :=
  match s.slotRefusal r with
  | some f => s.failCopy core x.id f false
  | none =>
    let d := s.readRows (copyCur core) t coord [x.done]
    match d.2 with
    | .error f => d.1.failCopy core x.id f false
    | .ok row =>
      let s := d.1
      let v := s.slotView r
      let i := x.done
      let rbad := v.bad (4352 + 2 * i) 2
      let blk (b : Nat) : List MarkN × MarkN × FSet :=
        let xs := (row.els.drop (16 * b)).take 16
        let q := cpyqBlock (rowScale (v.rs i)) (xs.map (fun e => srcVal t.fmt e.1))
        let bad := rbad || xs.any Prod.snd
        (q.2.1.map (fun e => (e, bad)), (q.1, bad), q.2.2)
      let b0 := blk 0
      let b1 := blk 1
      let els := b0.1 ++ b1.1
      let s := s.slotRaw r (32 * i) 1 els
      let s := s.slotRaw r (4416 + v.bst * i) 1 [b0.2.1, b1.2.1]
      s.rowDone core x r (els.map Prod.fst) 2 true false (b0.2.2 ||| b1.2.2)

/-- Bytes that a peer answers: free values, eight at a time (R438). -/
def State.peerBytes (s : State) (n : Nat) : State × MarkBytes :=
  (cutsBy 8 0 n).foldl (fun (acc : State × MarkBytes) u =>
    let f := acc.1.newFree
    (f.2, acc.2 ++ (leBytes u.2 (Config.peerData f.1).toNat).map (fun b => (b, false)))) (s, [])

/-- One piece of a copy in flight (R333). -/
def State.copyPiece (s : State) (core : Nat) (x : Copy) : State :=
  if s.copyWaits core x then s else
  let go : State := s.enter core x
  let piece : Nat := if x.total - x.done < 64 then x.total - x.done else 64
  let t? := parseRec x.rec_
  let out : State := match x.kind with
    | .cpy src dst _ _ comp =>
      if comp then go.compPiece core x src dst
      else movePiece core x (go.copyRead (copyCur core) (src + x.done) piece) dst piece
    | .cpyt _ coord dir index _ => match t? with
      | none => go
      | some t => if dir = 2 then go.cpytOut core x t coord index else go.cpytIn core x t coord (x.target core (dir = 1) index)
    | .cpyq _ coord dir index _ => match t? with
      | none => go
      | some t => go.cpyqRow core x t coord (x.target core (dir = 1) index)
    | .rget p src dst _ =>
      let t0 := x.down.getD go.timeNs
      if go.peerState p = 1 && decide (go.timeNs < t0 + peerLimit) then go.modCopy core x.id (fun y => { y with down := some t0 })
      else if go.peerState p ≠ 0 then go.failCopy core x.id { cause := 2, sub := 9, addr := src } true
      else match Tab.find go.peers p with
        | none => go
        | some r =>
          if !r.windows.any (fun w => decide (w.base ≤ src + x.done) && decide (src + x.done + piece ≤ w.base + w.len)) then
            go.failCopy core x.id { cause := 2, sub := 2, addr := src + x.done } false
          else
            let b := (go.modCopy core x.id (fun y => { y with down := none })).peerBytes piece
            movePiece core x (b.1, .ok b.2) dst piece
    | .ship p _ =>
      if go.peerState p = 1 then go
      else if go.peerState p = 2 then go.failCopy core x.id { cause := 2, sub := 9 } true
      else go.modCopy core x.id (fun y => { y with done := 1 })
  out.leave core

/-- Addresses of a tile's rows in its tensor: the first and the last element of each, its scales and its metadata (R338, R359). -/
def TRec.rowAddrs (t : TRec) (coord : Nat) : List Nat :=
  let rt := coord % 2 ^ 32
  let ct := coord / 2 ^ 32
  (List.range 32).flatMap (fun i =>
    ([t.elAt rt ct i 0, t.elAt rt ct i 31, t.rsAt rt i, t.bsAt rt ct i 0, t.bsAt rt ct i (t.nb - 1), t.msAt rt ct i].filterMap id).map Prod.fst)

/-- A copy starts (R333, R335): a copy with a record reads and checks it; a format that does not suit fails the copy. -/
def State.startCopy (s : State) (core : Nat) (x : Copy) : State :=
  let s := s.modCopy core x.id (fun y => { y with started := true })
  let withRec (rec_ coord : Nat) (k : State → TRec → Option FaultInfo) : State :=
    let r := (s.enter core x).readRecBytes (copyCur core) rec_
    let t := r.1.leave core
    match r.2 with
    | .bad f => if f.cause = 0 then t.modCopy core x.id (fun y => { y with started := false }) else t.failCopy core x.id f false
    | .poison => t.copyLost core x { addr := rec_ }
    | .ok bs => match parseRec bs with
      | none => t.failCopy core x.id (faultOf 14 1) false
      | some y => match k t y with
        | some f => t.failCopy core x.id f false
        | none => t.modCopy core x.id (fun z => { z with rec_ := bs, touch := y.rowAddrs coord })
  let sub2 (b : Bool) (rest : Option FaultInfo) : Option FaultInfo := if b then some (faultOf 14 2) else rest
  match x.kind with
  | .cpyt rec_ coord dir index _ => withRec rec_ coord (fun s t =>
      match dir with
      | 0 => sub2 t.sparse none
      | 1 => sub2 (t.fmt = 6) (s.slotRefusal (.slot core index))
      | _ =>
        let v := s.slotView (.tile x.group index)
        sub2 (t.sparse || v.fmt ≠ t.fmt || v.scaled != t.scaled) (if v.passes then none else some (sumFault false index 0)))
  | .cpyq rec_ coord dir index _ => withRec rec_ coord (fun s t =>
      sub2 (t.sparse || !(t.fmt = 3 || t.fmt = 4 || t.fmt = 5)) (if dir = 1 then s.slotRefusal (.slot core index) else none))
  | .cpy _ _ _ _ _ => s
  | .rget _ _ _ _ => s
  | .ship _ _ => s

/-- A stage-ring descriptor (R331). -/
structure Ring where
  base : Nat
  slotsz : Nat
  nslot : Nat
  put : Nat
  pph : Nat
  take : Nat
  tph : Nat
  free : Nat
  infl : Nat
  filled : Nat
  deriving DecidableEq, Repr

/-- A descriptor read and checked against its partition (R332); none is malformed. -/
def parseRing (w0 w1 limit : Nat) : Option Ring :=
  let r : Ring := { base := w0 % 2 ^ 21, slotsz := w0 / 2 ^ 24 % 2 ^ 16, nslot := w0 / 2 ^ 40 % 64, put := w1 % 64, pph := w1 / 64 % 2
                    take := w1 / 2 ^ 8 % 64, tph := w1 / 2 ^ 14 % 2, free := w1 / 2 ^ 16 % 64, infl := w1 / 2 ^ 24 % 64, filled := w1 / 2 ^ 32 % 64 }
  let ok := w0 / 2 ^ 21 % 8 = 0 && w0 / 2 ^ 46 = 0 && w1 / 2 ^ 7 % 2 = 0 && w1 / 2 ^ 15 % 2 = 0 && w1 / 2 ^ 22 % 4 = 0
    && w1 / 2 ^ 30 % 4 = 0 && w1 / 2 ^ 38 = 0 && decide (1 ≤ r.nslot) && decide (64 ≤ r.slotsz) && r.slotsz % 64 = 0 && r.base % 64 = 0
    && decide (r.put < r.nslot) && decide (r.take < r.nslot) && decide (r.free + r.infl + r.filled ≤ r.nslot)
    && decide (r.base + r.nslot * r.slotsz ≤ limit)
  if ok then some r else none

/-- Word 1 of a descriptor (R331). -/
def Ring.word1 (r : Ring) : Nat :=
  r.put + r.pph * 64 + r.take * 2 ^ 8 + r.tph * 2 ^ 14 + r.free * 2 ^ 16 + r.infl * 2 ^ 24 + r.filled * 2 ^ 32

/-- The next slot number, and the phase after it (R332). -/
def Ring.next (r : Ring) (i ph : Nat) : Nat × Nat := if i + 1 = r.nslot then (0, 1 - ph) else (i + 1, ph)

/-- Reserve the slot at PUT (R332). -/
def Ring.reserve (r : Ring) : Ring :=
  let n := r.next r.put r.pph
  { r with free := r.free - 1, infl := r.infl + 1, put := n.1, pph := n.2 }

/-- Take the slot at TAKE (R332). -/
def Ring.takeOne (r : Ring) : Ring :=
  let n := r.next r.take r.tph
  { r with filled := r.filled - 1, take := n.1, tph := n.2 }

/-- Slots held by readers (R331). -/
def Ring.held (r : Ring) : Nat := r.nslot - r.free - r.infl - r.filled

/-- Fill in slot order while the next slot is done (R332): the ring, and the done slots left. -/
def Ring.fill (done : List Nat) : Nat → Ring → Ring × List Nat
  | 0, r => (r, done)
  | n + 1, r =>
    let i := (r.take + r.filled) % r.nslot
    if done.contains i && decide (0 < r.infl) then Ring.fill (done.filter (· ≠ i)) n { r with filled := r.filled + 1, infl := r.infl - 1 }
    else (r, done)

/-- A ring's descriptor as it stands. -/
def State.ringAt (s : State) (g off : Nat) : Option Ring :=
  parseRing (leNat (s.padRead g off 8).1) (leNat (s.padRead g (off + 8) 8).1) (s.group g).padLimit

/-- Write a descriptor's word 1 and set both barrier tags (R332). -/
def State.setRing (s : State) (g off : Nat) (r : Ring) : State := (s.padObject g (off + 8) r.word1).setTag g off

/-- The copy into a ring slot has performed its last write: the slot is done, and FILLED advances in slot order (R332). A
descriptor that has since been made malformed is left as it is. -/
def State.ringFill (s : State) (core g off slot : Nat) : State :=
  let s := s.modCore core (fun k => { k with ringDone := (g, off, slot) :: k.ringDone })
  match s.ringAt g off with
  | none => s
  | some r =>
    let done := ((s.core core).ringDone.filter (fun e => e.1 = g && e.2.1 = off)).map (fun e => e.2.2)
    let out := Ring.fill done 64 r
    let s := s.modCore core (fun k => { k with
      ringDone := k.ringDone.filter (fun e => !(e.1 = g && e.2.1 = off)) ++ out.2.map (fun i => (g, off, i)) })
    s.setRing g off out.1

/-- The ring slot a copy fills. -/
def CopyKind.ring (k : CopyKind) : Option (Nat × Nat) :=
  match k with
  | .cpy _ _ _ r _ => r
  | .cpyq _ _ _ _ r => r
  | .cpyt _ _ _ _ r => r
  | .rget _ _ _ _ => none
  | .ship _ _ => none

/-- The snapshot slot a copy ships. -/
def CopyKind.shipSlot (k : CopyKind) : Option Nat :=
  match k with
  | .ship _ n => some n
  | _ => none

/-- A copy of a batch has ended: the batch's count and the failure of its earliest-issued failing copy (R336). -/
def Batch.ended (b : Batch) (x : Copy) : Batch :=
  let b := { b with left := b.left - 1 }
  match x.fail with
  | none => b
  | some f =>
    let first := match b.fail with
      | some e => decide (x.id < e.1)
      | none => true
    if first then { b with fail := some (x.id, f), peerFail := x.peerFail } else b

/-- A copy completes, or has failed: its ring slot, its flags, its batch, and the storage that waited for it (R332, R335, R336,
R338). -/
def State.endCopy (s : State) (core : Nat) (x : Copy) : State :=
  let gang := s.gangGroups x.group
  let alive := s.copyCrew core x
  let s := s.modCore core (fun k => { k with copies := k.copies.filter (fun y => y.id ≠ x.id) })
  let s := match x.fail, x.kind.ring with
    | none, some r => s.ringFill core x.group r.1 r.2
    | _, _ => s
  let s := match x.kind.shipSlot with
    | some n => { s with snaps := Tab.set s.snaps {} n { (Tab.get s.snaps {} n) with ship := false } }
    | none => s
  let s :=
    if alive then s.modCrew core x.slot (fun w => { w with
      fflags := if x.fail.isNone then w.fflags ||| x.flags else w.fflags
      batches := (mapIf (fun b => b.no = x.batch) (fun b => b.ended x) w.batches).filter (fun b =>
        !(b.sealed_ && b.left = 0 && (b.fail.isNone || b.delivered))) })
    else match x.fail with
      | some f => (s.nodeEvent x.lid { f with impr := true } { core := core, slot := x.slot, exit_ := true }).modNode x.lid (fun n => { n with imprecise := true })
      | none => s
  s.each gang (fun s g => if (s.groupSlots g).isEmpty && (Tab.find s.groups g).isSome && !s.groupBusy g then s.endGroup g else s)

end Sys2Proof.Machine
end

