-- ==== Sys2Proof/Machine/Queue.lean ====
section
/-! DEFINITION. Group 11, FN 5 to 12: the copies, SEAL, CWAIT, RPUT, RGET and NOTIFY (R332 to R340, R407, R408). -/

namespace Sys2Proof.Machine

/-- A queue instruction acts once for its issue when some fibre is active, and is compared in tandem mode (R48, R334); with none
active it retires as `off` says, an irreversible one as such (R42). -/
def State.queue (s : State) (c : Cur) (r : Roles) (g : BitVec 3) (us : List Use) (xs : List Src) (k : BitVec 32 → State)
    (off : Done := { swap := true }) : State :=
  s.gate c r false us
    (s.reads c (g ≠ 0) (s.act c g) (fun _ => xs)
      (let m := s.act c g
       if s.pairsDiffer c m (fun l => xs.map ((s.cw c).val l)) then s.mismatch c
       else if m = 0 then s.retire c off
       else k m))

/-- The registers of the three-register form. -/
def cpUses (o : OpCp) : List Use := [.s o.sa.toNat, .s (o.sa.toNat + 1), .s o.sb.toNat, .s o.d.toNat]

/-- Its sources. -/
def cpSrcs (o : OpCp) : List Src := [.s o.sa, .s (o.sa + 1), .s o.sb]

/-- The values of s(A), s(A + 1) and sB. -/
def State.opVals (s : State) (c : Cur) (o : OpCp) : Nat × Nat × Nat :=
  ((s.uval c (.s o.sa)).toNat, (s.uval c (.s (o.sa + 1))).toNat, (s.uval c (.s o.sb)).toNat)

/-- An array-operand fault of a queue instruction (R334). -/
def State.badControl (s : State) (c : Cur) (sub : Nat) : State := s.takeFault c (faultOf 14 sub)

/-- The number of the crew's open batch (R336). -/
def Crew.openBatch (w : Crew) : Nat := (w.lastBatch + 1).toNat

/-- An earlier batch with the number of the crew's open batch, 65,536 behind it, counts as completed without failure (R337): it keeps
no number that a CWAIT or a new copy names, only what its crew's end reports (R338). -/
def State.freshBatch (s : State) (c : Cur) : State :=
  let w := s.cw c
  let n := w.openBatch
  if w.batches.any (fun b => b.no = n && b.sealed_) then
    let s := s.modCrew c.core c.slot (fun w => { w with
      batches := mapIf (fun b : Batch => b.no = n && b.sealed_) (fun b => { b with no := n + 65536 }) w.batches })
    s.modCore c.core (fun k => { k with
      copies := mapIf (fun x : Copy => x.slot = c.slot && x.group = w.group && x.batch = n) (fun x => { x with batch := n + 65536 }) k.copies })
  else s

/-- A copy enters the core's queue and joins the crew's open batch (R333, R336). -/
def State.joinBatch (s : State) (c : Cur) (kind : CopyKind) (total : Nat) : State :=
  let w := s.cw c
  let n := w.openBatch
  let i := (if w.batches.any (fun b => b.no = n && !b.sealed_) then s else s.freshBatch c).newId
  let x : Copy := { id := i.1, slot := c.slot, group := w.group, batch := n, kind := kind, ctx := s.crewCtx c.core c.slot
                    tag := s.crewTag c.core c.slot, lid := s.crewLid c.core c.slot, total := total, pol := c.policy }
  let s := i.2.modCore c.core (fun k => { k with copies := k.copies ++ [x] })
  let join (bs : List Batch) : List Batch :=
    if bs.any (fun b => b.no = n) then mapIf (fun b => b.no = n) (fun b => { b with left := b.left + 1 }) bs
    else bs ++ [{ no := n, left := 1 }]
  s.modCrew c.core c.slot (fun w => { w with batches := join w.batches })

/-- A copy instruction's copy is queued; sD gets the batch's number (R335). -/
def State.enqueue (s : State) (c : Cur) (d : BitVec 5) (m : BitVec 32) (kind : CopyKind) (total : Nat) : State :=
  (s.joinBatch c kind total).putU c false d m (BitVec.ofNat 64 (s.cw c).openBatch) { swap := true }

/-- The copies of a core that have not started. -/
def Core.queued (k : Core) : Nat := (k.copies.filter (fun x => !x.started)).length

/-- A copy instruction: it waits while its core's copy queue is full (R334). -/
def State.copyOp (s : State) (o : OpCp) (r : Roles) (k : Cur → BitVec 32 → Nat × Nat × Nat → State) : Host.Outcome State Fault Refusal :=
  s.run (fun c => s.queue c r o.g (cpUses o) (cpSrcs o) (fun m =>
    if 64 ≤ (s.core c.core).queued then s.hold c .copyFull else k c m (s.opVals c o)))

/-- A ring descriptor by its checks (R332): alignment, partition, form; a poisoned word is consumed. -/
def State.withRing (s : State) (c : Cur) (off : Nat) (k : State → Ring → State) : State :=
  let g := (s.cw c).group
  if off % 16 ≠ 0 then s.takeFault c { cause := 4, sub := 1, addr := 0x01FFFFFF00000000 + off }
  else if (s.group g).padLimit < off + 16 then s.takeFault c { cause := 2, sub := 6, addr := 0x01FFFFFF00000000 + off }
  else
    let s := s.touchPad g off 16
    if (s.padRead g off 16).2 then s.consume c
    else match s.ringAt g off with
      | none => s.takeFault c { cause := 13, sub := 1 }
      | some r => k s r

/-- Reserve the next slot of a ring, or wait while none is free (R332). -/
def State.reserveSlot (s : State) (c : Cur) (off : Nat) (r : Ring) (k : State → Nat → State) : State :=
  let g := (s.cw c).group
  if r.free = 0 then ((s.setTag g off).setTag g (off + 8)).hold c (.ringFree off)
  else k (s.setRing g off r.reserve) r.put

/-- CPY (R335). -/
def execCpy (o : OpCp) (s : State) : Host.Outcome State Fault Refusal :=
  s.copyOp o .copy (fun c m v =>
    let src := v.1
    let dst := v.2.1
    let len := v.2.2 % 2 ^ 24
    let ring := v.2.2 / 2 ^ 24 % 2 = 1
    let comp := v.2.2 / 2 ^ 25 % 2 = 1
    if len = 0 || 2 ^ 26 ≤ v.2.2 || (comp && (ring || dst % 1024 ≠ 0 || len % 1024 ≠ 0)) then s.badControl c 1
    else if !ring then s.enqueue c o.d m (.cpy src dst len none comp) len
    else match regionOf dst with
      | .local_ off => s.withRing c off (fun s r =>
          if r.slotsz < len then s.badControl c 2
          else s.reserveSlot c off r (fun s i =>
            s.enqueue c o.d m (.cpy src (0x01FFFFFF00000000 + r.base + i * r.slotsz) len (some (off, i)) false) len))
      | _ => s.takeFault c { cause := 2, sub := 6, addr := dst })

/-- A tile copy into its slot, or into the tile slot that a ring reserves (R335). -/
def State.tileCopy (s : State) (c : Cur) (o : OpCp) (m : BitVec 32) (ring : Bool) (index rdesc : Nat) (weight : Bool)
    (kind : Nat → Option (Nat × Nat) → CopyKind) : State :=
  let g := s.group (s.cw c).group
  if ring then
    if index ≠ 0 || rdesc % 16 ≠ 0 then s.badControl c 1
    else s.withRing c rdesc (fun s r =>
      if r.base % 4480 ≠ 0 || r.slotsz ≠ 4480 || g.tiles < r.base / 4480 + r.nslot then s.badControl c 2
      else s.reserveSlot c rdesc r (fun s i => s.enqueue c o.d m (kind (r.base / 4480 + i) (some (rdesc, i))) 32))
  else if rdesc ≠ 0 || (if weight then decide (95 < index) else decide (g.tiles ≤ index)) then s.badControl c 1
  else s.enqueue c o.d m (kind index none) 32

/-- CPYQ (R77, R335). -/
def execCpyq (o : OpCp) (s : State) : Host.Outcome State Fault Refusal :=
  s.copyOp o .copy (fun c m v =>
    let b := v.2.2
    let dir := b % 2
    let ring := b / 2 ^ 8 % 2 = 1
    if 2 ^ 32 ≤ b || b / 2 ^ 9 % 4 ≠ 0 || (ring && dir ≠ 0) then s.badControl c 1
    else s.tileCopy c o m ring (b / 2 % 128) (b / 2 ^ 11) (dir = 1) (fun i r => .cpyq v.1 v.2.1 dir i r))

/-- CPYT (R335). -/
def execCpyt (o : OpCp) (s : State) : Host.Outcome State Fault Refusal :=
  s.copyOp o .copy (fun c m v =>
    let b := v.2.2
    let dir := b % 4
    let ring := b / 2 ^ 9 % 2 = 1
    if 2 ^ 32 ≤ b || b / 2 ^ 10 % 2 ≠ 0 || dir = 3 || (ring && dir ≠ 0) then s.badControl c 1
    else s.tileCopy c o m ring (b / 4 % 128) (b / 2 ^ 11) (dir = 1) (fun i r => .cpyt v.1 v.2.1 dir i r))

/-- SEAL (R336): a batch without copies completes at once. -/
def execSealBatch (o : OpSeal) (s : State) : Host.Outcome State Fault Refusal :=
  s.run (fun c => s.queue c .any o.g [.s o.d.toNat] [] (fun m =>
    let w := s.cw c
    if 64 ≤ (w.batches.filter (fun b => b.sealed_ && decide (0 < b.left))).length then s.hold c .sealLimit
    else
      let n := w.openBatch
      let s := if w.batches.any (fun b => b.no = n && !b.sealed_) then s else s.freshBatch c
      let s := s.modCrew c.core c.slot (fun w => { w with
        lastBatch := w.lastBatch + 1
        batches := (mapIf (fun b => b.no = n) (fun b => { b with sealed_ := true }) w.batches).filter (fun b =>
          !(b.no = n && b.left = 0 && b.fail.isNone)) })
      s.putU c false o.d m (BitVec.ofNat 64 n) { swap := true }))

/-- The operands of the word that the CWAIT rows share (R337). -/
def Cur.opCwait (c : Cur) : OpDA :=
  match c.ins with
  | .cwaitBatch o => o
  | _ => { a := .zero, d := 0, g := 0 }

/-- A CWAIT in one mode (R337): `lim` is the value its field must stay below. -/
def State.cwait (s : State) (c : Cur) (o : OpDA) (mode lim : Nat) (k : BitVec 32 → Nat → State) : State :=
  s.queue c .any o.g [srcUse o.a, .s o.d.toNat] [o.a] (fun m =>
    let a := (s.uval c o.a).toNat
    if a / 2 ^ 62 ≠ mode || lim ≤ a % 2 ^ 62 then s.badControl c 1 else k m (a % lim))

/-- CWAIT, mode 0: a batch (R336, R337, R373). -/
def execCwaitBatch (o : OpDA) (s : State) : Host.Outcome State Fault Refusal :=
  s.run (fun c => s.cwait c o 0 65536 (fun m n =>
    let w := s.cw c
    let done (s : State) (st : Nat) : State := s.putU c false o.d m (BitVec.ofNat 64 st) { swap := true }
    let ahead := (BitVec.ofNat 16 n - w.lastBatch).toNat
    if 1 ≤ ahead && ahead ≤ 32767 then done s 2
    else if ahead = 32768 then done s 0
    else match w.batches.find? (fun b => b.no = n && b.sealed_) with
      | none => done s 0
      | some b =>
        if 0 < b.left then s.hold c (.batch n)
        else match b.fail with
          | none => done s 0
          | some f =>
            let s := s.modCrew c.core c.slot (fun w => { w with batches := w.batches.filter (fun x => x.no ≠ n || !x.sealed_) })
            if b.peerFail then done s 3 else s.takeFault c { f.2 with lanes := 0, detail := n + 2 ^ 16 }))

/-- CWAIT, mode 1: take (R332, R337). -/
def execCwaitTake (s : State) : Host.Outcome State Fault Refusal :=
  s.run (fun c =>
    let o := c.opCwait
    s.cwait c o 1 (2 ^ 21) (fun m off => s.withRing c off (fun s r =>
      let g := (s.cw c).group
      if r.filled = 0 then ((s.setTag g off).setTag g (off + 8)).hold c (.ringTake off)
      else (s.setRing g off r.takeOne).putU c false o.d m (BitVec.ofNat 64 (r.take + 64 * r.tph)) { swap := true })))

/-- CWAIT, mode 2: free (R332, R337). -/
def execCwaitFree (s : State) : Host.Outcome State Fault Refusal :=
  s.run (fun c =>
    let o := c.opCwait
    s.cwait c o 2 (2 ^ 21) (fun m off => s.withRing c off (fun s r =>
      let g := (s.cw c).group
      if r.held = 0 then ((s.setTag g off).setTag g (off + 8)).putU c false o.d m 2 { swap := true }
      else (s.setRing g off { r with free := r.free + 1 }).putU c false o.d m 0 { swap := true })))

/-- The control word of RPUT and RGET (R339): length and peer, or none. -/
def remoteControl (b : Nat) : Option (Nat × Nat) :=
  if b % 2 ^ 24 = 0 || b / 2 ^ 24 % 256 ≠ 0 || b / 2 ^ 44 ≠ 0 then none else some (b % 2 ^ 24, b / 2 ^ 32 % 4096)

/-- The first fault of a load among the pages and windows of a range (R339). -/
def State.rangeFault (s : State) (c : Cur) (va n : Nat) : Option FaultInfo :=
  (cutsBy 65536 va n).findSome? (fun p => match s.placeAt c .load p.1 p.2 with
    | .ok _ => none
    | .error e => some (faultAt e p.1))

/-- What the reads of an RPUT wait for: the crew's remote scratchpad stores on their way, its acquiring loads and its atomics, and after a
migration the flush of its old core (R269, R292, R302, R333). -/
def State.rputWaits (s : State) (c : Cur) : Option Wait :=
  match (s.cw c).heldBy with
  | some h => some (.flush h.1 h.2.1 h.2.2)
  | none =>
    let w := s.cw c
    match ((s.core c.core).remq.filter (fun r => r.slot = c.slot && r.copyId.isNone && !r.acked)).map RemReq.id
        ++ (w.loads.filter (fun l => match l.kind with
          | .acquire _ => true
          | _ => false)).map PLoad.id
        ++ (w.atoms.filter (fun a => a.answer.isNone)).map PAtom.id with
    | [] => none
    | ids => some (.operands ids)

/-- The 8-byte words of a destination that get a poisoned byte (R260, R333). -/
def badWords (va : Nat) (bs : MarkBytes) : List Nat :=
  (List.range ((va % 8 + bs.length + 7) / 8)).filter (fun i => bs.zipIdx.any (fun e => e.1.2 && (va % 8 + e.2) / 8 = i))

/-- RPUT (R339): irreversible; the source is read at issue, and its data is one request of ACK_SY (R401). -/
def execRput (o : OpCp) (s : State) : Host.Outcome State Fault Refusal :=
  s.run (fun c => s.queue c .any o.g (cpUses o) (cpSrcs o) (fun m =>
    let v := s.opVals c o
    let done (s : State) (st : Nat) : State := s.putU c false o.d m (BitVec.ofNat 64 st) { swap := true, restart := true }
    match remoteControl v.2.2 with
    | none => s.badControl c 1
    | some r =>
      let p := r.2
      if (Tab.find s.peers p).isNone then s.takeFault c { cause := 2, sub := 6, addr := v.2.1 }
      else match s.rangeFault c v.1 r.1 with
        | some f => s.takeFault c f
        | none =>
          let since := match ((s.cw c).fibre (lowestLane c.lanes)).wait with
            | .peer _ t => t
            | _ => s.timeNs
          if s.peerState p = 2 || (s.peerState p = 1 && decide (since + peerLimit ≤ s.timeNs)) then done s 3
          else if s.peerState p = 1 then s.hold c (.peer p since)
          else if 4095 ≤ (s.cw c).ackSy then s.hold c (.counters 0 0 1)
          else match s.rputWaits c with
          | some x => s.hold c x
          | none =>
            let b := s.copyRead c v.1 r.1
            match b.2 with
            | .error f => if f.cause = 0 then s.hold c (.homes ((cutsBy 65536 v.1 r.1).filterMap (fun p => match s.placeAt c .load p.1 p.2 with
                | .ok (.mem l _ _) => some (l / 65536)
                | _ => none))) else b.1.takeFault c f
            | .ok bs =>
              let i := b.1.newId
              let q : PeerReq := { id := i.1, peer := p, core := c.core, slot := c.slot, lid := s.crewLid c.core c.slot, addr := v.2.1
                                   data := bs.map Prod.fst, vaddr := v.2.1, pois := badWords v.2.1 bs
                                   regaddr := ((s.cw c).fibre (lowestLane c.lanes)).restart.toNat }
              let t := { i.2 with peerOut := i.2.peerOut ++ [q] }
              done (t.modCrew c.core c.slot (fun w => { w with ackSy := w.ackSy + 1 })) 0) { swap := true, restart := true })

/-- RGET (R339). -/
def execRget (o : OpCp) (s : State) : Host.Outcome State Fault Refusal :=
  s.copyOp o .any (fun c m v =>
    match remoteControl v.2.2 with
    | none => s.badControl c 1
    | some r =>
      if (Tab.find s.peers r.2).isNone then s.takeFault c { cause := 2, sub := 6, addr := v.1 }
      else s.enqueue c o.d m (.rget r.2 v.1 v.2.1 r.1) r.1)

/-- NOTIFY (R340): irreversible; the record waits in the device while its queue is full. -/
def execNotify (o : OpDU) (s : State) : Host.Outcome State Fault Refusal :=
  s.run (fun c => s.queue c .any o.g [srcUse o.a, srcUse o.b, .s o.d.toNat] [o.a, o.b] (fun m =>
    let a := (s.uval c o.a).toNat
    let b := (s.uval c o.b).toNat
    let q : EQueue := Tab.get s.eqs {} (b % 64)
    let ctx := s.crewCtx c.core c.slot
    if b / 64 % 4 ≠ 0 || 2 ^ 24 ≤ b then s.badControl c 1
    else if !q.en || q.ctx ≠ ctx then s.takeFault c (faultOf 2 6)
    else if 4095 ≤ (s.cw c).ackSy then s.hold c (.counters 0 0 1)
    else
      let e : EvRecord := { queue := b % 64, kind := 2, ctx := ctx, data := a
                            info := b / 256 % 65536 + c.core * 2 ^ 16 + c.slot % 32 * 2 ^ 27, crew := some (c.core, c.slot)
                            node := some (s.crewLid c.core c.slot) }
      let s := { s with evout := s.evout ++ [e] }
      let s := s.modCrew c.core c.slot (fun w => { w with ackSy := w.ackSy + 1 })
      s.putU c false o.d m 0 { swap := true, restart := true }) { swap := true, restart := true })

end Sys2Proof.Machine
end

