-- ==== Sys2Proof/Machine/Tables.lean ====
section
/-! DEFINITION. SNAP and OWNX: snapshots of the live index, roll-back to one, shipping one, and claims of whole grains
(R356, R357, R361 to R366). -/

namespace Sys2Proof.Machine

/-- A snapshot slot. -/
def State.snap (s : State) (n : Nat) : Snap := Tab.get s.snaps {} n

/-- The mask of retained slots (R363). -/
def State.retained (s : State) : Nat := ((List.range 16).map (fun i => if (s.snap i).valid then 2 ^ i else 0)).sum

/-- The result word of a SNAP (R363). -/
def State.snapWord (s : State) (status slot batch : Nat) : Word :=
  BitVec.ofNat 64 (status + slot % 16 * 2 ^ 8 + batch % 65536 * 2 ^ 16 + s.retained * 2 ^ 32)

/-- Every home that does not move folds its committed updates (R351, R352, R363). -/
def State.foldAll (s : State) : State :=
  s.each ((s.hpend.map Update.lsec).eraseDups) (fun s l => if s.moving l then s else s.settleSector l)

/-- Sectors of written blocks that nothing names leave the live masks (R252, R362). -/
def State.sweep (s : State) : State :=
  s.each (s.masks.map Prod.fst) (fun s b => s.each (List.range 16) (fun s i => s.unref (16 * b + i)))

/-- The operands of the word that the SNAP rows share (R363). -/
def Cur.opSnap (c : Cur) : OpDU :=
  match c.ins with
  | .snapTake o => o
  | _ => { b := .zero, a := .zero, d := 0, g := 0 }

/-- Whether a control word of SNAP names an operation and holds no reserved value (R363). -/
def snapControl (a op : Nat) : Bool := a % 8 = op && a / 8 % 32 = 0 && decide (a < 4096)

/-- A SNAP of one operation (R363): system mode, a control word without reserved values, then the operation on SLOT and B, which says what
it leaves and the result word. B is read only by SHIP. -/
def State.snapOp (s : State) (c : Cur) (o : OpDU) (op : Nat) (k : (State × Word → State) → Nat → Nat → State) : State :=
  s.gate c .any false [srcUse o.a, srcUse o.b, .s o.d.toNat]
    (s.reads c (o.g ≠ 0) (s.act c o.g) (fun _ => if op = 3 && snapControl (s.uval c o.a).toNat 3 then [o.a, o.b] else [o.a])
      (let m := s.act c o.g
       let a := (s.uval c o.a).toNat
       let done (r : State × Word) : State := r.1.putU c false o.d m r.2 { swap := true, restart := true }
       if m = 0 then s.retire c { swap := true, restart := true }
       else if !(s.cw c).sys then s.takeFault c (faultOf 2 10)
       else if !snapControl a op then done (s, s.snapWord 4 (a / 256 % 16) 0)
       else k done (a / 256 % 16) (s.uval c o.b).toNat))

/-- The lowest free snapshot slot (R363). -/
def State.freeSnap (s : State) : Option Nat := (List.range 16).find? (fun i => !(s.snap i).valid)

/-- Retain the live index in a slot (R361 to R363). -/
def State.takeSnap (s : State) (i : Nat) : State :=
  let s := s.foldAll
  let n : Snap := { valid := true, gen := s.gen, time := s.timeNs, sealseq := s.seals % 2 ^ 32, root := s.root, pages := s.pages, grains := s.grains }
  { s with snaps := Tab.set s.snaps {} i n, gen := (s.gen + 1) % 2 ^ 32 }

/-- The pages of committed updates that the homes cannot fold yet: a home moves, or a consolidation finds no block (R351, R352, R363). -/
def State.unfolded (s : State) : List Nat :=
  let t := s.foldAll
  ((t.hpend.filter t.committedAll).map (fun u => u.lsec / 2048)).eraseDups

/-- SNAP TAKE (R363): the homes fold what is committed, and the lowest free slot keeps the live index; it waits while some home cannot
fold. DESIGN CHOICE (log 33): without a free slot none is acted on, and the spec does not say what SLOT holds then; it is 0. -/
def execSnapTake (o : OpDU) (s : State) : Host.Outcome State Fault Refusal :=
  s.run (fun c => s.snapOp c o 0 (fun done _ _ =>
    match s.freeSnap with
    | none => done (s, s.snapWord 1 0 0)
    | some i =>
      if !s.unfolded.isEmpty then s.hold c (.homes (s.unfolded.filter (fun l => (s.page l).moving)))
      else done (s.takeSnap i, (s.takeSnap i).snapWord 0 i 0)))

/-- SNAP DROP (R363). -/
def execSnapDrop (s : State) : Host.Outcome State Fault Refusal :=
  s.run (fun c => s.snapOp c c.opSnap 1 (fun done i _ =>
    if !(s.snap i).valid then done (s, s.snapWord 2 i 0)
    else if (s.snap i).ship then done (s, s.snapWord 3 i 0)
    else
      let s := { s with snaps := Tab.set s.snaps {} i {} }
      done (s, s.snapWord 0 i 0)))

/-- Discard every update of the device that no commit write covers, and every store on its way (R272, R364). -/
def State.discardAll (s : State) : State :=
  let s := s.each (s.cores.map Prod.fst) (fun s k =>
    let qs := (s.core k).stq
    (s.each qs (fun s q => s.accepted k q)).modCore k (fun c => { c with stq := [], l1 := [] }))
  let s := s.loseUpdates (fun _ => true)
  let s := s.modClusters (fun c => { c with gather := [], ixlb := [] })
  { s with homeClaims := [] }

/-- The live index becomes a copy of a retained one, of the next generation (R362, R364): the pending updates at the homes, all covered by
commit writes, go with the index that they belong to, and its tables are free where nothing else reaches them. -/
def State.backTo (s : State) (n : Snap) : State :=
  let s := s.each (s.hpend ++ s.hwait) (fun s u => { (s.dropUpdate u) with hwait := s.hwait.filter (fun x => x ≠ u) })
  let r := s.allocTable rootBytes
  let s := { r.2 with
    freeTabs := (s.root.addr, rootBytes) :: s.root.blocks.map (fun b : Nat × PBlock => (b.2.addr, pblockBytes))
      ++ s.pages.map (fun p : Nat × PageRec => (4096 * p.2.gtab, gtabBytes)) ++ s.freeTabs
    gen := (s.gen + 1) % 2 ^ 32 }
  ({ s with root := { n.root with addr := r.1, gen := s.gen }, pages := n.pages, grains := n.grains, gtabs := n.grains }).sweep

/-- Whether a node other than one has a resident group or a running staging tag (R364). -/
def State.otherNode (s : State) (lid : Nat) : Bool :=
  s.groups.any (fun g => g.2.node ≠ lid) || s.stagingT.any (fun t => match t.2 with
    | .running l => l ≠ lid
    | _ => false)

/-- SNAP ROLLBACK (R364). -/
def execSnapRollback (s : State) : Host.Outcome State Fault Refusal :=
  s.run (fun c => s.snapOp c c.opSnap 2 (fun done i _ =>
    if !(s.snap i).valid then done (s, s.snapWord 2 i 0)
    else if s.crewTag c.core c.slot ≠ 0 || s.otherNode (s.crewLid c.core c.slot) then done (s, s.snapWord 3 i 0)
    else
      let s := s.discardAll.backTo (s.snap i)
      done (s, s.snapWord 0 i 0)))

/-- SNAP SHIP (R363, R366): a copy of the open batch, under way until it completes; it waits while the core's copy queue is full. DESIGN
CHOICE (log 33): the spec does not say which STATUS stands where several apply; the slot comes first, then the peer, then busy. -/
def execSnapShip (s : State) : Host.Outcome State Fault Refusal :=
  s.run (fun c => s.snapOp c c.opSnap 3 (fun done i b =>
    let p := b % 4096
    if !(s.snap i).valid then done (s, s.snapWord 2 i 0)
    else if (Tab.find s.peers p).isNone then done (s, s.snapWord 5 i 0)
    else if (s.snap i).ship then done (s, s.snapWord 3 i 0)
    else if 64 ≤ (s.core c.core).queued then s.hold c .copyFull
    else
      let n := (s.cw c).openBatch
      let s := { s with snaps := Tab.set s.snaps {} i { s.snap i with ship := true } }
      let s := s.joinBatch c (.ship p i) 1
      done (s, s.snapWord 0 i n)))

/-- Cycles that OWNX, a copy's claim and a halt may wait (R333, R357, R393). -/
def waitLimit : Nat := 1048576

/-- The grains that OWNX names: address, and the logical grain of a shared-writable page (R357); or the first fault. -/
def State.ownxGrains (s : State) (c : Cur) (a n : Nat) : Except FaultInfo (List Nat) :=
  (List.range n).foldr (fun i acc =>
    let va := a / 512 * 512 + 512 * i
    match s.placeAt c .store va 512, acc with
    | .error e, _ => match regionOf va, e with
      | .mapped, (2, 5) => acc
      | _, _ => .error (faultAt e va)
    | _, .error f => .error f
    | .ok (.mem l attr _), .ok gs => .ok (if attr = attrShared then l / 512 :: gs else gs)
    | .ok _, .ok gs => .ok gs) (.ok [])

/-- OWNX (R357): claims asked for one after another, in ascending order, each until it is granted. -/
def State.ownxGo (s : State) (c : Cur) (o : OpDU) : State :=
  s.gate c .any false [srcUse o.a, srcUse o.b, .s o.d.toNat]
    (s.reads c (o.g ≠ 0) (s.act c o.g) (fun _ => [o.a, o.b])
      (let m := s.act c o.g
       let n := (s.uval c o.b).toNat
       let cl := clusterOf c.core
       let tag := s.crewTag c.core c.slot
       let mine (r : ClaimReq) : Bool := r.core = c.core && r.slot = c.slot && r.retry
       let done (st : Nat) : State :=
         (s.modCluster cl (fun q => { q with claims := q.claims.filter (fun r => !mine r) })).putU c false o.d m (BitVec.ofNat 64 st)
           { swap := true, restart := true }
       if m = 0 then s.retire c { swap := true, restart := true }
       else if n < 1 || 64 < n then done 4
       else match s.ownxGrains c (s.uval c o.a).toNat n with
         | .error f => s.takeFault c f
         | .ok gs =>
           let since := match ((s.cw c).fibre (lowestLane c.lanes)).wait with
             | .ownx t => t
             | _ => s.cycle
           match gs.filter (fun g => !s.claimHeld cl g tag) with
           | [] => done 0
           | g :: _ =>
             if since + waitLimit ≤ s.cycle then done 2
             else
               let asked := (s.cluster cl).claims.any (fun r => mine r && r.grain = g)
               let s := if asked then s
                 else s.modCluster cl (fun q => { q with claims := q.claims ++
                   [{ grain := g, tag := tag, core := c.core, slot := c.slot, since := s.cycle, retry := true }] })
               s.hold c (.ownx since)))

/-- OWNX (R357). -/
def execOwnx (o : OpDU) (s : State) : Host.Outcome State Fault Refusal := s.run (fun c => s.ownxGo c o)

end Sys2Proof.Machine
end

