-- ==== Sys2Proof/Machine/Kill.lean ====
section
/-! DEFINITION. The end of a mailbox command, the kill of a context, and when a pre-emption is complete (R272, R382 to R384, R390,
R423, R425). -/

namespace Sys2Proof.Machine

/-- A mailbox command ends: its status, then CSTATE 2 and MSI-X vector 0 (R423). -/
def State.mailDone (s : State) (status : Nat) : State := { s with cstatus := status, cstate := 2, busy := none, msix := s.msix ++ [0] }

/-- The nodes of a context that are dispatched and have not made their completion known (R325, R384). -/
def State.ctxNodes (s : State) (t : Nat) : List Nat :=
  (s.nodes.filter (fun e => e.2.ctx = t && (e.2.phase == .running || e.2.phase == .publishing))).map Prod.fst

/-- A forced reset (subcode 1) or a context kill (subcode 2): every crew of the context ends, what no commit covers is discarded, and
its dispatched nodes complete with status 5 (R384). -/
def State.killCtx (s : State) (t sub : Nat) : State :=
  let s := s.each (s.ctxNodes t) (fun s lid =>
    (s.nodeEvent lid { cause := 17, sub := sub } { time := s.timeNs }).failNode lid 5)
  { s with savedGroups := s.savedGroups.filter (fun g => g.ctx ≠ t) }

/-- The resident groups of a context. -/
def State.ctxGroups (s : State) (t : Nat) : List Nat :=
  (s.groups.filter (fun e => (s.node e.2.node).ctx = t)).map Prod.fst

/-- Whether a resident group counts as drained: each of its crews is halted for debug, or counts as halted (R382, R393). -/
def State.groupDrained (s : State) (g : Nat) : Bool := s.groupHalted g

/-- A pre-emption is complete when no group of the context is resident and running (R382). -/
def State.preemptCheck (s : State) (t : Nat) : State :=
  let x := s.ctx t
  let drained := (s.ctxGroups t).all (fun g => s.groupDrained g || (x.stage = 2 && s.groupStopped g))
  if (x.stage = 1 || x.stage = 2) && drained then
    let s := s.modCtx t (fun x => { x with stage := 3 })
    if s.busy = some (.preempt t) then s.mailDone 0 else s
  else s

/-- Every pre-emption that has become complete is marked so. -/
def State.preemptChecks (s : State) : State :=
  s.each (s.ctxs.filter (fun e => e.2.stage = 1 || e.2.stage = 2)) (fun s e => s.preemptCheck e.1)

/-- Whether a crew waits as a whole for a grow of its registers (R191). -/
def State.growing (s : State) (core sl : Nat) : Bool := (s.core core).grows.any (fun r => r.slot = sl && !r.acc)

/-- Whether a crew waits at a grow of its registers, as a whole (R191), or only at a grow, a barrier, a region edge, a convergence register,
or a ring or batch that no copy of its group serves (R136). -/
def State.crewBlocked (s : State) (core sl : Nat) : Bool :=
  let w := s.crew core sl
  let idle := (s.core core).copies.all (fun x => x.group ≠ w.group)
  s.growing core sl || (lanesOf w.liveMask).all (fun l => match (w.fibre l).wait with
    | .grow => true
    | .barw _ _ => true
    | .gbar => true
    | .syncm => true
    | .region => true
    | .conv _ => true
    | .ringFree _ => idle
    | .ringTake _ => idle
    | .batch _ => idle
    | _ => false)

/-- Since when every group of a core has been blocked while a grow is pending (R136). -/
def State.blockedNow (s : State) (core : Nat) : State :=
  let k := s.core core
  let now := !k.grows.isEmpty
    && k.slots.all (fun e => e.1 = 32 || s.crewBlocked core e.1)
  let b := if now then some (k.blocked.getD s.cycle) else none
  if b = k.blocked then s else s.modCore core (fun k => { k with blocked := b })

end Sys2Proof.Machine
end

