-- ==== Sys2Proof/Machine/LogEv.lean ====
section
/-! DEFINITION. The steps of the appenders, the dredge engines, the HBM and its channels, the scrubbers, host fetches and the outflow
(R247, R252 to R263, R344, R365). -/

namespace Sys2Proof.Machine

/-- The times since which appends are held: those of the clusters' appenders, of copies with COMP = 1, and of the record writer (R256). -/
def State.heldSince (s : State) : List Nat :=
  s.clusters.filterMap (fun c => c.2.held) ++ s.cores.flatMap (fun k => k.2.copies.filterMap Copy.held) ++ s.heldWrites.map HeldWrite.since

/-- Log pressure ends when no append is held (R256). -/
def State.relax (s : State) : State := if s.heldSince.isEmpty then { s with pressure := false } else s

/-- APPENDER_ACCEPT (R253): the oldest store of a core reaches its cluster's appender; a held append leaves it where it is. -/
def execAppenderAccept (s : State) : Host.Outcome State Fault Refusal :=
  let k := s.ev.core
  match (s.core k).stq with
  | [] => .next s
  | q :: rest =>
    let r := s.accept k q
    if r.2 then .next ((r.1.modCore k (fun c => { c with stq := rest })).accepted k q).relax else .next r.1

/-- A segment the dredge engine may take (R255). -/
def State.candidate (s : State) (stack g : Nat) : Bool :=
  let x := s.seg g
  decide (g / 32768 = stack) && x.st == .sealed_ && x.staged = 0 && decide (x.live < 3024)

/-- The candidate with the least LIVE, then the lowest SEALSEQ (R255). -/
def State.pickDredge (s : State) (stack : Nat) : Option Nat :=
  (s.segs.filter (fun e => s.candidate stack e.1)).foldl (fun (b : Option Nat) e => match b with
    | none => some e.1
    | some g =>
      let y := s.seg g
      if e.2.live < y.live || (e.2.live = y.live && decide (e.2.sealseq < y.sealseq)) then some e.1 else some g) none

/-- The held append of a cluster that is to go on first: the oldest entry that is due, else, where a full buffer needs space, the oldest
entry (R253). -/
def Cluster.heldEntry (c : Cluster) : Option GatherEntry :=
  match c.gather.find? GatherEntry.isDue with
  | some g => some g
  | none => if 256 ≤ c.gather.length then c.gather.head? else none

/-- APPEND_HOLD_RELEASE (R256): a cluster's held append goes on once a candidate exists and reclaim has made room for it. -/
def execAppendHoldRelease (s : State) : Host.Outcome State Fault Refusal :=
  let k := s.ev.cluster
  let any := (List.range 12).any (fun t => (s.pickDredge t).isSome)
  if (s.cluster k).held.isSome && (any || (s.appendBlock k).isSome) then
    match (s.appendBlock k), (s.cluster k).heldEntry with
    | none, _ => .next s
    | some _, none => .next (s.modCluster k (fun c => { c with held := none })).relax
    | some _, some g => .next (s.flushEntry k g).1.relax
  else .next s

/-- Stacks on which no segment may be opened for appending (R256). -/
def State.fullStacks (s : State) : Nat := ((List.range 12).map (fun i => if s.stackOpenable i then 0 else 2 ^ i)).sum

/-- LOG_PRESSURE_EVENT (R256, R342): once while some append has been held for 1 ms. The manual names no queue; the model writes the
record into event queue 0 (log 16). -/
def execLogPressureEvent (s : State) : Host.Outcome State Fault Refusal :=
  let late := s.heldSince.any (fun t => decide (t + 1000000 ≤ s.timeNs))
  if late && !s.pressure then
    .next { (s.tryEvent { queue := 0, kind := 4, data := s.fullStacks }).1 with pressure := true }
  else .next s

/-- A grain entry with one block position replaced: a dredge changes no sector's content (R255, R362). -/
def Grain.moved (g : Grain) (old new : Nat) : Grain :=
  let m (b : Option Nat) : Option Nat := if b = some old then some new else b
  { g with b0 := m g.b0, b1 := m g.b1, b2 := m g.b2, b3 := m g.b3 }

/-- Copy the live sectors of one block of a segment into the engine's own segment, and point every entry that still names them at the
copy (R255). The copy's summary says DREDGED, and not ATOMIC, for the engine has written it (R251). None when no block can be had. -/
def State.dredgeBlock (s : State) (stack b : Nat) : Option State :=
  let mask := Tab.get s.masks 0 b
  if mask = 0 then some s
  else
    let live := (List.range 16).filter (fun i => mask.getLsbD i)
    let s := s.each live (fun s i => s.touchHbm (16 * b + i))
    let secs : Tab Sector := live.map (fun i => (i, s.hbmSector (posAddr (16 * b + i))))
    let sum := s.summary b
    match s.stackBlock stack with
    | none => none
    | some (n, s) =>
      let s := s.writeBlock n (sum % 2 ^ 31) secs false true 0
      let fix (t : Tab Grain) : Tab Grain := Tab.mapVals {} (fun g : Grain => g.moved b n) t
      let s := { s with
        grains := fix s.grains, gtabs := fix s.gtabs
        snaps := s.snaps.map (fun e : Nat × Snap => (e.1, { e.2 with grains := fix e.2.grains }))
        masks := Tab.set s.masks 0 b 0 }
      some (s.modSeg (b / 4096) (fun x => { x with live := x.live - 1 }))

/-- DREDGE_START (R255): an idle engine of a stack selects a segment, copies its live sectors and drains it. DESIGN CHOICE (log 33): the
spec does not say what becomes of a dredge that finds no block for its copies part way; the segment is sealed again, without the blocks
moved so far. -/
def execDredgeStart (s : State) : Host.Outcome State Fault Refusal :=
  let t := s.ev.stack
  if s.dredges.any (fun d => d.stack = t) then .next s
  else match s.pickDredge t with
    | none => .next s
    | some g =>
      let s := s.modSeg g (fun x => { x with st := .dredging })
      let blocks := (s.masks.filter (fun e => e.1 / 4096 = g)).map Prod.fst
      let r := blocks.foldl (fun (a : State × Bool) b => if a.2 then (match a.1.dredgeBlock t b with
        | some s => (s, true)
        | none => (a.1, false)) else a) (s, true)
      if r.2 then .next { (r.1.modSeg g (fun x => { x with st := .draining })) with dredges := r.1.dredges ++ [{ stack := t, seg := g, drained := true }] }
      else .next (r.1.modSeg g (fun x => { x with st := .sealed_ }))

/-- Whether a source lies in a segment. -/
def SecSrc.inSeg (x : SecSrc) (g : Nat) : Bool :=
  match x with
  | .log p => posSeg p = g
  | .comp b _ => b / 4096 = g
  | .zero => false
  | .host _ => false
  | .lost => false

/-- DREDGE_DRAIN_COMPLETE (R248, R254, R255): every IXLB entry that names the segment and every L2 line of it is gone; the segment is
free, or retired after more than eight blocks have failed on-die correction. -/
def execDredgeDrainComplete (s : State) : Host.Outcome State Fault Refusal :=
  match s.dredges.find? (fun d => d.stack = s.ev.stack && d.drained) with
  | none => .next s
  | some d =>
    let s := s.modClusters (fun c => { c with ixlb := c.ixlb.filter (fun e => !e.pos.any (fun x => x.inSeg d.seg)) })
    let s := { s with
      l2 := s.l2.filter (fun e => !e.key.inSeg d.seg)
      dredges := s.dredges.filter (fun x => x ≠ d) }
    .next (s.modSeg d.seg (fun x => { x with st := if 8 < x.badBlocks.length then .retired else .free, owner := 0, live := 0, next := 1 }))

/-- HOST_FETCH (R257, R367, R421): reads of the 16 words of a line of host memory get a bus error from now on, or no longer do; 128 bytes of
a host-resident page arrive in the L2 of a tile and are counted, and an error poisons the words and is logged in the HBM log, whose
units name no host memory (log 33). A line that the tile holds is not fetched. -/
def execHostFetch (s : State) : Host.Outcome State Fault Refusal :=
  let lpn := s.ev.page
  let pg := s.page lpn
  let a := s.ev.addr / 128 * 128
  let s := { s with hostErr := (List.range 16).foldl (fun t i => Tab.set t false (a / 8 + i) s.ev.flag) s.hostErr }
  if pg.valid && pg.host && a / 65536 = pg.hbase && (s.l2Find s.ev.tile (.host a)).isNone then
    .next (s.fetchSrc s.ev.tile s.ev.ctx lpn (.host a)).1
  else .next s

/-- A word of an HBM beat or sector becomes poisoned. -/
def State.poisonHbm (s : State) (pa n : Nat) : State :=
  { s with hbmPoison := (List.range n).foldl (fun t i => Tab.set t false (pa / 8 + i) true) s.hbmPoison }

/-- Whether the HBM scrubber visits an address: a written block of an open or sealed segment (R262). -/
def State.scrubbed (s : State) (pa : Nat) : Bool :=
  let g := pa / 2097152
  let st := (s.seg g).st
  (st == .open_ || st == .sealed_) && s.written (pa / 512)

/-- An item of a crew's register state is found in error (R133, R134): 0 a vector or, from lane 32 on, a uniform register; 1 an element
and 2 the tag of a lane-matrix register; 3 a predicate word; 4 a bypass latch. -/
def Crew.regError (w : Crew) (item lane n : Nat) : Crew :=
  match item with
  | 0 => if 32 ≤ lane then w.setSreg (n % 32) { (w.sreg (n % 32)) with poison := true }
    else w.setVreg lane (n % 64) { (w.vreg lane (n % 64)) with poison := true }
  | 1 => w.setMel (n / 36) lane (n % 36) { (w.mel (n / 36) lane (n % 36)) with poison := true }
  | 2 => { w with mtag := Tab.set w.mtag {} (32 * n + lane) { (w.mtagOf n lane) with bad := true } }
  | 3 => w.modLanes (maskOf [lane]) (fun _ f => { f with predPoison := true })
  | 4 => w.modLanes (maskOf [lane]) (fun _ f => { f with lbad := f.lbad ||| BitVec.ofNat 4 (2 ^ (n % 4)) })
  | _ => w

/-- An error of a crew's register state: `item` as there; 5 is protected control state, fibre state, region stack, convergence registers,
tile descriptors or CSRs, whose uncorrectable error rolls the node back; 6 a register-cache entry, which is read again. Items 2, 3, 4 and
6 have parity, which corrects nothing (R133, R381). -/
def State.regError (s : State) (core sl item lane n : Nat) (bad : Bool) (r : ErrRec) : State :=
  let parity := item = 2 || item = 3 || item = 4 || item = 6
  if (s.crew? core sl).isNone || 6 < item || (parity && !bad) then s
  else
    let s := s.logErr r
    if !bad then s
    else if item = 5 then s.rollBack (s.crewLid core sl) (faultOf 1 5) (s.recordCtx core sl)
    else s.modCrew core sl (fun w => w.regError item lane n)

/-- Parity errors of the entry caches of a core and its cluster: the entry, or the instruction line, goes and is filled again (R247, R259, R348, R354). `what` is 0
the instruction cache, 1 the TLB, 2 the IXLB, 3 the record cache; `i` counts the entries. -/
def State.entryError (s : State) (core what i : Nat) (r : ErrRec) : State :=
  let k := s.core core
  let q := s.cluster (clusterOf core)
  let hit : Bool := match what with
    | 0 => decide (i < k.l1i.length)
    | 1 => decide (i < k.tlb.length)
    | 2 => decide (i < q.ixlb.length)
    | 3 => decide (i < k.recs.length)
    | _ => false
  if !hit then s
  else
    (match what with
      | 0 => s.modCore core (fun k => { k with l1i := k.l1i.filter (fun x => !(x.1 / 16384 = (k.l1i.getD i (0, 0)).1 / 16384 && x.1 % 4096 = (k.l1i.getD i (0, 0)).1 % 4096)) })
      | 1 => s.modCore core (fun k => { k with tlb := k.tlb.eraseIdx i })
      | 2 => s.modCluster (clusterOf core) (fun q => { q with ixlb := q.ixlb.eraseIdx i })
      | _ => s.modCore core (fun k => { k with recs := k.recs.eraseIdx i })).logErr r

/-- The stores that a lost word of a sector is reported for, one of each node: the first that wrote bytes of the word, else its first in the
sector (R319). -/
def lostStores (xs : List StoreSrc) (w : Nat) : List StoreSrc :=
  ((xs.map StoreSrc.lid).eraseDups).filterMap (fun lid =>
    let mine := xs.filter (fun x => x.lid = lid)
    match mine.find? (fun x => x.mask.extractLsb' (8 * w) 8 ≠ 0) with
    | some x => some x
    | none => mine.head?)

/-- A word of a cluster's gather buffer is uncorrectable (R259, R319): its sector is to be written poisoned, and the nodes whose stores
it holds are rolled back. `i` counts the entries, `w` is the word of the grain. -/
def State.gatherError (s : State) (k i w : Nat) (bad : Bool) (r : ErrRec) : State :=
  match (s.cluster k).gather[i]? with
  | none => s
  | some g => match Tab.find g.sectors (w / 4) with
    | none => s
    | some x =>
      let s := s.logErr r
      if !bad then s
      else
        let x' := Sector.normal { x with poison := x.poison ||| BitVec.ofNat 4 (2 ^ (w % 4)) }
        let s := s.modCluster k (fun c => { c with
          gather := mapIf (fun y => y = g) (fun y => { y with sectors := Tab.put y.sectors (w / 4) x' }) c.gather })
        s.each (lostStores (g.of (w / 4)) (w % 4)) (fun s x =>
          s.rollBack x.lid { cause := 1, sub := 2, addr := x.addr, regaddr := x.regaddr, impr := true } { time := s.timeNs })

/-- An uncorrectable word of a core's pool: what stands in it becomes poisoned (R259, R262). -/
def State.markPoolWord (s : State) (core w : Nat) : State :=
  match s.poolItem core w with
  | .bytes => s.modCore core (fun k => k.markPool [w])
  | .vreg sl l n => s.modCrew core sl (fun c => c.setVreg l n { (c.vreg l n) with poison := true })
  | .mel sl l k q => s.modCrew core sl (fun c => c.setMel k l q { (c.mel k l q) with poison := true })
  | .acc g i => s.modGroup g (fun r => { r with accs := Tab.set r.accs {} i { (Tab.get r.accs {} i) with poison := true } })

/-- SCRUB (R134, R247, R259, R262): `idx` says what the word at `addr` of a level was found to be: 0 good, 1 corrected, 2
uncorrectable. Corrected words keep their value and are rewritten, so that no flipped bit stays in them; uncorrectable ones become
poisoned, and lines of what stands elsewhere go. The levels are those of R263; at levels 6 to 8 `value`, `lane` and `addr` name the
item. DESIGN CHOICE (log 33): R264 gives levels 6 to 8 no space of addresses and R263 no UNIT to the gather buffer; PADDR there is
8 × (`addr` ÷ 8), and UNIT at level 8 is 8 × the cluster. -/
def execScrub (s : State) : Host.Outcome State Fault Refusal :=
  let e := s.ev
  let w := e.addr / 8
  let log (s : State) (unit : Nat) : State :=
    s.logErr { level := e.kind, kind := if e.idx = 1 then 1 else 2, unit := unit, paddr := 8 * w }
  let bad := e.idx = 2
  if e.idx = 0 || 2 < e.idx then .next s
  else match e.kind with
    | 0 =>
      if !s.scrubbed e.addr then .next s
      else
        .next (log (if bad then s.failSector (e.addr / 32 * 32) else { s with hbmFlips := s.hbmFlips.filter (fun f => f.word ≠ w) }) (hbmUnit e.addr))
    | 1 => .next (log (if bad then { s with l2 := s.l2.filter (fun x => !(x.tile = e.tile && x.key.number % l2Places / 4 = e.addr / 128)) } else s) e.tile)
    | 2 => .next (log (if bad then s.each ((s.core e.core).l1.filter (fun x => x.lsec % l1Places = e.addr / 32)) (fun s x => s.dropLine e.core x.lsec x.tag)
        else s.modCore e.core (fun k => { k with
          l1 := mapIf (fun x => x.lsec % l1Places = e.addr / 32) (fun x => { x with flips := x.flips.filter (fun b => b / 64 ≠ w % 4) }) k.l1 })) e.core)
    | 3 => .next (log (if bad then s.markPoolWord e.core w else s) e.core)
    | 4 => .next (log (if bad then s.modCore e.core (fun k => k.markDie [w]) else s) e.core)
    | 5 =>
      let hit := s.groups.findSome? (fun g => if g.2.core ≠ e.core then none
        else (g.2.accPlaces.findIdx? (fun p => match p with
          | .store t => t = e.addr / 16384
          | .granule _ => false)).map (fun i => (g.1, 1024 * i + e.addr % 16384 / 16)))
      match hit with
      | some h => .next (log (if bad then s.modGroup h.1 (fun r => { r with accs := Tab.set r.accs {} h.2 { (Tab.get r.accs {} h.2) with poison := true } }) else s) e.core)
      | none => .next (log s e.core)
    | 6 => .next (s.regError e.core e.slot e.value e.lane e.addr bad { level := 6, kind := if bad then 2 else 1, unit := e.core, paddr := 8 * w })
    | 7 => .next (if bad then s.entryError e.core e.value e.addr { level := 7, kind := 2, unit := e.core, paddr := 8 * w } else s)
    | 8 => .next (s.gatherError e.cluster (e.addr / 512) (e.addr % 512 / 8) bad
        { level := 8, kind := if bad then 2 else 1, unit := 8 * e.cluster, paddr := 8 * w })
    | _ => .next s

/-- Spare lanes of a channel (R259). -/
def spareLanes : Nat := 4

/-- A lane's traffic moves to a free spare lane of its channel, or the channel is degraded; either is logged (R261). -/
def State.spareLane (s : State) (unit lane paddr : Nat) : State :=
  let used := Tab.get s.lanesUsed 0 unit
  if used < spareLanes then
    { s with lanesUsed := Tab.set s.lanesUsed 0 unit (used + 1) }.logErr { level := 0, kind := 5, unit := unit, lane := lane, paddr := paddr }
  else { s with degraded := true }.logErr { level := 0, kind := 8, unit := unit, paddr := paddr }

/-- HBM_BEAT_RETRY (R259, R261): a beat at `addr` fails for the `idx`-th time on a lane of its channel. The lane's count rises; at its
third retry its traffic moves to a spare, or the channel is degraded; a beat that has failed its three retries is poisoned. With `flag`
the CRC of the base-die interface has failed, which names no lane. -/
def execHbmBeatRetry (s : State) : Host.Outcome State Fault Refusal :=
  let e := s.ev
  let unit := hbmUnit e.addr
  let key := unit * 128 + e.lane % 128
  if 3 < e.idx then
    .next ((s.poisonHbm (e.addr / 64 * 64) 8).logErr { level := 0, kind := 2, unit := unit, paddr := e.addr / 64 * 64 })
  else if e.idx = 0 then .next s
  else if e.flag then .next (s.logErr { level := 0, kind := 4, unit := unit, retry := e.idx, paddr := e.addr / 64 * 64 })
  else
    let n := Tab.get s.laneRetries 0 key + 1
    let s := { s with laneRetries := Tab.set s.laneRetries 0 key n }
    let s := s.logErr { level := 0, kind := 4, unit := unit, lane := e.lane % 128, retry := e.idx, paddr := e.addr / 64 * 64 }
    .next (if n ≠ 3 then s else s.spareLane unit (e.lane % 128) (e.addr / 64 * 64))

/-- RECALIBRATION (R261): the retry counts of a stack's lanes begin again. -/
def execRecalibration (s : State) : Host.Outcome State Fault Refusal :=
  .next { s with laneRetries := s.laneRetries.filter (fun e => e.1 / 128 / 16 ≠ s.ev.stack) }

/-- Nanoseconds between refreshes of a channel (R344). -/
def refreshEvery : Nat := 3900

/-- HBM_REFRESH (R344): a channel refreshes once 3.9 µs have passed since its last refresh. -/
def execHbmRefresh (s : State) : Host.Outcome State Fault Refusal :=
  let c := s.ev.stack * 16 + s.ev.idx % 16
  let last := Tab.get s.chanRefresh 0 c
  if last + refreshEvery ≤ s.timeNs then .next { s with chanRefresh := Tab.set s.chanRefresh 0 c s.timeNs } else .next s

/-- The window over which the floors of a channel are measured, and the longest burst, in ns (R344). -/
def floorWindow : Nat := 10000
/-- The longest burst. -/
def burstNs : Nat := 256

/-- Log segments of a stack are short of a share: F < N ÷ k (R256). -/
def State.shortOf (s : State) (stack k : Nat) : Bool := decide (k * s.freeSegs stack < s.logSegs)

/-- The floor of a class of traffic on a stack's channels, in ns of every window (R256, R344). -/
def State.chanFloor (s : State) (stack k : Nat) : Nat :=
  match k with
  | 2 => floorWindow * 25 / 100
  | 3 => floorWindow * 10 / 100
  | 4 => floorWindow * 5 / 100
  | 5 => if (List.range 12).all (fun t => s.shortOf t 64) then floorWindow * 50 / 100
    else if s.shortOf stack 16 then floorWindow * 5 / 100 else 0
  | 6 => floorWindow * 1 / 100
  | _ => 0

/-- A channel at a grant: what each class is still owed of its floor. As a window begins, a class has its floor, and what it was short
of while it waited (R344). -/
def State.chanNow (s : State) (stack c : Nat) : Chan :=
  let x := Tab.get s.chans {} c
  let win := s.timeNs / floorWindow + 1
  if x.window = win then x
  else
    { x with window := win, owed := (List.range 7).map (fun k =>
        (k, s.chanFloor stack k + (if x.waits.getLsbD k then Tab.get x.owed 0 k else 0))) }

/-- The class that a channel serves next of those that wait, bit k of a mask for class k (R344): the foreground reads that the end of the
last burst found waiting; else the highest class whose floor is due; else the highest class. -/
def Chan.next (x : Chan) (waits : BitVec 7) : Option Nat :=
  let ks := [1, 2, 3, 4, 5, 6].filter (fun k => if k = 1 then !x.reads.isEmpty else waits.getLsbD k)
  if 0 < x.due then some 1
  else match ks.find? (fun k => decide (0 < Tab.get x.owed 0 k)) with
    | some k => some k
    | none => ks.head?

/-- Foreground reads reach a channel in order: the first `n` of them before its last burst ended, which then finds them waiting (R344). -/
def Chan.arrive (x : Chan) (ids : List Nat) (n : Nat) : Chan :=
  { x with reads := x.reads ++ ids, due := if 2 ≤ x.last then (x.reads ++ ids.take n).length else x.due }

/-- The reads and their count after a grant: one foreground read is served, the oldest; none by a burst (R344). -/
def Chan.served (x : Chan) (kind : Nat) : Chan :=
  if kind = 1 then { x with reads := x.reads.drop 1, due := x.due - 1 } else x

/-- CHANNEL_GRANT (R344): a channel serves class `kind` for `addr` ns. Since the last grant the foreground reads `ints` have arrived, the
first `lane` of them before that grant's burst ended, and `value` is the mask of the other classes that wait, bit k for class k. A
foreground grant serves the oldest read. A grant that the order of the classes or the length of a burst forbids does not come about. -/
def execChannelGrant (s : State) : Host.Outcome State Fault Refusal :=
  let e := s.ev
  let c := e.stack * 16 + e.idx % 16
  let x := (s.chanNow e.stack c).arrive e.ints e.lane
  let waits := BitVec.ofNat 7 e.value
  if x.next waits ≠ some e.kind || (2 ≤ e.kind && burstNs < e.addr) then .next s
  else .next { s with chans := Tab.set s.chans {} c { x.served e.kind with
    last := e.kind, waits := waits, owed := Tab.set x.owed 0 e.kind (Tab.get x.owed 0 e.kind - e.addr) } }

/-- OUTFLOW_SHIP (R365): the oldest block or commit record goes to the replica peer while the peer can be reached. -/
def execOutflowShip (s : State) : Host.Outcome State Fault Refusal :=
  match s.replica, s.outflow with
  | some p, _ :: rest => if s.peerState p = 0 then .next { s with outflow := rest, outflowSent := s.outflowSent + 1 } else .next s
  | _, _ => .next s

end Sys2Proof.Machine
end

