-- ==== Sys2Proof/Machine/HomeEv.lean ====
section
/-! DEFINITION. The steps of the index homes, the ownership homes, the atomic units and the crossbar (R241, R248, R270, R271, R281 to
R286, R291, R311, R312, R319, R320, R349 to R356, R362, R438). -/

namespace Sys2Proof.Machine

/-- The contexts with a valid level-0 entry for a logical page. -/
def State.mappers (s : State) (lpn : Nat) : List Nat :=
  (s.ctxs.filter (fun c => c.2.valid && (s.leaves c.1).any (fun e => (e.2.extractLsb' 16 24).toNat = lpn))).map Prod.fst

/-- A home entry is lost in both copies (R353): it is rebuilt from its grain table, every sector whose home state was newer is
LOST, and the contexts that map the page are killed. -/
def State.loseEntry (s : State) (lg : Nat) : State :=
  let pg := s.page (lg / 128)
  let now := s.grain lg
  let old := Tab.get s.gtabs {} lg
  let newer (i : Nat) : Bool := now.src pg lg i ≠ old.src pg lg i || s.hpend.any (fun u => u.lsec = 16 * lg + i)
  let lost := (List.range 16).foldl (fun (m : BitVec 16) i => if newer i then m ||| BitVec.ofNat 16 (2 ^ i) else m) old.lost
  let olds := (List.range 16).map (fun i => now.src pg lg i)
  let ups := s.hpend.filter (fun u => u.lsec / 16 = lg)
  let s := s.loseUpdates (fun u => ups.contains u)
  let s := s.each (s.hpend.filter (fun u => u.lsec / 16 = lg)) (fun s u => s.dropUpdate u)
  let s := s.cowPage (lg / 128)
  let s := { s with grains := Tab.set s.grains {} lg { old with lost := lost, written := false } }
  let s := olds.foldl (fun s x => s.unrefSrc x) s
  let s := s.logErr { level := 1, kind := 2, unit := pg.home, paddr := lg * 512 }
  s.each (s.mappers (lg / 128)) (fun s t => s.killCtx t 2)

/-- INDEX_LOOKUP (R248, R271, R353): the home answers a lookup of a cluster for a tag, and the cluster's IXLB takes the answer; a home that moves answers moved (R352). `kind`
1 says that one copy of the entry was bad, 2 that both were. -/
def execIndexLookup (s : State) : Host.Outcome State Fault Refusal :=
  let e := s.ev
  let lg := e.addr
  let s := match e.kind with
    | 1 => s.logErr { level := 1, kind := 7, unit := (s.page (lg / 128)).home, paddr := lg * 512 }
    | 2 => s.loseEntry lg
    | _ => s
  if (s.page (lg / 128)).valid && !(s.page (lg / 128)).moving then .next (s.ixFill e.cluster lg e.value e.idx e.ctx e.flag) else .next s

/-- INDEX_UPDATE (R270, R351, R352): the oldest release of a cluster that has updates left sends one to its home; moved, it goes again. An update of a page
that has been freed is gone. -/
def execIndexUpdate (s : State) : Host.Outcome State Fault Refusal :=
  let k := s.ev.cluster
  match (s.cluster k).rels.find? (fun r => !r.left.isEmpty) with
  | none => .next s
  | some r => match r.left with
    | [] => .next s
    | u :: rest =>
      if s.moving u.lsec then .next s
      else if !(s.page (u.lsec / 2048)).valid then .next (s.loseUpdates (fun x => x = u))
      else
      let s := s.modCluster k (fun c => { c with rels := mapIf (fun x => x.id = r.id) (fun x => { x with left := rest }) c.rels })
      .next (s.arrive u)

/-- FOLD (R271, R283, R291, R351, R352): once commits have been broadcast to the tiles, a home folds what is committed for all readers in
one sector, and drops what is superseded or discarded; updates that waited there go in. A home that moves does nothing. -/
def execFold (s : State) : Host.Outcome State Fault Refusal :=
  let l := s.ev.addr
  if s.moving l then .next s
  else .next ((s.each (s.updatesOf l) (fun s u => s.broadcast u.cluster)).settleSector l).admitWaiting

/-- GRAIN_ENTRY_WRITEBACK (R351, R362): into a grain table of the present generation. -/
def execGrainEntryWriteback (s : State) : Host.Outcome State Fault Refusal :=
  let lg := s.ev.addr
  let s := s.cowPage (lg / 128)
  let g := { s.grain lg with written := true }
  .next { s with grains := Tab.set s.grains {} lg g, gtabs := Tab.set s.gtabs {} lg g }

/-- TABLE_FREE (R362): tables that neither the live root nor a retained slot reaches are free for new tables, and what they alone named
leaves the live masks. -/
def execTableFree (s : State) : Host.Outcome State Fault Refusal :=
  let here (t : Nat) (r : Root) (ps : Tab PageRec) : Bool :=
    r.addr = t || r.blocks.any (fun b => b.2.addr = t) || ps.any (fun p => p.2.valid && 4096 * p.2.gtab = t)
  let reached (t : Nat) : Bool := here t s.root s.pages || s.snaps.any (fun n => n.2.valid && here t n.2.root n.2.pages)
  .next { s with freeTabs := s.freeTabs.filter (fun t : Nat × Nat => reached t.1)
                 tabPool := s.tabPool ++ s.freeTabs.filter (fun t : Nat × Nat => !reached t.1) }.sweep

/-- HOME_MOVE (R352, R354, R429): a page's home stops serving it; the next such step moves what it holds to an online tile and ends
with the single write of HOME. -/
def execHomeMove (s : State) : Host.Outcome State Fault Refusal :=
  let lpn := s.ev.page
  let pg := s.page lpn
  if !pg.valid || !s.tilesUp.getLsbD s.ev.tile || pg.home = s.ev.tile then .next s
  else if !pg.moving then .next { s with pages := Tab.set s.pages {} lpn { pg with moving := true } }
  else
    let s := s.modPage lpn (fun p => { p with moving := false, home := s.ev.tile })
    .next (s.modClusters (fun c => { c with ixlb := c.ixlb.filter (fun e => e.grain / 128 ≠ lpn) }))

/-- CLAIM_REQUEST (R281, R283, R352, R354, R357): the ownership home answers a cluster's oldest open request, once it does not move. A requester that waits asks
again after a refusal; another has its answer. -/
def execClaimRequest (s : State) : Host.Outcome State Fault Refusal :=
  let k := s.ev.cluster
  match (s.cluster k).claims.find? (fun r => r.outcome = 0) with
  | none => .next s
  | some r =>
    if (s.page (r.grain / 128)).moving then .next s
    else
    let a := s.claim k r.grain r.tag
    .next (a.1.modCluster k (fun c => { c with
      claims :=
        let rest := c.claims.erase r
        if r.retry then (if a.2 then rest else rest ++ [{ r with since := s.cycle }]) else rest ++ [{ r with outcome := if a.2 then 1 else 2 }] }))

/-- COMMIT_WRITE (R270, R282, R283, R355): the oldest release of a cluster whose homes have all acknowledged writes its number. -/
def execCommitWrite (s : State) : Host.Outcome State Fault Refusal :=
  let k := s.ev.cluster
  let s := s.tryCommit k
  let waits (r : Rel) : Bool := (List.range 32).any (fun l => ((s.crew r.core r.slot).fibre l).wait = .release r.id)
  .next (s.modCluster k (fun c => { c with rels := c.rels.filter (fun r => !r.committed || r.node.isSome || waits r) }))

/-- The failure of a retired request of a crew arrives (R320): queued for delivery while the crew lives, else recorded in the node's
record with the exited flag. -/
def State.imprecise (s : State) (core sl lid : Nat) (f : FaultInfo) : State :=
  let f := { f with impr := true }
  if (s.crew? core sl).isSome && s.crewLid core sl = lid then s.modCrew core sl (fun w => { w with impr := w.impr ++ [f] })
  else (s.nodeEvent lid f { core := core, slot := sl, exit_ := true, time := s.timeNs }).modNode lid (fun n => { n with imprecise := true })

/-- Change the crew of a slot while it still belongs to a node. -/
def State.ifCrew (s : State) (core sl lid : Nat) (f : Crew → Crew) : State :=
  if (s.crew? core sl).isSome && s.crewLid core sl = lid then s.modCrew core sl f else s

/-- The counter that holds an atomic goes down. -/
def PAtom.acked (a : PAtom) (w : Crew) : Crew :=
  if a.place.isMem then { w with ackDv := w.ackDv - 1 } else { w with ackCl := w.ackCl - 1 }

/-- Whether an atomic of a crew must be applied before another of it: both go to one page, or to one partition (R311). -/
def PAtom.before (a b : PAtom) : Bool :=
  match a.place, b.place with
  | .mem x _ _, .mem y _ _ => x / 65536 = y / 65536
  | .pad g _, .pad h _ => g = h
  | _, _ => false

/-- The atomic of a crew that is applied next: asked for, and the first of its page or partition that is not applied (R311, R352). -/
def Crew.nextAtom (w : Crew) : Option PAtom :=
  w.atoms.find? (fun a => a.answer.isNone && !a.moved
    && !(w.atoms.takeWhile (fun b => b ≠ a)).any (fun b => b.answer.isNone && b.before a))

/-- One request of a crew's atomic is applied, or refused and its failure reported (R285, R311, R319). None while its home finds no block
for it. -/
def State.applyAtom (s : State) (core sl : Nat) (a : PAtom) : Option State :=
  let set (s : State) (b : PAtom) : State := s.modCrew core sl (fun w => { w with atoms := mapIf (fun x => x = a) (fun _ => b) w.atoms })
  match a.place with
  | .mem l _ _ => (s.atomicHome core sl a l).map (fun r => set r.1 { a with answer := some (r.2.1, r.2.2) })
  | .pad g off => match s.padRefusal g off a.size with
    | none =>
      let r := s.padAtomic g off a
      some (set r.1 { a with answer := some (r.2.1, r.2.2) })
    | some sub =>
      let lid := s.crewLid core sl
      let s := s.modCrew core sl (fun w => { (a.acked w) with atoms := w.atoms.erase a })
      some (s.imprecise core sl lid { cause := 2, sub := sub, addr := a.addr, regaddr := a.regaddr, seq := a.id })
  | .die _ => none
  | .peer _ _ => none

/-- A request that an ended crew of a slot left on its way is applied, once its home does not move (R55, R311). -/
def State.applyOrphan (s : State) (o : Orphan) : Option State :=
  match o.atom.place with
  | .mem l _ _ =>
    if s.moving (l / 32) then none
    else (s.atomicHome o.core o.slot o.atom l).map (fun r => { r.1 with orphans := r.1.orphans.erase o })
  | _ => none

/-- ATOMIC_APPLY (R285, R286, R311, R313, R319): the home or the owning core applies the next atomic of a crew, every lane of the
instruction that names its location, in ascending order; a home whose page moves answers moved; a refused one is not applied, and its
failure is reported. What an ended crew of the slot left on its way comes first. -/
def execAtomicApply (s : State) : Host.Outcome State Fault Refusal :=
  let core := s.ev.core
  let sl := s.ev.slot
  match s.orphans.find? (fun o => o.core = core && o.slot = sl) with
  | some o =>
    let group := s.orphans.filter (fun p => p.core = core && p.slot = sl && p.lid = o.lid && p.atom.seq = o.atom.seq && p.atom.addr = o.atom.addr)
    .next ((optEach s group State.applyOrphan).getD s)
  | none => match (s.crew core sl).nextAtom with
    | none => .next s
    | some a =>
      let group := (s.crew core sl).atoms.filter (fun b => b.seq = a.seq && b.addr = a.addr && b.answer.isNone)
      let moves : Bool := match a.place with
        | .mem l _ _ => s.moving (l / 32)
        | _ => false
      if moves then
        .next (s.modCrew core sl (fun w => { w with atoms := mapIf (fun b => group.contains b) (fun b => { b with moved := true }) w.atoms }))
      else .next ((optEach s group (fun s b => s.applyAtom core sl b)).getD s)

/-- ATOMIC_ANSWER (R66, R311, R313): an answer reaches the core: the lane's vD (R120), both lanes' in tandem mode, the flags, and the counter. -/
def execAtomicAnswer (s : State) : Host.Outcome State Fault Refusal :=
  let core := s.ev.core
  let sl := s.ev.slot
  match (s.crew core sl).atoms.find? (fun a => a.answer.isSome) with
  | none => .next s
  | some a => match a.answer with
    | none => .next s
    | some r =>
      .next (s.modCrew core sl (fun w =>
        let w := w.putLate a.lim a.lane a.d r.1
        let w := if w.tandem then w.putLate a.lim (a.lane + 1) a.d r.1 else w
        { (a.acked w) with atoms := w.atoms.erase a, fflags := w.fflags ||| r.2 }))

/-- ATOMIC_MOVED_REISSUE (R286, R312): the request goes out again with the same tag. -/
def execAtomicMovedReissue (s : State) : Host.Outcome State Fault Refusal :=
  let core := s.ev.core
  let sl := s.ev.slot
  match (s.crew core sl).atoms.find? (fun a => a.moved) with
  | none => .next s
  | some a => .next (s.modCrew core sl (fun w => { w with atoms := mapIf (fun x => x = a) (fun x => { x with moved := false }) w.atoms }))

/-- How long a home keeps an applied atomic's tag, in ns (R286). -/
def tagKept : Nat := 64000

/-- ATOMIC_TAG_SET_EXPIRY (R286). -/
def execAtomicTagSetExpiry (s : State) : Host.Outcome State Fault Refusal :=
  .next { s with atomTags := s.atomTags.filter (fun t => decide (s.timeNs < t.time + tagKept)) }

/-- A copy's write has been acknowledged. -/
def State.copyAck (s : State) (core id : Nat) : State := s.modCopy core id (fun x => { x with out := x.out - 1 })

/-- REMOTE_ACCESS_PERFORM (R241, R243, R244, R279, R319): the oldest remote scratchpad store of a core is performed at its owner, or
refused. -/
def execRemoteAccessPerform (s : State) : Host.Outcome State Fault Refusal :=
  let core := s.ev.core
  match (s.core core).remq.find? (fun r => !r.acked) with
  | none => .next s
  | some r =>
    let s := s.modCore core (fun k => { k with remq := mapIf (fun x => x = r) (fun x => { x with acked := true }) k.remq })
    match s.padRefusal r.tgroup r.off r.data.length with
    | none =>
      let s := s.padWrite r.tgroup r.off r.data
      .next (if r.pois then s.padMark r.tgroup ((wordsOf r.off r.data.length).map (8 * ·)) else s)
    | some sub =>
      let f : FaultInfo := { cause := 2, sub := sub, addr := r.addr, regaddr := r.regaddr, seq := r.id }
      .next (match r.copyId with
        | some id => s.failCopy core id f false
        | none => s.imprecise core r.slot r.lid f)

/-- REMOTE_ACK (R241, R277, R438): an acknowledgement reaches the core: of a scratchpad store, or with `kind` 1 of a peer's request. -/
def execRemoteAck (s : State) : Host.Outcome State Fault Refusal :=
  let core := s.ev.core
  if s.ev.kind = 1 then
    match s.peerOut.find? (fun r => r.core = core && s.peerState r.peer = 0) with
    | none => .next s
    | some r =>
      let s := { s with peerOut := s.peerOut.erase r }
      .next (match r.copyId with
        | some id => s.copyAck core id
        | none => s.ifCrew core r.slot r.lid (fun w => { w with ackSy := w.ackSy - 1 }))
  else
    match (s.core core).remq.find? (fun r => r.acked) with
    | none => .next s
    | some r =>
      let s := s.modCore core (fun k => { k with remq := k.remq.erase r })
      .next (match r.copyId with
        | some id => s.copyAck core id
        | none => s.ifCrew core r.slot r.lid (fun w => { w with ackCl := w.ackCl - 1 }))

/-- A peer refuses a request of a core, or can no longer be reached (R319, R408, R438). -/
def State.refusePeer (s : State) (r : PeerReq) : State :=
  let f : FaultInfo := { cause := 2, sub := 9, addr := r.vaddr, regaddr := r.regaddr, seq := r.id }
  let s := { s with peerOut := s.peerOut.erase r }
  match r.copyId with
  | some id => (s.failCopy r.core id f false).copyAck r.core id
  | none => (s.ifCrew r.core r.slot r.lid (fun w => { w with ackSy := w.ackSy - 1 })).imprecise r.core r.slot r.lid f

/-- IMPRECISE_FAULT_ARRIVAL (R319, R320, R381): the failure of a retired store: with `kind` 0 a peer's refusal (`flag`) or a
failed peer, with `kind` 1 the loss of the data of a core's oldest store before the appender has written it, which poisons the sector and rolls the
node back; with `kind` 2 the loss of the data of a copy inside the engine or on the crossbar, which rolls the node back (R336). -/
def execImpreciseFaultArrival (s : State) : Host.Outcome State Fault Refusal :=
  let core := s.ev.core
  if s.ev.kind = 0 then
    match s.peerOut.find? (fun r => r.core = core && (s.ev.flag || s.peerState r.peer = 2)) with
    | none => .next s
    | some r => .next (s.refusePeer r)
  else if s.ev.kind = 2 then
    match ((s.core core).copies.filter (fun x => x.started && x.fail.isNone))[s.ev.idx]? with
    | none => .next s
    | some x => .next (s.copyLost core x { sub := 2, impr := true })
  else
    match (s.core core).stq with
    | [] => .next s
    | q :: rest =>
      let r := s.accept core { q with lost := true }
      if r.2 then
        let s := (r.1.modCore core (fun c => { c with stq := rest })).accepted core q
        .next (s.rollBack q.crewLid { cause := 1, sub := 2, addr := q.addr, regaddr := q.regaddr, impr := true }
          { core := core, slot := q.slot, time := s.timeNs })
      else .next r.1

/-- STAGING_TAG_FREE (R291, R355): the entry of a committed or discarded tag is free once nothing holds an update of the tag. -/
def execStagingTagFree (s : State) : Host.Outcome State Fault Refusal :=
  let t := s.ev.value
  let done := match s.staging t with
    | .committed _ => true
    | .discarded _ => true
    | .free => false
    | .running _ => false
  let held := s.hpend.any (fun u => u.tag = t) || s.hwait.any (fun u => u.tag = t)
    || s.clusters.any (fun c => c.2.pend.any (fun u => u.tag = t) || c.2.gather.any (fun g => g.tag = t))
  if t ≠ 0 && done && !held then
    let s := { s with stagingT := Tab.set s.stagingT .free t .free }
    let s := s.modClusters (fun c => { c with ixlb := c.ixlb.filter (fun e => e.tag ≠ t) })
    .next (s.modCores (fun k => { k with l1 := k.l1.filter (fun e => e.tag ≠ t || e.dirty) }))
  else .next s

end Sys2Proof.Machine
end

