-- ==== Sys2Proof/Machine/Prefix.lean ====
section
/-! DEFINITION. Which prefixes an instruction takes, and whether every repetition of a repeated one stays in its register
classes (R101, R106, R107, R109). -/

namespace Sys2Proof.Machine

/-- The operand codes that the steps of a repeated instruction move: D with the size of its class, A and B; `even` marks the
forms whose D must be even. -/
structure RepForm where
  d : Option (Nat × Nat)
  a : Option Src
  b : Option Src
  even : Bool := false

/-- A vector destination. -/
def repV (d : BitVec 6) : Option (Nat × Nat) := some (d.toNat, 64)
/-- A uniform destination. -/
def repU (d : BitVec 5) : Option (Nat × Nat) := some (d.toNat, 32)

/-- The forms that REP may prefix: format A in groups 0 to 3 and 5 to 7, and format M but for the atomics (R107). -/
def repForm (i : Instr) : Option RepForm :=
  match i with
  | .addD o => some { d := repV o.d, a := some o.a, b := some o.b }
  | .addW o => some { d := repV o.d, a := some o.a, b := some o.b }
  | .addH o => some { d := repV o.d, a := some o.a, b := some o.b }
  | .addB o => some { d := repV o.d, a := some o.a, b := some o.b }
  | .subD o => some { d := repV o.d, a := some o.a, b := some o.b }
  | .subW o => some { d := repV o.d, a := some o.a, b := some o.b }
  | .subH o => some { d := repV o.d, a := some o.a, b := some o.b }
  | .subB o => some { d := repV o.d, a := some o.a, b := some o.b }
  | .mulD o => some { d := repV o.d, a := some o.a, b := some o.b }
  | .mulW o => some { d := repV o.d, a := some o.a, b := some o.b }
  | .mulhD o => some { d := repV o.d, a := some o.a, b := some o.b }
  | .mulhuD o => some { d := repV o.d, a := some o.a, b := some o.b }
  | .andD o => some { d := repV o.d, a := some o.a, b := some o.b }
  | .orD o => some { d := repV o.d, a := some o.a, b := some o.b }
  | .xorD o => some { d := repV o.d, a := some o.a, b := some o.b }
  | .andn o => some { d := repV o.d, a := some o.a, b := some o.b }
  | .addsH o => some { d := repV o.d, a := some o.a, b := some o.b }
  | .subsH o => some { d := repV o.d, a := some o.a, b := some o.b }
  | .addusB o => some { d := repV o.d, a := some o.a, b := some o.b }
  | .subusB o => some { d := repV o.d, a := some o.a, b := some o.b }
  | .minH o => some { d := repV o.d, a := some o.a, b := some o.b }
  | .maxH o => some { d := repV o.d, a := some o.a, b := some o.b }
  | .minW o => some { d := repV o.d, a := some o.a, b := some o.b }
  | .maxW o => some { d := repV o.d, a := some o.a, b := some o.b }
  | .shlD o => some { d := repV o.d, a := some o.a, b := some o.b }
  | .shrD o => some { d := repV o.d, a := some o.a, b := some o.b }
  | .sarD o => some { d := repV o.d, a := some o.a, b := some o.b }
  | .rotD o => some { d := repV o.d, a := some o.a, b := some o.b }
  | .faddD o => some { d := repV o.d, a := some o.a, b := some o.b }
  | .faddS o => some { d := repV o.d, a := some o.a, b := some o.b }
  | .faddH o => some { d := repV o.d, a := some o.a, b := some o.b }
  | .faddB o => some { d := repV o.d, a := some o.a, b := some o.b }
  | .fsubD o => some { d := repV o.d, a := some o.a, b := some o.b }
  | .fsubS o => some { d := repV o.d, a := some o.a, b := some o.b }
  | .fsubH o => some { d := repV o.d, a := some o.a, b := some o.b }
  | .fsubB o => some { d := repV o.d, a := some o.a, b := some o.b }
  | .fmulD o => some { d := repV o.d, a := some o.a, b := some o.b }
  | .fmulS o => some { d := repV o.d, a := some o.a, b := some o.b }
  | .fmulH o => some { d := repV o.d, a := some o.a, b := some o.b }
  | .fmulB o => some { d := repV o.d, a := some o.a, b := some o.b }
  | .ffmaD o => some { d := repV o.d, a := some o.a, b := some o.b }
  | .ffmaS o => some { d := repV o.d, a := some o.a, b := some o.b }
  | .ffmaH o => some { d := repV o.d, a := some o.a, b := some o.b }
  | .ffmaB o => some { d := repV o.d, a := some o.a, b := some o.b }
  | .fminD o => some { d := repV o.d, a := some o.a, b := some o.b }
  | .fminS o => some { d := repV o.d, a := some o.a, b := some o.b }
  | .fminH o => some { d := repV o.d, a := some o.a, b := some o.b }
  | .fmaxD o => some { d := repV o.d, a := some o.a, b := some o.b }
  | .fmaxS o => some { d := repV o.d, a := some o.a, b := some o.b }
  | .fmaxH o => some { d := repV o.d, a := some o.a, b := some o.b }
  | .fnmaD o => some { d := repV o.d, a := some o.a, b := some o.b }
  | .fnmaS o => some { d := repV o.d, a := some o.a, b := some o.b }
  | .fabsD o => some { d := repV o.d, a := some o.a, b := none }
  | .fabsS o => some { d := repV o.d, a := some o.a, b := none }
  | .fnegD o => some { d := repV o.d, a := some o.a, b := none }
  | .fnegS o => some { d := repV o.d, a := some o.a, b := none }
  | .fdot2H o => some { d := repV o.d, a := some o.a, b := some o.b }
  | .fdot2B o => some { d := repV o.d, a := some o.a, b := some o.b }
  | .fscaleD o => some { d := repV o.d, a := some o.a, b := some o.b }
  | .cvtq o => some { d := repV o.d, a := some o.a, b := some o.b }
  | .deq o => some { d := repV o.d, a := some o.a, b := some o.b }
  | .fdivD o => some { d := repV o.d, a := some o.a, b := some o.b }
  | .fdivS o => some { d := repV o.d, a := some o.a, b := some o.b }
  | .fsqrtD o => some { d := repV o.d, a := some o.a, b := none }
  | .fsqrtS o => some { d := repV o.d, a := some o.a, b := none }
  | .frcpS o => some { d := repV o.d, a := some o.a, b := none }
  | .frsqS o => some { d := repV o.d, a := some o.a, b := none }
  | .fexp2S o => some { d := repV o.d, a := some o.a, b := none }
  | .flog2S o => some { d := repV o.d, a := some o.a, b := none }
  | .fsinpS o => some { d := repV o.d, a := some o.a, b := none }
  | .fcospS o => some { d := repV o.d, a := some o.a, b := none }
  | .ftanhS o => some { d := repV o.d, a := some o.a, b := none }
  | .idivD o => some { d := repV o.d, a := some o.a, b := some o.b }
  | .idivuD o => some { d := repV o.d, a := some o.a, b := some o.b }
  | .permD o => some { d := repV o.d, a := some o.a, b := some o.b }
  | .permW o => some { d := repV o.d, a := some o.a, b := some o.b }
  | .permH o => some { d := repV o.d, a := some o.a, b := some o.b }
  | .permB o => some { d := repV o.d, a := some o.a, b := some o.b }
  | .bcast o => some { d := repV o.d, a := some o.a, b := some o.b }
  | .rotxH o => some { d := repV o.d, a := some o.a, b := some o.b }
  | .ballot o => some { d := repV o.d, a := some o.a, b := none }
  | .redadd o => some { d := repV o.d, a := some o.a, b := none }
  | .redmin o => some { d := repV o.d, a := some o.a, b := none }
  | .redmax o => some { d := repV o.d, a := some o.a, b := none }
  | .scanadd o => some { d := repV o.d, a := some o.a, b := none }
  | .matchD o => some { d := repV o.d, a := some o.a, b := none }
  | .matchS o => some { d := repV o.d, a := some o.a, b := none }
  | .subperm o => some { d := repV o.d, a := some o.a, b := some o.b }
  | .lanemask o => some { d := repV o.d, a := some o.a, b := none }
  | .uadd o => some { d := repU o.d, a := some o.a, b := some o.b }
  | .usub o => some { d := repU o.d, a := some o.a, b := some o.b }
  | .umul o => some { d := repU o.d, a := some o.a, b := some o.b }
  | .uand o => some { d := repU o.d, a := some o.a, b := some o.b }
  | .uor o => some { d := repU o.d, a := some o.a, b := some o.b }
  | .uxor o => some { d := repU o.d, a := some o.a, b := some o.b }
  | .ushl o => some { d := repU o.d, a := some o.a, b := some o.b }
  | .ushr o => some { d := repU o.d, a := some o.a, b := some o.b }
  | .usar o => some { d := repU o.d, a := some o.a, b := some o.b }
  | .umin o => some { d := repU o.d, a := some o.a, b := some o.b }
  | .umax o => some { d := repU o.d, a := some o.a, b := some o.b }
  | .uread o => some { d := repU o.d, a := some o.a, b := some o.b }
  | .ldB o => some { d := repV o.d, a := some o.a, b := none }
  | .ldBs o => some { d := repV o.d, a := some o.a, b := none }
  | .ldH o => some { d := repV o.d, a := some o.a, b := none }
  | .ldHs o => some { d := repV o.d, a := some o.a, b := none }
  | .ldW o => some { d := repV o.d, a := some o.a, b := none }
  | .ldWs o => some { d := repV o.d, a := some o.a, b := none }
  | .ldD o => some { d := repV o.d, a := some o.a, b := none }
  | .ldQ o => some { d := repV o.d, a := some o.a, b := none, even := true }
  | .lduD o => some { d := repU o.d, a := some o.a, b := none }
  | .lduW o => some { d := repU o.d, a := some o.a, b := none }
  | .ldaD o => some { d := repV o.d, a := some o.a, b := none }
  | .ldncD o => some { d := repV o.d, a := some o.a, b := none }
  | .pref o => some { d := none, a := some o.a, b := none }
  | .stB o => some { d := repV o.d, a := some o.a, b := none }
  | .stH o => some { d := repV o.d, a := some o.a, b := none }
  | .stW o => some { d := repV o.d, a := some o.a, b := none }
  | .stD o => some { d := repV o.d, a := some o.a, b := none }
  | .stQ o => some { d := repV o.d, a := some o.a, b := none, even := true }
  | .stuD o => some { d := repU o.d, a := some o.a, b := none }
  | .stlD o => some { d := repV o.d, a := some o.a, b := none }
  | _ => none

/-- Whether every repetition of a register number stays in its class. -/
def stepFits (n size : Nat) (st : BitVec 4) (count : Nat) : Bool :=
  let last : Int := (n : Int) + st.toInt * ((count : Int) - 1)
  decide (0 ≤ last) && decide (last < (size : Int))

/-- Whether the step of a source fits; a code that is no register takes no step. -/
def srcFits (x : Option Src) (st : BitVec 4) (count : Nat) : Bool :=
  match x with
  | some (.v n) => stepFits n.toNat 64 st count
  | some (.s n) => stepFits n.toNat 32 st count
  | _ => st = 0

/-- Whether the steps of a HINT.REP suit a form (R107). A K = 1 instruction, whose D field is 0 by R98, may have a step of D
(DESIGN CHOICE, log 33). -/
def RepForm.fits (f : RepForm) (o : OpHRep) : Bool :=
  let count := o.n.toNat + 1
  (match f.d with
    | some d => stepFits d.1 d.2 o.dst count && (!f.even || o.dst.getLsbD 0 = false || count = 1)
    | none => o.dst = 0)
    && srcFits f.a o.ast count && srcFits f.b o.bst count

/-- The instructions whose immediate HINT.IMM extends (R97, R106). -/
def takesImm (i : Instr) : Bool :=
  match i with
  | .addiD _ => true
  | .addiW _ => true
  | .movi _ => true
  | .uaddi _ => true
  | .umovi _ => true
  | .umovh _ => true
  | .region _ => true
  | .trap _ => true
  | .icmpiD _ => true
  | _ => false

/-- The instructions that take a rounding override (R109). A CVT takes it unless its destination is D8 or it narrows an
integer. -/
def takesRound (i : Instr) : Bool :=
  match i with
  | .faddD _ => true
  | .faddS _ => true
  | .faddH _ => true
  | .faddB _ => true
  | .fsubD _ => true
  | .fsubS _ => true
  | .fsubH _ => true
  | .fsubB _ => true
  | .fmulD _ => true
  | .fmulS _ => true
  | .fmulH _ => true
  | .fmulB _ => true
  | .ffmaD _ => true
  | .ffmaS _ => true
  | .ffmaH _ => true
  | .ffmaB _ => true
  | .fnmaD _ => true
  | .fnmaS _ => true
  | .fdot2H _ => true
  | .fdot2B _ => true
  | .fscaleD _ => true
  | .deq _ => true
  | .fdivD _ => true
  | .fdivS _ => true
  | .fsqrtD _ => true
  | .fsqrtS _ => true
  | .frcpS _ => true
  | .frsqS _ => true
  | .fexp2S _ => true
  | .flog2S _ => true
  | .fsinpS _ => true
  | .fcospS _ => true
  | .ftanhS _ => true
  | .acvt _ => true
  | .cvt o =>
    if o.sel.getLsbD 6 then o.sel.getLsbD 5 || o.sel.extractLsb' 0 2 != 0
    else decide ((o.sel.extractLsb' 3 3).toNat ≤ 4) && o.sel.extractLsb' 0 3 != 0
  | _ => false

/-- The instructions that saturate (R109). -/
def takesSat (i : Instr) : Bool :=
  match i with
  | .addD _ => true
  | .addW _ => true
  | .addH _ => true
  | .addB _ => true
  | .subD _ => true
  | .subW _ => true
  | .subH _ => true
  | .subB _ => true
  | .mulD _ => true
  | .mulW _ => true
  | .addiD _ => true
  | .addiW _ => true
  | _ => false

/-- The instructions that take a cache policy (R109). -/
def takesCache (i : Instr) : Bool :=
  match i with
  | .ldB _ => true
  | .ldBs _ => true
  | .ldH _ => true
  | .ldHs _ => true
  | .ldW _ => true
  | .ldWs _ => true
  | .ldD _ => true
  | .ldQ _ => true
  | .lduD _ => true
  | .lduW _ => true
  | .ldaD _ => true
  | .ldncD _ => true
  | .pref _ => true
  | .stB _ => true
  | .stH _ => true
  | .stW _ => true
  | .stD _ => true
  | .stQ _ => true
  | .stuD _ => true
  | .stlD _ => true
  | .aadd _ => true
  | .amin _ => true
  | .amax _ => true
  | .aand _ => true
  | .aor _ => true
  | .axch _ => true
  | .acas _ => true
  | .aaddfS _ => true
  | .cpy _ => true
  | .cpyq _ => true
  | .cpyt _ => true
  | _ => false

/-- Whether a prefix suits the instruction it stands before (R101, R105 to R109). -/
def prefixOk (p : Pfx) (i : Instr) : Bool :=
  !p.bad && (p.imm.isNone || takesImm i)
    && (match p.rep with
      | none => true
      | some o => match repForm i with
        | some f => f.fits o
        | none => false)
    && (match p.mod with
      | none => true
      | some o => (!o.en || takesRound i) && (!o.sat || takesSat i) && (o.cache = 0 || takesCache i))

end Sys2Proof.Machine
end

