-- ==== Sys2Proof/Machine/Ready.lean ====
section
/-! DEFINITION. Which fibres are ready, the fragments they form and the one that issues; the fetch of its word; the passing of
cycles; the peloton; and what settles by itself after a step (R21 to R24, R26, R36, R37, R56, R91, R103, R330, R406, R407). -/

namespace Sys2Proof.Machine

/-- Requests of a crew that have not answered (R146). -/
def State.outstanding (s : State) (core sl : Nat) : List Nat :=
  let w := s.crew core sl
  let k := s.core core
  w.loads.map PLoad.id ++ w.atoms.map PAtom.id ++ (k.sfu.filter (fun q => q.slot = sl)).map SfuOp.id
    ++ (k.remq.filter (fun r => r.slot = sl && !r.acked)).map RemReq.id
    ++ (s.peerOut.filter (fun r => r.core = core && r.slot = sl)).map PeerReq.id
    ++ (k.arr.filter (fun q => q.slot = sl)).map ArrOp.id
    ++ (k.stq.filter (fun q => q.slot = sl && q.copyId.isNone)).map StoreReq.seq

/-- Entries that the special-function queue of a core holds for its crews (R161). -/
def Core.sfuLen (k : Core) : Nat := k.sfu.length

/-- Whether what a fibre waits for has come about, so that its instruction may go on (R36). A meeting ends by its own rule. -/
def State.waitOver (s : State) (core sl : Nat) (f : Fibre) : Bool :=
  let w := s.crew core sl
  let k := s.core core
  match f.wait with
  | .none => true
  | .syncm => false
  | .region => false
  | .conv _ => false
  | .gbar => false
  | .suspended => false
  | .recordSlot => false
  | .barw _ _ => false
  | .ringFree off => match s.ringAt w.group off with
    | some r => decide (0 < r.free)
    | none => true
  | .ringTake off => match s.ringAt w.group off with
    | some r => decide (0 < r.filled)
    | none => true
  | .batch n => w.batches.all (fun b => b.no ≠ n || !b.sealed_ || b.left = 0)
  | .sealLimit => decide ((w.batches.filter (fun b => b.sealed_ && decide (0 < b.left))).length < 64)
  | .copyFull => decide (k.queued < 64)
  | .sfuFull => decide (k.sfuLen < 16)
  | .grow => false
  | .array n => !s.accNamed core w.group n
  | .loads => w.loads.isEmpty
  | .fence scope => !w.fenceWaits scope
  | .answers => !w.answersDue
  | .operands ids => let out := s.outstanding core sl; ids.all (fun i => !out.contains i)
  | .flags => k.sfu.all (fun q => q.slot ≠ sl) && k.arr.all (fun q => q.slot ≠ sl) && w.atoms.all (fun a => a.op ≠ 15)
  | .counters cl dv sy => decide (w.ackCl + cl ≤ 65535) && decide (w.ackDv + dv ≤ 4095) && decide (w.ackSy + sy ≤ 4095)
  | .storeRoom cl sy => decide (w.ackCl + cl ≤ 65535) && decide (w.ackSy + sy ≤ 4095)
  | .homes ls => ls.all (fun l => !(s.page l).moving)
  | .claims _ => (s.cluster (clusterOf core)).claims.all (fun r => r.core ≠ core || r.slot ≠ sl || r.retry || r.outcome ≠ 0)
  | .writeBlock lpn => !(s.page lpn).wb
  | .release id => (s.cluster (clusterOf core)).rels.all (fun r => r.id ≠ id || r.committed)
  | .ownx since => decide (since + waitLimit ≤ s.cycle)
      || (s.cluster (clusterOf core)).claims.all (fun r => r.core ≠ core || r.slot ≠ sl || !r.retry || r.outcome ≠ 0)
  | .peer p since => s.peerState p ≠ 1 || decide (since + peerLimit ≤ s.timeNs)
  | .progs => w.progs.isEmpty
  | .halt q _ => match s.groupOfSeq q with
    | some g => s.groupHalted g || s.groupStopped g
    | none => true
  | .flush c t ids => let out := s.flushIds c t; ids.all (fun i => !out.contains i)
  | .accepted a => k.stq.all (fun q => q.slot ≠ sl || !(decide (a / 32 ≤ q.addr / 32) && decide (q.addr / 32 ≤ (a + 127) / 32)))

/-- Whether a wait has had part of its instruction's effect, so that it keeps its fragment apart until it ends. -/
def Wait.partial_ (x : Wait) : Bool :=
  match x with
  | .release _ => true
  | .ownx _ => true
  | .peer _ _ => true
  | .halt _ _ => true
  | .flush _ _ _ => true
  | .grow => true
  | _ => false

/-- What a fibre must share with the others of its fragment (R21, R103, R107): PC, repeat index, prefix and wait. -/
def Fibre.sameFrag (f g : Fibre) : Bool :=
  f.pc == g.pc && f.rep == g.rep && f.pfx == g.pfx
    && (f.wait == g.wait || (!f.wait.partial_ && !g.wait.partial_))

/-- Whether a fibre may issue. -/
def State.fibreReady (s : State) (core sl : Nat) (f : Fibre) : Bool := f.live && s.waitOver core sl f

/-- A fragment that is ready: its lanes and the issue units it has waited (R21, R23). -/
structure Frag where
  lanes : BitVec 32
  pc : BitVec 57
  age : Nat
  deriving DecidableEq, Repr

/-- The ready fragments of a crew, by ascending lowest lane; an open prefix unit is the only one (R21, R26, R103). -/
def State.frags (s : State) (core sl : Nat) : List Frag :=
  let w := s.crew core sl
  match w.unit with
  | some u => if (lanesOf u.lanes).all (fun l => s.fibreReady core sl (w.fibre l)) then [{ lanes := u.lanes, pc := u.pc, age := 0 }] else []
  | none =>
    let ready := (List.range 32).filter (fun l => s.fibreReady core sl (w.fibre l))
    ready.filterMap (fun l =>
      let f := w.fibre l
      let mine := ready.filter (fun j => (w.fibre j).sameFrag f)
      if mine.headD l = l then
        some { lanes := maskOf mine, pc := f.pc
               age := mine.foldl (fun (a : Nat) j => if a < w.units - (w.fibre j).readyAt then w.units - (w.fibre j).readyAt else a) 0 }
      else none)

/-- The fragment that issues (R23): one that has waited 32 issue units or more, the longest first; else the lowest PC; then the
lowest lane. -/
def State.pick (s : State) (core sl : Nat) : Option Frag :=
  let fs := s.frags core sl
  let aged := fs.filter (fun f => decide (32 ≤ f.age))
  let before (a b : Frag) : Bool :=
    if aged.isEmpty then decide (a.pc.toNat < b.pc.toNat)
    else decide (b.age < a.age) || (a.age = b.age && decide (a.pc.toNat < b.pc.toNat))
  (if aged.isEmpty then fs else aged).foldl (fun b f => match b with
    | none => some f
    | some x => if before f x then some f else some x) none

/-- Whether a crew is being stopped by a pre-emption, or its context is pre-empted: it issues nothing more after its prefix unit (R382,
R383). -/
def State.stopping (s : State) (core sl : Nat) : Bool :=
  let w := s.crew core sl
  decide (sl < 32) && w.unit.isNone && decide (2 ≤ (s.ctx (s.crewCtx core sl)).stage)

/-- Whether a crew has something to issue (R36). -/
def State.crewReady (s : State) (core sl : Nat) : Bool :=
  let w := s.crew core sl
  !w.stopped && !w.halted && !s.stopping core sl && !s.growing core sl && !(s.group w.group).prologue && !(s.frags core sl).isEmpty

/-- What a fetch gives: the word, a fault, a poisoned word (R91, R133), or nothing yet while the home of its page moves (R352). -/
inductive Fetched where
  | word (w : BitVec 32)
  | fault (f : FaultInfo)
  | poison
  | moving
  deriving DecidableEq, Repr

/-- The instruction cache with a sector put in front: 64 KiB, the oldest leaves (R4, R238, R247). -/
def Core.l1iPut (k : Core) (key : Nat) (d : BitVec 256) : Core := { k with l1i := ((key, d) :: k.l1i).take 2048 }

/-- The sector that an instruction fetch brings to L1I: from below L1 data, whose stores it does not observe (R238, R288). -/
def State.fetchSector (s : State) (core ctx tag lsec attr : Nat) : State × Sector :=
  if attr = attrAtomic then s.homeSector (s.lookup tag lsec)
  else
    let r := s.loadBelow core ctx tag lsec attr true true
    (r.1, r.2.sec)

/-- Fetch the word at a PC (R91): translated and checked like a read of 4 bytes with execute permission; its IXLB miss is the crew's
(R403). -/
def State.fetch (s : State) (core sl : Nat) (pc : BitVec 57) : State × Fetched :=
  let a := pc.toNat
  let ctx := s.crewCtx core sl
  let tag := s.crewTag core sl
  let bad (cause sub : Nat) : State × Fetched := (s, .fault { cause := cause, sub := sub, addr := a })
  match regionOf a with
  | .beyond => bad 2 1
  | .reserved => bad 2 3
  | .die _ => bad 2 3
  | .cluster _ _ => bad 2 3
  | .local_ _ => bad 2 3
  | .aperture p x =>
    match Tab.find s.peers p with
    | none => bad 2 6
    | some r =>
      if !(s.ctx ctx).aper then bad 2 6
      else if r.windows.any (fun w => decide (w.base ≤ x) && decide (x + 4 ≤ w.base + w.len)) then bad 2 3
      else bad 2 2
  | .mapped =>
    match s.coreXlate core ctx a with
    | none => bad 2 2
    | some x =>
      if !x.x then bad 2 3
      else if a % 4 ≠ 0 then bad 4 1
      else
        let s := s.tlbFill core ctx a
        let key := x.laddr / 32 * 4096 + tag
        let word (d : BitVec 256) : BitVec 32 := d.extractLsb' (8 * (x.laddr % 32)) 32
        match (s.core core).l1i.find? (fun e => e.1 = key) with
        | some e => (s, .word (word e.2))
        | none =>
          if s.moving (x.laddr / 32) then (s, .moving)
          else
          let r := (s.charge core sl (0, (s.misses core tag (x.laddr / 32) x.attr).2)).fetchSector core ctx tag (x.laddr / 32) x.attr
          if r.2.poison.getLsbD (x.laddr % 32 / 8) then (r.1, .poison)
          else (if r.2.poison = 0 then r.1.modCore core (fun k => k.l1iPut key r.2.data) else r.1, .word (word r.2.data))

/-- The peers that a load's lanes read. -/
def PLoad.peers (q : PLoad) : List Nat := (q.lanes.filterMap (fun x => match x.place with
  | .peer n _ => some n
  | .mem _ _ _ => none
  | .pad _ _ => none
  | .die _ => none)).eraseDups

/-- The peer of an RGET or SHIP. -/
def CopyKind.peer? (k : CopyKind) : Option Nat :=
  match k with
  | .rget p _ _ _ => some p
  | .ship p _ => some p
  | .cpy _ _ _ _ _ => none
  | .cpyq _ _ _ _ _ => none
  | .cpyt _ _ _ _ _ => none

/-- The RGETs and SHIPs of a crew's batch that have not completed (R407). -/
def State.batchCopies (s : State) (core sl n : Nat) : List Copy :=
  (s.core core).copies.filter (fun x => x.slot = sl && x.group = (s.crew core sl).group && x.batch = n && x.fail.isNone && x.kind.peer?.isSome)

/-- The peers that a wait of a crew is held by (R407): at RPUT, at a CWAIT whose batch holds an RGET or SHIP, by a load from a peer, and at
a fence of system scope by requests to peers. -/
def State.waitPeers (s : State) (core sl : Nat) (x : Wait) : List Nat :=
  let w := s.crew core sl
  let loads := w.loads.flatMap PLoad.peers
  match x with
  | .peer p _ => [p]
  | .batch n => (s.batchCopies core sl n).filterMap (fun x => x.kind.peer?)
  | .operands ids => (w.loads.filter (fun q => ids.contains q.id)).flatMap PLoad.peers
  | .loads => loads
  | .fence sc => (if sc = 4 then (s.peerOut.filter (fun r => r.core = core && r.slot = sl && r.sy)).map PeerReq.peer else []) ++ loads
  | _ => []

/-- The fibres of a crew that have neither exited nor are suspended for a trap. -/
def Crew.going (w : Crew) : List Fibre := ((List.range 32).map w.fibre).filter (fun f => f.live && !f.wait.isTrap)

/-- The peers that a crew waits on: each of its fragments is held by one (R407). -/
def State.peersWaited (s : State) (core sl : Nat) : List Nat :=
  let fs := (s.crew core sl).going
  if fs.isEmpty || fs.any (fun f => (s.waitPeers core sl f.wait).isEmpty) then [] else (fs.flatMap (fun f => s.waitPeers core sl f.wait)).eraseDups

/-- Whether a crew waits on a peer whose link is recovering (R407). -/
def State.frozenNow (s : State) (core sl : Nat) : Bool := (s.peersWaited core sl).any (fun p => s.peerState p = 1)

/-- Octets of lanes that a fragment fills (R22). -/
def octets (m : BitVec 32) : Nat := ((List.range 4).filter (fun i => m.extractLsb' (8 * i) 8 ≠ 0)).length

/-- Requests of a crew whose answers come from afar (R36): loads that miss L1 or read a gang-mate or a peer, atomics, and requests to other
cores and to peers. -/
def State.farIds (s : State) (core sl : Nat) : List Nat :=
  let w := s.crew core sl
  let far (p : PLane) : Bool := match p.place with
    | .mem l attr _ => attr = attrAtomic || ((s.core core).l1Find (l / 32) (s.crewTag core sl)).isNone
    | .pad _ _ => !p.inPlace
    | .die _ => false
    | .peer _ _ => true
  (w.loads.filter (fun q => q.lanes.any far)).map PLoad.id ++ w.atoms.map PAtom.id
    ++ ((s.core core).remq.filter (fun r => r.slot = sl)).map RemReq.id
    ++ (s.peerOut.filter (fun r => r.core = core && r.slot = sl)).map PeerReq.id

/-- Whether a wait of a crew is a long-latency dependence (R36, R330). A store that waits for its counters is none (R401), nor is a wait for
a special-function result, an array operation, a claim or an L1 hit. -/
def State.longLatency (s : State) (core sl : Nat) (x : Wait) : Bool :=
  let w := s.crew core sl
  let far := s.farIds core sl
  let miss := w.loads.any (fun q => far.contains q.id)
  match x with
  | .operands ids => ids.any far.contains
  | .loads => miss
  | .fence sc => miss || (2 ≤ sc && w.ackCl ≠ 0) || (3 ≤ sc && w.ackDv ≠ 0) || (4 ≤ sc && w.ackSy ≠ 0)
  | .answers => miss || w.ackDv ≠ 0 || w.ackSy ≠ 0
  | .ringFree _ => true
  | .ringTake _ => true
  | .batch _ => true
  | .sealLimit => true
  | .copyFull => true
  | .barw _ _ => true
  | .gbar => true
  | .conv _ => true
  | .syncm => true
  | .region => true
  | .grow => true
  | .sfuFull => true
  | .recordSlot => true
  | .peer _ _ => true
  | .counters _ _ _ => true
  | .release _ => true
  | .ownx _ => true
  | .flush _ _ _ => true
  | _ => false

/-- Whether one crew is older than another of its core: its group first, then the lower number; a handler comes first (R36, R376). -/
def State.olderCrew (s : State) (core a b : Nat) : Bool :=
  let x := s.crew core a
  let y := s.crew core b
  let p := (s.group x.group).lseq
  let q := (s.group y.group).lseq
  if a = 32 || b = 32 then a = 32 && b ≠ 32 else olderSeq p q || (p = q && decide (x.no < y.no))

/-- The crews of a core in its peloton, the handler's own place apart. -/
def Core.pelotonSlots (k : Core) : List Nat := (k.slots.filter (fun e => e.2.peloton && e.1 < 32)).map Prod.fst

/-- The ready crew of the grupetto that has been ready longest (R330). -/
def State.nextIn (s : State) (core : Nat) : Option Nat :=
  ((s.core core).slots.filter (fun e => !e.2.peloton && e.1 < 32 && s.crewReady core e.1)).foldl
    (fun (b : Option Nat) e => match b with
      | none => some e.1
      | some x => if e.2.since < (s.crew core x).since then some e.1 else some x) none

/-- One crew leaves the peloton and a ready one enters, over 16 cycles (R330, R403). -/
def State.exchange (s : State) (core out : Nat) : State :=
  match s.nextIn core with
  | none => s
  | some x =>
    let s := s.modCrew core out (fun w => { (w.countEv 3 1) with peloton := false, since := s.cycle })
    s.modCrew core x (fun w => { w with peloton := true, since := s.cycle + 16 })

/-- Whether a crew of the peloton has met a long-latency dependence (R36). -/
def State.longWait (s : State) (core sl : Nat) : Bool :=
  let w := s.crew core sl
  !s.crewReady core sl && (List.range 32).any (fun l => (w.fibre l).live && s.longLatency core sl (w.fibre l).wait)

/-- The oldest crew of a core's peloton. -/
def State.oldestIn (s : State) (core : Nat) : Option Nat :=
  (s.core core).pelotonSlots.foldl (fun b x => match b with
    | none => some x
    | some y => if s.olderCrew core x y then some x else some y) none

/-- A crew after some cycles: its watchdog and the event counters of waits (R403, R406, R409). `halt` says that its group is to halt, where
one that waits counts as halted (R393). -/
def Crew.passed (w : Crew) (n : Nat) (halt : Bool) : Crew :=
  let fs := ((List.range 32).map w.fibre).filter Fibre.live
  let still := w.halted || w.stopped || w.frozen.isSome || fs.all (fun f => f.wait.isTrap) || (halt && w.haltDone)
  let sfu := fs.any (fun f => f.wait = .sfuFull)
  let meet := fs.any (fun f => match f.wait with
    | .conv _ => true
    | .syncm => true
    | .barw _ _ => true
    | .gbar => true
    | _ => false)
  let w := if still then w else { w with wdog := if 2 ^ 32 < w.wdog + n then 2 ^ 32 else w.wdog + n }
  let w := if sfu then w.countEv 7 n else w
  if meet then w.countEv 10 n else w

/-- What a sample of a crew holds (R411, R413). -/
def State.sampleOf (s : State) (core sl : Nat) : Nat × Nat × Nat × BitVec 32 × Bool :=
  let w := s.crew core sl
  (sl, (w.fibre (lowestLane w.liveMask)).pc.toNat, w.iss, w.liveMask, s.longWait core sl)

/-- The samples that a core takes as the device passes from one cycle to another: for each multiple of its period one of the crew that
issued, else of the oldest crew of its peloton (R413). -/
def State.samplesOf (s : State) (core : Nat) (to_ : Nat) (who : Option (Nat × Nat)) : List (Nat × Nat × Nat × BitVec 32 × Bool) :=
  let p := (s.core core).samplePeriod.toNat
  if p = 0 then []
  else
    let sl := match who with
      | some x => if x.1 = core then some x.2 else s.oldestIn core
      | none => s.oldestIn core
    match sl with
    | none => []
    | some x => List.replicate (to_ / 2 ^ p - s.cycle / 2 ^ p) (s.sampleOf core x)

/-- Some cycles pass in which a crew issues, or none (R404, R406, R413). -/
def State.tickFor (s : State) (n : Nat) (who : Option (Nat × Nat)) : State :=
  let t := s.advance n
  { t with cores := t.cores.map (fun e => (e.1, { e.2 with
      slots := e.2.slots.map (fun x => (x.1, x.2.passed n (x.1 < 32 && (t.group x.2.group).haltReq)))
      samples := e.2.samples ++ s.samplesOf e.1 t.cycle who })) }

/-- Some cycles pass (R404, R406, R413). -/
def State.tick (s : State) (n : Nat) : State := s.tickFor n none

/-- The peloton of a core settles: free places are filled at once, and a crew with a long-latency dependence makes way for a
ready one (R36, R330). A grupetto crew that is not ready begins to be ready later. -/
def State.peloton (s : State) (core : Nat) : State :=
  let s := s.modCore core (fun k => { k with slots := k.slots.map (fun e =>
    if !e.2.peloton && !s.crewReady core e.1 then (e.1, { e.2 with since := s.cycle }) else e) })
  let s := s.each (List.range (8 - (s.core core).pelotonSlots.length)) (fun s _ =>
    match s.nextIn core with
    | some x => s.modCrew core x (fun w => { w with peloton := true, since := s.cycle })
    | none => s)
  s.each (s.core core).pelotonSlots (fun s sl => if s.longWait core sl then s.exchange core sl else s)

/-- A trap that waits for its record slot writes its record once the slot is free (R374). -/
def State.retryTraps (s : State) (core : Nat) : State :=
  s.each (s.core core).traps (fun s t =>
    match s.recordSlot (s.crewCtx core t.slot) with
    | .full => s
    | .bad => (s.modCore core (fun k => { k with traps := k.traps.erase t })).writeTrap core t
    | .at_ _ _ => (s.modCore core (fun k => { k with traps := k.traps.erase t })).writeTrap core t)

/-- What settles by itself in a crew: meetings that are complete, a held migration, a freeze (R25, R31, R41, R292, R407). -/
def State.settleCrew (s : State) (core sl : Nat) : State :=
  let s := (s.trySync core sl).tryRegion core sl
  let w := s.crew core sl
  let held := match w.heldBy with
    | some h => let out := s.flushIds h.1 h.2.1; if h.2.2.any (fun i => out.contains i) then w.heldBy else none
    | none => none
  let frozen := if s.frozenNow core sl then some (w.frozen.getD s.timeNs) else none
  if held = w.heldBy && frozen = w.frozen then s
  else
    let s := match w.heldBy, held with
      | some h, none => s.ctxInvalidate h.1 h.2.1
      | _, _ => s
    s.modCrew core sl (fun w => { w with heldBy := held, frozen := frozen })

/-- The error records that a home's own reads have called for are written (R259, R263). -/
def State.logDue (s : State) : State :=
  if s.errDue.isEmpty then s else { (s.each s.errDue (fun s r => s.logErr r)) with errDue := [] }

/-- What settles by itself after every step: convergence registers, barriers of gangs, crews, traps that wait, the pelotons, updates
that wait at the homes, device writes and releases that wait for blocks, and pre-emptions. -/
def State.settle (s : State) : State :=
  let s := s.each s.groups (fun s e =>
    let s := s.each e.2.cvs (fun s v => s.tryConv e.2.core e.1 v.1)
    if (s.groupSlots e.1).any (fun sl => (s.crew e.2.core sl).waiting (fun x => x = .gbar) ≠ 0) then s.tryGbar e.1 else s)
  let s := s.each (s.cores.flatMap (fun k => k.2.slots.map (fun e => (k.1, e.1)))) (fun s e =>
    if (s.crew? e.1 e.2).isSome then s.settleCrew e.1 e.2 else s)
  let s := s.each (s.cores.map Prod.fst) (fun s k => ((s.retryTraps k).blockedNow k).peloton k)
  let s := if s.hwait.isEmpty then s else s.admitWaiting
  let s := if s.heldWrites.isEmpty then s else s.flushHeld s.heldWrites.length
  let s := s.each ((s.clusters.filter (fun c => c.2.rels.any (fun r => !r.numbered))).map Prod.fst) (fun s k => s.numberRels k)
  s.logDue.preemptChecks

/-- Fibres whose wait still lasts become ready later (R23). -/
def State.ageWaits (s : State) (core sl : Nat) : State :=
  match s.crew? core sl with
  | none => s
  | some w =>
    let m := w.lanesWhere (fun f => f.live && !s.waitOver core sl f)
    if m = 0 then s else s.setCrew core sl (w.modLanes m (fun _ f => { f with readyAt := w.units }))

/-- The rows that share one word are told apart by the value of operand A (R337, R363, R418); a value that names none stays with
the first row. -/
def State.selectForm (s : State) (c : Cur) : Instr :=
  match c.ins with
  | .cntctlEvsel o =>
    match (s.uval c o.a).toNat % 256 with
    | 1 => .cntctlTrmask
    | 2 => .cntctlPclr
    | 3 => .cntctlSample
    | 4 => .cntctlTrlo
    | 5 => .cntctlTrhi
    | 6 => .cntctlTrstart
    | 7 => .cntctlTrstop
    | 8 => .cntctlEclr
    | 9 => .cntctlDstop
    | _ => c.ins
  | .cwaitBatch o =>
    match (s.uval c o.a).toNat / 2 ^ 62 with
    | 1 => .cwaitTake
    | 2 => .cwaitFree
    | _ => c.ins
  | .snapTake o =>
    match (s.uval c o.a).toNat % 8 with
    | 1 => .snapDrop
    | 2 => .snapRollback
    | 3 => .snapShip
    | _ => c.ins
  | _ => c.ins

/-- The crews of a core that may issue, when their operands are there: ready, in the peloton, their exchange over (R36). -/
def State.contenders (s : State) (core : Nat) : List Nat :=
  ((s.core core).slots.filter (fun e => e.2.peloton && decide (e.2.since ≤ s.cycle) && s.crewReady core e.1)).map Prod.fst

/-- The crew of a core that issues next: of those whose operands are there the handler first, then the oldest (R36, R146). -/
def State.nextIssue (s : State) (core : Nat) : Option Nat :=
  ((s.contenders core).filter (fun x => decide ((s.crew core x).busyTo ≤ s.cycle))).foldl (fun b x => match b with
    | none => some x
    | some y => if s.olderCrew core x y then some x else some y) none

/-- The cycles until the first crew of the device that has something to issue has its operands; 1 where there is none (R146). -/
def State.untilIssue (s : State) : Nat :=
  ((s.cores.flatMap (fun k => (s.contenders k.1).map (fun sl => (s.crew k.1 sl).busyTo - s.cycle))).filter (fun n => 0 < n)).foldl
    (fun b n => if b = 0 || n < b then n else b) 0 |> fun n => if n = 0 then 1 else n

end Sys2Proof.Machine
end

