-- ==== Sys2Proof/Machine/CoreEv.lean ====
section
/-! DEFINITION. The steps of a core beside its issues: the peloton, handlers, results that arrive, copies, grows, time limits, counters
and traces (R36, R66, R135, R136, R161, R212, R300, R332 to R339, R357, R376, R377, R393, R405 to R414). -/

namespace Sys2Proof.Machine

/-- Cycles that a crew stays in the peloton before it may be displaced (R36). -/
def rotateAfter : Nat := 96

/-- The crew of a core that rotation displaces: it has stayed its time, stands outside a prefix unit, and entered earliest (R36). -/
def State.rotateOut (s : State) (core : Nat) : Option Nat :=
  if (s.nextIn core).isNone then none
  else ((s.core core).slots.filter (fun e => e.2.peloton && e.1 < 32 && e.2.unit.isNone && decide (e.2.since + rotateAfter ≤ s.cycle))).foldl
    (fun (b : Option Nat) e => match b with
      | none => some e.1
      | some x => if e.2.since < (s.crew core x).since then some e.1 else some x) none

/-- ROTATION (R36). -/
def execRotation (s : State) : Host.Outcome State Fault Refusal :=
  match s.rotateOut s.ev.core with
  | none => .next s
  | some x => .next (s.exchange s.ev.core x)

/-- The crew of a handler as it starts (R376). -/
def handlerCrew (s : State) (core : Nat) (h : HandlerReq) : Crew :=
  let pc := (s.ctx h.ctx).tvec.setWidth 57
  let f : Fibre := { st := .live, pc := pc, restart := pc - 4 }
  { role := .vector, group := h.group, sys := true, vgran := 1, peloton := true, since := s.cycle
    fibres := (List.range 32).map (fun l => (l, f))
    s := Tab.set (Tab.set (Tab.set [] {} 0 { val := BitVec.ofNat 64 h.record }) {} 1 { val := h.info }) {} 2 { val := BitVec.ofNat 64 h.index }
    record := h.record, recNo := h.index, trapSlot := h.slot, atomSeq := s.firstSeq core 32 }

/-- HANDLER_START (R376, R377, R378): the oldest queued handler of a core starts once the handler slot is free and the device's writes of its record are made. A vector that has been
cleared meanwhile fails the node, with the cause of the record. -/
def execHandlerStart (s : State) : Host.Outcome State Fault Refusal :=
  let core := s.ev.core
  if (s.crew? core 32).isSome || !s.heldWrites.isEmpty then .next s
  else match (s.core core).handlers with
    | [] => .next s
    | h :: rest =>
      let s := s.modCore core (fun k => { k with handlers := rest })
      if (s.ctx h.ctx).tvec = 0 then
        let s := s.devTouch h.ctx h.record 2
        let f := match s.devRead h.ctx h.record 2 with
          | some b => faultOf (b.getD 0 0).toNat (b.getD 1 0).toNat
          | none => faultOf 18 0
        .next (s.failTrap core h.slot f { s.recordCtx core h.slot with unh := true })
      else .next ((s.dropRecord core h.ctx h.record).setCrew core 32 (handlerCrew s core h))

/-- ARRAY_OPERATION_COMPLETE (R212): the oldest operation of a core's array. -/
def execArrayOperationComplete (s : State) : Host.Outcome State Fault Refusal :=
  match (s.core s.ev.core).arr with
  | [] => .next s
  | q :: _ => .next (s.arrDone s.ev.core q)

/-- Whether a crew stands inside a prefix unit that the replay of a queue entry may not split (R103). A unit whose instruction waits for
the queue, whose entries are `ids`, has had no effect, and would wait for ever: it gives way (DESIGN CHOICE, log 33). -/
def Crew.inUnit (w : Crew) (ids : List Nat) : Bool :=
  match w.unit with
  | none => false
  | some u => match (w.fibre (lowestLane u.lanes)).wait with
    | .operands xs => !xs.any ids.contains
    | .sfuFull => false
    | .flags => false
    | _ => true

/-- The fragment of a queue entry as it issued (R161). -/
def SfuOp.cur (q : SfuOp) (core : Nat) : Cur :=
  { core := core, slot := q.slot, lanes := q.lanes, pc := q.pc, word := q.word, ins := .hintNop, rep := q.rep }

/-- SPECIAL_FUNCTION_COMPLETE (R66, R161): the oldest entry of a core's queue writes the registers that its lanes named at issue, and
its flags; a parity error in the entry, `flag`, is a replay of its fragment (R44), which waits for the end of a prefix unit. DESIGN
CHOICE (log 33): the spec does not say what becomes of an entry in error some of whose lanes have exited since issue; the replay is
of the lanes that live, an exited lane's result is dropped unwritten, and an entry with no lane left goes without a record. -/
def execSpecialFunctionComplete (s : State) : Host.Outcome State Fault Refusal :=
  let core := s.ev.core
  match (s.core core).sfu with
  | [] => .next s
  | q :: rest =>
    if s.ev.flag && (s.crew core q.slot).inUnit ((s.core core).sfu.map SfuOp.id) then .next s
    else
      let s := s.modCore core (fun k => { k with sfu := rest })
      if s.ev.flag then .next (if q.lanes = 0 then s else s.replay (q.cur core))
      else .next (s.modCrew core q.slot (fun w =>
        { (q.results.foldl (fun (w : Crew) r => w.setVreg r.1 r.2.1 r.2.2) w) with fflags := w.fflags ||| q.flags }))

/-- The destination elements of so many lanes of a load. -/
def LoadKind.elements (k : LoadKind) (n : Nat) : Nat :=
  match k with
  | .quad => 2 * n
  | .uniform _ => min n 1
  | .plain _ _ => n
  | .acquire _ => n
  | .nocache => n

/-- The elements that a peer would have supplied to a load are delivered poisoned, each with a record; an acquiring load then acquires (R302,
R408, R438). No channel of this device held them: the records name channel 0 of stack 0 (DESIGN CHOICE, log 33). -/
def State.poisonLoad (s : State) (core sl : Nat) (q : PLoad) (p : Nat) : State :=
  let hit (x : PLane) : Bool := match x.place with
    | .peer n _ => n = p
    | .mem _ _ _ => false
    | .pad _ _ => false
    | .die _ => false
  let e : Elem := { val := BitVec.allOnes 64, poison := true }
  let s := s.each (q.lanes.filter hit) (fun s x => s.modCrew core sl (fun w => match q.kind with
    | .uniform _ => w.setSreg q.d e
    | .quad => (w.putLate x.lim x.lane x.reg e).putLate x.lim x.lane (x.reg + 1) e
    | .plain _ _ => w.putLate x.lim x.lane x.reg e
    | .acquire _ => w.putLate x.lim x.lane x.reg e
    | .nocache => w.putLate x.lim x.lane x.reg e))
  let rest := q.lanes.filter (fun x => !hit x)
  let s := s.modCrew core sl (fun w => { w with loads :=
    (mapIf (fun x : PLoad => x.id = q.id) (fun x => { x with lanes := rest }) w.loads).filter (fun x => !x.lanes.isEmpty) })
  let t := s.each (List.range (q.kind.elements (q.lanes.filter hit).length)) (fun s _ => s.logErr { level := 0, kind := 2, unit := 0 })
  if rest.isEmpty then t.afterLoad core q.kind else t

/-- The lanes of a load that a peer answers: what the peer holds is a free value (R438). -/
def State.peerLoad (s : State) (core sl : Nat) (q : PLoad) (p : Nat) : State :=
  let hit (x : PLane) : Bool := match x.place with
    | .peer n _ => n = p
    | .mem _ _ _ => false
    | .pad _ _ => false
    | .die _ => false
  let s := s.each (q.lanes.filter hit) (fun s x => s.loadLane core sl q.kind q.d x)
  let rest := q.lanes.filter (fun x => !hit x)
  if rest.isEmpty then (s.modCrew core sl (fun w => { w with loads := w.loads.filter (fun x => x.id ≠ q.id) })).afterLoad core q.kind
  else s.modCrew core sl (fun w => { w with loads := mapIf (fun x : PLoad => x.id = q.id) (fun x => { x with lanes := rest }) w.loads })

/-- Whether a lane of a load asks a home that moves: it asks again after the move (R352). -/
def State.loadMoves (s : State) (core sl : Nat) (q : PLoad) : Bool :=
  q.lanes.any (fun x => match x.place with
    | .mem l _ _ => s.moving (l / 32) && ((s.core core).l1Find (l / 32) (s.crewTag core sl)).isNone
    | .pad _ _ => false
    | .die _ => false
    | .peer _ _ => false)

/-- LOAD_DATA_RETURN (R269, R300, R352, R438): the oldest load of a crew is performed. A peer's lanes wait while the peer recovers, and
those of a page whose home moves until it has moved; `flag` says that the peer has revoked its window. -/
def execLoadDataReturn (s : State) : Host.Outcome State Fault Refusal :=
  let core := s.ev.core
  let sl := s.ev.slot
  match (s.crew core sl).loads with
  | [] => .next s
  | q :: _ =>
    if q.lanes.any (fun x => match x.place with
        | .peer _ _ => false
        | .mem _ _ _ => true
        | .pad _ _ => true
        | .die _ => true) then .next (if s.loadMoves core sl q then s else s.performLoad core sl q)
    else match q.peers.find? (fun p => s.peerState p ≠ 1) with
      | none => .next s
      | some p => .next (if s.ev.flag || s.peerState p = 2 then s.poisonLoad core sl q p else s.peerLoad core sl q p)

/-- Copies of a core in flight at most (R333). -/
def copyPlaces : Nat := 16

/-- The copy of a core that may start. -/
def Core.copyNext (k : Core) : Option Copy :=
  if (k.copies.filter (fun x => x.started)).length < copyPlaces then k.copies.find? (fun x => !x.started) else none

/-- COPY_START (R333). -/
def execCopyStart (s : State) : Host.Outcome State Fault Refusal :=
  match (s.core s.ev.core).copyNext with
  | none => .next s
  | some x => .next (s.startCopy s.ev.core x)

/-- The copies of a core that have pieces to move. -/
def Core.copyLive (k : Core) : List Copy := k.copies.filter (fun x => x.started && x.fail.isNone && decide (x.done < x.total))

/-- COPY_PIECE (R333): one piece of the copy that `idx` counts among those in flight. -/
def execCopyPiece (s : State) : Host.Outcome State Fault Refusal :=
  match (s.core s.ev.core).copyLive[s.ev.idx]? with
  | none => .next s
  | some x => .next (s.copyPiece s.ev.core x)

/-- The copy of a core that is at its end: every piece moved, or failed, and no write on its way. -/
def Core.copyOver (k : Core) : Option Copy :=
  k.copies.find? (fun x => x.started && x.out = 0 && (x.fail.isSome || decide (x.total ≤ x.done)))

/-- COPY_COMPLETE (R332, R333, R336). -/
def execCopyComplete (s : State) : Host.Outcome State Fault Refusal :=
  match (s.core s.ev.core).copyOver with
  | none => .next s
  | some x => .next (s.endCopy s.ev.core x)

/-- The copy of a core whose claim has been asked for too long (R333). -/
def State.copyLate (s : State) (core : Nat) : Option Copy :=
  (s.core core).copies.find? (fun x => x.fail.isNone && (match x.since with
    | some t => decide (t + waitLimit ≤ s.cycle)
    | none => false))

/-- COPY_CLAIM_TIMEOUT (R333). -/
def execCopyClaimTimeout (s : State) : Host.Outcome State Fault Refusal :=
  let core := s.ev.core
  match s.copyLate core with
  | none => .next s
  | some x =>
    let s := s.failCopy core x.id { cause := 3, addr := x.claimAddr } false
    let others := (s.core core).copies.any (fun y => y.id ≠ x.id && y.since.isSome && y.fail.isNone)
    .next (if others then s else s.modCluster (clusterOf core) (fun q => { q with claims := q.claims.filter (fun r => !(r.core = core && r.slot = engineSlot)) }))

/-- The lanes of a crew that wait for a reason that has lasted too long. -/
def State.lateLanes (s : State) (core sl : Nat) (since : Wait → Option Nat) : BitVec 32 :=
  (s.crew core sl).waiting (fun x => match since x with
    | some t => decide (t + waitLimit ≤ s.cycle)
    | none => false)

/-- When an OWNX began. -/
def Wait.ownxSince (x : Wait) : Option Nat :=
  match x with
  | .ownx t => Option.some t
  | _ => Option.none

/-- When a HALTG began. -/
def Wait.haltSince (x : Wait) : Option Nat :=
  match x with
  | .halt _ t => Option.some t
  | _ => Option.none

/-- OWNX_TIMEOUT (R357): the wait ends with status 2. -/
def execOwnxTimeout (s : State) : Host.Outcome State Fault Refusal :=
  let core := s.ev.core
  let sl := s.ev.slot
  let m := s.lateLanes core sl Wait.ownxSince
  if m = 0 then .next s
  else
    let c := s.curAt core sl m
    match decodeWord c.word with
    | .ok (.ownx o) => .next (s.ownxGo c o)
    | _ => .next s

/-- HALTG_TIMEOUT (R393): status 3; the request stays in effect. -/
def execHaltgTimeout (s : State) : Host.Outcome State Fault Refusal :=
  let core := s.ev.core
  let sl := s.ev.slot
  let m := s.lateLanes core sl Wait.haltSince
  if m = 0 then .next s
  else
    let c := s.curAt core sl m
    match decodeWord c.word with
    | .ok (.haltg o) => .next (s.status c o.d (s.act c o.g) 3)
    | _ => .next s

/-- A request ends: the REGG or ACCG that waits for it is performed, with its status (R135, R191, R232). -/
def State.finishGrow (s : State) (core : Nat) (r : GrowReq) (st : Nat) : State :=
  let s := s.modCore core (fun k => { k with grows := k.grows.erase r })
  let m := (s.crew core r.slot).waiting (fun x => x = .grow) &&& r.lanes
  if m = 0 then s
  else
    let c := s.curAt core r.slot m
    let to_ := match decodeWord c.word with
      | .ok (.accg o) => s.act c o.g
      | _ => m
    s.putU c false r.d to_ (BitVec.ofNat 64 st) { swap := true }

/-- GROW_GRANT (R135): the oldest request of a core, once it fits in full. -/
def execGrowGrant (s : State) : Host.Outcome State Fault Refusal :=
  let core := s.ev.core
  match s.firstGrow core with
  | none => .next s
  | some r => match s.grantOf core r with
    | none => .next s
    | some t => .next (t.finishGrow core r 0)

/-- The pending request of the youngest group that has one; of several, that of the crew of the highest number (R136): DESIGN CHOICE,
log 33, for the rule does not say which. -/
def State.lastGrow (s : State) (core : Nat) : Option GrowReq :=
  (s.core core).grows.foldl (fun b r => match b with
    | none => some r
    | some x => if s.growBefore core x r then some r else some x) none

/-- Cycles that every group of a core must be blocked (R136). -/
def blockedLimit : Nat := 1024

/-- GROW_DEADLOCK_BREAK (R136). -/
def execGrowDeadlockBreak (s : State) : Host.Outcome State Fault Refusal :=
  let core := s.ev.core
  match (s.core core).blocked, s.lastGrow core with
  | some t, some r => if t + blockedLimit ≤ s.cycle then .next (s.finishGrow core r 1) else .next s
  | _, _ => .next s

/-- PROG_APPLY (R405): the oldest increment of a crew. -/
def execProgApply (s : State) : Host.Outcome State Fault Refusal :=
  let core := s.ev.core
  let sl := s.ev.slot
  match (s.crew core sl).progs with
  | [] => .next s
  | p :: rest =>
    let s := s.modCtx (s.crewCtx core sl) (fun x => { x with prog := Tab.set x.prog 0 p.1 (Tab.get x.prog 0 p.1 + p.2) })
    .next (s.modCrew core sl (fun w => { w with progs := rest }))

/-- SAMPLE (R411, R413): the record of the oldest sample that a core has taken, of a crew that has not ended since. -/
def execSampleTick (s : State) : Host.Outcome State Fault Refusal :=
  let core := s.ev.core
  match (s.core core).samples with
  | [] => .next s
  | (sl, pc, iss, lanes, long) :: rest =>
    let s := s.modCore core (fun k => { k with samples := rest })
    if (s.crew? core sl).isNone then .next s
    else .next (s.trace core sl 4 (BitVec.ofNat 57 pc) iss lanes (if long then 1 else 0) 0)

/-- TRIAL_END (R414). -/
def execTrialEnd (s : State) : Host.Outcome State Fault Refusal :=
  match s.trial.endAt with
  | none => .next s
  | some t => if s.trial.active && decide (t ≤ s.cycle) then .next { s with trial := { s.trial with active := false, endAt := none } } else .next s

/-- WATCHDOG_HANG (R409): a crew that has passed 2^32 cycles without a retirement is hung, and its node fails. -/
def execWatchdogHang (s : State) : Host.Outcome State Fault Refusal :=
  let core := s.ev.core
  let sl := s.ev.slot
  let w := s.crew core sl
  if (s.crew? core sl).isSome && decide (2 ^ 32 ≤ w.wdog) then
    let lid := s.crewLid core sl
    .next ((s.nodeEvent lid { cause := 16, detail := 0x10000, lanes := w.visMask w.liveMask }
      { s.recordCtx core sl with handler := w.sys, rb := true, pc := w.lastPc }).failNode lid 2)
  else .next s

/-- The peer-unavailable outcome for what is asked of a peer (R408, R439): copies, by core and identifier, fail; loads, by core and slot, are
delivered poisoned; requests count as refused. -/
def State.peerLost (s : State) (p : Nat) (copies : List (Nat × Nat)) (loads : List (Nat × Nat × PLoad)) (reqs : List PeerReq) : State :=
  let s := s.each copies (fun s e => s.failCopy e.1 e.2 { cause := 2, sub := 9 } true)
  let s := s.each loads (fun s e => s.poisonLoad e.1 e.2.1 e.2.2 p)
  s.each reqs (fun s r => s.refusePeer r)

/-- The copies of the batch that a wait is for, the loads and the requests, as far as a peer is to answer them (R407, R408). -/
def State.awaited (s : State) (core sl p : Nat) (x : Wait) : List (Nat × Nat) × List (Nat × Nat × PLoad) × List PeerReq :=
  let loads (ok : PLoad → Bool) : List (Nat × Nat × PLoad) :=
    ((s.crew core sl).loads.filter (fun q => q.peers.contains p && ok q)).map (fun q => (core, sl, q))
  match x with
  | .batch n => (((s.batchCopies core sl n).filter (fun y => y.kind.peer? = some p)).map (fun y => (core, y.id)), [], [])
  | .operands ids => ([], loads (fun q => ids.contains q.id), [])
  | .loads => ([], loads (fun _ => true), [])
  | .fence sc => ([], loads (fun _ => true),
      if sc = 4 then s.peerOut.filter (fun r => r.core = core && r.slot = sl && r.sy && r.peer = p) else [])
  | _ => ([], [], [])

/-- The peer-unavailable outcome for everything that a crew waits for from a peer (R408); an RPUT ends when it looks again. -/
def State.peerGone (s : State) (core sl p : Nat) : State :=
  let xs := (s.crew core sl).going.map (fun f => s.awaited core sl p f.wait)
  s.peerLost p (xs.flatMap (fun x => x.1)).eraseDups (xs.flatMap (fun x => x.2.1)).eraseDups (xs.flatMap (fun x => x.2.2)).eraseDups

/-- PEER_UNAVAILABLE (R407, R408): a freeze of 2 s ends the wait. -/
def execPeerUnavailable (s : State) : Host.Outcome State Fault Refusal :=
  let core := s.ev.core
  let sl := s.ev.slot
  match (s.crew core sl).frozen with
  | none => .next s
  | some t =>
    if t + peerLimit ≤ s.timeNs then
      let ps := (s.peersWaited core sl).filter (fun p => s.peerState p = 1)
      let s := s.each ps (fun s p => s.peerGone core sl p)
      .next (s.modCrew core sl (fun w => w.modLanes w.liveMask (fun _ f => match f.wait with
        | .peer p _ => { f with wait := .peer p 0 }
        | _ => f)))
    else .next s

/-- A link port. -/
def State.port (s : State) (i : Nat) : Port := Tab.get s.ports {} i

/-- A link port changed. -/
def State.setPort (s : State) (i : Nat) (p : Port) : State := { s with ports := Tab.set s.ports {} i p }

/-- Whether a port carries traffic. -/
def PortState.runs (x : PortState) : Bool :=
  match x with
  | .up => true
  | .half => true
  | .recovering _ => false
  | .failed => false

/-- A failed peer completes everything that is asked of it at once as peer-unavailable (R408, R439). -/
def State.peerFailed (s : State) (p : Nat) : State :=
  s.peerLost p
    (s.cores.flatMap (fun k => (k.2.copies.filter (fun x => x.fail.isNone && x.kind.peer? = some p)).map (fun x => (k.1, x.id))))
    (s.cores.flatMap (fun k => k.2.slots.flatMap (fun e => (e.2.loads.filter (fun q => q.peers.contains p)).map (fun q => (k.1, e.1, q)))))
    (s.peerOut.filter (fun r => r.peer = p))

/-- A port fails; the peers that it leaves without a port have failed (R434, R439). -/
def State.portDown (s : State) (i : Nat) : State :=
  let s := s.setPort i { (s.port i) with st := .failed }
  s.each ((s.peers.filter (fun e => e.2.ports.contains i && s.peerState e.1 = 2)).map Prod.fst) (fun s p => s.peerFailed p)

/-- A port whose partner is not the device that the peer table names is failed and logged (R441). -/
def State.wrongPartner (s : State) (i : Nat) : State := (s.logErr { level := 9, kind := 8, unit := i }).portDown i

end Sys2Proof.Machine
end

