-- ==== Sys2Proof/Machine/Hash.lean ====
section
/-! DEFINITION. The functions that the manual names and does not tabulate: SHA-256, the verification of RSASSA-PSS signatures with it, and
the CRC-64 of link flits (R396, R430, R433; log 18). -/

namespace Sys2Proof.Machine

/-- The primes below a bound. -/
def primesBelow (n : Nat) : List Nat :=
  (List.range n).filter (fun p => decide (2 ≤ p) && (List.range p).all (fun q => decide (q < 2) || p % q ≠ 0))

/-- The greatest `r` with `r ^ k` at most `x`, whose lower `b` bits are still to find, from a lower bound `r`. -/
def rootFrom (k x : Nat) : Nat → Nat → Nat
  | 0, r => r
  | b + 1, r => rootFrom k x b (if (r + 2 ^ b) ^ k ≤ x then r + 2 ^ b else r)

/-- The first 32 bits of the fraction of the `k`-th root of a prime below 512. -/
def rootFraction (k p : Nat) : BitVec 32 := BitVec.ofNat 32 (rootFrom k (p * 2 ^ (32 * k)) 37 0)

/-- What each round of SHA-256 adds: the fractions of the cube roots of the first 64 primes. -/
def roundAdds : List (BitVec 32) := (primesBelow 312).map (rootFraction 3)

/-- Where SHA-256 begins: the fractions of the square roots of the first 8 primes. -/
def digestStart : List (BitVec 32) := (primesBelow 20).map (rootFraction 2)

/-- The `n` big-endian bytes of a number. -/
def beBytes (n v : Nat) : List Byte := (List.range n).map (fun i => BitVec.ofNat 8 (v / 256 ^ (n - 1 - i)))

/-- The number that big-endian bytes hold. -/
def beNat (bs : List Byte) : Nat := bs.foldl (fun a b => a * 256 + b.toNat) 0

/-- The exclusive or of some rotations of a word. -/
def turns (x : BitVec 32) (ns : List Nat) : BitVec 32 := ns.foldl (fun y n => y ^^^ x.rotateRight n) 0

/-- A digest in the making: its eight words and the next sixteen words of the message schedule. -/
structure Digest where
  words : List (BitVec 32)
  window : List (BitVec 32)

/-- One round with its constant: the schedule moves on by a word, and the words by a place. -/
def Digest.round (h : Digest) (k : BitVec 32) : Digest :=
  let at_ (i : Nat) : BitVec 32 := h.words.getD i 0
  let m (i : Nat) : BitVec 32 := h.window.getD i 0
  let pick := at_ 6 ^^^ (at_ 4 &&& (at_ 5 ^^^ at_ 6))
  let most := (at_ 0 &&& at_ 1) ||| (at_ 2 &&& (at_ 0 ||| at_ 1))
  let up := m 0 + k + at_ 7 + pick + turns (at_ 4) [6, 11, 25]
  let next := m 0 + m 9 + (turns (m 1) [7, 18] ^^^ m 1 >>> 3) + (turns (m 14) [17, 19] ^^^ m 14 >>> 10)
  { words := (up + most + turns (at_ 0) [2, 13, 22]) :: (h.words.take 7).set 3 (at_ 3 + up)
    window := h.window.drop 1 ++ [next] }

/-- The words of a digest after a block of 64 bytes. -/
def digestBlock (ws : List (BitVec 32)) (blk : List Byte) : List (BitVec 32) :=
  let win := (List.range 16).map (fun i => BitVec.ofNat 32 (beNat ((blk.drop (4 * i)).take 4)))
  List.zipWith (fun x y => x + y) ws (roundAdds.foldl Digest.round { words := ws, window := win }).words

/-- The words of a digest after `n` blocks. -/
def digestBlocks : Nat → List (BitVec 32) → List Byte → List (BitVec 32)
  | 0, ws, _ => ws
  | n + 1, ws, bs => digestBlocks n (digestBlock ws (bs.take 64)) (bs.drop 64)

/-- A message with the padding of SHA-256: the bit 1, zeros, and its length in bits. -/
def padded (bs : List Byte) : List Byte :=
  bs ++ 0x80#8 :: List.replicate ((119 - bs.length % 64) % 64) 0#8 ++ beBytes 8 (8 * bs.length)

/-- SHA-256. -/
def sha256 (bs : List Byte) : List Byte :=
  let m := padded bs
  (digestBlocks (m.length / 64) digestStart m).flatMap (fun x => beBytes 4 x.toNat)

/-- MGF1 with SHA-256: `n` digests. -/
def mgf1 (seed : List Byte) (n : Nat) : List Byte := (List.range n).flatMap (fun i => sha256 (seed ++ beBytes 4 i))

/-- `x` to the 2^`n` modulo `m`. -/
def squares (m : Nat) : Nat → Nat → Nat
  | 0, x => x
  | n + 1, x => squares m n (x * x % m)

/-- RSASSA-PSS verification with an RSA-3072 modulus, exponent 65537, SHA-256 and a 32-byte salt (R430). -/
def pssVerify (modulus digest sig : List Byte) : Bool :=
  let n := beNat modulus
  let x := beNat sig
  let em := beBytes 384 (squares n 16 x * x % n)
  let h := (em.drop 351).take 32
  let db := (List.zipWith (fun a b => a ^^^ b) (em.take 351) ((mgf1 h 11).take 351)).mapIdx (fun i b => if i = 0 then b &&& 0x7F#8 else b)
  decide (0 < n) && sig.length = 384 && decide (x < n) && em.getD 383 0 = 0xBC#8 && (em.getD 0 0).toNat < 128
    && (db.take 318).all (fun b => b = 0) && db.getD 318 0 = 1#8
    && sha256 (List.replicate 8 0#8 ++ digest ++ (db.drop 319).take 32) = h

/-- One bit of the CRC-64 of ECMA-182. -/
def crcBits : Nat → BitVec 64 → BitVec 64
  | 0, c => c
  | n + 1, c => crcBits n (if c.msb then (c <<< 1) ^^^ 0x42F0E1EBA9EA3693#64 else c <<< 1)

/-- The CRC-64 of ECMA-182 of some bytes: register 0 at the start, most significant bit first (R433). -/
def crc64 (bs : List Byte) : BitVec 64 := bs.foldl (fun c b => crcBits 8 (c ^^^ ((b.setWidth 64 : BitVec 64) <<< (56 : Nat)))) 0

end Sys2Proof.Machine
end

