-- ==== Sys2Proof/Machine/Launch.lean ====
section
/-! DEFINITION. The dispatcher: launch records and entry headers, their checks, the ready entries, the retirement of nodes, and the
records that report them (R51 to R53, R118, R126, R266, R290, R322 to R327, R341, R342, R355). -/

namespace Sys2Proof.Machine

/-- A launch record (R118). -/
structure LRec where
  entry : Nat
  crews : Nat
  width : Nat
  gangw : Nat
  count : Nat
  roles : Nat
  partw : Nat
  vgran : Nat
  mregs : Nat
  acc : Nat
  tiles : Nat
  tandem : Bool
  staged : Bool
  prio : Nat
  xform : Nat
  xcount : Nat
  params : List Nat
  deriving DecidableEq, Repr

/-- `n` little-endian bytes of some bytes from an offset on. -/
def fieldAt (bs : List Byte) (off n : Nat) : Nat := leNat ((bs.drop off).take n)

/-- The fields of a record's bytes (R118). -/
def LRec.read (bs : List Byte) : LRec :=
  let w8 := fieldAt bs 0x08 8
  let w18 := fieldAt bs 0x18 4
  let w1c := fieldAt bs 0x1C 4
  { entry := fieldAt bs 0 8, crews := w8 % 32, width := w8 / 2 ^ 5 % 64, gangw := w8 / 2 ^ 11 % 16, count := w8 / 2 ^ 16 % 2 ^ 32
    roles := fieldAt bs 0x10 4, partw := fieldAt bs 0x14 4, vgran := w18 % 16, mregs := w18 / 2 ^ 4 % 32, acc := w18 / 2 ^ 9 % 64
    tiles := w18 / 2 ^ 15 % 32, tandem := w1c % 2 = 1, staged := w1c / 2 % 2 = 1, prio := w1c / 4 % 8
    xform := fieldAt bs 0x28 8, xcount := fieldAt bs 0x30 1 % 16, params := (List.range 8).map (fun i => fieldAt bs (0x40 + 8 * i) 8) }

/-- The role that a record's ROLES gives a crew (R118): 3 is none. -/
def LRec.role (r : LRec) (c : Nat) : Option Role :=
  match r.roles / 4 ^ c % 4 with
  | 0 => some .copy
  | 1 => some .matrix
  | 2 => some .vector
  | _ => none

/-- VG, SG and AG of a partition word (R126). -/
def partFields (p : Nat) : Nat × Nat × Nat := (p % 128, p / 2 ^ 8 % 128, p / 2 ^ 16 % 128)

/-- Whether a record is accepted (R118, R126). -/
def recordOk (bs : List Byte) : Bool :=
  let r := LRec.read bs
  let p := partFields r.partw
  let w8 := fieldAt bs 0x08 8
  r.entry % 4 = 0 && decide (r.entry < 2 ^ 57) && decide (1 ≤ r.crews) && decide (r.crews ≤ 16) && decide (1 ≤ r.width)
    && decide (r.width ≤ if r.tandem then 16 else 32) && decide (r.gangw ≤ 8) && w8 / 2 ^ 15 % 2 = 0 && w8 / 2 ^ 48 = 0
    && decide (1 ≤ r.count) && (List.range r.crews).all (fun c => (r.role c).isSome)
    && r.partw / 2 ^ 7 % 2 = 0 && r.partw / 2 ^ 15 % 2 = 0 && r.partw / 2 ^ 23 = 0
    && decide (1 ≤ r.vgran) && decide (r.vgran ≤ 8) && decide (r.mregs ≤ 16) && decide (r.acc ≤ 48) && decide (r.tiles ≤ 16)
    && fieldAt bs 0x18 4 / 2 ^ 20 = 0 && fieldAt bs 0x1C 4 / 2 ^ 5 = 0 && fieldAt bs 0x20 8 / 2 ^ 16 = 0
    && fieldAt bs 0x30 8 / 16 = 0 && fieldAt bs 0x38 8 = 0
    && decide (p.1 + p.2.1 + p.2.2 ≤ 96) && decide (r.crews * (r.vgran * 2048 + r.mregs * 9216) ≤ p.1 * 16384)
    && decide (r.tiles * 4480 ≤ p.2.1 * 16384) && decide (r.acc ≤ 48 + p.2.2)

/-- Whether an entry's header is accepted (R323, R325). -/
def State.headerOk (s : State) (e : List Byte) : Bool :=
  let d := fieldAt e 0x80 8
  let n := d / 2 ^ 16 % 8
  let succ (j : Nat) : Nat := fieldAt e (0x88 + 8 * j) 8
  decide (n ≤ 4) && d / 2 ^ 19 = 0
    && (List.range n).all (fun j => succ j / 64 % 4 = 0 && succ j / 2 ^ 40 = 0 && (Tab.get s.lqs ({} : LQueue) (succ j % 64)).en)
    && fieldAt e 0xA8 8 / 2 ^ 11 = 0 && fieldAt e 0xB0 8 / 2 ^ 57 = 0 && fieldAt e 0xB8 8 = 0 && fieldAt e 0xC0 64 = 0

/-- The entries of a queue that the dispatcher may look at, by launch identifier (R325). -/
def State.queueSpan (s : State) (q : Nat) : List Nat :=
  let d : LQueue := Tab.get s.lqs {} q
  let n := (d.tail + 2 ^ 32 - d.head) % 2 ^ 32
  if d.en then (List.range (if n < 256 then n else 256)).map (fun i => q * 2 ^ 32 + (d.head + i) % 2 ^ 32) else []

/-- Every such entry. -/
def State.spans (s : State) : List Nat := s.lqs.flatMap (fun e => s.queueSpan e.1)

/-- The 256 bytes of an entry. -/
def State.entryBytes (s : State) (lid : Nat) : List Byte :=
  let a := s.entryAddr lid
  s.queueRead a.1 a.2.1 a.2.2 256

/-- Examine an entry that has not been examined: it joins the nodes, or is refused with status 1 and its successors are skipped
(R325, R327). -/
def State.examine (s : State) (lid : Nat) : State :=
  let q : LQueue := Tab.get s.lqs {} (lid / 2 ^ 32)
  let e := s.entryBytes lid
  let n : Node := { lid := lid, ctx := q.ctx, recd := e.take 128, succs := succsOf e, nfr := fieldAt e 0xB0 8 }
  let ok := recordOk (e.take 128) && s.headerOk e && decide (fieldAt e 0x20 2 = q.ctx) && (s.ctx q.ctx).valid
  let s := { s with nodes := Tab.put s.nodes lid n }
  if ok then s
  else
    let s := s.reportNode lid 1
    s.skipSuccs s.skipFuel n.succs

/-- DEPCNT of an entry as it stands (R323). -/
def State.depcnt (s : State) (lid : Nat) : Nat := fieldAt (s.entryBytes lid) 0x80 2

/-- Whether a checked entry becomes ready: its predecessors have retired (R325). -/
def State.nowReady (s : State) (lid : Nat) : Bool :=
  (match Tab.find s.nodes lid with
    | some n => n.phase == .waiting
    | none => false) && s.depcnt lid = 0

/-- The least free staging tag (R266, R355). -/
def State.freeTag (s : State) : Option Nat := ((List.range 4095).map (· + 1)).find? (fun t => s.staging t = .free)

/-- The effective priority of a ready node (R325). -/
def State.effPrio (s : State) (n : Node) (since : Nat) : Nat :=
  let p := (LRec.read n.recd).prio + (s.timeNs - since) / 1000000
  if p < 7 then p else 7

/-- When a node became ready. -/
def Node.readyAt (n : Node) : Option Nat :=
  match n.phase with
  | .ready t => some t
  | .waiting => none
  | .running => none
  | .publishing => none
  | .retired => none
  | .completed => none

/-- Whether a node may be dispatched now: its context is valid and not pre-empted, and a staged one finds a staging tag (R266, R325,
R382). -/
def State.dispatchable (s : State) (n : Node) : Bool :=
  n.readyAt.isSome && (s.ctx n.ctx).valid && (s.ctx n.ctx).stage = 0 && (!(LRec.read n.recd).staged || s.freeTag.isSome)
    && (Tab.get s.lqs ({} : LQueue) (n.lid / 2 ^ 32)).en

/-- The ready node that is dispatched next: highest effective priority, then ready first, then lowest queue and entry (R325). -/
def State.nextNode (s : State) : Option Node :=
  let better (a b : Node) : Bool :=
    let x := a.readyAt.getD 0
    let y := b.readyAt.getD 0
    let p := s.effPrio a x
    let q := s.effPrio b y
    decide (q < p) || (p = q && (decide (x < y) || (x = y && decide (a.lid < b.lid))))
  (s.nodes.filter (fun e => s.dispatchable e.2)).foldl (fun (b : Option Node) e => match b with
    | none => some e.2
    | some x => if better e.2 x then some e.2 else some x) none

/-- Dispatch a node: its staging tag, and its groups or gangs behind every group already pending (R266, R325, R329, R355). -/
def State.dispatch (s : State) (n : Node) : State :=
  let r := LRec.read n.recd
  let t := if r.staged then s.freeTag.getD 0 else 0
  let s := if t = 0 then s else { s with stagingT := Tab.set s.stagingT .free t (.running n.lid) }
  let s := s.modNode n.lid (fun n => { n with
    phase := .running, stag := t, left := r.count * (if r.gangw = 0 then 1 else r.gangw), ended := 0, clusters := [], cores := [] })
  { s with pending := s.pending ++ [{ lid := n.lid, count := r.count }] }

/-- The entries that the dispatcher has yet to examine. -/
def State.unseen (s : State) : List Nat := s.spans.filter (fun l => (Tab.find s.nodes l).isNone)

/-- NODE_DISPATCH (R325): the entries of the enabled queues are examined, those without open predecessors become ready, and the best
ready node is dispatched. -/
def execNodeDispatch (s : State) : Host.Outcome State Fault Refusal :=
  if s.phase ≠ 3 && s.phase ≠ 4 then .next s
  else
    let s := s.each s.unseen (fun s l => if (Tab.find s.nodes l).isNone then s.examine l else s)
    let s := s.each (s.spans.filter s.nowReady) (fun s l => s.modNode l (fun n => { n with phase := .ready s.timeNs, readySince := s.timeNs }))
    match s.nextNode with
    | none => .next s
    | some n => .next (s.dispatch n)

/-- Whether the crews of a running node have all ended and every store of theirs has reached an appender or its scratchpad (R51). -/
def State.nodeOver (s : State) (n : Node) : Bool :=
  n.phase == .running && n.left = 0
    && !s.cores.any (fun k => k.2.stq.any (fun q => q.crewLid = n.lid) || k.2.remq.any (fun r => r.lid = n.lid))

/-- Whether every publication of a retiring node has been committed. -/
def State.nodePublished (s : State) (n : Node) : Bool :=
  n.phase == .publishing && !s.clusters.any (fun c => c.2.rels.any (fun r => r.node = some n.lid && !r.committed))
    && !n.clusters.any (fun k => s.underway k n.stag n.lid)

/-- The single commit write of a staged node (R53, R282, R290): one write of the staging table. -/
def State.nodeCommit (s : State) (n : Node) : State :=
  if n.stag = 0 then s
  else
    let s := { s with stagingT := Tab.set s.stagingT .free n.stag (.committed n.lid)
                      homeClaims := s.homeClaims.filter (fun c => c.tag ≠ n.stag) }
    let s := s.each n.clusters (fun s k => s.refreshClaims k)
    let set := ((s.hpend ++ s.hwait).filter (fun u => u.tag = n.stag)).map (fun u => (u.lsec, u.pos))
    s.shipLater [.commit (n.clusters.headD 0) n.stag 0 s.timeNs set]

/-- NODE_RETIREMENT (R51 to R53, R290, R326): the first node whose crews have ended begins its publications, on the clusters that hold
updates of it not yet published (R52); the first whose publications stand commits, decrements its successors and reports. -/
def execNodeRetirement (s : State) : Host.Outcome State Fault Refusal :=
  match (s.nodes.map Prod.snd).find? s.nodePublished with
  | some n =>
    let s := s.nodeCommit n
    let s := s.decrementSuccs n.succs
    let s := s.modClusters (fun c => { c with rels := c.rels.filter (fun r => r.node ≠ some n.lid) })
    .next (s.reportNode n.lid (if n.imprecise then 3 else 0))
  | none => match (s.nodes.map Prod.snd).find? s.nodeOver with
    | none => .next s
    | some n =>
      let s := s.each (n.clusters.filter (fun k => s.unpublished k n.stag n.lid)) (fun s k =>
        (s.beginRelease k n.stag (8 * k) 33 (some n.lid)).1)
      .next (s.modNode n.lid (fun n => { n with phase := .publishing }))

/-- The oldest record of a kind whose queue has room (R342). -/
def State.nextRecord (s : State) (kind : Nat) : Option EvRecord :=
  s.evout.find? (fun e => e.kind = kind && (Tab.get s.eqs ({} : EQueue) e.queue).room)

/-- COMPLETION_RECORD (R325, R326, R342): written, and with it the node has completed. -/
def execCompletionRecord (s : State) : Host.Outcome State Fault Refusal :=
  match s.nextRecord 1 with
  | none => .next s
  | some e =>
    let s := ({ s with evout := s.evout.erase e }).putEvent e
    match e.node with
    | none => .next s
    | some l => .next ((s.modNode l (fun n => { n with phase := .completed })).advanceHead (l / 2 ^ 32) 65536)

/-- NOTIFY_RECORD (R342, R401): written, and the crew's NOTIFY is acknowledged. -/
def execNotifyRecord (s : State) : Host.Outcome State Fault Refusal :=
  match s.nextRecord 2 with
  | none => .next s
  | some e =>
    let s := ({ s with evout := s.evout.erase e }).putEvent e
    match e.crew, e.node with
    | some c, some l =>
      if (s.crew? c.1 c.2).isSome && s.crewLid c.1 c.2 = l then
        .next (s.modCrew c.1 c.2 (fun w => { w with ackSy := w.ackSy - 1 }))
      else .next s
    | _, _ => .next s

/-- Whether a deferred message of an event queue, or of an error log, is due (R341, R343). -/
def State.msixDue (s : State) (q : EQueue) : Bool :=
  q.deferred && (match q.sentAt with
    | some t => decide (t + 64 * q.holdoff ≤ s.timeNs)
    | none => true)

/-- MSIX_HOLDOFF_EXPIRY (R341, R343): of an event queue, or with `kind` 1 of an error log. -/
def execMsixHoldoffExpiry (s : State) : Host.Outcome State Fault Refusal :=
  if s.ev.kind = 1 then
    let q : EQueue := Tab.get s.els {} s.ev.queue
    if s.msixDue q then
      .next { s with msix := s.msix ++ [q.vec], els := Tab.set s.els {} s.ev.queue { q with sentAt := some s.timeNs, deferred := false } }
    else .next s
  else
  let q : EQueue := Tab.get s.eqs {} s.ev.queue
  if s.msixDue q then
    .next { s with msix := s.msix ++ [q.vec], eqs := Tab.set s.eqs {} s.ev.queue { q with sentAt := some s.timeNs, deferred := false } }
  else .next s

end Sys2Proof.Machine
end

