-- ==== Sys2Proof/Machine/Admit.lean ====
section
/-! DEFINITION. The admitter: what a group asks of a core, where it fits, the launch of its crews, and the pending list (R18, R33, R34,
R118 to R126, R239, R276, R289, R329). -/

namespace Sys2Proof.Machine

/-- What a group asks of a core (R33): crew slots, its three runs of granules, accumulators, and for a restored group the granules
that its grows had taken beyond its reservation. -/
structure Need where
  crews : Nat
  vg : Nat
  sg : Nat
  ag : Nat
  acc : Nat
  extra : Nat := 0
  grown : Bool := false
  lid : Nat
  deriving DecidableEq, Repr

/-- Where a group fits on a core. -/
structure Seat where
  vrun : Nat
  srun : Nat
  arun : Nat
  extra : List Nat
  accs : List AccPlace
  slots : List Nat
  deriving DecidableEq, Repr

/-- The need of a launch record (R33, R126). -/
def LRec.need (r : LRec) (lid : Nat) : Need :=
  let p := partFields r.partw
  { crews := r.crews, vg := p.1, sg := p.2.1, ag := p.2.2, acc := r.acc, lid := lid }

/-- The first of `n` free granules in a row. -/
def runAt (free : List Nat) (n : Nat) : Option Nat := (List.range 97).find? (fun x => (runOf x n).all (fun y => free.contains y))

/-- Seats for some runs in turn: the first granule of each, by its index. -/
def seatRuns (free : List Nat) : List (Nat × Nat) → Option (List (Nat × Nat))
  | [] => some []
  | (k, n) :: rest =>
    match runAt free n with
    | none => none
    | some x => match seatRuns (free.filter (fun y => !(runOf x n).contains y)) rest with
      | none => none
      | some l => some ((k, x) :: l)

/-- The three runs of a group among the free granules (R239): some order of placing them finds every placement there is. -/
def seatThree (free : List Nat) (v g a : Nat) : Option (Nat × Nat × Nat) :=
  let x := (0, v)
  let y := (1, g)
  let z := (2, a)
  let at_ (l : List (Nat × Nat)) (k : Nat) : Nat := match l.find? (fun e => e.1 = k) with
    | some e => e.2
    | none => 0
  ([[x, y, z], [x, z, y], [y, x, z], [y, z, x], [z, x, y], [z, y, x]].findSome? (seatRuns free)).map (fun l => (at_ l 0, at_ l 1, at_ l 2))

/-- Whether a node runs, or publishes as it retires (R51). -/
def Node.current (n : Node) : Bool := n.phase == .running || n.phase == .publishing

/-- The staging tags that have or will need a node commit word of a cluster (R289, R355): those of the staged nodes that run or retire and
have run groups there, whose retirement publishes on it too, and of the groups that stand there. -/
def State.clusterTags (s : State) (k : Nat) : List Nat :=
  ((s.groups.filter (fun e => clusterOf e.2.core = k)).map (fun e => (s.node e.2.node).stag)
    ++ (s.nodes.filter (fun e => e.2.current && e.2.clusters.contains k)).map (fun e => e.2.stag)).eraseDups.filter (· ≠ 0)

/-- Where a group fits on a core, if it does (R33, R126, R135, R289, R429). -/
def State.seat (s : State) (core : Nat) (q : Need) : Option Seat :=
  let k := s.core core
  let slots := (List.range 32).filter (fun x => !k.busy.contains x)
  let tags := s.clusterTags (clusterOf core)
  let t := (s.node q.lid).stag
  let tagOk := t = 0 || tags.contains t || decide (tags.length < 4)
  if !s.tilesUp.getLsbD (tileOf core) || slots.length < q.crews || !k.grows.isEmpty || !tagOk then none
  else
    let free := s.freeGranules core
    match seatThree free q.vg q.sg q.ag with
    | none => none
    | some (v, g, a) =>
      let used := runOf v q.vg ++ runOf g q.sg ++ runOf a q.ag
      let rest := free.filter (fun x => !used.contains x)
      let extra := rest.take q.extra
      let room : List AccPlace := (s.freeTiles core).map .store ++ (runOf a q.ag).map .granule
        ++ (if q.grown then (rest.drop q.extra).map .granule else [])
      if extra.length < q.extra || room.length < q.acc then none
      else some { vrun := v, srun := g, arun := a, extra := extra, accs := room.take q.acc, slots := slots.take q.crews }

/-- The scratchpad partition of a new group reads 0, without poison or barrier tags (R124, R239). -/
def Core.clearRun (k : Core) (first n : Nat) : Core :=
  let a := 16384 * first
  let b := 16384 * (first + n)
  { k with
    pool := k.pool.filter (fun e => !(decide (a ≤ e.1) && decide (e.1 < b)))
    poolPoison := k.poolPoison.filter (fun e => !(decide (a ≤ 8 * e.1) && decide (8 * e.1 < b)))
    btags := k.btags.filter (fun e => !(decide (a ≤ 8 * e.1) && decide (8 * e.1 < b))) }

/-- A group takes its seat: its storage, and the admission acquire when it is the first of its node on the core (R33, R276). The
answer names the group. -/
def State.takeSeat (s : State) (core : Nat) (p : Seat) (g : Group) : State × Nat :=
  let i := s.newId
  let n := s.node g.node
  let first := !n.cores.contains core
  let part := partFields g.partw.toNat
  let g := { g with core := core, vgr := runOf p.vrun part.1, sg0 := p.srun, agr := runOf p.arun part.2.2, extraV := p.extra, accPlaces := p.accs }
  let s := { i.2 with groups := Tab.put i.2.groups i.1 g }
  let s := s.modNode g.node (fun n => { n with
    cores := if first then core :: n.cores else n.cores
    clusters := if n.clusters.contains (clusterOf core) then n.clusters else n.clusters ++ [clusterOf core] })
  let s := s.modCore core (fun k => k.clearRun p.srun part.2.1)
  (if first then s.admitAcquire core n.ctx else s, i.1)

/-- The initial fibres of a crew: one in every slot below the launched width, both lanes of a pair in tandem mode (R18, R47). -/
def LRec.fibres (r : LRec) : Tab Fibre :=
  let pc := BitVec.ofNat 57 r.entry
  (List.range (if r.tandem then 2 * r.width else r.width)).map (fun l => (l, { st := .live, pc := pc, restart := pc - 4 }))

/-- A crew as it launches (R18, R118, R120, R122, R129). -/
def LRec.crew (r : LRec) (g c cycle seq : Nat) : Crew :=
  { role := (r.role c).getD .vector, no := c, group := g, tandem := r.tandem, vgran := r.vgran, mregs := r.mregs, fibres := r.fibres
    s := r.params.zipIdx.foldl (fun t e => Tab.set t {} e.2 { val := BitVec.ofNat 64 e.1 }) [], since := cycle, atomSeq := seq }

/-- Admit one group of a node to a core: all its crews launch together (R33). -/
def State.launchGroup (s : State) (core : Nat) (p : Seat) (lid gnum gang gidx : Nat) : State :=
  let r := LRec.read (s.node lid).recd
  let g : Group := { node := lid, gnum := gnum, gang := gang, gidx := gidx, lseq := s.nextLseq, partw := BitVec.ofNat 32 r.partw
                     tiles := r.tiles, prologue := decide (0 < r.xcount) }
  let t := s.takeSeat core p g
  let s := { t.1 with nextLseq := (t.1.nextLseq + 1) % 2 ^ 32 }
  s.each p.slots.zipIdx (fun s e => s.setCrew core e.1 (r.crew t.2 e.2 s.cycle (s.firstSeq core e.1)))

/-- Cores of the device (R2). -/
def coreCount : Nat := 2048
/-- Clusters of the device (R2). -/
def clusterCount : Nat := 256

/-- The fitting core with the fewest free pool granules, lowest number first (R329). -/
def State.coreFor (s : State) (q : Need) (avoid : List Nat) : Option (Nat × Seat) :=
  (((List.range coreCount).filterMap (fun c =>
    if avoid.contains c then none else (s.seat c q).map (fun p => ((s.freeGranules c).length, c, p)))).foldl
    (fun (b : Option (Nat × Nat × Seat)) e => match b with
      | none => some e
      | some x => if e.1 < x.1 then some e else some x) none).map Prod.snd

/-- Seats for a gang on different cores of a cluster: each group's need in turn on the lowest core, where the others still find
theirs. -/
def State.seatsIn (s : State) : List Nat → List Need → Option (List (Nat × Seat))
  | _, [] => some []
  | cs, q :: qs => cs.findSome? (fun c => match s.seat c q with
    | some p => (State.seatsIn s (cs.filter (· ≠ c)) qs).map (fun l => (c, p) :: l)
    | none => none)

/-- Whether the cores that fit some group of a gang are enough for it. -/
def State.enoughFor (s : State) (cs : List Nat) (qs : List Need) : Bool :=
  decide (qs.length ≤ (cs.filter (fun c => qs.eraseDups.any (fun q => (s.seat c q).isSome))).length)

/-- The cores of a cluster. -/
def clusterCores (k : Nat) : List Nat := (List.range 8).map (· + 8 * k)

/-- The lowest-numbered cluster whose cores fit all the groups of a gang (R34, R329). -/
def State.clusterFor (s : State) (qs : List Need) (avoid : List Nat) : Option (List (Nat × Seat)) :=
  (List.range clusterCount).findSome? (fun k =>
    let cs := (clusterCores k).filter (fun c => !avoid.contains c)
    if s.enoughFor cs qs then s.seatsIn cs qs else none)

/-- The needs of a unit of the pending list: one group, or the groups of a gang (R329, R389); `saved` gives those of saved groups. -/
def State.unitNeeds (s : State) (u : PendGroup) (saved : Nat → Option Need) : List Need :=
  if u.saved.isEmpty then
    let r := LRec.read (s.node u.lid).recd
    List.replicate (if r.gangw = 0 then 1 else r.gangw) (r.need u.lid)
  else u.saved.filterMap saved

/-- Whether a unit is a gang, which stays in one cluster (R34). -/
def State.unitGang (s : State) (u : PendGroup) : Bool :=
  if u.saved.isEmpty then (LRec.read (s.node u.lid).recd).gangw ≠ 0
  else s.savedGroups.any (fun g => u.saved.contains g.key && g.gangw ≠ 0)

/-- The seats of a unit, if it can be admitted (R329). -/
def State.unitSeats (s : State) (u : PendGroup) (qs : List Need) (avoid : List Nat) : Option (List (Nat × Seat)) :=
  if s.unitGang u then s.clusterFor qs avoid
  else match qs with
    | [q] => (s.coreFor q avoid).map (fun e => [e])
    | _ => none

/-- The unit at the front of a pending entry is no longer pending. -/
def State.unpend (s : State) (u : PendGroup) : State :=
  { s with pending := s.pending.filterMap (fun p =>
      if p = u then (if p.saved.isEmpty && decide (p.next + 1 < p.count) then some { p with next := p.next + 1 } else none) else some p) }

/-- Admit a unit of a node to its seats: a group, or every group of a gang (R33, R34). -/
def State.admitUnit (s : State) (u : PendGroup) (seats : List (Nat × Seat)) : State :=
  let r := LRec.read (s.node u.lid).recd
  let w := if r.gangw = 0 then 1 else r.gangw
  let s := s.unpend u
  s.each seats.zipIdx (fun s e => s.launchGroup e.1.1 e.1.2 u.lid (u.next * w + e.2) u.next e.2)

/-- The units of the pending list in order whose contexts are not pre-empted (R329, R382). -/
def State.units (s : State) : List PendGroup := s.pending.filter (fun p => (s.ctx (s.node p.lid).ctx).stage = 0)

/-- The cores marked for a head that fits nowhere: the one with the most free pool granules, and for a gang its cluster (R329). -/
def State.markFor (s : State) (u : PendGroup) : List Nat :=
  let best := (List.range coreCount).foldl (fun (b : Option (Nat × Nat)) c =>
    if !s.tilesUp.getLsbD (tileOf c) then b
    else
      let n := (s.freeGranules c).length
      match b with
      | none => some (n, c)
      | some x => if x.1 < n then some (n, c) else b) none
  match best with
  | none => []
  | some x => if s.unitGang u then clusterCores (clusterOf x.2) else [x.2]

end Sys2Proof.Machine
end

