-- ==== Sys2Proof/Machine/Save.lean ====
section
/-! DEFINITION. Save areas: what a save writes, what a restore reads and refuses, the save window and its directory (R137 to R141, R292,
R385 to R389). -/

namespace Sys2Proof.Machine

/-- A size rounded up to 128 (R387). -/
def up128 (n : Nat) : Nat := (n + 127) / 128 * 128

/-- Bytes of a crew save area (R137, R387). -/
def crewArea (vgran mregs : Nat) : Nat := up128 (0x580 + vgran * 2048 + mregs * 9472)

/-- Bytes of a group save area (R140, R387). -/
def groupArea (acc sg : Nat) : Nat := up128 (0x200 + acc * 16640 + sg * 16640)

/-- A word of an area without poison. -/
def plainWord (n : Nat) : Elem := { val := BitVec.ofNat 64 n }

/-- The four words of a fibre entry (R138). -/
def Fibre.words (f : Fibre) : List Elem :=
  let st := match f.st with
    | .never => 0
    | .live => 1
    | .exited => 2
  [plainWord f.pc.toNat, plainWord f.restart.toNat,
   plainWord (f.preds.toNat + f.wbase.toNat * 2 ^ 16 + f.rep * 2 ^ 22 + (if f.retry then 2 ^ 28 else 0) + st * 2 ^ 29
     + (if f.predPoison then 2 ^ 31 else 0) + f.parent.toNat * 2 ^ 32),
   plainWord f.mflags.toNat]

/-- The words of a crew save area (R137 to R139). -/
def State.crewWords (s : State) (core sl : Nat) : List Elem :=
  let w := s.crew core sl
  let stack := w.rstack.reverse.map BitVec.toNat
  let four (i : Nat) : Nat := (List.range 4).foldl (fun a j => a + stack.getD (4 * i + j) 0 * 2 ^ (16 * j)) 0
  [plainWord (1 + (if w.tandem then 2 ^ 16 else 0) + (if w.sys then 2 ^ 17 else 0) + (if w.halted then 2 ^ 18 else 0)),
   { val := s.crewinfo core sl }, { val := s.valloc core sl }, plainWord w.fflags.toNat, plainWord w.frm.toNat, { val := w.cktol },
   plainWord ((if w.tnpp then 2 ^ 8 else 0) + (if w.tzp then 2 ^ 9 else 0)), plainWord w.rstack.length, plainWord (four 0), plainWord (four 1)]
    ++ List.replicate 6 (plainWord 0) ++ (List.range 32).map w.sreg ++ (List.range 32).flatMap (fun l => (w.fibre l).words)
    ++ (List.range (8 * w.vgran)).flatMap (fun n => (List.range 32).map (fun l => w.vreg l n))
    ++ (List.range w.mregs).flatMap (fun k =>
      (List.range 32).map (fun l => { val := ((w.mtagOf k l).tag).setWidth 64, poison := (w.mtagOf k l).bad })
        ++ (List.range 32).flatMap (fun l => (List.range 36).map (fun q => w.mel k l q)))

/-- The words of an accumulator: its elements and their mode tags (R140, R217). -/
def Group.accWords (g : Group) (k : Nat) : List Elem :=
  let el (e : Nat) : AccEl := Tab.get g.accs {} (1024 * k + e)
  (List.range 1024).flatMap (fun e =>
      [{ val := (el e).bits.extractLsb' 0 64, poison := (el e).poison }, { val := (el e).bits.extractLsb' 64 64, poison := (el e).poison }])
    ++ (List.range 32).map (fun i => plainWord ((List.range 32).foldl (fun a j => a + (el (32 * i + j)).tag.toNat * 4 ^ j) 0))

/-- The words of a group save area (R140). -/
def State.groupWords (s : State) (g : Nat) : List Elem :=
  let r := s.group g
  let k := s.core r.core
  let halted := r.haltReq
  let cv (i : Nat) : List Elem :=
    let c := r.cv i
    [plainWord (c.set.toNat + c.signed_.toNat * 2 ^ 32), plainWord (c.owner % 16 + (if c.owned then 128 else 0))]
  let word (i : Nat) : Elem :=
    let a := r.padBase + 8 * i
    { val := BitVec.ofNat 64 (leNat (k.pool.readBytes a 8)), poison := Tab.get k.poolPoison false (a / 8) }
  let tags (i : Nat) : Nat := (List.range 64).foldl (fun a j =>
    a + (if Tab.get k.btags false (r.padBase / 8 + 64 * i + j) then 2 ^ j else 0)) 0
  [plainWord (1 + (if halted then 2 ^ 16 else 0)),
   plainWord (r.partw.toNat + r.accPlaces.length * 2 ^ 32 + r.tiles * 2 ^ 38 + (s.groupSlots g).length * 2 ^ 43)]
    ++ List.replicate 6 (plainWord 0) ++ (List.range 8).flatMap cv ++ (List.range 16).map (fun t => plainWord (r.desc t).toNat) ++ List.replicate 24 (plainWord 0)
    ++ (List.range r.accPlaces.length).flatMap r.accWords ++ (List.range (2048 * r.sg)).map word
    ++ (List.range (32 * r.sg)).map (fun i => plainWord (tags i))

/-- Words in fours, as sectors hold them. -/
def quads {α : Type} : List α → List (List α)
  | [] => []
  | a :: b :: c :: d :: rest => [a, b, c, d] :: quads rest
  | x :: rest => [x :: rest]

/-- The device writes of an area's words, at an address that is a multiple of 32: whole sectors, a poisoned word with its mark (R260,
R386). -/
def State.areaParts (s : State) (ctx va : Nat) (ws : List Elem) : List HeldWrite :=
  (quads ws).zipIdx.filterMap (fun e => (s.xlate ctx (va + 32 * e.2)).map (fun x =>
    let word (f : Elem → Nat) (n : Nat) : Nat := e.1.zipIdx.foldl (fun a q => a + f q.1 * 2 ^ (n * q.2)) 0
    { lsec := x.laddr / 32, data := BitVec.ofNat 256 (word (fun w => w.val.toNat) 64)
      mask := BitVec.ofNat 256 (word (fun _ => 2 ^ 64 - 1) 64), poison := BitVec.ofNat 4 (word (fun w => if w.poison then 1 else 0) 1) }))

/-- A word of an area; one that cannot be read is none (R141). -/
def State.areaWord (s : State) (ctx va : Nat) : Option Elem :=
  match regionOf va with
  | .mapped => match s.xlate ctx va with
    | some x =>
      let r := s.devReadL x.laddr 8
      if x.r then some { val := BitVec.ofNat 64 (leNat r.1), poison := r.2 } else none
    | none => none
  | _ => none

/-- The same as a number; a word that cannot be read is all ones, which no layout accepts. -/
def State.areaNat (s : State) (ctx va : Nat) : Nat :=
  match s.areaWord ctx va with
  | some e => e.val.toNat
  | none => 2 ^ 64 - 1

/-- Whether every page of a range is private (R387). -/
def State.privateRange (s : State) (ctx va n : Nat) : Bool :=
  (List.range ((va % 65536 + n + 65535) / 65536)).all (fun i =>
    match regionOf (va / 65536 * 65536 + i * 65536) with
    | .mapped => match s.xlate ctx (va / 65536 * 65536 + i * 65536) with
      | some x => x.attr = attrPrivate
      | none => false
    | _ => false)

/-- A directory entry (R388). -/
def dirWords (v halted done : Bool) (q : SavedGroup) (off : Nat) : List Elem :=
  [plainWord ((if v then 1 else 0) + (if halted then 2 else 0) + (if done then 4 else 0) + q.gangw * 2 ^ 3 + q.gidx * 2 ^ 7 + q.lseq * 2 ^ 32),
   plainWord (q.lid % 2 ^ 38), plainWord (q.gnum + q.core * 2 ^ 32), plainWord off] ++ List.replicate 4 (plainWord 0)

/-- Offset at which the first area of a fresh save window is placed: the directory has the first 64 KiB. -/
def firstArea : Nat := 65536

/-- Whether the crews of a group may be saved: none has a request unacknowledged, and no copy of the group is left (R338, R401). -/
def State.groupQuiet (s : State) (g : Nat) : Bool :=
  let core := (s.group g).core
  !s.groupBusy g && (s.groupSlots g).all (fun sl =>
    let w := s.crew core sl
    w.ackCl = 0 && w.ackDv = 0 && w.ackSy = 0)

/-- The group's crews in crew order, by their slots (R387). -/
def State.crewOrder (s : State) (g : Nat) : List Nat :=
  let core := (s.group g).core
  (List.range 16).flatMap (fun n => (s.groupSlots g).filter (fun sl => (s.crew core sl).no = n))

/-- Save one group into the context's window (R386 to R388): its areas, its directory entry and the directory's counts are one device write
(R456). None when the window lacks room or a page of it is not private. -/
def State.saveGroup (s : State) (g : Nat) : Option State :=
  let r := s.group g
  let ctx := (s.node r.node).ctx
  let x := s.ctx ctx
  let rec_ := LRec.read (s.node r.node).recd
  let n := s.areaNat ctx x.window % 65536
  let f0 := s.areaNat ctx (x.window + 8)
  let f := up128 (if f0 = 0 then firstArea else f0)
  let dirEnd := if n = 0 then f else s.areaNat ctx (x.window + 64 + 24)
  let order := s.crewOrder g
  let gsz := groupArea r.accPlaces.length r.sg
  let sizes := order.map (fun sl => crewArea (s.crew r.core sl).vgran (s.crew r.core sl).mregs)
  let total := gsz + sizes.sum
  if x.winLen < f + total || dirEnd < 64 * (n + 2) || !s.privateRange ctx x.window x.winLen then none
  else
    let i := s.newId
    let q : SavedGroup := { key := i.1, ctx := ctx, dirAddr := x.window + 64 * (n + 1), areaAddr := x.window + f, lseq := r.lseq, lid := r.node
                            gnum := r.gnum, core := r.core, gangw := rec_.gangw, gidx := r.gidx, halted := s.groupDrained g }
    let s := i.2.devPieces (s.areaParts ctx (x.window + f) (s.groupWords g)
      ++ order.zipIdx.flatMap (fun e => s.areaParts ctx (x.window + f + gsz + (sizes.take e.2).sum) (s.crewWords r.core e.1))
      ++ s.areaParts ctx q.dirAddr (dirWords true q.halted false q f)
      ++ s.areaParts ctx x.window [plainWord (s.areaNat ctx x.window / 65536 * 65536 + n + 1), plainWord (f + total)]) []
    let s := s.each order (fun s sl => ((s.applyProgs r.core sl).flushFailures r.core sl false).removeCrew r.core sl)
    some { s with groups := Tab.erase s.groups g, savedGroups := s.savedGroups ++ [q] }

/-- What a saved group's areas ask for: its crews' sizes by their VALLOC, in area order. -/
def State.savedSizes (s : State) (ctx : Nat) : Nat → Nat → List (Nat × Nat × Nat)
  | _, 0 => []
  | va, n + 1 =>
    let v := s.areaNat ctx (va + 16)
    (va, v % 16, v / 16 % 32) :: State.savedSizes s ctx (va + crewArea (v % 16) (v / 16 % 32)) n

/-- The crews of a saved group: address, VGRAN and MREGS of each. -/
def State.savedCrews (s : State) (q : SavedGroup) : List (Nat × Nat × Nat) :=
  let h := s.areaNat q.ctx (q.areaAddr + 8)
  s.savedSizes q.ctx (q.areaAddr + groupArea (h / 2 ^ 32 % 64) (partFields (h % 2 ^ 32)).2.1) (h / 2 ^ 43 % 32)

/-- What a saved group asks of a core (R33, R389). -/
def State.savedNeed (s : State) (q : SavedGroup) : Need :=
  let h := s.areaNat q.ctx (q.areaAddr + 8)
  let p := partFields (h % 2 ^ 32)
  let cs := s.savedCrews q
  let bytes := (cs.map (fun c => c.2.1 * 2048 + c.2.2 * 9216)).sum
  { crews := cs.length, vg := p.1, sg := p.2.1, ag := p.2.2, acc := h / 2 ^ 32 % 64, extra := (bytes + 16383) / 16384 - p.1, grown := true, lid := q.lid }

/-- Whether a crew area is one that a restore accepts (R123, R141). A VGRAN, MREGS, role or region-stack depth outside its range is
refused too, which R141 does not say (DESIGN CHOICE, logs 30 and 33). -/
def State.crewAreaOk (s : State) (ctx va : Nat) : Bool :=
  let w (o : Nat) : Nat := s.areaNat ctx (va + o)
  let fib (l : Nat) : Bool :=
    let b := 0x180 + 32 * l
    w b / 2 ^ 57 = 0 && w (b + 8) / 2 ^ 57 = 0 && w (b + 16) / 2 ^ 37 = 0 && w (b + 16) / 2 ^ 29 % 4 ≠ 3 && w (b + 24) / 16 = 0
  let v := w 0x10 % 16
  let m := w 0x10 / 16 % 32
  let tagOk (k l : Nat) : Bool := match s.areaWord ctx (va + 0x580 + v * 2048 + 9472 * k + 8 * l) with
    | some e => e.poison || decide (e.val.toNat < 128)
    | none => false
  w 0 % 65536 = 1 && w 0 / 2 ^ 19 = 0 && w 0x08 / 2 ^ 57 = 0 && w 0x10 / 2 ^ 20 = 0 && w 0x18 / 2 ^ 8 = 0 && w 0x20 / 4 = 0
    && w 0x28 / 2 ^ 6 % 4 = 0 && w 0x28 / 2 ^ 14 = 0 && w 0x30 % 2 ^ 8 = 0 && w 0x30 / 2 ^ 10 = 0 && decide (w 0x38 ≤ 8)
    && (List.range 6).all (fun i => w (0x50 + 8 * i) = 0) && (List.range 32).all fib
    && decide (1 ≤ v) && decide (v ≤ 8) && decide (m ≤ 16) && w 0x08 / 2 ^ 20 % 4 ≠ 3
    && (List.range m).all (fun k => (List.range 32).all (tagOk k))

/-- Whether a group area is one that a restore accepts (R141). -/
def State.groupAreaOk (s : State) (ctx va : Nat) : Bool :=
  let w (o : Nat) : Nat := s.areaNat ctx (va + o)
  let acc := w 8 / 2 ^ 32 % 64
  let cv (i : Nat) : Bool := w (0x40 + 16 * i + 8) / 2 ^ 8 = 0 && w (0x40 + 16 * i + 8) / 16 % 8 = 0
  let tagsOk (k : Nat) : Bool := (List.range 32).all (fun i => (List.range 32).all (fun j =>
    w (0x200 + 16640 * k + 16384 + 8 * i) / 4 ^ j % 4 ≠ 3))
  w 0 % 65536 = 1 && w 0 / 2 ^ 17 = 0 && w 8 / 2 ^ 48 = 0 && w 8 / 2 ^ 7 % 2 = 0 && w 8 / 2 ^ 15 % 2 = 0
    && w 8 / 2 ^ 23 % 2 ^ 9 = 0 && (List.range 6).all (fun i => w (0x10 + 8 * i) = 0) && (List.range 8).all cv
    && (List.range 16).all (fun t => w (0xC0 + 8 * t) / 2 ^ 5 = 0) && (List.range 24).all (fun i => w (0x140 + 8 * i) = 0)
    && (List.range acc).all tagsOk

/-- A table from words of an area: entry `i` of `n` from the word at `at_ i`; those that read as the default are not listed. -/
def State.areaTab (s : State) (ctx n : Nat) (at_ : Nat → Nat) : Tab Elem :=
  (List.range n).filterMap (fun i => match s.areaWord ctx (at_ i) with
    | some e => if e = {} then none else some (i, e)
    | none => none)

/-- A fibre from its entry (R138, R141): no latch is valid. -/
def State.areaFibre (s : State) (ctx va : Nat) : Fibre :=
  let x := s.areaNat ctx (va + 16)
  { st := (match x / 2 ^ 29 % 4 with
      | 1 => .live
      | 2 => .exited
      | _ => .never)
    pc := BitVec.ofNat 57 (s.areaNat ctx va), restart := BitVec.ofNat 57 (s.areaNat ctx (va + 8)), preds := BitVec.ofNat 16 x
    wbase := BitVec.ofNat 6 (x / 2 ^ 16), rep := x / 2 ^ 22 % 64, retry := x / 2 ^ 28 % 2 = 1, predPoison := x / 2 ^ 31 % 2 = 1
    parent := BitVec.ofNat 5 (x / 2 ^ 32), mflags := BitVec.ofNat 4 (s.areaNat ctx (va + 24)) }

/-- A crew from its area (R137 to R139, R141). -/
def State.areaCrew (s : State) (ctx va g seq : Nat) : Crew :=
  let w (o : Nat) : Nat := s.areaNat ctx (va + o)
  let v := w 0x10 % 16
  let m := w 0x10 / 16 % 32
  let depth := w 0x38
  let entry (i : Nat) : BitVec 16 := BitVec.ofNat 16 (w (0x40 + 8 * (i / 4)) / 2 ^ (16 * (i % 4)))
  let img := va + 0x580 + v * 2048
  { role := (match w 0x08 / 2 ^ 20 % 4 with
      | 0 => .copy
      | 1 => .matrix
      | _ => .vector)
    no := w 0x08 / 2 ^ 11 % 16, group := g, sys := w 0 / 2 ^ 17 % 2 = 1, tandem := w 0 / 2 ^ 16 % 2 = 1, halted := w 0 / 2 ^ 18 % 2 = 1
    vgran := v, mregs := m, fflags := BitVec.ofNat 8 (w 0x18), frm := BitVec.ofNat 2 (w 0x20)
    tbf := BitVec.ofNat 6 (w 0x28), tf32 := BitVec.ofNat 6 (w 0x28 / 2 ^ 8), tnpp := w 0x30 / 2 ^ 8 % 2 = 1, tzp := w 0x30 / 2 ^ 9 % 2 = 1
    rstack := ((List.range depth).map entry).reverse
    s := s.areaTab ctx 32 (fun i => va + 0x80 + 8 * i)
    fibres := (List.range 32).filterMap (fun l =>
      let f := s.areaFibre ctx (va + 0x180 + 32 * l)
      if f = {} then none else some (l, f))
    v := s.areaTab ctx (256 * v) (fun i => va + 0x580 + 8 * i)
    mtag := (List.range (32 * m)).filterMap (fun i => match s.areaWord ctx (img + 9472 * (i / 32) + 8 * (i % 32)) with
      | some e =>
        let t : MTag := if e.poison then { bad := true } else { tag := e.val.setWidth 8 }
        if t = {} then none else some (i, t)
      | none => none)
    m := s.areaTab ctx (1152 * m) (fun i => img + 9472 * (i / 1152) + 256 + 8 * (i % 1152))
    since := s.cycle, atomSeq := seq }

/-- A group's convergence registers, tile descriptors and accumulators from its area (R140, R141). -/
def State.areaGroup (s : State) (ctx va : Nat) (g : Group) : Group :=
  let w (o : Nat) : Nat := s.areaNat ctx (va + o)
  let acc := w 8 / 2 ^ 32 % 64
  let cv (i : Nat) : CvReg :=
    let a := w (0x40 + 16 * i)
    let b := w (0x40 + 16 * i + 8)
    { owned := b / 128 % 2 = 1, owner := b % 16, set := BitVec.ofNat 32 a, signed_ := BitVec.ofNat 32 (a / 2 ^ 32) }
  let el (i : Nat) : AccEl :=
    let base := va + 0x200 + 16640 * (i / 1024)
    let e := i % 1024
    let lo := (s.areaWord ctx (base + 16 * e)).getD {}
    let hi := (s.areaWord ctx (base + 16 * e + 8)).getD {}
    { bits := hi.val ++ lo.val, poison := lo.poison || hi.poison, tag := BitVec.ofNat 2 (s.areaNat ctx (base + 16384 + 8 * (e / 32)) / 4 ^ (e % 32)) }
  let list {α : Type} [DecidableEq α] (d : α) (n : Nat) (f : Nat → α) : Tab α :=
    (List.range n).filterMap (fun i => if f i = d then none else some (i, f i))
  { g with
    partw := BitVec.ofNat 32 (w 8), tiles := w 8 / 2 ^ 38 % 32, cvs := list {} 8 cv
    tdesc := list 0 16 (fun t => BitVec.ofNat 8 (w (0xC0 + 8 * t))), accs := list {} (1024 * acc) el }

/-- The scratchpad of a restored group and its barrier tags (R140). -/
def State.areaPad (s : State) (ctx va core sg0 sg acc : Nat) : State :=
  let b := va + 0x200 + 16640 * acc
  let a0 := 16384 * sg0
  let words := s.areaTab ctx (2048 * sg) (fun i => b + 8 * i)
  let tagAt (i : Nat) : Bool := s.areaNat ctx (b + 16384 * sg + 8 * (i / 64)) / 2 ^ (i % 64) % 2 = 1
  s.modCore core (fun k =>
    let k := words.foldl (fun (k : Core) (e : Nat × Elem) =>
      if e.2.poison then k.markPool [a0 / 8 + e.1]
      else { k with pool := k.pool.writeBytes (a0 + 8 * e.1) (leBytes 8 e.2.val.toNat), poolPoison := Tab.set k.poolPoison false (a0 / 8 + e.1) false }) k
    { k with btags := (List.range (2048 * sg)).foldl (fun t i => Tab.set t false (a0 / 8 + i) (tagAt i)) k.btags })

/-- The fibres of a restored crew that had signed a convergence register wait at it as they did (R385). -/
def State.rewait (s : State) (ctx core sl g : Nat) : State :=
  let w := s.crew core sl
  s.each (s.group g).cvs (fun s e =>
    let r := e.2
    if r.owned && r.owner = w.no && r.signed_ ≠ 0 then
      let f := (s.crew core sl).fibre (lowestLane r.signed_)
      let word := BitVec.ofNat 32 (leNat ((s.devRead ctx f.pc.toNat 4).getD []))
      let s := s.modGroup g (fun x => x.setCv e.1 { r with word := word, pc := f.pc })
      s.modCrew core sl (fun w => w.modLanes (w.physMask (w.visMask r.signed_)) (fun _ f => { f with wait := .conv e.1, word := word }))
    else s)

/-- A saved group is restored to a core (R141, R276, R292, R389): its areas are read, its directory entry is done, and the old core is
flushed. A refused area is none. -/
def State.restoreGroup (s : State) (q : SavedGroup) (core : Nat) (p : Seat) : Option State :=
  let ctx := q.ctx
  let cs := s.savedCrews q
  let h := s.areaNat ctx (q.areaAddr + 8)
  let acc := h / 2 ^ 32 % 64
  let sg := (partFields (h % 2 ^ 32)).2.1
  if !s.groupAreaOk ctx q.areaAddr || !cs.all (fun c => s.crewAreaOk ctx c.1) then none
  else
    let halted := s.areaNat ctx q.areaAddr / 2 ^ 16 % 2 = 1
    let g : Group := s.areaGroup ctx q.areaAddr { node := q.lid, gnum := q.gnum, gang := (if q.gangw = 0 then q.gnum else q.gnum / q.gangw)
                                                  gidx := q.gidx, lseq := q.lseq, haltReq := halted, restored := true }
    let t := s.takeSeat core p g
    let s := (t.1.areaPad ctx q.areaAddr core p.srun sg acc).admitAcquire core ctx
    let held : Option (Nat × Nat × List Nat) := if core = q.core then none else some (q.core, ctx, s.flushIds q.core ctx)
    let s := s.each (p.slots.zip cs) (fun s e => (s.setCrew core e.1
      { s.areaCrew ctx e.2.1 t.2 (s.firstSeq core e.1) with heldBy := held }).rewait ctx core e.1 t.2)
    let s := s.devPieces (s.areaParts ctx q.dirAddr (dirWords true q.halted true q (q.areaAddr - (s.ctx ctx).window))) []
    some { s with savedGroups := s.savedGroups.erase q }

/-- The saved groups of a unit of the pending list. -/
def State.unitSaved (s : State) (u : PendGroup) : List SavedGroup := u.saved.filterMap (fun k => s.savedGroups.find? (fun q => q.key = k))

/-- Admit a unit: launched, or restored; a refused restore resets the context (R141, R389). -/
def State.admitAny (s : State) (u : PendGroup) (seats : List (Nat × Seat)) : State :=
  if u.saved.isEmpty then s.admitUnit u seats
  else
    let qs := s.unitSaved u
    let ctx := (s.node u.lid).ctx
    match (qs.zip seats).foldl (fun (t : Option State) e => match t with
        | none => none
        | some t => t.restoreGroup e.1 e.2.1 e.2.2) (some (s.unpend u)) with
    | some t => t
    | none => s.killCtx ctx 1

/-- Try to admit a unit outside some cores. -/
def State.tryUnit (s : State) (u : PendGroup) (avoid : List Nat) : Option State :=
  let need (k : Nat) : Option Need := (s.savedGroups.find? (fun q => q.key = k)).map s.savedNeed
  (s.unitSeats u (s.unitNeeds u need) avoid).map (fun seats => s.admitAny u seats)

/-- The marks that stand: those made for the head of the pending list as it is now (R329). -/
def State.marksFor (s : State) (h : PendGroup) : List Nat := if s.markHead = some h then s.marked else []

/-- What the admitter does next (R329): it admits the head of the pending list, or marks cores for it, or admits the first later unit that
fits on other cores; none when there is nothing to do. -/
def State.admission (s : State) : Option State :=
  match s.units with
  | [] => none
  | h :: rest =>
    match s.tryUnit h [] with
    | some t => some { t with marked := [], markHead := none }
    | none =>
      let m := s.markFor h
      if (s.marksFor h).isEmpty && !m.isEmpty then some { s with marked := m, markHead := some h }
      else rest.findSome? (fun u => s.tryUnit u (s.marksFor h))

/-- GROUP_ADMISSION (R329). -/
def execGroupAdmission (s : State) : Host.Outcome State Fault Refusal := .next (s.admission.getD s)

/-- The stopped or halted groups that the admitter would save for the head of the pending list: those of pre-empted contexts on the
marked cores, oldest stop first (R386). -/
def State.toSave (s : State) : List Nat :=
  let ok (h : PendGroup) (e : Nat × Group) : Bool :=
    (s.ctx (s.node e.2.node).ctx).stage = 3 && (s.marksFor h).contains e.2.core && (s.gangGroups e.1).all s.groupQuiet
  match s.units with
  | [] => []
  | h :: _ =>
    if (s.tryUnit h []).isSome then []
    else (((s.groups.filter (ok h)).foldl (fun (l : List (Nat × Nat)) e =>
      let a := l.takeWhile (fun x => decide (x.1 ≤ e.2.stopTime))
      a ++ (e.2.stopTime, e.1) :: l.drop a.length) []).map Prod.snd)

/-- Save a group, and with it the others of its gang, whose directory entries stand in a row; a save that fails resets the context (R386
to R388). -/
def State.saveGang (s : State) (g : Nat) : State :=
  let ctx := (s.node (s.group g).node).ctx
  let order := (List.range 8).flatMap (fun i => (s.gangGroups g).filter (fun x => (s.group x).gidx = i))
  match order.foldl (fun (t : Option State) x => match t with
      | none => none
      | some t => t.saveGroup x) (some s) with
  | some t => t
  | none => s.killCtx ctx 1

/-- GROUP_SAVE (R386): one group, for the head of the pending list. -/
def execGroupSave (s : State) : Host.Outcome State Fault Refusal :=
  match s.toSave with
  | [] => .next s
  | g :: _ => .next (s.saveGang g)

end Sys2Proof.Machine
end

