-- ==== Sys2Proof/Machine/Prologue.lean ====
section
/-! DEFINITION. The prologue engine: the transform bindings of a launch record, carried out for an admitted group before its crews issue
(R328). -/

namespace Sys2Proof.Machine

/-- A transform binding (R328). -/
structure Binding where
  src : Nat
  kind : Nat
  doff : Nat
  len : Nat
  row : Int
  col : Int
  sstep : Nat
  deriving DecidableEq, Repr

/-- A 16-bit field as a signed number. -/
def int16 (n : Nat) : Int := if n < 32768 then (n : Int) else (n : Int) - 65536

/-- A binding's 32 bytes for group `g` (R328); none holds a reserved value or an out-of-range field. A tile index that a step leads
out of 32 bits counts as out of range. -/
def parseBinding (bs : List Byte) (g tiles limit : Nat) : Option Binding :=
  let w0 := fieldAt bs 0 8
  let w1 := fieldAt bs 8 8
  let w2 := fieldAt bs 16 8
  let w3 := fieldAt bs 24 8
  let k := w1 % 8
  let doff := w1 / 2 ^ 8 % 2 ^ 21
  let len := w1 / 2 ^ 32 % 2 ^ 24
  let row : Int := (w2 % 65536 : Nat) + (g : Int) * int16 (w2 / 2 ^ 32 % 65536)
  let col : Int := (w2 / 2 ^ 16 % 65536 : Nat) + (g : Int) * int16 (w2 / 2 ^ 48)
  let reserved := w0 / 2 ^ 57 = 0 && decide (k < 4) && w1 / 8 % 32 = 0 && w1 / 2 ^ 29 % 8 = 0 && w1 / 2 ^ 56 = 0 && w3 / 2 ^ 57 = 0
  let plain := doff % 8 = 0 && decide (1 ≤ len) && decide (doff + len ≤ limit) && (k = 0 || w0 = 0)
  let tile := len = 0 && doff % 4480 = 0 && decide (doff / 4480 < tiles)
    && decide (0 ≤ row) && decide (row < 2 ^ 32) && decide (0 ≤ col) && decide (col < 2 ^ 32)
  if reserved && (if k = 0 || k = 3 then plain else tile) then
    some { src := w0, kind := k, doff := doff, len := len, row := row, col := col, sstep := w3 }
  else none

/-- Run a copy of the core's list to its end, piece by piece; it ends early when it fails or its node is gone. Fuel bounds the pieces. -/
def State.runCopy (s : State) (core id : Nat) : Nat → State
  | 0 => s
  | n + 1 =>
    match s.copy? core id with
    | none => s
    | some x => if x.fail.isSome || x.total ≤ x.done then s else State.runCopy (s.copyPiece core x) core id n

/-- A prologue failure (R328): recorded; an uncorrectable error rolls the node back, any other cause fails it. -/
def State.prologueFault (s : State) (g : Nat) (f : FaultInfo) : State :=
  let r := s.group g
  let n := s.node r.node
  let c : RecordCtx := { ctx := n.ctx, stag := n.stag, core := r.core, lid := r.node, time := s.timeNs }
  if f.cause = 1 then s.rollBack r.node f c else (s.nodeEvent r.node f { c with rb := true }).failNode r.node 2

/-- Carry out one binding (R328): a copy as CPY, CPYT or CPYQ make it, or zeros. The answer is the failure, if any. -/
def State.runBinding (s : State) (g gnum : Nat) (b : Binding) : State × Option FaultInfo :=
  let r := s.group g
  let n := s.node r.node
  if b.kind = 3 then (s.padWrite g b.doff (List.replicate b.len 0), none)
  else
    let kind : CopyKind := match b.kind with
      | 0 => .cpy (b.src + gnum * b.sstep) (0x01FFFFFF00000000 + b.doff) b.len none false
      | 1 => .cpyt b.src (b.row.toNat + b.col.toNat * 2 ^ 32) 0 (b.doff / 4480) none
      | _ => .cpyq b.src (b.row.toNat + b.col.toNat * 2 ^ 32) 0 (b.doff / 4480) none
    let total := if b.kind = 0 then b.len else 32
    let i := s.newId
    let x : Copy := { id := i.1, slot := engineSlot, group := g, batch := 0, kind := kind, ctx := n.ctx, tag := n.stag, lid := r.node, total := total }
    let s := i.2.modCore r.core (fun k => { k with copies := k.copies ++ [x] })
    let s := (s.startCopy r.core x).runCopy r.core i.1 (total + 1)
    match s.copy? r.core i.1 with
    | none => (s, none)
    | some y => (s.modCore r.core (fun k => { k with copies := k.copies.filter (fun z => z.id ≠ i.1) }), y.fail)

/-- Carry out the bindings of a table in order, from binding `i` on. -/
def State.runBindings (s : State) (g gnum table i : Nat) : Nat → State × Option FaultInfo
  | 0 => (s, none)
  | n + 1 =>
    let r := s.group g
    let x : Copy := { id := 0, slot := engineSlot, group := g, batch := 0, kind := .ship 0 0, ctx := 0, tag := 0, lid := 0, total := 0 }
    let d := (s.enter r.core x).copyRead (copyCur r.core) (table + 32 * i) 32
    let s := d.1.leave r.core
    match d.2 with
    | .error f => (s, some f)
    | .ok bs =>
      if bs.any Prod.snd then (s, some { cause := 1, sub := 1, addr := table + 32 * i })
      else match parseBinding (bs.map Prod.fst) gnum r.tiles r.padLimit with
        | none => (s, some { cause := 14, sub := 1, addr := table + 32 * i })
        | some b =>
          let t := s.runBinding g gnum b
          if t.2.isSome || (Tab.find t.1.groups g).isNone then t else State.runBindings t.1 g gnum table (i + 1) n

/-- The groups whose prologue has not run. -/
def State.prologues (s : State) : List Nat := (s.groups.filter (fun e => e.2.prologue)).map Prod.fst

/-- PROLOGUE (R328): the bindings of the first group that waits for them. -/
def execPrologue (s : State) : Host.Outcome State Fault Refusal :=
  match s.prologues with
  | [] => .next s
  | g :: _ =>
    let r := s.group g
    let l := LRec.read (s.node r.node).recd
    let s := s.modGroup g (fun r => { r with prologue := false })
    if l.xform % 32 ≠ 0 then .next (s.prologueFault g { cause := 4, sub := 1, addr := l.xform })
    else
      let t := s.runBindings g r.gnum l.xform 0 l.xcount
      match t.2 with
      | none => .next t.1
      | some f => .next (t.1.prologueFault g f)

end Sys2Proof.Machine
end

