-- ==== Sys2Proof/Machine/Preempt.lean ====
section
/-! DEFINITION. The mailbox and the commands about contexts that run: pre-emption, its stages and the stop of crews, resume and kill (R272,
R382 to R390, R414, R423 to R425). -/

namespace Sys2Proof.Machine

/-- Whether region 0 answers the host: from PHASE 1 on, while the supply is on (R426, R428). -/
def State.reachable (s : State) : Bool := s.powered && s.phase ≠ 0

/-- A mailbox command (R423 to R425): ignored while another holds the mailbox, not accepted before its PHASE; else `k` executes it and
ends it with its status. -/
def State.command (s : State) (least : Nat) (failedToo : Bool) (k : State → State) : Host.Outcome State Fault Refusal :=
  if !s.reachable || s.cstate = 1 then .next s
  else
    let s := { s with cstate := 1, cseq := BitVec.ofNat 32 s.ev.seq }
    if s.phase < least || (s.phase = 15 && !failedToo) then .next (s.mailDone 3) else .next (k s)

/-- A command with a nonzero status changes nothing: the first check that fails gives the status, else `k` goes on (R425). -/
def State.checked (s : State) (cs : List (Bool × Nat)) (k : State → State) : State :=
  match cs.find? (fun c => c.1) with
  | some c => s.mailDone c.2
  | none => k s

/-- The response buffer gets some bytes (R423). -/
def State.respond (s : State) (bs : List Byte) : State := { s with rspbuf := s.rspbuf.writeBytes 0 bs }

/-- PREEMPT (R382, R390, R414, R424): `ctx` names the context and `ints` D1 and D2 in ns (0 for the defaults), the window's address and
its length. The command holds the mailbox until the pre-emption is complete. -/
def execPreempt (s : State) : Host.Outcome State Fault Refusal :=
  let e := s.ev
  s.command 3 false (fun s =>
    let g (i d : Nat) : Nat := if e.ints.getD i 0 = 0 then d else e.ints.getD i 0
    let d1 := g 0 100000
    let d2 := g 1 10000000
    let win := g 2 0
    let x := s.ctx e.ctx
    s.checked [(decide (65536 ≤ e.ctx) || decide (d1 < 1000) || decide (1000000000 < d1) || decide (d2 < d1) || win % 65536 ≠ 0
        || decide (2 ^ 57 ≤ win), 2), (!x.valid || x.stage ≠ 0, 4)] (fun s =>
      let s := s.modCtx e.ctx (fun x => { x with
        stage := 1, pstart := s.timeNs, d1 := s.timeNs + d1, d2 := s.timeNs + d2, window := win, winLen := g 3 0 })
      let trial := if s.trial.active && s.trial.ctx = e.ctx then { s.trial with active := false, endAt := none } else s.trial
      { s with busy := some (.preempt e.ctx), trial := trial }))

/-- PREEMPT_REGION_STOP (R382): stage 2 begins at D1. -/
def execPreemptRegionStop (s : State) : Host.Outcome State Fault Refusal :=
  let x := s.ctx s.ev.ctx
  if x.stage = 1 && decide (x.d1 ≤ s.timeNs) then .next (s.modCtx s.ev.ctx (fun x => { x with stage := 2 })) else .next s

/-- FORCED_RESET (R382, R384): stage 3 at D2. -/
def execForcedReset (s : State) : Host.Outcome State Fault Refusal :=
  let x := s.ctx s.ev.ctx
  if (x.stage = 1 || x.stage = 2) && decide (x.d2 ≤ s.timeNs) then .next (s.killCtx s.ev.ctx 1) else .next s

/-- Whether a crew may be stopped now (R383): stage 2, no prefix unit, nothing of its queues, arrays, atomics, releases, traps or handlers left,
and no load that its rewind would not issue again (R321). -/
def State.canStop (s : State) (core sl : Nat) : Bool :=
  let k := s.core core
  let w := s.crew core sl
  let released := (List.range 32).all (fun l => match (w.fibre l).wait with
    | .release _ => false
    | _ => true)
  let handled := k.handlers.all (fun h => h.slot ≠ sl) && k.traps.all (fun t => t.slot ≠ sl) && (match s.crew? core 32 with
    | some h => h.trapSlot ≠ sl
    | none => true)
  (s.crew? core sl).isSome && decide (sl < 32) && !w.stopped && !w.halted && !s.groupDrained w.group && (s.ctx (s.crewCtx core sl)).stage = 2
    && w.unit.isNone && (w.dropLoads w.liveMask).loads.isEmpty && k.sfu.all (fun q => q.slot ≠ sl) && k.arr.all (fun q => q.slot ≠ sl)
    && w.atoms.isEmpty && released && handled

/-- CREW_STOP (R383): the loads in flight are discarded, every fibre is rewound, requests to the allocator are withdrawn. -/
def execCrewStop (s : State) : Host.Outcome State Fault Refusal :=
  let core := s.ev.core
  let sl := s.ev.slot
  if s.canStop core sl then
    let w := s.crew core sl
    let s := s.rewind core sl w.liveMask false
    let s := s.modCrew core sl (fun w => { w with stopped := true, peloton := false, sync := none })
    let s := s.modCore core (fun k => { k with grows := k.grows.filter (fun r => r.slot ≠ sl) })
    let s := s.modCluster (clusterOf core) (fun c => { c with claims := c.claims.filter (fun r => !(r.core = core && r.slot = sl)) })
    .next (s.modGroup w.group (fun g => { g with stopTime := s.timeNs }))
  else .next s

/-- The saved groups of a context as units of the pending list in LSEQ order, a gang as one unit (R389). -/
def State.savedUnits (s : State) (t : Nat) : List PendGroup :=
  let mine := s.savedGroups.filter (fun q => q.ctx = t)
  let sorted := mine.foldl (fun (l : List SavedGroup) q =>
    let a := l.takeWhile (fun x => !olderSeq q.lseq x.lseq)
    a ++ q :: l.drop a.length) []
  let gang (q : SavedGroup) : List SavedGroup :=
    if q.gangw = 0 then [q] else sorted.filter (fun x => x.lid = q.lid && x.gangw ≠ 0 && x.gnum / x.gangw = q.gnum / q.gangw)
  (sorted.filter (fun q => (gang q).head? = some q)).map (fun q => { lid := q.lid, saved := (gang q).map SavedGroup.key })

/-- Resume a context (R389): stopped groups continue in place after an acquire, saved ones join the head of the pending list. -/
def State.resume (s : State) (t : Nat) : State :=
  let s := s.each (s.ctxGroups t) (fun s g =>
    let core := (s.group g).core
    let sls := (s.groupSlots g).filter (fun sl => (s.crew core sl).stopped)
    if sls.isEmpty then s
    else
      let s := s.admitAcquire core t
      s.each sls (fun s sl => s.modCrew core sl (fun w => { w with stopped := false, since := s.cycle })))
  let s := { s with pending := s.savedUnits t ++ s.pending, marked := [], markHead := none }
  s.modCtx t (fun x => { x with stage := 0 })

/-- RESUME (R389): a pre-emption that has not completed is waited for; the command then goes on by this row. -/
def execResume (s : State) : Host.Outcome State Fault Refusal :=
  match s.busy with
  | some (.resume t) => if (s.ctx t).stage = 3 then .next ((s.resume t).mailDone 0) else .next s
  | _ =>
    let e := s.ev
    s.command 3 false (fun s =>
      let x := s.ctx e.ctx
      s.checked [(decide (65536 ≤ e.ctx), 2), (x.stage = 0, 4)] (fun s =>
        if x.stage = 3 then (s.resume e.ctx).mailDone 0 else { s with busy := some (.resume e.ctx) }))

/-- KILL (R384). -/
def execKill (s : State) : Host.Outcome State Fault Refusal :=
  let e := s.ev
  s.command 3 false (fun s =>
    s.checked [(decide (65536 ≤ e.ctx), 2), (!(s.ctx e.ctx).valid, 4)] (fun s => (s.killCtx e.ctx 2).mailDone 0))

end Sys2Proof.Machine
end

