-- ==== Sys2Proof/Machine/MailEv.lean ====
section
/-! DEFINITION. The host's side: doorbells, plain register writes, and the mailbox commands about queues, contexts, mappings, pages, rates,
meshes, debugging and peers (R262, R322, R341 to R349, R368, R410, R412, R415, R422 to R425, R436 to R442). Each command's operands come
field by field in `State.ev` (log 17). -/

namespace Sys2Proof.Machine

/-- A doorbell write that is out of range: ignored, and logged (R422, R263). -/
def State.overrun (s : State) (off : Nat) : State := s.logErr { level := 9, kind := 9, unit := 16, paddr := off }

/-- A write to a launch queue's doorbell (R322, R422). The nodes that had the numbers of entries submitted anew are
forgotten, save an entry's own that was skipped before its doorbell (R327). -/
def State.lqDoor (s : State) (q v : Nat) : State :=
  let d : LQueue := Tab.get s.lqs {} q
  let n := (v + 2 ^ 32 - d.head) % 2 ^ 32
  if 2 ^ d.log2n < n then s.overrun (0x10000 + 8 * q)
  else
    let grown := (v + 2 ^ 32 - d.tail) % 2 ^ 32
    let fresh (lid : Nat) : Bool := lid / 2 ^ 32 = q && decide ((lid % 2 ^ 32 + 2 ^ 32 - d.tail) % 2 ^ 32 < grown)
    let s := { s with lqs := Tab.set s.lqs {} q { d with tail := v } }
    if grown ≤ 2 ^ d.log2n then
      ({ s with nodes := (s.nodes.filter (fun e : Nat × Node => !(fresh e.1 && e.2.phase == NodePhase.completed && !e.2.early))).map (fun e : Nat × Node =>
          if fresh e.1 then (e.1, { e.2 with early := false }) else e) }).advanceHead q 65536
    else s

/-- The new HEAD of a ring, when it does not pass TAIL (R422). -/
def EQueue.headTo (q : EQueue) (v : Nat) : Option EQueue :=
  if (v + 2 ^ 32 - q.head) % 2 ^ 32 ≤ (q.tail + 2 ^ 32 - q.head) % 2 ^ 32 then some { q with head := v } else none

/-- A write to an event queue's doorbell (R341, R422). -/
def State.eqDoor (s : State) (q v : Nat) : State :=
  match EQueue.headTo (Tab.get s.eqs {} q) v with
  | some d => { s with eqs := Tab.set s.eqs {} q d }
  | none => s.overrun (0x10400 + 8 * q)

/-- A write to an error log's doorbell (R343, R422). -/
def State.elDoor (s : State) (l v : Nat) : State :=
  match EQueue.headTo (Tab.get s.els {} l) v with
  | some d => { s with els := Tab.set s.els {} l d }
  | none => s.overrun (0x10800 + 8 * l)

/-- LQDOOR (R322, R422). -/
def execLqdoor (s : State) : Host.Outcome State Fault Refusal :=
  .next (if s.reachable && decide (s.ev.queue < 64) then s.lqDoor s.ev.queue (s.ev.value % 2 ^ 32) else s)

/-- EQDOOR (R341, R422). -/
def execEqdoor (s : State) : Host.Outcome State Fault Refusal :=
  .next (if s.reachable && decide (s.ev.queue < 64) then s.eqDoor s.ev.queue (s.ev.value % 2 ^ 32) else s)

/-- ELDOOR (R343, R422). -/
def execEldoor (s : State) : Host.Outcome State Fault Refusal :=
  .next (if s.reachable && decide (s.ev.queue < 10) then s.elDoor s.ev.queue (s.ev.value % 2 ^ 32) else s)

/-- READ_ERROR_LOG (R343, R424): `kind` is the level and `value` the count, at most 64; the newest records come first. -/
def execReadErrorLog (s : State) : Host.Outcome State Fault Refusal :=
  let e := s.ev
  s.command 1 true (fun s =>
    s.checked [(decide (9 < e.kind) || decide (64 < e.value), 2)] (fun s =>
      let rs := (s.errs.filter (fun r => r.level = e.kind)).take e.value
      (s.respond (rs.flatMap (fun r => r.head false ++ leBytes 8 (Config.syndrome r.syn).toNat ++ leBytes 8 r.time))).mailDone 0))

/-- Whether LOG2N is in range for an enabled ring. -/
def ringSize (n : Nat) : Bool := decide (4 ≤ n) && decide (n ≤ 16)

/-- The four words of a launch queue's descriptor (R322). -/
def LQueue.words (q : LQueue) : List Nat :=
  [q.base + (if q.loc then 2 ^ 57 else 0), q.log2n + q.evq * 2 ^ 8 + q.ctx * 2 ^ 16 + (if q.en then 2 ^ 63 else 0), q.head + q.tail * 2 ^ 32, 0]

/-- The four words of the descriptor of an event queue, an error log or a trace ring (R341, R343, R410). -/
def EQueue.words (q : EQueue) : List Nat :=
  [q.base + (if q.loc then 2 ^ 57 else 0), q.log2n + q.vec * 2 ^ 16 + q.ctx * 2 ^ 32 + (if q.en then 2 ^ 63 else 0), q.head + q.tail * 2 ^ 32
  , q.holdoff]

/-- The descriptor that a queue command names: kind and number. -/
def State.descriptor (s : State) (kind n : Nat) : Option (List Nat) :=
  match kind with
  | 0 => if n < 64 then some (LQueue.words (Tab.get s.lqs {} n)) else none
  | 1 => if n < 64 then some (EQueue.words (Tab.get s.eqs {} n)) else none
  | 2 => if n < 10 then some (EQueue.words (Tab.get s.els {} n)) else none
  | 3 => if n < 65536 then some (s.ctx n).ring.words else none
  | _ => none

/-- The bytes of some words. -/
def wordBytes (ws : List Nat) : List Byte := ws.flatMap (fun w => leBytes 8 w)

/-- QUEUE_DESCRIPTOR (R322, R341, R343, R410, R424): `kind` 0 launch, 1 event, 2 error log, 3 trace ring; `queue` the number, a context for
a trace ring; `ints` the four words. With `flag` the command reads the descriptor into the response. -/
def execQueueDescriptor (s : State) : Host.Outcome State Fault Refusal :=
  let e := s.ev
  let w (i : Nat) : Nat := e.ints.getD i 0 % 2 ^ 64
  let base := w 0 % 2 ^ 57
  let loc := w 0 / 2 ^ 57 % 2 = 1
  let log2n := w 1 % 32
  let en := w 1 / 2 ^ 63 = 1
  let head := w 2 % 2 ^ 32
  let tail := w 2 / 2 ^ 32
  let vec := w 1 / 2 ^ 16 % 2048
  let tag := w 1 / 2 ^ 32 % 65536
  let holdoff := w 3 % 65536
  let evRes := w 0 / 2 ^ 58 ≠ 0 || w 1 / 2 ^ 5 % 2 ^ 11 ≠ 0 || w 1 / 2 ^ 27 % 32 ≠ 0 || w 1 / 2 ^ 48 % 2 ^ 15 ≠ 0 || w 3 / 2 ^ 16 ≠ 0
  s.command 3 false (fun s =>
    if e.flag then (match s.descriptor e.kind e.queue with
      | none => s.mailDone 2
      | some ws => (s.respond (wordBytes ws)).mailDone 0)
    else match e.kind with
    | 0 =>
      let d : LQueue := Tab.get s.lqs {} e.queue
      let evq := w 1 / 2 ^ 8 % 64
      let bad := decide (64 ≤ e.queue) || w 0 / 2 ^ 58 ≠ 0 || w 1 / 2 ^ 5 % 8 ≠ 0 || w 1 / 2 ^ 14 % 4 ≠ 0 || w 1 / 2 ^ 32 % 2 ^ 31 ≠ 0 || w 3 ≠ 0
        || base % 256 ≠ 0 || (en && (!ringSize log2n || !(Tab.get s.eqs ({} : EQueue) evq).en || decide (2 ^ log2n < (tail + 2 ^ 32 - d.head) % 2 ^ 32)))
      s.checked [(bad, 2)] (fun s =>
        ({ s with lqs := Tab.set s.lqs {} e.queue { base := base, loc := loc, log2n := log2n, evq := evq, ctx := w 1 / 2 ^ 16 % 65536, en := en
                                                    head := d.head, tail := tail } } : State).mailDone 0)
    | 1 =>
      let d : EQueue := Tab.get s.eqs {} e.queue
      let bad := decide (64 ≤ e.queue) || evRes || base % 32 ≠ 0 || (en && !ringSize log2n)
      s.checked [(bad, 2)] (fun s =>
        ({ s with eqs := Tab.set s.eqs {} e.queue { d with
            base := base, loc := loc, log2n := log2n, vec := vec, ctx := tag, en := en, head := head, holdoff := holdoff } } : State).mailDone 0)
    | 2 =>
      let d : EQueue := Tab.get s.els {} e.queue
      let bad := decide (10 ≤ e.queue) || evRes || base % 32 ≠ 0 || (en && !ringSize log2n)
      s.checked [(bad, 2)] (fun s =>
        ({ s with els := Tab.set s.els {} e.queue { d with
            base := base, loc := loc, log2n := log2n, vec := vec, en := en, head := head, holdoff := holdoff } } : State).mailDone 0)
    | 3 =>
      let bad := decide (65536 ≤ e.queue) || evRes || base % 32 ≠ 0 || (en && !ringSize log2n)
      s.checked [(bad, 2)] (fun s =>
        let put (x : Ctx) : Ctx :=
          let t := Tab.set (Tab.set (Tab.set x.trace 0 0 base) 0 1 (if loc then 1 else 0)) 0 2 log2n
          { x with trace := Tab.set (Tab.set (Tab.set t 0 3 (if en then 1 else 0)) 0 4 head) 0 6 tag, trlost := 0 }
        (s.modCtx e.queue put).mailDone 0)
    | _ => s.mailDone 2)

/-- Bytes of HBM in the table region of each stack (R249). -/
def State.tableBytes (s : State) : Nat := s.tableSegs * 2097152

/-- Whether an access that used a translation of a context is still on its way (R348): to one logical page, or to any. -/
def State.inFlight (s : State) (ctx : Nat) (lpn : Option Nat) : Bool :=
  let hit (l : Nat) : Bool := match lpn with
    | some p => l = p
    | none => true
  let here (p : Place) : Bool := match p with
    | .mem l _ _ => hit (l / 65536)
    | .pad _ _ => false
    | .die _ => false
    | .peer _ _ => false
  s.cores.any (fun k => k.2.stq.any (fun q => q.ctx = ctx && hit (q.lsec / 2048))
    || k.2.slots.any (fun e => s.crewCtx k.1 e.1 = ctx
      && (e.2.loads.any (fun l => l.lanes.any (fun p => here p.place)) || e.2.atoms.any (fun a => here a.place))))
    || s.orphans.any (fun o => (s.node o.lid).ctx = ctx && here o.atom.place)

/-- A command that has changed translations completes once no access that used the old one is on its way (R348); it goes on by its own
row until then. -/
def State.drained (s : State) (ctx : Nat) (lpn : Option Nat) : State :=
  if s.inFlight ctx lpn then { s with busy := some (.drain ctx lpn) } else s.mailDone 0

/-- No core's TLB holds an entry of a context for the pages (R348). -/
def State.tlbDrop (s : State) (ctx : Nat) (p : Nat → Bool) : State :=
  s.modCores (fun k => { k with tlb := k.tlb.filter (fun t => !(t.ctx = ctx && p t.vpn)) })

/-- A command about translations: it goes on when it is the one that waits, else it begins. -/
def State.xlCommand (s : State) (k : State → State) : Host.Outcome State Fault Refusal :=
  match s.busy with
  | some (.drain c p) => if s.inFlight c p then .next s else .next (s.mailDone 0)
  | _ => s.command 3 false k

/-- Nodes of a context that are dispatched and have not completed (R325). -/
def State.openNodes (s : State) (t : Nat) : Bool :=
  s.nodes.any (fun e => e.2.ctx = t && (e.2.phase == .running || e.2.phase == .publishing
    || (e.2.phase == .retired && decide (e.2.status ≠ 1) && decide (e.2.status ≠ 4))))

/-- CONTEXT (R325, R346, R399, R424): `ctx` the tag, `flag` to clear, `ints` words 0 and 1 of the entry. A context that becomes valid
begins with its PROG counters at 0. -/
def execContextSet (s : State) : Host.Outcome State Fault Refusal :=
  let e := s.ev
  let w0 := e.ints.getD 0 0 % 2 ^ 64
  let w1 := e.ints.getD 1 0 % 2 ^ 64
  s.xlCommand (fun s =>
    let x := s.ctx e.ctx
    let v := !e.flag && w0 % 2 = 1
    let root := w0 / 2 ^ 14 % 2 ^ 26 * 16384
    let bad := decide (65536 ≤ e.ctx) || (!e.flag && (w0 / 2 % 2 ^ 13 ≠ 0 || w0 / 2 ^ 40 ≠ 0 || w1 / 2 ^ 7 % 128 ≠ 0 || w1 / 2 ^ 15 % 2 ≠ 0
      || w1 / 2 ^ 32 ≠ 0 || w1 / 2 ^ 16 % 65536 = 0 || (v && (decide (768 * 2 ^ 30 ≤ root) || decide (s.tableBytes ≤ root % 2 ^ 36)))))
    s.checked [(bad, 2), (x.valid && !v && s.openNodes e.ctx, 4)] (fun s =>
      let y : Ctx :=
        if e.flag then { x with valid := false, root := 0, pnq := 0, pnqen := false, aper := false, hpth := 256 }
        else { x with valid := v, root := root, pnq := w1 % 64, pnqen := w1 / 64 % 2 = 1, aper := w1 / 2 ^ 14 % 2 = 1, hpth := w1 / 2 ^ 16 % 65536 }
      let y : Ctx := if v && !x.valid then { y with prog := [] } else y
      let s := { s with ctxs := Tab.set s.ctxs {} e.ctx y }
      if x.valid && (!v || root ≠ x.root) then (s.tlbDrop e.ctx (fun _ => true)).drained e.ctx none else s.mailDone 0))

/-- A table entry as the walk stores it: valid, and the address of the next table (R347). -/
def tableEntry (pa : Nat) : Word := BitVec.ofNat 64 (1 + pa / 16384 * 16384)

/-- The table that an entry names, created when there is none (R347): none when the region is full. -/
def State.tableUnder (s : State) (entry : Nat) : Option (State × Nat) :=
  let e := s.tword entry
  if e.getLsbD 0 then some (s, (e.extractLsb' 14 26).toNat * 16384)
  else
    let r := s.allocTable 16384
    if s.tableBytes < r.2.nextTable then none
    else some ({ r.2 with tables := Tab.set r.2.tables 0 (entry / 8) (tableEntry r.1) }, r.1)

/-- The address of the level-0 entry of a virtual page, with the tables above it (R347). -/
def State.leafAddr (s : State) (ctx vpn : Nat) : Option (State × Nat) :=
  match s.tableUnder ((s.ctx ctx).root + 8 * (vpn / 2 ^ 31 % 1024)) with
  | none => none
  | some a => match a.1.tableUnder (a.2 + 8 * (vpn / 2 ^ 21 % 1024)) with
    | none => none
    | some b => match b.1.tableUnder (b.2 + 8 * (vpn / 2 ^ 11 % 1024)) with
      | none => none
      | some c => some (c.1, c.2 + 8 * (vpn % 2048))

/-- Write the level-0 entry of a virtual page. -/
def State.setLeaf (s : State) (ctx vpn : Nat) (e : Word) : Option State :=
  (s.leafAddr ctx vpn).map (fun a => { a.1 with tables := Tab.set a.1.tables 0 (a.2 / 8) e })

/-- Whether a level-0 entry is well formed: no reserved bit or attribute, and a page below L (R347). -/
def State.leafOk (s : State) (e : Word) : Bool :=
  e.getLsbD 0 && e.extractLsb' 6 10 == 0 && e.extractLsb' 40 24 == 0 && decide ((e.extractLsb' 3 3).toNat < 6)
    && decide ((e.extractLsb' 16 24).toNat * 65536 < s.cap)

/-- The level-0 entry of a virtual page when it maps one. -/
def State.mappedAt (s : State) (ctx vpn : Nat) : Option Word :=
  match s.walk ctx (vpn * 65536) with
  | some e => if e.getLsbD 0 then some e else none
  | none => none

/-- Whether a virtual page lies in the peer aperture (R437). -/
def inAperture (vpn : Nat) : Bool :=
  match regionOf (vpn * 65536) with
  | .aperture _ _ => true
  | _ => false

/-- A change of one mapping: the entry, the TLBs, and the wait for what used the old entry (R348). -/
def State.remap (s : State) (ctx vpn : Nat) (e : Word) : State :=
  let old := s.mappedAt ctx vpn
  match s.setLeaf ctx vpn e with
  | none => s.mailDone 5
  | some s => match old with
    | none => s.mailDone 0
    | some o => (s.tlbDrop ctx (fun v => v = vpn)).drained ctx (some (o.extractLsb' 16 24).toNat)

/-- MAP (R347, R348, R424): `ctx` the tag, `page` the virtual page, `value` the level-0 entry. -/
def execMapPage (s : State) : Host.Outcome State Fault Refusal :=
  let e := s.ev
  let x : Word := BitVec.ofNat 64 e.value
  let lpn := (x.extractLsb' 16 24).toNat
  let attr := (x.extractLsb' 3 3).toNat
  s.xlCommand (fun s =>
    let pg := s.page lpn
    let twice := pg.host && (s.ctxs.any (fun c => c.2.valid
      && (s.leaves c.1).any (fun l => (l.2.extractLsb' 16 24).toNat = lpn && !(c.1 = e.ctx && l.1 = e.page))))
    s.checked [(decide (65536 ≤ e.ctx) || decide (2 ^ 41 ≤ e.page) || inAperture e.page || !s.leafOk x, 2),
        (!(s.ctx e.ctx).valid || !pg.valid || (attr = attrCompressed) != pg.comp || (attr = attrHost) != pg.host || twice, 4)]
      (fun s => s.remap e.ctx e.page x))

/-- UNMAP (R348): a page that is not mapped is refused. -/
def execUnmap (s : State) : Host.Outcome State Fault Refusal :=
  let e := s.ev
  s.xlCommand (fun s =>
    s.checked [(decide (65536 ≤ e.ctx) || decide (2 ^ 41 ≤ e.page), 2), ((s.mappedAt e.ctx e.page).isNone, 4)] (fun s => s.remap e.ctx e.page 0))

/-- PROTECT (R348): the entry of a mapped page with other permissions, or another attribute of the same page. -/
def execProtect (s : State) : Host.Outcome State Fault Refusal :=
  let e := s.ev
  let x : Word := BitVec.ofNat 64 e.value
  let attr := (x.extractLsb' 3 3).toNat
  s.xlCommand (fun s =>
    let pg := s.page (x.extractLsb' 16 24).toNat
    let same := match s.mappedAt e.ctx e.page with
      | some o => o.extractLsb' 16 24 == x.extractLsb' 16 24
      | none => false
    s.checked [(decide (65536 ≤ e.ctx) || decide (2 ^ 41 ≤ e.page) || !s.leafOk x, 2),
        (!same || (attr = attrCompressed) != pg.comp || (attr = attrHost) != pg.host, 4)] (fun s => s.remap e.ctx e.page x))

/-- The tile that becomes the home of a page: the online tiles in turn by page number (R429). -/
def State.homeTile (s : State) (lpn : Nat) : Option Nat :=
  let on := (List.range 8).filter (fun t => s.tilesUp.getLsbD t)
  if on.isEmpty then none else on[lpn % on.length]?

/-- Make a page record with an empty grain table (R349): none without an online tile or room for the table. -/
def State.makePage (s : State) (lpn : Nat) (host comp : Bool) (hbase : Nat) : Option State :=
  match s.homeTile lpn with
  | none => none
  | some t =>
    let r := s.allocTable gtabBytes
    let s := r.2.modPage lpn (fun _ =>
      { valid := true, host := host, comp := comp, hbase := hbase, home := t, gtab := r.1 / 4096, gen := s.gen })
    if s.tableBytes < s.nextTable then none else some s

/-- PAGE_ALLOCATE (R349, R424): `page` the logical page, `flag` HOST, `kind` COMP, `value` HBASE. -/
def execPageAllocate (s : State) : Host.Outcome State Fault Refusal :=
  let e := s.ev
  s.command 3 false (fun s =>
    s.checked [(decide (s.cap ≤ e.page * 65536) || decide (1 < e.kind) || decide (2 ^ 48 ≤ e.value) || (!e.flag && e.value ≠ 0)
        || (e.flag && e.kind = 1), 2), ((s.page e.page).valid, 4)] (fun s =>
      match s.makePage e.page e.flag (e.kind = 1) e.value with
      | none => s.mailDone 5
      | some s => s.mailDone 0))

/-- Free a page record: its sectors lose their names (R252, R348). -/
def State.freePage (s : State) (lpn : Nat) : State :=
  let pg := s.page lpn
  let s := s.loseUpdates (fun u => u.lsec / 2048 = lpn)
  let s := s.each ((s.hpend ++ s.hwait).filter (fun u => u.lsec / 2048 = lpn)) (fun s u =>
    { (s.dropUpdate u) with hwait := s.hwait.filter (fun x => x ≠ u) })
  let gs := s.grains.filter (fun e => e.1 / 128 = lpn)
  let s := s.modPage lpn (fun _ => {})
  let s := { s with grains := s.grains.filter (fun e => e.1 / 128 ≠ lpn)
                    gtabs := s.gtabs.filter (fun e => e.1 / 128 ≠ lpn)
                    freeTabs := (4096 * pg.gtab, gtabBytes) :: s.freeTabs
                    homeClaims := s.homeClaims.filter (fun c => c.grain / 128 ≠ lpn) }
  let s := s.modClusters (fun c => { c with
    gather := c.gather.filter (fun g => g.grain / 128 ≠ lpn)
    ixlb := c.ixlb.filter (fun e => e.grain / 128 ≠ lpn) })
  s.each gs (fun s e => (List.range 16).foldl (fun (s : State) i => s.unrefSrc (e.2.src pg e.1 i)) s)

/-- PAGE_FREE (R252, R348, R424). -/
def execPageFree (s : State) : Host.Outcome State Fault Refusal :=
  let e := s.ev
  s.command 3 false (fun s =>
    s.checked [(decide (s.cap ≤ e.page * 65536), 2), (!(s.page e.page).valid, 4)] (fun s => (s.freePage e.page).mailDone 0))

/-- One grain of a page that migrates: its sectors with code 5 go from host memory, poisoned where the read failed, into one block of the
home's stack (R368, R421). None while no block is free. -/
def State.migrateGrain (s : State) (lg : Nat) : Option State :=
  let pg := s.page (lg / 128)
  let g := s.grain lg
  let secs : Tab Sector := (List.range 16).filterMap (fun i => match g.src pg lg i with
    | .host a => some (i, s.hostSector a)
    | _ => none)
  let s := (List.range 16).foldl (fun (s : State) i => match g.src pg lg i with
    | .host a => s.logHost a 32
    | _ => s) s
  if secs.isEmpty then some s
  else match s.stackBlock (pg.home % 12) with
    | none => none
    | some (b, s) =>
      let s := s.writeBlock b lg secs false true 0
      optEach s secs (fun s e => s.setCommitted (16 * lg + e.1) (16 * b + e.1))

/-- The second half of a migration, once every store that passed its check has been accepted (R368, steps 2 to 6). -/
def State.migrate (s : State) (ctx vpn : Nat) : State :=
  match s.mappedAt ctx vpn with
  | none => s.mailDone 4
  | some o =>
    let lpn := (o.extractLsb' 16 24).toNat
    if s.cores.any (fun k => k.2.stq.any (fun q => q.lsec / 2048 = lpn)) then s
    else match (List.range 128).foldl (fun (t : Option State) i => match t with
        | none => none
        | some t => t.migrateGrain (128 * lpn + i)) (some s) with
      | none => s
      | some s =>
        let r := s.allocTable gtabBytes
        let table := (List.range 128).foldl (fun (t : Tab Grain) i =>
          Tab.set t {} (128 * lpn + i) { s.grain (128 * lpn + i) with written := true }) s.gtabs
        let s := { r.2 with freeTabs := (4096 * (s.page lpn).gtab, gtabBytes) :: s.freeTabs, gtabs := table }
        let s := s.modPage lpn (fun p =>
          { p with host := false, wb := false, notified := false, acnt := 0, hbase := 0, gtab := r.1 / 4096, gen := s.gen })
        match s.setLeaf ctx vpn (o &&& ~~~0x38#64) with
        | none => s.mailDone 5
        | some s => (s.tlbDrop ctx (fun v => v = vpn)).drained ctx (some lpn)

/-- MIGRATE_HOST_PAGE (R257, R296, R368): `ctx` the tag, `page` the virtual page. It sets the write-blocking bit and removes the IXLB entries;
it then goes on by this row until the page is migrated. -/
def execMigrateHostPage (s : State) : Host.Outcome State Fault Refusal :=
  match s.busy with
  | some (.migrate c v) => .next (s.migrate c v)
  | _ =>
    let e := s.ev
    s.command 3 false (fun s =>
      let lpn := match s.mappedAt e.ctx e.page with
        | some o => (o.extractLsb' 16 24).toNat
        | none => 0
      s.checked [(decide (65536 ≤ e.ctx) || decide (2 ^ 41 ≤ e.page), 2),
          (!(s.ctx e.ctx).valid || (s.mappedAt e.ctx e.page).isNone || !(s.page lpn).host, 4)] (fun s =>
        let s := { (s.modPage lpn (fun p => { p with wb := true })) with busy := some (.migrate e.ctx e.page) }
        s.modClusters (fun c => { c with ixlb := c.ixlb.filter (fun x => x.grain / 128 ≠ lpn) })))

/-- SCRUB_RATES (R262): `kind` the level group, 0 core memories, 1 L2, 2 HBM; `value` the period in ns. -/
def execScrubRates (s : State) : Host.Outcome State Fault Refusal :=
  let e := s.ev
  let range := match e.kind with
    | 0 => (1000000, 100000000)
    | 1 => (10000000, 1000000000)
    | _ => (300000000000, 86400000000000)
  s.command 3 false (fun s =>
    s.checked [(decide (2 < e.kind) || decide (e.value < range.1) || decide (range.2 < e.value), 2)] (fun s =>
      ({ s with scrubRates := Tab.set s.scrubRates 0 e.kind e.value } : State).mailDone 0))

/-- Shard descriptors of 128 bytes each. -/
def shardList : List Byte → Nat → List (List Byte)
  | _, 0 => []
  | bs, n + 1 => if bs.length < 128 then [] else bs.take 128 :: shardList (bs.drop 128) n

/-- MESH_AND_SHARDS (R396, R397): `ints` DIMS, SIZE0 to SIZE3, COORD0 to COORD3 and RANK; `bytes` the shard descriptors of context `ctx`. -/
def execMeshAndShards (s : State) : Host.Outcome State Fault Refusal :=
  let e := s.ev
  let n (i : Nat) : Nat := e.ints.getD i 0
  let xs := shardList e.bytes 32
  let okShard (b : List Byte) : Bool :=
    fieldAt b 0 8 % 16 = 2 && fieldAt b 0 8 / 16 % 65536 = e.ctx && [1, 2, 4, 8].contains (fieldAt b 0x24 4 % 16)
  s.command 3 false (fun s =>
    s.checked [(e.bytes.length % 128 ≠ 0, 1), (decide (n 0 < 1) || decide (4 < n 0) || (e.ints.drop 1).any (fun x => decide (2 ^ 32 ≤ x))
        || (List.range (n 0)).any (fun i => decide (n (1 + i) ≤ n (5 + i)) || decide (65536 ≤ n (1 + i)))
        || !xs.all okShard, 2)] (fun s =>
      ({ s with mesh := (List.range 10).map n, shards := s.shards ++ xs } : State).mailDone 0))

/-- The code of a role (R358). -/
def roleCode (r : Role) : Nat :=
  match r with
  | .copy => 0
  | .matrix => 1
  | .vector => 2

/-- The lease-table row of a crew slot (R358): its three words. -/
def State.leaseRow (s : State) (core sl : Nat) : List Nat :=
  match s.crew? core sl with
  | none => [0, 0, 0]
  | some w =>
    let g := s.group w.group
    let st : Nat := if w.stopped then 3 else if g.prologue then 1 else 2
    let bit (b : Bool) (i : Nat) : Nat := if b then 2 ^ i else 0
    [st + bit w.peloton 2 + bit (s.longWait core sl) 3 + roleCode w.role * 2 ^ 4 + bit w.sys 6 + bit w.tandem 7 + w.no % 16 * 2 ^ 8
      + s.crewCtx core sl * 2 ^ 16 + s.crewTag core sl * 2 ^ 32, g.lseq + g.gnum * 2 ^ 32, g.node]

/-- The commit register and the four node commit words of a cluster (R355). -/
def State.commitWords (s : State) (k : Nat) : List Nat :=
  let c := s.cluster k
  c.rseq.toNat :: (List.range 4).map (fun i => match c.ncw[i]? with
    | some w => 1 + w.tag * 2 + w.rseq.toNat * 2 ^ 32
    | none => 0)

/-- The staging-table entry of a tag (R355). -/
def Staging.word (x : Staging) : Nat :=
  match x with
  | .free => 0
  | .running l => 1 + l * 2 ^ 26
  | .committed l => 2 + l * 2 ^ 26
  | .discarded l => 3 + l * 2 ^ 26

/-- DEBUG (R355, R358, R412, R415): `kind` 0 sets or clears the debug stops of context `ctx` by `flag`; 1 configures run comparison for the
node `value`, comparing with the recording in `ints` when `flag`; 2 ends it; 3 reads the lease row of `core` and `slot`, 4 the commit
register and node commit words of `cluster`, 5 the staging entry of the tag `value` (log 17). -/
def execDebugCtl (s : State) : Host.Outcome State Fault Refusal :=
  let e := s.ev
  let rec entries (n : Nat) (xs : List Nat) : List (Nat × Nat × Bool × Nat) :=
    match n, xs with
    | n + 1, g :: c :: k :: v :: rest => (g, c, k = 1, v) :: entries n rest
    | _, _ => []
  s.command 3 false (fun s =>
    match e.kind with
    | 0 => s.checked [(decide (65536 ≤ e.ctx), 2)] (fun s => (s.modCtx e.ctx (fun x => { x with dstop := e.flag })).mailDone 0)
    | 1 => ({ s with runcmp := { on := true, lid := e.value, compare := e.flag, recording := entries e.ints.length e.ints } } : State).mailDone 0
    | 2 => ({ s with runcmp := {} } : State).mailDone 0
    | 3 => s.checked [(decide (2048 ≤ e.core) || decide (32 ≤ e.slot), 2)] (fun s => (s.respond (wordBytes (s.leaseRow e.core e.slot))).mailDone 0)
    | 4 => s.checked [(decide (256 ≤ e.cluster), 2)] (fun s => (s.respond (wordBytes (s.commitWords e.cluster))).mailDone 0)
    | 5 => s.checked [(decide (4096 ≤ e.value), 2)] (fun s => (s.respond (wordBytes [(s.staging e.value).word])).mailDone 0)
    | _ => s.mailDone 2)

/-- Windows from numbers: base and length in units of 64 KiB, and mode (R436). -/
def windowsOf : List Nat → List PeerWindow
  | b :: l :: m :: rest => { base := b * 65536, len := l * 65536, write := m = 1 } :: windowsOf rest
  | _ => []

/-- PEERS (R365, R366, R436, R440): `kind` 0 writes the entry of peer `idx`, serial `value`, ports `ints`, and
retrains those that have failed (R434), and fails those that have another partner (R441); 1 removes it; 2 grants it the
windows in `ints`; 3 names it the replica peer; 4 releases the replica roots in `ints`, each 16 × its peer + its slot. -/
def execPeers (s : State) : Host.Outcome State Fault Refusal :=
  let e := s.ev
  s.command 3 false (fun s =>
    let r := Tab.find s.peers e.idx
    let p := r.getD {}
    match e.kind with
    | 0 => s.checked [(decide (4096 ≤ e.idx) || e.ints.any (fun x => decide (16 ≤ x)), 2)] (fun s =>
        let s := { s with peers := Tab.put s.peers e.idx { p with serial := e.value, ports := e.ints } }
        let again (i : Nat) : Bool := (Tab.get s.ports ({} : Port) i).st = .failed
        let retrain (t : Tab Port) (i : Nat) : Tab Port := Tab.set t {} i { (Tab.get t {} i) with st := .recovering s.timeNs }
        let s := { s with ports := (e.ints.filter again).foldl retrain s.ports }
        let other (i : Nat) : Bool := match (s.port i).partner with
          | some v => (s.port i).st.runs && decide (v ≠ e.value)
          | none => false
        (s.each (e.ints.filter other) (fun s i => s.wrongPartner i)).mailDone 0)
    | 1 => s.checked [(decide (4096 ≤ e.idx), 2), (r.isNone, 4)] (fun s => ({ s with peers := Tab.erase s.peers e.idx } : State).mailDone 0)
    | 2 => s.checked [(e.ints.length % 3 ≠ 0, 1), (decide (4096 ≤ e.idx) || decide (16 < (windowsOf e.ints).length)
          || e.ints.zipIdx.any (fun x => x.2 % 3 = 2 && decide (1 < x.1))
          || (windowsOf e.ints).any (fun w => decide (s.cap < w.base + w.len)), 2), (r.isNone, 4)] (fun s =>
        ({ s with peers := Tab.put s.peers e.idx { p with granted := windowsOf e.ints } } : State).mailDone 0)
    | 3 => s.checked [(decide (4096 ≤ e.idx), 2), (r.isNone, 4)] (fun s => ({ s with replica := some e.idx } : State).mailDone 0)
    | 4 => ({ s with replicaRoots := s.replicaRoots.filter (fun x => !e.ints.contains (16 * x.peer + x.slot)) } : State).mailDone 0
    | _ => s.mailDone 2)

/-- Partners from numbers: peer and launch identifier (R442). -/
def partnersOf : List Nat → List (Nat × Nat)
  | p :: l :: rest => (p, l) :: partnersOf rest
  | _ => []

/-- CROSS_DEVICE_BARRIER (R442): `value` the launch identifier, `ints` the partners. -/
def execCrossDeviceBarrier (s : State) : Host.Outcome State Fault Refusal :=
  let e := s.ev
  let ps := partnersOf e.ints
  s.command 3 false (fun s =>
    s.checked [(e.ints.length % 2 ≠ 0, 1), (decide (2 ^ 38 ≤ e.value) || decide (16 < ps.length), 2),
        (ps.any (fun p => (Tab.find s.peers p.1).isNone), 4)] (fun s =>
      ({ s with xbars := { lid := e.value, partners := ps } :: s.xbars.filter (fun b => b.lid ≠ e.value) } : State).mailDone 0))

end Sys2Proof.Machine
end

