-- ==== Sys2Proof/Machine/StartEv.lean ====
section
/-! DEFINITION. The start of the device, its firmware and attestation, temperature and supply (R426 to R432, R435). -/

namespace Sys2Proof.Machine

/-- Where the parts of a firmware image stand (log 19): the header of 64 bytes with the security version first, the modulus of the key, the
signature, the body. -/
def imageParts (b : List Byte) : Nat × List Byte × List Byte × List Byte × List Byte :=
  (fieldAt b 0 8, b.take 64, (b.drop 64).take 384, (b.drop 448).take 384, b.drop 832)

/-- Whether an image is accepted (R430): its key, its signature over header and body, and its security version. -/
def imageOk (floor : Nat) (b : List Byte) : Bool :=
  let p := imageParts b
  decide (832 ≤ b.length) && sha256 p.2.2.1 = Config.rootDigest && pssVerify p.2.2.1 (sha256 (p.2.1 ++ p.2.2.2.2)) p.2.2.2.1 && decide (floor ≤ p.1)

/-- The stage-1 image that the boot ROM accepts: bank A, then bank B (R430). -/
def State.bootImage (s : State) : Option (List Byte) :=
  if imageOk s.fuseFloor s.flashA then some s.flashA else if imageOk s.fuseFloor s.flashB then some s.flashB else none

/-- What a reset keeps: host memory with its errors and the messages sent to it, flash and fuses, the serial number, and the model's own turns and free values
(R427). -/
def State.kept (s : State) : State :=
  { State.reset with
    host := s.host, hostErr := s.hostErr, msix := s.msix, fuseFloor := s.fuseFloor, flashA := s.flashA, flashB := s.flashB, stage2 := s.stage2, serial := s.serial, fresh := s.fresh
    agenda := s.agenda, ev := s.ev }

/-- DEVICE_RESET (R427, R430): everything else takes its reset value; the boot ROM verifies the stage-1 firmware, or fails the device. -/
def execDeviceReset (s : State) : Host.Outcome State Fault Refusal :=
  let s := s.kept
  match s.bootImage with
  | none => .next { s with phase := 15, fwrej := true }
  | some b => .next { s with stage1 := b }

/-- SAFE_PHASE_REACHED (R428, R430): the stage-1 firmware verifies the stage-2 images by the same rule, and one that is rejected fails the
device. The first successful boot of an image with a higher security version raises the floor. -/
def execSafePhaseReached (s : State) : Host.Outcome State Fault Refusal :=
  if s.phase ≠ 0 || !s.powered then .next s
  else if !s.stage2.all (imageOk s.fuseFloor) then .next { s with phase := 15, fwrej := true }
  else .next { s with phase := 1, fuseFloor := if s.fuseFloor < (imageParts s.stage1).1 then (imageParts s.stage1).1 else s.fuseFloor }

/-- HBM_TRAINING_COMPLETE (R261, R428, R429): the lanes in `ints`, each 128 × its channel's unit + its number, have been found bad and are
spared; `flag` says that `stack` cannot be trained, which is logged and fails the device. -/
def execHbmTrainingComplete (s : State) : Host.Outcome State Fault Refusal :=
  if s.phase ≠ 1 then .next s
  else
  let s := s.each s.ev.ints (fun s x => s.spareLane (x / 128 % 192) (x % 128) 0)
  if s.ev.flag then .next { (s.logErr { level := 0, kind := 8, unit := s.ev.stack * 16 }) with phase := 15 }
  else .next { s with phase := 2, started := s.timeNs }

/-- The default capacity: 512 GiB (R429). -/
def defaultCapacity : Nat := 512 * 2 ^ 30

/-- INITIALISE (R424, R428, R429): `value` the logical capacity in bytes. -/
def execInitialiseCmd (s : State) : Host.Outcome State Fault Refusal :=
  let v := s.ev.value
  s.command 2 false (fun s =>
    s.checked [(decide (v < defaultCapacity) || decide (640 * 2 ^ 30 < v) || v % 65536 ≠ 0, 2), (s.phase ≠ 2 || s.capacity.isSome, 4)]
      (fun s => ({ s with capacity := some v } : State).mailDone 0))

/-- Time in PHASE 2 after which the default capacity is taken, in ns (R429). -/
def initialiseLimit : Nat := 2000000000

/-- INITIALISE_TIMEOUT (R429). -/
def execInitialiseTimeout (s : State) : Host.Outcome State Fault Refusal :=
  if s.phase = 2 && s.capacity.isNone && decide (s.started + initialiseLimit ≤ s.timeNs) then .next { s with capacity := some defaultCapacity } else .next s

/-- Segments of each stack in the table region from initialisation on (R249; log 9). -/
def tableSegments : Nat := 2048

/-- LOG_INITIALISED (R428, R429): the capacity is fixed, the table regions are written, every segment is free and the live root empty. -/
def execLogInitialised (s : State) : Host.Outcome State Fault Refusal :=
  if s.phase = 2 && s.capacity.isSome then
    let r := ({ s with nextTable := ownTables } : State).allocTable rootBytes
    .next { r.2 with phase := 3, tableSegs := tableSegments, root := { addr := r.1, gen := s.gen }, segs := [], masks := [], pages := []
                     grains := [], gtabs := [], ctxs := [], tables := [], freeTabs := [], tabPool := [] }
  else .next s

/-- TILE_SELF_TEST (R429): `flag` says that `tile` passed. -/
def execTileSelfTest (s : State) : Host.Outcome State Fault Refusal :=
  let t := s.ev.tile
  if 8 ≤ t || s.selfTest / 2 ^ t % 2 = 1 || s.phase < 1 || 3 < s.phase then .next s
  else
    let s := { s with selfTest := s.selfTest + 2 ^ t }
    .next (if s.ev.flag then { s with tilesUp := s.tilesUp ||| BitVec.ofNat 8 (2 ^ t) } else { s with degraded := true })

/-- The attestation report over a nonce (R432). -/
def State.report (s : State) (nonce : List Byte) : State × List Byte :=
  let img := s.stage1
  let f := s.newFree
  let body := leBytes 8 1 ++ leBytes 8 s.serial ++ leBytes 4 Config.romVersion.toNat ++ leBytes 4 (imageParts img).1
    ++ leBytes 8 (s.tilesUp.toNat + (if s.degraded then 256 else 0)) ++ leBytes 8 s.cap ++ leBytes 8 s.timeNs
    ++ (nonce ++ List.replicate 32 0).take 32 ++ sha256 img ++ sha256 (s.stage2.flatMap sha256)
    ++ sha256 Config.identityKey ++ List.replicate 48 0
  let body := body ++ List.replicate (256 - body.length) 0
  (f.2, body ++ (Config.sign (sha256 body) f.1 ++ List.replicate 384 0).take 384)

/-- ATTESTATION_SIGNED (R428, R432): every tile has been tested, and the report made at start, whose nonce is 0, is signed. -/
def execAttestationSigned (s : State) : Host.Outcome State Fault Refusal :=
  if s.phase = 3 && s.selfTest = 255 then
    let r := s.report (List.replicate 32 0)
    .next { r.1 with phase := 4, attest := true, startReport := r.2 }
  else .next s

/-- READ_ATTESTATION (R431, R432): `bytes` the nonce. A fresh report, then the certificate. -/
def execReadAttestation (s : State) : Host.Outcome State Fault Refusal :=
  let nonce := s.ev.bytes
  s.command 4 false (fun s =>
    s.checked [(nonce.length ≠ 32, 1)] (fun s =>
      let r := s.report nonce
      (r.1.respond (r.2 ++ Config.certificate)).mailDone 0))

/-- FIRMWARE_UPDATE (R430): `bytes` the image, `idx` the bank, 0 A or 1 B; verified before the bank is written. -/
def execFirmwareUpdate (s : State) : Host.Outcome State Fault Refusal :=
  let e := s.ev
  s.command 1 true (fun s =>
    s.checked [(decide (1 < e.idx), 2), (!imageOk s.fuseFloor e.bytes, 6)] (fun s =>
      (if e.idx = 0 then { s with flashA := e.bytes } else { s with flashB := e.bytes } : State).mailDone 0))

/-- A temperature of 16 signed bits in units of 1/16 °C (R422). -/
def degrees (x : BitVec 16) : Int := x.toInt

/-- THERMAL_THROTTLE (R422, R435): a reading: `value` TJMAX, `ints` TINLET and POWER. The clock steps down while TJMAX exceeds 105 °C; below
that it steps up again, and THROT says whether it is below 3.6 GHz (log 20). -/
def execThermalThrottle (s : State) : Host.Outcome State Fault Refusal :=
  let e := s.ev
  let tj := BitVec.ofNat 16 e.value
  let c := if 105 * 16 < degrees tj then (if s.clock ≤ 1 then 1 else s.clock - 1) else if s.clock < 36 then s.clock + 1 else 36
  if s.phase = 0 || !s.powered then .next s
  else .next { s with tjmax := tj, tinlet := BitVec.ofNat 16 (e.ints.getD 0 0), power := BitVec.ofNat 16 (e.ints.getD 1 0), clock := c
                      throt := decide (c < 36) }

/-- THERMAL_SHUTDOWN (R435): at 115 °C a KIND 10 record is written, and the tiles are powered off with all that they hold. -/
def execThermalShutdown (s : State) : Host.Outcome State Fault Refusal :=
  if s.tilesUp ≠ 0 && decide (115 * 16 ≤ degrees s.tjmax) then
    let s := s.logErr { level := 9, kind := 10, unit := 17 }
    .next { s with tilesUp := 0, cores := [], groups := [], clusters := [], pending := [], marked := [], markHead := none, l2 := [] }
  else .next s

/-- SUPPLY_OFF (R426): the device keeps no powered domain. -/
def execSupplyOff (s : State) : Host.Outcome State Fault Refusal := .next { s.kept with powered := false }

end Sys2Proof.Machine
end

