-- ==== Sys2Proof/Machine/LinkEv.lean ====
section
/-! DEFINITION. Links and peers: flits, training, failures, a peer's accesses to this device, the replicas kept for it, windows and cross-device arrivals (R285, R408,
R433 to R442). -/

namespace Sys2Proof.Machine

/-- Whether a flit's CRC is right (R433): over bytes 0 to 247, little-endian in bytes 248 to 255. -/
def flitCrc (b : List Byte) : Bool := b.length = 256 && decide ((crc64 (b.take 248)).toNat = fieldAt b 248 8)

/-- Failed receptions of one flit after which a port retrains: the first and eight retries (R434). -/
def flitFailures : Nat := 9

/-- A flit (R433): its sequence number, the number that it acknowledges, its type, the credits that it returns, and its payload. -/
def flitOf (seq ack kind credits : Nat) (payload : List Byte) : List Byte :=
  let b := leBytes 8 (seq % 4096 + ack % 4096 * 2 ^ 12 + kind % 16 * 2 ^ 24 + credits % 65536 * 2 ^ 28) ++ (payload ++ List.replicate 240 0).take 240
  b ++ leBytes 8 (crc64 b).toNat

/-- The sequence number of a flit (R433). -/
def flitSeq (b : List Byte) : Nat := fieldAt b 0 8 % 4096

/-- Flits that a sender keeps for replay (R434). -/
def replayPlaces : Nat := 512

/-- A port without the kept flits up to the number that its partner acknowledges (R433, R434). -/
def Port.acked (p : Port) (a : Nat) : Port :=
  match p.replay.findIdx? (fun b => flitSeq b = a) with
  | some k => { p with replay := p.replay.drop (k + 1) }
  | none => p

/-- A port takes a flit whose CRC and sequence number are right: the next number is expected, and what the flit acknowledges and the credits
that it returns are the port's (R433). What its payload asks comes by the rows of the accesses (log 31). -/
def Port.take (p : Port) (b : List Byte) : Port :=
  let h := fieldAt b 0 8
  { (p.acked (h / 2 ^ 12 % 4096)) with
    rxSeq := (p.rxSeq + 1) % 4096, retries := 0, retryFrom := none, credits := p.credits + h / 2 ^ 28 % 65536 }

/-- A port sends a flit and keeps it for replay, while it has a place for it (R433, R434). It acknowledges the last flit that it took. -/
def Port.send (p : Port) (kind credits : Nat) (payload : List Byte) : Port :=
  if replayPlaces ≤ p.replay.length then p
  else
    let b := flitOf p.txSeq (p.rxSeq + 4095) kind credits payload
    { p with txSeq := (p.txSeq + 1) % 4096, replay := p.replay ++ [b], out := p.out ++ [b] }

/-- A port discards a flit: it asks its partner to send again from the first number that is missing, and retrains after eight retries
(R434). -/
def Port.discard (p : Port) (now : Nat) : Port :=
  let p := { p with retryFrom := some p.rxSeq }
  if p.retries + 1 < flitFailures then { p with retries := p.retries + 1 } else { p with retries := 0, st := .recovering now }

/-- FLIT_RECEIVE (R433, R434): port `idx` receives the flit `bytes`; one whose CRC or sequence number fails is discarded. With `kind` 1 the port
sends a flit of type `value` with payload `bytes`, which returns the credits `addr`; with `kind` 2 its partner asks for the flits from number
`value` on again (DESIGN CHOICE, log 31: the spec gives no codes of flit types and no form of a request for retry). -/
def execFlitReceive (s : State) : Host.Outcome State Fault Refusal :=
  let e := s.ev
  let i := e.idx
  let p := s.port i
  if !p.st.runs || 16 ≤ i then .next s
  else match e.kind with
    | 0 => .next (s.setPort i (if flitCrc e.bytes && flitSeq e.bytes = p.rxSeq then p.take e.bytes else p.discard s.timeNs))
    | 1 => .next (s.setPort i (p.send e.value e.addr e.bytes))
    | 2 => .next (s.setPort i { p with out := p.out ++ p.replay.dropWhile (fun b => flitSeq b ≠ e.value) })
    | _ => .next s

/-- LINK_TRAINING (R434, R441): port `idx` has trained with the partner of serial number `value`; `flag` says that `lane` failed, which halves
the rate. A partner that the peer table does not name fails the port. A failed port trains only after a reset or a Peers command. -/
def execLinkTraining (s : State) : Host.Outcome State Fault Refusal :=
  let i := s.ev.idx
  let p := s.port i
  if 16 ≤ i || p.st = .failed then .next s
  else
    let s := if s.ev.flag then s.logErr { level := 9, kind := 5, unit := i, lane := s.ev.lane } else s
    let s := s.setPort i { p with st := (if s.ev.flag then .half else .up), retries := 0, partner := some s.ev.value }
    if s.peers.any (fun e => e.2.ports.contains i && decide (e.2.serial ≠ s.ev.value)) then
      .next (s.wrongPartner i)
    else .next s

/-- Time that a port may take to retrain, in ns (R434). -/
def retrainLimit : Nat := 10000000000

/-- Whether a port has been recovering for too long. -/
def State.portLate (s : State) (i : Nat) : Bool :=
  match (s.port i).st with
  | .recovering t => decide (t + retrainLimit ≤ s.timeNs)
  | .up => false
  | .half => false
  | .failed => false

/-- PORT_FAIL (R434, R439). -/
def execPortFail (s : State) : Host.Outcome State Fault Refusal :=
  if s.portLate s.ev.idx then .next (s.portDown s.ev.idx) else .next s

/-- Whether a peer has a window for an access of it to this device (R436). -/
def State.granted (s : State) (p a n : Nat) (write : Bool) : Bool :=
  match Tab.find s.peers p with
  | none => false
  | some r => r.granted.any (fun w => decide (w.base ≤ a) && decide (a + n ≤ w.base + w.len) && (w.write || !write))

/-- Whether a peer's store must wait at the home: an open claim or a pending update of its grain (R438). -/
def State.grainTaken (s : State) (a : Nat) : Bool :=
  let lg := a / 512
  s.homeClaims.any (fun c => c.grain = lg) || s.hpend.any (fun u => u.lsec / 16 = lg) || s.hwait.any (fun u => u.lsec / 16 = lg)

/-- An answer leaves for a peer (R438). -/
def State.answerPeer (s : State) (p a : Nat) (r : PeerAnswer) : State :=
  { s with peerReplies := s.peerReplies ++ [{ peer := p, addr := a, answer := r }] }

/-- A peer's store is applied as a one-sector update, committed at once and acknowledged (R438); none while no block can be had for it
(R256). Its words in `pois`, counted from that of its first byte, are stored poisoned (R333). -/
def State.peerApply (s : State) (q : PeerStore) : Option State :=
  let bad (lsec : Nat) : BitVec 4 := BitVec.ofNat 4 (((List.range 4).map (fun i =>
    if decide (q.addr / 8 ≤ 4 * lsec + i) && q.pois.contains (4 * lsec + i - q.addr / 8) then 2 ^ i else 0)).sum)
  (optEach s (sectorPieces q.addr q.data) (fun s p => s.atomicStore p.1 ((s.readSrc (s.committedSrc p.1)).merge p.2.1 p.2.2 (bad p.1)))).map
    (fun s => s.answerPeer q.peer q.addr .ack)

/-- The first waiting store of a peer that can go on. -/
def State.peerReady (s : State) : Option PeerStore :=
  s.peerIn.find? (fun q => !s.grainTaken q.addr && !s.moving (q.addr / 32) && s.granted q.peer q.addr q.data.length true)

/-- Bytes that a peer loads, with the poison of each word: the version that is committed at the home for every reader (R271, R438). -/
def State.peerRead (s : State) (a n : Nat) : State × PeerAnswer :=
  let r := (List.range ((a % 32 + n + 31) / 32)).foldl (fun (x : State × List Sector) i =>
    let h := x.1.homeSector (x.1.lookup 0 (a / 32 + i))
    (h.1, x.2 ++ [h.2])) (s, [])
  let bits := (r.2.flatMap (fun x => (List.range 4).map (fun i => x.poison.getLsbD i))).drop (a % 32 / 8)
  (r.1, .data (((r.2.flatMap Sector.bytes).drop (a % 32)).take n) (bits.take ((a % 8 + n + 7) / 8)))

/-- The block that a position lies in, if any. -/
def posBlock (pos : Nat) : Option Nat :=
  match posSrc pos with
  | .log p => some (p / 16)
  | .comp b _ => some b
  | .zero => none
  | .host _ => none
  | .lost => none

/-- Apply the commit records of a replica that wait, each whole and in order of commit time, as far as the blocks that they name are there
(R365). Fuel: their number. -/
def Replica.apply (r : Replica) : Nat → Replica
  | 0 => r
  | n + 1 =>
    match r.waiting.foldl (fun (b : Option ReplicaCommit) c => match b with
        | none => some c
        | some x => if c.time < x.time then some c else some x) none with
    | none => r
    | some c =>
      if c.set.all (fun e => match posBlock e.2 with
          | some b => (Tab.find r.blocks b).isSome
          | none => true) then
        Replica.apply { r with waiting := r.waiting.erase c, index := c.set.foldl (fun t e => Tab.put t e.1 e.2) r.index } n
      else r

/-- Pairs from a list of numbers. -/
def pairsOf : List Nat → List (Nat × Nat)
  | a :: b :: rest => (a, b) :: pairsOf rest
  | _ => []

/-- A change of the replica that this device keeps for a peer (R365). -/
def State.modReplica (s : State) (p : Nat) (f : Replica → Replica) : State :=
  let r := f ((Tab.find s.replicas p).getD {})
  { s with replicas := Tab.put s.replicas p (r.apply r.waiting.length) }

/-- A replica root arrives from a peer: it releases those that the peer shipped from earlier slots, or from the same (R366). -/
def State.keepRoot (s : State) (r : ReplicaRoot) : State :=
  { s with replicaRoots := s.replicaRoots.filter (fun x => !(x.peer = r.peer && (x.slot = r.slot || decide (x.gen < r.gen)))) ++ [r] }

/-- PEER_ACCESS (R365, R366, R438): peer `idx` loads `value` bytes (`kind` 0) or stores `bytes` with the words in `ints` poisoned (`kind` 1) at
logical address `addr`, and is answered; with `kind` 2 the first waiting store that can go on is applied. The peer's outflow brings a data
block `bytes` of number `addr` (`kind` 3) or a commit record of device time `value`, whose release set `ints` names by sector and position
(`kind` 4); its SHIP of slot `value` and generation `seq` brings a root, which `ints` gives in the same way (`kind` 5) (log 31). -/
def execPeerAccess (s : State) : Host.Outcome State Fault Refusal :=
  let e := s.ev
  match e.kind with
  | 0 =>
    if !s.granted e.idx e.addr e.value false || !(s.page (e.addr / 65536)).valid then .next (s.answerPeer e.idx e.addr .refused)
    else if s.moving (e.addr / 32) then .next s
    else
      let r := s.peerRead e.addr e.value
      .next (r.1.answerPeer e.idx e.addr r.2)
  | 1 =>
    let q : PeerStore := { peer := e.idx, addr := e.addr, data := e.bytes, since := s.timeNs, pois := e.ints }
    let wait : State := { s with peerIn := s.peerIn ++ [q] }
    if !s.granted e.idx e.addr e.bytes.length true || !(s.page (e.addr / 65536)).valid then .next (s.answerPeer e.idx e.addr .refused)
    else if s.grainTaken e.addr || s.moving (e.addr / 32) || s.peerIn.any (fun r => r.peer = e.idx && r.addr / 32 = e.addr / 32) then .next wait
    else .next ((s.peerApply q).getD wait)
  | 2 =>
    match s.peerReady with
    | none => .next s
    | some q => .next ((({ s with peerIn := s.peerIn.erase q } : State).peerApply q).getD s)
  | 3 => .next (s.modReplica e.idx (fun r => { r with blocks := Tab.put r.blocks e.addr e.bytes }))
  | 4 => .next (s.modReplica e.idx (fun r => { r with waiting := r.waiting ++ [{ time := e.value, set := pairsOf e.ints }] }))
  | 5 => .next (s.keepRoot { peer := e.idx, slot := e.value % 16, gen := e.seq, index := (pairsOf e.ints).foldl (fun t x => Tab.put t x.1 x.2) [] })
  | _ => .next s

/-- Time that a peer's store may wait at a home, in ns (R438). -/
def peerStoreLimit : Nat := 1000000

/-- The first waiting store of a peer that is refused: it has waited its time, or its window has been revoked (R438). -/
def State.peerLate (s : State) : Option PeerStore :=
  s.peerIn.find? (fun q => decide (q.since + peerStoreLimit ≤ s.timeNs) || !s.granted q.peer q.addr q.data.length true)

/-- PEER_STORE_REFUSE (R438). -/
def execPeerStoreRefuse (s : State) : Host.Outcome State Fault Refusal :=
  match s.peerLate with
  | none => .next s
  | some q => .next (({ s with peerIn := s.peerIn.erase q } : State).answerPeer q.peer q.addr .refused)

/-- PEER_WINDOW_REFRESH (R436): with `kind` 0 peer `idx` gets its copy of the windows granted to it; with `kind` 1 the windows in `ints` are those
that it grants this device now. -/
def execPeerWindowRefresh (s : State) : Host.Outcome State Fault Refusal :=
  match Tab.find s.peers s.ev.idx with
  | none => .next s
  | some r =>
    let r := if s.ev.kind = 0 then { r with grantedCopy := r.granted } else { r with windows := windowsOf s.ev.ints }
    .next { s with peers := Tab.put s.peers s.ev.idx r }

/-- CROSS_DEVICE_BARRIER_ARRIVAL (R442): gang `value` of partner `idx` of the binding of node `addr` arrives at its next GBAR. -/
def execCrossDeviceBarrierArrival (s : State) : Host.Outcome State Fault Refusal :=
  let e := s.ev
  let k := arrivalKey e.idx e.value
  let bound (b : XBarrier) : Bool := b.lid = e.addr && decide (e.idx < b.partners.length)
  .next { s with xbars := mapIf bound (fun b => { b with arrivals := Tab.set b.arrivals 0 k (Tab.get b.arrivals 0 k + 1) }) s.xbars }

end Sys2Proof.Machine
end

