-- ==== Sys2Proof/Machine/Checkpoint.lean ====
section
/-! DEFINITION. Checkpoints and reloads (R395 to R398). The content of shards of kinds 0, 1 and 3 is the model's own layout where the manual names
only what they hold (log 21). -/

namespace Sys2Proof.Machine

/-- A shard: its table entry without the digest, and its bytes (R397). -/
structure Shard where
  kind : Nat
  ctx : Nat
  lbase : Nat := 0
  tensor : Nat := 2 ^ 32 - 1
  esize : Nat := 1
  row : Nat := 0
  col : Nat := 0
  rows : Nat := 0
  cols : Nat := 0
  stride : Nat := 0
  bytes : List Byte := []
  deriving DecidableEq, Repr

/-- The table entry of a shard at an offset of the image (R397). -/
def Shard.entry (x : Shard) (off : Nat) : List Byte :=
  leBytes 8 (x.kind + x.ctx * 16) ++ leBytes 8 off ++ leBytes 8 x.bytes.length ++ leBytes 8 x.lbase ++ leBytes 4 x.tensor ++ leBytes 4 x.esize
    ++ leBytes 4 x.row ++ leBytes 4 x.col ++ leBytes 4 x.rows ++ leBytes 4 x.cols ++ leBytes 8 x.stride ++ sha256 x.bytes ++ List.replicate 32 0

/-- A shard's fields from a table entry or a registered descriptor (R397). -/
def Shard.parse (b : List Byte) : Shard :=
  let w := fieldAt b 0 8
  { kind := w % 16, ctx := w / 16 % 65536, lbase := fieldAt b 0x18 8 % 2 ^ 40, tensor := fieldAt b 0x20 4, esize := fieldAt b 0x24 1 % 16
    row := fieldAt b 0x28 4, col := fieldAt b 0x2C 4, rows := fieldAt b 0x30 4, cols := fieldAt b 0x34 4, stride := fieldAt b 0x38 8 % 2 ^ 40 }

/-- Bytes of a logical range as a reader of the snapshot sees them, and the map of one bit for each poisoned word (R397). -/
def State.rangeBytes (s : State) (a n : Nat) : List Byte :=
  let secs := (List.range ((a % 32 + n + 31) / 32)).map (fun i => s.readSrc (s.committedSrc (a / 32 + i)))
  let bytes := ((secs.flatMap Sector.bytes).drop (a % 32)).take n
  let bits := (secs.flatMap (fun x => (List.range 4).map (fun i => x.poison.getLsbD i))).drop (a % 32 / 8)
  bytes ++ (List.range ((n + 63) / 64)).map (fun i =>
    BitVec.ofNat 8 ((List.range 8).foldl (fun m j => m + (if bits.getD (8 * i + j) false then 2 ^ j else 0)) 0))

/-- Bytes that a labelled slice covers from its base on (R397). -/
def Shard.span (x : Shard) : Nat := if x.rows = 0 then 0 else x.stride * (x.rows - 1) + x.cols * x.esize

/-- A launch queue from its words. -/
def LQueue.ofWords (w : List Nat) : LQueue :=
  let g (i : Nat) : Nat := w.getD i 0
  { base := g 0 % 2 ^ 57, loc := g 0 / 2 ^ 57 % 2 = 1, log2n := g 1 % 32, evq := g 1 / 2 ^ 8 % 64, ctx := g 1 / 2 ^ 16 % 65536, en := g 1 / 2 ^ 63 = 1
    head := g 2 % 2 ^ 32, tail := g 2 / 2 ^ 32 }

/-- An event queue from its words. -/
def EQueue.ofWords (w : List Nat) : EQueue :=
  let g (i : Nat) : Nat := w.getD i 0
  { base := g 0 % 2 ^ 57, loc := g 0 / 2 ^ 57 % 2 = 1, log2n := g 1 % 32, vec := g 1 / 2 ^ 16 % 2048, ctx := g 1 / 2 ^ 32 % 65536, en := g 1 / 2 ^ 63 = 1
    head := g 2 % 2 ^ 32, tail := g 2 / 2 ^ 32, holdoff := g 3 % 65536 }

/-- A list of rows of words: its length, then the words of each. -/
def rowsBytes (xs : List (List Nat)) : List Byte := leBytes 8 xs.length ++ xs.flatMap (fun r => r.flatMap (leBytes 8))

/-- Rows of `w` words from bytes that begin with their number, and the bytes after them. -/
def tableRows (w : Nat) (bs : List Byte) : List (List Nat) × List Byte :=
  let n := fieldAt bs 0 8
  ((List.range (if n < 2 ^ 32 then n else 0)).map (fun i => (List.range w).map (fun j => fieldAt bs (8 + 8 * (w * i + j)) 8)), bs.drop (8 + 8 * w * n))

/-- A code of a node's phase in a shard. -/
def Node.code (n : Node) : Nat :=
  match n.phase with
  | .waiting => 0
  | .ready _ => 1
  | .running => 2
  | .publishing => 3
  | .retired => 4
  | .completed => 5

/-- The shard of the device (R397): replica peer, the error-log descriptors and the staging table. -/
def State.deviceShard (s : State) : Shard :=
  { kind := 0, ctx := 0
    bytes := rowsBytes [[match s.replica with
      | some p => p + 1
      | none => 0]] ++ rowsBytes (s.els.map (fun e => e.1 :: e.2.words))
      ++ rowsBytes (s.stagingT.map (fun e => [e.1, e.2.word])) }

/-- The shard of a context (R397): its entry and window, its mappings, its queues, its nodes and what of them is pending. -/
def State.ctxShard (s : State) (t : Nat) : Shard :=
  let x := s.ctx t
  let mine := s.nodes.filter (fun e => e.2.ctx = t)
  { kind := 1, ctx := t
    bytes := rowsBytes [[x.root, x.pnq, (if x.pnqen then 1 else 0), (if x.aper then 1 else 0), x.hpth, x.tvec.toNat, x.frptr.toNat, x.window, x.winLen]]
      ++ rowsBytes ((s.leaves t).map (fun e => [e.1, e.2.toNat]))
      ++ rowsBytes ((s.lqs.filter (fun e => e.2.ctx = t)).map (fun e => e.1 :: e.2.words))
      ++ rowsBytes ((s.eqs.filter (fun e => e.2.ctx = t)).map (fun e => e.1 :: e.2.words))
      ++ rowsBytes (mine.map (fun e => [e.1, e.2.code, e.2.left, e.2.rolls, e.2.status, e.2.count]))
      ++ rowsBytes ((s.pending.filter (fun p => (s.node p.lid).ctx = t && p.saved.isEmpty)).map (fun p => [p.lid, p.next, p.count])) }

/-- The shard of a saved group: its directory entry (R388, R397). -/
def State.groupShard (s : State) (q : SavedGroup) : Shard :=
  { kind := 3, ctx := q.ctx, lbase := q.dirAddr - (s.ctx q.ctx).window
    bytes := (List.range 8).flatMap (fun i => leBytes 8 (s.areaNat q.ctx (q.dirAddr + 8 * i))) }

/-- Every shard of the image (R397): the device, contexts, data and saved groups. Mapped pages that no labelled slice covers whole are
unlabelled. -/
def State.allShards (s : State) : List Shard :=
  let cs := (s.ctxs.filter (fun e => e.2.valid)).map Prod.fst
  let labelled := (s.shards.map Shard.parse).filter (fun x => cs.contains x.ctx)
  let data (x : Shard) : Shard := { x with kind := 2, bytes := s.rangeBytes x.lbase x.span }
  let covered (l : Nat) : Bool := labelled.any (fun x => decide (x.lbase ≤ l * 65536) && decide (l * 65536 + 65536 ≤ x.lbase + x.span))
  let pages := cs.flatMap (fun t => ((s.leaves t).map (fun e => (t, (e.2.extractLsb' 16 24).toNat))))
  let plain := (pages.filter (fun p => (s.page p.2).valid && !covered p.2)).map (fun p =>
    ({ kind := 2, ctx := p.1, lbase := p.2 * 65536, bytes := s.rangeBytes (p.2 * 65536) 65536 } : Shard))
  [s.deviceShard] ++ cs.map s.ctxShard ++ labelled.map data ++ plain ++ s.savedGroups.map s.groupShard

/-- The manifest's header (R396). -/
def State.manifest (s : State) (pinned : Bool) (gen n : Nat) (table : List Byte) : List Byte :=
  let m (i : Nat) : Nat := s.mesh.getD i 0
  leBytes 8 (1 + (if pinned then 2 ^ 16 else 0)) ++ leBytes 8 s.timeNs ++ leBytes 8 s.cap ++ leBytes 4 n ++ leBytes 4 (m 0)
    ++ (List.range 4).flatMap (fun i => leBytes 2 (m (1 + i))) ++ (List.range 4).flatMap (fun i => leBytes 2 (m (5 + i)))
    ++ leBytes 8 (m 9) ++ leBytes 8 gen ++ sha256 table ++ List.replicate 32 0

/-- The table and the image of some shards. -/
def layShards : List Shard → Nat → List Byte × List Byte
  | [], _ => ([], [])
  | x :: xs, off =>
    let r := layShards xs (off + x.bytes.length)
    (x.entry off ++ r.1, x.bytes ++ r.2)

/-- Write a manifest and its image into host memory (R395, R396). -/
def State.writeCheckpoint (s : State) (pinned : Bool) (gen manifest image : Nat) : State :=
  let xs := s.allShards
  let l := layShards xs 0
  let head := s.manifest pinned gen xs.length l.1
  let f := s.newFree
  let sig := (Config.sign (sha256 (head ++ l.1)) f.1 ++ List.replicate 384 0).take 384
  { f.2 with host := (f.2.host.writeBytes manifest (head ++ l.1 ++ sig)).writeBytes image l.2 }

/-- A checkpoint goes on once every context is pre-empted, every group may be saved, every home has folded, and a snapshot slot is free
(R395, steps 2 to 4). PINNED says that some group was resident (R396). -/
def State.checkpoint (s : State) (manifest image : Nat) : State :=
  let open_ := s.ctxs.any (fun e => e.2.valid && e.2.stage ≠ 3)
  if open_ || !s.groups.all (fun e => s.groupQuiet e.1) || !s.unfolded.isEmpty then s
  else match s.freeSnap with
    | none => s
    | some i =>
      let pinned := !s.groups.isEmpty
      let s := s.each (s.groups.map Prod.fst) (fun s g => if (Tab.find s.groups g).isSome then s.saveGang g else s)
      let gen := s.gen
      let s := (s.takeSnap i).writeCheckpoint pinned gen manifest image
      ({ s with snaps := Tab.set s.snaps {} i {} } : State).mailDone 0

/-- CHECKPOINT (R395): `ints` D2 in ns (0 for the default) and the host addresses of the manifest and the image. Every context is pre-empted and
every running staged node is put back without a roll-back; the command then goes on by this row. -/
def execCheckpoint (s : State) : Host.Outcome State Fault Refusal :=
  match s.busy with
  | some (.checkpoint _ m i) => .next (s.checkpoint m i)
  | _ =>
    let e := s.ev
    s.command 3 false (fun s =>
      let d2 := if e.ints.getD 0 0 = 0 then 10000000 else e.ints.getD 0 0
      s.checked [(decide (d2 < 1000), 2), (s.freeSnap.isNone, 5)] (fun s =>
        let s := s.each (s.ctxs.filter (fun c => c.2.valid && c.2.stage = 0)) (fun s c => s.modCtx c.1 (fun x => { x with
          stage := 1, pstart := s.timeNs, d1 := s.timeNs + 1000, d2 := s.timeNs + d2 }))
        let staged := s.nodes.filter (fun n => n.2.stag ≠ 0 && (n.2.phase == .running || n.2.phase == .publishing))
        let s := s.each staged (fun s n => s.requeue n.1)
        { s with busy := some (.checkpoint d2 (e.ints.getD 1 0) (e.ints.getD 2 0)), trial := { s.trial with active := false, endAt := none } }))

/-- A device write of bytes at a logical address, those of the words that `bad` tells by their address ÷ 8 poisoned (R260, R398, R456). -/
def State.devWriteMarked (s : State) (laddr : Nat) (bs : List Byte) (bad : Nat → Bool) : State :=
  let mark (h : HeldWrite) : BitVec 4 := BitVec.ofNat 4 (((List.range 4).map (fun i =>
    if h.mask.extractLsb' (64 * i) 64 ≠ 0 && bad (4 * h.lsec + i) then 2 ^ i else 0)).sum)
  let ps := (devParts laddr bs).map (fun h => { h with poison := mark h })
  s.each (heldGrains ps) (fun s lg => s.devPieces (ps.filter (fun p => p.lsec / 16 = lg)) [])

/-- The poison of a word in the map that follows the bytes of a range (R397): words count from that of the range's first byte. -/
def mapBit (map : List Byte) (w : Nat) : Bool := (map.getD (w / 8) 0).getLsbD (w % 8)

/-- Put bytes and poison marks into a logical range (R398). -/
def State.putRange (s : State) (a n : Nat) (bs : List Byte) : State :=
  s.devWriteMarked a (bs.take n) (fun w => mapBit (bs.drop n) (w - a / 8))

/-- Place a labelled shard at a slice of this device of the same tensor: each element where both hold it, with its poison (R398). -/
def State.placeSlice (s : State) (x y : Shard) : State :=
  let off (z : Shard) (r c : Nat) : Nat := z.stride * (r - z.row) + (c - z.col) * z.esize
  let has (z : Shard) (r c : Nat) : Bool := decide (z.row ≤ r) && decide (r < z.row + z.rows) && decide (z.col ≤ c) && decide (c < z.col + z.cols)
  s.each (List.range x.rows) (fun s i => s.each (List.range x.cols) (fun s j =>
    let r := x.row + i
    let c := x.col + j
    let bad := mapBit (x.bytes.drop x.span) ((x.lbase + off x r c) / 8 - x.lbase / 8)
    if has y r c then s.devWriteMarked (y.lbase + off y r c) ((x.bytes.drop (off x r c)).take x.esize) (fun _ => bad) else s))

/-- Load a data shard (R398). -/
def State.loadData (s : State) (x : Shard) (same : Bool) : State :=
  if x.tensor = 2 ^ 32 - 1 then s.putRange x.lbase (x.bytes.length - x.bytes.length / 65) x.bytes
  else
    let here := (s.shards.map Shard.parse).filter (fun y => y.ctx = x.ctx && y.tensor = x.tensor && y.esize = x.esize)
    if here.isEmpty then (if same then s.putRange x.lbase x.span x.bytes else s) else s.each here (fun s y => s.placeSlice x y)

/-- Recreate a context from its shard (R398): its entry, mappings and queues; it is pre-empted. -/
def State.loadCtx (s : State) (x : Shard) : State :=
  let r0 := tableRows 9 x.bytes
  let r1 := tableRows 2 r0.2
  let r2 := tableRows 5 r1.2
  let r3 := tableRows 5 r2.2
  let g (i : Nat) : Nat := (r0.1.headD []).getD i 0
  let c : Ctx := { valid := true, root := g 0, pnq := g 1, pnqen := g 2 = 1, aper := g 3 = 1, hpth := g 4, tvec := BitVec.ofNat 64 (g 5)
                   frptr := BitVec.ofNat 64 (g 6), window := g 7, winLen := g 8, stage := 3 }
  let s := { s with ctxs := Tab.set s.ctxs {} x.ctx c }
  let s := s.each r1.1 (fun s m =>
    let e : Word := BitVec.ofNat 64 (m.getD 1 0)
    let lpn := (e.extractLsb' 16 24).toNat
    let comp := (e.extractLsb' 3 3).toNat = attrCompressed
    let s := if (s.page lpn).valid then s else (s.makePage lpn false comp 0).getD s
    (s.setLeaf x.ctx (m.getD 0 0) (if (e.extractLsb' 3 3).toNat = attrHost then e &&& ~~~0x38#64 else e)).getD s)
  { s with
    lqs := r2.1.foldl (fun (t : Tab LQueue) (w : List Nat) => Tab.set t {} (w.getD 0 0) (LQueue.ofWords (w.drop 1))) s.lqs
    eqs := r3.1.foldl (fun (t : Tab EQueue) (w : List Nat) => Tab.set t {} (w.getD 0 0) (EQueue.ofWords (w.drop 1))) s.eqs }

/-- Recreate the nodes of a context from its shard, once the data that its queues may lie in are there (R398). -/
def State.loadNodes (s : State) (x : Shard) : State :=
  let r3 := tableRows 5 (tableRows 5 (tableRows 2 (tableRows 9 x.bytes).2).2).2
  let r4 := tableRows 6 r3.2
  let r5 := tableRows 3 r4.2
  let s := s.each r4.1 (fun s w =>
    let lid := w.getD 0 0
    let e := s.entryBytes lid
    let n : Node := { lid := lid, ctx := x.ctx, recd := e.take 128, succs := succsOf e, nfr := fieldAt e 0xB0 8, left := w.getD 2 0, rolls := w.getD 3 0
                      status := w.getD 4 0, count := w.getD 5 0 }
    match w.getD 1 0 with
    | 2 => { s with nodes := Tab.put s.nodes lid { n with phase := .running } }
    | 3 => { s with nodes := Tab.put s.nodes lid { n with phase := .running } }
    | 4 => ({ s with nodes := Tab.put s.nodes lid n } : State).reportNode lid n.status
    | 5 => { s with nodes := Tab.put s.nodes lid { n with phase := .completed } }
    | _ => s)
  { s with pending := s.pending ++ r5.1.map (fun (w : List Nat) => { lid := w.getD 0 0, next := w.getD 1 0, count := w.getD 2 0 }) }

/-- Enter a saved group as its directory entry describes it (R388, R398). -/
def State.loadGroup (s : State) (x : Shard) : State :=
  let w (i : Nat) : Nat := fieldAt x.bytes (8 * i) 8
  let win := (s.ctx x.ctx).window
  let i := s.newId
  let q : SavedGroup := { key := i.1, ctx := x.ctx, dirAddr := win + x.lbase, areaAddr := win + w 3, lseq := w 0 / 2 ^ 32, lid := w 1 % 2 ^ 38
                          gnum := w 2 % 2 ^ 32, core := w 2 / 2 ^ 32 % 2048, gangw := w 0 / 8 % 16, gidx := w 0 / 2 ^ 7 % 8, halted := w 0 / 2 % 2 = 1 }
  if w 0 % 2 = 1 && w 0 / 4 % 2 = 0 then { i.2 with savedGroups := i.2.savedGroups ++ [q] } else s

/-- Settings of the device from its shard (R397). -/
def State.loadDevice (s : State) (x : Shard) : State :=
  let r0 := tableRows 1 x.bytes
  let p := (r0.1.headD []).getD 0 0
  let els := (tableRows 5 r0.2).1.foldl (fun (t : Tab EQueue) (w : List Nat) => Tab.set t {} (w.getD 0 0) (EQueue.ofWords (w.drop 1))) s.els
  { s with replica := (if p = 0 then none else some (p - 1)), els := els }

/-- The ranges of host memory that hold a checkpoint: the manifest, and the image of each shard (R396, R397). -/
def State.checkpointRanges (s : State) (manifest image : Nat) : List (Nat × Nat) :=
  let n := fieldAt (s.hostBytes manifest 128) 0x18 4
  let table := s.hostBytes (manifest + 128) (128 * n)
  (manifest, 128 + 128 * n + 384) :: (List.range n).map (fun i => (image + fieldAt table (128 * i + 8) 8, fieldAt table (128 * i + 16) 8))

/-- The shards of a checked manifest in host memory (R396 to R398): none when the signature or a digest does not match, as where a read
failed (R421). -/
def State.readCheckpoint (s : State) (manifest image : Nat) : Option (List Byte × List Shard) :=
  let head := s.hostBytes manifest 128
  let n := fieldAt head 0x18 4
  let table := s.hostBytes (manifest + 128) (128 * n)
  let sig := s.hostBytes (manifest + 128 + 128 * n) 384
  let xs := (List.range n).map (fun i =>
    let e := (table.drop (128 * i)).take 128
    ({ Shard.parse e with bytes := s.hostBytes (image + fieldAt e 8 8) (fieldAt e 16 8) }, (e.drop 0x40).take 32))
  if fieldAt head 0 2 = 1 && sha256 table = (head.drop 0x40).take 32 && pssVerify Config.identityKey (sha256 (head ++ table)) sig
      && xs.all (fun e => sha256 e.1.bytes = e.2) then some (head, xs.map Prod.fst) else none

/-- RELOAD (R398): `ints` the host addresses of the manifest and the image. On a device of other mesh coordinates or another capacity a pinned
manifest is refused, and of another only the labelled data are loaded. -/
def execReload (s : State) : Host.Outcome State Fault Refusal :=
  let e := s.ev
  s.command 3 false (fun s =>
    let s := s.each (s.checkpointRanges (e.ints.getD 0 0) (e.ints.getD 1 0)) (fun s r => s.logHost r.1 r.2)
    match s.readCheckpoint (e.ints.getD 0 0) (e.ints.getD 1 0) with
    | none => s.mailDone 6
    | some (head, xs) =>
      let m (i : Nat) : Nat := s.mesh.getD i 0
      let same := fieldAt head 0x10 8 = s.cap && (List.range 4).all (fun i => fieldAt head (0x28 + 2 * i) 2 = m (5 + i))
      let pinned := fieldAt head 0 4 / 2 ^ 16 % 2 = 1
      let kind (k : Nat) : List Shard := xs.filter (fun x => x.kind = k && (same || (k = 2 && x.tensor ≠ 2 ^ 32 - 1)))
      s.checked [(pinned && !same, 4)] (fun s =>
        let s := s.each (kind 0) State.loadDevice
        let s := s.each (kind 1) State.loadCtx
        let s := s.each (kind 2) (fun s x => s.loadData x same)
        let s := s.each (kind 1) State.loadNodes
        (s.each (kind 3) State.loadGroup).mailDone 0))

end Sys2Proof.Machine
end

