-- ==== Sys2Proof/Machine/Transc.lean ====
section
/-! DEFINITION. FEXP2.S, FLOG2.S, FSINP.S, FCOSP.S and FTANH.S, correctly rounded (R167). Each value is computed in fixed
point with 760 fraction bits; the cases with an exact result are taken first, and every other result is handed to the
rounding as the middle of an interval far narrower than any distance to a point where a binary32 rounding turns. -/

namespace Sys2Proof.Machine

/-- Fraction bits of the fixed-point work. -/
def fxBits : Nat := 760

/-- One in fixed point. -/
def fxOne : Nat := 2 ^ fxBits

/-- Product in fixed point. -/
def fxMul (a b : Nat) : Nat := a * b / fxOne

/-- `Σ x^(2k+1) / (2k+1)` with alternating signs when `alt`; `p` is the running power, `x2` the square (both fixed). -/
def oddSeries (x2 : Nat) (alt : Bool) : Nat → Nat → Nat → Bool → Int → Int
  | 0, _, _, _, acc => acc
  | n + 1, k, p, minus, acc =>
    let t : Int := (p / (2 * k + 1) : Nat)
    oddSeries x2 alt n (k + 1) (fxMul p x2) (if alt then !minus else false) (if minus then acc - t else acc + t)

/-- `atanh (a / b)` in fixed point. -/
def fxAtanh (a b : Nat) : Nat :=
  let x := a * fxOne / b
  (oddSeries (fxMul x x) false 260 0 x false 0).toNat

/-- `atan (1 / b)` in fixed point. -/
def fxAtanInv (b : Nat) : Nat :=
  let x := fxOne / b
  (oddSeries (fxMul x x) true 200 0 x false 0).toNat

/-- `ln 2` in fixed point: `2 atanh (1/3)`. -/
def fxLn2 : Nat := 2 * fxAtanh 1 3

/-- `π` in fixed point: `16 atan (1/5) − 4 atan (1/239)`. -/
def fxPi : Nat := 16 * fxAtanInv 5 - 4 * fxAtanInv 239

/-- `Σ x^k / k!` from term `k` on. -/
def expSeries (x : Nat) : Nat → Nat → Nat → Nat → Nat
  | 0, _, _, acc => acc
  | n + 1, k, t, acc => expSeries x n (k + 1) (fxMul t x / (k + 1)) (acc + t)

/-- `exp x` for `0 ≤ x < 1`, in fixed point. -/
def fxExp (x : Nat) : Nat := expSeries x 170 0 fxOne 0

/-- `Σ (−1)^k x^(2k+1) / (2k+1)!`. -/
def sinSeries (x2 : Nat) : Nat → Nat → Nat → Bool → Int → Int
  | 0, _, _, _, acc => acc
  | n + 1, k, t, minus, acc =>
    sinSeries x2 n (k + 1) (fxMul t x2 / ((2 * k + 2) * (2 * k + 3))) (!minus) (if minus then acc - (t : Int) else acc + (t : Int))

/-- `sin x` for `0 ≤ x ≤ 2`, in fixed point. -/
def fxSin (x : Nat) : Nat := (sinSeries (fxMul x x) 110 0 x false 0).toNat

/-- The middle of the interval that a fixed-point result with 64 guard bits stands for. -/
def fxMid (y : Nat) : Rat2 := { num := ((2 * (y / 2 ^ 64) + 1 : Nat) : Int), den := 2 ^ (fxBits - 63) }

/-- `2^f` for the fixed-point fraction `f` below one. -/
def fxExp2Frac (f : Nat) : Nat := fxExp (fxMul f fxLn2)

/-- The value `num / den` in fixed point. -/
def fxOf (n d : Nat) : Nat := n * fxOne / d

/-- `2^x` for a finite `x` (R167): exact for an integer; outside −400 to 400 a value that over- or underflows alike. -/
def exp2Real (x : Rat2) : Rat2 :=
  let n : Int := x.num / (x.den : Int)
  let r : Nat := (x.num % (x.den : Int)).toNat
  if n < -400 then .dyadic 3 (-402)
  else if 400 < n then .dyadic 1 400
  else if r = 0 then .dyadic 1 n
  else (fxMid (fxExp2Frac (fxOf r x.den))).mul (.dyadic 1 n)

/-- FEXP2.S (R167). -/
def fexp2 (m : RMode) (a : Nat) : Nat × FSet :=
  match fmtS.decode a with
  | .nan s => (fmtS.nanBits, flagIf s flagNV)
  | .inf true => (0, 0)
  | .inf false => (fmtS.encInf false, 0)
  | .fin n q => fmtS.round m false (exp2Real (if n then q.neg else q))

/-- `log₂ (n / d)` for a positive rational (R167): exact for a power of two. -/
def log2Real (y : Rat2) : Rat2 :=
  let n := y.num.natAbs
  let e := floorLog2 n y.den
  let k := if 0 ≤ e then n else n * 2 ^ (-e).toNat
  let d := if 0 ≤ e then y.den * 2 ^ e.toNat else y.den
  if k = d then .ofInt e
  else
    let l := 2 * fxAtanh (k - d) (k + d) * fxOne / fxLn2
    (Rat2.ofInt e).add (fxMid l)

/-- FLOG2.S (R167). -/
def flog2 (m : RMode) (a : Nat) : Nat × FSet :=
  match fmtS.decode a with
  | .nan s => (fmtS.nanBits, flagIf s flagNV)
  | .inf true => (fmtS.nanBits, flagNV)
  | .inf false => (fmtS.encInf false, 0)
  | .fin n q =>
    if q.isZero then (fmtS.encInf true, flagDZ)
    else if n then (fmtS.nanBits, flagNV)
    else fmtS.round m false (log2Real q)

/-- `sin (π r)` for the rational `0 < r ≤ 1/2`, exact at 1/2. -/
def sinPiReal (r d : Nat) : Rat2 :=
  if 2 * r = d then .ofInt 1 else fxMid (fxSin (fxMul (fxOf r d) fxPi))

/-- FSINP.S (R167): the period is 2, and an integer gives a zero with the sign of x. -/
def fsinp (m : RMode) (a : Nat) : Nat × FSet :=
  match fmtS.decode a with
  | .nan s => (fmtS.nanBits, flagIf s flagNV)
  | .inf _ => (fmtS.nanBits, flagNV)
  | .fin n q =>
    let d := q.den
    let k := q.num.natAbs % (2 * d)
    let upper := decide (d ≤ k)
    let r := k % d
    let f := if d < 2 * r then d - r else r
    if r = 0 then (fmtS.encZero n, 0)
    else
      let y := sinPiReal f d
      fmtS.round m false (if n != upper then y.neg else y)

/-- FCOSP.S (R167): n + ½ gives +0. -/
def fcosp (m : RMode) (a : Nat) : Nat × FSet :=
  match fmtS.decode a with
  | .nan s => (fmtS.nanBits, flagIf s flagNV)
  | .inf _ => (fmtS.nanBits, flagNV)
  | .fin _ q =>
    let d := q.den
    let k := q.num.natAbs % (2 * d)
    let r := if d < k then 2 * d - k else k
    if 2 * r = d then (0, 0)
    else if 2 * r < d then fmtS.round m false (sinPiReal (d - 2 * r) (2 * d))
    else fmtS.round m false (sinPiReal (2 * r - d) (2 * d)).neg

/-- `tanh` of a positive rational (R167): `(1 − e) / (1 + e)` with `e = exp (−2x)`; from 256 on a value just below 1. -/
def tanhReal (x : Rat2) : Rat2 :=
  let n := x.num.natAbs
  if 256 * x.den ≤ n then { num := ((2 ^ 300 - 1 : Nat) : Int), den := 2 ^ 300 }
  else
    let t := fxOf (2 * n) x.den * fxOne / fxLn2
    let k := t / fxOne
    let f := t % fxOne
    let e := fxOne * fxOne / fxExp2Frac f / 2 ^ k
    fxMid ((fxOne - e) * fxOne / (fxOne + e))

/-- FTANH.S (R167). -/
def ftanh (m : RMode) (a : Nat) : Nat × FSet :=
  match fmtS.decode a with
  | .nan s => (fmtS.nanBits, flagIf s flagNV)
  | .inf n => (if n then 0xBF800000 else 0x3F800000, 0)
  | .fin n q =>
    if q.isZero then (fmtS.encZero n, 0)
    else
      let y := tanhReal q
      fmtS.round m false (if n then y.neg else y)

end Sys2Proof.Machine
end

