-- ==== Sys2Proof/Machine/Fp.lean ====
section
/-! DEFINITION. Groups 2, 3 and 5: floating point, conversions and special functions (R152 to R155, R161 to R168). -/

namespace Sys2Proof.Machine

/-- Element-wise floating results of two packed values (R143). -/
def fpEls (f : Fmt) (g : Nat → Nat → Nat × FSet) (a b : Word) : Word × FSet :=
  packF f.width ((List.range (64 / f.width)).map (fun k => g (lmt f.width k a) (lmt f.width k b)))

/-- A floating instruction of format A over elements of A and B (R152, R153). -/
def State.fpA (s : State) (o : OpA) (f : Fmt) (g : RMode → Nat → Nat → Nat × FSet) : Host.Outcome State Fault Refusal :=
  s.run (fun c =>
    let a := c.srcA o.a
    let b := c.srcB o.b
    s.vec c .vector o.k o.g (c.dst o.d) [a, b] false (fun w l => fpEls f (g (s.rmode c)) (w.val l a) (w.val l b)))

/-- A fused instruction, which reads D too: FFMA and FNMA (R152, R153). -/
def State.fpD (s : State) (o : OpA) (f : Fmt) (neg : Bool) : Host.Outcome State Fault Refusal :=
  s.run (fun c =>
    let a := c.srcA o.a
    let b := c.srcB o.b
    let d := c.dst o.d
    s.vec c .vector o.k o.g d [a, b] true (fun w l =>
      let x := w.val l a
      let y := w.val l b
      let z := w.val l (.v d)
      packF f.width ((List.range (64 / f.width)).map (fun k =>
        f.fma (s.rmode c) neg (lmt f.width k x) (lmt f.width k y) (lmt f.width k z)))))

/-- A sign operation on every element (R153). -/
def State.fpSign (s : State) (o : OpA1) (f : Fmt) (g : Nat → Nat) : Host.Outcome State Fault Refusal :=
  s.run (fun c =>
    let a := c.srcA o.a
    s.vec c .vector o.k o.g (c.dst o.d) [a] false (fun w l =>
      (packEls f.width ((List.range (64 / f.width)).map (fun k => g (lmt f.width k (w.val l a)))), 0)))

/-- The sign bit cleared. -/
def Fmt.absBits (f : Fmt) (x : Nat) : Nat := x % f.signBit
/-- The sign bit inverted. -/
def Fmt.negBits (f : Fmt) (x : Nat) : Nat := if x / f.signBit % 2 = 1 then x % f.signBit else x + f.signBit

/-- FDOT2 of a lane (R155). -/
def fdot2 (f : Fmt) (m : RMode) (a b d : Word) : Word × FSet :=
  packF 32 ((List.range 2).map (fun j =>
    let x (k : Nat) (w : Word) : FVal := f.decode (lmt 16 k w)
    let z := fmtS.decode (lmt 32 j d)
    let p := (x (2 * j) a).mulTerm (x (2 * j) b)
    let q := (x (2 * j + 1) a).mulTerm (x (2 * j + 1) b)
    fmtS.sumRound m [z, x (2 * j) a, x (2 * j) b, x (2 * j + 1) a, x (2 * j + 1) b] [z, p.1, q.1] (p.2 || q.2)))

/-- FDOT2 as an instruction. -/
def State.fpDot (s : State) (o : OpA) (f : Fmt) : Host.Outcome State Fault Refusal :=
  s.run (fun c =>
    let a := c.srcA o.a
    let b := c.srcB o.b
    let d := c.dst o.d
    s.vec c .vector o.k o.g d [a, b] true (fun w l => fdot2 f (s.rmode c) (w.val l a) (w.val l b) (w.val l (.v d))))

/-- A group-5 instruction: it waits for room in the queue of 16, reads its operands now, and its result and flags wait in
the queue until it completes (R161). -/
def State.sfuOp (s : State) (c : Cur) (g : BitVec 3) (d : BitVec 6) (xs : List Src) (rd : Bool) (f : Crew → Nat → Word × FSet) : State :=
  s.gate c .vector false (xs.map srcUse ++ [.v d.toNat])
    (s.reads c (g ≠ 0) (s.act c g) (fun _ => if rd then xs ++ [.v d] else xs)
      (if 16 ≤ (s.core c.core).sfu.length then s.hold c .sfuFull
       else
        let rs := (lanesOf (s.act c g)).map (fun l => (l, f (s.cw c) l))
        let i := s.newId
        let q : SfuOp := { id := i.1, slot := c.slot, lanes := c.lanes, pc := c.pc, word := c.word, rep := c.rep, flags := (s.cw c).flagsOf rs
                           results := rs.map (fun r => (r.1, (s.cw c).vnum r.1 d.toNat, { val := r.2.1 })) }
        (i.2.modCore c.core (fun k => { k with sfu := k.sfu ++ [q] })).retire c { swap := true }))

/-- A group-5 instruction of two sources. -/
def State.sfu2 (s : State) (o : Op5) (rd : Bool) (f : RMode → Word → Word → Word → Word × FSet) : Host.Outcome State Fault Refusal :=
  s.run (fun c =>
    let a := c.srcA o.a
    let b := c.srcB o.b
    let d := c.dst o.d
    s.sfuOp c o.g d [a, b] rd (fun w l => f (s.rmode c) (w.val l a) (w.val l b) (w.val l (.v d))))

/-- A group-5 instruction of one source, over its elements. -/
def State.sfu1 (s : State) (o : Op51) (f : Fmt) (g : RMode → Nat → Nat × FSet) : Host.Outcome State Fault Refusal :=
  s.run (fun c =>
    let a := c.srcA o.a
    s.sfuOp c o.g (c.dst o.d) [a] false (fun w l => fpEls f (fun x _ => g (s.rmode c) x) (w.val l a) 0))

/-- A number format of CVT: D8, a binary format, or an integer type (R162). -/
inductive CvtFmt where
  | d8
  | bin (f : Fmt)
  | int (w : Nat) (uns : Bool)
  deriving DecidableEq, Repr

/-- Bits of an element. -/
def CvtFmt.width (x : CvtFmt) : Nat :=
  match x with
  | .d8 => 8
  | .bin f => f.width
  | .int w _ => w

/-- A floating code of I7: 0 D8, 1 H, 2 B, 3 S, 4 D (R162). -/
def cvtF (n : Nat) : CvtFmt :=
  match n with
  | 0 => .d8
  | 1 => .bin fmtH
  | 2 => .bin fmtB
  | 3 => .bin fmtS
  | _ => .bin fmtD

/-- A floating code of the integer pairs: 0 D8, 1 H, 2 S, 3 D (R162). -/
def cvtF2 (n : Nat) : CvtFmt :=
  match n with
  | 0 => .d8
  | 1 => .bin fmtH
  | 2 => .bin fmtS
  | _ => .bin fmtD

/-- Source and destination of a CVT selector (R162). -/
def cvtPair (sel : BitVec 7) : CvtFmt × CvtFmt :=
  let n := sel.toNat
  let it : CvtFmt := .int (8 * 2 ^ (n / 8 % 4)) (n / 4 % 2 = 1)
  if n < 0x30 then (cvtF (n / 8), cvtF (n % 8))
  else if n < 0x40 then (.int 64 (n / 8 % 2 = 0), .int (8 * 2 ^ (n % 4)) (n / 4 % 2 = 1))
  else if n < 0x60 then (it, cvtF2 (n % 4))
  else (cvtF2 (n % 4), it)

/-- One element converted (R163): R71 into D8, R72 out of D8, R76 otherwise. -/
def cvtElem (src dst : CvtFmt) (m : RMode) (x : Nat) : Nat × FSet :=
  match src, dst with
  | .bin f, .bin g => convBin f g m x
  | .bin f, .d8 => d8OfVal (f.decode x)
  | .bin f, .int w u => valToInt w u m (f.decode x)
  | .d8, .bin g => d8ToBin g m x
  | .d8, .int w u => d8ToInt w u m x
  | .d8, .d8 => (x, 0)
  | .int w u, .bin g => intToBin g m (intVal w u x)
  | .int w u, .d8 => d8OfReal (.ofInt (intVal w u x))
  | .int w u, .int w' u' => (encInt w' (clampInt w' u' (intVal w u x)), 0)

/-- CVT of a lane (R163). -/
def cvtWord (sel : BitVec 7) (m : RMode) (a : Word) : Word × FSet :=
  let p := cvtPair sel
  let n := 64 / max p.1.width p.2.width
  packF p.2.width ((List.range n).map (fun k => cvtElem p.1 p.2 m (lmt p.1.width k a)))

/-- CVTQ of a lane (R164). -/
def cvtqWord (a b d : Word) : Word × FSet :=
  let sc := cvtqScale (lmt 32 0 b)
  let r (j : Nat) : Nat × FSet := cvtqByte (fmtS.decode (lmt 32 j a)) sc
  ((d <<< 16) ||| BitVec.ofNat 64 ((r 1).1 % 256 * 256 + (r 0).1 % 256), (r 0).2 ||| (r 1).2)

/-- DEQ of a lane (R165). -/
def deqWord (m : RMode) (a b : Word) : Word × FSet :=
  packF 32 ((List.range 2).map (fun j => deqElem m (lmt 8 j a) (lmt 32 0 b)))

/-- IDIV.D of a lane (R168). -/
def idiv (a b : Word) : Word := if b = 0 then BitVec.allOnes 64 else BitVec.ofInt 64 (a.toInt.tdiv b.toInt)
/-- IDIVU.D of a lane (R168). -/
def idivu (a b : Word) : Word := if b = 0 then BitVec.allOnes 64 else BitVec.ofNat 64 (a.toNat / b.toNat)

/-- FADD.D (R152). -/
def execFaddD (o : OpA) (s : State) : Host.Outcome State Fault Refusal := s.fpA o fmtD fmtD.fadd
/-- FADD.S (R152). -/
def execFaddS (o : OpA) (s : State) : Host.Outcome State Fault Refusal := s.fpA o fmtS fmtS.fadd
/-- FADD.H (R152). -/
def execFaddH (o : OpA) (s : State) : Host.Outcome State Fault Refusal := s.fpA o fmtH fmtH.fadd
/-- FADD.B (R152). -/
def execFaddB (o : OpA) (s : State) : Host.Outcome State Fault Refusal := s.fpA o fmtB fmtB.fadd
/-- FSUB.D (R152). -/
def execFsubD (o : OpA) (s : State) : Host.Outcome State Fault Refusal := s.fpA o fmtD fmtD.fsub
/-- FSUB.S (R152). -/
def execFsubS (o : OpA) (s : State) : Host.Outcome State Fault Refusal := s.fpA o fmtS fmtS.fsub
/-- FSUB.H (R152). -/
def execFsubH (o : OpA) (s : State) : Host.Outcome State Fault Refusal := s.fpA o fmtH fmtH.fsub
/-- FSUB.B (R152). -/
def execFsubB (o : OpA) (s : State) : Host.Outcome State Fault Refusal := s.fpA o fmtB fmtB.fsub
/-- FMUL.D (R152). -/
def execFmulD (o : OpA) (s : State) : Host.Outcome State Fault Refusal := s.fpA o fmtD fmtD.fmul
/-- FMUL.S (R152). -/
def execFmulS (o : OpA) (s : State) : Host.Outcome State Fault Refusal := s.fpA o fmtS fmtS.fmul
/-- FMUL.H (R152). -/
def execFmulH (o : OpA) (s : State) : Host.Outcome State Fault Refusal := s.fpA o fmtH fmtH.fmul
/-- FMUL.B (R152). -/
def execFmulB (o : OpA) (s : State) : Host.Outcome State Fault Refusal := s.fpA o fmtB fmtB.fmul
/-- FFMA.D (R152). -/
def execFfmaD (o : OpA) (s : State) : Host.Outcome State Fault Refusal := s.fpD o fmtD false
/-- FFMA.S (R152). -/
def execFfmaS (o : OpA) (s : State) : Host.Outcome State Fault Refusal := s.fpD o fmtS false
/-- FFMA.H (R152). -/
def execFfmaH (o : OpA) (s : State) : Host.Outcome State Fault Refusal := s.fpD o fmtH false
/-- FFMA.B (R152). -/
def execFfmaB (o : OpA) (s : State) : Host.Outcome State Fault Refusal := s.fpD o fmtB false
/-- FMIN.D (R153). -/
def execFminD (o : OpA) (s : State) : Host.Outcome State Fault Refusal := s.fpA o fmtD (fun _ => fmtD.fminmax false)
/-- FMIN.S (R153). -/
def execFminS (o : OpA) (s : State) : Host.Outcome State Fault Refusal := s.fpA o fmtS (fun _ => fmtS.fminmax false)
/-- FMIN.H (R153). -/
def execFminH (o : OpA) (s : State) : Host.Outcome State Fault Refusal := s.fpA o fmtH (fun _ => fmtH.fminmax false)
/-- FMAX.D (R153). -/
def execFmaxD (o : OpA) (s : State) : Host.Outcome State Fault Refusal := s.fpA o fmtD (fun _ => fmtD.fminmax true)
/-- FMAX.S (R153). -/
def execFmaxS (o : OpA) (s : State) : Host.Outcome State Fault Refusal := s.fpA o fmtS (fun _ => fmtS.fminmax true)
/-- FMAX.H (R153). -/
def execFmaxH (o : OpA) (s : State) : Host.Outcome State Fault Refusal := s.fpA o fmtH (fun _ => fmtH.fminmax true)
/-- FNMA.D (R153). -/
def execFnmaD (o : OpA) (s : State) : Host.Outcome State Fault Refusal := s.fpD o fmtD true
/-- FNMA.S (R153). -/
def execFnmaS (o : OpA) (s : State) : Host.Outcome State Fault Refusal := s.fpD o fmtS true
/-- FABS.D (R153). -/
def execFabsD (o : OpA1) (s : State) : Host.Outcome State Fault Refusal := s.fpSign o fmtD fmtD.absBits
/-- FABS.S (R153). -/
def execFabsS (o : OpA1) (s : State) : Host.Outcome State Fault Refusal := s.fpSign o fmtS fmtS.absBits
/-- FNEG.D (R153). -/
def execFnegD (o : OpA1) (s : State) : Host.Outcome State Fault Refusal := s.fpSign o fmtD fmtD.negBits
/-- FNEG.S (R153). -/
def execFnegS (o : OpA1) (s : State) : Host.Outcome State Fault Refusal := s.fpSign o fmtS fmtS.negBits
/-- FCLASS (R154). -/
def execFclass (o : OpCls) (s : State) : Host.Outcome State Fault Refusal :=
  s.run (fun c =>
    let f := match o.fmt.toNat with
      | 0 => fmtD
      | 1 => fmtS
      | 2 => fmtH
      | _ => fmtB
    s.vec c .vector o.k o.g o.d [o.a] false (fun w l =>
      (packEls f.width ((List.range (64 / f.width)).map (fun k => f.fclass (lmt f.width k (w.val l o.a)))), 0)))
/-- FDOT2.H (R155). -/
def execFdot2H (o : OpA) (s : State) : Host.Outcome State Fault Refusal := s.fpDot o fmtH
/-- FDOT2.B (R155). -/
def execFdot2B (o : OpA) (s : State) : Host.Outcome State Fault Refusal := s.fpDot o fmtB
/-- FSCALE.D (R153). -/
def execFscaleD (o : OpA) (s : State) : Host.Outcome State Fault Refusal :=
  s.fpA o fmtD (fun m a b => fscale m a (BitVec.ofNat 64 b).toInt)
/-- CVT (R162, R163). -/
def execCvt (o : OpCvt) (s : State) : Host.Outcome State Fault Refusal :=
  s.run (fun c => s.sfuOp c o.g o.d [o.a] false (fun w l => cvtWord o.sel (s.rmode c) (w.val l o.a)))
/-- CVTQ (R164). -/
def execCvtq (o : Op5) (s : State) : Host.Outcome State Fault Refusal := s.sfu2 o true (fun _ a b d => cvtqWord a b d)
/-- DEQ (R165). -/
def execDeq (o : Op5) (s : State) : Host.Outcome State Fault Refusal := s.sfu2 o false (fun m a b _ => deqWord m a b)
/-- FDIV.D (R166). -/
def execFdivD (o : Op5) (s : State) : Host.Outcome State Fault Refusal :=
  s.sfu2 o false (fun m a b _ => fpEls fmtD (fmtD.fdiv m) a b)
/-- FDIV.S (R166). -/
def execFdivS (o : Op5) (s : State) : Host.Outcome State Fault Refusal :=
  s.sfu2 o false (fun m a b _ => fpEls fmtS (fmtS.fdiv m) a b)
/-- FSQRT.D (R166). -/
def execFsqrtD (o : Op51) (s : State) : Host.Outcome State Fault Refusal := s.sfu1 o fmtD fmtD.fsqrt
/-- FSQRT.S (R166). -/
def execFsqrtS (o : Op51) (s : State) : Host.Outcome State Fault Refusal := s.sfu1 o fmtS fmtS.fsqrt
/-- FRCP.S (R167). -/
def execFrcpS (o : Op51) (s : State) : Host.Outcome State Fault Refusal := s.sfu1 o fmtS fmtS.frcp
/-- FRSQ.S (R167). -/
def execFrsqS (o : Op51) (s : State) : Host.Outcome State Fault Refusal := s.sfu1 o fmtS fmtS.frsq
/-- FEXP2.S (R167). -/
def execFexp2S (o : Op51) (s : State) : Host.Outcome State Fault Refusal := s.sfu1 o fmtS fexp2
/-- FLOG2.S (R167). -/
def execFlog2S (o : Op51) (s : State) : Host.Outcome State Fault Refusal := s.sfu1 o fmtS flog2
/-- FSINP.S (R167). -/
def execFsinpS (o : Op51) (s : State) : Host.Outcome State Fault Refusal := s.sfu1 o fmtS fsinp
/-- FCOSP.S (R167). -/
def execFcospS (o : Op51) (s : State) : Host.Outcome State Fault Refusal := s.sfu1 o fmtS fcosp
/-- FTANH.S (R167). -/
def execFtanhS (o : Op51) (s : State) : Host.Outcome State Fault Refusal := s.sfu1 o fmtS ftanh
/-- IDIV.D (R168). -/
def execIdivD (o : Op5) (s : State) : Host.Outcome State Fault Refusal := s.sfu2 o false (fun _ a b _ => (idiv a b, 0))
/-- IDIVU.D (R168). -/
def execIdivuD (o : Op5) (s : State) : Host.Outcome State Fault Refusal := s.sfu2 o false (fun _ a b _ => (idivu a b, 0))

end Sys2Proof.Machine
end

