-- ==== Sys2Proof/Machine/IntAlu.lean ====
section
/-! DEFINITION. Groups 0 and 1: the integer instructions (R148 to R151). -/

namespace Sys2Proof.Machine

/-- Signed element arithmetic modulo 2^w, or clamped to the signed type under saturation (R109, R148). -/
def arith (w : Nat) (f : Int → Int → Int) (sat : Bool) (a b : Word) : Word :=
  mapEls w (fun x y =>
    let r := f (sgn w x) (sgn w y)
    encInt w (if sat then clampInt w false r else r)) a b

/-- An integer instruction of format A with elements of A and B (R148, R149). -/
def State.intA (s : State) (o : OpA) (f : Bool → Word → Word → Word) : Host.Outcome State Fault Refusal :=
  s.run (fun c =>
    let a := c.srcA o.a
    let b := c.srcB o.b
    s.vec c .any o.k o.g (c.dst o.d) [a, b] false (fun w l => (f c.sat (w.val l a) (w.val l b), 0)))

/-- A BITU operation (R151). -/
def State.bitu (s : State) (o : OpA1) (f : Word → Word) : Host.Outcome State Fault Refusal :=
  s.run (fun c => s.vec c .any o.k o.g o.d [o.a] false (fun w l => (f (w.val l o.a), 0)))

/-- Leading zeros of the low `n` bits. -/
def clzN (n : Nat) (x : Word) : Word :=
  BitVec.ofNat 64 (((List.range n).reverse.takeWhile (fun i => !x.getLsbD i)).length)

/-- Trailing zeros. -/
def ctzW (x : Word) : Word := BitVec.ofNat 64 (((List.range 64).takeWhile (fun i => !x.getLsbD i)).length)

/-- One bits of the low `n` bits. -/
def popN (n : Nat) (x : Word) : Word := BitVec.ofNat 64 (((List.range n).filter (fun i => x.getLsbD i)).length)

/-- Bits in reverse order. -/
def brevW (x : Word) : Word :=
  BitVec.ofNat 64 ((List.range 64).foldl (fun a i => if x.getLsbD i then a + 2 ^ (63 - i) else a) 0)

/-- Bytes in reverse order. -/
def bswapW (x : Word) : Word := packEls 8 (((List.range 8).map (fun i => lmt 8 i x)).reverse)

/-- ADD.D (R148). -/
def execAddD (o : OpA) (s : State) : Host.Outcome State Fault Refusal := s.intA o (arith 64 (· + ·))
/-- ADD.W (R148). -/
def execAddW (o : OpA) (s : State) : Host.Outcome State Fault Refusal := s.intA o (arith 32 (· + ·))
/-- ADD.H (R148). -/
def execAddH (o : OpA) (s : State) : Host.Outcome State Fault Refusal := s.intA o (arith 16 (· + ·))
/-- ADD.B (R148). -/
def execAddB (o : OpA) (s : State) : Host.Outcome State Fault Refusal := s.intA o (arith 8 (· + ·))
/-- SUB.D (R148). -/
def execSubD (o : OpA) (s : State) : Host.Outcome State Fault Refusal := s.intA o (arith 64 (· - ·))
/-- SUB.W (R148). -/
def execSubW (o : OpA) (s : State) : Host.Outcome State Fault Refusal := s.intA o (arith 32 (· - ·))
/-- SUB.H (R148). -/
def execSubH (o : OpA) (s : State) : Host.Outcome State Fault Refusal := s.intA o (arith 16 (· - ·))
/-- SUB.B (R148). -/
def execSubB (o : OpA) (s : State) : Host.Outcome State Fault Refusal := s.intA o (arith 8 (· - ·))
/-- MUL.D (R148). -/
def execMulD (o : OpA) (s : State) : Host.Outcome State Fault Refusal := s.intA o (arith 64 (· * ·))
/-- MUL.W (R148). -/
def execMulW (o : OpA) (s : State) : Host.Outcome State Fault Refusal := s.intA o (arith 32 (· * ·))
/-- MULH.D (R148). -/
def execMulhD (o : OpA) (s : State) : Host.Outcome State Fault Refusal :=
  s.intA o (fun _ a b => ((a.signExtend 128 * b.signExtend 128) >>> 64).setWidth 64)
/-- MULHU.D (R148). -/
def execMulhuD (o : OpA) (s : State) : Host.Outcome State Fault Refusal :=
  s.intA o (fun _ a b => ((a.setWidth 128 * b.setWidth 128) >>> 64).setWidth 64)
/-- AND (R148). -/
def execAndD (o : OpA) (s : State) : Host.Outcome State Fault Refusal := s.intA o (fun _ a b => a &&& b)
/-- OR (R148). -/
def execOrD (o : OpA) (s : State) : Host.Outcome State Fault Refusal := s.intA o (fun _ a b => a ||| b)
/-- XOR (R148). -/
def execXorD (o : OpA) (s : State) : Host.Outcome State Fault Refusal := s.intA o (fun _ a b => a ^^^ b)
/-- ANDN (R148). -/
def execAndn (o : OpA) (s : State) : Host.Outcome State Fault Refusal := s.intA o (fun _ a b => a &&& ~~~b)
/-- ADDS.H (R149). -/
def execAddsH (o : OpA) (s : State) : Host.Outcome State Fault Refusal := s.intA o (fun _ => arith 16 (· + ·) true)
/-- SUBS.H (R149). -/
def execSubsH (o : OpA) (s : State) : Host.Outcome State Fault Refusal := s.intA o (fun _ => arith 16 (· - ·) true)
/-- ADDUS.B (R149). -/
def execAddusB (o : OpA) (s : State) : Host.Outcome State Fault Refusal :=
  s.intA o (fun _ => mapEls 8 (fun x y => if 255 < x + y then 255 else x + y))
/-- SUBUS.B (R149). -/
def execSubusB (o : OpA) (s : State) : Host.Outcome State Fault Refusal := s.intA o (fun _ => mapEls 8 (fun x y => x - y))
/-- MIN.H (R149). -/
def execMinH (o : OpA) (s : State) : Host.Outcome State Fault Refusal :=
  s.intA o (fun _ => mapEls 16 (fun x y => if sgn 16 y < sgn 16 x then y else x))
/-- MAX.H (R149). -/
def execMaxH (o : OpA) (s : State) : Host.Outcome State Fault Refusal :=
  s.intA o (fun _ => mapEls 16 (fun x y => if sgn 16 x < sgn 16 y then y else x))
/-- MIN.W (R149). -/
def execMinW (o : OpA) (s : State) : Host.Outcome State Fault Refusal :=
  s.intA o (fun _ => mapEls 32 (fun x y => if sgn 32 y < sgn 32 x then y else x))
/-- MAX.W (R149). -/
def execMaxW (o : OpA) (s : State) : Host.Outcome State Fault Refusal :=
  s.intA o (fun _ => mapEls 32 (fun x y => if sgn 32 x < sgn 32 y then y else x))
/-- SHL.D (R149): the count is B<5:0>. -/
def execShlD (o : OpA) (s : State) : Host.Outcome State Fault Refusal := s.intA o (fun _ a b => a <<< (b.toNat % 64))
/-- SHR.D (R149). -/
def execShrD (o : OpA) (s : State) : Host.Outcome State Fault Refusal := s.intA o (fun _ a b => a >>> (b.toNat % 64))
/-- SAR.D (R149). -/
def execSarD (o : OpA) (s : State) : Host.Outcome State Fault Refusal := s.intA o (fun _ a b => a.sshiftRight (b.toNat % 64))
/-- ROT.D (R149). -/
def execRotD (o : OpA) (s : State) : Host.Outcome State Fault Refusal := s.intA o (fun _ a b => a.rotateLeft (b.toNat % 64))
/-- ADDI.D (R150). -/
def execAddiD (o : OpI) (s : State) : Host.Outcome State Fault Refusal :=
  s.run (fun c => s.vec c .any o.k o.g o.d [o.a] false
    (fun w l => (arith 64 (· + ·) c.sat (w.val l o.a) (c.imm o.imm), 0)))
/-- ADDI.W (R150): the sum of the low words, sign-extended; the immediate enters whole. -/
def execAddiW (o : OpI) (s : State) : Host.Outcome State Fault Refusal :=
  s.run (fun c => s.vec c .any o.k o.g o.d [o.a] false
    (fun w l =>
      let r := sgn 32 (w.val l o.a).toNat + (c.imm o.imm).toInt
      ((BitVec.ofInt 32 (if c.sat then clampInt 32 false r else r)).signExtend 64, 0)))
/-- MOVI (R150). -/
def execMovi (o : OpMov) (s : State) : Host.Outcome State Fault Refusal :=
  s.run (fun c => s.vec c .any o.k o.g o.d [] false (fun _ _ => (c.imm o.imm, 0)))
/-- CLZ.D (R151). -/
def execClzD (o : OpA1) (s : State) : Host.Outcome State Fault Refusal := s.bitu o (clzN 64)
/-- CTZ.D (R151). -/
def execCtzD (o : OpA1) (s : State) : Host.Outcome State Fault Refusal := s.bitu o ctzW
/-- POPC.D (R151). -/
def execPopcD (o : OpA1) (s : State) : Host.Outcome State Fault Refusal := s.bitu o (popN 64)
/-- BREV.D (R151). -/
def execBrevD (o : OpA1) (s : State) : Host.Outcome State Fault Refusal := s.bitu o brevW
/-- BSWAP.D (R151). -/
def execBswapD (o : OpA1) (s : State) : Host.Outcome State Fault Refusal := s.bitu o bswapW
/-- CLZ.W (R151). -/
def execClzW (o : OpA1) (s : State) : Host.Outcome State Fault Refusal := s.bitu o (clzN 32)
/-- POPC.W (R151). -/
def execPopcW (o : OpA1) (s : State) : Host.Outcome State Fault Refusal := s.bitu o (popN 32)
/-- SEXT.W (R151). -/
def execSextW (o : OpA1) (s : State) : Host.Outcome State Fault Refusal := s.bitu o (fun a => (a.setWidth 32).signExtend 64)
/-- ZEXT.W (R151). -/
def execZextW (o : OpA1) (s : State) : Host.Outcome State Fault Refusal := s.bitu o (fun a => (a.setWidth 32).setWidth 64)
/-- SEXT.H (R151). -/
def execSextH (o : OpA1) (s : State) : Host.Outcome State Fault Refusal := s.bitu o (fun a => (a.setWidth 16).signExtend 64)
/-- SEXT.B (R151). -/
def execSextB (o : OpA1) (s : State) : Host.Outcome State Fault Refusal := s.bitu o (fun a => (a.setWidth 8).signExtend 64)

end Sys2Proof.Machine
end

