-- ==== Sys2Proof/Machine/Load.lean ====
section
/-! DEFINITION. Group 9: loads and the prefetch (R294, R300 to R304). -/

namespace Sys2Proof.Machine

/-- A plain load of one destination (R300). -/
def State.ld (s : State) (o : OpM) (n : Nat) (signed : Bool) : Host.Outcome State Fault Refusal :=
  s.run (fun c => s.vload c o.g (c.srcA o.a) (offM o.off n) (.plain n signed) true (c.dst o.d))

/-- LD.B (R300). -/
def execLdB (o : OpM) (s : State) : Host.Outcome State Fault Refusal := s.ld o 1 false
/-- LD.BS (R300). -/
def execLdBs (o : OpM) (s : State) : Host.Outcome State Fault Refusal := s.ld o 1 true
/-- LD.H (R300). -/
def execLdH (o : OpM) (s : State) : Host.Outcome State Fault Refusal := s.ld o 2 false
/-- LD.HS (R300). -/
def execLdHs (o : OpM) (s : State) : Host.Outcome State Fault Refusal := s.ld o 2 true
/-- LD.W (R300). -/
def execLdW (o : OpM) (s : State) : Host.Outcome State Fault Refusal := s.ld o 4 false
/-- LD.WS (R300). -/
def execLdWs (o : OpM) (s : State) : Host.Outcome State Fault Refusal := s.ld o 4 true
/-- LD.D (R300). -/
def execLdD (o : OpM) (s : State) : Host.Outcome State Fault Refusal := s.ld o 8 false
/-- LD.Q (R300). -/
def execLdQ (o : OpM) (s : State) : Host.Outcome State Fault Refusal :=
  s.run (fun c => s.vload c o.g (c.srcA o.a) (offM o.off 16) .quad true (c.dst o.d))
/-- LDU.D (R301). -/
def execLduD (o : OpMU) (s : State) : Host.Outcome State Fault Refusal :=
  s.run (fun c => s.uload c o.g (c.srcA o.a) (offM o.off 8) 8 (c.dst o.d))
/-- LDU.W (R301). -/
def execLduW (o : OpMU) (s : State) : Host.Outcome State Fault Refusal :=
  s.run (fun c => s.uload c o.g (c.srcA o.a) (offM o.off 4) 4 (c.dst o.d))
/-- LDA.D (R302). -/
def execLdaD (o : OpMS) (s : State) : Host.Outcome State Fault Refusal :=
  s.run (fun c => s.vload c o.g (c.srcA o.a) 0 (.acquire o.scope.toNat) false (c.dst o.d))
/-- LDNC.D (R303). -/
def execLdncD (o : OpM) (s : State) : Host.Outcome State Fault Refusal :=
  s.run (fun c => s.vload c o.g (c.srcA o.a) (offM o.off 8) .nocache false (c.dst o.d))
/-- PREF (R304): no effect a program can observe, and no check beyond the register range and role. -/
def execPref (o : OpPf) (s : State) : Host.Outcome State Fault Refusal :=
  s.run (fun c => s.gate c .any false [srcUse (c.srcA o.a)] (s.retire c {}))

end Sys2Proof.Machine
end

