-- ==== Sys2Proof/Machine/Mailbox.lean ====
section
/-! DEFINITION. Region 0 as the host reads and writes it, and the mailbox commands as the command buffer holds them (R422 to R425). The records
and descriptors that a command's operands are stand as their rules lay them out; the other operands are words in the order in which R424
names them, the number of the command first where a row names several (DESIGN CHOICE, log 17). -/

namespace Sys2Proof.Machine

/-- The word of region 0 at an offset that is a multiple of 8, as a read of the host finds it (R422). -/
def State.regionRead (s : State) (a : Nat) : Nat :=
  let bit (b : Bool) (n : Nat) : Nat := if b then 2 ^ n else 0
  if a = 0 then s.phase % 16 + s.tilesUp.toNat * 2 ^ 4 + bit s.degraded 12 + bit s.attest 13 + bit s.fwrej 14
  else if a = 8 then s.tjmax.toNat + s.tinlet.toNat * 2 ^ 16 + s.power.toNat * 2 ^ 32 + bit s.throt 48
  else if a = 0x10 then s.cstate % 4 + s.cstatus % 256 * 2 ^ 8 + s.cseq.toNat * 2 ^ 16
  else if 0x1000 ≤ a && a < 0x2000 then leNat (s.cmdbuf.readBytes (a - 0x1000) 8)
  else if 0x2000 ≤ a && a < 0x3000 then leNat (s.rspbuf.readBytes (a - 0x2000) 8)
  else 0

/-- A mailbox command's own row, and the operands that it reads. -/
structure MailCall where
  run : State → Host.Outcome State Fault Refusal
  ev : EvArg

/-- Words of a command's operands, where LEN is as many words (R424). -/
def operandWords (b : List Byte) (n : Nat) : Option (List Nat) :=
  if b.length = 8 * n then some ((List.range n).map (fun i => fieldAt b (8 * i) 8)) else none

/-- Every word of a command's operands, where LEN is at least `least` words and then a multiple of `step`. -/
def operandList (b : List Byte) (least step : Nat) : Option (List Nat) :=
  if 8 * least ≤ b.length && (b.length - 8 * least) % (8 * step) = 0 then some ((List.range (b.length / 8)).map (fun i => fieldAt b (8 * i) 8)) else none

/-- A command with a field out of range (R425). -/
def badField : MailCall := { run := fun s => s.command 3 false (fun s => s.mailDone 2), ev := {} }

/-- The command of an opcode with its operands (R424): none where the opcode is unknown or LEN is not that of the command. -/
def State.mailCall (s : State) (op : Nat) (b : List Byte) : Option MailCall :=
  let sub := fieldAt b 0 8
  let w (l : List Nat) (i : Nat) : Nat := l.getD i 0
  let on (n : Nat) (f : (Nat → Nat) → MailCall) : Option MailCall := (operandWords b n).map (fun l => f (w l))
  match op with
  | 0x001 => on 2 (fun w => { run := execReadErrorLog, ev := { kind := w 0, value := w 1 } })
  | 0x002 => on 3 (fun w => { run := execFirmwareUpdate, ev := { bytes := s.hostBytes (w 0) (w 1), idx := w 2 } })
  | 0x003 => if b.isEmpty then some { run := execInitialiseCmd, ev := { value := defaultCapacity } }
    else on 1 (fun w => { run := execInitialiseCmd, ev := { value := w 0 } })
  | 0x004 => if b.length = 32 then some { run := execReadAttestation, ev := { bytes := b } } else none
  | 0x010 => if b.length = 16 then on 2 (fun w => { run := execQueueDescriptor, ev := { kind := w 0, queue := w 1, flag := true } })
    else on 6 (fun w => { run := execQueueDescriptor, ev := { kind := w 0, queue := w 1, ints := [w 2, w 3, w 4, w 5] } })
  | 0x020 => if b.length = 8 then on 1 (fun w => { run := execContextSet, ev := { ctx := w 0, flag := true } })
    else on 3 (fun w => { run := execContextSet, ev := { ctx := w 0, ints := [w 1, w 2] } })
  | 0x021 => match sub with
    | 0 => on 4 (fun w => { run := execMapPage, ev := { ctx := w 1, page := w 2, value := w 3 } })
    | 1 => on 3 (fun w => { run := execUnmap, ev := { ctx := w 1, page := w 2 } })
    | 2 => on 4 (fun w => { run := execProtect, ev := { ctx := w 1, page := w 2, value := w 3 } })
    | _ => some badField
  | 0x022 => match sub with
    | 0 => on 5 (fun w =>
      if 1 < w 2 then badField
      else { run := execPageAllocate, ev := { page := w 1, flag := w 2 = 1, kind := w 3, value := w 4 } })
    | 1 => on 2 (fun w => { run := execPageFree, ev := { page := w 1 } })
    | _ => some badField
  | 0x023 => on 2 (fun w => { run := execMigrateHostPage, ev := { ctx := w 0, page := w 1 } })
  | 0x030 => on 2 (fun w => { run := execScrubRates, ev := { kind := w 0, value := w 1 } })
  | 0x040 => match sub with
    | 0 => on 6 (fun w => { run := execPreempt, ev := { ctx := w 1, ints := [w 2, w 3, w 4, w 5] } })
    | 1 => on 2 (fun w => { run := execResume, ev := { ctx := w 1 } })
    | 2 => on 2 (fun w => { run := execKill, ev := { ctx := w 1 } })
    | _ => some badField
  | 0x041 => match sub with
    | 0 => on 4 (fun w => { run := execCheckpoint, ev := { ints := [w 1, w 2, w 3] } })
    | 1 => on 3 (fun w => { run := execReload, ev := { ints := [w 1, w 2] } })
    | _ => some badField
  | 0x042 => if b.length < 88 || (b.length - 88) % 128 ≠ 0 then none
    else some { run := execMeshAndShards, ev := { ctx := sub, ints := (List.range 10).map (fun i => fieldAt b (8 + 8 * i) 8), bytes := b.drop 88 } }
  | 0x050 => match sub with
    | 0 => on 3 (fun w => { run := execDebugCtl, ev := { kind := 0, ctx := w 1, flag := w 2 = 1 } })
    | 1 => (operandList b 3 4).map (fun l => { run := execDebugCtl, ev := { kind := 1, value := w l 1, flag := w l 2 = 1, ints := l.drop 3 } })
    | 3 => on 3 (fun w => { run := execDebugCtl, ev := { kind := 3, core := w 1, slot := w 2 } })
    | 4 => on 2 (fun w => { run := execDebugCtl, ev := { kind := 4, cluster := w 1 } })
    | 5 => on 2 (fun w => { run := execDebugCtl, ev := { kind := 5, value := w 1 } })
    | k => on 1 (fun _ => { run := execDebugCtl, ev := { kind := k } })
  | 0x060 => match sub with
    | 0 => (operandList b 3 1).map (fun l => { run := execPeers, ev := { kind := 0, idx := w l 1, value := w l 2, ints := l.drop 3 } })
    | 2 => (operandList b 2 3).map (fun l => { run := execPeers, ev := { kind := 2, idx := w l 1, ints := l.drop 2 } })
    | 4 => (operandList b 1 1).map (fun l => { run := execPeers, ev := { kind := 4, ints := l.drop 1 } })
    | k => on 2 (fun w => { run := execPeers, ev := { kind := k, idx := w 1 } })
  | 0x061 => (operandList b 1 2).map (fun l => { run := execCrossDeviceBarrier, ev := { value := w l 0, ints := l.drop 1 } })
  | _ => none

/-- A row of the mailbox with operands of its own; the host's own event stays as it was. -/
def MailCall.go (m : MailCall) (s : State) (seq : Nat) : Host.Outcome State Fault Refusal :=
  match m.run { s with ev := { m.ev with seq := seq } } with
  | .next t => .next { t with ev := s.ev }
  | .fault f => .fault f
  | .refused r => .refused r

/-- A write to the command doorbell (R423 to R425): ignored while the mailbox is busy; an unknown opcode or a LEN out of its range ends with
CSTATUS 1, a reserved bit of the header with CSTATUS 2; else the command in the buffer is executed. -/
def State.rung (s : State) (seq : Nat) : Host.Outcome State Fault Refusal :=
  let h := leNat (s.cmdbuf.readBytes 0 8)
  let len := h / 2 ^ 16 % 2 ^ 16
  let accepted : State := { s with cseq := BitVec.ofNat 32 seq }
  if !s.reachable || s.cstate = 1 then .next s
  else match (if len ≤ 4088 then s.mailCall (h % 65536) (s.cmdbuf.readBytes 8 len) else none) with
    | none => .next (accepted.mailDone 1)
    | some m => if h / 2 ^ 32 ≠ 0 then .next (accepted.mailDone 2) else m.go s seq

/-- REGISTER_WRITE (R422): bytes to an offset of region 0: the command buffer takes them, a doorbell takes its value, and any other offset
ignores them. -/
def execRegisterWrite (s : State) : Host.Outcome State Fault Refusal :=
  let a := s.ev.addr
  let v := leNat (s.ev.bytes.take 4)
  let door (base n : Nat) : Bool := decide (base ≤ a) && decide (a < base + 8 * n) && a % 8 = 0 && decide (4 ≤ s.ev.bytes.length)
  if !s.reachable then .next s
  else if 0x1000 ≤ a && a < 0x2000 then .next { s with cmdbuf := s.cmdbuf.writeBytes (a - 0x1000) (s.ev.bytes.take (0x2000 - a)) }
  else if a = 0x18 && 4 ≤ s.ev.bytes.length then s.rung v
  else if door 0x10000 64 then .next (s.lqDoor ((a - 0x10000) / 8) v)
  else if door 0x10400 64 then .next (s.eqDoor ((a - 0x10400) / 8) v)
  else if door 0x10800 10 then .next (s.elDoor ((a - 0x10800) / 8) v)
  else .next s

/-- CDOOR (R423, R425): a write of the sequence number `seq` to the command doorbell. -/
def execCdoor (s : State) : Host.Outcome State Fault Refusal := s.rung s.ev.seq

end Sys2Proof.Machine
end

