-- ==== Sys2Proof/Machine/Dispatch.lean ====
section
/-! DEFINITION. The meaning of every instruction: one arm for each constructor, one call of its meaning. -/

namespace Sys2Proof.Machine

/-- The effect of an instruction. -/
def exec (i : Instr) (s : State) : Host.Outcome State Fault Refusal :=
  match i with
  | .addD o => Sys2Proof.Machine.execAddD o s
  | .addW o => Sys2Proof.Machine.execAddW o s
  | .addH o => Sys2Proof.Machine.execAddH o s
  | .addB o => Sys2Proof.Machine.execAddB o s
  | .subD o => Sys2Proof.Machine.execSubD o s
  | .subW o => Sys2Proof.Machine.execSubW o s
  | .subH o => Sys2Proof.Machine.execSubH o s
  | .subB o => Sys2Proof.Machine.execSubB o s
  | .mulD o => Sys2Proof.Machine.execMulD o s
  | .mulW o => Sys2Proof.Machine.execMulW o s
  | .mulhD o => Sys2Proof.Machine.execMulhD o s
  | .mulhuD o => Sys2Proof.Machine.execMulhuD o s
  | .andD o => Sys2Proof.Machine.execAndD o s
  | .orD o => Sys2Proof.Machine.execOrD o s
  | .xorD o => Sys2Proof.Machine.execXorD o s
  | .andn o => Sys2Proof.Machine.execAndn o s
  | .addsH o => Sys2Proof.Machine.execAddsH o s
  | .subsH o => Sys2Proof.Machine.execSubsH o s
  | .addusB o => Sys2Proof.Machine.execAddusB o s
  | .subusB o => Sys2Proof.Machine.execSubusB o s
  | .minH o => Sys2Proof.Machine.execMinH o s
  | .maxH o => Sys2Proof.Machine.execMaxH o s
  | .minW o => Sys2Proof.Machine.execMinW o s
  | .maxW o => Sys2Proof.Machine.execMaxW o s
  | .shlD o => Sys2Proof.Machine.execShlD o s
  | .shrD o => Sys2Proof.Machine.execShrD o s
  | .sarD o => Sys2Proof.Machine.execSarD o s
  | .rotD o => Sys2Proof.Machine.execRotD o s
  | .addiD o => Sys2Proof.Machine.execAddiD o s
  | .addiW o => Sys2Proof.Machine.execAddiW o s
  | .movi o => Sys2Proof.Machine.execMovi o s
  | .clzD o => Sys2Proof.Machine.execClzD o s
  | .ctzD o => Sys2Proof.Machine.execCtzD o s
  | .popcD o => Sys2Proof.Machine.execPopcD o s
  | .brevD o => Sys2Proof.Machine.execBrevD o s
  | .bswapD o => Sys2Proof.Machine.execBswapD o s
  | .clzW o => Sys2Proof.Machine.execClzW o s
  | .popcW o => Sys2Proof.Machine.execPopcW o s
  | .sextW o => Sys2Proof.Machine.execSextW o s
  | .zextW o => Sys2Proof.Machine.execZextW o s
  | .sextH o => Sys2Proof.Machine.execSextH o s
  | .sextB o => Sys2Proof.Machine.execSextB o s
  | .faddD o => Sys2Proof.Machine.execFaddD o s
  | .faddS o => Sys2Proof.Machine.execFaddS o s
  | .faddH o => Sys2Proof.Machine.execFaddH o s
  | .faddB o => Sys2Proof.Machine.execFaddB o s
  | .fsubD o => Sys2Proof.Machine.execFsubD o s
  | .fsubS o => Sys2Proof.Machine.execFsubS o s
  | .fsubH o => Sys2Proof.Machine.execFsubH o s
  | .fsubB o => Sys2Proof.Machine.execFsubB o s
  | .fmulD o => Sys2Proof.Machine.execFmulD o s
  | .fmulS o => Sys2Proof.Machine.execFmulS o s
  | .fmulH o => Sys2Proof.Machine.execFmulH o s
  | .fmulB o => Sys2Proof.Machine.execFmulB o s
  | .ffmaD o => Sys2Proof.Machine.execFfmaD o s
  | .ffmaS o => Sys2Proof.Machine.execFfmaS o s
  | .ffmaH o => Sys2Proof.Machine.execFfmaH o s
  | .ffmaB o => Sys2Proof.Machine.execFfmaB o s
  | .fminD o => Sys2Proof.Machine.execFminD o s
  | .fminS o => Sys2Proof.Machine.execFminS o s
  | .fminH o => Sys2Proof.Machine.execFminH o s
  | .fmaxD o => Sys2Proof.Machine.execFmaxD o s
  | .fmaxS o => Sys2Proof.Machine.execFmaxS o s
  | .fmaxH o => Sys2Proof.Machine.execFmaxH o s
  | .fnmaD o => Sys2Proof.Machine.execFnmaD o s
  | .fnmaS o => Sys2Proof.Machine.execFnmaS o s
  | .fabsD o => Sys2Proof.Machine.execFabsD o s
  | .fabsS o => Sys2Proof.Machine.execFabsS o s
  | .fnegD o => Sys2Proof.Machine.execFnegD o s
  | .fnegS o => Sys2Proof.Machine.execFnegS o s
  | .fclass o => Sys2Proof.Machine.execFclass o s
  | .fdot2H o => Sys2Proof.Machine.execFdot2H o s
  | .fdot2B o => Sys2Proof.Machine.execFdot2B o s
  | .fscaleD o => Sys2Proof.Machine.execFscaleD o s
  | .icmpD o => Sys2Proof.Machine.execIcmpD o s
  | .icmpW o => Sys2Proof.Machine.execIcmpW o s
  | .fcmpD o => Sys2Proof.Machine.execFcmpD o s
  | .fcmpS o => Sys2Proof.Machine.execFcmpS o s
  | .icmpiD o => Sys2Proof.Machine.execIcmpiD o s
  | .pand o => Sys2Proof.Machine.execPand o s
  | .por o => Sys2Proof.Machine.execPor o s
  | .pxor o => Sys2Proof.Machine.execPxor o s
  | .pnot o => Sys2Proof.Machine.execPnot o s
  | .sel o => Sys2Proof.Machine.execSel o s
  | .ptov o => Sys2Proof.Machine.execPtov o s
  | .vtop o => Sys2Proof.Machine.execVtop o s
  | .vcmpmH o => Sys2Proof.Machine.execVcmpmH o s
  | .vcmpmB o => Sys2Proof.Machine.execVcmpmB o s
  | .fcmpmH o => Sys2Proof.Machine.execFcmpmH o s
  | .cvt o => Sys2Proof.Machine.execCvt o s
  | .cvtq o => Sys2Proof.Machine.execCvtq o s
  | .deq o => Sys2Proof.Machine.execDeq o s
  | .fdivD o => Sys2Proof.Machine.execFdivD o s
  | .fdivS o => Sys2Proof.Machine.execFdivS o s
  | .fsqrtD o => Sys2Proof.Machine.execFsqrtD o s
  | .fsqrtS o => Sys2Proof.Machine.execFsqrtS o s
  | .frcpS o => Sys2Proof.Machine.execFrcpS o s
  | .frsqS o => Sys2Proof.Machine.execFrsqS o s
  | .fexp2S o => Sys2Proof.Machine.execFexp2S o s
  | .flog2S o => Sys2Proof.Machine.execFlog2S o s
  | .fsinpS o => Sys2Proof.Machine.execFsinpS o s
  | .fcospS o => Sys2Proof.Machine.execFcospS o s
  | .ftanhS o => Sys2Proof.Machine.execFtanhS o s
  | .idivD o => Sys2Proof.Machine.execIdivD o s
  | .idivuD o => Sys2Proof.Machine.execIdivuD o s
  | .permD o => Sys2Proof.Machine.execPermD o s
  | .permW o => Sys2Proof.Machine.execPermW o s
  | .permH o => Sys2Proof.Machine.execPermH o s
  | .permB o => Sys2Proof.Machine.execPermB o s
  | .bcast o => Sys2Proof.Machine.execBcast o s
  | .rotxH o => Sys2Proof.Machine.execRotxH o s
  | .ballot o => Sys2Proof.Machine.execBallot o s
  | .vote o => Sys2Proof.Machine.execVote o s
  | .redadd o => Sys2Proof.Machine.execRedadd o s
  | .redmin o => Sys2Proof.Machine.execRedmin o s
  | .redmax o => Sys2Proof.Machine.execRedmax o s
  | .scanadd o => Sys2Proof.Machine.execScanadd o s
  | .matchD o => Sys2Proof.Machine.execMatchD o s
  | .matchS o => Sys2Proof.Machine.execMatchS o s
  | .subperm o => Sys2Proof.Machine.execSubperm o s
  | .lanemask o => Sys2Proof.Machine.execLanemask o s
  | .uadd o => Sys2Proof.Machine.execUadd o s
  | .usub o => Sys2Proof.Machine.execUsub o s
  | .umul o => Sys2Proof.Machine.execUmul o s
  | .uand o => Sys2Proof.Machine.execUand o s
  | .uor o => Sys2Proof.Machine.execUor o s
  | .uxor o => Sys2Proof.Machine.execUxor o s
  | .ushl o => Sys2Proof.Machine.execUshl o s
  | .ushr o => Sys2Proof.Machine.execUshr o s
  | .usar o => Sys2Proof.Machine.execUsar o s
  | .uaddi o => Sys2Proof.Machine.execUaddi o s
  | .umovi o => Sys2Proof.Machine.execUmovi o s
  | .umovh o => Sys2Proof.Machine.execUmovh o s
  | .ucmp o => Sys2Proof.Machine.execUcmp o s
  | .umin o => Sys2Proof.Machine.execUmin o s
  | .umax o => Sys2Proof.Machine.execUmax o s
  | .uread o => Sys2Proof.Machine.execUread o s
  | .bra o => Sys2Proof.Machine.execBra o s
  | .brx o => Sys2Proof.Machine.execBrx o s
  | .call o => Sys2Proof.Machine.execCall o s
  | .ret o => Sys2Proof.Machine.execRet o s
  | .fspawn o => Sys2Proof.Machine.execFspawn o s
  | .fend o => Sys2Proof.Machine.execFend o s
  | .syncm o => Sys2Proof.Machine.execSyncm o s
  | .cvset o => Sys2Proof.Machine.execCvset o s
  | .bara o => Sys2Proof.Machine.execBara o s
  | .barw o => Sys2Proof.Machine.execBarw o s
  | .region o => Sys2Proof.Machine.execRegion o s
  | .trap o => Sys2Proof.Machine.execTrap o s
  | .rett o => Sys2Proof.Machine.execRett o s
  | .regg o => Sys2Proof.Machine.execRegg o s
  | .ldB o => Sys2Proof.Machine.execLdB o s
  | .ldBs o => Sys2Proof.Machine.execLdBs o s
  | .ldH o => Sys2Proof.Machine.execLdH o s
  | .ldHs o => Sys2Proof.Machine.execLdHs o s
  | .ldW o => Sys2Proof.Machine.execLdW o s
  | .ldWs o => Sys2Proof.Machine.execLdWs o s
  | .ldD o => Sys2Proof.Machine.execLdD o s
  | .ldQ o => Sys2Proof.Machine.execLdQ o s
  | .lduD o => Sys2Proof.Machine.execLduD o s
  | .lduW o => Sys2Proof.Machine.execLduW o s
  | .ldaD o => Sys2Proof.Machine.execLdaD o s
  | .ldncD o => Sys2Proof.Machine.execLdncD o s
  | .pref o => Sys2Proof.Machine.execPref o s
  | .stB o => Sys2Proof.Machine.execStB o s
  | .stH o => Sys2Proof.Machine.execStH o s
  | .stW o => Sys2Proof.Machine.execStW o s
  | .stD o => Sys2Proof.Machine.execStD o s
  | .stQ o => Sys2Proof.Machine.execStQ o s
  | .stuD o => Sys2Proof.Machine.execStuD o s
  | .stlD o => Sys2Proof.Machine.execStlD o s
  | .aadd o => Sys2Proof.Machine.execAadd o s
  | .amin o => Sys2Proof.Machine.execAmin o s
  | .amax o => Sys2Proof.Machine.execAmax o s
  | .aand o => Sys2Proof.Machine.execAand o s
  | .aor o => Sys2Proof.Machine.execAor o s
  | .axch o => Sys2Proof.Machine.execAxch o s
  | .acas o => Sys2Proof.Machine.execAcas o s
  | .aaddfS o => Sys2Proof.Machine.execAaddfS o s
  | .fence o => Sys2Proof.Machine.execFence o s
  | .release o => Sys2Proof.Machine.execRelease o s
  | .acquire o => Sys2Proof.Machine.execAcquire o s
  | .ifence o => Sys2Proof.Machine.execIfence o s
  | .rfence o => Sys2Proof.Machine.execRfence o s
  | .cpy o => Sys2Proof.Machine.execCpy o s
  | .cpyq o => Sys2Proof.Machine.execCpyq o s
  | .cpyt o => Sys2Proof.Machine.execCpyt o s
  | .sealBatch o => Sys2Proof.Machine.execSealBatch o s
  | .cwaitBatch o => Sys2Proof.Machine.execCwaitBatch o s
  | .rput o => Sys2Proof.Machine.execRput o s
  | .rget o => Sys2Proof.Machine.execRget o s
  | .notify o => Sys2Proof.Machine.execNotify o s
  | .snapTake o => Sys2Proof.Machine.execSnapTake o s
  | .accg o => Sys2Proof.Machine.execAccg o s
  | .ownx o => Sys2Proof.Machine.execOwnx o s
  | .mshape o => Sys2Proof.Machine.execMshape o s
  | .mld o => Sys2Proof.Machine.execMld o s
  | .mst o => Sys2Proof.Machine.execMst o s
  | .mmovv o => Sys2Proof.Machine.execMmovv o s
  | .mmul o => Sys2Proof.Machine.execMmul o s
  | .mmac o => Sys2Proof.Machine.execMmac o s
  | .madd o => Sys2Proof.Machine.execMadd o s
  | .mtrn o => Sys2Proof.Machine.execMtrn o s
  | .mchol o => Sys2Proof.Machine.execMchol o s
  | .mlu o => Sys2Proof.Machine.execMlu o s
  | .msolc o => Sys2Proof.Machine.execMsolc o s
  | .msoll o => Sys2Proof.Machine.execMsoll o s
  | .mscal o => Sys2Proof.Machine.execMscal o s
  | .mflag o => Sys2Proof.Machine.execMflag o s
  | .midn o => Sys2Proof.Machine.execMidn o s
  | .mmv o => Sys2Proof.Machine.execMmv o s
  | .tld o => Sys2Proof.Machine.execTld o s
  | .tst o => Sys2Proof.Machine.execTst o s
  | .wload o => Sys2Proof.Machine.execWload o s
  | .wswap o => Sys2Proof.Machine.execWswap o s
  | .tmma o => Sys2Proof.Machine.execTmma o s
  | .tmmas o => Sys2Proof.Machine.execTmmas o s
  | .aclr o => Sys2Proof.Machine.execAclr o s
  | .acvt o => Sys2Proof.Machine.execAcvt o s
  | .tckv o => Sys2Proof.Machine.execTckv o s
  | .tckfix o => Sys2Proof.Machine.execTckfix o s
  | .tckset o => Sys2Proof.Machine.execTckset o s
  | .tcopy o => Sys2Proof.Machine.execTcopy o s
  | .dload o => Sys2Proof.Machine.execDload o s
  | .dqry o => Sys2Proof.Machine.execDqry o s
  | .dcent o => Sys2Proof.Machine.execDcent o s
  | .dfin o => Sys2Proof.Machine.execDfin o s
  | .csrr o => Sys2Proof.Machine.execCsrr o s
  | .csrw o => Sys2Proof.Machine.execCsrw o s
  | .csrs o => Sys2Proof.Machine.execCsrs o s
  | .csrc o => Sys2Proof.Machine.execCsrc o s
  | .cntrd o => Sys2Proof.Machine.execCntrd o s
  | .cntctlEvsel o => Sys2Proof.Machine.execCntctlEvsel o s
  | .bkpt o => Sys2Proof.Machine.execBkpt o s
  | .trace o => Sys2Proof.Machine.execTrace o s
  | .prog o => Sys2Proof.Machine.execProg o s
  | .ctxfl o => Sys2Proof.Machine.execCtxfl o s
  | .haltg o => Sys2Proof.Machine.execHaltg o s
  | .resumeg o => Sys2Proof.Machine.execResumeg o s
  | .hintImm o => Sys2Proof.Machine.execHintImm o s
  | .hintRep o => Sys2Proof.Machine.execHintRep o s
  | .hintSched o => Sys2Proof.Machine.execHintSched o s
  | .hintMod o => Sys2Proof.Machine.execHintMod o s
  | .hintPrio o => Sys2Proof.Machine.execHintPrio o s
  | .gbar => Sys2Proof.Machine.execGbar s
  | .regend => Sys2Proof.Machine.execRegend s
  | .cwaitTake => Sys2Proof.Machine.execCwaitTake s
  | .cwaitFree => Sys2Proof.Machine.execCwaitFree s
  | .snapDrop => Sys2Proof.Machine.execSnapDrop s
  | .snapRollback => Sys2Proof.Machine.execSnapRollback s
  | .snapShip => Sys2Proof.Machine.execSnapShip s
  | .cntctlTrmask => Sys2Proof.Machine.execCntctlTrmask s
  | .cntctlPclr => Sys2Proof.Machine.execCntctlPclr s
  | .cntctlSample => Sys2Proof.Machine.execCntctlSample s
  | .cntctlTrlo => Sys2Proof.Machine.execCntctlTrlo s
  | .cntctlTrhi => Sys2Proof.Machine.execCntctlTrhi s
  | .cntctlTrstart => Sys2Proof.Machine.execCntctlTrstart s
  | .cntctlTrstop => Sys2Proof.Machine.execCntctlTrstop s
  | .cntctlEclr => Sys2Proof.Machine.execCntctlEclr s
  | .cntctlDstop => Sys2Proof.Machine.execCntctlDstop s
  | .hintNop => Sys2Proof.Machine.execHintNop s
  | .reservedHint => Sys2Proof.Machine.execReservedHint s
  | .rotation => Sys2Proof.Machine.execRotation s
  | .handlerStart => Sys2Proof.Machine.execHandlerStart s
  | .arrayOperationComplete => Sys2Proof.Machine.execArrayOperationComplete s
  | .specialFunctionComplete => Sys2Proof.Machine.execSpecialFunctionComplete s
  | .loadDataReturn => Sys2Proof.Machine.execLoadDataReturn s
  | .hostFetch => Sys2Proof.Machine.execHostFetch s
  | .appenderAccept => Sys2Proof.Machine.execAppenderAccept s
  | .appendHoldRelease => Sys2Proof.Machine.execAppendHoldRelease s
  | .logPressureEvent => Sys2Proof.Machine.execLogPressureEvent s
  | .dredgeStart => Sys2Proof.Machine.execDredgeStart s
  | .dredgeDrainComplete => Sys2Proof.Machine.execDredgeDrainComplete s
  | .indexLookup => Sys2Proof.Machine.execIndexLookup s
  | .indexUpdate => Sys2Proof.Machine.execIndexUpdate s
  | .fold => Sys2Proof.Machine.execFold s
  | .grainEntryWriteback => Sys2Proof.Machine.execGrainEntryWriteback s
  | .tableFree => Sys2Proof.Machine.execTableFree s
  | .homeMove => Sys2Proof.Machine.execHomeMove s
  | .claimRequest => Sys2Proof.Machine.execClaimRequest s
  | .commitWrite => Sys2Proof.Machine.execCommitWrite s
  | .atomicApply => Sys2Proof.Machine.execAtomicApply s
  | .atomicAnswer => Sys2Proof.Machine.execAtomicAnswer s
  | .atomicMovedReissue => Sys2Proof.Machine.execAtomicMovedReissue s
  | .remoteAccessPerform => Sys2Proof.Machine.execRemoteAccessPerform s
  | .remoteAck => Sys2Proof.Machine.execRemoteAck s
  | .impreciseFaultArrival => Sys2Proof.Machine.execImpreciseFaultArrival s
  | .copyStart => Sys2Proof.Machine.execCopyStart s
  | .copyPiece => Sys2Proof.Machine.execCopyPiece s
  | .copyComplete => Sys2Proof.Machine.execCopyComplete s
  | .copyClaimTimeout => Sys2Proof.Machine.execCopyClaimTimeout s
  | .ownxTimeout => Sys2Proof.Machine.execOwnxTimeout s
  | .growGrant => Sys2Proof.Machine.execGrowGrant s
  | .growDeadlockBreak => Sys2Proof.Machine.execGrowDeadlockBreak s
  | .nodeDispatch => Sys2Proof.Machine.execNodeDispatch s
  | .groupAdmission => Sys2Proof.Machine.execGroupAdmission s
  | .prologue => Sys2Proof.Machine.execPrologue s
  | .nodeRetirement => Sys2Proof.Machine.execNodeRetirement s
  | .completionRecord => Sys2Proof.Machine.execCompletionRecord s
  | .notifyRecord => Sys2Proof.Machine.execNotifyRecord s
  | .stagingTagFree => Sys2Proof.Machine.execStagingTagFree s
  | .msixHoldoffExpiry => Sys2Proof.Machine.execMsixHoldoffExpiry s
  | .lqdoor => Sys2Proof.Machine.execLqdoor s
  | .eqdoor => Sys2Proof.Machine.execEqdoor s
  | .eldoor => Sys2Proof.Machine.execEldoor s
  | .registerWrite => Sys2Proof.Machine.execRegisterWrite s
  | .scrub => Sys2Proof.Machine.execScrub s
  | .hbmBeatRetry => Sys2Proof.Machine.execHbmBeatRetry s
  | .hbmRefresh => Sys2Proof.Machine.execHbmRefresh s
  | .channelGrant => Sys2Proof.Machine.execChannelGrant s
  | .outflowShip => Sys2Proof.Machine.execOutflowShip s
  | .watchdogHang => Sys2Proof.Machine.execWatchdogHang s
  | .peerUnavailable => Sys2Proof.Machine.execPeerUnavailable s
  | .progApply => Sys2Proof.Machine.execProgApply s
  | .sampleTick => Sys2Proof.Machine.execSampleTick s
  | .trialEnd => Sys2Proof.Machine.execTrialEnd s
  | .haltgTimeout => Sys2Proof.Machine.execHaltgTimeout s
  | .preemptRegionStop => Sys2Proof.Machine.execPreemptRegionStop s
  | .crewStop => Sys2Proof.Machine.execCrewStop s
  | .forcedReset => Sys2Proof.Machine.execForcedReset s
  | .groupSave => Sys2Proof.Machine.execGroupSave s
  | .deviceReset => Sys2Proof.Machine.execDeviceReset s
  | .safePhaseReached => Sys2Proof.Machine.execSafePhaseReached s
  | .hbmTrainingComplete => Sys2Proof.Machine.execHbmTrainingComplete s
  | .initialiseTimeout => Sys2Proof.Machine.execInitialiseTimeout s
  | .logInitialised => Sys2Proof.Machine.execLogInitialised s
  | .tileSelfTest => Sys2Proof.Machine.execTileSelfTest s
  | .attestationSigned => Sys2Proof.Machine.execAttestationSigned s
  | .thermalThrottle => Sys2Proof.Machine.execThermalThrottle s
  | .thermalShutdown => Sys2Proof.Machine.execThermalShutdown s
  | .flitReceive => Sys2Proof.Machine.execFlitReceive s
  | .linkTraining => Sys2Proof.Machine.execLinkTraining s
  | .portFail => Sys2Proof.Machine.execPortFail s
  | .peerAccess => Sys2Proof.Machine.execPeerAccess s
  | .peerStoreRefuse => Sys2Proof.Machine.execPeerStoreRefuse s
  | .peerWindowRefresh => Sys2Proof.Machine.execPeerWindowRefresh s
  | .crossDeviceBarrierArrival => Sys2Proof.Machine.execCrossDeviceBarrierArrival s
  | .readErrorLog => Sys2Proof.Machine.execReadErrorLog s
  | .firmwareUpdate => Sys2Proof.Machine.execFirmwareUpdate s
  | .initialiseCmd => Sys2Proof.Machine.execInitialiseCmd s
  | .readAttestation => Sys2Proof.Machine.execReadAttestation s
  | .queueDescriptor => Sys2Proof.Machine.execQueueDescriptor s
  | .contextSet => Sys2Proof.Machine.execContextSet s
  | .mapPage => Sys2Proof.Machine.execMapPage s
  | .unmap => Sys2Proof.Machine.execUnmap s
  | .protect => Sys2Proof.Machine.execProtect s
  | .pageAllocate => Sys2Proof.Machine.execPageAllocate s
  | .pageFree => Sys2Proof.Machine.execPageFree s
  | .migrateHostPage => Sys2Proof.Machine.execMigrateHostPage s
  | .scrubRates => Sys2Proof.Machine.execScrubRates s
  | .preempt => Sys2Proof.Machine.execPreempt s
  | .resume => Sys2Proof.Machine.execResume s
  | .kill => Sys2Proof.Machine.execKill s
  | .checkpoint => Sys2Proof.Machine.execCheckpoint s
  | .reload => Sys2Proof.Machine.execReload s
  | .meshAndShards => Sys2Proof.Machine.execMeshAndShards s
  | .debugCtl => Sys2Proof.Machine.execDebugCtl s
  | .peers => Sys2Proof.Machine.execPeers s
  | .crossDeviceBarrier => Sys2Proof.Machine.execCrossDeviceBarrier s
  | .cdoor => Sys2Proof.Machine.execCdoor s
  | .supplyOff => Sys2Proof.Machine.execSupplyOff s
  | .recalibration => Sys2Proof.Machine.execRecalibration s
  | .atomicTagSetExpiry => Sys2Proof.Machine.execAtomicTagSetExpiry s

end Sys2Proof.Machine
end

