-- ==== Sys2Proof/Machine/Auto.lean ====
section
/-! DEFINITION. Whose turn comes next when the agenda names none: the first step of another agent that would change the machine, in a
fixed order, else an issue, the cores in rotation, else a cycle of the clock (log 2). The steps that only the host, a peer or the
environment causes come from the agenda. -/

namespace Sys2Proof.Machine

/-- Whether a step of another agent would change the machine. -/
def State.moves (s : State) (i : Instr) (a : EvArg) : Bool :=
  match exec i { s with ev := a, cur := none } with
  | .next t => decide ({ t with ev := s.ev, cur := s.cur } ≠ s)
  | .fault _ => false
  | .refused _ => false

/-- Steps of a crew's own requests. -/
def State.crewTurns (s : State) (core sl : Nat) (w : Crew) : List (Instr × EvArg) :=
  let a : EvArg := { core := core, slot := sl }
  let atoms : List (Instr × EvArg) := if w.atoms.isEmpty then [] else [(.atomicAnswer, a), (.atomicApply, a), (.atomicMovedReissue, a)]
  let loads : List (Instr × EvArg) := if w.loads.isEmpty then [] else [(.loadDataReturn, a)]
  let progs : List (Instr × EvArg) := if w.progs.isEmpty then [] else [(.progApply, a)]
  let late : List (Instr × EvArg) :=
    if w.liveMask = 0 then []
    else (if s.lateLanes core sl Wait.ownxSince = 0 then [] else [(.ownxTimeout, a)])
      ++ (if s.lateLanes core sl Wait.haltSince = 0 then [] else [(.haltgTimeout, a)])
  let hung : List (Instr × EvArg) := if 2 ^ 32 ≤ w.wdog then [(.watchdogHang, a)] else []
  let gone : List (Instr × EvArg) := if w.frozen.isSome then [(.peerUnavailable, a)] else []
  let stops : List (Instr × EvArg) := if s.canStop core sl then [(.crewStop, a)] else []
  atoms ++ loads ++ progs ++ late ++ hung ++ gone ++ stops

/-- Steps of one core's units. -/
def State.coreTurns (s : State) (core : Nat) (k : Core) : List (Instr × EvArg) :=
  let a : EvArg := { core := core }
  let pieces : List (Instr × EvArg) := (List.range k.copyLive.length).map (fun i => (.copyPiece, { core := core, idx := i }))
  [(.arrayOperationComplete, a), (.specialFunctionComplete, a)] ++ k.slots.flatMap (fun e => s.crewTurns core e.1 e.2)
    ++ [(.appenderAccept, a), (.remoteAck, a), (.remoteAck, { core := core, kind := 1 }), (.remoteAccessPerform, a)
       , (.impreciseFaultArrival, a), (.copyComplete, a), (.copyClaimTimeout, a), (.copyStart, a)] ++ pieces
    ++ [(.growGrant, a), (.growDeadlockBreak, a), (.handlerStart, a), (.sampleTick, a), (.rotation, a)]

/-- Whether a cluster's oldest open claim is to be asked now: one that waits asks again once a cycle has passed. -/
def Cluster.claimDue (c : Cluster) (cycle : Nat) : Bool :=
  match c.claims.find? (fun r => r.outcome = 0) with
  | some r => !r.retry || decide (r.since < cycle)
  | none => false

/-- Steps of one cluster. -/
def State.clusterTurns (s : State) (k : Nat) (c : Cluster) : List (Instr × EvArg) :=
  let a : EvArg := { cluster := k }
  let upd : List (Instr × EvArg) := if c.pend.isEmpty then [] else [(.indexUpdate, a)]
  let rels : List (Instr × EvArg) := if c.rels.isEmpty then [] else [(.commitWrite, a)]
  let claim : List (Instr × EvArg) := if c.claimDue s.cycle then [(.claimRequest, a)] else []
  let held : List (Instr × EvArg) := if c.held.isSome then [(.appendHoldRelease, a)] else []
  upd ++ rels ++ claim ++ held

/-- A command that holds the mailbox goes on by its own row. -/
def MailCmd.turn (m : MailCmd) : List (Instr × EvArg) :=
  match m with
  | .preempt _ => []
  | .resume t => [(.resume, { ctx := t })]
  | .checkpoint _ _ _ => [(.checkpoint, ({} : EvArg))]
  | .migrate _ _ => [(.migrateHostPage, ({} : EvArg))]
  | .drain _ _ => [(.mapPage, ({} : EvArg))]

/-- Steps of the device's own agents. -/
def State.deviceTurns (s : State) : List (Instr × EvArg) :=
  let busy : List (Instr × EvArg) := match s.busy with
    | some m => m.turn
    | none => []
  let trial : List (Instr × EvArg) := if s.trial.active then [(.trialEnd, ({} : EvArg))] else []
  let records : List (Instr × EvArg) := if s.evout.isEmpty then [] else [(.completionRecord, ({} : EvArg)), (.notifyRecord, ({} : EvArg))]
  let msix : List (Instr × EvArg) := (s.eqs.filter (fun e => s.msixDue e.2)).map (fun e => (.msixHoldoffExpiry, { queue := e.1 }))
    ++ (s.els.filter (fun e => s.msixDue e.2)).map (fun e => (.msixHoldoffExpiry, { queue := e.1, kind := 1 }))
  let left : List (Instr × EvArg) := s.orphans.map (fun o => (.atomicApply, { core := o.core, slot := o.slot }))
  let stages : List (Instr × EvArg) := (s.ctxs.filter (fun e => e.2.stage = 1 || e.2.stage = 2)).flatMap (fun e =>
    [(.forcedReset, { ctx := e.1 }), (.preemptRegionStop, { ctx := e.1 })])
  let nodes : List (Instr × EvArg) := if s.lqs.isEmpty && s.nodes.isEmpty then [] else [(.nodeRetirement, ({} : EvArg)), (.nodeDispatch, ({} : EvArg))]
  let admission : List (Instr × EvArg) := if s.pending.isEmpty then [] else [(.groupAdmission, ({} : EvArg)), (.groupSave, ({} : EvArg))]
  let prol : List (Instr × EvArg) := if s.prologues.isEmpty then [] else [(.prologue, ({} : EvArg))]
  let out : List (Instr × EvArg) := if s.outflow.isEmpty then [] else [(.outflowShip, ({} : EvArg))]
  let ports : List (Instr × EvArg) := (s.ports.filter (fun e => s.portLate e.1)).map (fun e => (.portFail, { idx := e.1 }))
  let peers : List (Instr × EvArg) := if s.peerIn.isEmpty then [] else [(.peerAccess, { kind := 2 }), (.peerStoreRefuse, ({} : EvArg))]
  let drain : List (Instr × EvArg) := s.dredges.map (fun d => (.dredgeDrainComplete, { stack := d.stack }))
  let dredge : List (Instr × EvArg) := if s.segs.isEmpty then []
    else ((List.range 12).filter (fun t => !s.stackOpenable t)).map (fun t => (.dredgeStart, { stack := t }))
  let pressed : List (Instr × EvArg) := if s.heldSince.isEmpty then [] else [(.logPressureEvent, ({} : EvArg))]
  busy ++ trial ++ left ++ pressed ++ records ++ msix ++ stages ++ nodes ++ admission ++ prol ++ out ++ ports ++ peers ++ drain ++ dredge
    ++ (if s.phase = 2 then [(.initialiseTimeout, ({} : EvArg))] else [])

/-- Steps in the background, which the machine takes when no crew can issue. -/
def State.restTurns (s : State) : List (Instr × EvArg) :=
  let fold : List (Instr × EvArg) := s.hpend.map (fun u => (.fold, { addr := u.lsec }))
  let tags : List (Instr × EvArg) := (s.stagingT.map Prod.fst).map (fun t => (.stagingTagFree, { value := t }))
  let expiry : List (Instr × EvArg) := if s.atomTags.isEmpty then [] else [(.atomicTagSetExpiry, ({} : EvArg))]
  let free : List (Instr × EvArg) := if s.freeTabs.isEmpty then [] else [(.tableFree, ({} : EvArg))]
  let grains : List (Instr × EvArg) := (s.grains.filter (fun e => !e.2.written)).map (fun e => (.grainEntryWriteback, { addr := e.1 }))
  fold ++ tags ++ expiry ++ free ++ grains

/-- The first step of a list that would change the machine. -/
def State.firstMove (s : State) (l : List (Instr × EvArg)) : Option Turn :=
  (l.find? (fun e => s.moves e.1 e.2)).map (fun e => .event e.1 e.2)

/-- The core and the crew that issue next: the cores in order, from the one after the core that issued last. -/
def State.nextIssuer (s : State) : Option (Nat × Nat) :=
  let ks := s.cores.map Prod.fst
  let order := ks.filter (fun k => decide (s.lastCore < k)) ++ ks.filter (fun k => decide (k ≤ s.lastCore))
  order.findSome? (fun k => (s.nextIssue k).map (fun sl => (k, sl)))

/-- The turn that the machine takes by itself. -/
def State.ownTurn (s : State) : Turn × State :=
  if !s.powered then (.idle 1, s)
  else match s.firstMove (s.cores.flatMap (fun e => s.coreTurns e.1 e.2) ++ s.clusters.flatMap (fun e => s.clusterTurns e.1 e.2) ++ s.deviceTurns) with
    | some t => (t, s)
    | none => match s.nextIssuer with
      | some x => (.issue x.1 x.2, { s with lastCore := x.1 })
      | none => ((s.firstMove s.restTurns).getD (.idle s.untilIssue), s)

/-- The next turn: the head of the agenda, else the machine's own. -/
def State.nextTurn (s : State) : Turn × State :=
  match s.agenda with
  | t :: rest => (t, { s with agenda := rest })
  | [] => s.ownTurn

end Sys2Proof.Machine
end

