-- ==== Sys2Proof/Machine/Issue.lean ====
section
/-! DEFINITION. An issue from the choice of a fragment to the instruction in hand, and what follows it (R22, R23, R91, R101,
R103, R108, R399, R402, R414). -/

namespace Sys2Proof.Machine

/-- What an issue comes to before its instruction has its effect: a state that is already the answer, or the state with the
instruction in hand and that instruction. -/
inductive Prep where
  | done (s : State)
  | run (s : State) (i : Instr)
  deriving DecidableEq, Repr

/-- The instruction of a fragment as it issues; `ins` is filled in once the word is decoded. -/
def State.curOf (s : State) (core sl : Nat) (f : Frag) (word : BitVec 32) : Cur :=
  let w := s.crew core sl
  let x := w.fibre (lowestLane f.lanes)
  match w.unit with
  | some u => { core := core, slot := sl, lanes := f.lanes, pc := f.pc, word := word, ins := .hintNop, pfx := u.pfx
                resumed := x.wait ≠ .none }
  | none => { core := core, slot := sl, lanes := f.lanes, pc := f.pc, word := word, ins := .hintNop, pfx := x.pfx, rep := x.rep
              resumed := x.wait ≠ .none }

/-- The word that a fragment holds: that of a wait, or of a repetition that is not its first (R36, R107). -/
def Crew.heldWord (w : Crew) (f : Frag) : Option (BitVec 32) :=
  let x := w.fibre (lowestLane f.lanes)
  if x.wait ≠ .none || (w.unit.isNone && x.rep ≠ 0) then some x.word else none

/-- Whether an instruction is a hint (R104). -/
def isHint (i : Instr) : Bool :=
  match i with
  | .hintNop => true
  | .reservedHint => true
  | .hintImm _ => true
  | .hintRep _ => true
  | .hintSched _ => true
  | .hintMod _ => true
  | .hintPrio _ => true
  | _ => false

/-- The cycles a SCHED still holds its instruction (R108). -/
def Pfx.stall (p : Pfx) (cycle : Nat) : Nat :=
  match p.sched with
  | some o => p.schedAt + o.stall.toNat - cycle
  | none => 0

/-- The delay of a causal trial for an issue slot (R414). -/
def State.trialDelay (s : State) (c : Cur) : Nat :=
  let t := s.trial
  if t.active && c.slot < 32 && s.crewCtx c.core c.slot = t.ctx && !(decide (t.lo.toNat ≤ c.pc.toNat) && decide (c.pc.toNat < t.hi.toNat))
  then t.delay else 0

/-- Whether an issue slot begins or ends no issue unit of its own: a hint of a prefix unit (R22, R105). A NOP or reserved hint
outside a unit is an instruction that is not part of one. -/
def Cur.joins (c : Cur) (opened : Bool) : Bool :=
  match decodeWord c.word with
  | .ok i => isHint i && (opened || (match i with
      | .hintNop => false
      | .reservedHint => false
      | _ => true))
  | .error e => match e with
    | .badHint => true
    | _ => false

/-- An issue slot begins: the cycles until its operands are there and its own, and the crew's counts of issue slots and issue units (R22,
R146, R399). -/
def State.beginIssue (s : State) (c : Cur) : State :=
  let wait := (s.crew c.core c.slot).busyTo - s.cycle
  let s := (if wait = 0 then s else s.tick wait).tickFor (octets c.lanes) (some (c.core, c.slot))
  s.modCrew c.core c.slot (fun w =>
    { w with iss := w.iss + 1, slotHeld := false, units := if c.joins w.unit.isSome then w.units else w.units + 1 })

/-- An issue slot is held for a causal trial: the crew issues DELAY cycles later, other crews meanwhile (R414). None when it is not, or has
been. -/
def State.holdSlot (s : State) (c : Cur) : Option State :=
  let d := s.trialDelay c
  if d = 0 || (s.crew c.core c.slot).slotHeld then none
  else some ((s.modCrew c.core c.slot (fun w => { w with slotHeld := true, busyTo := s.cycle + d })).modCtx (s.crewCtx c.core c.slot)
    (fun x => { x with trdly := x.trdly + d }))

/-- The code of a REGION or a TRAP lies in 0 to 65535, with the immediate that its unit forms (R97, R188, R189). -/
def Cur.codeOk (c : Cur) (i : Instr) : Bool :=
  match i with
  | .region o => decide ((c.imm o.imm).toNat < 65536)
  | .trap o => decide ((c.imm o.imm).toNat < 65536)
  | _ => true

/-- The prefixed instruction of a unit at fault is illegal, and so is one whose prefix does not apply, or forms a reserved code (R101,
R105 to R109, R188). -/
def Cur.unitOk (c : Cur) (i : Instr) : Bool := isHint i || (!c.pfx.bad && prefixOk c.pfx i && c.codeOk i)

/-- The register codes of the sources of an instruction by its word and its form (R94 to R96), and of D where D is read: the vector
registers of the window, and the lane-matrix registers. -/
def Cur.sources (c : Cur) (i : Instr) : List Nat × List Nat :=
  let f (lo n : Nat) : Nat := (c.word.extractLsb' lo n).toNat
  let grp := f 0 4
  let code (x : Option Src) : List Nat := match x with
    | some (.v n) => [n.toNat]
    | _ => []
  let low (n : Nat) : List Nat := if n < 64 then [n] else []
  let d := (c.dst (c.word.extractLsb' 12 6)).toNat
  let v := match repForm i with
    | some r => code (r.a.map c.srcA) ++ code (r.b.map c.srcB) ++ (if grp = 2 || grp = 10 then [d, d + 1] else [])
    | none =>
      if grp = 4 then low (f 18 7) ++ low (f 25 7)
      else if grp = 10 then low (f 18 7) ++ [d, d + 1]
      else if grp = 11 then low (f 18 7) ++ low (f 25 7)
      else if grp = 12 then low (f 16 7) else []
  (v, if grp = 12 then [f 12 4, f 16 4, f 20 4] else [])

/-- The reads of its source registers as an instruction issues fire an armed injection on a pool word of theirs (R132, R264). -/
def State.touchSources (s : State) (c : Cur) (i : Instr) : State :=
  let x := s.core c.core
  if x.armed && x.injLevel = 3 then
    let r := c.sources i
    let w := s.crew c.core c.slot
    s.touchRegs c.core c.slot c.lanes (fun l n => r.1.any (fun k => (w.fibre l).wbase.toNat + k = n)) r.2.contains
  else s

/-- The word of an issue in hand: decoded, with the illegal-instruction fault; a hint whose payload is at fault only marks its
unit (R101). -/
def State.decoded (s : State) (c : Cur) : Prep :=
  match decodeWord c.word with
  | .error e =>
    match e with
    | .badHint => .done (s.joinHint c (fun p => { p with bad := true }))
    | _ => .done (s.takeFault c (faultOf 8 0))
  | .ok i =>
    if !c.unitOk i then .done (s.takeFault c (faultOf 8 0))
    else
      let c := { c with ins := i }
      let i := s.selectForm c
      .run { (s.touchSources c i) with cur := some c } i

/-- Whether an instruction still stalls for a SCHED: hints of the unit do not, nor one that the unit makes illegal (R101, R108). -/
def State.stalled (s : State) (c : Cur) : Bool :=
  decide (0 < c.pfx.stall s.cycle) && (match decodeWord c.word with
    | .ok i => !isHint i && c.unitOk i
    | .error _ => false)

/-- A crew issues: the choice, the fetch, the word. A crew that has nothing to issue, or an instruction that still stalls, lets a
cycle pass. -/
def State.prepare (s : State) (core sl : Nat) : Prep :=
  let w := s.crew core sl
  if !w.peloton || !s.crewReady core sl then .done (s.tick 1)
  else match s.pick core sl with
    | none => .done (s.tick 1)
    | some f =>
      match w.heldWord f with
      | some x =>
        let c := s.curOf core sl f x
        if c.resumed then s.decoded c
        else match s.holdSlot c with
          | some t => .done t
          | none => (s.beginIssue c).decoded c
      | none => match s.holdSlot (s.curOf core sl f 0) with
        | some t => .done t
        | none =>
        let r := s.fetch core sl f.pc
        match r.2 with
        | .moving => .done (r.1.tick 1)
        | .fault q =>
          let c := r.1.curOf core sl f 0
          .done ((r.1.beginIssue c).takeFault c q)
        | .poison =>
          let c := r.1.curOf core sl f 0
          .done ((r.1.beginIssue c).consume c)
        | .word x =>
          let c := r.1.curOf core sl f x
          if r.1.stalled c then .done (r.1.tick 1) else (r.1.beginIssue c).decoded c

/-- Cycles from an instruction's first lane octet to that of one that depends on it, for the units whose results are there at a known time
(R146); every other result is waited for by its request. -/
def latency (word : BitVec 32) (i : Instr) : Nat :=
  match (word.extractLsb' 0 4).toNat with
  | 0 => 4
  | 1 => match i with
    | .mulD _ => 8
    | .mulW _ => 8
    | .mulhD _ => 8
    | .mulhuD _ => 8
    | _ => 4
  | 2 => 8
  | 3 => 8
  | 4 => 4
  | 6 => match i with
    | .permD _ => 10
    | .permW _ => 10
    | .permH _ => 10
    | .permB _ => 10
    | .bcast _ => 10
    | .rotxH _ => 10
    | .subperm _ => 10
    | _ => 12
  | 7 => 2
  | 14 => match i with
    | .csrr _ => 2
    | _ => 0
  | _ => 0

/-- Whether the instruction in hand is a HINT.SCHED with its yield bit in a sound unit (R108). -/
def Cur.yields (c : Cur) : Bool :=
  match c.ins with
  | .hintSched o => o.yld
  | _ => false

/-- What follows an issue: no fragment is in hand, waits that last make their fibres ready later, the crew's next instruction waits for the
operands that this one computes (R146; log 6), and at a SCHED that yields the crew makes way (R23, R36, R108). -/
def State.issued (s : State) (core sl : Nat) : State :=
  let t := ({ s with cur := none } : State).ageWaits core sl
  match s.cur with
  | none => t
  | some c =>
    let t := if (t.crew? core sl).isSome then
        t.modCrew core sl (fun w => { w with busyTo := t.cycle - octets c.lanes + latency c.word c.ins })
      else t
    if c.yields && sl < 32 then t.exchange core sl else t

end Sys2Proof.Machine
end

