-- ==== Sys2Proof/Machine/Place.lean ====
section
/-! DEFINITION. How one instruction is put where the next step fetches it: a launched crew with it at its PC, in the stead of the
launch that the host's queues, the dispatcher and the admitter make (log 5). -/

namespace Sys2Proof.Machine

/-- The PC at which the instruction is placed: virtual page 1 of context 0. -/
def placedPc : BitVec 57 := 0x10000

/-- The role that may issue a word: matrix for group 13, copy for the copies, else vector (R27). -/
def placedRole (w : BitVec 32) : Role :=
  let grp := (w.extractLsb' 0 4).toNat
  let fn := (w.extractLsb' 4 4).toNat
  if grp = 13 then .matrix else if grp = 11 && decide (5 ≤ fn) && decide (fn ≤ 7) then .copy else .vector

/-- The crew: one live fibre in lane 0 at the placed PC, 64 vector registers a lane and two lane-matrix registers. -/
def placedCrew (w : BitVec 32) : Crew :=
  { role := placedRole w, vgran := 8, mregs := 2, peloton := true
    fibres := [(0, { st := .live, pc := placedPc, restart := placedPc - 4 })] }

/-- Its group: storage for the crew, 16 KiB of scratchpad with three tiles, and one accumulator. -/
def placedGroup : Group :=
  { partw := 0x00010103, tiles := 3, accPlaces := [.store 0], vgr := [0, 1, 2], sg0 := 3, agr := [4]
    cvs := [(0, { owned := true, set := 1 })] }

/-- The level-0 entry of the placed page: valid, readable, executable, private, logical page 0 (R347). -/
def placedEntry : Word := 7

/-- The state with a 32-bit instruction where the next step fetches it: a crew that stands at it, the group and node of the
crew, the translation of its page, the sector in the instruction cache, and the turn to issue. -/
def State.place (s : State) (_nbits w : Nat) : State :=
  let word := BitVec.ofNat 32 w
  let k := s.core 0
  let k := { k with
    slots := Tab.put k.slots 0 (placedCrew word)
    tlb := { ctx := 0, vpn := 1, entry := placedEntry } :: k.tlb
    l1i := (0, word.setWidth 256) :: k.l1i }
  { (s.setCore 0 k) with
    phase := 4
    capacity := some (s.capacity.getD 0x40000000)
    pages := Tab.put s.pages 0 { s.page 0 with valid := true }
    groups := Tab.put s.groups 0 placedGroup
    nodes := Tab.put s.nodes 0 { lid := 0, ctx := 0, phase := .running, left := 1 }
    trial := { s.trial with active := false }
    agenda := [.issue 0 0] }

end Sys2Proof.Machine
end

