-- ==== Sys2Proof/Machine/Step.lean ====
section
/-! DEFINITION. One step: a turn of a crew, of another agent or of the clock, and what settles by itself after it; and the
placing of one instruction where the next step fetches it. -/

namespace Sys2Proof.Machine

/-- A next state, changed; a stop stays as it is. -/
def andThen (o : Host.Outcome State Fault Refusal) (f : State → State) : Host.Outcome State Fault Refusal :=
  match o with
  | .next s => .next (f s)
  | .fault r => .fault r
  | .refused r => .refused r

/-- A turn. -/
def State.take (s : State) (t : Turn) : Host.Outcome State Fault Refusal :=
  match t with
  | .issue core sl =>
    match s.prepare core sl with
    | .done s => .next s.settle
    | .run s i => andThen (exec i s) (fun s => (s.issued core sl).settle)
  | .event i a => andThen (exec i { s with ev := a, cur := none }) (fun s => ({ s with ev := {} } : State).settle)
  | .idle n => .next (s.tick n).settle

/-- One step of the machine: the turn of the agenda's head, else of whoever is next. -/
def step (s : State) : Host.Outcome State Fault Refusal := s.nextTurn.2.take s.nextTurn.1

/-- The state with an instruction stored where the next step fetches it: see `State.place`. -/
def State.withFetchWord (s : State) (nbits w : Nat) : State := s.place nbits w

end Sys2Proof.Machine
end

