-- ==== Sys2Proof/Laws/Decode.lean ====
section
/-! SUPPORT. The fields of a packed word read back: one lemma per operand bundle, and the codes of its parts. -/

namespace Sys2Proof

/-- A field above the last part of a word is a field of the rest. -/
theorem ext_peel {a c : Nat} (s n : Nat) (x : BitVec a) (y : BitVec c) : (x ++ y).extractLsb' (c + s) n = x.extractLsb' s n := by
  apply BitVec.eq_of_getLsbD_eq
  intro i hi
  simp only [BitVec.getLsbD_extractLsb', BitVec.getLsbD_append]
  have h : ¬ c + s + i < c := by omega
  simp only [h, if_false]
  rw [show c + s + i - c = s + i by omega]

/-- The last part of a word. -/
theorem ext_last {a c : Nat} (x : BitVec a) (y : BitVec c) : (x ++ y).extractLsb' 0 c = y := by
  apply BitVec.eq_of_getLsbD_eq
  intro i hi
  simp [BitVec.getLsbD_append, hi]

/-- A field of the last part of a word. -/
theorem ext_in {a c : Nat} (s n : Nat) (h : s + n ≤ c) (x : BitVec a) (y : BitVec c) :
    (x ++ y).extractLsb' s n = y.extractLsb' s n := by
  apply BitVec.eq_of_getLsbD_eq
  intro i hi
  have : s + i < c := by omega
  simp [BitVec.getLsbD_append, hi, this]

/-- The whole of a word. -/
theorem ext_full {a : Nat} (x : BitVec a) : x.extractLsb' 0 a = x := by
  apply BitVec.eq_of_getLsbD_eq
  intro i hi
  simp [hi]

/-- A bit above the last part of a word is a bit of the rest. -/
theorem bit_peel {a c : Nat} (s : Nat) (x : BitVec a) (y : BitVec c) : (x ++ y).getLsbD (c + s) = x.getLsbD s := by
  have h : ¬ c + s < c := by omega
  simp only [BitVec.getLsbD_append, h, if_false]
  rw [show c + s - c = s by omega]

/-- The last bit of a word. -/
theorem bit_last {a : Nat} (x : BitVec a) (b : Bool) : (x ++ bit b).getLsbD 0 = b := by
  rw [BitVec.getLsbD_append, if_pos Nat.one_pos]
  cases b <;> rfl

/-- The only bit of a one-bit field. -/
theorem bit_self (b : Bool) : (bit b).getLsbD 0 = b := by cases b <;> rfl

/-- The code of a source operand is read back as that operand (R96). -/
theorem Src.dec_enc (a : Src) : Src.dec a.enc = some a := by
  cases a with
  | v n => revert n; decide
  | s n => revert n; decide
  | l n => revert n; decide
  | zero => rfl
  | lane => rfl
  | crew => rfl
  | ones => rfl

/-- The code of a condition is read back as that condition (R94). -/
theorem Cond.dec_enc (c : Cond) : Cond.dec c.enc = c := by cases c <;> rfl

/-- A packed `OpA` bundle is read back (R94). -/
theorem OpA.unpack_pack (op : BitVec 8) (o : OpA) : OpA.unpack (OpA.pack op o) = .ok o := by
  have h25 : (OpA.pack op o).extractLsb' 25 7 = o.b.enc := ((ext_peel 17 7 _ _).trans ((ext_peel 14 7 _ _).trans ((ext_peel 13 7 _ _).trans ((ext_peel 7 7 _ _).trans ((ext_peel 0 7 _ _).trans (ext_full _))))))
  have h18 : (OpA.pack op o).extractLsb' 18 7 = o.a.enc := ((ext_peel 10 7 _ _).trans ((ext_peel 7 7 _ _).trans ((ext_peel 6 7 _ _).trans ((ext_peel 0 7 _ _).trans (ext_last _ _)))))
  have h12 : (OpA.pack op o).extractLsb' 12 6 = o.d := ((ext_peel 4 6 _ _).trans ((ext_peel 1 6 _ _).trans ((ext_peel 0 6 _ _).trans (ext_last _ _))))
  have h8 : (OpA.pack op o).extractLsb' 8 3 = o.g := ((ext_peel 0 3 _ _).trans (ext_last _ _))
  have b11 : (OpA.pack op o).getLsbD 11 = o.k := ((bit_peel 3 _ _).trans ((bit_peel 0 _ _).trans (bit_last _ _)))
  simp only [OpA.unpack, h25, h18, h12, h8, b11, Src.dec_enc]

/-- The group and the function of a packed `OpA` bundle (R92). -/
theorem OpA.pack_grp (op : BitVec 8) (o : OpA) : (OpA.pack op o).extractLsb' 0 4 = op.extractLsb' 0 4 := ext_in 0 4 (by omega) _ _

theorem OpA.pack_fn (op : BitVec 8) (o : OpA) : (OpA.pack op o).extractLsb' 4 4 = op.extractLsb' 4 4 := ext_in 4 4 (by omega) _ _

/-- A packed `OpI` bundle is read back (R94). -/
theorem OpI.unpack_pack (op : BitVec 8) (o : OpI) : OpI.unpack (OpI.pack op o) = .ok o := by
  have h25 : (OpI.pack op o).extractLsb' 25 7 = o.imm := ((ext_peel 17 7 _ _).trans ((ext_peel 14 7 _ _).trans ((ext_peel 13 7 _ _).trans ((ext_peel 7 7 _ _).trans ((ext_peel 0 7 _ _).trans (ext_full _))))))
  have h18 : (OpI.pack op o).extractLsb' 18 7 = o.a.enc := ((ext_peel 10 7 _ _).trans ((ext_peel 7 7 _ _).trans ((ext_peel 6 7 _ _).trans ((ext_peel 0 7 _ _).trans (ext_last _ _)))))
  have h12 : (OpI.pack op o).extractLsb' 12 6 = o.d := ((ext_peel 4 6 _ _).trans ((ext_peel 1 6 _ _).trans ((ext_peel 0 6 _ _).trans (ext_last _ _))))
  have h8 : (OpI.pack op o).extractLsb' 8 3 = o.g := ((ext_peel 0 3 _ _).trans (ext_last _ _))
  have b11 : (OpI.pack op o).getLsbD 11 = o.k := ((bit_peel 3 _ _).trans ((bit_peel 0 _ _).trans (bit_last _ _)))
  simp only [OpI.unpack, h25, h18, h12, h8, b11, Src.dec_enc]

/-- The group and the function of a packed `OpI` bundle (R92). -/
theorem OpI.pack_grp (op : BitVec 8) (o : OpI) : (OpI.pack op o).extractLsb' 0 4 = op.extractLsb' 0 4 := ext_in 0 4 (by omega) _ _

theorem OpI.pack_fn (op : BitVec 8) (o : OpI) : (OpI.pack op o).extractLsb' 4 4 = op.extractLsb' 4 4 := ext_in 4 4 (by omega) _ _

/-- A packed `OpMov` bundle is read back (R94). -/
theorem OpMov.unpack_pack (op : BitVec 8) (o : OpMov) : OpMov.unpack (OpMov.pack op o) = .ok o := by
  have h25 : (OpMov.pack op o).extractLsb' 25 7 = o.imm := ((ext_peel 17 7 _ _).trans ((ext_peel 14 7 _ _).trans ((ext_peel 13 7 _ _).trans ((ext_peel 7 7 _ _).trans ((ext_peel 0 7 _ _).trans (ext_full _))))))
  have h18 : (OpMov.pack op o).extractLsb' 18 7 = 100#7 := ((ext_peel 10 7 _ _).trans ((ext_peel 7 7 _ _).trans ((ext_peel 6 7 _ _).trans ((ext_peel 0 7 _ _).trans (ext_last _ _)))))
  have h12 : (OpMov.pack op o).extractLsb' 12 6 = o.d := ((ext_peel 4 6 _ _).trans ((ext_peel 1 6 _ _).trans ((ext_peel 0 6 _ _).trans (ext_last _ _))))
  have h8 : (OpMov.pack op o).extractLsb' 8 3 = o.g := ((ext_peel 0 3 _ _).trans (ext_last _ _))
  have b11 : (OpMov.pack op o).getLsbD 11 = o.k := ((bit_peel 3 _ _).trans ((bit_peel 0 _ _).trans (bit_last _ _)))
  simp only [OpMov.unpack, h25, h18, h12, h8, b11, beq_self_eq_true, if_true]

/-- The group and the function of a packed `OpMov` bundle (R92). -/
theorem OpMov.pack_grp (op : BitVec 8) (o : OpMov) : (OpMov.pack op o).extractLsb' 0 4 = op.extractLsb' 0 4 := ext_in 0 4 (by omega) _ _

theorem OpMov.pack_fn (op : BitVec 8) (o : OpMov) : (OpMov.pack op o).extractLsb' 4 4 = op.extractLsb' 4 4 := ext_in 4 4 (by omega) _ _

/-- A packed `OpA1` bundle is read back (R94). -/
theorem OpA1.unpack_pack (op : BitVec 8) (sel : BitVec 7) (o : OpA1) : OpA1.unpack (OpA1.pack op sel o) sel = .ok o := by
  have h25 : (OpA1.pack op sel o).extractLsb' 25 7 = sel := ((ext_peel 17 7 _ _).trans ((ext_peel 14 7 _ _).trans ((ext_peel 13 7 _ _).trans ((ext_peel 7 7 _ _).trans ((ext_peel 0 7 _ _).trans (ext_full _))))))
  have h18 : (OpA1.pack op sel o).extractLsb' 18 7 = o.a.enc := ((ext_peel 10 7 _ _).trans ((ext_peel 7 7 _ _).trans ((ext_peel 6 7 _ _).trans ((ext_peel 0 7 _ _).trans (ext_last _ _)))))
  have h12 : (OpA1.pack op sel o).extractLsb' 12 6 = o.d := ((ext_peel 4 6 _ _).trans ((ext_peel 1 6 _ _).trans ((ext_peel 0 6 _ _).trans (ext_last _ _))))
  have h8 : (OpA1.pack op sel o).extractLsb' 8 3 = o.g := ((ext_peel 0 3 _ _).trans (ext_last _ _))
  have b11 : (OpA1.pack op sel o).getLsbD 11 = o.k := ((bit_peel 3 _ _).trans ((bit_peel 0 _ _).trans (bit_last _ _)))
  simp only [OpA1.unpack, h25, h18, h12, h8, b11, Src.dec_enc, beq_self_eq_true, if_true]

/-- The group and the function of a packed `OpA1` bundle (R92). -/
theorem OpA1.pack_grp (op : BitVec 8) (sel : BitVec 7) (o : OpA1) : (OpA1.pack op sel o).extractLsb' 0 4 = op.extractLsb' 0 4 := ext_in 0 4 (by omega) _ _

theorem OpA1.pack_fn (op : BitVec 8) (sel : BitVec 7) (o : OpA1) : (OpA1.pack op sel o).extractLsb' 4 4 = op.extractLsb' 4 4 := ext_in 4 4 (by omega) _ _

/-- A packed `OpCls` bundle is read back (R94). -/
theorem OpCls.unpack_pack (op : BitVec 8) (o : OpCls) : OpCls.unpack (OpCls.pack op o) = .ok o := by
  have h27 : (OpCls.pack op o).extractLsb' 27 5 = 0#5 := ((ext_peel 19 5 _ _).trans ((ext_peel 16 5 _ _).trans ((ext_peel 15 5 _ _).trans ((ext_peel 9 5 _ _).trans ((ext_peel 2 5 _ _).trans ((ext_peel 0 5 _ _).trans (ext_full _)))))))
  have h25 : (OpCls.pack op o).extractLsb' 25 2 = o.fmt := ((ext_peel 17 2 _ _).trans ((ext_peel 14 2 _ _).trans ((ext_peel 13 2 _ _).trans ((ext_peel 7 2 _ _).trans ((ext_peel 0 2 _ _).trans (ext_last _ _))))))
  have h18 : (OpCls.pack op o).extractLsb' 18 7 = o.a.enc := ((ext_peel 10 7 _ _).trans ((ext_peel 7 7 _ _).trans ((ext_peel 6 7 _ _).trans ((ext_peel 0 7 _ _).trans (ext_last _ _)))))
  have h12 : (OpCls.pack op o).extractLsb' 12 6 = o.d := ((ext_peel 4 6 _ _).trans ((ext_peel 1 6 _ _).trans ((ext_peel 0 6 _ _).trans (ext_last _ _))))
  have h8 : (OpCls.pack op o).extractLsb' 8 3 = o.g := ((ext_peel 0 3 _ _).trans (ext_last _ _))
  have b11 : (OpCls.pack op o).getLsbD 11 = o.k := ((bit_peel 3 _ _).trans ((bit_peel 0 _ _).trans (bit_last _ _)))
  simp only [OpCls.unpack, h27, h25, h18, h12, h8, b11, Src.dec_enc, beq_self_eq_true, if_true]

/-- The group and the function of a packed `OpCls` bundle (R92). -/
theorem OpCls.pack_grp (op : BitVec 8) (o : OpCls) : (OpCls.pack op o).extractLsb' 0 4 = op.extractLsb' 0 4 := ext_in 0 4 (by omega) _ _

theorem OpCls.pack_fn (op : BitVec 8) (o : OpCls) : (OpCls.pack op o).extractLsb' 4 4 = op.extractLsb' 4 4 := ext_in 4 4 (by omega) _ _

/-- A packed `OpC` bundle is read back (R94). -/
theorem OpC.unpack_pack (op : BitVec 8) (o : OpC) : OpC.unpack (OpC.pack op o) = .ok o := by
  have h25 : (OpC.pack op o).extractLsb' 25 7 = o.b.enc := ((ext_peel 17 7 _ _).trans ((ext_peel 14 7 _ _).trans ((ext_peel 13 7 _ _).trans ((ext_peel 9 7 _ _).trans ((ext_peel 7 7 _ _).trans ((ext_peel 0 7 _ _).trans (ext_full _)))))))
  have h18 : (OpC.pack op o).extractLsb' 18 7 = o.a.enc := ((ext_peel 10 7 _ _).trans ((ext_peel 7 7 _ _).trans ((ext_peel 6 7 _ _).trans ((ext_peel 2 7 _ _).trans ((ext_peel 0 7 _ _).trans (ext_last _ _))))))
  have h16 : (OpC.pack op o).extractLsb' 16 2 = 0#2 := ((ext_peel 8 2 _ _).trans ((ext_peel 5 2 _ _).trans ((ext_peel 4 2 _ _).trans ((ext_peel 0 2 _ _).trans (ext_last _ _)))))
  have h12 : (OpC.pack op o).extractLsb' 12 4 = o.p := ((ext_peel 4 4 _ _).trans ((ext_peel 1 4 _ _).trans ((ext_peel 0 4 _ _).trans (ext_last _ _))))
  have h8 : (OpC.pack op o).extractLsb' 8 3 = o.cond.enc := ((ext_peel 0 3 _ _).trans (ext_last _ _))
  have b11 : (OpC.pack op o).getLsbD 11 = o.j := ((bit_peel 3 _ _).trans ((bit_peel 0 _ _).trans (bit_last _ _)))
  simp only [OpC.unpack, h25, h18, h16, h12, h8, b11, Src.dec_enc, Cond.dec_enc, beq_self_eq_true, if_true]

/-- The group and the function of a packed `OpC` bundle (R92). -/
theorem OpC.pack_grp (op : BitVec 8) (o : OpC) : (OpC.pack op o).extractLsb' 0 4 = op.extractLsb' 0 4 := ext_in 0 4 (by omega) _ _

theorem OpC.pack_fn (op : BitVec 8) (o : OpC) : (OpC.pack op o).extractLsb' 4 4 = op.extractLsb' 4 4 := ext_in 4 4 (by omega) _ _

/-- A packed `OpCI` bundle is read back (R94). -/
theorem OpCI.unpack_pack (op : BitVec 8) (o : OpCI) : OpCI.unpack (OpCI.pack op o) = .ok o := by
  have h25 : (OpCI.pack op o).extractLsb' 25 7 = o.imm := ((ext_peel 17 7 _ _).trans ((ext_peel 14 7 _ _).trans ((ext_peel 13 7 _ _).trans ((ext_peel 9 7 _ _).trans ((ext_peel 7 7 _ _).trans ((ext_peel 0 7 _ _).trans (ext_full _)))))))
  have h18 : (OpCI.pack op o).extractLsb' 18 7 = o.a.enc := ((ext_peel 10 7 _ _).trans ((ext_peel 7 7 _ _).trans ((ext_peel 6 7 _ _).trans ((ext_peel 2 7 _ _).trans ((ext_peel 0 7 _ _).trans (ext_last _ _))))))
  have h16 : (OpCI.pack op o).extractLsb' 16 2 = 0#2 := ((ext_peel 8 2 _ _).trans ((ext_peel 5 2 _ _).trans ((ext_peel 4 2 _ _).trans ((ext_peel 0 2 _ _).trans (ext_last _ _)))))
  have h12 : (OpCI.pack op o).extractLsb' 12 4 = o.p := ((ext_peel 4 4 _ _).trans ((ext_peel 1 4 _ _).trans ((ext_peel 0 4 _ _).trans (ext_last _ _))))
  have h8 : (OpCI.pack op o).extractLsb' 8 3 = o.cond.enc := ((ext_peel 0 3 _ _).trans (ext_last _ _))
  have b11 : (OpCI.pack op o).getLsbD 11 = o.j := ((bit_peel 3 _ _).trans ((bit_peel 0 _ _).trans (bit_last _ _)))
  simp only [OpCI.unpack, h25, h18, h16, h12, h8, b11, Src.dec_enc, Cond.dec_enc, beq_self_eq_true, if_true]

/-- The group and the function of a packed `OpCI` bundle (R92). -/
theorem OpCI.pack_grp (op : BitVec 8) (o : OpCI) : (OpCI.pack op o).extractLsb' 0 4 = op.extractLsb' 0 4 := ext_in 0 4 (by omega) _ _

theorem OpCI.pack_fn (op : BitVec 8) (o : OpCI) : (OpCI.pack op o).extractLsb' 4 4 = op.extractLsb' 4 4 := ext_in 4 4 (by omega) _ _

/-- A packed `OpP` bundle is read back (R94). -/
theorem OpP.unpack_pack (op : BitVec 8) (o : OpP) : OpP.unpack (OpP.pack op o) = .ok o := by
  have h29 : (OpP.pack op o).extractLsb' 29 3 = 0#3 := ((ext_peel 21 3 _ _).trans ((ext_peel 18 3 _ _).trans ((ext_peel 17 3 _ _).trans ((ext_peel 13 3 _ _).trans ((ext_peel 11 3 _ _).trans ((ext_peel 7 3 _ _).trans ((ext_peel 4 3 _ _).trans ((ext_peel 0 3 _ _).trans (ext_full _)))))))))
  have h25 : (OpP.pack op o).extractLsb' 25 4 = o.pb := ((ext_peel 17 4 _ _).trans ((ext_peel 14 4 _ _).trans ((ext_peel 13 4 _ _).trans ((ext_peel 9 4 _ _).trans ((ext_peel 7 4 _ _).trans ((ext_peel 3 4 _ _).trans ((ext_peel 0 4 _ _).trans (ext_last _ _))))))))
  have h22 : (OpP.pack op o).extractLsb' 22 3 = 0#3 := ((ext_peel 14 3 _ _).trans ((ext_peel 11 3 _ _).trans ((ext_peel 10 3 _ _).trans ((ext_peel 6 3 _ _).trans ((ext_peel 4 3 _ _).trans ((ext_peel 0 3 _ _).trans (ext_last _ _)))))))
  have h18 : (OpP.pack op o).extractLsb' 18 4 = o.pa := ((ext_peel 10 4 _ _).trans ((ext_peel 7 4 _ _).trans ((ext_peel 6 4 _ _).trans ((ext_peel 2 4 _ _).trans ((ext_peel 0 4 _ _).trans (ext_last _ _))))))
  have h16 : (OpP.pack op o).extractLsb' 16 2 = 0#2 := ((ext_peel 8 2 _ _).trans ((ext_peel 5 2 _ _).trans ((ext_peel 4 2 _ _).trans ((ext_peel 0 2 _ _).trans (ext_last _ _)))))
  have h12 : (OpP.pack op o).extractLsb' 12 4 = o.p := ((ext_peel 4 4 _ _).trans ((ext_peel 1 4 _ _).trans ((ext_peel 0 4 _ _).trans (ext_last _ _))))
  have h8 : (OpP.pack op o).extractLsb' 8 3 = 0#3 := ((ext_peel 0 3 _ _).trans (ext_last _ _))
  have b11 : (OpP.pack op o).getLsbD 11 = o.j := ((bit_peel 3 _ _).trans ((bit_peel 0 _ _).trans (bit_last _ _)))
  simp only [OpP.unpack, h29, h25, h22, h18, h16, h12, h8, b11, beq_self_eq_true, Bool.and_self, if_true]

/-- The group and the function of a packed `OpP` bundle (R92). -/
theorem OpP.pack_grp (op : BitVec 8) (o : OpP) : (OpP.pack op o).extractLsb' 0 4 = op.extractLsb' 0 4 := ext_in 0 4 (by omega) _ _

theorem OpP.pack_fn (op : BitVec 8) (o : OpP) : (OpP.pack op o).extractLsb' 4 4 = op.extractLsb' 4 4 := ext_in 4 4 (by omega) _ _

/-- A packed `OpP1` bundle is read back (R94). -/
theorem OpP1.unpack_pack (op : BitVec 8) (o : OpP1) : OpP1.unpack (OpP1.pack op o) = .ok o := by
  have h22 : (OpP1.pack op o).extractLsb' 22 10 = 0#10 := ((ext_peel 14 10 _ _).trans ((ext_peel 11 10 _ _).trans ((ext_peel 10 10 _ _).trans ((ext_peel 6 10 _ _).trans ((ext_peel 4 10 _ _).trans ((ext_peel 0 10 _ _).trans (ext_full _)))))))
  have h18 : (OpP1.pack op o).extractLsb' 18 4 = o.pa := ((ext_peel 10 4 _ _).trans ((ext_peel 7 4 _ _).trans ((ext_peel 6 4 _ _).trans ((ext_peel 2 4 _ _).trans ((ext_peel 0 4 _ _).trans (ext_last _ _))))))
  have h16 : (OpP1.pack op o).extractLsb' 16 2 = 0#2 := ((ext_peel 8 2 _ _).trans ((ext_peel 5 2 _ _).trans ((ext_peel 4 2 _ _).trans ((ext_peel 0 2 _ _).trans (ext_last _ _)))))
  have h12 : (OpP1.pack op o).extractLsb' 12 4 = o.p := ((ext_peel 4 4 _ _).trans ((ext_peel 1 4 _ _).trans ((ext_peel 0 4 _ _).trans (ext_last _ _))))
  have h8 : (OpP1.pack op o).extractLsb' 8 3 = 0#3 := ((ext_peel 0 3 _ _).trans (ext_last _ _))
  have b11 : (OpP1.pack op o).getLsbD 11 = o.j := ((bit_peel 3 _ _).trans ((bit_peel 0 _ _).trans (bit_last _ _)))
  simp only [OpP1.unpack, h22, h18, h16, h12, h8, b11, beq_self_eq_true, Bool.and_self, if_true]

/-- The group and the function of a packed `OpP1` bundle (R92). -/
theorem OpP1.pack_grp (op : BitVec 8) (o : OpP1) : (OpP1.pack op o).extractLsb' 0 4 = op.extractLsb' 0 4 := ext_in 0 4 (by omega) _ _

theorem OpP1.pack_fn (op : BitVec 8) (o : OpP1) : (OpP1.pack op o).extractLsb' 4 4 = op.extractLsb' 4 4 := ext_in 4 4 (by omega) _ _

/-- A packed `OpD` bundle is read back (R94). -/
theorem OpD.unpack_pack (op : BitVec 8) (o : OpD) : OpD.unpack (OpD.pack op o) = .ok o := by
  have h25 : (OpD.pack op o).extractLsb' 25 7 = 100#7 := ((ext_peel 17 7 _ _).trans ((ext_peel 14 7 _ _).trans ((ext_peel 13 7 _ _).trans ((ext_peel 7 7 _ _).trans ((ext_peel 0 7 _ _).trans (ext_full _))))))
  have h18 : (OpD.pack op o).extractLsb' 18 7 = 100#7 := ((ext_peel 10 7 _ _).trans ((ext_peel 7 7 _ _).trans ((ext_peel 6 7 _ _).trans ((ext_peel 0 7 _ _).trans (ext_last _ _)))))
  have h12 : (OpD.pack op o).extractLsb' 12 6 = o.d := ((ext_peel 4 6 _ _).trans ((ext_peel 1 6 _ _).trans ((ext_peel 0 6 _ _).trans (ext_last _ _))))
  have h8 : (OpD.pack op o).extractLsb' 8 3 = o.g := ((ext_peel 0 3 _ _).trans (ext_last _ _))
  have b11 : (OpD.pack op o).getLsbD 11 = o.k := ((bit_peel 3 _ _).trans ((bit_peel 0 _ _).trans (bit_last _ _)))
  simp only [OpD.unpack, h25, h18, h12, h8, b11, beq_self_eq_true, Bool.and_self, if_true]

/-- The group and the function of a packed `OpD` bundle (R92). -/
theorem OpD.pack_grp (op : BitVec 8) (o : OpD) : (OpD.pack op o).extractLsb' 0 4 = op.extractLsb' 0 4 := ext_in 0 4 (by omega) _ _

theorem OpD.pack_fn (op : BitVec 8) (o : OpD) : (OpD.pack op o).extractLsb' 4 4 = op.extractLsb' 4 4 := ext_in 4 4 (by omega) _ _

/-- A packed `OpVt` bundle is read back (R94). -/
theorem OpVt.unpack_pack (op : BitVec 8) (o : OpVt) : OpVt.unpack (OpVt.pack op o) = .ok o := by
  have h25 : (OpVt.pack op o).extractLsb' 25 7 = o.b.enc := ((ext_peel 17 7 _ _).trans ((ext_peel 14 7 _ _).trans ((ext_peel 13 7 _ _).trans ((ext_peel 9 7 _ _).trans ((ext_peel 7 7 _ _).trans ((ext_peel 0 7 _ _).trans (ext_full _)))))))
  have h18 : (OpVt.pack op o).extractLsb' 18 7 = o.a.enc := ((ext_peel 10 7 _ _).trans ((ext_peel 7 7 _ _).trans ((ext_peel 6 7 _ _).trans ((ext_peel 2 7 _ _).trans ((ext_peel 0 7 _ _).trans (ext_last _ _))))))
  have h16 : (OpVt.pack op o).extractLsb' 16 2 = 0#2 := ((ext_peel 8 2 _ _).trans ((ext_peel 5 2 _ _).trans ((ext_peel 4 2 _ _).trans ((ext_peel 0 2 _ _).trans (ext_last _ _)))))
  have h12 : (OpVt.pack op o).extractLsb' 12 4 = o.p := ((ext_peel 4 4 _ _).trans ((ext_peel 1 4 _ _).trans ((ext_peel 0 4 _ _).trans (ext_last _ _))))
  have h8 : (OpVt.pack op o).extractLsb' 8 3 = 0#3 := ((ext_peel 0 3 _ _).trans (ext_last _ _))
  have b11 : (OpVt.pack op o).getLsbD 11 = o.j := ((bit_peel 3 _ _).trans ((bit_peel 0 _ _).trans (bit_last _ _)))
  simp only [OpVt.unpack, h25, h18, h16, h12, h8, b11, Src.dec_enc, beq_self_eq_true, Bool.and_self, if_true]

/-- The group and the function of a packed `OpVt` bundle (R92). -/
theorem OpVt.pack_grp (op : BitVec 8) (o : OpVt) : (OpVt.pack op o).extractLsb' 0 4 = op.extractLsb' 0 4 := ext_in 0 4 (by omega) _ _

theorem OpVt.pack_fn (op : BitVec 8) (o : OpVt) : (OpVt.pack op o).extractLsb' 4 4 = op.extractLsb' 4 4 := ext_in 4 4 (by omega) _ _

/-- A packed `OpCvt` bundle is read back (R94). -/
theorem OpCvt.unpack_pack (op : BitVec 8) (o : OpCvt) : OpCvt.unpack (OpCvt.pack op o) = .ok o := by
  have h25 : (OpCvt.pack op o).extractLsb' 25 7 = o.sel := ((ext_peel 17 7 _ _).trans ((ext_peel 14 7 _ _).trans ((ext_peel 13 7 _ _).trans ((ext_peel 7 7 _ _).trans ((ext_peel 0 7 _ _).trans (ext_full _))))))
  have h18 : (OpCvt.pack op o).extractLsb' 18 7 = o.a.enc := ((ext_peel 10 7 _ _).trans ((ext_peel 7 7 _ _).trans ((ext_peel 6 7 _ _).trans ((ext_peel 0 7 _ _).trans (ext_last _ _)))))
  have h12 : (OpCvt.pack op o).extractLsb' 12 6 = o.d := ((ext_peel 4 6 _ _).trans ((ext_peel 1 6 _ _).trans ((ext_peel 0 6 _ _).trans (ext_last _ _))))
  have h11 : (OpCvt.pack op o).extractLsb' 11 1 = 0#1 := ((ext_peel 3 1 _ _).trans ((ext_peel 0 1 _ _).trans (ext_last _ _)))
  have h8 : (OpCvt.pack op o).extractLsb' 8 3 = o.g := ((ext_peel 0 3 _ _).trans (ext_last _ _))
  simp only [OpCvt.unpack, h25, h18, h12, h11, h8, Src.dec_enc, beq_self_eq_true, if_true]

/-- The group and the function of a packed `OpCvt` bundle (R92). -/
theorem OpCvt.pack_grp (op : BitVec 8) (o : OpCvt) : (OpCvt.pack op o).extractLsb' 0 4 = op.extractLsb' 0 4 := ext_in 0 4 (by omega) _ _

theorem OpCvt.pack_fn (op : BitVec 8) (o : OpCvt) : (OpCvt.pack op o).extractLsb' 4 4 = op.extractLsb' 4 4 := ext_in 4 4 (by omega) _ _

/-- A packed `Op5` bundle is read back (R94). -/
theorem Op5.unpack_pack (op : BitVec 8) (o : Op5) : Op5.unpack (Op5.pack op o) = .ok o := by
  have h25 : (Op5.pack op o).extractLsb' 25 7 = o.b.enc := ((ext_peel 17 7 _ _).trans ((ext_peel 14 7 _ _).trans ((ext_peel 13 7 _ _).trans ((ext_peel 7 7 _ _).trans ((ext_peel 0 7 _ _).trans (ext_full _))))))
  have h18 : (Op5.pack op o).extractLsb' 18 7 = o.a.enc := ((ext_peel 10 7 _ _).trans ((ext_peel 7 7 _ _).trans ((ext_peel 6 7 _ _).trans ((ext_peel 0 7 _ _).trans (ext_last _ _)))))
  have h12 : (Op5.pack op o).extractLsb' 12 6 = o.d := ((ext_peel 4 6 _ _).trans ((ext_peel 1 6 _ _).trans ((ext_peel 0 6 _ _).trans (ext_last _ _))))
  have h11 : (Op5.pack op o).extractLsb' 11 1 = 0#1 := ((ext_peel 3 1 _ _).trans ((ext_peel 0 1 _ _).trans (ext_last _ _)))
  have h8 : (Op5.pack op o).extractLsb' 8 3 = o.g := ((ext_peel 0 3 _ _).trans (ext_last _ _))
  simp only [Op5.unpack, h25, h18, h12, h11, h8, Src.dec_enc, beq_self_eq_true, if_true]

/-- The group and the function of a packed `Op5` bundle (R92). -/
theorem Op5.pack_grp (op : BitVec 8) (o : Op5) : (Op5.pack op o).extractLsb' 0 4 = op.extractLsb' 0 4 := ext_in 0 4 (by omega) _ _

theorem Op5.pack_fn (op : BitVec 8) (o : Op5) : (Op5.pack op o).extractLsb' 4 4 = op.extractLsb' 4 4 := ext_in 4 4 (by omega) _ _

/-- A packed `Op51` bundle is read back (R94). -/
theorem Op51.unpack_pack (op : BitVec 8) (o : Op51) : Op51.unpack (Op51.pack op o) = .ok o := by
  have h25 : (Op51.pack op o).extractLsb' 25 7 = 100#7 := ((ext_peel 17 7 _ _).trans ((ext_peel 14 7 _ _).trans ((ext_peel 13 7 _ _).trans ((ext_peel 7 7 _ _).trans ((ext_peel 0 7 _ _).trans (ext_full _))))))
  have h18 : (Op51.pack op o).extractLsb' 18 7 = o.a.enc := ((ext_peel 10 7 _ _).trans ((ext_peel 7 7 _ _).trans ((ext_peel 6 7 _ _).trans ((ext_peel 0 7 _ _).trans (ext_last _ _)))))
  have h12 : (Op51.pack op o).extractLsb' 12 6 = o.d := ((ext_peel 4 6 _ _).trans ((ext_peel 1 6 _ _).trans ((ext_peel 0 6 _ _).trans (ext_last _ _))))
  have h11 : (Op51.pack op o).extractLsb' 11 1 = 0#1 := ((ext_peel 3 1 _ _).trans ((ext_peel 0 1 _ _).trans (ext_last _ _)))
  have h8 : (Op51.pack op o).extractLsb' 8 3 = o.g := ((ext_peel 0 3 _ _).trans (ext_last _ _))
  simp only [Op51.unpack, h25, h18, h12, h11, h8, Src.dec_enc, beq_self_eq_true, Bool.and_self, if_true]

/-- The group and the function of a packed `Op51` bundle (R92). -/
theorem Op51.pack_grp (op : BitVec 8) (o : Op51) : (Op51.pack op o).extractLsb' 0 4 = op.extractLsb' 0 4 := ext_in 0 4 (by omega) _ _

theorem Op51.pack_fn (op : BitVec 8) (o : Op51) : (Op51.pack op o).extractLsb' 4 4 = op.extractLsb' 4 4 := ext_in 4 4 (by omega) _ _

/-- A packed `OpVote` bundle is read back (R94). -/
theorem OpVote.unpack_pack (op : BitVec 8) (o : OpVote) : OpVote.unpack (OpVote.pack op o) = .ok o := by
  have h22 : (OpVote.pack op o).extractLsb' 22 10 = 0#10 := ((ext_peel 14 10 _ _).trans ((ext_peel 11 10 _ _).trans ((ext_peel 10 10 _ _).trans ((ext_peel 6 10 _ _).trans ((ext_peel 4 10 _ _).trans ((ext_peel 0 10 _ _).trans (ext_full _)))))))
  have h18 : (OpVote.pack op o).extractLsb' 18 4 = o.pa := ((ext_peel 10 4 _ _).trans ((ext_peel 7 4 _ _).trans ((ext_peel 6 4 _ _).trans ((ext_peel 2 4 _ _).trans ((ext_peel 0 4 _ _).trans (ext_last _ _))))))
  have h16 : (OpVote.pack op o).extractLsb' 16 2 = 0#2 := ((ext_peel 8 2 _ _).trans ((ext_peel 5 2 _ _).trans ((ext_peel 4 2 _ _).trans ((ext_peel 0 2 _ _).trans (ext_last _ _)))))
  have h12 : (OpVote.pack op o).extractLsb' 12 4 = o.p := ((ext_peel 4 4 _ _).trans ((ext_peel 1 4 _ _).trans ((ext_peel 0 4 _ _).trans (ext_last _ _))))
  have h8 : (OpVote.pack op o).extractLsb' 8 3 = o.mode := ((ext_peel 0 3 _ _).trans (ext_last _ _))
  have b11 : (OpVote.pack op o).getLsbD 11 = o.j := ((bit_peel 3 _ _).trans ((bit_peel 0 _ _).trans (bit_last _ _)))
  simp only [OpVote.unpack, h22, h18, h16, h12, h8, b11, beq_self_eq_true, Bool.and_self, if_true]

/-- The group and the function of a packed `OpVote` bundle (R92). -/
theorem OpVote.pack_grp (op : BitVec 8) (o : OpVote) : (OpVote.pack op o).extractLsb' 0 4 = op.extractLsb' 0 4 := ext_in 0 4 (by omega) _ _

theorem OpVote.pack_fn (op : BitVec 8) (o : OpVote) : (OpVote.pack op o).extractLsb' 4 4 = op.extractLsb' 4 4 := ext_in 4 4 (by omega) _ _

/-- A packed `OpU` bundle is read back (R94). -/
theorem OpU.unpack_pack (op : BitVec 8) (o : OpU) : OpU.unpack (OpU.pack op o) = .ok o := by
  have h25 : (OpU.pack op o).extractLsb' 25 7 = o.b.enc := ((ext_peel 17 7 _ _).trans ((ext_peel 14 7 _ _).trans ((ext_peel 13 7 _ _).trans ((ext_peel 8 7 _ _).trans ((ext_peel 7 7 _ _).trans ((ext_peel 0 7 _ _).trans (ext_full _)))))))
  have h18 : (OpU.pack op o).extractLsb' 18 7 = o.a.enc := ((ext_peel 10 7 _ _).trans ((ext_peel 7 7 _ _).trans ((ext_peel 6 7 _ _).trans ((ext_peel 1 7 _ _).trans ((ext_peel 0 7 _ _).trans (ext_last _ _))))))
  have h17 : (OpU.pack op o).extractLsb' 17 1 = 0#1 := ((ext_peel 9 1 _ _).trans ((ext_peel 6 1 _ _).trans ((ext_peel 5 1 _ _).trans ((ext_peel 0 1 _ _).trans (ext_last _ _)))))
  have h12 : (OpU.pack op o).extractLsb' 12 5 = o.d := ((ext_peel 4 5 _ _).trans ((ext_peel 1 5 _ _).trans ((ext_peel 0 5 _ _).trans (ext_last _ _))))
  have h8 : (OpU.pack op o).extractLsb' 8 3 = o.g := ((ext_peel 0 3 _ _).trans (ext_last _ _))
  have b11 : (OpU.pack op o).getLsbD 11 = o.k := ((bit_peel 3 _ _).trans ((bit_peel 0 _ _).trans (bit_last _ _)))
  simp only [OpU.unpack, h25, h18, h17, h12, h8, b11, Src.dec_enc, beq_self_eq_true, if_true]

/-- The group and the function of a packed `OpU` bundle (R92). -/
theorem OpU.pack_grp (op : BitVec 8) (o : OpU) : (OpU.pack op o).extractLsb' 0 4 = op.extractLsb' 0 4 := ext_in 0 4 (by omega) _ _

theorem OpU.pack_fn (op : BitVec 8) (o : OpU) : (OpU.pack op o).extractLsb' 4 4 = op.extractLsb' 4 4 := ext_in 4 4 (by omega) _ _

/-- A packed `OpUI` bundle is read back (R94). -/
theorem OpUI.unpack_pack (op : BitVec 8) (o : OpUI) : OpUI.unpack (OpUI.pack op o) = .ok o := by
  have h25 : (OpUI.pack op o).extractLsb' 25 7 = o.imm := ((ext_peel 17 7 _ _).trans ((ext_peel 14 7 _ _).trans ((ext_peel 13 7 _ _).trans ((ext_peel 8 7 _ _).trans ((ext_peel 7 7 _ _).trans ((ext_peel 0 7 _ _).trans (ext_full _)))))))
  have h18 : (OpUI.pack op o).extractLsb' 18 7 = o.a.enc := ((ext_peel 10 7 _ _).trans ((ext_peel 7 7 _ _).trans ((ext_peel 6 7 _ _).trans ((ext_peel 1 7 _ _).trans ((ext_peel 0 7 _ _).trans (ext_last _ _))))))
  have h17 : (OpUI.pack op o).extractLsb' 17 1 = 0#1 := ((ext_peel 9 1 _ _).trans ((ext_peel 6 1 _ _).trans ((ext_peel 5 1 _ _).trans ((ext_peel 0 1 _ _).trans (ext_last _ _)))))
  have h12 : (OpUI.pack op o).extractLsb' 12 5 = o.d := ((ext_peel 4 5 _ _).trans ((ext_peel 1 5 _ _).trans ((ext_peel 0 5 _ _).trans (ext_last _ _))))
  have h8 : (OpUI.pack op o).extractLsb' 8 3 = o.g := ((ext_peel 0 3 _ _).trans (ext_last _ _))
  have b11 : (OpUI.pack op o).getLsbD 11 = o.k := ((bit_peel 3 _ _).trans ((bit_peel 0 _ _).trans (bit_last _ _)))
  simp only [OpUI.unpack, h25, h18, h17, h12, h8, b11, Src.dec_enc, beq_self_eq_true, if_true]

/-- The group and the function of a packed `OpUI` bundle (R92). -/
theorem OpUI.pack_grp (op : BitVec 8) (o : OpUI) : (OpUI.pack op o).extractLsb' 0 4 = op.extractLsb' 0 4 := ext_in 0 4 (by omega) _ _

theorem OpUI.pack_fn (op : BitVec 8) (o : OpUI) : (OpUI.pack op o).extractLsb' 4 4 = op.extractLsb' 4 4 := ext_in 4 4 (by omega) _ _

/-- A packed `OpUMov` bundle is read back (R94). -/
theorem OpUMov.unpack_pack (op : BitVec 8) (o : OpUMov) : OpUMov.unpack (OpUMov.pack op o) = .ok o := by
  have h25 : (OpUMov.pack op o).extractLsb' 25 7 = o.imm := ((ext_peel 17 7 _ _).trans ((ext_peel 14 7 _ _).trans ((ext_peel 13 7 _ _).trans ((ext_peel 8 7 _ _).trans ((ext_peel 7 7 _ _).trans ((ext_peel 0 7 _ _).trans (ext_full _)))))))
  have h18 : (OpUMov.pack op o).extractLsb' 18 7 = 100#7 := ((ext_peel 10 7 _ _).trans ((ext_peel 7 7 _ _).trans ((ext_peel 6 7 _ _).trans ((ext_peel 1 7 _ _).trans ((ext_peel 0 7 _ _).trans (ext_last _ _))))))
  have h17 : (OpUMov.pack op o).extractLsb' 17 1 = 0#1 := ((ext_peel 9 1 _ _).trans ((ext_peel 6 1 _ _).trans ((ext_peel 5 1 _ _).trans ((ext_peel 0 1 _ _).trans (ext_last _ _)))))
  have h12 : (OpUMov.pack op o).extractLsb' 12 5 = o.d := ((ext_peel 4 5 _ _).trans ((ext_peel 1 5 _ _).trans ((ext_peel 0 5 _ _).trans (ext_last _ _))))
  have h8 : (OpUMov.pack op o).extractLsb' 8 3 = o.g := ((ext_peel 0 3 _ _).trans (ext_last _ _))
  have b11 : (OpUMov.pack op o).getLsbD 11 = o.k := ((bit_peel 3 _ _).trans ((bit_peel 0 _ _).trans (bit_last _ _)))
  simp only [OpUMov.unpack, h25, h18, h17, h12, h8, b11, beq_self_eq_true, Bool.and_self, if_true]

/-- The group and the function of a packed `OpUMov` bundle (R92). -/
theorem OpUMov.pack_grp (op : BitVec 8) (o : OpUMov) : (OpUMov.pack op o).extractLsb' 0 4 = op.extractLsb' 0 4 := ext_in 0 4 (by omega) _ _

theorem OpUMov.pack_fn (op : BitVec 8) (o : OpUMov) : (OpUMov.pack op o).extractLsb' 4 4 = op.extractLsb' 4 4 := ext_in 4 4 (by omega) _ _

/-- A packed `OpB` bundle is read back (R94). -/
theorem OpB.unpack_pack (op : BitVec 8) (o : OpB) : OpB.unpack (OpB.pack op o) = .ok o := by
  have h11 : (OpB.pack op o).extractLsb' 11 21 = o.off := ((ext_peel 3 21 _ _).trans ((ext_peel 0 21 _ _).trans (ext_full _)))
  have h8 : (OpB.pack op o).extractLsb' 8 3 = o.g := ((ext_peel 0 3 _ _).trans (ext_last _ _))
  simp only [OpB.unpack, h11, h8]

/-- The group and the function of a packed `OpB` bundle (R92). -/
theorem OpB.pack_grp (op : BitVec 8) (o : OpB) : (OpB.pack op o).extractLsb' 0 4 = op.extractLsb' 0 4 := ext_in 0 4 (by omega) _ _

theorem OpB.pack_fn (op : BitVec 8) (o : OpB) : (OpB.pack op o).extractLsb' 4 4 = op.extractLsb' 4 4 := ext_in 4 4 (by omega) _ _

/-- A packed `OpJ` bundle is read back (R94). -/
theorem OpJ.unpack_pack (op : BitVec 8) (o : OpJ) : OpJ.unpack (OpJ.pack op o) = .ok o := by
  have h25 : (OpJ.pack op o).extractLsb' 25 7 = o.b.enc := ((ext_peel 17 7 _ _).trans ((ext_peel 14 7 _ _).trans ((ext_peel 7 7 _ _).trans ((ext_peel 0 7 _ _).trans (ext_full _)))))
  have h18 : (OpJ.pack op o).extractLsb' 18 7 = o.a.enc := ((ext_peel 10 7 _ _).trans ((ext_peel 7 7 _ _).trans ((ext_peel 0 7 _ _).trans (ext_last _ _))))
  have h11 : (OpJ.pack op o).extractLsb' 11 7 = 0#7 := ((ext_peel 3 7 _ _).trans ((ext_peel 0 7 _ _).trans (ext_last _ _)))
  have h8 : (OpJ.pack op o).extractLsb' 8 3 = o.g := ((ext_peel 0 3 _ _).trans (ext_last _ _))
  simp only [OpJ.unpack, h25, h18, h11, h8, Src.dec_enc, beq_self_eq_true, if_true]

/-- The group and the function of a packed `OpJ` bundle (R92). -/
theorem OpJ.pack_grp (op : BitVec 8) (o : OpJ) : (OpJ.pack op o).extractLsb' 0 4 = op.extractLsb' 0 4 := ext_in 0 4 (by omega) _ _

theorem OpJ.pack_fn (op : BitVec 8) (o : OpJ) : (OpJ.pack op o).extractLsb' 4 4 = op.extractLsb' 4 4 := ext_in 4 4 (by omega) _ _

/-- A packed `OpG` bundle is read back (R94). -/
theorem OpG.unpack_pack (op : BitVec 8) (o : OpG) : OpG.unpack (OpG.pack op o) = .ok o := by
  have h25 : (OpG.pack op o).extractLsb' 25 7 = 100#7 := ((ext_peel 17 7 _ _).trans ((ext_peel 14 7 _ _).trans ((ext_peel 7 7 _ _).trans ((ext_peel 0 7 _ _).trans (ext_full _)))))
  have h18 : (OpG.pack op o).extractLsb' 18 7 = 100#7 := ((ext_peel 10 7 _ _).trans ((ext_peel 7 7 _ _).trans ((ext_peel 0 7 _ _).trans (ext_last _ _))))
  have h11 : (OpG.pack op o).extractLsb' 11 7 = 0#7 := ((ext_peel 3 7 _ _).trans ((ext_peel 0 7 _ _).trans (ext_last _ _)))
  have h8 : (OpG.pack op o).extractLsb' 8 3 = o.g := ((ext_peel 0 3 _ _).trans (ext_last _ _))
  simp only [OpG.unpack, h25, h18, h11, h8, beq_self_eq_true, Bool.and_self, if_true]

/-- The group and the function of a packed `OpG` bundle (R92). -/
theorem OpG.pack_grp (op : BitVec 8) (o : OpG) : (OpG.pack op o).extractLsb' 0 4 = op.extractLsb' 0 4 := ext_in 0 4 (by omega) _ _

theorem OpG.pack_fn (op : BitVec 8) (o : OpG) : (OpG.pack op o).extractLsb' 4 4 = op.extractLsb' 4 4 := ext_in 4 4 (by omega) _ _

/-- A packed `OpS1` bundle is read back (R94). -/
theorem OpS1.unpack_pack (op : BitVec 8) (o : OpS1) : OpS1.unpack (OpS1.pack op o) = .ok o := by
  have h25 : (OpS1.pack op o).extractLsb' 25 7 = 100#7 := ((ext_peel 17 7 _ _).trans ((ext_peel 7 7 _ _).trans ((ext_peel 0 7 _ _).trans (ext_full _))))
  have h18 : (OpS1.pack op o).extractLsb' 18 7 = o.a.enc := ((ext_peel 10 7 _ _).trans ((ext_peel 0 7 _ _).trans (ext_last _ _)))
  have h8 : (OpS1.pack op o).extractLsb' 8 10 = 0#10 := ((ext_peel 0 10 _ _).trans (ext_last _ _))
  simp only [OpS1.unpack, h25, h18, h8, Src.dec_enc, beq_self_eq_true, Bool.and_self, if_true]

/-- The group and the function of a packed `OpS1` bundle (R92). -/
theorem OpS1.pack_grp (op : BitVec 8) (o : OpS1) : (OpS1.pack op o).extractLsb' 0 4 = op.extractLsb' 0 4 := ext_in 0 4 (by omega) _ _

theorem OpS1.pack_fn (op : BitVec 8) (o : OpS1) : (OpS1.pack op o).extractLsb' 4 4 = op.extractLsb' 4 4 := ext_in 4 4 (by omega) _ _

/-- A packed `OpCv` bundle is read back (R94). -/
theorem OpCv.unpack_pack (op : BitVec 8) (o : OpCv) : OpCv.unpack (OpCv.pack op o) = .ok o := by
  have h25 : (OpCv.pack op o).extractLsb' 25 7 = 100#7 := ((ext_peel 17 7 _ _).trans ((ext_peel 13 7 _ _).trans ((ext_peel 10 7 _ _).trans ((ext_peel 7 7 _ _).trans ((ext_peel 0 7 _ _).trans (ext_full _))))))
  have h18 : (OpCv.pack op o).extractLsb' 18 7 = o.a.enc := ((ext_peel 10 7 _ _).trans ((ext_peel 6 7 _ _).trans ((ext_peel 3 7 _ _).trans ((ext_peel 0 7 _ _).trans (ext_last _ _)))))
  have h15 : (OpCv.pack op o).extractLsb' 15 3 = 0#3 := ((ext_peel 7 3 _ _).trans ((ext_peel 3 3 _ _).trans ((ext_peel 0 3 _ _).trans (ext_last _ _))))
  have h12 : (OpCv.pack op o).extractLsb' 12 3 = o.cv := ((ext_peel 4 3 _ _).trans ((ext_peel 0 3 _ _).trans (ext_last _ _)))
  have h8 : (OpCv.pack op o).extractLsb' 8 4 = 0#4 := ((ext_peel 0 4 _ _).trans (ext_last _ _))
  simp only [OpCv.unpack, h25, h18, h15, h12, h8, Src.dec_enc, beq_self_eq_true, Bool.and_self, if_true]

/-- The group and the function of a packed `OpCv` bundle (R92). -/
theorem OpCv.pack_grp (op : BitVec 8) (o : OpCv) : (OpCv.pack op o).extractLsb' 0 4 = op.extractLsb' 0 4 := ext_in 0 4 (by omega) _ _

theorem OpCv.pack_fn (op : BitVec 8) (o : OpCv) : (OpCv.pack op o).extractLsb' 4 4 = op.extractLsb' 4 4 := ext_in 4 4 (by omega) _ _

/-- A packed `OpBar` bundle is read back (R94). -/
theorem OpBar.unpack_pack (op : BitVec 8) (o : OpBar) : OpBar.unpack (OpBar.pack op o) = .ok o := by
  have h25 : (OpBar.pack op o).extractLsb' 25 7 = 100#7 := ((ext_peel 17 7 _ _).trans ((ext_peel 14 7 _ _).trans ((ext_peel 13 7 _ _).trans ((ext_peel 8 7 _ _).trans ((ext_peel 7 7 _ _).trans ((ext_peel 0 7 _ _).trans (ext_full _)))))))
  have h18 : (OpBar.pack op o).extractLsb' 18 7 = o.a.enc := ((ext_peel 10 7 _ _).trans ((ext_peel 7 7 _ _).trans ((ext_peel 6 7 _ _).trans ((ext_peel 1 7 _ _).trans ((ext_peel 0 7 _ _).trans (ext_last _ _))))))
  have h17 : (OpBar.pack op o).extractLsb' 17 1 = 0#1 := ((ext_peel 9 1 _ _).trans ((ext_peel 6 1 _ _).trans ((ext_peel 5 1 _ _).trans ((ext_peel 0 1 _ _).trans (ext_last _ _)))))
  have h12 : (OpBar.pack op o).extractLsb' 12 5 = o.d := ((ext_peel 4 5 _ _).trans ((ext_peel 1 5 _ _).trans ((ext_peel 0 5 _ _).trans (ext_last _ _))))
  have h8 : (OpBar.pack op o).extractLsb' 8 3 = 0#3 := ((ext_peel 0 3 _ _).trans (ext_last _ _))
  have b11 : (OpBar.pack op o).getLsbD 11 = o.k := ((bit_peel 3 _ _).trans ((bit_peel 0 _ _).trans (bit_last _ _)))
  simp only [OpBar.unpack, h25, h18, h17, h12, h8, b11, Src.dec_enc, beq_self_eq_true, Bool.and_self, if_true]

/-- The group and the function of a packed `OpBar` bundle (R92). -/
theorem OpBar.pack_grp (op : BitVec 8) (o : OpBar) : (OpBar.pack op o).extractLsb' 0 4 = op.extractLsb' 0 4 := ext_in 0 4 (by omega) _ _

theorem OpBar.pack_fn (op : BitVec 8) (o : OpBar) : (OpBar.pack op o).extractLsb' 4 4 = op.extractLsb' 4 4 := ext_in 4 4 (by omega) _ _

/-- A packed `OpS2` bundle is read back (R94). -/
theorem OpS2.unpack_pack (op : BitVec 8) (o : OpS2) : OpS2.unpack (OpS2.pack op o) = .ok o := by
  have h25 : (OpS2.pack op o).extractLsb' 25 7 = o.b.enc := ((ext_peel 17 7 _ _).trans ((ext_peel 7 7 _ _).trans ((ext_peel 0 7 _ _).trans (ext_full _))))
  have h18 : (OpS2.pack op o).extractLsb' 18 7 = o.a.enc := ((ext_peel 10 7 _ _).trans ((ext_peel 0 7 _ _).trans (ext_last _ _)))
  have h8 : (OpS2.pack op o).extractLsb' 8 10 = 0#10 := ((ext_peel 0 10 _ _).trans (ext_last _ _))
  simp only [OpS2.unpack, h25, h18, h8, Src.dec_enc, beq_self_eq_true, if_true]

/-- The group and the function of a packed `OpS2` bundle (R92). -/
theorem OpS2.pack_grp (op : BitVec 8) (o : OpS2) : (OpS2.pack op o).extractLsb' 0 4 = op.extractLsb' 0 4 := ext_in 0 4 (by omega) _ _

theorem OpS2.pack_fn (op : BitVec 8) (o : OpS2) : (OpS2.pack op o).extractLsb' 4 4 = op.extractLsb' 4 4 := ext_in 4 4 (by omega) _ _

/-- A packed `OpRg` bundle is read back (R94). -/
theorem OpRg.unpack_pack (op : BitVec 8) (o : OpRg) : OpRg.unpack (OpRg.pack op o) = .ok o := by
  have h25 : (OpRg.pack op o).extractLsb' 25 7 = o.imm := ((ext_peel 17 7 _ _).trans ((ext_peel 7 7 _ _).trans ((ext_peel 0 7 _ _).trans (ext_full _))))
  have h18 : (OpRg.pack op o).extractLsb' 18 7 = 100#7 := ((ext_peel 10 7 _ _).trans ((ext_peel 0 7 _ _).trans (ext_last _ _)))
  have h8 : (OpRg.pack op o).extractLsb' 8 10 = 0#10 := ((ext_peel 0 10 _ _).trans (ext_last _ _))
  simp only [OpRg.unpack, h25, h18, h8, beq_self_eq_true, Bool.and_self, if_true]

/-- The group and the function of a packed `OpRg` bundle (R92). -/
theorem OpRg.pack_grp (op : BitVec 8) (o : OpRg) : (OpRg.pack op o).extractLsb' 0 4 = op.extractLsb' 0 4 := ext_in 0 4 (by omega) _ _

theorem OpRg.pack_fn (op : BitVec 8) (o : OpRg) : (OpRg.pack op o).extractLsb' 4 4 = op.extractLsb' 4 4 := ext_in 4 4 (by omega) _ _

/-- A packed `OpTr` bundle is read back (R94). -/
theorem OpTr.unpack_pack (op : BitVec 8) (o : OpTr) : OpTr.unpack (OpTr.pack op o) = .ok o := by
  have h25 : (OpTr.pack op o).extractLsb' 25 7 = o.imm := ((ext_peel 17 7 _ _).trans ((ext_peel 14 7 _ _).trans ((ext_peel 7 7 _ _).trans ((ext_peel 0 7 _ _).trans (ext_full _)))))
  have h18 : (OpTr.pack op o).extractLsb' 18 7 = 100#7 := ((ext_peel 10 7 _ _).trans ((ext_peel 7 7 _ _).trans ((ext_peel 0 7 _ _).trans (ext_last _ _))))
  have h11 : (OpTr.pack op o).extractLsb' 11 7 = 0#7 := ((ext_peel 3 7 _ _).trans ((ext_peel 0 7 _ _).trans (ext_last _ _)))
  have h8 : (OpTr.pack op o).extractLsb' 8 3 = o.g := ((ext_peel 0 3 _ _).trans (ext_last _ _))
  simp only [OpTr.unpack, h25, h18, h11, h8, beq_self_eq_true, Bool.and_self, if_true]

/-- The group and the function of a packed `OpTr` bundle (R92). -/
theorem OpTr.pack_grp (op : BitVec 8) (o : OpTr) : (OpTr.pack op o).extractLsb' 0 4 = op.extractLsb' 0 4 := ext_in 0 4 (by omega) _ _

theorem OpTr.pack_fn (op : BitVec 8) (o : OpTr) : (OpTr.pack op o).extractLsb' 4 4 = op.extractLsb' 4 4 := ext_in 4 4 (by omega) _ _

/-- A packed `OpRt` bundle is read back (R94). -/
theorem OpRt.unpack_pack (op : BitVec 8) (o : OpRt) : OpRt.unpack (OpRt.pack op o) = .ok o := by
  have h25 : (OpRt.pack op o).extractLsb' 25 7 = 100#7 := ((ext_peel 17 7 _ _).trans ((ext_peel 13 7 _ _).trans ((ext_peel 8 7 _ _).trans ((ext_peel 7 7 _ _).trans ((ext_peel 0 7 _ _).trans (ext_full _))))))
  have h18 : (OpRt.pack op o).extractLsb' 18 7 = o.a.enc := ((ext_peel 10 7 _ _).trans ((ext_peel 6 7 _ _).trans ((ext_peel 1 7 _ _).trans ((ext_peel 0 7 _ _).trans (ext_last _ _)))))
  have h17 : (OpRt.pack op o).extractLsb' 17 1 = 0#1 := ((ext_peel 9 1 _ _).trans ((ext_peel 5 1 _ _).trans ((ext_peel 0 1 _ _).trans (ext_last _ _))))
  have h12 : (OpRt.pack op o).extractLsb' 12 5 = o.d := ((ext_peel 4 5 _ _).trans ((ext_peel 0 5 _ _).trans (ext_last _ _)))
  have h8 : (OpRt.pack op o).extractLsb' 8 4 = 0#4 := ((ext_peel 0 4 _ _).trans (ext_last _ _))
  simp only [OpRt.unpack, h25, h18, h17, h12, h8, Src.dec_enc, beq_self_eq_true, Bool.and_self, if_true]

/-- The group and the function of a packed `OpRt` bundle (R92). -/
theorem OpRt.pack_grp (op : BitVec 8) (o : OpRt) : (OpRt.pack op o).extractLsb' 0 4 = op.extractLsb' 0 4 := ext_in 0 4 (by omega) _ _

theorem OpRt.pack_fn (op : BitVec 8) (o : OpRt) : (OpRt.pack op o).extractLsb' 4 4 = op.extractLsb' 4 4 := ext_in 4 4 (by omega) _ _

/-- A packed `OpM` bundle is read back (R94). -/
theorem OpM.unpack_pack (op : BitVec 8) (o : OpM) : OpM.unpack (OpM.pack op o) = .ok o := by
  have h25 : (OpM.pack op o).extractLsb' 25 7 = o.off := ((ext_peel 17 7 _ _).trans ((ext_peel 14 7 _ _).trans ((ext_peel 13 7 _ _).trans ((ext_peel 7 7 _ _).trans ((ext_peel 0 7 _ _).trans (ext_full _))))))
  have h18 : (OpM.pack op o).extractLsb' 18 7 = o.a.enc := ((ext_peel 10 7 _ _).trans ((ext_peel 7 7 _ _).trans ((ext_peel 6 7 _ _).trans ((ext_peel 0 7 _ _).trans (ext_last _ _)))))
  have h12 : (OpM.pack op o).extractLsb' 12 6 = o.d := ((ext_peel 4 6 _ _).trans ((ext_peel 1 6 _ _).trans ((ext_peel 0 6 _ _).trans (ext_last _ _))))
  have h11 : (OpM.pack op o).extractLsb' 11 1 = 0#1 := ((ext_peel 3 1 _ _).trans ((ext_peel 0 1 _ _).trans (ext_last _ _)))
  have h8 : (OpM.pack op o).extractLsb' 8 3 = o.g := ((ext_peel 0 3 _ _).trans (ext_last _ _))
  simp only [OpM.unpack, h25, h18, h12, h11, h8, Src.dec_enc, beq_self_eq_true, if_true]

/-- The group and the function of a packed `OpM` bundle (R92). -/
theorem OpM.pack_grp (op : BitVec 8) (o : OpM) : (OpM.pack op o).extractLsb' 0 4 = op.extractLsb' 0 4 := ext_in 0 4 (by omega) _ _

theorem OpM.pack_fn (op : BitVec 8) (o : OpM) : (OpM.pack op o).extractLsb' 4 4 = op.extractLsb' 4 4 := ext_in 4 4 (by omega) _ _

/-- A packed `OpMU` bundle is read back (R94). -/
theorem OpMU.unpack_pack (op : BitVec 8) (o : OpMU) : OpMU.unpack (OpMU.pack op o) = .ok o := by
  have h25 : (OpMU.pack op o).extractLsb' 25 7 = o.off := ((ext_peel 17 7 _ _).trans ((ext_peel 14 7 _ _).trans ((ext_peel 13 7 _ _).trans ((ext_peel 8 7 _ _).trans ((ext_peel 7 7 _ _).trans ((ext_peel 0 7 _ _).trans (ext_full _)))))))
  have h18 : (OpMU.pack op o).extractLsb' 18 7 = o.a.enc := ((ext_peel 10 7 _ _).trans ((ext_peel 7 7 _ _).trans ((ext_peel 6 7 _ _).trans ((ext_peel 1 7 _ _).trans ((ext_peel 0 7 _ _).trans (ext_last _ _))))))
  have h17 : (OpMU.pack op o).extractLsb' 17 1 = 0#1 := ((ext_peel 9 1 _ _).trans ((ext_peel 6 1 _ _).trans ((ext_peel 5 1 _ _).trans ((ext_peel 0 1 _ _).trans (ext_last _ _)))))
  have h12 : (OpMU.pack op o).extractLsb' 12 5 = o.d := ((ext_peel 4 5 _ _).trans ((ext_peel 1 5 _ _).trans ((ext_peel 0 5 _ _).trans (ext_last _ _))))
  have h11 : (OpMU.pack op o).extractLsb' 11 1 = 0#1 := ((ext_peel 3 1 _ _).trans ((ext_peel 0 1 _ _).trans (ext_last _ _)))
  have h8 : (OpMU.pack op o).extractLsb' 8 3 = o.g := ((ext_peel 0 3 _ _).trans (ext_last _ _))
  simp only [OpMU.unpack, h25, h18, h17, h12, h11, h8, Src.dec_enc, beq_self_eq_true, Bool.and_self, if_true]

/-- The group and the function of a packed `OpMU` bundle (R92). -/
theorem OpMU.pack_grp (op : BitVec 8) (o : OpMU) : (OpMU.pack op o).extractLsb' 0 4 = op.extractLsb' 0 4 := ext_in 0 4 (by omega) _ _

theorem OpMU.pack_fn (op : BitVec 8) (o : OpMU) : (OpMU.pack op o).extractLsb' 4 4 = op.extractLsb' 4 4 := ext_in 4 4 (by omega) _ _

/-- A packed `OpMS` bundle is read back (R94). -/
theorem OpMS.unpack_pack (op : BitVec 8) (o : OpMS) : OpMS.unpack (OpMS.pack op o) = .ok o := by
  have h27 : (OpMS.pack op o).extractLsb' 27 5 = 0#5 := ((ext_peel 19 5 _ _).trans ((ext_peel 16 5 _ _).trans ((ext_peel 15 5 _ _).trans ((ext_peel 9 5 _ _).trans ((ext_peel 2 5 _ _).trans ((ext_peel 0 5 _ _).trans (ext_full _)))))))
  have h25 : (OpMS.pack op o).extractLsb' 25 2 = o.scope := ((ext_peel 17 2 _ _).trans ((ext_peel 14 2 _ _).trans ((ext_peel 13 2 _ _).trans ((ext_peel 7 2 _ _).trans ((ext_peel 0 2 _ _).trans (ext_last _ _))))))
  have h18 : (OpMS.pack op o).extractLsb' 18 7 = o.a.enc := ((ext_peel 10 7 _ _).trans ((ext_peel 7 7 _ _).trans ((ext_peel 6 7 _ _).trans ((ext_peel 0 7 _ _).trans (ext_last _ _)))))
  have h12 : (OpMS.pack op o).extractLsb' 12 6 = o.d := ((ext_peel 4 6 _ _).trans ((ext_peel 1 6 _ _).trans ((ext_peel 0 6 _ _).trans (ext_last _ _))))
  have h11 : (OpMS.pack op o).extractLsb' 11 1 = 0#1 := ((ext_peel 3 1 _ _).trans ((ext_peel 0 1 _ _).trans (ext_last _ _)))
  have h8 : (OpMS.pack op o).extractLsb' 8 3 = o.g := ((ext_peel 0 3 _ _).trans (ext_last _ _))
  simp only [OpMS.unpack, h27, h25, h18, h12, h11, h8, Src.dec_enc, beq_self_eq_true, Bool.and_self, if_true]

/-- The group and the function of a packed `OpMS` bundle (R92). -/
theorem OpMS.pack_grp (op : BitVec 8) (o : OpMS) : (OpMS.pack op o).extractLsb' 0 4 = op.extractLsb' 0 4 := ext_in 0 4 (by omega) _ _

theorem OpMS.pack_fn (op : BitVec 8) (o : OpMS) : (OpMS.pack op o).extractLsb' 4 4 = op.extractLsb' 4 4 := ext_in 4 4 (by omega) _ _

/-- A packed `OpPf` bundle is read back (R94). -/
theorem OpPf.unpack_pack (op : BitVec 8) (o : OpPf) : OpPf.unpack (OpPf.pack op o) = .ok o := by
  have h25 : (OpPf.pack op o).extractLsb' 25 7 = o.off := ((ext_peel 17 7 _ _).trans ((ext_peel 14 7 _ _).trans ((ext_peel 13 7 _ _).trans ((ext_peel 11 7 _ _).trans ((ext_peel 7 7 _ _).trans ((ext_peel 0 7 _ _).trans (ext_full _)))))))
  have h18 : (OpPf.pack op o).extractLsb' 18 7 = o.a.enc := ((ext_peel 10 7 _ _).trans ((ext_peel 7 7 _ _).trans ((ext_peel 6 7 _ _).trans ((ext_peel 4 7 _ _).trans ((ext_peel 0 7 _ _).trans (ext_last _ _))))))
  have h14 : (OpPf.pack op o).extractLsb' 14 4 = 0#4 := ((ext_peel 6 4 _ _).trans ((ext_peel 3 4 _ _).trans ((ext_peel 2 4 _ _).trans ((ext_peel 0 4 _ _).trans (ext_last _ _)))))
  have h12 : (OpPf.pack op o).extractLsb' 12 2 = o.lvl := ((ext_peel 4 2 _ _).trans ((ext_peel 1 2 _ _).trans ((ext_peel 0 2 _ _).trans (ext_last _ _))))
  have h11 : (OpPf.pack op o).extractLsb' 11 1 = 0#1 := ((ext_peel 3 1 _ _).trans ((ext_peel 0 1 _ _).trans (ext_last _ _)))
  have h8 : (OpPf.pack op o).extractLsb' 8 3 = o.g := ((ext_peel 0 3 _ _).trans (ext_last _ _))
  simp only [OpPf.unpack, h25, h18, h14, h12, h11, h8, Src.dec_enc, beq_self_eq_true, Bool.and_self, if_true]

/-- The group and the function of a packed `OpPf` bundle (R92). -/
theorem OpPf.pack_grp (op : BitVec 8) (o : OpPf) : (OpPf.pack op o).extractLsb' 0 4 = op.extractLsb' 0 4 := ext_in 0 4 (by omega) _ _

theorem OpPf.pack_fn (op : BitVec 8) (o : OpPf) : (OpPf.pack op o).extractLsb' 4 4 = op.extractLsb' 4 4 := ext_in 4 4 (by omega) _ _

/-- A packed `OpF` bundle is read back (R94). -/
theorem OpF.unpack_pack (op : BitVec 8) (o : OpF) : OpF.unpack (OpF.pack op o) = .ok o := by
  have h25 : (OpF.pack op o).extractLsb' 25 7 = 100#7 := ((ext_peel 17 7 _ _).trans ((ext_peel 14 7 _ _).trans ((ext_peel 13 7 _ _).trans ((ext_peel 10 7 _ _).trans ((ext_peel 7 7 _ _).trans ((ext_peel 0 7 _ _).trans (ext_full _)))))))
  have h18 : (OpF.pack op o).extractLsb' 18 7 = 100#7 := ((ext_peel 10 7 _ _).trans ((ext_peel 7 7 _ _).trans ((ext_peel 6 7 _ _).trans ((ext_peel 3 7 _ _).trans ((ext_peel 0 7 _ _).trans (ext_last _ _))))))
  have h15 : (OpF.pack op o).extractLsb' 15 3 = 0#3 := ((ext_peel 7 3 _ _).trans ((ext_peel 4 3 _ _).trans ((ext_peel 3 3 _ _).trans ((ext_peel 0 3 _ _).trans (ext_last _ _)))))
  have h12 : (OpF.pack op o).extractLsb' 12 3 = o.scope := ((ext_peel 4 3 _ _).trans ((ext_peel 1 3 _ _).trans ((ext_peel 0 3 _ _).trans (ext_last _ _))))
  have h11 : (OpF.pack op o).extractLsb' 11 1 = 0#1 := ((ext_peel 3 1 _ _).trans ((ext_peel 0 1 _ _).trans (ext_last _ _)))
  have h8 : (OpF.pack op o).extractLsb' 8 3 = o.g := ((ext_peel 0 3 _ _).trans (ext_last _ _))
  simp only [OpF.unpack, h25, h18, h15, h12, h11, h8, beq_self_eq_true, Bool.and_self, if_true]

/-- The group and the function of a packed `OpF` bundle (R92). -/
theorem OpF.pack_grp (op : BitVec 8) (o : OpF) : (OpF.pack op o).extractLsb' 0 4 = op.extractLsb' 0 4 := ext_in 0 4 (by omega) _ _

theorem OpF.pack_fn (op : BitVec 8) (o : OpF) : (OpF.pack op o).extractLsb' 4 4 = op.extractLsb' 4 4 := ext_in 4 4 (by omega) _ _

/-- A packed `OpCp` bundle is read back (R94). -/
theorem OpCp.unpack_pack (op : BitVec 8) (o : OpCp) : OpCp.unpack (OpCp.pack op o) = .ok o := by
  have h30 : (OpCp.pack op o).extractLsb' 30 2 = 2#2 := ((ext_peel 22 2 _ _).trans ((ext_peel 19 2 _ _).trans ((ext_peel 18 2 _ _).trans ((ext_peel 13 2 _ _).trans ((ext_peel 12 2 _ _).trans ((ext_peel 7 2 _ _).trans ((ext_peel 5 2 _ _).trans ((ext_peel 0 2 _ _).trans (ext_full _)))))))))
  have h25 : (OpCp.pack op o).extractLsb' 25 5 = o.sb := ((ext_peel 17 5 _ _).trans ((ext_peel 14 5 _ _).trans ((ext_peel 13 5 _ _).trans ((ext_peel 8 5 _ _).trans ((ext_peel 7 5 _ _).trans ((ext_peel 2 5 _ _).trans ((ext_peel 0 5 _ _).trans (ext_last _ _))))))))
  have h23 : (OpCp.pack op o).extractLsb' 23 2 = 2#2 := ((ext_peel 15 2 _ _).trans ((ext_peel 12 2 _ _).trans ((ext_peel 11 2 _ _).trans ((ext_peel 6 2 _ _).trans ((ext_peel 5 2 _ _).trans ((ext_peel 0 2 _ _).trans (ext_last _ _)))))))
  have h18 : (OpCp.pack op o).extractLsb' 18 5 = o.sa := ((ext_peel 10 5 _ _).trans ((ext_peel 7 5 _ _).trans ((ext_peel 6 5 _ _).trans ((ext_peel 1 5 _ _).trans ((ext_peel 0 5 _ _).trans (ext_last _ _))))))
  have h17 : (OpCp.pack op o).extractLsb' 17 1 = 0#1 := ((ext_peel 9 1 _ _).trans ((ext_peel 6 1 _ _).trans ((ext_peel 5 1 _ _).trans ((ext_peel 0 1 _ _).trans (ext_last _ _)))))
  have h12 : (OpCp.pack op o).extractLsb' 12 5 = o.d := ((ext_peel 4 5 _ _).trans ((ext_peel 1 5 _ _).trans ((ext_peel 0 5 _ _).trans (ext_last _ _))))
  have h11 : (OpCp.pack op o).extractLsb' 11 1 = 0#1 := ((ext_peel 3 1 _ _).trans ((ext_peel 0 1 _ _).trans (ext_last _ _)))
  have h8 : (OpCp.pack op o).extractLsb' 8 3 = o.g := ((ext_peel 0 3 _ _).trans (ext_last _ _))
  simp only [OpCp.unpack, h30, h25, h23, h18, h17, h12, h11, h8, beq_self_eq_true, Bool.and_self, if_true]

/-- The group and the function of a packed `OpCp` bundle (R92). -/
theorem OpCp.pack_grp (op : BitVec 8) (o : OpCp) : (OpCp.pack op o).extractLsb' 0 4 = op.extractLsb' 0 4 := ext_in 0 4 (by omega) _ _

theorem OpCp.pack_fn (op : BitVec 8) (o : OpCp) : (OpCp.pack op o).extractLsb' 4 4 = op.extractLsb' 4 4 := ext_in 4 4 (by omega) _ _

/-- A packed `OpSeal` bundle is read back (R94). -/
theorem OpSeal.unpack_pack (op : BitVec 8) (o : OpSeal) : OpSeal.unpack (OpSeal.pack op o) = .ok o := by
  have h25 : (OpSeal.pack op o).extractLsb' 25 7 = 100#7 := ((ext_peel 17 7 _ _).trans ((ext_peel 14 7 _ _).trans ((ext_peel 13 7 _ _).trans ((ext_peel 8 7 _ _).trans ((ext_peel 7 7 _ _).trans ((ext_peel 0 7 _ _).trans (ext_full _)))))))
  have h18 : (OpSeal.pack op o).extractLsb' 18 7 = 100#7 := ((ext_peel 10 7 _ _).trans ((ext_peel 7 7 _ _).trans ((ext_peel 6 7 _ _).trans ((ext_peel 1 7 _ _).trans ((ext_peel 0 7 _ _).trans (ext_last _ _))))))
  have h17 : (OpSeal.pack op o).extractLsb' 17 1 = 0#1 := ((ext_peel 9 1 _ _).trans ((ext_peel 6 1 _ _).trans ((ext_peel 5 1 _ _).trans ((ext_peel 0 1 _ _).trans (ext_last _ _)))))
  have h12 : (OpSeal.pack op o).extractLsb' 12 5 = o.d := ((ext_peel 4 5 _ _).trans ((ext_peel 1 5 _ _).trans ((ext_peel 0 5 _ _).trans (ext_last _ _))))
  have h11 : (OpSeal.pack op o).extractLsb' 11 1 = 0#1 := ((ext_peel 3 1 _ _).trans ((ext_peel 0 1 _ _).trans (ext_last _ _)))
  have h8 : (OpSeal.pack op o).extractLsb' 8 3 = o.g := ((ext_peel 0 3 _ _).trans (ext_last _ _))
  simp only [OpSeal.unpack, h25, h18, h17, h12, h11, h8, beq_self_eq_true, Bool.and_self, if_true]

/-- The group and the function of a packed `OpSeal` bundle (R92). -/
theorem OpSeal.pack_grp (op : BitVec 8) (o : OpSeal) : (OpSeal.pack op o).extractLsb' 0 4 = op.extractLsb' 0 4 := ext_in 0 4 (by omega) _ _

theorem OpSeal.pack_fn (op : BitVec 8) (o : OpSeal) : (OpSeal.pack op o).extractLsb' 4 4 = op.extractLsb' 4 4 := ext_in 4 4 (by omega) _ _

/-- A packed `OpDA` bundle is read back (R94). -/
theorem OpDA.unpack_pack (op : BitVec 8) (o : OpDA) : OpDA.unpack (OpDA.pack op o) = .ok o := by
  have h25 : (OpDA.pack op o).extractLsb' 25 7 = 100#7 := ((ext_peel 17 7 _ _).trans ((ext_peel 14 7 _ _).trans ((ext_peel 13 7 _ _).trans ((ext_peel 8 7 _ _).trans ((ext_peel 7 7 _ _).trans ((ext_peel 0 7 _ _).trans (ext_full _)))))))
  have h18 : (OpDA.pack op o).extractLsb' 18 7 = o.a.enc := ((ext_peel 10 7 _ _).trans ((ext_peel 7 7 _ _).trans ((ext_peel 6 7 _ _).trans ((ext_peel 1 7 _ _).trans ((ext_peel 0 7 _ _).trans (ext_last _ _))))))
  have h17 : (OpDA.pack op o).extractLsb' 17 1 = 0#1 := ((ext_peel 9 1 _ _).trans ((ext_peel 6 1 _ _).trans ((ext_peel 5 1 _ _).trans ((ext_peel 0 1 _ _).trans (ext_last _ _)))))
  have h12 : (OpDA.pack op o).extractLsb' 12 5 = o.d := ((ext_peel 4 5 _ _).trans ((ext_peel 1 5 _ _).trans ((ext_peel 0 5 _ _).trans (ext_last _ _))))
  have h11 : (OpDA.pack op o).extractLsb' 11 1 = 0#1 := ((ext_peel 3 1 _ _).trans ((ext_peel 0 1 _ _).trans (ext_last _ _)))
  have h8 : (OpDA.pack op o).extractLsb' 8 3 = o.g := ((ext_peel 0 3 _ _).trans (ext_last _ _))
  simp only [OpDA.unpack, h25, h18, h17, h12, h11, h8, Src.dec_enc, beq_self_eq_true, Bool.and_self, if_true]

/-- The group and the function of a packed `OpDA` bundle (R92). -/
theorem OpDA.pack_grp (op : BitVec 8) (o : OpDA) : (OpDA.pack op o).extractLsb' 0 4 = op.extractLsb' 0 4 := ext_in 0 4 (by omega) _ _

theorem OpDA.pack_fn (op : BitVec 8) (o : OpDA) : (OpDA.pack op o).extractLsb' 4 4 = op.extractLsb' 4 4 := ext_in 4 4 (by omega) _ _

/-- A packed `OpDU` bundle is read back (R94). -/
theorem OpDU.unpack_pack (op : BitVec 8) (o : OpDU) : OpDU.unpack (OpDU.pack op o) = .ok o := by
  have h25 : (OpDU.pack op o).extractLsb' 25 7 = o.b.enc := ((ext_peel 17 7 _ _).trans ((ext_peel 14 7 _ _).trans ((ext_peel 13 7 _ _).trans ((ext_peel 8 7 _ _).trans ((ext_peel 7 7 _ _).trans ((ext_peel 0 7 _ _).trans (ext_full _)))))))
  have h18 : (OpDU.pack op o).extractLsb' 18 7 = o.a.enc := ((ext_peel 10 7 _ _).trans ((ext_peel 7 7 _ _).trans ((ext_peel 6 7 _ _).trans ((ext_peel 1 7 _ _).trans ((ext_peel 0 7 _ _).trans (ext_last _ _))))))
  have h17 : (OpDU.pack op o).extractLsb' 17 1 = 0#1 := ((ext_peel 9 1 _ _).trans ((ext_peel 6 1 _ _).trans ((ext_peel 5 1 _ _).trans ((ext_peel 0 1 _ _).trans (ext_last _ _)))))
  have h12 : (OpDU.pack op o).extractLsb' 12 5 = o.d := ((ext_peel 4 5 _ _).trans ((ext_peel 1 5 _ _).trans ((ext_peel 0 5 _ _).trans (ext_last _ _))))
  have h11 : (OpDU.pack op o).extractLsb' 11 1 = 0#1 := ((ext_peel 3 1 _ _).trans ((ext_peel 0 1 _ _).trans (ext_last _ _)))
  have h8 : (OpDU.pack op o).extractLsb' 8 3 = o.g := ((ext_peel 0 3 _ _).trans (ext_last _ _))
  simp only [OpDU.unpack, h25, h18, h17, h12, h11, h8, Src.dec_enc, beq_self_eq_true, Bool.and_self, if_true]

/-- The group and the function of a packed `OpDU` bundle (R92). -/
theorem OpDU.pack_grp (op : BitVec 8) (o : OpDU) : (OpDU.pack op o).extractLsb' 0 4 = op.extractLsb' 0 4 := ext_in 0 4 (by omega) _ _

theorem OpDU.pack_fn (op : BitVec 8) (o : OpDU) : (OpDU.pack op o).extractLsb' 4 4 = op.extractLsb' 4 4 := ext_in 4 4 (by omega) _ _

/-- A packed `OpMsh` bundle is read back (R94). -/
theorem OpMsh.unpack_pack (op : BitVec 8) (o : OpMsh) : OpMsh.unpack (OpMsh.pack op o) = .ok o := by
  have h31 : (OpMsh.pack op o).extractLsb' 31 1 = 0#1 := ((ext_peel 23 1 _ _).trans ((ext_peel 20 1 _ _).trans ((ext_peel 19 1 _ _).trans ((ext_peel 15 1 _ _).trans ((ext_peel 7 1 _ _).trans ((ext_peel 4 1 _ _).trans ((ext_peel 1 1 _ _).trans ((ext_peel 0 1 _ _).trans (ext_full _)))))))))
  have h27 : (OpMsh.pack op o).extractLsb' 27 3 = o.cols := ((ext_peel 19 3 _ _).trans ((ext_peel 16 3 _ _).trans ((ext_peel 15 3 _ _).trans ((ext_peel 11 3 _ _).trans ((ext_peel 3 3 _ _).trans ((ext_peel 0 3 _ _).trans (ext_last _ _)))))))
  have h24 : (OpMsh.pack op o).extractLsb' 24 3 = o.rows := ((ext_peel 16 3 _ _).trans ((ext_peel 13 3 _ _).trans ((ext_peel 12 3 _ _).trans ((ext_peel 8 3 _ _).trans ((ext_peel 0 3 _ _).trans (ext_last _ _))))))
  have h16 : (OpMsh.pack op o).extractLsb' 16 8 = 0#8 := ((ext_peel 8 8 _ _).trans ((ext_peel 5 8 _ _).trans ((ext_peel 4 8 _ _).trans ((ext_peel 0 8 _ _).trans (ext_last _ _)))))
  have h12 : (OpMsh.pack op o).extractLsb' 12 4 = o.d := ((ext_peel 4 4 _ _).trans ((ext_peel 1 4 _ _).trans ((ext_peel 0 4 _ _).trans (ext_last _ _))))
  have h11 : (OpMsh.pack op o).extractLsb' 11 1 = 0#1 := ((ext_peel 3 1 _ _).trans ((ext_peel 0 1 _ _).trans (ext_last _ _)))
  have h8 : (OpMsh.pack op o).extractLsb' 8 3 = o.g := ((ext_peel 0 3 _ _).trans (ext_last _ _))
  have b30 : (OpMsh.pack op o).getLsbD 30 = o.ty := ((bit_peel 22 _ _).trans ((bit_peel 19 _ _).trans ((bit_peel 18 _ _).trans ((bit_peel 14 _ _).trans ((bit_peel 6 _ _).trans ((bit_peel 3 _ _).trans ((bit_peel 0 _ _).trans (bit_last _ _))))))))
  simp only [OpMsh.unpack, h31, h27, h24, h16, h12, h11, h8, b30, beq_self_eq_true, Bool.and_self, if_true]

/-- The group and the function of a packed `OpMsh` bundle (R92). -/
theorem OpMsh.pack_grp (op : BitVec 8) (o : OpMsh) : (OpMsh.pack op o).extractLsb' 0 4 = op.extractLsb' 0 4 := ext_in 0 4 (by omega) _ _

theorem OpMsh.pack_fn (op : BitVec 8) (o : OpMsh) : (OpMsh.pack op o).extractLsb' 4 4 = op.extractLsb' 4 4 := ext_in 4 4 (by omega) _ _

/-- A packed `OpMl` bundle is read back (R94). -/
theorem OpMl.unpack_pack (op : BitVec 8) (o : OpMl) : OpMl.unpack (OpMl.pack op o) = .ok o := by
  have h27 : (OpMl.pack op o).extractLsb' 27 4 = o.stride := ((ext_peel 19 4 _ _).trans ((ext_peel 16 4 _ _).trans ((ext_peel 15 4 _ _).trans ((ext_peel 11 4 _ _).trans ((ext_peel 4 4 _ _).trans ((ext_peel 0 4 _ _).trans (ext_last _ _)))))))
  have h23 : (OpMl.pack op o).extractLsb' 23 4 = 0#4 := ((ext_peel 15 4 _ _).trans ((ext_peel 12 4 _ _).trans ((ext_peel 11 4 _ _).trans ((ext_peel 7 4 _ _).trans ((ext_peel 0 4 _ _).trans (ext_last _ _))))))
  have h16 : (OpMl.pack op o).extractLsb' 16 7 = o.a.enc := ((ext_peel 8 7 _ _).trans ((ext_peel 5 7 _ _).trans ((ext_peel 4 7 _ _).trans ((ext_peel 0 7 _ _).trans (ext_last _ _)))))
  have h12 : (OpMl.pack op o).extractLsb' 12 4 = o.d := ((ext_peel 4 4 _ _).trans ((ext_peel 1 4 _ _).trans ((ext_peel 0 4 _ _).trans (ext_last _ _))))
  have h11 : (OpMl.pack op o).extractLsb' 11 1 = 0#1 := ((ext_peel 3 1 _ _).trans ((ext_peel 0 1 _ _).trans (ext_last _ _)))
  have h8 : (OpMl.pack op o).extractLsb' 8 3 = o.g := ((ext_peel 0 3 _ _).trans (ext_last _ _))
  have b31 : (OpMl.pack op o).getLsbD 31 = o.xp := ((bit_peel 23 _ _).trans ((bit_peel 20 _ _).trans ((bit_peel 19 _ _).trans ((bit_peel 15 _ _).trans ((bit_peel 8 _ _).trans ((bit_peel 4 _ _).trans ((bit_peel 0 _ _).trans (bit_self _))))))))
  simp only [OpMl.unpack, h27, h23, h16, h12, h11, h8, b31, Src.dec_enc, beq_self_eq_true, Bool.and_self, if_true]

/-- The group and the function of a packed `OpMl` bundle (R92). -/
theorem OpMl.pack_grp (op : BitVec 8) (o : OpMl) : (OpMl.pack op o).extractLsb' 0 4 = op.extractLsb' 0 4 := ext_in 0 4 (by omega) _ _

theorem OpMl.pack_fn (op : BitVec 8) (o : OpMl) : (OpMl.pack op o).extractLsb' 4 4 = op.extractLsb' 4 4 := ext_in 4 4 (by omega) _ _

/-- A packed `OpMmv` bundle is read back (R94). -/
theorem OpMmv.unpack_pack (op : BitVec 8) (o : OpMmv) : OpMmv.unpack (OpMmv.pack op o) = .ok o := by
  have h31 : (OpMmv.pack op o).extractLsb' 31 1 = 0#1 := ((ext_peel 23 1 _ _).trans ((ext_peel 20 1 _ _).trans ((ext_peel 19 1 _ _).trans ((ext_peel 15 1 _ _).trans ((ext_peel 12 1 _ _).trans ((ext_peel 11 1 _ _).trans ((ext_peel 8 1 _ _).trans ((ext_peel 7 1 _ _).trans ((ext_peel 1 1 _ _).trans ((ext_peel 0 1 _ _).trans (ext_full _)))))))))))
  have h24 : (OpMmv.pack op o).extractLsb' 24 6 = o.v := ((ext_peel 16 6 _ _).trans ((ext_peel 13 6 _ _).trans ((ext_peel 12 6 _ _).trans ((ext_peel 8 6 _ _).trans ((ext_peel 5 6 _ _).trans ((ext_peel 4 6 _ _).trans ((ext_peel 1 6 _ _).trans ((ext_peel 0 6 _ _).trans (ext_last _ _)))))))))
  have h23 : (OpMmv.pack op o).extractLsb' 23 1 = 0#1 := ((ext_peel 15 1 _ _).trans ((ext_peel 12 1 _ _).trans ((ext_peel 11 1 _ _).trans ((ext_peel 7 1 _ _).trans ((ext_peel 4 1 _ _).trans ((ext_peel 3 1 _ _).trans ((ext_peel 0 1 _ _).trans (ext_last _ _))))))))
  have h20 : (OpMmv.pack op o).extractLsb' 20 3 = o.j := ((ext_peel 12 3 _ _).trans ((ext_peel 9 3 _ _).trans ((ext_peel 8 3 _ _).trans ((ext_peel 4 3 _ _).trans ((ext_peel 1 3 _ _).trans ((ext_peel 0 3 _ _).trans (ext_last _ _)))))))
  have h19 : (OpMmv.pack op o).extractLsb' 19 1 = 0#1 := ((ext_peel 11 1 _ _).trans ((ext_peel 8 1 _ _).trans ((ext_peel 7 1 _ _).trans ((ext_peel 3 1 _ _).trans ((ext_peel 0 1 _ _).trans (ext_last _ _))))))
  have h16 : (OpMmv.pack op o).extractLsb' 16 3 = o.i := ((ext_peel 8 3 _ _).trans ((ext_peel 5 3 _ _).trans ((ext_peel 4 3 _ _).trans ((ext_peel 0 3 _ _).trans (ext_last _ _)))))
  have h12 : (OpMmv.pack op o).extractLsb' 12 4 = o.m := ((ext_peel 4 4 _ _).trans ((ext_peel 1 4 _ _).trans ((ext_peel 0 4 _ _).trans (ext_last _ _))))
  have h11 : (OpMmv.pack op o).extractLsb' 11 1 = 0#1 := ((ext_peel 3 1 _ _).trans ((ext_peel 0 1 _ _).trans (ext_last _ _)))
  have h8 : (OpMmv.pack op o).extractLsb' 8 3 = o.g := ((ext_peel 0 3 _ _).trans (ext_last _ _))
  have b30 : (OpMmv.pack op o).getLsbD 30 = o.dir := ((bit_peel 22 _ _).trans ((bit_peel 19 _ _).trans ((bit_peel 18 _ _).trans ((bit_peel 14 _ _).trans ((bit_peel 11 _ _).trans ((bit_peel 10 _ _).trans ((bit_peel 7 _ _).trans ((bit_peel 6 _ _).trans ((bit_peel 0 _ _).trans (bit_last _ _))))))))))
  simp only [OpMmv.unpack, h31, h24, h23, h20, h19, h16, h12, h11, h8, b30, beq_self_eq_true, Bool.and_self, if_true]

/-- The group and the function of a packed `OpMmv` bundle (R92). -/
theorem OpMmv.pack_grp (op : BitVec 8) (o : OpMmv) : (OpMmv.pack op o).extractLsb' 0 4 = op.extractLsb' 0 4 := ext_in 0 4 (by omega) _ _

theorem OpMmv.pack_fn (op : BitVec 8) (o : OpMmv) : (OpMmv.pack op o).extractLsb' 4 4 = op.extractLsb' 4 4 := ext_in 4 4 (by omega) _ _

/-- A packed `OpMm` bundle is read back (R94). -/
theorem OpMm.unpack_pack (op : BitVec 8) (o : OpMm) : OpMm.unpack (OpMm.pack op o) = .ok o := by
  have h26 : (OpMm.pack op o).extractLsb' 26 6 = 0#6 := ((ext_peel 18 6 _ _).trans ((ext_peel 15 6 _ _).trans ((ext_peel 14 6 _ _).trans ((ext_peel 10 6 _ _).trans ((ext_peel 6 6 _ _).trans ((ext_peel 2 6 _ _).trans ((ext_peel 1 6 _ _).trans ((ext_peel 0 6 _ _).trans (ext_full _)))))))))
  have h20 : (OpMm.pack op o).extractLsb' 20 4 = o.b := ((ext_peel 12 4 _ _).trans ((ext_peel 9 4 _ _).trans ((ext_peel 8 4 _ _).trans ((ext_peel 4 4 _ _).trans ((ext_peel 0 4 _ _).trans (ext_last _ _))))))
  have h16 : (OpMm.pack op o).extractLsb' 16 4 = o.a := ((ext_peel 8 4 _ _).trans ((ext_peel 5 4 _ _).trans ((ext_peel 4 4 _ _).trans ((ext_peel 0 4 _ _).trans (ext_last _ _)))))
  have h12 : (OpMm.pack op o).extractLsb' 12 4 = o.d := ((ext_peel 4 4 _ _).trans ((ext_peel 1 4 _ _).trans ((ext_peel 0 4 _ _).trans (ext_last _ _))))
  have h11 : (OpMm.pack op o).extractLsb' 11 1 = 0#1 := ((ext_peel 3 1 _ _).trans ((ext_peel 0 1 _ _).trans (ext_last _ _)))
  have h8 : (OpMm.pack op o).extractLsb' 8 3 = o.g := ((ext_peel 0 3 _ _).trans (ext_last _ _))
  have b25 : (OpMm.pack op o).getLsbD 25 = o.tb := ((bit_peel 17 _ _).trans ((bit_peel 14 _ _).trans ((bit_peel 13 _ _).trans ((bit_peel 9 _ _).trans ((bit_peel 5 _ _).trans ((bit_peel 1 _ _).trans ((bit_peel 0 _ _).trans (bit_last _ _))))))))
  have b24 : (OpMm.pack op o).getLsbD 24 = o.ta := ((bit_peel 16 _ _).trans ((bit_peel 13 _ _).trans ((bit_peel 12 _ _).trans ((bit_peel 8 _ _).trans ((bit_peel 4 _ _).trans ((bit_peel 0 _ _).trans (bit_last _ _)))))))
  simp only [OpMm.unpack, h26, h20, h16, h12, h11, h8, b25, b24, beq_self_eq_true, Bool.and_self, if_true]

/-- The group and the function of a packed `OpMm` bundle (R92). -/
theorem OpMm.pack_grp (op : BitVec 8) (o : OpMm) : (OpMm.pack op o).extractLsb' 0 4 = op.extractLsb' 0 4 := ext_in 0 4 (by omega) _ _

theorem OpMm.pack_fn (op : BitVec 8) (o : OpMm) : (OpMm.pack op o).extractLsb' 4 4 = op.extractLsb' 4 4 := ext_in 4 4 (by omega) _ _

/-- A packed `OpMmn` bundle is read back (R94). -/
theorem OpMmn.unpack_pack (op : BitVec 8) (o : OpMmn) : OpMmn.unpack (OpMmn.pack op o) = .ok o := by
  have h27 : (OpMmn.pack op o).extractLsb' 27 5 = 0#5 := ((ext_peel 19 5 _ _).trans ((ext_peel 16 5 _ _).trans ((ext_peel 15 5 _ _).trans ((ext_peel 11 5 _ _).trans ((ext_peel 7 5 _ _).trans ((ext_peel 3 5 _ _).trans ((ext_peel 2 5 _ _).trans ((ext_peel 1 5 _ _).trans ((ext_peel 0 5 _ _).trans (ext_full _))))))))))
  have h20 : (OpMmn.pack op o).extractLsb' 20 4 = o.b := ((ext_peel 12 4 _ _).trans ((ext_peel 9 4 _ _).trans ((ext_peel 8 4 _ _).trans ((ext_peel 4 4 _ _).trans ((ext_peel 0 4 _ _).trans (ext_last _ _))))))
  have h16 : (OpMmn.pack op o).extractLsb' 16 4 = o.a := ((ext_peel 8 4 _ _).trans ((ext_peel 5 4 _ _).trans ((ext_peel 4 4 _ _).trans ((ext_peel 0 4 _ _).trans (ext_last _ _)))))
  have h12 : (OpMmn.pack op o).extractLsb' 12 4 = o.d := ((ext_peel 4 4 _ _).trans ((ext_peel 1 4 _ _).trans ((ext_peel 0 4 _ _).trans (ext_last _ _))))
  have h11 : (OpMmn.pack op o).extractLsb' 11 1 = 0#1 := ((ext_peel 3 1 _ _).trans ((ext_peel 0 1 _ _).trans (ext_last _ _)))
  have h8 : (OpMmn.pack op o).extractLsb' 8 3 = o.g := ((ext_peel 0 3 _ _).trans (ext_last _ _))
  have b26 : (OpMmn.pack op o).getLsbD 26 = o.neg := ((bit_peel 18 _ _).trans ((bit_peel 15 _ _).trans ((bit_peel 14 _ _).trans ((bit_peel 10 _ _).trans ((bit_peel 6 _ _).trans ((bit_peel 2 _ _).trans ((bit_peel 1 _ _).trans ((bit_peel 0 _ _).trans (bit_last _ _)))))))))
  have b25 : (OpMmn.pack op o).getLsbD 25 = o.tb := ((bit_peel 17 _ _).trans ((bit_peel 14 _ _).trans ((bit_peel 13 _ _).trans ((bit_peel 9 _ _).trans ((bit_peel 5 _ _).trans ((bit_peel 1 _ _).trans ((bit_peel 0 _ _).trans (bit_last _ _))))))))
  have b24 : (OpMmn.pack op o).getLsbD 24 = o.ta := ((bit_peel 16 _ _).trans ((bit_peel 13 _ _).trans ((bit_peel 12 _ _).trans ((bit_peel 8 _ _).trans ((bit_peel 4 _ _).trans ((bit_peel 0 _ _).trans (bit_last _ _)))))))
  simp only [OpMmn.unpack, h27, h20, h16, h12, h11, h8, b26, b25, b24, beq_self_eq_true, Bool.and_self, if_true]

/-- The group and the function of a packed `OpMmn` bundle (R92). -/
theorem OpMmn.pack_grp (op : BitVec 8) (o : OpMmn) : (OpMmn.pack op o).extractLsb' 0 4 = op.extractLsb' 0 4 := ext_in 0 4 (by omega) _ _

theorem OpMmn.pack_fn (op : BitVec 8) (o : OpMmn) : (OpMmn.pack op o).extractLsb' 4 4 = op.extractLsb' 4 4 := ext_in 4 4 (by omega) _ _

/-- A packed `OpMad` bundle is read back (R94). -/
theorem OpMad.unpack_pack (op : BitVec 8) (o : OpMad) : OpMad.unpack (OpMad.pack op o) = .ok o := by
  have h25 : (OpMad.pack op o).extractLsb' 25 7 = 0#7 := ((ext_peel 17 7 _ _).trans ((ext_peel 14 7 _ _).trans ((ext_peel 13 7 _ _).trans ((ext_peel 9 7 _ _).trans ((ext_peel 5 7 _ _).trans ((ext_peel 1 7 _ _).trans ((ext_peel 0 7 _ _).trans (ext_full _))))))))
  have h20 : (OpMad.pack op o).extractLsb' 20 4 = o.b := ((ext_peel 12 4 _ _).trans ((ext_peel 9 4 _ _).trans ((ext_peel 8 4 _ _).trans ((ext_peel 4 4 _ _).trans ((ext_peel 0 4 _ _).trans (ext_last _ _))))))
  have h16 : (OpMad.pack op o).extractLsb' 16 4 = o.a := ((ext_peel 8 4 _ _).trans ((ext_peel 5 4 _ _).trans ((ext_peel 4 4 _ _).trans ((ext_peel 0 4 _ _).trans (ext_last _ _)))))
  have h12 : (OpMad.pack op o).extractLsb' 12 4 = o.d := ((ext_peel 4 4 _ _).trans ((ext_peel 1 4 _ _).trans ((ext_peel 0 4 _ _).trans (ext_last _ _))))
  have h11 : (OpMad.pack op o).extractLsb' 11 1 = 0#1 := ((ext_peel 3 1 _ _).trans ((ext_peel 0 1 _ _).trans (ext_last _ _)))
  have h8 : (OpMad.pack op o).extractLsb' 8 3 = o.g := ((ext_peel 0 3 _ _).trans (ext_last _ _))
  have b24 : (OpMad.pack op o).getLsbD 24 = o.sub := ((bit_peel 16 _ _).trans ((bit_peel 13 _ _).trans ((bit_peel 12 _ _).trans ((bit_peel 8 _ _).trans ((bit_peel 4 _ _).trans ((bit_peel 0 _ _).trans (bit_last _ _)))))))
  simp only [OpMad.unpack, h25, h20, h16, h12, h11, h8, b24, beq_self_eq_true, Bool.and_self, if_true]

/-- The group and the function of a packed `OpMad` bundle (R92). -/
theorem OpMad.pack_grp (op : BitVec 8) (o : OpMad) : (OpMad.pack op o).extractLsb' 0 4 = op.extractLsb' 0 4 := ext_in 0 4 (by omega) _ _

theorem OpMad.pack_fn (op : BitVec 8) (o : OpMad) : (OpMad.pack op o).extractLsb' 4 4 = op.extractLsb' 4 4 := ext_in 4 4 (by omega) _ _

/-- A packed `OpM2` bundle is read back (R94). -/
theorem OpM2.unpack_pack (op : BitVec 8) (o : OpM2) : OpM2.unpack (OpM2.pack op o) = .ok o := by
  have h20 : (OpM2.pack op o).extractLsb' 20 12 = 0#12 := ((ext_peel 12 12 _ _).trans ((ext_peel 9 12 _ _).trans ((ext_peel 8 12 _ _).trans ((ext_peel 4 12 _ _).trans ((ext_peel 0 12 _ _).trans (ext_full _))))))
  have h16 : (OpM2.pack op o).extractLsb' 16 4 = o.a := ((ext_peel 8 4 _ _).trans ((ext_peel 5 4 _ _).trans ((ext_peel 4 4 _ _).trans ((ext_peel 0 4 _ _).trans (ext_last _ _)))))
  have h12 : (OpM2.pack op o).extractLsb' 12 4 = o.d := ((ext_peel 4 4 _ _).trans ((ext_peel 1 4 _ _).trans ((ext_peel 0 4 _ _).trans (ext_last _ _))))
  have h11 : (OpM2.pack op o).extractLsb' 11 1 = 0#1 := ((ext_peel 3 1 _ _).trans ((ext_peel 0 1 _ _).trans (ext_last _ _)))
  have h8 : (OpM2.pack op o).extractLsb' 8 3 = o.g := ((ext_peel 0 3 _ _).trans (ext_last _ _))
  simp only [OpM2.unpack, h20, h16, h12, h11, h8, beq_self_eq_true, Bool.and_self, if_true]

/-- The group and the function of a packed `OpM2` bundle (R92). -/
theorem OpM2.pack_grp (op : BitVec 8) (o : OpM2) : (OpM2.pack op o).extractLsb' 0 4 = op.extractLsb' 0 4 := ext_in 0 4 (by omega) _ _

theorem OpM2.pack_fn (op : BitVec 8) (o : OpM2) : (OpM2.pack op o).extractLsb' 4 4 = op.extractLsb' 4 4 := ext_in 4 4 (by omega) _ _

/-- A packed `OpM2v` bundle is read back (R94). -/
theorem OpM2v.unpack_pack (op : BitVec 8) (o : OpM2v) : OpM2v.unpack (OpM2v.pack op o) = .ok o := by
  have h30 : (OpM2v.pack op o).extractLsb' 30 2 = 0#2 := ((ext_peel 22 2 _ _).trans ((ext_peel 19 2 _ _).trans ((ext_peel 18 2 _ _).trans ((ext_peel 14 2 _ _).trans ((ext_peel 10 2 _ _).trans ((ext_peel 6 2 _ _).trans ((ext_peel 0 2 _ _).trans (ext_full _))))))))
  have h24 : (OpM2v.pack op o).extractLsb' 24 6 = o.v := ((ext_peel 16 6 _ _).trans ((ext_peel 13 6 _ _).trans ((ext_peel 12 6 _ _).trans ((ext_peel 8 6 _ _).trans ((ext_peel 4 6 _ _).trans ((ext_peel 0 6 _ _).trans (ext_last _ _)))))))
  have h20 : (OpM2v.pack op o).extractLsb' 20 4 = 0#4 := ((ext_peel 12 4 _ _).trans ((ext_peel 9 4 _ _).trans ((ext_peel 8 4 _ _).trans ((ext_peel 4 4 _ _).trans ((ext_peel 0 4 _ _).trans (ext_last _ _))))))
  have h16 : (OpM2v.pack op o).extractLsb' 16 4 = o.a := ((ext_peel 8 4 _ _).trans ((ext_peel 5 4 _ _).trans ((ext_peel 4 4 _ _).trans ((ext_peel 0 4 _ _).trans (ext_last _ _)))))
  have h12 : (OpM2v.pack op o).extractLsb' 12 4 = o.d := ((ext_peel 4 4 _ _).trans ((ext_peel 1 4 _ _).trans ((ext_peel 0 4 _ _).trans (ext_last _ _))))
  have h11 : (OpM2v.pack op o).extractLsb' 11 1 = 0#1 := ((ext_peel 3 1 _ _).trans ((ext_peel 0 1 _ _).trans (ext_last _ _)))
  have h8 : (OpM2v.pack op o).extractLsb' 8 3 = o.g := ((ext_peel 0 3 _ _).trans (ext_last _ _))
  simp only [OpM2v.unpack, h30, h24, h20, h16, h12, h11, h8, beq_self_eq_true, Bool.and_self, if_true]

/-- The group and the function of a packed `OpM2v` bundle (R92). -/
theorem OpM2v.pack_grp (op : BitVec 8) (o : OpM2v) : (OpM2v.pack op o).extractLsb' 0 4 = op.extractLsb' 0 4 := ext_in 0 4 (by omega) _ _

theorem OpM2v.pack_fn (op : BitVec 8) (o : OpM2v) : (OpM2v.pack op o).extractLsb' 4 4 = op.extractLsb' 4 4 := ext_in 4 4 (by omega) _ _

/-- A packed `OpMsc` bundle is read back (R94). -/
theorem OpMsc.unpack_pack (op : BitVec 8) (o : OpMsc) : OpMsc.unpack (OpMsc.pack op o) = .ok o := by
  have h26 : (OpMsc.pack op o).extractLsb' 26 6 = 0#6 := ((ext_peel 18 6 _ _).trans ((ext_peel 15 6 _ _).trans ((ext_peel 14 6 _ _).trans ((ext_peel 10 6 _ _).trans ((ext_peel 6 6 _ _).trans ((ext_peel 2 6 _ _).trans ((ext_peel 0 6 _ _).trans (ext_full _))))))))
  have h24 : (OpMsc.pack op o).extractLsb' 24 2 = o.mode := ((ext_peel 16 2 _ _).trans ((ext_peel 13 2 _ _).trans ((ext_peel 12 2 _ _).trans ((ext_peel 8 2 _ _).trans ((ext_peel 4 2 _ _).trans ((ext_peel 0 2 _ _).trans (ext_last _ _)))))))
  have h20 : (OpMsc.pack op o).extractLsb' 20 4 = o.b := ((ext_peel 12 4 _ _).trans ((ext_peel 9 4 _ _).trans ((ext_peel 8 4 _ _).trans ((ext_peel 4 4 _ _).trans ((ext_peel 0 4 _ _).trans (ext_last _ _))))))
  have h16 : (OpMsc.pack op o).extractLsb' 16 4 = o.a := ((ext_peel 8 4 _ _).trans ((ext_peel 5 4 _ _).trans ((ext_peel 4 4 _ _).trans ((ext_peel 0 4 _ _).trans (ext_last _ _)))))
  have h12 : (OpMsc.pack op o).extractLsb' 12 4 = o.d := ((ext_peel 4 4 _ _).trans ((ext_peel 1 4 _ _).trans ((ext_peel 0 4 _ _).trans (ext_last _ _))))
  have h11 : (OpMsc.pack op o).extractLsb' 11 1 = 0#1 := ((ext_peel 3 1 _ _).trans ((ext_peel 0 1 _ _).trans (ext_last _ _)))
  have h8 : (OpMsc.pack op o).extractLsb' 8 3 = o.g := ((ext_peel 0 3 _ _).trans (ext_last _ _))
  simp only [OpMsc.unpack, h26, h24, h20, h16, h12, h11, h8, beq_self_eq_true, Bool.and_self, if_true]

/-- The group and the function of a packed `OpMsc` bundle (R92). -/
theorem OpMsc.pack_grp (op : BitVec 8) (o : OpMsc) : (OpMsc.pack op o).extractLsb' 0 4 = op.extractLsb' 0 4 := ext_in 0 4 (by omega) _ _

theorem OpMsc.pack_fn (op : BitVec 8) (o : OpMsc) : (OpMsc.pack op o).extractLsb' 4 4 = op.extractLsb' 4 4 := ext_in 4 4 (by omega) _ _

/-- A packed `OpM3v` bundle is read back (R94). -/
theorem OpM3v.unpack_pack (op : BitVec 8) (o : OpM3v) : OpM3v.unpack (OpM3v.pack op o) = .ok o := by
  have h30 : (OpM3v.pack op o).extractLsb' 30 2 = 0#2 := ((ext_peel 22 2 _ _).trans ((ext_peel 19 2 _ _).trans ((ext_peel 18 2 _ _).trans ((ext_peel 14 2 _ _).trans ((ext_peel 10 2 _ _).trans ((ext_peel 6 2 _ _).trans ((ext_peel 0 2 _ _).trans (ext_full _))))))))
  have h24 : (OpM3v.pack op o).extractLsb' 24 6 = o.v := ((ext_peel 16 6 _ _).trans ((ext_peel 13 6 _ _).trans ((ext_peel 12 6 _ _).trans ((ext_peel 8 6 _ _).trans ((ext_peel 4 6 _ _).trans ((ext_peel 0 6 _ _).trans (ext_last _ _)))))))
  have h20 : (OpM3v.pack op o).extractLsb' 20 4 = o.b := ((ext_peel 12 4 _ _).trans ((ext_peel 9 4 _ _).trans ((ext_peel 8 4 _ _).trans ((ext_peel 4 4 _ _).trans ((ext_peel 0 4 _ _).trans (ext_last _ _))))))
  have h16 : (OpM3v.pack op o).extractLsb' 16 4 = o.a := ((ext_peel 8 4 _ _).trans ((ext_peel 5 4 _ _).trans ((ext_peel 4 4 _ _).trans ((ext_peel 0 4 _ _).trans (ext_last _ _)))))
  have h12 : (OpM3v.pack op o).extractLsb' 12 4 = o.d := ((ext_peel 4 4 _ _).trans ((ext_peel 1 4 _ _).trans ((ext_peel 0 4 _ _).trans (ext_last _ _))))
  have h11 : (OpM3v.pack op o).extractLsb' 11 1 = 0#1 := ((ext_peel 3 1 _ _).trans ((ext_peel 0 1 _ _).trans (ext_last _ _)))
  have h8 : (OpM3v.pack op o).extractLsb' 8 3 = o.g := ((ext_peel 0 3 _ _).trans (ext_last _ _))
  simp only [OpM3v.unpack, h30, h24, h20, h16, h12, h11, h8, beq_self_eq_true, Bool.and_self, if_true]

/-- The group and the function of a packed `OpM3v` bundle (R92). -/
theorem OpM3v.pack_grp (op : BitVec 8) (o : OpM3v) : (OpM3v.pack op o).extractLsb' 0 4 = op.extractLsb' 0 4 := ext_in 0 4 (by omega) _ _

theorem OpM3v.pack_fn (op : BitVec 8) (o : OpM3v) : (OpM3v.pack op o).extractLsb' 4 4 = op.extractLsb' 4 4 := ext_in 4 4 (by omega) _ _

/-- A packed `OpMfl` bundle is read back (R94). -/
theorem OpMfl.unpack_pack (op : BitVec 8) (o : OpMfl) : OpMfl.unpack (OpMfl.pack op o) = .ok o := by
  have h31 : (OpMfl.pack op o).extractLsb' 31 1 = 0#1 := ((ext_peel 23 1 _ _).trans ((ext_peel 20 1 _ _).trans ((ext_peel 7 1 _ _).trans ((ext_peel 1 1 _ _).trans ((ext_peel 0 1 _ _).trans (ext_full _))))))
  have h24 : (OpMfl.pack op o).extractLsb' 24 6 = o.v := ((ext_peel 16 6 _ _).trans ((ext_peel 13 6 _ _).trans ((ext_peel 0 6 _ _).trans (ext_last _ _))))
  have h11 : (OpMfl.pack op o).extractLsb' 11 13 = 0#13 := ((ext_peel 3 13 _ _).trans ((ext_peel 0 13 _ _).trans (ext_last _ _)))
  have h8 : (OpMfl.pack op o).extractLsb' 8 3 = o.g := ((ext_peel 0 3 _ _).trans (ext_last _ _))
  have b30 : (OpMfl.pack op o).getLsbD 30 = o.clr := ((bit_peel 22 _ _).trans ((bit_peel 19 _ _).trans ((bit_peel 6 _ _).trans ((bit_peel 0 _ _).trans (bit_last _ _)))))
  simp only [OpMfl.unpack, h31, h24, h11, h8, b30, beq_self_eq_true, Bool.and_self, if_true]

/-- The group and the function of a packed `OpMfl` bundle (R92). -/
theorem OpMfl.pack_grp (op : BitVec 8) (o : OpMfl) : (OpMfl.pack op o).extractLsb' 0 4 = op.extractLsb' 0 4 := ext_in 0 4 (by omega) _ _

theorem OpMfl.pack_fn (op : BitVec 8) (o : OpMfl) : (OpMfl.pack op o).extractLsb' 4 4 = op.extractLsb' 4 4 := ext_in 4 4 (by omega) _ _

/-- A packed `OpMid` bundle is read back (R94). -/
theorem OpMid.unpack_pack (op : BitVec 8) (o : OpMid) : OpMid.unpack (OpMid.pack op o) = .ok o := by
  have h31 : (OpMid.pack op o).extractLsb' 31 1 = 0#1 := ((ext_peel 23 1 _ _).trans ((ext_peel 20 1 _ _).trans ((ext_peel 19 1 _ _).trans ((ext_peel 15 1 _ _).trans ((ext_peel 7 1 _ _).trans ((ext_peel 4 1 _ _).trans ((ext_peel 1 1 _ _).trans ((ext_peel 0 1 _ _).trans (ext_full _)))))))))
  have h27 : (OpMid.pack op o).extractLsb' 27 3 = 0#3 := ((ext_peel 19 3 _ _).trans ((ext_peel 16 3 _ _).trans ((ext_peel 15 3 _ _).trans ((ext_peel 11 3 _ _).trans ((ext_peel 3 3 _ _).trans ((ext_peel 0 3 _ _).trans (ext_last _ _)))))))
  have h24 : (OpMid.pack op o).extractLsb' 24 3 = o.n := ((ext_peel 16 3 _ _).trans ((ext_peel 13 3 _ _).trans ((ext_peel 12 3 _ _).trans ((ext_peel 8 3 _ _).trans ((ext_peel 0 3 _ _).trans (ext_last _ _))))))
  have h16 : (OpMid.pack op o).extractLsb' 16 8 = 0#8 := ((ext_peel 8 8 _ _).trans ((ext_peel 5 8 _ _).trans ((ext_peel 4 8 _ _).trans ((ext_peel 0 8 _ _).trans (ext_last _ _)))))
  have h12 : (OpMid.pack op o).extractLsb' 12 4 = o.d := ((ext_peel 4 4 _ _).trans ((ext_peel 1 4 _ _).trans ((ext_peel 0 4 _ _).trans (ext_last _ _))))
  have h11 : (OpMid.pack op o).extractLsb' 11 1 = 0#1 := ((ext_peel 3 1 _ _).trans ((ext_peel 0 1 _ _).trans (ext_last _ _)))
  have h8 : (OpMid.pack op o).extractLsb' 8 3 = o.g := ((ext_peel 0 3 _ _).trans (ext_last _ _))
  have b30 : (OpMid.pack op o).getLsbD 30 = o.ty := ((bit_peel 22 _ _).trans ((bit_peel 19 _ _).trans ((bit_peel 18 _ _).trans ((bit_peel 14 _ _).trans ((bit_peel 6 _ _).trans ((bit_peel 3 _ _).trans ((bit_peel 0 _ _).trans (bit_last _ _))))))))
  simp only [OpMid.unpack, h31, h27, h24, h16, h12, h11, h8, b30, beq_self_eq_true, Bool.and_self, if_true]

/-- The group and the function of a packed `OpMid` bundle (R92). -/
theorem OpMid.pack_grp (op : BitVec 8) (o : OpMid) : (OpMid.pack op o).extractLsb' 0 4 = op.extractLsb' 0 4 := ext_in 0 4 (by omega) _ _

theorem OpMid.pack_fn (op : BitVec 8) (o : OpMid) : (OpMid.pack op o).extractLsb' 4 4 = op.extractLsb' 4 4 := ext_in 4 4 (by omega) _ _

/-- A packed `OpMvv` bundle is read back (R94). -/
theorem OpMvv.unpack_pack (op : BitVec 8) (o : OpMvv) : OpMvv.unpack (OpMvv.pack op o) = .ok o := by
  have h27 : (OpMvv.pack op o).extractLsb' 27 5 = 0#5 := ((ext_peel 19 5 _ _).trans ((ext_peel 16 5 _ _).trans ((ext_peel 15 5 _ _).trans ((ext_peel 11 5 _ _).trans ((ext_peel 7 5 _ _).trans ((ext_peel 3 5 _ _).trans ((ext_peel 2 5 _ _).trans ((ext_peel 1 5 _ _).trans ((ext_peel 0 5 _ _).trans (ext_full _))))))))))
  have h20 : (OpMvv.pack op o).extractLsb' 20 4 = o.b := ((ext_peel 12 4 _ _).trans ((ext_peel 9 4 _ _).trans ((ext_peel 8 4 _ _).trans ((ext_peel 4 4 _ _).trans ((ext_peel 0 4 _ _).trans (ext_last _ _))))))
  have h16 : (OpMvv.pack op o).extractLsb' 16 4 = o.a := ((ext_peel 8 4 _ _).trans ((ext_peel 5 4 _ _).trans ((ext_peel 4 4 _ _).trans ((ext_peel 0 4 _ _).trans (ext_last _ _)))))
  have h12 : (OpMvv.pack op o).extractLsb' 12 4 = o.d := ((ext_peel 4 4 _ _).trans ((ext_peel 1 4 _ _).trans ((ext_peel 0 4 _ _).trans (ext_last _ _))))
  have h11 : (OpMvv.pack op o).extractLsb' 11 1 = 0#1 := ((ext_peel 3 1 _ _).trans ((ext_peel 0 1 _ _).trans (ext_last _ _)))
  have h8 : (OpMvv.pack op o).extractLsb' 8 3 = o.g := ((ext_peel 0 3 _ _).trans (ext_last _ _))
  have b26 : (OpMvv.pack op o).getLsbD 26 = o.neg := ((bit_peel 18 _ _).trans ((bit_peel 15 _ _).trans ((bit_peel 14 _ _).trans ((bit_peel 10 _ _).trans ((bit_peel 6 _ _).trans ((bit_peel 2 _ _).trans ((bit_peel 1 _ _).trans ((bit_peel 0 _ _).trans (bit_last _ _)))))))))
  have b25 : (OpMvv.pack op o).getLsbD 25 = o.acc := ((bit_peel 17 _ _).trans ((bit_peel 14 _ _).trans ((bit_peel 13 _ _).trans ((bit_peel 9 _ _).trans ((bit_peel 5 _ _).trans ((bit_peel 1 _ _).trans ((bit_peel 0 _ _).trans (bit_last _ _))))))))
  have b24 : (OpMvv.pack op o).getLsbD 24 = o.ta := ((bit_peel 16 _ _).trans ((bit_peel 13 _ _).trans ((bit_peel 12 _ _).trans ((bit_peel 8 _ _).trans ((bit_peel 4 _ _).trans ((bit_peel 0 _ _).trans (bit_last _ _)))))))
  simp only [OpMvv.unpack, h27, h20, h16, h12, h11, h8, b26, b25, b24, beq_self_eq_true, Bool.and_self, if_true]

/-- The group and the function of a packed `OpMvv` bundle (R92). -/
theorem OpMvv.pack_grp (op : BitVec 8) (o : OpMvv) : (OpMvv.pack op o).extractLsb' 0 4 = op.extractLsb' 0 4 := ext_in 0 4 (by omega) _ _

theorem OpMvv.pack_fn (op : BitVec 8) (o : OpMvv) : (OpMvv.pack op o).extractLsb' 4 4 = op.extractLsb' 4 4 := ext_in 4 4 (by omega) _ _

/-- A packed `OpTt` bundle is read back (R94). -/
theorem OpTt.unpack_pack (op : BitVec 8) (o : OpTt) : OpTt.unpack (OpTt.pack op o) = .ok o := by
  have h30 : (OpTt.pack op o).extractLsb' 30 2 = 2#2 := ((ext_peel 22 2 _ _).trans ((ext_peel 19 2 _ _).trans ((ext_peel 18 2 _ _).trans ((ext_peel 15 2 _ _).trans ((ext_peel 9 2 _ _).trans ((ext_peel 5 2 _ _).trans ((ext_peel 0 2 _ _).trans (ext_full _))))))))
  have h25 : (OpTt.pack op o).extractLsb' 25 5 = o.w := ((ext_peel 17 5 _ _).trans ((ext_peel 14 5 _ _).trans ((ext_peel 13 5 _ _).trans ((ext_peel 10 5 _ _).trans ((ext_peel 4 5 _ _).trans ((ext_peel 0 5 _ _).trans (ext_last _ _)))))))
  have h21 : (OpTt.pack op o).extractLsb' 21 4 = o.t := ((ext_peel 13 4 _ _).trans ((ext_peel 10 4 _ _).trans ((ext_peel 9 4 _ _).trans ((ext_peel 6 4 _ _).trans ((ext_peel 0 4 _ _).trans (ext_last _ _))))))
  have h15 : (OpTt.pack op o).extractLsb' 15 6 = 0#6 := ((ext_peel 7 6 _ _).trans ((ext_peel 4 6 _ _).trans ((ext_peel 3 6 _ _).trans ((ext_peel 0 6 _ _).trans (ext_last _ _)))))
  have h12 : (OpTt.pack op o).extractLsb' 12 3 = o.cv := ((ext_peel 4 3 _ _).trans ((ext_peel 1 3 _ _).trans ((ext_peel 0 3 _ _).trans (ext_last _ _))))
  have h11 : (OpTt.pack op o).extractLsb' 11 1 = 0#1 := ((ext_peel 3 1 _ _).trans ((ext_peel 0 1 _ _).trans (ext_last _ _)))
  have h8 : (OpTt.pack op o).extractLsb' 8 3 = o.g := ((ext_peel 0 3 _ _).trans (ext_last _ _))
  simp only [OpTt.unpack, h30, h25, h21, h15, h12, h11, h8, beq_self_eq_true, Bool.and_self, if_true]

/-- The group and the function of a packed `OpTt` bundle (R92). -/
theorem OpTt.pack_grp (op : BitVec 8) (o : OpTt) : (OpTt.pack op o).extractLsb' 0 4 = op.extractLsb' 0 4 := ext_in 0 4 (by omega) _ _

theorem OpTt.pack_fn (op : BitVec 8) (o : OpTt) : (OpTt.pack op o).extractLsb' 4 4 = op.extractLsb' 4 4 := ext_in 4 4 (by omega) _ _

/-- A packed `OpTw` bundle is read back (R94). -/
theorem OpTw.unpack_pack (op : BitVec 8) (o : OpTw) : OpTw.unpack (OpTw.pack op o) = .ok o := by
  have h30 : (OpTw.pack op o).extractLsb' 30 2 = 2#2 := ((ext_peel 22 2 _ _).trans ((ext_peel 19 2 _ _).trans ((ext_peel 18 2 _ _).trans ((ext_peel 15 2 _ _).trans ((ext_peel 5 2 _ _).trans ((ext_peel 0 2 _ _).trans (ext_full _)))))))
  have h25 : (OpTw.pack op o).extractLsb' 25 5 = o.w := ((ext_peel 17 5 _ _).trans ((ext_peel 14 5 _ _).trans ((ext_peel 13 5 _ _).trans ((ext_peel 10 5 _ _).trans ((ext_peel 0 5 _ _).trans (ext_last _ _))))))
  have h15 : (OpTw.pack op o).extractLsb' 15 10 = 0#10 := ((ext_peel 7 10 _ _).trans ((ext_peel 4 10 _ _).trans ((ext_peel 3 10 _ _).trans ((ext_peel 0 10 _ _).trans (ext_last _ _)))))
  have h12 : (OpTw.pack op o).extractLsb' 12 3 = o.cv := ((ext_peel 4 3 _ _).trans ((ext_peel 1 3 _ _).trans ((ext_peel 0 3 _ _).trans (ext_last _ _))))
  have h11 : (OpTw.pack op o).extractLsb' 11 1 = 0#1 := ((ext_peel 3 1 _ _).trans ((ext_peel 0 1 _ _).trans (ext_last _ _)))
  have h8 : (OpTw.pack op o).extractLsb' 8 3 = o.g := ((ext_peel 0 3 _ _).trans (ext_last _ _))
  simp only [OpTw.unpack, h30, h25, h15, h12, h11, h8, beq_self_eq_true, Bool.and_self, if_true]

/-- The group and the function of a packed `OpTw` bundle (R92). -/
theorem OpTw.pack_grp (op : BitVec 8) (o : OpTw) : (OpTw.pack op o).extractLsb' 0 4 = op.extractLsb' 0 4 := ext_in 0 4 (by omega) _ _

theorem OpTw.pack_fn (op : BitVec 8) (o : OpTw) : (OpTw.pack op o).extractLsb' 4 4 = op.extractLsb' 4 4 := ext_in 4 4 (by omega) _ _

/-- A packed `OpTc` bundle is read back (R94). -/
theorem OpTc.unpack_pack (op : BitVec 8) (o : OpTc) : OpTc.unpack (OpTc.pack op o) = .ok o := by
  have h25 : (OpTc.pack op o).extractLsb' 25 7 = 64#7 := ((ext_peel 17 7 _ _).trans ((ext_peel 14 7 _ _).trans ((ext_peel 13 7 _ _).trans ((ext_peel 10 7 _ _).trans ((ext_peel 0 7 _ _).trans (ext_full _))))))
  have h15 : (OpTc.pack op o).extractLsb' 15 10 = 0#10 := ((ext_peel 7 10 _ _).trans ((ext_peel 4 10 _ _).trans ((ext_peel 3 10 _ _).trans ((ext_peel 0 10 _ _).trans (ext_last _ _)))))
  have h12 : (OpTc.pack op o).extractLsb' 12 3 = o.cv := ((ext_peel 4 3 _ _).trans ((ext_peel 1 3 _ _).trans ((ext_peel 0 3 _ _).trans (ext_last _ _))))
  have h11 : (OpTc.pack op o).extractLsb' 11 1 = 0#1 := ((ext_peel 3 1 _ _).trans ((ext_peel 0 1 _ _).trans (ext_last _ _)))
  have h8 : (OpTc.pack op o).extractLsb' 8 3 = o.g := ((ext_peel 0 3 _ _).trans (ext_last _ _))
  simp only [OpTc.unpack, h25, h15, h12, h11, h8, beq_self_eq_true, Bool.and_self, if_true]

/-- The group and the function of a packed `OpTc` bundle (R92). -/
theorem OpTc.pack_grp (op : BitVec 8) (o : OpTc) : (OpTc.pack op o).extractLsb' 0 4 = op.extractLsb' 0 4 := ext_in 0 4 (by omega) _ _

theorem OpTc.pack_fn (op : BitVec 8) (o : OpTc) : (OpTc.pack op o).extractLsb' 4 4 = op.extractLsb' 4 4 := ext_in 4 4 (by omega) _ _

/-- A packed `OpTa` bundle is read back (R94). -/
theorem OpTa.unpack_pack (op : BitVec 8) (o : OpTa) : OpTa.unpack (OpTa.pack op o) = .ok o := by
  have h30 : (OpTa.pack op o).extractLsb' 30 2 = 2#2 := ((ext_peel 22 2 _ _).trans ((ext_peel 19 2 _ _).trans ((ext_peel 18 2 _ _).trans ((ext_peel 15 2 _ _).trans ((ext_peel 9 2 _ _).trans ((ext_peel 5 2 _ _).trans ((ext_peel 0 2 _ _).trans (ext_full _))))))))
  have h25 : (OpTa.pack op o).extractLsb' 25 5 = o.w := ((ext_peel 17 5 _ _).trans ((ext_peel 14 5 _ _).trans ((ext_peel 13 5 _ _).trans ((ext_peel 10 5 _ _).trans ((ext_peel 4 5 _ _).trans ((ext_peel 0 5 _ _).trans (ext_last _ _)))))))
  have h21 : (OpTa.pack op o).extractLsb' 21 4 = o.t := ((ext_peel 13 4 _ _).trans ((ext_peel 10 4 _ _).trans ((ext_peel 9 4 _ _).trans ((ext_peel 6 4 _ _).trans ((ext_peel 0 4 _ _).trans (ext_last _ _))))))
  have h15 : (OpTa.pack op o).extractLsb' 15 6 = o.ad := ((ext_peel 7 6 _ _).trans ((ext_peel 4 6 _ _).trans ((ext_peel 3 6 _ _).trans ((ext_peel 0 6 _ _).trans (ext_last _ _)))))
  have h12 : (OpTa.pack op o).extractLsb' 12 3 = o.cv := ((ext_peel 4 3 _ _).trans ((ext_peel 1 3 _ _).trans ((ext_peel 0 3 _ _).trans (ext_last _ _))))
  have h11 : (OpTa.pack op o).extractLsb' 11 1 = 0#1 := ((ext_peel 3 1 _ _).trans ((ext_peel 0 1 _ _).trans (ext_last _ _)))
  have h8 : (OpTa.pack op o).extractLsb' 8 3 = o.g := ((ext_peel 0 3 _ _).trans (ext_last _ _))
  simp only [OpTa.unpack, h30, h25, h21, h15, h12, h11, h8, beq_self_eq_true, Bool.and_self, if_true]

/-- The group and the function of a packed `OpTa` bundle (R92). -/
theorem OpTa.pack_grp (op : BitVec 8) (o : OpTa) : (OpTa.pack op o).extractLsb' 0 4 = op.extractLsb' 0 4 := ext_in 0 4 (by omega) _ _

theorem OpTa.pack_fn (op : BitVec 8) (o : OpTa) : (OpTa.pack op o).extractLsb' 4 4 = op.extractLsb' 4 4 := ext_in 4 4 (by omega) _ _

/-- A packed `OpTl` bundle is read back (R94). -/
theorem OpTl.unpack_pack (op : BitVec 8) (o : OpTl) : OpTl.unpack (OpTl.pack op o) = .ok o := by
  have h30 : (OpTl.pack op o).extractLsb' 30 2 = 2#2 := ((ext_peel 22 2 _ _).trans ((ext_peel 19 2 _ _).trans ((ext_peel 18 2 _ _).trans ((ext_peel 15 2 _ _).trans ((ext_peel 9 2 _ _).trans ((ext_peel 5 2 _ _).trans ((ext_peel 0 2 _ _).trans (ext_full _))))))))
  have h25 : (OpTl.pack op o).extractLsb' 25 5 = o.w := ((ext_peel 17 5 _ _).trans ((ext_peel 14 5 _ _).trans ((ext_peel 13 5 _ _).trans ((ext_peel 10 5 _ _).trans ((ext_peel 4 5 _ _).trans ((ext_peel 0 5 _ _).trans (ext_last _ _)))))))
  have h21 : (OpTl.pack op o).extractLsb' 21 4 = 0#4 := ((ext_peel 13 4 _ _).trans ((ext_peel 10 4 _ _).trans ((ext_peel 9 4 _ _).trans ((ext_peel 6 4 _ _).trans ((ext_peel 0 4 _ _).trans (ext_last _ _))))))
  have h15 : (OpTl.pack op o).extractLsb' 15 6 = o.ad := ((ext_peel 7 6 _ _).trans ((ext_peel 4 6 _ _).trans ((ext_peel 3 6 _ _).trans ((ext_peel 0 6 _ _).trans (ext_last _ _)))))
  have h12 : (OpTl.pack op o).extractLsb' 12 3 = o.cv := ((ext_peel 4 3 _ _).trans ((ext_peel 1 3 _ _).trans ((ext_peel 0 3 _ _).trans (ext_last _ _))))
  have h11 : (OpTl.pack op o).extractLsb' 11 1 = 0#1 := ((ext_peel 3 1 _ _).trans ((ext_peel 0 1 _ _).trans (ext_last _ _)))
  have h8 : (OpTl.pack op o).extractLsb' 8 3 = o.g := ((ext_peel 0 3 _ _).trans (ext_last _ _))
  simp only [OpTl.unpack, h30, h25, h21, h15, h12, h11, h8, beq_self_eq_true, Bool.and_self, if_true]

/-- The group and the function of a packed `OpTl` bundle (R92). -/
theorem OpTl.pack_grp (op : BitVec 8) (o : OpTl) : (OpTl.pack op o).extractLsb' 0 4 = op.extractLsb' 0 4 := ext_in 0 4 (by omega) _ _

theorem OpTl.pack_fn (op : BitVec 8) (o : OpTl) : (OpTl.pack op o).extractLsb' 4 4 = op.extractLsb' 4 4 := ext_in 4 4 (by omega) _ _

/-- A packed `OpTak` bundle is read back (R94). -/
theorem OpTak.unpack_pack (op : BitVec 8) (o : OpTak) : OpTak.unpack (OpTak.pack op o) = .ok o := by
  have h30 : (OpTak.pack op o).extractLsb' 30 2 = 2#2 := ((ext_peel 22 2 _ _).trans ((ext_peel 19 2 _ _).trans ((ext_peel 18 2 _ _).trans ((ext_peel 15 2 _ _).trans ((ext_peel 9 2 _ _).trans ((ext_peel 5 2 _ _).trans ((ext_peel 0 2 _ _).trans (ext_full _))))))))
  have h25 : (OpTak.pack op o).extractLsb' 25 5 = o.w := ((ext_peel 17 5 _ _).trans ((ext_peel 14 5 _ _).trans ((ext_peel 13 5 _ _).trans ((ext_peel 10 5 _ _).trans ((ext_peel 4 5 _ _).trans ((ext_peel 0 5 _ _).trans (ext_last _ _)))))))
  have h21 : (OpTak.pack op o).extractLsb' 21 4 = o.t := ((ext_peel 13 4 _ _).trans ((ext_peel 10 4 _ _).trans ((ext_peel 9 4 _ _).trans ((ext_peel 6 4 _ _).trans ((ext_peel 0 4 _ _).trans (ext_last _ _))))))
  have h15 : (OpTak.pack op o).extractLsb' 15 6 = o.ad := ((ext_peel 7 6 _ _).trans ((ext_peel 4 6 _ _).trans ((ext_peel 3 6 _ _).trans ((ext_peel 0 6 _ _).trans (ext_last _ _)))))
  have h12 : (OpTak.pack op o).extractLsb' 12 3 = o.cv := ((ext_peel 4 3 _ _).trans ((ext_peel 1 3 _ _).trans ((ext_peel 0 3 _ _).trans (ext_last _ _))))
  have h8 : (OpTak.pack op o).extractLsb' 8 3 = o.g := ((ext_peel 0 3 _ _).trans (ext_last _ _))
  have b11 : (OpTak.pack op o).getLsbD 11 = o.k := ((bit_peel 3 _ _).trans ((bit_peel 0 _ _).trans (bit_last _ _)))
  simp only [OpTak.unpack, h30, h25, h21, h15, h12, h8, b11, beq_self_eq_true, if_true]

/-- The group and the function of a packed `OpTak` bundle (R92). -/
theorem OpTak.pack_grp (op : BitVec 8) (o : OpTak) : (OpTak.pack op o).extractLsb' 0 4 = op.extractLsb' 0 4 := ext_in 0 4 (by omega) _ _

theorem OpTak.pack_fn (op : BitVec 8) (o : OpTak) : (OpTak.pack op o).extractLsb' 4 4 = op.extractLsb' 4 4 := ext_in 4 4 (by omega) _ _

/-- A packed `OpTtk` bundle is read back (R94). -/
theorem OpTtk.unpack_pack (op : BitVec 8) (o : OpTtk) : OpTtk.unpack (OpTtk.pack op o) = .ok o := by
  have h30 : (OpTtk.pack op o).extractLsb' 30 2 = 2#2 := ((ext_peel 22 2 _ _).trans ((ext_peel 19 2 _ _).trans ((ext_peel 18 2 _ _).trans ((ext_peel 15 2 _ _).trans ((ext_peel 9 2 _ _).trans ((ext_peel 5 2 _ _).trans ((ext_peel 0 2 _ _).trans (ext_full _))))))))
  have h25 : (OpTtk.pack op o).extractLsb' 25 5 = o.w := ((ext_peel 17 5 _ _).trans ((ext_peel 14 5 _ _).trans ((ext_peel 13 5 _ _).trans ((ext_peel 10 5 _ _).trans ((ext_peel 4 5 _ _).trans ((ext_peel 0 5 _ _).trans (ext_last _ _)))))))
  have h21 : (OpTtk.pack op o).extractLsb' 21 4 = o.t := ((ext_peel 13 4 _ _).trans ((ext_peel 10 4 _ _).trans ((ext_peel 9 4 _ _).trans ((ext_peel 6 4 _ _).trans ((ext_peel 0 4 _ _).trans (ext_last _ _))))))
  have h15 : (OpTtk.pack op o).extractLsb' 15 6 = 0#6 := ((ext_peel 7 6 _ _).trans ((ext_peel 4 6 _ _).trans ((ext_peel 3 6 _ _).trans ((ext_peel 0 6 _ _).trans (ext_last _ _)))))
  have h12 : (OpTtk.pack op o).extractLsb' 12 3 = o.cv := ((ext_peel 4 3 _ _).trans ((ext_peel 1 3 _ _).trans ((ext_peel 0 3 _ _).trans (ext_last _ _))))
  have h8 : (OpTtk.pack op o).extractLsb' 8 3 = o.g := ((ext_peel 0 3 _ _).trans (ext_last _ _))
  have b11 : (OpTtk.pack op o).getLsbD 11 = o.k := ((bit_peel 3 _ _).trans ((bit_peel 0 _ _).trans (bit_last _ _)))
  simp only [OpTtk.unpack, h30, h25, h21, h15, h12, h8, b11, beq_self_eq_true, Bool.and_self, if_true]

/-- The group and the function of a packed `OpTtk` bundle (R92). -/
theorem OpTtk.pack_grp (op : BitVec 8) (o : OpTtk) : (OpTtk.pack op o).extractLsb' 0 4 = op.extractLsb' 0 4 := ext_in 0 4 (by omega) _ _

theorem OpTtk.pack_fn (op : BitVec 8) (o : OpTtk) : (OpTtk.pack op o).extractLsb' 4 4 = op.extractLsb' 4 4 := ext_in 4 4 (by omega) _ _

/-- A packed `OpCsr` bundle is read back (R94). -/
theorem OpCsr.unpack_pack (op : BitVec 8) (o : OpCsr) : OpCsr.unpack (OpCsr.pack op o) = .ok o := by
  have h18 : (OpCsr.pack op o).extractLsb' 18 14 = o.csr := ((ext_peel 10 14 _ _).trans ((ext_peel 7 14 _ _).trans ((ext_peel 6 14 _ _).trans ((ext_peel 1 14 _ _).trans ((ext_peel 0 14 _ _).trans (ext_full _))))))
  have h17 : (OpCsr.pack op o).extractLsb' 17 1 = 0#1 := ((ext_peel 9 1 _ _).trans ((ext_peel 6 1 _ _).trans ((ext_peel 5 1 _ _).trans ((ext_peel 0 1 _ _).trans (ext_last _ _)))))
  have h12 : (OpCsr.pack op o).extractLsb' 12 5 = o.d := ((ext_peel 4 5 _ _).trans ((ext_peel 1 5 _ _).trans ((ext_peel 0 5 _ _).trans (ext_last _ _))))
  have h11 : (OpCsr.pack op o).extractLsb' 11 1 = 0#1 := ((ext_peel 3 1 _ _).trans ((ext_peel 0 1 _ _).trans (ext_last _ _)))
  have h8 : (OpCsr.pack op o).extractLsb' 8 3 = o.g := ((ext_peel 0 3 _ _).trans (ext_last _ _))
  simp only [OpCsr.unpack, h18, h17, h12, h11, h8, beq_self_eq_true, Bool.and_self, if_true]

/-- The group and the function of a packed `OpCsr` bundle (R92). -/
theorem OpCsr.pack_grp (op : BitVec 8) (o : OpCsr) : (OpCsr.pack op o).extractLsb' 0 4 = op.extractLsb' 0 4 := ext_in 0 4 (by omega) _ _

theorem OpCsr.pack_fn (op : BitVec 8) (o : OpCsr) : (OpCsr.pack op o).extractLsb' 4 4 = op.extractLsb' 4 4 := ext_in 4 4 (by omega) _ _

/-- A packed `OpUa` bundle is read back (R94). -/
theorem OpUa.unpack_pack (op : BitVec 8) (o : OpUa) : OpUa.unpack (OpUa.pack op o) = .ok o := by
  have h25 : (OpUa.pack op o).extractLsb' 25 7 = 100#7 := ((ext_peel 17 7 _ _).trans ((ext_peel 14 7 _ _).trans ((ext_peel 13 7 _ _).trans ((ext_peel 8 7 _ _).trans ((ext_peel 7 7 _ _).trans ((ext_peel 0 7 _ _).trans (ext_full _)))))))
  have h18 : (OpUa.pack op o).extractLsb' 18 7 = o.a.enc := ((ext_peel 10 7 _ _).trans ((ext_peel 7 7 _ _).trans ((ext_peel 6 7 _ _).trans ((ext_peel 1 7 _ _).trans ((ext_peel 0 7 _ _).trans (ext_last _ _))))))
  have h17 : (OpUa.pack op o).extractLsb' 17 1 = 0#1 := ((ext_peel 9 1 _ _).trans ((ext_peel 6 1 _ _).trans ((ext_peel 5 1 _ _).trans ((ext_peel 0 1 _ _).trans (ext_last _ _)))))
  have h12 : (OpUa.pack op o).extractLsb' 12 5 = o.d := ((ext_peel 4 5 _ _).trans ((ext_peel 1 5 _ _).trans ((ext_peel 0 5 _ _).trans (ext_last _ _))))
  have h8 : (OpUa.pack op o).extractLsb' 8 3 = o.g := ((ext_peel 0 3 _ _).trans (ext_last _ _))
  have b11 : (OpUa.pack op o).getLsbD 11 = o.k := ((bit_peel 3 _ _).trans ((bit_peel 0 _ _).trans (bit_last _ _)))
  simp only [OpUa.unpack, h25, h18, h17, h12, h8, b11, Src.dec_enc, beq_self_eq_true, Bool.and_self, if_true]

/-- The group and the function of a packed `OpUa` bundle (R92). -/
theorem OpUa.pack_grp (op : BitVec 8) (o : OpUa) : (OpUa.pack op o).extractLsb' 0 4 = op.extractLsb' 0 4 := ext_in 0 4 (by omega) _ _

theorem OpUa.pack_fn (op : BitVec 8) (o : OpUa) : (OpUa.pack op o).extractLsb' 4 4 = op.extractLsb' 4 4 := ext_in 4 4 (by omega) _ _

/-- A packed `OpS1g` bundle is read back (R94). -/
theorem OpS1g.unpack_pack (op : BitVec 8) (o : OpS1g) : OpS1g.unpack (OpS1g.pack op o) = .ok o := by
  have h25 : (OpS1g.pack op o).extractLsb' 25 7 = 100#7 := ((ext_peel 17 7 _ _).trans ((ext_peel 14 7 _ _).trans ((ext_peel 7 7 _ _).trans ((ext_peel 0 7 _ _).trans (ext_full _)))))
  have h18 : (OpS1g.pack op o).extractLsb' 18 7 = o.a.enc := ((ext_peel 10 7 _ _).trans ((ext_peel 7 7 _ _).trans ((ext_peel 0 7 _ _).trans (ext_last _ _))))
  have h11 : (OpS1g.pack op o).extractLsb' 11 7 = 0#7 := ((ext_peel 3 7 _ _).trans ((ext_peel 0 7 _ _).trans (ext_last _ _)))
  have h8 : (OpS1g.pack op o).extractLsb' 8 3 = o.g := ((ext_peel 0 3 _ _).trans (ext_last _ _))
  simp only [OpS1g.unpack, h25, h18, h11, h8, Src.dec_enc, beq_self_eq_true, Bool.and_self, if_true]

/-- The group and the function of a packed `OpS1g` bundle (R92). -/
theorem OpS1g.pack_grp (op : BitVec 8) (o : OpS1g) : (OpS1g.pack op o).extractLsb' 0 4 = op.extractLsb' 0 4 := ext_in 0 4 (by omega) _ _

theorem OpS1g.pack_fn (op : BitVec 8) (o : OpS1g) : (OpS1g.pack op o).extractLsb' 4 4 = op.extractLsb' 4 4 := ext_in 4 4 (by omega) _ _

/-- A packed `OpHint` bundle is read back (R94). -/
theorem OpHint.unpack_pack (op : BitVec 8) (o : OpHint) : OpHint.unpack (OpHint.pack op o) = .ok o := by
  have h8 : (OpHint.pack op o).extractLsb' 8 24 = o.p := ((ext_peel 0 24 _ _).trans (ext_full _))
  simp only [OpHint.unpack, h8]

/-- The group and the function of a packed `OpHint` bundle (R92). -/
theorem OpHint.pack_grp (op : BitVec 8) (o : OpHint) : (OpHint.pack op o).extractLsb' 0 4 = op.extractLsb' 0 4 := ext_in 0 4 (by omega) _ _

theorem OpHint.pack_fn (op : BitVec 8) (o : OpHint) : (OpHint.pack op o).extractLsb' 4 4 = op.extractLsb' 4 4 := ext_in 4 4 (by omega) _ _

/-- A packed `OpHRep` bundle is read back (R94). -/
theorem OpHRep.unpack_pack (op : BitVec 8) (o : OpHRep) : OpHRep.unpack (OpHRep.pack op o) = .ok o := by
  have h26 : (OpHRep.pack op o).extractLsb' 26 6 = 0#6 := ((ext_peel 18 6 _ _).trans ((ext_peel 12 6 _ _).trans ((ext_peel 8 6 _ _).trans ((ext_peel 4 6 _ _).trans ((ext_peel 0 6 _ _).trans (ext_full _))))))
  have h22 : (OpHRep.pack op o).extractLsb' 22 4 = o.bst := ((ext_peel 14 4 _ _).trans ((ext_peel 8 4 _ _).trans ((ext_peel 4 4 _ _).trans ((ext_peel 0 4 _ _).trans (ext_last _ _)))))
  have h18 : (OpHRep.pack op o).extractLsb' 18 4 = o.ast := ((ext_peel 10 4 _ _).trans ((ext_peel 4 4 _ _).trans ((ext_peel 0 4 _ _).trans (ext_last _ _))))
  have h14 : (OpHRep.pack op o).extractLsb' 14 4 = o.dst := ((ext_peel 6 4 _ _).trans ((ext_peel 0 4 _ _).trans (ext_last _ _)))
  have h8 : (OpHRep.pack op o).extractLsb' 8 6 = o.n := ((ext_peel 0 6 _ _).trans (ext_last _ _))
  simp only [OpHRep.unpack, h26, h22, h18, h14, h8, beq_self_eq_true, if_true]

/-- The group and the function of a packed `OpHRep` bundle (R92). -/
theorem OpHRep.pack_grp (op : BitVec 8) (o : OpHRep) : (OpHRep.pack op o).extractLsb' 0 4 = op.extractLsb' 0 4 := ext_in 0 4 (by omega) _ _

theorem OpHRep.pack_fn (op : BitVec 8) (o : OpHRep) : (OpHRep.pack op o).extractLsb' 4 4 = op.extractLsb' 4 4 := ext_in 4 4 (by omega) _ _

/-- A packed `OpHSched` bundle is read back (R94). -/
theorem OpHSched.unpack_pack (op : BitVec 8) (o : OpHSched) : OpHSched.unpack (OpHSched.pack op o) = .ok o := by
  have h17 : (OpHSched.pack op o).extractLsb' 17 15 = 0#15 := ((ext_peel 9 15 _ _).trans ((ext_peel 1 15 _ _).trans ((ext_peel 0 15 _ _).trans (ext_full _))))
  have h8 : (OpHSched.pack op o).extractLsb' 8 8 = o.stall := ((ext_peel 0 8 _ _).trans (ext_last _ _))
  have b16 : (OpHSched.pack op o).getLsbD 16 = o.yld := ((bit_peel 8 _ _).trans ((bit_peel 0 _ _).trans (bit_last _ _)))
  simp only [OpHSched.unpack, h17, h8, b16, beq_self_eq_true, if_true]

/-- The group and the function of a packed `OpHSched` bundle (R92). -/
theorem OpHSched.pack_grp (op : BitVec 8) (o : OpHSched) : (OpHSched.pack op o).extractLsb' 0 4 = op.extractLsb' 0 4 := ext_in 0 4 (by omega) _ _

theorem OpHSched.pack_fn (op : BitVec 8) (o : OpHSched) : (OpHSched.pack op o).extractLsb' 4 4 = op.extractLsb' 4 4 := ext_in 4 4 (by omega) _ _

/-- A packed `OpHMod` bundle is read back (R94). -/
theorem OpHMod.unpack_pack (op : BitVec 8) (o : OpHMod) : OpHMod.unpack (OpHMod.pack op o) = .ok o := by
  have h14 : (OpHMod.pack op o).extractLsb' 14 18 = 0#18 := ((ext_peel 6 18 _ _).trans ((ext_peel 4 18 _ _).trans ((ext_peel 3 18 _ _).trans ((ext_peel 2 18 _ _).trans ((ext_peel 0 18 _ _).trans (ext_full _))))))
  have h12 : (OpHMod.pack op o).extractLsb' 12 2 = o.cache := ((ext_peel 4 2 _ _).trans ((ext_peel 2 2 _ _).trans ((ext_peel 1 2 _ _).trans ((ext_peel 0 2 _ _).trans (ext_last _ _)))))
  have h8 : (OpHMod.pack op o).extractLsb' 8 2 = o.rm := ((ext_peel 0 2 _ _).trans (ext_last _ _))
  have b11 : (OpHMod.pack op o).getLsbD 11 = o.sat := ((bit_peel 3 _ _).trans ((bit_peel 1 _ _).trans ((bit_peel 0 _ _).trans (bit_last _ _))))
  have b10 : (OpHMod.pack op o).getLsbD 10 = o.en := ((bit_peel 2 _ _).trans ((bit_peel 0 _ _).trans (bit_last _ _)))
  simp only [OpHMod.unpack, h14, h12, h8, b11, b10, beq_self_eq_true, if_true]

/-- The group and the function of a packed `OpHMod` bundle (R92). -/
theorem OpHMod.pack_grp (op : BitVec 8) (o : OpHMod) : (OpHMod.pack op o).extractLsb' 0 4 = op.extractLsb' 0 4 := ext_in 0 4 (by omega) _ _

theorem OpHMod.pack_fn (op : BitVec 8) (o : OpHMod) : (OpHMod.pack op o).extractLsb' 4 4 = op.extractLsb' 4 4 := ext_in 4 4 (by omega) _ _

/-- A packed `OpHPrio` bundle is read back (R94). -/
theorem OpHPrio.unpack_pack (op : BitVec 8) (o : OpHPrio) : OpHPrio.unpack (OpHPrio.pack op o) = .ok o := by
  have h10 : (OpHPrio.pack op o).extractLsb' 10 22 = 0#22 := ((ext_peel 2 22 _ _).trans ((ext_peel 0 22 _ _).trans (ext_full _)))
  have h8 : (OpHPrio.pack op o).extractLsb' 8 2 = o.lvl := ((ext_peel 0 2 _ _).trans (ext_last _ _))
  simp only [OpHPrio.unpack, h10, h8, beq_self_eq_true, if_true]

/-- The group and the function of a packed `OpHPrio` bundle (R92). -/
theorem OpHPrio.pack_grp (op : BitVec 8) (o : OpHPrio) : (OpHPrio.pack op o).extractLsb' 0 4 = op.extractLsb' 0 4 := ext_in 0 4 (by omega) _ _

theorem OpHPrio.pack_fn (op : BitVec 8) (o : OpHPrio) : (OpHPrio.pack op o).extractLsb' 4 4 = op.extractLsb' 4 4 := ext_in 4 4 (by omega) _ _

/-- The selector of a packed `OpA1` bundle. -/
theorem OpA1.pack_sel (op : BitVec 8) (sel : BitVec 7) (o : OpA1) : (OpA1.pack op sel o).extractLsb' 25 7 = sel :=
  ((ext_peel 17 7 _ _).trans ((ext_peel 14 7 _ _).trans ((ext_peel 13 7 _ _).trans ((ext_peel 7 7 _ _).trans ((ext_peel 0 7 _ _).trans (ext_full _))))))

end Sys2Proof
end

