-- ==== Sys2Proof/Laws/PerInstr.lean ====
section
/-! SUPPORT. Facts about instructions as syntax, one lemma per constructor. -/

namespace Sys2Proof.Laws.Encoding

/-- A well-formed instruction that has a word is read back from it, as the first row of its word's family (R91 to R101). -/
def Statement (i : Instr) : Prop := i.isWord = true → i.wf = true → decodeWord (encode i) = .ok i.tableRow

/-- What the raw decoder answers for a word is the decoder's answer when it is well formed. -/
theorem of_raw {w : BitVec 32} {i : Instr} (h : decodeRaw w = .ok i) (hw : i.wf = true) : decodeWord w = .ok i := by
  simp only [decodeWord, h, hw, if_true]

/-- The answer of the raw decoder for a hint word (R101, R104). -/
def hintErr (r : Except DecodeErr Instr) : Except DecodeErr Instr :=
  match r with
  | .ok i => .ok i
  | .error _ => .error .badHint

theorem raw_g0 {w : BitVec 32} (h : w.extractLsb' 0 4 = 0#4) : decodeRaw w = decodeG0 (w.extractLsb' 4 4).toNat w := by
  unfold decodeRaw
  rw [h]
  rfl

theorem raw_g1 {w : BitVec 32} (h : w.extractLsb' 0 4 = 1#4) : decodeRaw w = decodeG1 (w.extractLsb' 4 4).toNat w := by
  unfold decodeRaw
  rw [h]
  rfl

theorem raw_g2 {w : BitVec 32} (h : w.extractLsb' 0 4 = 2#4) : decodeRaw w = decodeG2 (w.extractLsb' 4 4).toNat w := by
  unfold decodeRaw
  rw [h]
  rfl

theorem raw_g3 {w : BitVec 32} (h : w.extractLsb' 0 4 = 3#4) : decodeRaw w = decodeG3 (w.extractLsb' 4 4).toNat w := by
  unfold decodeRaw
  rw [h]
  rfl

theorem raw_g4 {w : BitVec 32} (h : w.extractLsb' 0 4 = 4#4) : decodeRaw w = decodeG4 (w.extractLsb' 4 4).toNat w := by
  unfold decodeRaw
  rw [h]
  rfl

theorem raw_g5 {w : BitVec 32} (h : w.extractLsb' 0 4 = 5#4) : decodeRaw w = decodeG5 (w.extractLsb' 4 4).toNat w := by
  unfold decodeRaw
  rw [h]
  rfl

theorem raw_g6 {w : BitVec 32} (h : w.extractLsb' 0 4 = 6#4) : decodeRaw w = decodeG6 (w.extractLsb' 4 4).toNat w := by
  unfold decodeRaw
  rw [h]
  rfl

theorem raw_g7 {w : BitVec 32} (h : w.extractLsb' 0 4 = 7#4) : decodeRaw w = decodeG7 (w.extractLsb' 4 4).toNat w := by
  unfold decodeRaw
  rw [h]
  rfl

theorem raw_g8 {w : BitVec 32} (h : w.extractLsb' 0 4 = 8#4) : decodeRaw w = decodeG8 (w.extractLsb' 4 4).toNat w := by
  unfold decodeRaw
  rw [h]
  rfl

theorem raw_g9 {w : BitVec 32} (h : w.extractLsb' 0 4 = 9#4) : decodeRaw w = decodeG9 (w.extractLsb' 4 4).toNat w := by
  unfold decodeRaw
  rw [h]
  rfl

theorem raw_g10 {w : BitVec 32} (h : w.extractLsb' 0 4 = 10#4) : decodeRaw w = decodeG10 (w.extractLsb' 4 4).toNat w := by
  unfold decodeRaw
  rw [h]
  rfl

theorem raw_g11 {w : BitVec 32} (h : w.extractLsb' 0 4 = 11#4) : decodeRaw w = decodeG11 (w.extractLsb' 4 4).toNat w := by
  unfold decodeRaw
  rw [h]
  rfl

theorem raw_g12 {w : BitVec 32} (h : w.extractLsb' 0 4 = 12#4) : decodeRaw w = decodeG12 (w.extractLsb' 4 4).toNat w := by
  unfold decodeRaw
  rw [h]
  rfl

theorem raw_g13 {w : BitVec 32} (h : w.extractLsb' 0 4 = 13#4) : decodeRaw w = decodeG13 (w.extractLsb' 4 4).toNat w := by
  unfold decodeRaw
  rw [h]
  rfl

theorem raw_g14 {w : BitVec 32} (h : w.extractLsb' 0 4 = 14#4) : decodeRaw w = decodeG14 (w.extractLsb' 4 4).toNat w := by
  unfold decodeRaw
  rw [h]
  rfl

theorem raw_g15 {w : BitVec 32} (h : w.extractLsb' 0 4 = 15#4) : decodeRaw w = hintErr (decodeG15 (w.extractLsb' 4 4).toNat w) := by
  unfold decodeRaw
  rw [h]
  rfl

/-- The unary selectors of group 1 (R151). -/
theorem bitu_at {w : BitVec 32} {b : BitVec 7} (h : w.extractLsb' 25 7 = b) :
    decodeBitu w = (match b.toNat with
      | 0 => (OpA1.unpack w 0#7).map .clzD
      | 1 => (OpA1.unpack w 1#7).map .ctzD
      | 2 => (OpA1.unpack w 2#7).map .popcD
      | 3 => (OpA1.unpack w 3#7).map .brevD
      | 4 => (OpA1.unpack w 4#7).map .bswapD
      | 5 => (OpA1.unpack w 5#7).map .clzW
      | 6 => (OpA1.unpack w 6#7).map .popcW
      | 7 => (OpA1.unpack w 7#7).map .sextW
      | 8 => (OpA1.unpack w 8#7).map .zextW
      | 9 => (OpA1.unpack w 9#7).map .sextH
      | 10 => (OpA1.unpack w 10#7).map .sextB
      | _ => .error .reservedSelector) := by
  unfold decodeBitu
  subst h
  rfl


theorem addD (o : OpA) : Statement (.addD o) := fun _ h => of_raw (i := .addD o)
  ((raw_g0 (OpA.pack_grp _ o)).trans ((congrArg (fun n : BitVec 4 => decodeG0 n.toNat _) (OpA.pack_fn _ o)).trans (congrArg (Except.map Instr.addD) (OpA.unpack_pack _ o)))) h

theorem addW (o : OpA) : Statement (.addW o) := fun _ h => of_raw (i := .addW o)
  ((raw_g0 (OpA.pack_grp _ o)).trans ((congrArg (fun n : BitVec 4 => decodeG0 n.toNat _) (OpA.pack_fn _ o)).trans (congrArg (Except.map Instr.addW) (OpA.unpack_pack _ o)))) h

theorem addH (o : OpA) : Statement (.addH o) := fun _ h => of_raw (i := .addH o)
  ((raw_g0 (OpA.pack_grp _ o)).trans ((congrArg (fun n : BitVec 4 => decodeG0 n.toNat _) (OpA.pack_fn _ o)).trans (congrArg (Except.map Instr.addH) (OpA.unpack_pack _ o)))) h

theorem addB (o : OpA) : Statement (.addB o) := fun _ h => of_raw (i := .addB o)
  ((raw_g0 (OpA.pack_grp _ o)).trans ((congrArg (fun n : BitVec 4 => decodeG0 n.toNat _) (OpA.pack_fn _ o)).trans (congrArg (Except.map Instr.addB) (OpA.unpack_pack _ o)))) h

theorem subD (o : OpA) : Statement (.subD o) := fun _ h => of_raw (i := .subD o)
  ((raw_g0 (OpA.pack_grp _ o)).trans ((congrArg (fun n : BitVec 4 => decodeG0 n.toNat _) (OpA.pack_fn _ o)).trans (congrArg (Except.map Instr.subD) (OpA.unpack_pack _ o)))) h

theorem subW (o : OpA) : Statement (.subW o) := fun _ h => of_raw (i := .subW o)
  ((raw_g0 (OpA.pack_grp _ o)).trans ((congrArg (fun n : BitVec 4 => decodeG0 n.toNat _) (OpA.pack_fn _ o)).trans (congrArg (Except.map Instr.subW) (OpA.unpack_pack _ o)))) h

theorem subH (o : OpA) : Statement (.subH o) := fun _ h => of_raw (i := .subH o)
  ((raw_g0 (OpA.pack_grp _ o)).trans ((congrArg (fun n : BitVec 4 => decodeG0 n.toNat _) (OpA.pack_fn _ o)).trans (congrArg (Except.map Instr.subH) (OpA.unpack_pack _ o)))) h

theorem subB (o : OpA) : Statement (.subB o) := fun _ h => of_raw (i := .subB o)
  ((raw_g0 (OpA.pack_grp _ o)).trans ((congrArg (fun n : BitVec 4 => decodeG0 n.toNat _) (OpA.pack_fn _ o)).trans (congrArg (Except.map Instr.subB) (OpA.unpack_pack _ o)))) h

theorem mulD (o : OpA) : Statement (.mulD o) := fun _ h => of_raw (i := .mulD o)
  ((raw_g0 (OpA.pack_grp _ o)).trans ((congrArg (fun n : BitVec 4 => decodeG0 n.toNat _) (OpA.pack_fn _ o)).trans (congrArg (Except.map Instr.mulD) (OpA.unpack_pack _ o)))) h

theorem mulW (o : OpA) : Statement (.mulW o) := fun _ h => of_raw (i := .mulW o)
  ((raw_g0 (OpA.pack_grp _ o)).trans ((congrArg (fun n : BitVec 4 => decodeG0 n.toNat _) (OpA.pack_fn _ o)).trans (congrArg (Except.map Instr.mulW) (OpA.unpack_pack _ o)))) h

theorem mulhD (o : OpA) : Statement (.mulhD o) := fun _ h => of_raw (i := .mulhD o)
  ((raw_g0 (OpA.pack_grp _ o)).trans ((congrArg (fun n : BitVec 4 => decodeG0 n.toNat _) (OpA.pack_fn _ o)).trans (congrArg (Except.map Instr.mulhD) (OpA.unpack_pack _ o)))) h

theorem mulhuD (o : OpA) : Statement (.mulhuD o) := fun _ h => of_raw (i := .mulhuD o)
  ((raw_g0 (OpA.pack_grp _ o)).trans ((congrArg (fun n : BitVec 4 => decodeG0 n.toNat _) (OpA.pack_fn _ o)).trans (congrArg (Except.map Instr.mulhuD) (OpA.unpack_pack _ o)))) h

theorem andD (o : OpA) : Statement (.andD o) := fun _ h => of_raw (i := .andD o)
  ((raw_g0 (OpA.pack_grp _ o)).trans ((congrArg (fun n : BitVec 4 => decodeG0 n.toNat _) (OpA.pack_fn _ o)).trans (congrArg (Except.map Instr.andD) (OpA.unpack_pack _ o)))) h

theorem orD (o : OpA) : Statement (.orD o) := fun _ h => of_raw (i := .orD o)
  ((raw_g0 (OpA.pack_grp _ o)).trans ((congrArg (fun n : BitVec 4 => decodeG0 n.toNat _) (OpA.pack_fn _ o)).trans (congrArg (Except.map Instr.orD) (OpA.unpack_pack _ o)))) h

theorem xorD (o : OpA) : Statement (.xorD o) := fun _ h => of_raw (i := .xorD o)
  ((raw_g0 (OpA.pack_grp _ o)).trans ((congrArg (fun n : BitVec 4 => decodeG0 n.toNat _) (OpA.pack_fn _ o)).trans (congrArg (Except.map Instr.xorD) (OpA.unpack_pack _ o)))) h

theorem andn (o : OpA) : Statement (.andn o) := fun _ h => of_raw (i := .andn o)
  ((raw_g0 (OpA.pack_grp _ o)).trans ((congrArg (fun n : BitVec 4 => decodeG0 n.toNat _) (OpA.pack_fn _ o)).trans (congrArg (Except.map Instr.andn) (OpA.unpack_pack _ o)))) h

theorem addsH (o : OpA) : Statement (.addsH o) := fun _ h => of_raw (i := .addsH o)
  ((raw_g1 (OpA.pack_grp _ o)).trans ((congrArg (fun n : BitVec 4 => decodeG1 n.toNat _) (OpA.pack_fn _ o)).trans (congrArg (Except.map Instr.addsH) (OpA.unpack_pack _ o)))) h

theorem subsH (o : OpA) : Statement (.subsH o) := fun _ h => of_raw (i := .subsH o)
  ((raw_g1 (OpA.pack_grp _ o)).trans ((congrArg (fun n : BitVec 4 => decodeG1 n.toNat _) (OpA.pack_fn _ o)).trans (congrArg (Except.map Instr.subsH) (OpA.unpack_pack _ o)))) h

theorem addusB (o : OpA) : Statement (.addusB o) := fun _ h => of_raw (i := .addusB o)
  ((raw_g1 (OpA.pack_grp _ o)).trans ((congrArg (fun n : BitVec 4 => decodeG1 n.toNat _) (OpA.pack_fn _ o)).trans (congrArg (Except.map Instr.addusB) (OpA.unpack_pack _ o)))) h

theorem subusB (o : OpA) : Statement (.subusB o) := fun _ h => of_raw (i := .subusB o)
  ((raw_g1 (OpA.pack_grp _ o)).trans ((congrArg (fun n : BitVec 4 => decodeG1 n.toNat _) (OpA.pack_fn _ o)).trans (congrArg (Except.map Instr.subusB) (OpA.unpack_pack _ o)))) h

theorem minH (o : OpA) : Statement (.minH o) := fun _ h => of_raw (i := .minH o)
  ((raw_g1 (OpA.pack_grp _ o)).trans ((congrArg (fun n : BitVec 4 => decodeG1 n.toNat _) (OpA.pack_fn _ o)).trans (congrArg (Except.map Instr.minH) (OpA.unpack_pack _ o)))) h

theorem maxH (o : OpA) : Statement (.maxH o) := fun _ h => of_raw (i := .maxH o)
  ((raw_g1 (OpA.pack_grp _ o)).trans ((congrArg (fun n : BitVec 4 => decodeG1 n.toNat _) (OpA.pack_fn _ o)).trans (congrArg (Except.map Instr.maxH) (OpA.unpack_pack _ o)))) h

theorem minW (o : OpA) : Statement (.minW o) := fun _ h => of_raw (i := .minW o)
  ((raw_g1 (OpA.pack_grp _ o)).trans ((congrArg (fun n : BitVec 4 => decodeG1 n.toNat _) (OpA.pack_fn _ o)).trans (congrArg (Except.map Instr.minW) (OpA.unpack_pack _ o)))) h

theorem maxW (o : OpA) : Statement (.maxW o) := fun _ h => of_raw (i := .maxW o)
  ((raw_g1 (OpA.pack_grp _ o)).trans ((congrArg (fun n : BitVec 4 => decodeG1 n.toNat _) (OpA.pack_fn _ o)).trans (congrArg (Except.map Instr.maxW) (OpA.unpack_pack _ o)))) h

theorem shlD (o : OpA) : Statement (.shlD o) := fun _ h => of_raw (i := .shlD o)
  ((raw_g1 (OpA.pack_grp _ o)).trans ((congrArg (fun n : BitVec 4 => decodeG1 n.toNat _) (OpA.pack_fn _ o)).trans (congrArg (Except.map Instr.shlD) (OpA.unpack_pack _ o)))) h

theorem shrD (o : OpA) : Statement (.shrD o) := fun _ h => of_raw (i := .shrD o)
  ((raw_g1 (OpA.pack_grp _ o)).trans ((congrArg (fun n : BitVec 4 => decodeG1 n.toNat _) (OpA.pack_fn _ o)).trans (congrArg (Except.map Instr.shrD) (OpA.unpack_pack _ o)))) h

theorem sarD (o : OpA) : Statement (.sarD o) := fun _ h => of_raw (i := .sarD o)
  ((raw_g1 (OpA.pack_grp _ o)).trans ((congrArg (fun n : BitVec 4 => decodeG1 n.toNat _) (OpA.pack_fn _ o)).trans (congrArg (Except.map Instr.sarD) (OpA.unpack_pack _ o)))) h

theorem rotD (o : OpA) : Statement (.rotD o) := fun _ h => of_raw (i := .rotD o)
  ((raw_g1 (OpA.pack_grp _ o)).trans ((congrArg (fun n : BitVec 4 => decodeG1 n.toNat _) (OpA.pack_fn _ o)).trans (congrArg (Except.map Instr.rotD) (OpA.unpack_pack _ o)))) h

theorem addiD (o : OpI) : Statement (.addiD o) := fun _ h => of_raw (i := .addiD o)
  ((raw_g1 (OpI.pack_grp _ o)).trans ((congrArg (fun n : BitVec 4 => decodeG1 n.toNat _) (OpI.pack_fn _ o)).trans (congrArg (Except.map Instr.addiD) (OpI.unpack_pack _ o)))) h

theorem addiW (o : OpI) : Statement (.addiW o) := fun _ h => of_raw (i := .addiW o)
  ((raw_g1 (OpI.pack_grp _ o)).trans ((congrArg (fun n : BitVec 4 => decodeG1 n.toNat _) (OpI.pack_fn _ o)).trans (congrArg (Except.map Instr.addiW) (OpI.unpack_pack _ o)))) h

theorem movi (o : OpMov) : Statement (.movi o) := fun _ h => of_raw (i := .movi o)
  ((raw_g1 (OpMov.pack_grp _ o)).trans ((congrArg (fun n : BitVec 4 => decodeG1 n.toNat _) (OpMov.pack_fn _ o)).trans (congrArg (Except.map Instr.movi) (OpMov.unpack_pack _ o)))) h

theorem clzD (o : OpA1) : Statement (.clzD o) := fun _ h => of_raw (i := .clzD o)
  ((raw_g1 (OpA1.pack_grp _ _ o)).trans ((congrArg (fun n : BitVec 4 => decodeG1 n.toNat _) (OpA1.pack_fn _ _ o)).trans ((bitu_at (OpA1.pack_sel _ _ o)).trans (congrArg (Except.map Instr.clzD) (OpA1.unpack_pack _ _ o))))) h

theorem ctzD (o : OpA1) : Statement (.ctzD o) := fun _ h => of_raw (i := .ctzD o)
  ((raw_g1 (OpA1.pack_grp _ _ o)).trans ((congrArg (fun n : BitVec 4 => decodeG1 n.toNat _) (OpA1.pack_fn _ _ o)).trans ((bitu_at (OpA1.pack_sel _ _ o)).trans (congrArg (Except.map Instr.ctzD) (OpA1.unpack_pack _ _ o))))) h

theorem popcD (o : OpA1) : Statement (.popcD o) := fun _ h => of_raw (i := .popcD o)
  ((raw_g1 (OpA1.pack_grp _ _ o)).trans ((congrArg (fun n : BitVec 4 => decodeG1 n.toNat _) (OpA1.pack_fn _ _ o)).trans ((bitu_at (OpA1.pack_sel _ _ o)).trans (congrArg (Except.map Instr.popcD) (OpA1.unpack_pack _ _ o))))) h

theorem brevD (o : OpA1) : Statement (.brevD o) := fun _ h => of_raw (i := .brevD o)
  ((raw_g1 (OpA1.pack_grp _ _ o)).trans ((congrArg (fun n : BitVec 4 => decodeG1 n.toNat _) (OpA1.pack_fn _ _ o)).trans ((bitu_at (OpA1.pack_sel _ _ o)).trans (congrArg (Except.map Instr.brevD) (OpA1.unpack_pack _ _ o))))) h

theorem bswapD (o : OpA1) : Statement (.bswapD o) := fun _ h => of_raw (i := .bswapD o)
  ((raw_g1 (OpA1.pack_grp _ _ o)).trans ((congrArg (fun n : BitVec 4 => decodeG1 n.toNat _) (OpA1.pack_fn _ _ o)).trans ((bitu_at (OpA1.pack_sel _ _ o)).trans (congrArg (Except.map Instr.bswapD) (OpA1.unpack_pack _ _ o))))) h

theorem clzW (o : OpA1) : Statement (.clzW o) := fun _ h => of_raw (i := .clzW o)
  ((raw_g1 (OpA1.pack_grp _ _ o)).trans ((congrArg (fun n : BitVec 4 => decodeG1 n.toNat _) (OpA1.pack_fn _ _ o)).trans ((bitu_at (OpA1.pack_sel _ _ o)).trans (congrArg (Except.map Instr.clzW) (OpA1.unpack_pack _ _ o))))) h

theorem popcW (o : OpA1) : Statement (.popcW o) := fun _ h => of_raw (i := .popcW o)
  ((raw_g1 (OpA1.pack_grp _ _ o)).trans ((congrArg (fun n : BitVec 4 => decodeG1 n.toNat _) (OpA1.pack_fn _ _ o)).trans ((bitu_at (OpA1.pack_sel _ _ o)).trans (congrArg (Except.map Instr.popcW) (OpA1.unpack_pack _ _ o))))) h

theorem sextW (o : OpA1) : Statement (.sextW o) := fun _ h => of_raw (i := .sextW o)
  ((raw_g1 (OpA1.pack_grp _ _ o)).trans ((congrArg (fun n : BitVec 4 => decodeG1 n.toNat _) (OpA1.pack_fn _ _ o)).trans ((bitu_at (OpA1.pack_sel _ _ o)).trans (congrArg (Except.map Instr.sextW) (OpA1.unpack_pack _ _ o))))) h

theorem zextW (o : OpA1) : Statement (.zextW o) := fun _ h => of_raw (i := .zextW o)
  ((raw_g1 (OpA1.pack_grp _ _ o)).trans ((congrArg (fun n : BitVec 4 => decodeG1 n.toNat _) (OpA1.pack_fn _ _ o)).trans ((bitu_at (OpA1.pack_sel _ _ o)).trans (congrArg (Except.map Instr.zextW) (OpA1.unpack_pack _ _ o))))) h

theorem sextH (o : OpA1) : Statement (.sextH o) := fun _ h => of_raw (i := .sextH o)
  ((raw_g1 (OpA1.pack_grp _ _ o)).trans ((congrArg (fun n : BitVec 4 => decodeG1 n.toNat _) (OpA1.pack_fn _ _ o)).trans ((bitu_at (OpA1.pack_sel _ _ o)).trans (congrArg (Except.map Instr.sextH) (OpA1.unpack_pack _ _ o))))) h

theorem sextB (o : OpA1) : Statement (.sextB o) := fun _ h => of_raw (i := .sextB o)
  ((raw_g1 (OpA1.pack_grp _ _ o)).trans ((congrArg (fun n : BitVec 4 => decodeG1 n.toNat _) (OpA1.pack_fn _ _ o)).trans ((bitu_at (OpA1.pack_sel _ _ o)).trans (congrArg (Except.map Instr.sextB) (OpA1.unpack_pack _ _ o))))) h

theorem faddD (o : OpA) : Statement (.faddD o) := fun _ h => of_raw (i := .faddD o)
  ((raw_g2 (OpA.pack_grp _ o)).trans ((congrArg (fun n : BitVec 4 => decodeG2 n.toNat _) (OpA.pack_fn _ o)).trans (congrArg (Except.map Instr.faddD) (OpA.unpack_pack _ o)))) h

theorem faddS (o : OpA) : Statement (.faddS o) := fun _ h => of_raw (i := .faddS o)
  ((raw_g2 (OpA.pack_grp _ o)).trans ((congrArg (fun n : BitVec 4 => decodeG2 n.toNat _) (OpA.pack_fn _ o)).trans (congrArg (Except.map Instr.faddS) (OpA.unpack_pack _ o)))) h

theorem faddH (o : OpA) : Statement (.faddH o) := fun _ h => of_raw (i := .faddH o)
  ((raw_g2 (OpA.pack_grp _ o)).trans ((congrArg (fun n : BitVec 4 => decodeG2 n.toNat _) (OpA.pack_fn _ o)).trans (congrArg (Except.map Instr.faddH) (OpA.unpack_pack _ o)))) h

theorem faddB (o : OpA) : Statement (.faddB o) := fun _ h => of_raw (i := .faddB o)
  ((raw_g2 (OpA.pack_grp _ o)).trans ((congrArg (fun n : BitVec 4 => decodeG2 n.toNat _) (OpA.pack_fn _ o)).trans (congrArg (Except.map Instr.faddB) (OpA.unpack_pack _ o)))) h

theorem fsubD (o : OpA) : Statement (.fsubD o) := fun _ h => of_raw (i := .fsubD o)
  ((raw_g2 (OpA.pack_grp _ o)).trans ((congrArg (fun n : BitVec 4 => decodeG2 n.toNat _) (OpA.pack_fn _ o)).trans (congrArg (Except.map Instr.fsubD) (OpA.unpack_pack _ o)))) h

theorem fsubS (o : OpA) : Statement (.fsubS o) := fun _ h => of_raw (i := .fsubS o)
  ((raw_g2 (OpA.pack_grp _ o)).trans ((congrArg (fun n : BitVec 4 => decodeG2 n.toNat _) (OpA.pack_fn _ o)).trans (congrArg (Except.map Instr.fsubS) (OpA.unpack_pack _ o)))) h

theorem fsubH (o : OpA) : Statement (.fsubH o) := fun _ h => of_raw (i := .fsubH o)
  ((raw_g2 (OpA.pack_grp _ o)).trans ((congrArg (fun n : BitVec 4 => decodeG2 n.toNat _) (OpA.pack_fn _ o)).trans (congrArg (Except.map Instr.fsubH) (OpA.unpack_pack _ o)))) h

theorem fsubB (o : OpA) : Statement (.fsubB o) := fun _ h => of_raw (i := .fsubB o)
  ((raw_g2 (OpA.pack_grp _ o)).trans ((congrArg (fun n : BitVec 4 => decodeG2 n.toNat _) (OpA.pack_fn _ o)).trans (congrArg (Except.map Instr.fsubB) (OpA.unpack_pack _ o)))) h

theorem fmulD (o : OpA) : Statement (.fmulD o) := fun _ h => of_raw (i := .fmulD o)
  ((raw_g2 (OpA.pack_grp _ o)).trans ((congrArg (fun n : BitVec 4 => decodeG2 n.toNat _) (OpA.pack_fn _ o)).trans (congrArg (Except.map Instr.fmulD) (OpA.unpack_pack _ o)))) h

theorem fmulS (o : OpA) : Statement (.fmulS o) := fun _ h => of_raw (i := .fmulS o)
  ((raw_g2 (OpA.pack_grp _ o)).trans ((congrArg (fun n : BitVec 4 => decodeG2 n.toNat _) (OpA.pack_fn _ o)).trans (congrArg (Except.map Instr.fmulS) (OpA.unpack_pack _ o)))) h

theorem fmulH (o : OpA) : Statement (.fmulH o) := fun _ h => of_raw (i := .fmulH o)
  ((raw_g2 (OpA.pack_grp _ o)).trans ((congrArg (fun n : BitVec 4 => decodeG2 n.toNat _) (OpA.pack_fn _ o)).trans (congrArg (Except.map Instr.fmulH) (OpA.unpack_pack _ o)))) h

theorem fmulB (o : OpA) : Statement (.fmulB o) := fun _ h => of_raw (i := .fmulB o)
  ((raw_g2 (OpA.pack_grp _ o)).trans ((congrArg (fun n : BitVec 4 => decodeG2 n.toNat _) (OpA.pack_fn _ o)).trans (congrArg (Except.map Instr.fmulB) (OpA.unpack_pack _ o)))) h

theorem ffmaD (o : OpA) : Statement (.ffmaD o) := fun _ h => of_raw (i := .ffmaD o)
  ((raw_g2 (OpA.pack_grp _ o)).trans ((congrArg (fun n : BitVec 4 => decodeG2 n.toNat _) (OpA.pack_fn _ o)).trans (congrArg (Except.map Instr.ffmaD) (OpA.unpack_pack _ o)))) h

theorem ffmaS (o : OpA) : Statement (.ffmaS o) := fun _ h => of_raw (i := .ffmaS o)
  ((raw_g2 (OpA.pack_grp _ o)).trans ((congrArg (fun n : BitVec 4 => decodeG2 n.toNat _) (OpA.pack_fn _ o)).trans (congrArg (Except.map Instr.ffmaS) (OpA.unpack_pack _ o)))) h

theorem ffmaH (o : OpA) : Statement (.ffmaH o) := fun _ h => of_raw (i := .ffmaH o)
  ((raw_g2 (OpA.pack_grp _ o)).trans ((congrArg (fun n : BitVec 4 => decodeG2 n.toNat _) (OpA.pack_fn _ o)).trans (congrArg (Except.map Instr.ffmaH) (OpA.unpack_pack _ o)))) h

theorem ffmaB (o : OpA) : Statement (.ffmaB o) := fun _ h => of_raw (i := .ffmaB o)
  ((raw_g2 (OpA.pack_grp _ o)).trans ((congrArg (fun n : BitVec 4 => decodeG2 n.toNat _) (OpA.pack_fn _ o)).trans (congrArg (Except.map Instr.ffmaB) (OpA.unpack_pack _ o)))) h

theorem fminD (o : OpA) : Statement (.fminD o) := fun _ h => of_raw (i := .fminD o)
  ((raw_g3 (OpA.pack_grp _ o)).trans ((congrArg (fun n : BitVec 4 => decodeG3 n.toNat _) (OpA.pack_fn _ o)).trans (congrArg (Except.map Instr.fminD) (OpA.unpack_pack _ o)))) h

theorem fminS (o : OpA) : Statement (.fminS o) := fun _ h => of_raw (i := .fminS o)
  ((raw_g3 (OpA.pack_grp _ o)).trans ((congrArg (fun n : BitVec 4 => decodeG3 n.toNat _) (OpA.pack_fn _ o)).trans (congrArg (Except.map Instr.fminS) (OpA.unpack_pack _ o)))) h

theorem fminH (o : OpA) : Statement (.fminH o) := fun _ h => of_raw (i := .fminH o)
  ((raw_g3 (OpA.pack_grp _ o)).trans ((congrArg (fun n : BitVec 4 => decodeG3 n.toNat _) (OpA.pack_fn _ o)).trans (congrArg (Except.map Instr.fminH) (OpA.unpack_pack _ o)))) h

theorem fmaxD (o : OpA) : Statement (.fmaxD o) := fun _ h => of_raw (i := .fmaxD o)
  ((raw_g3 (OpA.pack_grp _ o)).trans ((congrArg (fun n : BitVec 4 => decodeG3 n.toNat _) (OpA.pack_fn _ o)).trans (congrArg (Except.map Instr.fmaxD) (OpA.unpack_pack _ o)))) h

theorem fmaxS (o : OpA) : Statement (.fmaxS o) := fun _ h => of_raw (i := .fmaxS o)
  ((raw_g3 (OpA.pack_grp _ o)).trans ((congrArg (fun n : BitVec 4 => decodeG3 n.toNat _) (OpA.pack_fn _ o)).trans (congrArg (Except.map Instr.fmaxS) (OpA.unpack_pack _ o)))) h

theorem fmaxH (o : OpA) : Statement (.fmaxH o) := fun _ h => of_raw (i := .fmaxH o)
  ((raw_g3 (OpA.pack_grp _ o)).trans ((congrArg (fun n : BitVec 4 => decodeG3 n.toNat _) (OpA.pack_fn _ o)).trans (congrArg (Except.map Instr.fmaxH) (OpA.unpack_pack _ o)))) h

theorem fnmaD (o : OpA) : Statement (.fnmaD o) := fun _ h => of_raw (i := .fnmaD o)
  ((raw_g3 (OpA.pack_grp _ o)).trans ((congrArg (fun n : BitVec 4 => decodeG3 n.toNat _) (OpA.pack_fn _ o)).trans (congrArg (Except.map Instr.fnmaD) (OpA.unpack_pack _ o)))) h

theorem fnmaS (o : OpA) : Statement (.fnmaS o) := fun _ h => of_raw (i := .fnmaS o)
  ((raw_g3 (OpA.pack_grp _ o)).trans ((congrArg (fun n : BitVec 4 => decodeG3 n.toNat _) (OpA.pack_fn _ o)).trans (congrArg (Except.map Instr.fnmaS) (OpA.unpack_pack _ o)))) h

theorem fabsD (o : OpA1) : Statement (.fabsD o) := fun _ h => of_raw (i := .fabsD o)
  ((raw_g3 (OpA1.pack_grp _ _ o)).trans ((congrArg (fun n : BitVec 4 => decodeG3 n.toNat _) (OpA1.pack_fn _ _ o)).trans (congrArg (Except.map Instr.fabsD) (OpA1.unpack_pack _ _ o)))) h

theorem fabsS (o : OpA1) : Statement (.fabsS o) := fun _ h => of_raw (i := .fabsS o)
  ((raw_g3 (OpA1.pack_grp _ _ o)).trans ((congrArg (fun n : BitVec 4 => decodeG3 n.toNat _) (OpA1.pack_fn _ _ o)).trans (congrArg (Except.map Instr.fabsS) (OpA1.unpack_pack _ _ o)))) h

theorem fnegD (o : OpA1) : Statement (.fnegD o) := fun _ h => of_raw (i := .fnegD o)
  ((raw_g3 (OpA1.pack_grp _ _ o)).trans ((congrArg (fun n : BitVec 4 => decodeG3 n.toNat _) (OpA1.pack_fn _ _ o)).trans (congrArg (Except.map Instr.fnegD) (OpA1.unpack_pack _ _ o)))) h

theorem fnegS (o : OpA1) : Statement (.fnegS o) := fun _ h => of_raw (i := .fnegS o)
  ((raw_g3 (OpA1.pack_grp _ _ o)).trans ((congrArg (fun n : BitVec 4 => decodeG3 n.toNat _) (OpA1.pack_fn _ _ o)).trans (congrArg (Except.map Instr.fnegS) (OpA1.unpack_pack _ _ o)))) h

theorem fclass (o : OpCls) : Statement (.fclass o) := fun _ h => of_raw (i := .fclass o)
  ((raw_g3 (OpCls.pack_grp _ o)).trans ((congrArg (fun n : BitVec 4 => decodeG3 n.toNat _) (OpCls.pack_fn _ o)).trans (congrArg (Except.map Instr.fclass) (OpCls.unpack_pack _ o)))) h

theorem fdot2H (o : OpA) : Statement (.fdot2H o) := fun _ h => of_raw (i := .fdot2H o)
  ((raw_g3 (OpA.pack_grp _ o)).trans ((congrArg (fun n : BitVec 4 => decodeG3 n.toNat _) (OpA.pack_fn _ o)).trans (congrArg (Except.map Instr.fdot2H) (OpA.unpack_pack _ o)))) h

theorem fdot2B (o : OpA) : Statement (.fdot2B o) := fun _ h => of_raw (i := .fdot2B o)
  ((raw_g3 (OpA.pack_grp _ o)).trans ((congrArg (fun n : BitVec 4 => decodeG3 n.toNat _) (OpA.pack_fn _ o)).trans (congrArg (Except.map Instr.fdot2B) (OpA.unpack_pack _ o)))) h

theorem fscaleD (o : OpA) : Statement (.fscaleD o) := fun _ h => of_raw (i := .fscaleD o)
  ((raw_g3 (OpA.pack_grp _ o)).trans ((congrArg (fun n : BitVec 4 => decodeG3 n.toNat _) (OpA.pack_fn _ o)).trans (congrArg (Except.map Instr.fscaleD) (OpA.unpack_pack _ o)))) h

theorem icmpD (o : OpC) : Statement (.icmpD o) := fun _ h => of_raw (i := .icmpD o)
  ((raw_g4 (OpC.pack_grp _ o)).trans ((congrArg (fun n : BitVec 4 => decodeG4 n.toNat _) (OpC.pack_fn _ o)).trans (congrArg (Except.map Instr.icmpD) (OpC.unpack_pack _ o)))) h

theorem icmpW (o : OpC) : Statement (.icmpW o) := fun _ h => of_raw (i := .icmpW o)
  ((raw_g4 (OpC.pack_grp _ o)).trans ((congrArg (fun n : BitVec 4 => decodeG4 n.toNat _) (OpC.pack_fn _ o)).trans (congrArg (Except.map Instr.icmpW) (OpC.unpack_pack _ o)))) h

theorem fcmpD (o : OpC) : Statement (.fcmpD o) := fun _ h => of_raw (i := .fcmpD o)
  ((raw_g4 (OpC.pack_grp _ o)).trans ((congrArg (fun n : BitVec 4 => decodeG4 n.toNat _) (OpC.pack_fn _ o)).trans (congrArg (Except.map Instr.fcmpD) (OpC.unpack_pack _ o)))) h

theorem fcmpS (o : OpC) : Statement (.fcmpS o) := fun _ h => of_raw (i := .fcmpS o)
  ((raw_g4 (OpC.pack_grp _ o)).trans ((congrArg (fun n : BitVec 4 => decodeG4 n.toNat _) (OpC.pack_fn _ o)).trans (congrArg (Except.map Instr.fcmpS) (OpC.unpack_pack _ o)))) h

theorem icmpiD (o : OpCI) : Statement (.icmpiD o) := fun _ h => of_raw (i := .icmpiD o)
  ((raw_g4 (OpCI.pack_grp _ o)).trans ((congrArg (fun n : BitVec 4 => decodeG4 n.toNat _) (OpCI.pack_fn _ o)).trans (congrArg (Except.map Instr.icmpiD) (OpCI.unpack_pack _ o)))) h

theorem pand (o : OpP) : Statement (.pand o) := fun _ h => of_raw (i := .pand o)
  ((raw_g4 (OpP.pack_grp _ o)).trans ((congrArg (fun n : BitVec 4 => decodeG4 n.toNat _) (OpP.pack_fn _ o)).trans (congrArg (Except.map Instr.pand) (OpP.unpack_pack _ o)))) h

theorem por (o : OpP) : Statement (.por o) := fun _ h => of_raw (i := .por o)
  ((raw_g4 (OpP.pack_grp _ o)).trans ((congrArg (fun n : BitVec 4 => decodeG4 n.toNat _) (OpP.pack_fn _ o)).trans (congrArg (Except.map Instr.por) (OpP.unpack_pack _ o)))) h

theorem pxor (o : OpP) : Statement (.pxor o) := fun _ h => of_raw (i := .pxor o)
  ((raw_g4 (OpP.pack_grp _ o)).trans ((congrArg (fun n : BitVec 4 => decodeG4 n.toNat _) (OpP.pack_fn _ o)).trans (congrArg (Except.map Instr.pxor) (OpP.unpack_pack _ o)))) h

theorem pnot (o : OpP1) : Statement (.pnot o) := fun _ h => of_raw (i := .pnot o)
  ((raw_g4 (OpP1.pack_grp _ o)).trans ((congrArg (fun n : BitVec 4 => decodeG4 n.toNat _) (OpP1.pack_fn _ o)).trans (congrArg (Except.map Instr.pnot) (OpP1.unpack_pack _ o)))) h

theorem sel (o : OpA) : Statement (.sel o) := fun _ h => of_raw (i := .sel o)
  ((raw_g4 (OpA.pack_grp _ o)).trans ((congrArg (fun n : BitVec 4 => decodeG4 n.toNat _) (OpA.pack_fn _ o)).trans (congrArg (Except.map Instr.sel) (OpA.unpack_pack _ o)))) h

theorem ptov (o : OpD) : Statement (.ptov o) := fun _ h => of_raw (i := .ptov o)
  ((raw_g4 (OpD.pack_grp _ o)).trans ((congrArg (fun n : BitVec 4 => decodeG4 n.toNat _) (OpD.pack_fn _ o)).trans (congrArg (Except.map Instr.ptov) (OpD.unpack_pack _ o)))) h

theorem vtop (o : OpVt) : Statement (.vtop o) := fun _ h => of_raw (i := .vtop o)
  ((raw_g4 (OpVt.pack_grp _ o)).trans ((congrArg (fun n : BitVec 4 => decodeG4 n.toNat _) (OpVt.pack_fn _ o)).trans (congrArg (Except.map Instr.vtop) (OpVt.unpack_pack _ o)))) h

theorem vcmpmH (o : OpC) : Statement (.vcmpmH o) := fun _ h => of_raw (i := .vcmpmH o)
  ((raw_g4 (OpC.pack_grp _ o)).trans ((congrArg (fun n : BitVec 4 => decodeG4 n.toNat _) (OpC.pack_fn _ o)).trans (congrArg (Except.map Instr.vcmpmH) (OpC.unpack_pack _ o)))) h

theorem vcmpmB (o : OpC) : Statement (.vcmpmB o) := fun _ h => of_raw (i := .vcmpmB o)
  ((raw_g4 (OpC.pack_grp _ o)).trans ((congrArg (fun n : BitVec 4 => decodeG4 n.toNat _) (OpC.pack_fn _ o)).trans (congrArg (Except.map Instr.vcmpmB) (OpC.unpack_pack _ o)))) h

theorem fcmpmH (o : OpC) : Statement (.fcmpmH o) := fun _ h => of_raw (i := .fcmpmH o)
  ((raw_g4 (OpC.pack_grp _ o)).trans ((congrArg (fun n : BitVec 4 => decodeG4 n.toNat _) (OpC.pack_fn _ o)).trans (congrArg (Except.map Instr.fcmpmH) (OpC.unpack_pack _ o)))) h

theorem cvt (o : OpCvt) : Statement (.cvt o) := fun _ h => of_raw (i := .cvt o)
  ((raw_g5 (OpCvt.pack_grp _ o)).trans ((congrArg (fun n : BitVec 4 => decodeG5 n.toNat _) (OpCvt.pack_fn _ o)).trans (congrArg (Except.map Instr.cvt) (OpCvt.unpack_pack _ o)))) h

theorem cvtq (o : Op5) : Statement (.cvtq o) := fun _ h => of_raw (i := .cvtq o)
  ((raw_g5 (Op5.pack_grp _ o)).trans ((congrArg (fun n : BitVec 4 => decodeG5 n.toNat _) (Op5.pack_fn _ o)).trans (congrArg (Except.map Instr.cvtq) (Op5.unpack_pack _ o)))) h

theorem deq (o : Op5) : Statement (.deq o) := fun _ h => of_raw (i := .deq o)
  ((raw_g5 (Op5.pack_grp _ o)).trans ((congrArg (fun n : BitVec 4 => decodeG5 n.toNat _) (Op5.pack_fn _ o)).trans (congrArg (Except.map Instr.deq) (Op5.unpack_pack _ o)))) h

theorem fdivD (o : Op5) : Statement (.fdivD o) := fun _ h => of_raw (i := .fdivD o)
  ((raw_g5 (Op5.pack_grp _ o)).trans ((congrArg (fun n : BitVec 4 => decodeG5 n.toNat _) (Op5.pack_fn _ o)).trans (congrArg (Except.map Instr.fdivD) (Op5.unpack_pack _ o)))) h

theorem fdivS (o : Op5) : Statement (.fdivS o) := fun _ h => of_raw (i := .fdivS o)
  ((raw_g5 (Op5.pack_grp _ o)).trans ((congrArg (fun n : BitVec 4 => decodeG5 n.toNat _) (Op5.pack_fn _ o)).trans (congrArg (Except.map Instr.fdivS) (Op5.unpack_pack _ o)))) h

theorem fsqrtD (o : Op51) : Statement (.fsqrtD o) := fun _ h => of_raw (i := .fsqrtD o)
  ((raw_g5 (Op51.pack_grp _ o)).trans ((congrArg (fun n : BitVec 4 => decodeG5 n.toNat _) (Op51.pack_fn _ o)).trans (congrArg (Except.map Instr.fsqrtD) (Op51.unpack_pack _ o)))) h

theorem fsqrtS (o : Op51) : Statement (.fsqrtS o) := fun _ h => of_raw (i := .fsqrtS o)
  ((raw_g5 (Op51.pack_grp _ o)).trans ((congrArg (fun n : BitVec 4 => decodeG5 n.toNat _) (Op51.pack_fn _ o)).trans (congrArg (Except.map Instr.fsqrtS) (Op51.unpack_pack _ o)))) h

theorem frcpS (o : Op51) : Statement (.frcpS o) := fun _ h => of_raw (i := .frcpS o)
  ((raw_g5 (Op51.pack_grp _ o)).trans ((congrArg (fun n : BitVec 4 => decodeG5 n.toNat _) (Op51.pack_fn _ o)).trans (congrArg (Except.map Instr.frcpS) (Op51.unpack_pack _ o)))) h

theorem frsqS (o : Op51) : Statement (.frsqS o) := fun _ h => of_raw (i := .frsqS o)
  ((raw_g5 (Op51.pack_grp _ o)).trans ((congrArg (fun n : BitVec 4 => decodeG5 n.toNat _) (Op51.pack_fn _ o)).trans (congrArg (Except.map Instr.frsqS) (Op51.unpack_pack _ o)))) h

theorem fexp2S (o : Op51) : Statement (.fexp2S o) := fun _ h => of_raw (i := .fexp2S o)
  ((raw_g5 (Op51.pack_grp _ o)).trans ((congrArg (fun n : BitVec 4 => decodeG5 n.toNat _) (Op51.pack_fn _ o)).trans (congrArg (Except.map Instr.fexp2S) (Op51.unpack_pack _ o)))) h

theorem flog2S (o : Op51) : Statement (.flog2S o) := fun _ h => of_raw (i := .flog2S o)
  ((raw_g5 (Op51.pack_grp _ o)).trans ((congrArg (fun n : BitVec 4 => decodeG5 n.toNat _) (Op51.pack_fn _ o)).trans (congrArg (Except.map Instr.flog2S) (Op51.unpack_pack _ o)))) h

theorem fsinpS (o : Op51) : Statement (.fsinpS o) := fun _ h => of_raw (i := .fsinpS o)
  ((raw_g5 (Op51.pack_grp _ o)).trans ((congrArg (fun n : BitVec 4 => decodeG5 n.toNat _) (Op51.pack_fn _ o)).trans (congrArg (Except.map Instr.fsinpS) (Op51.unpack_pack _ o)))) h

theorem fcospS (o : Op51) : Statement (.fcospS o) := fun _ h => of_raw (i := .fcospS o)
  ((raw_g5 (Op51.pack_grp _ o)).trans ((congrArg (fun n : BitVec 4 => decodeG5 n.toNat _) (Op51.pack_fn _ o)).trans (congrArg (Except.map Instr.fcospS) (Op51.unpack_pack _ o)))) h

theorem ftanhS (o : Op51) : Statement (.ftanhS o) := fun _ h => of_raw (i := .ftanhS o)
  ((raw_g5 (Op51.pack_grp _ o)).trans ((congrArg (fun n : BitVec 4 => decodeG5 n.toNat _) (Op51.pack_fn _ o)).trans (congrArg (Except.map Instr.ftanhS) (Op51.unpack_pack _ o)))) h

theorem idivD (o : Op5) : Statement (.idivD o) := fun _ h => of_raw (i := .idivD o)
  ((raw_g5 (Op5.pack_grp _ o)).trans ((congrArg (fun n : BitVec 4 => decodeG5 n.toNat _) (Op5.pack_fn _ o)).trans (congrArg (Except.map Instr.idivD) (Op5.unpack_pack _ o)))) h

theorem idivuD (o : Op5) : Statement (.idivuD o) := fun _ h => of_raw (i := .idivuD o)
  ((raw_g5 (Op5.pack_grp _ o)).trans ((congrArg (fun n : BitVec 4 => decodeG5 n.toNat _) (Op5.pack_fn _ o)).trans (congrArg (Except.map Instr.idivuD) (Op5.unpack_pack _ o)))) h

theorem permD (o : OpA) : Statement (.permD o) := fun _ h => of_raw (i := .permD o)
  ((raw_g6 (OpA.pack_grp _ o)).trans ((congrArg (fun n : BitVec 4 => decodeG6 n.toNat _) (OpA.pack_fn _ o)).trans (congrArg (Except.map Instr.permD) (OpA.unpack_pack _ o)))) h

theorem permW (o : OpA) : Statement (.permW o) := fun _ h => of_raw (i := .permW o)
  ((raw_g6 (OpA.pack_grp _ o)).trans ((congrArg (fun n : BitVec 4 => decodeG6 n.toNat _) (OpA.pack_fn _ o)).trans (congrArg (Except.map Instr.permW) (OpA.unpack_pack _ o)))) h

theorem permH (o : OpA) : Statement (.permH o) := fun _ h => of_raw (i := .permH o)
  ((raw_g6 (OpA.pack_grp _ o)).trans ((congrArg (fun n : BitVec 4 => decodeG6 n.toNat _) (OpA.pack_fn _ o)).trans (congrArg (Except.map Instr.permH) (OpA.unpack_pack _ o)))) h

theorem permB (o : OpA) : Statement (.permB o) := fun _ h => of_raw (i := .permB o)
  ((raw_g6 (OpA.pack_grp _ o)).trans ((congrArg (fun n : BitVec 4 => decodeG6 n.toNat _) (OpA.pack_fn _ o)).trans (congrArg (Except.map Instr.permB) (OpA.unpack_pack _ o)))) h

theorem bcast (o : OpA) : Statement (.bcast o) := fun _ h => of_raw (i := .bcast o)
  ((raw_g6 (OpA.pack_grp _ o)).trans ((congrArg (fun n : BitVec 4 => decodeG6 n.toNat _) (OpA.pack_fn _ o)).trans (congrArg (Except.map Instr.bcast) (OpA.unpack_pack _ o)))) h

theorem rotxH (o : OpA) : Statement (.rotxH o) := fun _ h => of_raw (i := .rotxH o)
  ((raw_g6 (OpA.pack_grp _ o)).trans ((congrArg (fun n : BitVec 4 => decodeG6 n.toNat _) (OpA.pack_fn _ o)).trans (congrArg (Except.map Instr.rotxH) (OpA.unpack_pack _ o)))) h

theorem ballot (o : OpA1) : Statement (.ballot o) := fun _ h => of_raw (i := .ballot o)
  ((raw_g6 (OpA1.pack_grp _ _ o)).trans ((congrArg (fun n : BitVec 4 => decodeG6 n.toNat _) (OpA1.pack_fn _ _ o)).trans (congrArg (Except.map Instr.ballot) (OpA1.unpack_pack _ _ o)))) h

theorem vote (o : OpVote) : Statement (.vote o) := fun _ h => of_raw (i := .vote o)
  ((raw_g6 (OpVote.pack_grp _ o)).trans ((congrArg (fun n : BitVec 4 => decodeG6 n.toNat _) (OpVote.pack_fn _ o)).trans (congrArg (Except.map Instr.vote) (OpVote.unpack_pack _ o)))) h

theorem redadd (o : OpA1) : Statement (.redadd o) := fun _ h => of_raw (i := .redadd o)
  ((raw_g6 (OpA1.pack_grp _ _ o)).trans ((congrArg (fun n : BitVec 4 => decodeG6 n.toNat _) (OpA1.pack_fn _ _ o)).trans (congrArg (Except.map Instr.redadd) (OpA1.unpack_pack _ _ o)))) h

theorem redmin (o : OpA1) : Statement (.redmin o) := fun _ h => of_raw (i := .redmin o)
  ((raw_g6 (OpA1.pack_grp _ _ o)).trans ((congrArg (fun n : BitVec 4 => decodeG6 n.toNat _) (OpA1.pack_fn _ _ o)).trans (congrArg (Except.map Instr.redmin) (OpA1.unpack_pack _ _ o)))) h

theorem redmax (o : OpA1) : Statement (.redmax o) := fun _ h => of_raw (i := .redmax o)
  ((raw_g6 (OpA1.pack_grp _ _ o)).trans ((congrArg (fun n : BitVec 4 => decodeG6 n.toNat _) (OpA1.pack_fn _ _ o)).trans (congrArg (Except.map Instr.redmax) (OpA1.unpack_pack _ _ o)))) h

theorem scanadd (o : OpA1) : Statement (.scanadd o) := fun _ h => of_raw (i := .scanadd o)
  ((raw_g6 (OpA1.pack_grp _ _ o)).trans ((congrArg (fun n : BitVec 4 => decodeG6 n.toNat _) (OpA1.pack_fn _ _ o)).trans (congrArg (Except.map Instr.scanadd) (OpA1.unpack_pack _ _ o)))) h

theorem matchD (o : OpA1) : Statement (.matchD o) := fun _ h => of_raw (i := .matchD o)
  ((raw_g6 (OpA1.pack_grp _ _ o)).trans ((congrArg (fun n : BitVec 4 => decodeG6 n.toNat _) (OpA1.pack_fn _ _ o)).trans (congrArg (Except.map Instr.matchD) (OpA1.unpack_pack _ _ o)))) h

theorem matchS (o : OpA1) : Statement (.matchS o) := fun _ h => of_raw (i := .matchS o)
  ((raw_g6 (OpA1.pack_grp _ _ o)).trans ((congrArg (fun n : BitVec 4 => decodeG6 n.toNat _) (OpA1.pack_fn _ _ o)).trans (congrArg (Except.map Instr.matchS) (OpA1.unpack_pack _ _ o)))) h

theorem subperm (o : OpA) : Statement (.subperm o) := fun _ h => of_raw (i := .subperm o)
  ((raw_g6 (OpA.pack_grp _ o)).trans ((congrArg (fun n : BitVec 4 => decodeG6 n.toNat _) (OpA.pack_fn _ o)).trans (congrArg (Except.map Instr.subperm) (OpA.unpack_pack _ o)))) h

theorem lanemask (o : OpA1) : Statement (.lanemask o) := fun _ h => of_raw (i := .lanemask o)
  ((raw_g6 (OpA1.pack_grp _ _ o)).trans ((congrArg (fun n : BitVec 4 => decodeG6 n.toNat _) (OpA1.pack_fn _ _ o)).trans (congrArg (Except.map Instr.lanemask) (OpA1.unpack_pack _ _ o)))) h

theorem uadd (o : OpU) : Statement (.uadd o) := fun _ h => of_raw (i := .uadd o)
  ((raw_g7 (OpU.pack_grp _ o)).trans ((congrArg (fun n : BitVec 4 => decodeG7 n.toNat _) (OpU.pack_fn _ o)).trans (congrArg (Except.map Instr.uadd) (OpU.unpack_pack _ o)))) h

theorem usub (o : OpU) : Statement (.usub o) := fun _ h => of_raw (i := .usub o)
  ((raw_g7 (OpU.pack_grp _ o)).trans ((congrArg (fun n : BitVec 4 => decodeG7 n.toNat _) (OpU.pack_fn _ o)).trans (congrArg (Except.map Instr.usub) (OpU.unpack_pack _ o)))) h

theorem umul (o : OpU) : Statement (.umul o) := fun _ h => of_raw (i := .umul o)
  ((raw_g7 (OpU.pack_grp _ o)).trans ((congrArg (fun n : BitVec 4 => decodeG7 n.toNat _) (OpU.pack_fn _ o)).trans (congrArg (Except.map Instr.umul) (OpU.unpack_pack _ o)))) h

theorem uand (o : OpU) : Statement (.uand o) := fun _ h => of_raw (i := .uand o)
  ((raw_g7 (OpU.pack_grp _ o)).trans ((congrArg (fun n : BitVec 4 => decodeG7 n.toNat _) (OpU.pack_fn _ o)).trans (congrArg (Except.map Instr.uand) (OpU.unpack_pack _ o)))) h

theorem uor (o : OpU) : Statement (.uor o) := fun _ h => of_raw (i := .uor o)
  ((raw_g7 (OpU.pack_grp _ o)).trans ((congrArg (fun n : BitVec 4 => decodeG7 n.toNat _) (OpU.pack_fn _ o)).trans (congrArg (Except.map Instr.uor) (OpU.unpack_pack _ o)))) h

theorem uxor (o : OpU) : Statement (.uxor o) := fun _ h => of_raw (i := .uxor o)
  ((raw_g7 (OpU.pack_grp _ o)).trans ((congrArg (fun n : BitVec 4 => decodeG7 n.toNat _) (OpU.pack_fn _ o)).trans (congrArg (Except.map Instr.uxor) (OpU.unpack_pack _ o)))) h

theorem ushl (o : OpU) : Statement (.ushl o) := fun _ h => of_raw (i := .ushl o)
  ((raw_g7 (OpU.pack_grp _ o)).trans ((congrArg (fun n : BitVec 4 => decodeG7 n.toNat _) (OpU.pack_fn _ o)).trans (congrArg (Except.map Instr.ushl) (OpU.unpack_pack _ o)))) h

theorem ushr (o : OpU) : Statement (.ushr o) := fun _ h => of_raw (i := .ushr o)
  ((raw_g7 (OpU.pack_grp _ o)).trans ((congrArg (fun n : BitVec 4 => decodeG7 n.toNat _) (OpU.pack_fn _ o)).trans (congrArg (Except.map Instr.ushr) (OpU.unpack_pack _ o)))) h

theorem usar (o : OpU) : Statement (.usar o) := fun _ h => of_raw (i := .usar o)
  ((raw_g7 (OpU.pack_grp _ o)).trans ((congrArg (fun n : BitVec 4 => decodeG7 n.toNat _) (OpU.pack_fn _ o)).trans (congrArg (Except.map Instr.usar) (OpU.unpack_pack _ o)))) h

theorem uaddi (o : OpUI) : Statement (.uaddi o) := fun _ h => of_raw (i := .uaddi o)
  ((raw_g7 (OpUI.pack_grp _ o)).trans ((congrArg (fun n : BitVec 4 => decodeG7 n.toNat _) (OpUI.pack_fn _ o)).trans (congrArg (Except.map Instr.uaddi) (OpUI.unpack_pack _ o)))) h

theorem umovi (o : OpUMov) : Statement (.umovi o) := fun _ h => of_raw (i := .umovi o)
  ((raw_g7 (OpUMov.pack_grp _ o)).trans ((congrArg (fun n : BitVec 4 => decodeG7 n.toNat _) (OpUMov.pack_fn _ o)).trans (congrArg (Except.map Instr.umovi) (OpUMov.unpack_pack _ o)))) h

theorem umovh (o : OpUI) : Statement (.umovh o) := fun _ h => of_raw (i := .umovh o)
  ((raw_g7 (OpUI.pack_grp _ o)).trans ((congrArg (fun n : BitVec 4 => decodeG7 n.toNat _) (OpUI.pack_fn _ o)).trans (congrArg (Except.map Instr.umovh) (OpUI.unpack_pack _ o)))) h

theorem ucmp (o : OpC) : Statement (.ucmp o) := fun _ h => of_raw (i := .ucmp o)
  ((raw_g7 (OpC.pack_grp _ o)).trans ((congrArg (fun n : BitVec 4 => decodeG7 n.toNat _) (OpC.pack_fn _ o)).trans (congrArg (Except.map Instr.ucmp) (OpC.unpack_pack _ o)))) h

theorem umin (o : OpU) : Statement (.umin o) := fun _ h => of_raw (i := .umin o)
  ((raw_g7 (OpU.pack_grp _ o)).trans ((congrArg (fun n : BitVec 4 => decodeG7 n.toNat _) (OpU.pack_fn _ o)).trans (congrArg (Except.map Instr.umin) (OpU.unpack_pack _ o)))) h

theorem umax (o : OpU) : Statement (.umax o) := fun _ h => of_raw (i := .umax o)
  ((raw_g7 (OpU.pack_grp _ o)).trans ((congrArg (fun n : BitVec 4 => decodeG7 n.toNat _) (OpU.pack_fn _ o)).trans (congrArg (Except.map Instr.umax) (OpU.unpack_pack _ o)))) h

theorem uread (o : OpU) : Statement (.uread o) := fun _ h => of_raw (i := .uread o)
  ((raw_g7 (OpU.pack_grp _ o)).trans ((congrArg (fun n : BitVec 4 => decodeG7 n.toNat _) (OpU.pack_fn _ o)).trans (congrArg (Except.map Instr.uread) (OpU.unpack_pack _ o)))) h

theorem bra (o : OpB) : Statement (.bra o) := fun _ h => of_raw (i := .bra o)
  ((raw_g8 (OpB.pack_grp _ o)).trans ((congrArg (fun n : BitVec 4 => decodeG8 n.toNat _) (OpB.pack_fn _ o)).trans (congrArg (Except.map Instr.bra) (OpB.unpack_pack _ o)))) h

theorem brx (o : OpJ) : Statement (.brx o) := fun _ h => of_raw (i := .brx o)
  ((raw_g8 (OpJ.pack_grp _ o)).trans ((congrArg (fun n : BitVec 4 => decodeG8 n.toNat _) (OpJ.pack_fn _ o)).trans (congrArg (Except.map Instr.brx) (OpJ.unpack_pack _ o)))) h

theorem call (o : OpB) : Statement (.call o) := fun _ h => of_raw (i := .call o)
  ((raw_g8 (OpB.pack_grp _ o)).trans ((congrArg (fun n : BitVec 4 => decodeG8 n.toNat _) (OpB.pack_fn _ o)).trans (congrArg (Except.map Instr.call) (OpB.unpack_pack _ o)))) h

theorem ret (o : OpJ) : Statement (.ret o) := fun _ h => of_raw (i := .ret o)
  ((raw_g8 (OpJ.pack_grp _ o)).trans ((congrArg (fun n : BitVec 4 => decodeG8 n.toNat _) (OpJ.pack_fn _ o)).trans (congrArg (Except.map Instr.ret) (OpJ.unpack_pack _ o)))) h

theorem fspawn (o : OpU) : Statement (.fspawn o) := fun _ h => of_raw (i := .fspawn o)
  ((raw_g8 (OpU.pack_grp _ o)).trans ((congrArg (fun n : BitVec 4 => decodeG8 n.toNat _) (OpU.pack_fn _ o)).trans (congrArg (Except.map Instr.fspawn) (OpU.unpack_pack _ o)))) h

theorem fend (o : OpG) : Statement (.fend o) := fun _ h => of_raw (i := .fend o)
  ((raw_g8 (OpG.pack_grp _ o)).trans ((congrArg (fun n : BitVec 4 => decodeG8 n.toNat _) (OpG.pack_fn _ o)).trans (congrArg (Except.map Instr.fend) (OpG.unpack_pack _ o)))) h

theorem syncm (o : OpS1) : Statement (.syncm o) := fun _ h => of_raw (i := .syncm o)
  ((raw_g8 (OpS1.pack_grp _ o)).trans ((congrArg (fun n : BitVec 4 => decodeG8 n.toNat _) (OpS1.pack_fn _ o)).trans (congrArg (Except.map Instr.syncm) (OpS1.unpack_pack _ o)))) h

theorem cvset (o : OpCv) : Statement (.cvset o) := fun _ h => of_raw (i := .cvset o)
  ((raw_g8 (OpCv.pack_grp _ o)).trans ((congrArg (fun n : BitVec 4 => decodeG8 n.toNat _) (OpCv.pack_fn _ o)).trans (congrArg (Except.map Instr.cvset) (OpCv.unpack_pack _ o)))) h

theorem bara (o : OpBar) : Statement (.bara o) := fun _ h => of_raw (i := .bara o)
  ((raw_g8 (OpBar.pack_grp _ o)).trans ((congrArg (fun n : BitVec 4 => decodeG8 n.toNat _) (OpBar.pack_fn _ o)).trans (congrArg (Except.map Instr.bara) (OpBar.unpack_pack _ o)))) h

theorem barw (o : OpS2) : Statement (.barw o) := fun _ h => of_raw (i := .barw o)
  ((raw_g8 (OpS2.pack_grp _ o)).trans ((congrArg (fun n : BitVec 4 => decodeG8 n.toNat _) (OpS2.pack_fn _ o)).trans (congrArg (Except.map Instr.barw) (OpS2.unpack_pack _ o)))) h

theorem region (o : OpRg) : Statement (.region o) := fun _ h => of_raw (i := .region o)
  ((raw_g8 (OpRg.pack_grp _ o)).trans ((congrArg (fun n : BitVec 4 => decodeG8 n.toNat _) (OpRg.pack_fn _ o)).trans (congrArg (Except.map Instr.region) (OpRg.unpack_pack _ o)))) h

theorem trap (o : OpTr) : Statement (.trap o) := fun _ h => of_raw (i := .trap o)
  ((raw_g8 (OpTr.pack_grp _ o)).trans ((congrArg (fun n : BitVec 4 => decodeG8 n.toNat _) (OpTr.pack_fn _ o)).trans (congrArg (Except.map Instr.trap) (OpTr.unpack_pack _ o)))) h

theorem rett (o : OpRt) : Statement (.rett o) := fun _ h => of_raw (i := .rett o)
  ((raw_g8 (OpRt.pack_grp _ o)).trans ((congrArg (fun n : BitVec 4 => decodeG8 n.toNat _) (OpRt.pack_fn _ o)).trans (congrArg (Except.map Instr.rett) (OpRt.unpack_pack _ o)))) h

theorem regg (o : OpRt) : Statement (.regg o) := fun _ h => of_raw (i := .regg o)
  ((raw_g8 (OpRt.pack_grp _ o)).trans ((congrArg (fun n : BitVec 4 => decodeG8 n.toNat _) (OpRt.pack_fn _ o)).trans (congrArg (Except.map Instr.regg) (OpRt.unpack_pack _ o)))) h

theorem ldB (o : OpM) : Statement (.ldB o) := fun _ h => of_raw (i := .ldB o)
  ((raw_g9 (OpM.pack_grp _ o)).trans ((congrArg (fun n : BitVec 4 => decodeG9 n.toNat _) (OpM.pack_fn _ o)).trans (congrArg (Except.map Instr.ldB) (OpM.unpack_pack _ o)))) h

theorem ldBs (o : OpM) : Statement (.ldBs o) := fun _ h => of_raw (i := .ldBs o)
  ((raw_g9 (OpM.pack_grp _ o)).trans ((congrArg (fun n : BitVec 4 => decodeG9 n.toNat _) (OpM.pack_fn _ o)).trans (congrArg (Except.map Instr.ldBs) (OpM.unpack_pack _ o)))) h

theorem ldH (o : OpM) : Statement (.ldH o) := fun _ h => of_raw (i := .ldH o)
  ((raw_g9 (OpM.pack_grp _ o)).trans ((congrArg (fun n : BitVec 4 => decodeG9 n.toNat _) (OpM.pack_fn _ o)).trans (congrArg (Except.map Instr.ldH) (OpM.unpack_pack _ o)))) h

theorem ldHs (o : OpM) : Statement (.ldHs o) := fun _ h => of_raw (i := .ldHs o)
  ((raw_g9 (OpM.pack_grp _ o)).trans ((congrArg (fun n : BitVec 4 => decodeG9 n.toNat _) (OpM.pack_fn _ o)).trans (congrArg (Except.map Instr.ldHs) (OpM.unpack_pack _ o)))) h

theorem ldW (o : OpM) : Statement (.ldW o) := fun _ h => of_raw (i := .ldW o)
  ((raw_g9 (OpM.pack_grp _ o)).trans ((congrArg (fun n : BitVec 4 => decodeG9 n.toNat _) (OpM.pack_fn _ o)).trans (congrArg (Except.map Instr.ldW) (OpM.unpack_pack _ o)))) h

theorem ldWs (o : OpM) : Statement (.ldWs o) := fun _ h => of_raw (i := .ldWs o)
  ((raw_g9 (OpM.pack_grp _ o)).trans ((congrArg (fun n : BitVec 4 => decodeG9 n.toNat _) (OpM.pack_fn _ o)).trans (congrArg (Except.map Instr.ldWs) (OpM.unpack_pack _ o)))) h

theorem ldD (o : OpM) : Statement (.ldD o) := fun _ h => of_raw (i := .ldD o)
  ((raw_g9 (OpM.pack_grp _ o)).trans ((congrArg (fun n : BitVec 4 => decodeG9 n.toNat _) (OpM.pack_fn _ o)).trans (congrArg (Except.map Instr.ldD) (OpM.unpack_pack _ o)))) h

theorem ldQ (o : OpM) : Statement (.ldQ o) := fun _ h => of_raw (i := .ldQ o)
  ((raw_g9 (OpM.pack_grp _ o)).trans ((congrArg (fun n : BitVec 4 => decodeG9 n.toNat _) (OpM.pack_fn _ o)).trans (congrArg (Except.map Instr.ldQ) (OpM.unpack_pack _ o)))) h

theorem lduD (o : OpMU) : Statement (.lduD o) := fun _ h => of_raw (i := .lduD o)
  ((raw_g9 (OpMU.pack_grp _ o)).trans ((congrArg (fun n : BitVec 4 => decodeG9 n.toNat _) (OpMU.pack_fn _ o)).trans (congrArg (Except.map Instr.lduD) (OpMU.unpack_pack _ o)))) h

theorem lduW (o : OpMU) : Statement (.lduW o) := fun _ h => of_raw (i := .lduW o)
  ((raw_g9 (OpMU.pack_grp _ o)).trans ((congrArg (fun n : BitVec 4 => decodeG9 n.toNat _) (OpMU.pack_fn _ o)).trans (congrArg (Except.map Instr.lduW) (OpMU.unpack_pack _ o)))) h

theorem ldaD (o : OpMS) : Statement (.ldaD o) := fun _ h => of_raw (i := .ldaD o)
  ((raw_g9 (OpMS.pack_grp _ o)).trans ((congrArg (fun n : BitVec 4 => decodeG9 n.toNat _) (OpMS.pack_fn _ o)).trans (congrArg (Except.map Instr.ldaD) (OpMS.unpack_pack _ o)))) h

theorem ldncD (o : OpM) : Statement (.ldncD o) := fun _ h => of_raw (i := .ldncD o)
  ((raw_g9 (OpM.pack_grp _ o)).trans ((congrArg (fun n : BitVec 4 => decodeG9 n.toNat _) (OpM.pack_fn _ o)).trans (congrArg (Except.map Instr.ldncD) (OpM.unpack_pack _ o)))) h

theorem pref (o : OpPf) : Statement (.pref o) := fun _ h => of_raw (i := .pref o)
  ((raw_g9 (OpPf.pack_grp _ o)).trans ((congrArg (fun n : BitVec 4 => decodeG9 n.toNat _) (OpPf.pack_fn _ o)).trans (congrArg (Except.map Instr.pref) (OpPf.unpack_pack _ o)))) h

theorem stB (o : OpM) : Statement (.stB o) := fun _ h => of_raw (i := .stB o)
  ((raw_g10 (OpM.pack_grp _ o)).trans ((congrArg (fun n : BitVec 4 => decodeG10 n.toNat _) (OpM.pack_fn _ o)).trans (congrArg (Except.map Instr.stB) (OpM.unpack_pack _ o)))) h

theorem stH (o : OpM) : Statement (.stH o) := fun _ h => of_raw (i := .stH o)
  ((raw_g10 (OpM.pack_grp _ o)).trans ((congrArg (fun n : BitVec 4 => decodeG10 n.toNat _) (OpM.pack_fn _ o)).trans (congrArg (Except.map Instr.stH) (OpM.unpack_pack _ o)))) h

theorem stW (o : OpM) : Statement (.stW o) := fun _ h => of_raw (i := .stW o)
  ((raw_g10 (OpM.pack_grp _ o)).trans ((congrArg (fun n : BitVec 4 => decodeG10 n.toNat _) (OpM.pack_fn _ o)).trans (congrArg (Except.map Instr.stW) (OpM.unpack_pack _ o)))) h

theorem stD (o : OpM) : Statement (.stD o) := fun _ h => of_raw (i := .stD o)
  ((raw_g10 (OpM.pack_grp _ o)).trans ((congrArg (fun n : BitVec 4 => decodeG10 n.toNat _) (OpM.pack_fn _ o)).trans (congrArg (Except.map Instr.stD) (OpM.unpack_pack _ o)))) h

theorem stQ (o : OpM) : Statement (.stQ o) := fun _ h => of_raw (i := .stQ o)
  ((raw_g10 (OpM.pack_grp _ o)).trans ((congrArg (fun n : BitVec 4 => decodeG10 n.toNat _) (OpM.pack_fn _ o)).trans (congrArg (Except.map Instr.stQ) (OpM.unpack_pack _ o)))) h

theorem stuD (o : OpMU) : Statement (.stuD o) := fun _ h => of_raw (i := .stuD o)
  ((raw_g10 (OpMU.pack_grp _ o)).trans ((congrArg (fun n : BitVec 4 => decodeG10 n.toNat _) (OpMU.pack_fn _ o)).trans (congrArg (Except.map Instr.stuD) (OpMU.unpack_pack _ o)))) h

theorem stlD (o : OpMS) : Statement (.stlD o) := fun _ h => of_raw (i := .stlD o)
  ((raw_g10 (OpMS.pack_grp _ o)).trans ((congrArg (fun n : BitVec 4 => decodeG10 n.toNat _) (OpMS.pack_fn _ o)).trans (congrArg (Except.map Instr.stlD) (OpMS.unpack_pack _ o)))) h

theorem aadd (o : OpM) : Statement (.aadd o) := fun _ h => of_raw (i := .aadd o)
  ((raw_g10 (OpM.pack_grp _ o)).trans ((congrArg (fun n : BitVec 4 => decodeG10 n.toNat _) (OpM.pack_fn _ o)).trans (congrArg (Except.map Instr.aadd) (OpM.unpack_pack _ o)))) h

theorem amin (o : OpM) : Statement (.amin o) := fun _ h => of_raw (i := .amin o)
  ((raw_g10 (OpM.pack_grp _ o)).trans ((congrArg (fun n : BitVec 4 => decodeG10 n.toNat _) (OpM.pack_fn _ o)).trans (congrArg (Except.map Instr.amin) (OpM.unpack_pack _ o)))) h

theorem amax (o : OpM) : Statement (.amax o) := fun _ h => of_raw (i := .amax o)
  ((raw_g10 (OpM.pack_grp _ o)).trans ((congrArg (fun n : BitVec 4 => decodeG10 n.toNat _) (OpM.pack_fn _ o)).trans (congrArg (Except.map Instr.amax) (OpM.unpack_pack _ o)))) h

theorem aand (o : OpM) : Statement (.aand o) := fun _ h => of_raw (i := .aand o)
  ((raw_g10 (OpM.pack_grp _ o)).trans ((congrArg (fun n : BitVec 4 => decodeG10 n.toNat _) (OpM.pack_fn _ o)).trans (congrArg (Except.map Instr.aand) (OpM.unpack_pack _ o)))) h

theorem aor (o : OpM) : Statement (.aor o) := fun _ h => of_raw (i := .aor o)
  ((raw_g10 (OpM.pack_grp _ o)).trans ((congrArg (fun n : BitVec 4 => decodeG10 n.toNat _) (OpM.pack_fn _ o)).trans (congrArg (Except.map Instr.aor) (OpM.unpack_pack _ o)))) h

theorem axch (o : OpM) : Statement (.axch o) := fun _ h => of_raw (i := .axch o)
  ((raw_g10 (OpM.pack_grp _ o)).trans ((congrArg (fun n : BitVec 4 => decodeG10 n.toNat _) (OpM.pack_fn _ o)).trans (congrArg (Except.map Instr.axch) (OpM.unpack_pack _ o)))) h

theorem acas (o : OpM) : Statement (.acas o) := fun _ h => of_raw (i := .acas o)
  ((raw_g10 (OpM.pack_grp _ o)).trans ((congrArg (fun n : BitVec 4 => decodeG10 n.toNat _) (OpM.pack_fn _ o)).trans (congrArg (Except.map Instr.acas) (OpM.unpack_pack _ o)))) h

theorem aaddfS (o : OpM) : Statement (.aaddfS o) := fun _ h => of_raw (i := .aaddfS o)
  ((raw_g10 (OpM.pack_grp _ o)).trans ((congrArg (fun n : BitVec 4 => decodeG10 n.toNat _) (OpM.pack_fn _ o)).trans (congrArg (Except.map Instr.aaddfS) (OpM.unpack_pack _ o)))) h

theorem fence (o : OpF) : Statement (.fence o) := fun _ h => of_raw (i := .fence o)
  ((raw_g11 (OpF.pack_grp _ o)).trans ((congrArg (fun n : BitVec 4 => decodeG11 n.toNat _) (OpF.pack_fn _ o)).trans (congrArg (Except.map Instr.fence) (OpF.unpack_pack _ o)))) h

theorem release (o : OpG) : Statement (.release o) := fun _ h => of_raw (i := .release o)
  ((raw_g11 (OpG.pack_grp _ o)).trans ((congrArg (fun n : BitVec 4 => decodeG11 n.toNat _) (OpG.pack_fn _ o)).trans (congrArg (Except.map Instr.release) (OpG.unpack_pack _ o)))) h

theorem acquire (o : OpG) : Statement (.acquire o) := fun _ h => of_raw (i := .acquire o)
  ((raw_g11 (OpG.pack_grp _ o)).trans ((congrArg (fun n : BitVec 4 => decodeG11 n.toNat _) (OpG.pack_fn _ o)).trans (congrArg (Except.map Instr.acquire) (OpG.unpack_pack _ o)))) h

theorem ifence (o : OpG) : Statement (.ifence o) := fun _ h => of_raw (i := .ifence o)
  ((raw_g11 (OpG.pack_grp _ o)).trans ((congrArg (fun n : BitVec 4 => decodeG11 n.toNat _) (OpG.pack_fn _ o)).trans (congrArg (Except.map Instr.ifence) (OpG.unpack_pack _ o)))) h

theorem rfence (o : OpG) : Statement (.rfence o) := fun _ h => of_raw (i := .rfence o)
  ((raw_g11 (OpG.pack_grp _ o)).trans ((congrArg (fun n : BitVec 4 => decodeG11 n.toNat _) (OpG.pack_fn _ o)).trans (congrArg (Except.map Instr.rfence) (OpG.unpack_pack _ o)))) h

theorem cpy (o : OpCp) : Statement (.cpy o) := fun _ h => of_raw (i := .cpy o)
  ((raw_g11 (OpCp.pack_grp _ o)).trans ((congrArg (fun n : BitVec 4 => decodeG11 n.toNat _) (OpCp.pack_fn _ o)).trans (congrArg (Except.map Instr.cpy) (OpCp.unpack_pack _ o)))) h

theorem cpyq (o : OpCp) : Statement (.cpyq o) := fun _ h => of_raw (i := .cpyq o)
  ((raw_g11 (OpCp.pack_grp _ o)).trans ((congrArg (fun n : BitVec 4 => decodeG11 n.toNat _) (OpCp.pack_fn _ o)).trans (congrArg (Except.map Instr.cpyq) (OpCp.unpack_pack _ o)))) h

theorem cpyt (o : OpCp) : Statement (.cpyt o) := fun _ h => of_raw (i := .cpyt o)
  ((raw_g11 (OpCp.pack_grp _ o)).trans ((congrArg (fun n : BitVec 4 => decodeG11 n.toNat _) (OpCp.pack_fn _ o)).trans (congrArg (Except.map Instr.cpyt) (OpCp.unpack_pack _ o)))) h

theorem sealBatch (o : OpSeal) : Statement (.sealBatch o) := fun _ h => of_raw (i := .sealBatch o)
  ((raw_g11 (OpSeal.pack_grp _ o)).trans ((congrArg (fun n : BitVec 4 => decodeG11 n.toNat _) (OpSeal.pack_fn _ o)).trans (congrArg (Except.map Instr.sealBatch) (OpSeal.unpack_pack _ o)))) h

theorem cwaitBatch (o : OpDA) : Statement (.cwaitBatch o) := fun _ h => of_raw (i := .cwaitBatch o)
  ((raw_g11 (OpDA.pack_grp _ o)).trans ((congrArg (fun n : BitVec 4 => decodeG11 n.toNat _) (OpDA.pack_fn _ o)).trans (congrArg (Except.map Instr.cwaitBatch) (OpDA.unpack_pack _ o)))) h

theorem rput (o : OpCp) : Statement (.rput o) := fun _ h => of_raw (i := .rput o)
  ((raw_g11 (OpCp.pack_grp _ o)).trans ((congrArg (fun n : BitVec 4 => decodeG11 n.toNat _) (OpCp.pack_fn _ o)).trans (congrArg (Except.map Instr.rput) (OpCp.unpack_pack _ o)))) h

theorem rget (o : OpCp) : Statement (.rget o) := fun _ h => of_raw (i := .rget o)
  ((raw_g11 (OpCp.pack_grp _ o)).trans ((congrArg (fun n : BitVec 4 => decodeG11 n.toNat _) (OpCp.pack_fn _ o)).trans (congrArg (Except.map Instr.rget) (OpCp.unpack_pack _ o)))) h

theorem notify (o : OpDU) : Statement (.notify o) := fun _ h => of_raw (i := .notify o)
  ((raw_g11 (OpDU.pack_grp _ o)).trans ((congrArg (fun n : BitVec 4 => decodeG11 n.toNat _) (OpDU.pack_fn _ o)).trans (congrArg (Except.map Instr.notify) (OpDU.unpack_pack _ o)))) h

theorem snapTake (o : OpDU) : Statement (.snapTake o) := fun _ h => of_raw (i := .snapTake o)
  ((raw_g11 (OpDU.pack_grp _ o)).trans ((congrArg (fun n : BitVec 4 => decodeG11 n.toNat _) (OpDU.pack_fn _ o)).trans (congrArg (Except.map Instr.snapTake) (OpDU.unpack_pack _ o)))) h

theorem accg (o : OpDA) : Statement (.accg o) := fun _ h => of_raw (i := .accg o)
  ((raw_g11 (OpDA.pack_grp _ o)).trans ((congrArg (fun n : BitVec 4 => decodeG11 n.toNat _) (OpDA.pack_fn _ o)).trans (congrArg (Except.map Instr.accg) (OpDA.unpack_pack _ o)))) h

theorem ownx (o : OpDU) : Statement (.ownx o) := fun _ h => of_raw (i := .ownx o)
  ((raw_g11 (OpDU.pack_grp _ o)).trans ((congrArg (fun n : BitVec 4 => decodeG11 n.toNat _) (OpDU.pack_fn _ o)).trans (congrArg (Except.map Instr.ownx) (OpDU.unpack_pack _ o)))) h

theorem mshape (o : OpMsh) : Statement (.mshape o) := fun _ h => of_raw (i := .mshape o)
  ((raw_g12 (OpMsh.pack_grp _ o)).trans ((congrArg (fun n : BitVec 4 => decodeG12 n.toNat _) (OpMsh.pack_fn _ o)).trans (congrArg (Except.map Instr.mshape) (OpMsh.unpack_pack _ o)))) h

theorem mld (o : OpMl) : Statement (.mld o) := fun _ h => of_raw (i := .mld o)
  ((raw_g12 (OpMl.pack_grp _ o)).trans ((congrArg (fun n : BitVec 4 => decodeG12 n.toNat _) (OpMl.pack_fn _ o)).trans (congrArg (Except.map Instr.mld) (OpMl.unpack_pack _ o)))) h

theorem mst (o : OpMl) : Statement (.mst o) := fun _ h => of_raw (i := .mst o)
  ((raw_g12 (OpMl.pack_grp _ o)).trans ((congrArg (fun n : BitVec 4 => decodeG12 n.toNat _) (OpMl.pack_fn _ o)).trans (congrArg (Except.map Instr.mst) (OpMl.unpack_pack _ o)))) h

theorem mmovv (o : OpMmv) : Statement (.mmovv o) := fun _ h => of_raw (i := .mmovv o)
  ((raw_g12 (OpMmv.pack_grp _ o)).trans ((congrArg (fun n : BitVec 4 => decodeG12 n.toNat _) (OpMmv.pack_fn _ o)).trans (congrArg (Except.map Instr.mmovv) (OpMmv.unpack_pack _ o)))) h

theorem mmul (o : OpMm) : Statement (.mmul o) := fun _ h => of_raw (i := .mmul o)
  ((raw_g12 (OpMm.pack_grp _ o)).trans ((congrArg (fun n : BitVec 4 => decodeG12 n.toNat _) (OpMm.pack_fn _ o)).trans (congrArg (Except.map Instr.mmul) (OpMm.unpack_pack _ o)))) h

theorem mmac (o : OpMmn) : Statement (.mmac o) := fun _ h => of_raw (i := .mmac o)
  ((raw_g12 (OpMmn.pack_grp _ o)).trans ((congrArg (fun n : BitVec 4 => decodeG12 n.toNat _) (OpMmn.pack_fn _ o)).trans (congrArg (Except.map Instr.mmac) (OpMmn.unpack_pack _ o)))) h

theorem madd (o : OpMad) : Statement (.madd o) := fun _ h => of_raw (i := .madd o)
  ((raw_g12 (OpMad.pack_grp _ o)).trans ((congrArg (fun n : BitVec 4 => decodeG12 n.toNat _) (OpMad.pack_fn _ o)).trans (congrArg (Except.map Instr.madd) (OpMad.unpack_pack _ o)))) h

theorem mtrn (o : OpM2) : Statement (.mtrn o) := fun _ h => of_raw (i := .mtrn o)
  ((raw_g12 (OpM2.pack_grp _ o)).trans ((congrArg (fun n : BitVec 4 => decodeG12 n.toNat _) (OpM2.pack_fn _ o)).trans (congrArg (Except.map Instr.mtrn) (OpM2.unpack_pack _ o)))) h

theorem mchol (o : OpM2) : Statement (.mchol o) := fun _ h => of_raw (i := .mchol o)
  ((raw_g12 (OpM2.pack_grp _ o)).trans ((congrArg (fun n : BitVec 4 => decodeG12 n.toNat _) (OpM2.pack_fn _ o)).trans (congrArg (Except.map Instr.mchol) (OpM2.unpack_pack _ o)))) h

theorem mlu (o : OpM2v) : Statement (.mlu o) := fun _ h => of_raw (i := .mlu o)
  ((raw_g12 (OpM2v.pack_grp _ o)).trans ((congrArg (fun n : BitVec 4 => decodeG12 n.toNat _) (OpM2v.pack_fn _ o)).trans (congrArg (Except.map Instr.mlu) (OpM2v.unpack_pack _ o)))) h

theorem msolc (o : OpMsc) : Statement (.msolc o) := fun _ h => of_raw (i := .msolc o)
  ((raw_g12 (OpMsc.pack_grp _ o)).trans ((congrArg (fun n : BitVec 4 => decodeG12 n.toNat _) (OpMsc.pack_fn _ o)).trans (congrArg (Except.map Instr.msolc) (OpMsc.unpack_pack _ o)))) h

theorem msoll (o : OpM3v) : Statement (.msoll o) := fun _ h => of_raw (i := .msoll o)
  ((raw_g12 (OpM3v.pack_grp _ o)).trans ((congrArg (fun n : BitVec 4 => decodeG12 n.toNat _) (OpM3v.pack_fn _ o)).trans (congrArg (Except.map Instr.msoll) (OpM3v.unpack_pack _ o)))) h

theorem mscal (o : OpM2v) : Statement (.mscal o) := fun _ h => of_raw (i := .mscal o)
  ((raw_g12 (OpM2v.pack_grp _ o)).trans ((congrArg (fun n : BitVec 4 => decodeG12 n.toNat _) (OpM2v.pack_fn _ o)).trans (congrArg (Except.map Instr.mscal) (OpM2v.unpack_pack _ o)))) h

theorem mflag (o : OpMfl) : Statement (.mflag o) := fun _ h => of_raw (i := .mflag o)
  ((raw_g12 (OpMfl.pack_grp _ o)).trans ((congrArg (fun n : BitVec 4 => decodeG12 n.toNat _) (OpMfl.pack_fn _ o)).trans (congrArg (Except.map Instr.mflag) (OpMfl.unpack_pack _ o)))) h

theorem midn (o : OpMid) : Statement (.midn o) := fun _ h => of_raw (i := .midn o)
  ((raw_g12 (OpMid.pack_grp _ o)).trans ((congrArg (fun n : BitVec 4 => decodeG12 n.toNat _) (OpMid.pack_fn _ o)).trans (congrArg (Except.map Instr.midn) (OpMid.unpack_pack _ o)))) h

theorem mmv (o : OpMvv) : Statement (.mmv o) := fun _ h => of_raw (i := .mmv o)
  ((raw_g12 (OpMvv.pack_grp _ o)).trans ((congrArg (fun n : BitVec 4 => decodeG12 n.toNat _) (OpMvv.pack_fn _ o)).trans (congrArg (Except.map Instr.mmv) (OpMvv.unpack_pack _ o)))) h

theorem tld (o : OpTt) : Statement (.tld o) := fun _ h => of_raw (i := .tld o)
  ((raw_g13 (OpTt.pack_grp _ o)).trans ((congrArg (fun n : BitVec 4 => decodeG13 n.toNat _) (OpTt.pack_fn _ o)).trans (congrArg (Except.map Instr.tld) (OpTt.unpack_pack _ o)))) h

theorem tst (o : OpTt) : Statement (.tst o) := fun _ h => of_raw (i := .tst o)
  ((raw_g13 (OpTt.pack_grp _ o)).trans ((congrArg (fun n : BitVec 4 => decodeG13 n.toNat _) (OpTt.pack_fn _ o)).trans (congrArg (Except.map Instr.tst) (OpTt.unpack_pack _ o)))) h

theorem wload (o : OpTw) : Statement (.wload o) := fun _ h => of_raw (i := .wload o)
  ((raw_g13 (OpTw.pack_grp _ o)).trans ((congrArg (fun n : BitVec 4 => decodeG13 n.toNat _) (OpTw.pack_fn _ o)).trans (congrArg (Except.map Instr.wload) (OpTw.unpack_pack _ o)))) h

theorem wswap (o : OpTc) : Statement (.wswap o) := fun _ h => of_raw (i := .wswap o)
  ((raw_g13 (OpTc.pack_grp _ o)).trans ((congrArg (fun n : BitVec 4 => decodeG13 n.toNat _) (OpTc.pack_fn _ o)).trans (congrArg (Except.map Instr.wswap) (OpTc.unpack_pack _ o)))) h

theorem tmma (o : OpTa) : Statement (.tmma o) := fun _ h => of_raw (i := .tmma o)
  ((raw_g13 (OpTa.pack_grp _ o)).trans ((congrArg (fun n : BitVec 4 => decodeG13 n.toNat _) (OpTa.pack_fn _ o)).trans (congrArg (Except.map Instr.tmma) (OpTa.unpack_pack _ o)))) h

theorem tmmas (o : OpTa) : Statement (.tmmas o) := fun _ h => of_raw (i := .tmmas o)
  ((raw_g13 (OpTa.pack_grp _ o)).trans ((congrArg (fun n : BitVec 4 => decodeG13 n.toNat _) (OpTa.pack_fn _ o)).trans (congrArg (Except.map Instr.tmmas) (OpTa.unpack_pack _ o)))) h

theorem aclr (o : OpTl) : Statement (.aclr o) := fun _ h => of_raw (i := .aclr o)
  ((raw_g13 (OpTl.pack_grp _ o)).trans ((congrArg (fun n : BitVec 4 => decodeG13 n.toNat _) (OpTl.pack_fn _ o)).trans (congrArg (Except.map Instr.aclr) (OpTl.unpack_pack _ o)))) h

theorem acvt (o : OpTak) : Statement (.acvt o) := fun _ h => of_raw (i := .acvt o)
  ((raw_g13 (OpTak.pack_grp _ o)).trans ((congrArg (fun n : BitVec 4 => decodeG13 n.toNat _) (OpTak.pack_fn _ o)).trans (congrArg (Except.map Instr.acvt) (OpTak.unpack_pack _ o)))) h

theorem tckv (o : OpTtk) : Statement (.tckv o) := fun _ h => of_raw (i := .tckv o)
  ((raw_g13 (OpTtk.pack_grp _ o)).trans ((congrArg (fun n : BitVec 4 => decodeG13 n.toNat _) (OpTtk.pack_fn _ o)).trans (congrArg (Except.map Instr.tckv) (OpTtk.unpack_pack _ o)))) h

theorem tckfix (o : OpTt) : Statement (.tckfix o) := fun _ h => of_raw (i := .tckfix o)
  ((raw_g13 (OpTt.pack_grp _ o)).trans ((congrArg (fun n : BitVec 4 => decodeG13 n.toNat _) (OpTt.pack_fn _ o)).trans (congrArg (Except.map Instr.tckfix) (OpTt.unpack_pack _ o)))) h

theorem tckset (o : OpTt) : Statement (.tckset o) := fun _ h => of_raw (i := .tckset o)
  ((raw_g13 (OpTt.pack_grp _ o)).trans ((congrArg (fun n : BitVec 4 => decodeG13 n.toNat _) (OpTt.pack_fn _ o)).trans (congrArg (Except.map Instr.tckset) (OpTt.unpack_pack _ o)))) h

theorem tcopy (o : OpTt) : Statement (.tcopy o) := fun _ h => of_raw (i := .tcopy o)
  ((raw_g13 (OpTt.pack_grp _ o)).trans ((congrArg (fun n : BitVec 4 => decodeG13 n.toNat _) (OpTt.pack_fn _ o)).trans (congrArg (Except.map Instr.tcopy) (OpTt.unpack_pack _ o)))) h

theorem dload (o : OpTw) : Statement (.dload o) := fun _ h => of_raw (i := .dload o)
  ((raw_g13 (OpTw.pack_grp _ o)).trans ((congrArg (fun n : BitVec 4 => decodeG13 n.toNat _) (OpTw.pack_fn _ o)).trans (congrArg (Except.map Instr.dload) (OpTw.unpack_pack _ o)))) h

theorem dqry (o : OpTa) : Statement (.dqry o) := fun _ h => of_raw (i := .dqry o)
  ((raw_g13 (OpTa.pack_grp _ o)).trans ((congrArg (fun n : BitVec 4 => decodeG13 n.toNat _) (OpTa.pack_fn _ o)).trans (congrArg (Except.map Instr.dqry) (OpTa.unpack_pack _ o)))) h

theorem dcent (o : OpTa) : Statement (.dcent o) := fun _ h => of_raw (i := .dcent o)
  ((raw_g13 (OpTa.pack_grp _ o)).trans ((congrArg (fun n : BitVec 4 => decodeG13 n.toNat _) (OpTa.pack_fn _ o)).trans (congrArg (Except.map Instr.dcent) (OpTa.unpack_pack _ o)))) h

theorem dfin (o : OpTa) : Statement (.dfin o) := fun _ h => of_raw (i := .dfin o)
  ((raw_g13 (OpTa.pack_grp _ o)).trans ((congrArg (fun n : BitVec 4 => decodeG13 n.toNat _) (OpTa.pack_fn _ o)).trans (congrArg (Except.map Instr.dfin) (OpTa.unpack_pack _ o)))) h

theorem csrr (o : OpCsr) : Statement (.csrr o) := fun _ h => of_raw (i := .csrr o)
  ((raw_g14 (OpCsr.pack_grp _ o)).trans ((congrArg (fun n : BitVec 4 => decodeG14 n.toNat _) (OpCsr.pack_fn _ o)).trans (congrArg (Except.map Instr.csrr) (OpCsr.unpack_pack _ o)))) h

theorem csrw (o : OpCsr) : Statement (.csrw o) := fun _ h => of_raw (i := .csrw o)
  ((raw_g14 (OpCsr.pack_grp _ o)).trans ((congrArg (fun n : BitVec 4 => decodeG14 n.toNat _) (OpCsr.pack_fn _ o)).trans (congrArg (Except.map Instr.csrw) (OpCsr.unpack_pack _ o)))) h

theorem csrs (o : OpCsr) : Statement (.csrs o) := fun _ h => of_raw (i := .csrs o)
  ((raw_g14 (OpCsr.pack_grp _ o)).trans ((congrArg (fun n : BitVec 4 => decodeG14 n.toNat _) (OpCsr.pack_fn _ o)).trans (congrArg (Except.map Instr.csrs) (OpCsr.unpack_pack _ o)))) h

theorem csrc (o : OpCsr) : Statement (.csrc o) := fun _ h => of_raw (i := .csrc o)
  ((raw_g14 (OpCsr.pack_grp _ o)).trans ((congrArg (fun n : BitVec 4 => decodeG14 n.toNat _) (OpCsr.pack_fn _ o)).trans (congrArg (Except.map Instr.csrc) (OpCsr.unpack_pack _ o)))) h

theorem cntrd (o : OpUa) : Statement (.cntrd o) := fun _ h => of_raw (i := .cntrd o)
  ((raw_g14 (OpUa.pack_grp _ o)).trans ((congrArg (fun n : BitVec 4 => decodeG14 n.toNat _) (OpUa.pack_fn _ o)).trans (congrArg (Except.map Instr.cntrd) (OpUa.unpack_pack _ o)))) h

theorem cntctlEvsel (o : OpU) : Statement (.cntctlEvsel o) := fun _ h => of_raw (i := .cntctlEvsel o)
  ((raw_g14 (OpU.pack_grp _ o)).trans ((congrArg (fun n : BitVec 4 => decodeG14 n.toNat _) (OpU.pack_fn _ o)).trans (congrArg (Except.map Instr.cntctlEvsel) (OpU.unpack_pack _ o)))) h

theorem bkpt (o : OpS1g) : Statement (.bkpt o) := fun _ h => of_raw (i := .bkpt o)
  ((raw_g14 (OpS1g.pack_grp _ o)).trans ((congrArg (fun n : BitVec 4 => decodeG14 n.toNat _) (OpS1g.pack_fn _ o)).trans (congrArg (Except.map Instr.bkpt) (OpS1g.unpack_pack _ o)))) h

theorem trace (o : OpJ) : Statement (.trace o) := fun _ h => of_raw (i := .trace o)
  ((raw_g14 (OpJ.pack_grp _ o)).trans ((congrArg (fun n : BitVec 4 => decodeG14 n.toNat _) (OpJ.pack_fn _ o)).trans (congrArg (Except.map Instr.trace) (OpJ.unpack_pack _ o)))) h

theorem prog (o : OpJ) : Statement (.prog o) := fun _ h => of_raw (i := .prog o)
  ((raw_g14 (OpJ.pack_grp _ o)).trans ((congrArg (fun n : BitVec 4 => decodeG14 n.toNat _) (OpJ.pack_fn _ o)).trans (congrArg (Except.map Instr.prog) (OpJ.unpack_pack _ o)))) h

theorem ctxfl (o : OpDA) : Statement (.ctxfl o) := fun _ h => of_raw (i := .ctxfl o)
  ((raw_g14 (OpDA.pack_grp _ o)).trans ((congrArg (fun n : BitVec 4 => decodeG14 n.toNat _) (OpDA.pack_fn _ o)).trans (congrArg (Except.map Instr.ctxfl) (OpDA.unpack_pack _ o)))) h

theorem haltg (o : OpDA) : Statement (.haltg o) := fun _ h => of_raw (i := .haltg o)
  ((raw_g14 (OpDA.pack_grp _ o)).trans ((congrArg (fun n : BitVec 4 => decodeG14 n.toNat _) (OpDA.pack_fn _ o)).trans (congrArg (Except.map Instr.haltg) (OpDA.unpack_pack _ o)))) h

theorem resumeg (o : OpDA) : Statement (.resumeg o) := fun _ h => of_raw (i := .resumeg o)
  ((raw_g14 (OpDA.pack_grp _ o)).trans ((congrArg (fun n : BitVec 4 => decodeG14 n.toNat _) (OpDA.pack_fn _ o)).trans (congrArg (Except.map Instr.resumeg) (OpDA.unpack_pack _ o)))) h

theorem hintImm (o : OpHint) : Statement (.hintImm o) := fun _ h => of_raw (i := .hintImm o)
  ((raw_g15 (OpHint.pack_grp _ o)).trans ((congrArg (fun n : BitVec 4 => hintErr (decodeG15 n.toNat _)) (OpHint.pack_fn _ o)).trans ((congrArg hintErr (congrArg (Except.map Instr.hintImm) (OpHint.unpack_pack _ o)))))) h

theorem hintRep (o : OpHRep) : Statement (.hintRep o) := fun _ h => of_raw (i := .hintRep o)
  ((raw_g15 (OpHRep.pack_grp _ o)).trans ((congrArg (fun n : BitVec 4 => hintErr (decodeG15 n.toNat _)) (OpHRep.pack_fn _ o)).trans ((congrArg hintErr (congrArg (Except.map Instr.hintRep) (OpHRep.unpack_pack _ o)))))) h

theorem hintSched (o : OpHSched) : Statement (.hintSched o) := fun _ h => of_raw (i := .hintSched o)
  ((raw_g15 (OpHSched.pack_grp _ o)).trans ((congrArg (fun n : BitVec 4 => hintErr (decodeG15 n.toNat _)) (OpHSched.pack_fn _ o)).trans ((congrArg hintErr (congrArg (Except.map Instr.hintSched) (OpHSched.unpack_pack _ o)))))) h

theorem hintMod (o : OpHMod) : Statement (.hintMod o) := fun _ h => of_raw (i := .hintMod o)
  ((raw_g15 (OpHMod.pack_grp _ o)).trans ((congrArg (fun n : BitVec 4 => hintErr (decodeG15 n.toNat _)) (OpHMod.pack_fn _ o)).trans ((congrArg hintErr (congrArg (Except.map Instr.hintMod) (OpHMod.unpack_pack _ o)))))) h

theorem hintPrio (o : OpHPrio) : Statement (.hintPrio o) := fun _ h => of_raw (i := .hintPrio o)
  ((raw_g15 (OpHPrio.pack_grp _ o)).trans ((congrArg (fun n : BitVec 4 => hintErr (decodeG15 n.toNat _)) (OpHPrio.pack_fn _ o)).trans ((congrArg hintErr (congrArg (Except.map Instr.hintPrio) (OpHPrio.unpack_pack _ o)))))) h

theorem gbar : Statement .gbar := fun _ _ => rfl

theorem regend : Statement .regend := fun _ _ => rfl

theorem cwaitTake : Statement .cwaitTake := fun _ _ => rfl

theorem cwaitFree : Statement .cwaitFree := fun _ _ => rfl

theorem snapDrop : Statement .snapDrop := fun _ _ => rfl

theorem snapRollback : Statement .snapRollback := fun _ _ => rfl

theorem snapShip : Statement .snapShip := fun _ _ => rfl

theorem cntctlTrmask : Statement .cntctlTrmask := fun _ _ => rfl

theorem cntctlPclr : Statement .cntctlPclr := fun _ _ => rfl

theorem cntctlSample : Statement .cntctlSample := fun _ _ => rfl

theorem cntctlTrlo : Statement .cntctlTrlo := fun _ _ => rfl

theorem cntctlTrhi : Statement .cntctlTrhi := fun _ _ => rfl

theorem cntctlTrstart : Statement .cntctlTrstart := fun _ _ => rfl

theorem cntctlTrstop : Statement .cntctlTrstop := fun _ _ => rfl

theorem cntctlEclr : Statement .cntctlEclr := fun _ _ => rfl

theorem cntctlDstop : Statement .cntctlDstop := fun _ _ => rfl

theorem hintNop : Statement .hintNop := fun _ _ => rfl

theorem reservedHint : Statement .reservedHint := fun _ _ => rfl

theorem rotation : Statement .rotation := fun h _ => absurd h (by decide)

theorem handlerStart : Statement .handlerStart := fun h _ => absurd h (by decide)

theorem arrayOperationComplete : Statement .arrayOperationComplete := fun h _ => absurd h (by decide)

theorem specialFunctionComplete : Statement .specialFunctionComplete := fun h _ => absurd h (by decide)

theorem loadDataReturn : Statement .loadDataReturn := fun h _ => absurd h (by decide)

theorem hostFetch : Statement .hostFetch := fun h _ => absurd h (by decide)

theorem appenderAccept : Statement .appenderAccept := fun h _ => absurd h (by decide)

theorem appendHoldRelease : Statement .appendHoldRelease := fun h _ => absurd h (by decide)

theorem logPressureEvent : Statement .logPressureEvent := fun h _ => absurd h (by decide)

theorem dredgeStart : Statement .dredgeStart := fun h _ => absurd h (by decide)

theorem dredgeDrainComplete : Statement .dredgeDrainComplete := fun h _ => absurd h (by decide)

theorem indexLookup : Statement .indexLookup := fun h _ => absurd h (by decide)

theorem indexUpdate : Statement .indexUpdate := fun h _ => absurd h (by decide)

theorem fold : Statement .fold := fun h _ => absurd h (by decide)

theorem grainEntryWriteback : Statement .grainEntryWriteback := fun h _ => absurd h (by decide)

theorem tableFree : Statement .tableFree := fun h _ => absurd h (by decide)

theorem homeMove : Statement .homeMove := fun h _ => absurd h (by decide)

theorem claimRequest : Statement .claimRequest := fun h _ => absurd h (by decide)

theorem commitWrite : Statement .commitWrite := fun h _ => absurd h (by decide)

theorem atomicApply : Statement .atomicApply := fun h _ => absurd h (by decide)

theorem atomicAnswer : Statement .atomicAnswer := fun h _ => absurd h (by decide)

theorem atomicMovedReissue : Statement .atomicMovedReissue := fun h _ => absurd h (by decide)

theorem remoteAccessPerform : Statement .remoteAccessPerform := fun h _ => absurd h (by decide)

theorem remoteAck : Statement .remoteAck := fun h _ => absurd h (by decide)

theorem impreciseFaultArrival : Statement .impreciseFaultArrival := fun h _ => absurd h (by decide)

theorem copyStart : Statement .copyStart := fun h _ => absurd h (by decide)

theorem copyPiece : Statement .copyPiece := fun h _ => absurd h (by decide)

theorem copyComplete : Statement .copyComplete := fun h _ => absurd h (by decide)

theorem copyClaimTimeout : Statement .copyClaimTimeout := fun h _ => absurd h (by decide)

theorem ownxTimeout : Statement .ownxTimeout := fun h _ => absurd h (by decide)

theorem growGrant : Statement .growGrant := fun h _ => absurd h (by decide)

theorem growDeadlockBreak : Statement .growDeadlockBreak := fun h _ => absurd h (by decide)

theorem nodeDispatch : Statement .nodeDispatch := fun h _ => absurd h (by decide)

theorem groupAdmission : Statement .groupAdmission := fun h _ => absurd h (by decide)

theorem prologue : Statement .prologue := fun h _ => absurd h (by decide)

theorem nodeRetirement : Statement .nodeRetirement := fun h _ => absurd h (by decide)

theorem completionRecord : Statement .completionRecord := fun h _ => absurd h (by decide)

theorem notifyRecord : Statement .notifyRecord := fun h _ => absurd h (by decide)

theorem stagingTagFree : Statement .stagingTagFree := fun h _ => absurd h (by decide)

theorem msixHoldoffExpiry : Statement .msixHoldoffExpiry := fun h _ => absurd h (by decide)

theorem lqdoor : Statement .lqdoor := fun h _ => absurd h (by decide)

theorem eqdoor : Statement .eqdoor := fun h _ => absurd h (by decide)

theorem eldoor : Statement .eldoor := fun h _ => absurd h (by decide)

theorem registerWrite : Statement .registerWrite := fun h _ => absurd h (by decide)

theorem scrub : Statement .scrub := fun h _ => absurd h (by decide)

theorem hbmBeatRetry : Statement .hbmBeatRetry := fun h _ => absurd h (by decide)

theorem hbmRefresh : Statement .hbmRefresh := fun h _ => absurd h (by decide)

theorem channelGrant : Statement .channelGrant := fun h _ => absurd h (by decide)

theorem outflowShip : Statement .outflowShip := fun h _ => absurd h (by decide)

theorem watchdogHang : Statement .watchdogHang := fun h _ => absurd h (by decide)

theorem peerUnavailable : Statement .peerUnavailable := fun h _ => absurd h (by decide)

theorem progApply : Statement .progApply := fun h _ => absurd h (by decide)

theorem sampleTick : Statement .sampleTick := fun h _ => absurd h (by decide)

theorem trialEnd : Statement .trialEnd := fun h _ => absurd h (by decide)

theorem haltgTimeout : Statement .haltgTimeout := fun h _ => absurd h (by decide)

theorem preemptRegionStop : Statement .preemptRegionStop := fun h _ => absurd h (by decide)

theorem crewStop : Statement .crewStop := fun h _ => absurd h (by decide)

theorem forcedReset : Statement .forcedReset := fun h _ => absurd h (by decide)

theorem groupSave : Statement .groupSave := fun h _ => absurd h (by decide)

theorem deviceReset : Statement .deviceReset := fun h _ => absurd h (by decide)

theorem safePhaseReached : Statement .safePhaseReached := fun h _ => absurd h (by decide)

theorem hbmTrainingComplete : Statement .hbmTrainingComplete := fun h _ => absurd h (by decide)

theorem initialiseTimeout : Statement .initialiseTimeout := fun h _ => absurd h (by decide)

theorem logInitialised : Statement .logInitialised := fun h _ => absurd h (by decide)

theorem tileSelfTest : Statement .tileSelfTest := fun h _ => absurd h (by decide)

theorem attestationSigned : Statement .attestationSigned := fun h _ => absurd h (by decide)

theorem thermalThrottle : Statement .thermalThrottle := fun h _ => absurd h (by decide)

theorem thermalShutdown : Statement .thermalShutdown := fun h _ => absurd h (by decide)

theorem flitReceive : Statement .flitReceive := fun h _ => absurd h (by decide)

theorem linkTraining : Statement .linkTraining := fun h _ => absurd h (by decide)

theorem portFail : Statement .portFail := fun h _ => absurd h (by decide)

theorem peerAccess : Statement .peerAccess := fun h _ => absurd h (by decide)

theorem peerStoreRefuse : Statement .peerStoreRefuse := fun h _ => absurd h (by decide)

theorem peerWindowRefresh : Statement .peerWindowRefresh := fun h _ => absurd h (by decide)

theorem crossDeviceBarrierArrival : Statement .crossDeviceBarrierArrival := fun h _ => absurd h (by decide)

theorem readErrorLog : Statement .readErrorLog := fun h _ => absurd h (by decide)

theorem firmwareUpdate : Statement .firmwareUpdate := fun h _ => absurd h (by decide)

theorem initialiseCmd : Statement .initialiseCmd := fun h _ => absurd h (by decide)

theorem readAttestation : Statement .readAttestation := fun h _ => absurd h (by decide)

theorem queueDescriptor : Statement .queueDescriptor := fun h _ => absurd h (by decide)

theorem contextSet : Statement .contextSet := fun h _ => absurd h (by decide)

theorem mapPage : Statement .mapPage := fun h _ => absurd h (by decide)

theorem unmap : Statement .unmap := fun h _ => absurd h (by decide)

theorem protect : Statement .protect := fun h _ => absurd h (by decide)

theorem pageAllocate : Statement .pageAllocate := fun h _ => absurd h (by decide)

theorem pageFree : Statement .pageFree := fun h _ => absurd h (by decide)

theorem migrateHostPage : Statement .migrateHostPage := fun h _ => absurd h (by decide)

theorem scrubRates : Statement .scrubRates := fun h _ => absurd h (by decide)

theorem preempt : Statement .preempt := fun h _ => absurd h (by decide)

theorem resume : Statement .resume := fun h _ => absurd h (by decide)

theorem kill : Statement .kill := fun h _ => absurd h (by decide)

theorem checkpoint : Statement .checkpoint := fun h _ => absurd h (by decide)

theorem reload : Statement .reload := fun h _ => absurd h (by decide)

theorem meshAndShards : Statement .meshAndShards := fun h _ => absurd h (by decide)

theorem debugCtl : Statement .debugCtl := fun h _ => absurd h (by decide)

theorem peers : Statement .peers := fun h _ => absurd h (by decide)

theorem crossDeviceBarrier : Statement .crossDeviceBarrier := fun h _ => absurd h (by decide)

theorem cdoor : Statement .cdoor := fun h _ => absurd h (by decide)

theorem supplyOff : Statement .supplyOff := fun h _ => absurd h (by decide)

theorem recalibration : Statement .recalibration := fun h _ => absurd h (by decide)

theorem atomicTagSetExpiry : Statement .atomicTagSetExpiry := fun h _ => absurd h (by decide)

end Sys2Proof.Laws.Encoding
end

