-- ==== Sys2Proof/Safety.lean ====
section
/-! DEFINITION. What counts as a safe run, in the terms the claims use: no step stops the machine, and every byte memory keeps its
canonical form. -/

namespace Sys2Proof.Machine

/-- The canonical form of a core's byte memories. -/
def Core.memWf (k : Core) : Bool := k.pool.wf && k.die.wf

/-- Every byte memory of the machine is in canonical form: HBM, host memory, the mailbox buffers, every scratchpad pool and operand
die. -/
def State.memWf (s : State) : Bool :=
  s.hbm.wf && s.host.wf && s.cmdbuf.wf && s.rspbuf.wf && s.cores.all (fun e => e.2.memWf)

/-- The states that a machine reaches from one. -/
inductive Reaches (s : State) : State → Prop where
  | refl : Reaches s s
  | step (t u : State) : Reaches s t → step t = .next u → Reaches s u

/-- A step that goes on. -/
def State.goesOn (s : State) : Prop := ∃ t, step s = .next t

/-- A run is safe when every state it reaches goes on. -/
def State.safe (s : State) : Prop := ∀ t, Reaches s t → t.goesOn

/-! Terms of the statements: when an issued instruction acts, and what it leaves. -/

/-- The fragment in hand may act: its registers are in range, its role may issue the instruction, no result it needs is pending, and
nothing it reads is poisoned or has a parity error. `pr` says that predicates are read, `m` and `xs` which lanes read which sources. -/
abbrev State.Ready (s : State) (c : Cur) (r : Roles) (all : Bool) (us : List Use) (pr : Bool) (m : BitVec 32) (xs : Nat → List Src) : Prop :=
  s.cur = some c ∧ s.inRange c us = true ∧ r.allows (s.cw c).role = true ∧ s.pendIds c all us = []
    ∧ s.anyParity c m xs = false ∧ (pr && s.predPoison c) = false ∧ s.anyPoison c m xs = false

/-- An instruction with a vector result may act; `rd` says that it reads D too. -/
abbrev State.VecReady (s : State) (c : Cur) (r : Roles) (k : Bool) (g : BitVec 3) (d : BitVec 6) (xs : List Src) (rd : Bool) : Prop :=
  s.Ready c r false (xs.map srcUse ++ [if rd then .v d.toNat else useD k d]) (g ≠ 0) (s.act c g) (fun _ => if rd then xs ++ [.v d] else xs)

/-- A fibre with a latch result: it enters l0 and the others move down (R39). -/
def Fibre.latched (f : Fibre) (x : Word) : Fibre := { f with l0 := some x, l1 := f.l0, l2 := f.l1, l3 := f.l2, lbad := f.lbad <<< 1 }

/-- A fibre after its instruction: at `pc`, or at the next repetition of the instruction, one more retirement since its restart point and in its life (R402). -/
def Fibre.after (f : Fibre) (c : Cur) (units : Nat) (pc : BitVec 57) : Fibre :=
  { f with
    pc := pc
    rep := if c.last then 0 else c.rep + 1
    pfx := if c.last then {} else c.pfx
    word := if c.last then 0 else c.word
    wait := .none, readyAt := units, since := f.since + 1, life := f.life + 1 }

/-- The address after an instruction: the next word, or the same one for its next repetition (R98, R107). -/
def Cur.nextPc (c : Cur) : BitVec 57 := if c.last then c.pc + 4 else c.pc

/-- A crew whose fragment has retired its instruction: `g` is what the instruction does to a fibre of the fragment. Every other fibre
is as it was, and of the crew only registers, FFLAGS, RETI, the watchdog, the last PC and the end of the fragment's prefix unit have
changed (R17, R39, R103, R402, R406). -/
structure Crew.WentOn (w w' : Crew) (c : Cur) (g : Nat → Fibre → Fibre) : Prop where
  lanes : ∀ l, w'.fibre l = if c.lanes.getLsbD l then (g l (w.fibre l)).after c w.units c.nextPc else w.fibre l
  rest : w' = { w with
    fibres := w'.fibres, v := w'.v, s := w'.s, m := w'.m, mtag := w'.mtag, fflags := w'.fflags
    reti := w.reti + popMask c.lanes, wdog := 0, unit := w.unitApart c.lanes, lastPc := c.pc }

/-- The flags that the lanes of a mask raise: primaries alone in tandem mode (R65). -/
def Crew.raised (w : Crew) (m : BitVec 32) (fl : Nat → FSet) : FSet :=
  (lanesOf m).foldl (fun a l => if w.tandem && l % 2 = 1 then a else a ||| fl l) 0

/-- What an instruction with a vector result leaves: only the crew of the fragment differs; D holds `x l` in every lane of `m` unless K;
`x l` enters the latches there; the flags are raised; every other register, flag and fibre is as it was. -/
def State.VecDone (s t : State) (c : Cur) (k : Bool) (d : BitVec 6) (m : BitVec 32) (x : Nat → Word) (fl : FSet) : Prop :=
  ∃ w', t = s.setCrew c.core c.slot w'
    ∧ (s.cw c).WentOn w' c (fun l f => if m.getLsbD l then f.latched (x l) else f)
    ∧ w'.s = (s.cw c).s ∧ w'.m = (s.cw c).m ∧ w'.mtag = (s.cw c).mtag ∧ w'.fflags = (s.cw c).fflags ||| fl
    ∧ ∀ l n, l < 32 → w'.vreg l n =
        if k = false ∧ m.getLsbD l = true ∧ n = ((s.cw c).fibre l).wbase.toNat + d.toNat then { val := x l } else (s.cw c).vreg l n

/-- What an instruction with a uniform result leaves, when some fibre is active. -/
def State.UniDone (s t : State) (c : Cur) (k : Bool) (d : BitVec 5) (m : BitVec 32) (x : Word) : Prop :=
  ∃ w', t = s.setCrew c.core c.slot w'
    ∧ (s.cw c).WentOn w' c (fun l f => if m.getLsbD l then f.latched x else f)
    ∧ w'.v = (s.cw c).v ∧ w'.m = (s.cw c).m ∧ w'.mtag = (s.cw c).mtag ∧ w'.fflags = (s.cw c).fflags
    ∧ ∀ n, w'.sreg n = if k = false ∧ n = d.toNat then { val := x } else (s.cw c).sreg n

/-- What an instruction leaves that writes no register: `g` is its effect on a fibre of the fragment. -/
def State.FibreDone (s t : State) (c : Cur) (g : Nat → Fibre → Fibre) (fl : FSet) : Prop :=
  ∃ w', t = s.setCrew c.core c.slot w' ∧ (s.cw c).WentOn w' c g
    ∧ w'.v = (s.cw c).v ∧ w'.s = (s.cw c).s ∧ w'.m = (s.cw c).m ∧ w'.mtag = (s.cw c).mtag ∧ w'.fflags = (s.cw c).fflags ||| fl

/-- A fibre with predicate `n` written and every other predicate kept; p0 is not writable and reads 1 (R17, R133). -/
structure Fibre.PredSet (f f' : Fibre) (n : Nat) (b : Bool) : Prop where
  zero : n = 0 → f' = f
  bits : n ≠ 0 → ∀ q, f'.pred q = if q = n then b else f.pred q
  poison : n ≠ 0 → f'.predPoison = false
  rest : f' = { f with preds := f'.preds, predPoison := f'.predPoison }

end Sys2Proof.Machine
end

