-- ==== Sys2Proof/Safety/Rules.lean ====
section
/-! DEFINITION. The spec's tables of results, written as relations between operands and result for the statements: they use no
arithmetic of the meanings. -/

namespace Sys2Proof.Machine

/-- Element `k` of width `w` of a packed value (R143). -/
def el (w k : Nat) (x : Word) : BitVec w := x.extractLsb' (w * k) w

/-- Every element of a result comes from the same element of A and B (R148). -/
def Els (w : Nat) (f : BitVec w → BitVec w → BitVec w) (a b r : Word) : Prop := ∀ k, k < 64 / w → el w k r = f (el w k a) (el w k b)

/-- An exact result clamped to the signed type of width `w` (R109). -/
def clampS (w : Nat) (v : Int) : BitVec w := BitVec.ofInt w (max (-2 ^ (w - 1)) (min v (2 ^ (w - 1) - 1)))

/-- Wrapping arithmetic, or the exact result clamped under saturation (R109, R148). -/
def orClamp (w : Nat) (sat : Bool) (wrap : BitVec w → BitVec w → BitVec w) (exact : Int → Int → Int) (x y : BitVec w) : BitVec w :=
  if sat then clampS w (exact x.toInt y.toInt) else wrap x y

/-- The integer instructions of format A with elements of A and B: each with the relation of R148 or R149 between saturation, the
values of A and B, and the result. -/
def intRules : List ((OpA → Instr) × (Bool → Word → Word → Word → Prop)) :=
  [ (.addD, fun t => Els 64 (orClamp 64 t (· + ·) (· + ·)))
  , (.addW, fun t => Els 32 (orClamp 32 t (· + ·) (· + ·)))
  , (.addH, fun t => Els 16 (orClamp 16 t (· + ·) (· + ·)))
  , (.addB, fun t => Els 8 (orClamp 8 t (· + ·) (· + ·)))
  , (.subD, fun t => Els 64 (orClamp 64 t (· - ·) (· - ·)))
  , (.subW, fun t => Els 32 (orClamp 32 t (· - ·) (· - ·)))
  , (.subH, fun t => Els 16 (orClamp 16 t (· - ·) (· - ·)))
  , (.subB, fun t => Els 8 (orClamp 8 t (· - ·) (· - ·)))
  , (.mulD, fun t => Els 64 (orClamp 64 t (· * ·) (· * ·)))
  , (.mulW, fun t => Els 32 (orClamp 32 t (· * ·) (· * ·)))
  , (.mulhD, fun _ a b r => r = BitVec.ofInt 64 (a.toInt * b.toInt / 2 ^ 64))
  , (.mulhuD, fun _ a b r => r = BitVec.ofNat 64 (a.toNat * b.toNat / 2 ^ 64))
  , (.andD, fun _ a b r => ∀ i, r.getLsbD i = (a.getLsbD i && b.getLsbD i))
  , (.orD, fun _ a b r => ∀ i, r.getLsbD i = (a.getLsbD i || b.getLsbD i))
  , (.xorD, fun _ a b r => ∀ i, r.getLsbD i = (a.getLsbD i != b.getLsbD i))
  , (.andn, fun _ a b r => ∀ i, r.getLsbD i = (a.getLsbD i && !b.getLsbD i))
  , (.addsH, fun _ => Els 16 (fun x y => clampS 16 (x.toInt + y.toInt)))
  , (.subsH, fun _ => Els 16 (fun x y => clampS 16 (x.toInt - y.toInt)))
  , (.addusB, fun _ => Els 8 (fun x y => BitVec.ofNat 8 (min 255 (x.toNat + y.toNat))))
  , (.subusB, fun _ => Els 8 (fun x y => BitVec.ofNat 8 (x.toNat - y.toNat)))
  , (.minH, fun _ => Els 16 (fun x y => if y.slt x then y else x))
  , (.maxH, fun _ => Els 16 (fun x y => if x.slt y then y else x))
  , (.minW, fun _ => Els 32 (fun x y => if y.slt x then y else x))
  , (.maxW, fun _ => Els 32 (fun x y => if x.slt y then y else x))
  , (.shlD, fun _ a b r => r = a <<< (b.setWidth 6))
  , (.shrD, fun _ a b r => r = a >>> (b.setWidth 6))
  , (.sarD, fun _ a b r => r = a.sshiftRight' (b.setWidth 6))
  , (.rotD, fun _ a b r => ∀ i, i < 64 → r.getLsbD ((i + (b.setWidth 6).toNat) % 64) = a.getLsbD i) ]

/-- How many of the lowest `n` bits of a value are 1. -/
def ones (n : Nat) (x : Word) : Nat := ((List.range n).filter (fun i => x.getLsbD i)).length

/-- `z` is the count of leading zeros of the low `n` bits of `x`. -/
def Leading (n : Nat) (x : Word) (z : Nat) : Prop :=
  z ≤ n ∧ (∀ i, n - z ≤ i → i < n → x.getLsbD i = false) ∧ (z < n → x.getLsbD (n - z - 1) = true)

/-- The operations of BITU, each with the relation of R151 between the value of A and the result. -/
def bituRules : List ((OpA1 → Instr) × (Word → Word → Prop)) :=
  [ (.clzD, fun a r => Leading 64 a r.toNat)
  , (.ctzD, fun a r => r.toNat ≤ 64 ∧ (∀ i, i < r.toNat → a.getLsbD i = false) ∧ (r.toNat < 64 → a.getLsbD r.toNat = true))
  , (.popcD, fun a r => r.toNat = ones 64 a)
  , (.brevD, fun a r => ∀ i, i < 64 → r.getLsbD (63 - i) = a.getLsbD i)
  , (.bswapD, fun a r => ∀ i, i < 8 → el 8 (7 - i) r = el 8 i a)
  , (.clzW, fun a r => Leading 32 a r.toNat)
  , (.popcW, fun a r => r.toNat = ones 32 a)
  , (.sextW, fun a r => r.toInt = (el 32 0 a).toInt)
  , (.zextW, fun a r => r.toNat = (el 32 0 a).toNat)
  , (.sextH, fun a r => r.toInt = (el 16 0 a).toInt)
  , (.sextB, fun a r => r.toInt = (el 8 0 a).toInt) ]

/-- The floating instructions of format A over elements of A and B, each with its format and the operation of that format under a
rounding mode (R152, R153). -/
def fpRules : List ((OpA → Instr) × Fmt × (RMode → Nat → Nat → Nat × FSet)) :=
  [ (.faddD, fmtD, fmtD.fadd)
  , (.faddS, fmtS, fmtS.fadd)
  , (.faddH, fmtH, fmtH.fadd)
  , (.faddB, fmtB, fmtB.fadd)
  , (.fsubD, fmtD, fmtD.fsub)
  , (.fsubS, fmtS, fmtS.fsub)
  , (.fsubH, fmtH, fmtH.fsub)
  , (.fsubB, fmtB, fmtB.fsub)
  , (.fmulD, fmtD, fmtD.fmul)
  , (.fmulS, fmtS, fmtS.fmul)
  , (.fmulH, fmtH, fmtH.fmul)
  , (.fmulB, fmtB, fmtB.fmul)
  , (.fminD, fmtD, fun _ => fmtD.fminmax false)
  , (.fminS, fmtS, fun _ => fmtS.fminmax false)
  , (.fminH, fmtH, fun _ => fmtH.fminmax false)
  , (.fmaxD, fmtD, fun _ => fmtD.fminmax true)
  , (.fmaxS, fmtS, fun _ => fmtS.fminmax true)
  , (.fmaxH, fmtH, fun _ => fmtH.fminmax true)
  , (.fscaleD, fmtD, fun m a b => fscale m a (BitVec.ofNat 64 b).toInt) ]

/-- FFMA and FNMA by format; the flag says that the product is subtracted (R152, R153). -/
def fmaRules : List ((OpA → Instr) × Fmt × Bool) :=
  [ (.ffmaD, fmtD, false)
  , (.ffmaS, fmtS, false)
  , (.ffmaH, fmtH, false)
  , (.ffmaB, fmtB, false)
  , (.fnmaD, fmtD, true)
  , (.fnmaS, fmtS, true) ]

/-- Elements of a floating result: every element and the flags of all of them (R65, R143). -/
def FpEls (f : Fmt) (g : Nat → Nat × FSet) (r : Word) (fl : FSet) : Prop :=
  (∀ k, k < 64 / f.width → el f.width k r = BitVec.ofNat f.width (g k).1)
    ∧ fl = (List.range (64 / f.width)).foldl (fun a k => a ||| (g k).2) 0

/-- The group-5 instructions of two sources: whether D is read, and the result with its flags under a rounding mode (R164 to R168). -/
def sfu2Rules : List ((Op5 → Instr) × Bool × (RMode → Word → Word → Word → Word × FSet)) :=
  [ (.cvtq, true, fun _ a b d => cvtqWord a b d)
  , (.deq, false, fun m a b _ => deqWord m a b)
  , (.fdivD, false, fun m a b _ => fpEls fmtD (fmtD.fdiv m) a b)
  , (.fdivS, false, fun m a b _ => fpEls fmtS (fmtS.fdiv m) a b)
  , (.idivD, false, fun _ a b _ => (if b = 0 then BitVec.allOnes 64 else a.sdiv b, 0))
  , (.idivuD, false, fun _ a b _ => (if b = 0 then BitVec.allOnes 64 else a / b, 0)) ]

/-- The group-5 instructions of one source: format and operation (R166, R167). -/
def sfu1Rules : List ((Op51 → Instr) × Fmt × (RMode → Nat → Nat × FSet)) :=
  [ (.fsqrtD, fmtD, fmtD.fsqrt)
  , (.fsqrtS, fmtS, fmtS.fsqrt)
  , (.frcpS, fmtS, fmtS.frcp)
  , (.frsqS, fmtS, fmtS.frsq)
  , (.fexp2S, fmtS, fexp2)
  , (.flog2S, fmtS, flog2)
  , (.fsinpS, fmtS, fsinp)
  , (.fcospS, fmtS, fcosp)
  , (.ftanhS, fmtS, ftanh) ]

/-- Whether a condition holds of two integers: `e` they are equal, `l` signed less, `u` unsigned less (R156). -/
def condOfInts (k : Cond) (e l u : Bool) : Bool :=
  match k with
  | .eq => e
  | .ne => !e
  | .lt => l
  | .le => l || e
  | .ltu => u
  | .leu => u || e
  | .unord => false
  | .ord => true

/-- The condition of R156 on the low `w` bits of two values. -/
def condInt (w : Nat) (k : Cond) (a b : Word) : Bool :=
  condOfInts k (el w 0 a == el w 0 b) ((el w 0 a).slt (el w 0 b)) ((el w 0 a).ult (el w 0 b))

/-- The condition of R156 on two floating values, by how they compare. -/
def condFp (k : Cond) (x y : FVal) : Bool :=
  match k, x.cmp y with
  | .eq, .eq => true
  | .ne, .lt => true
  | .ne, .gt => true
  | .ne, .un => true
  | .lt, .lt => true
  | .le, .lt => true
  | .le, .eq => true
  | .ltu, .lt => true
  | .ltu, .un => true
  | .leu, .lt => true
  | .leu, .eq => true
  | .leu, .un => true
  | .unord, .un => true
  | .ord, .lt => true
  | .ord, .eq => true
  | .ord, .gt => true
  | _, _ => false

/-- The flag of a floating compare: NV for a signalling NaN (R156). -/
def snanFlag (x y : FVal) : FSet := if x.isSnan || y.isSnan then flagNV else 0

/-- The compares of format C into predicates: the role, the condition on the values of A and B, and the flags (R157, R177). -/
def cmpRules : List ((OpC → Instr) × Roles × (Cond → Word → Word → Bool × FSet)) :=
  [ (.icmpD, .any, fun k a b => (condInt 64 k a b, 0))
  , (.icmpW, .any, fun k a b => (condInt 32 k a b, 0))
  , (.ucmp, .any, fun k a b => (condInt 64 k a b, 0))
  , (.fcmpD, .vector, fun k a b => (condFp k (fmtD.decode a.toNat) (fmtD.decode b.toNat), snanFlag (fmtD.decode a.toNat) (fmtD.decode b.toNat)))
  , (.fcmpS, .vector, fun k a b =>
      (condFp k (fmtS.decode (el 32 0 a).toNat) (fmtS.decode (el 32 0 b).toNat)
      , snanFlag (fmtS.decode (el 32 0 a).toNat) (fmtS.decode (el 32 0 b).toNat))) ]

/-- The operations on two predicates (R158). -/
def predRules : List ((OpP → Instr) × (Bool → Bool → Bool)) := [(.pand, and), (.por, or), (.pxor, xor)]

/-- The mask compares: role, element width, condition and flags on two elements (R160). -/
def maskRules : List ((OpC → Instr) × Roles × Nat × (Cond → Nat → Nat → Bool × FSet)) :=
  [ (.vcmpmH, .any, 16, fun k a b => (condInt 16 k (BitVec.ofNat 64 a) (BitVec.ofNat 64 b), 0))
  , (.vcmpmB, .any, 8, fun k a b => (condInt 8 k (BitVec.ofNat 64 a) (BitVec.ofNat 64 b), 0))
  , (.fcmpmH, .vector, 16, fun k a b => (condFp k (fmtH.decode a) (fmtH.decode b), snanFlag (fmtH.decode a) (fmtH.decode b))) ]

/-- The uniform instructions of two sources (R176). -/
def uniRules : List ((OpU → Instr) × (Word → Word → Word)) :=
  [ (.uadd, fun a b => a + b)
  , (.usub, fun a b => a - b)
  , (.umul, fun a b => a * b)
  , (.uand, fun a b => a &&& b)
  , (.uor, fun a b => a ||| b)
  , (.uxor, fun a b => a ^^^ b)
  , (.ushl, fun a b => a <<< b.setWidth 6)
  , (.ushr, fun a b => a >>> b.setWidth 6)
  , (.usar, fun a b => a.sshiftRight' (b.setWidth 6))
  , (.umin, fun a b => if b.slt a then b else a)
  , (.umax, fun a b => if a.slt b then b else a) ]

/-- What the issue of a group-5 instruction leaves: an entry at the end of the core's queue with the results of the lanes of `m`, the
registers of their windows, and their flags, and the fragment past the instruction with its latches invalid; no register and no flag has changed yet (R38, R161). -/
def State.SfuQueued (s t : State) (c : Cur) (d : BitVec 6) (m : BitVec 32) (x : Nat → Word) (fl : FSet) : Prop :=
  ∃ w', t = (s.newId.2.modCore c.core (fun k => { k with sfu := k.sfu ++
      [{ id := s.nextId, slot := c.slot, lanes := c.lanes, pc := c.pc, word := c.word, rep := c.rep, flags := fl,
         results := (lanesOf m).map (fun l => (l, ((s.cw c).fibre l).wbase.toNat + d.toNat, { val := x l })) }] })).setCrew c.core c.slot w'
    ∧ (s.cw c).WentOn w' c (fun _ f => f.noLatch)
    ∧ w'.v = (s.cw c).v ∧ w'.s = (s.cw c).s ∧ w'.m = (s.cw c).m ∧ w'.mtag = (s.cw c).mtag ∧ w'.fflags = (s.cw c).fflags

/-- A lane's element of A in the lane that an exchange names: 0 from a slot without a live fibre, and beyond the allocation (R169). -/
def Crew.given (w : Crew) (lane v : Nat) (a : Src) : Elem := w.xread (w.srcLane lane v) (srcV a)

/-- A mask's lane order: the lanes that a lane's instruction takes together, shadows apart in tandem mode (R47). -/
def Crew.others (w : Crew) (m : BitVec 32) (l : Nat) : List Nat := (lanesOf m).filter (fun q => !w.tandem || q % 2 == l % 2)

/-- `x` has the bit of every visible lane among `ls` that satisfies `p`, and no other. -/
def Crew.MaskOf (w : Crew) (ls : List Nat) (p : Nat → Bool) (x : Word) : Prop :=
  ∀ v, x.getLsbD v = true ↔ ∃ q ∈ ls, w.visible q = v ∧ p q = true

/-- The exchanges: the visible lanes that a lane reads, and the relation between what they hold and its result, from the lane number, the
value of B, the number of visible lanes and the result (R170, R171). -/
def xchgRules : List ((OpA → Instr) × (Nat → Nat → Word → List Nat) × (Nat → Nat → Word → (Nat → Word) → Word → Prop)) :=
  let perm (z : Nat) (n : Nat) (b : Word) (k : Nat) : Nat := (el z k b).toNat % (n * (64 / z))
  let permRow (z : Nat) : (Nat → Nat → Word → List Nat) × (Nat → Nat → Word → (Nat → Word) → Word → Prop) :=
    (fun _ n b => (List.range (64 / z)).map (fun k => perm z n b k / (64 / z)),
     fun _ n b a r => ∀ k, k < 64 / z → el z k r = el z (perm z n b k % (64 / z)) (a (perm z n b k / (64 / z))))
  [ (.permD, permRow 64)
  , (.permW, permRow 32)
  , (.permH, permRow 16)
  , (.permB, permRow 8)
  , (.bcast, fun _ n b => [b.toNat % n], fun _ n b a r => r = a (b.toNat % n))
  , (.subperm, fun v _ b => [8 * (v / 8) + b.toNat % 8], fun v _ b a r => r = a (8 * (v / 8) + b.toNat % 8))
  , (.rotxH, fun v n b => (List.range 4).map (fun k => (4 * v + k + b.toNat % (4 * n)) % (4 * n) / 4),
     fun v n b a r => ∀ k, k < 4 →
       el 16 k r = el 16 ((4 * v + k + b.toNat % (4 * n)) % (4 * n) % 4) (a ((4 * v + k + b.toNat % (4 * n)) % (4 * n) / 4))) ]

/-- The reductions over the active lanes: the relation of R172 to R174 between the lanes taken together, their values, the lane and its
result. -/
def redRules : List ((OpA1 → Instr) × (Crew → List Nat → (Nat → Word) → Nat → Word → Prop)) :=
  [ (.ballot, fun w ls a _ r => w.MaskOf ls (fun q => a q != 0) r)
  , (.redadd, fun _ ls a _ r => r = (ls.map a).sum)
  , (.redmin, fun _ ls a _ r => (∃ q ∈ ls, r = a q) ∧ ∀ q ∈ ls, r.toInt ≤ (a q).toInt)
  , (.redmax, fun _ ls a _ r => (∃ q ∈ ls, r = a q) ∧ ∀ q ∈ ls, (a q).toInt ≤ r.toInt)
  , (.scanadd, fun _ ls a l r => r = ((ls.filter (fun q => decide (q ≤ l))).map a).sum)
  , (.matchD, fun w ls a l r => w.MaskOf ls (fun q => a q == a l) r)
  , (.matchS, fun w ls a l r =>
      let z (x : Word) : BitVec 32 := if el 32 0 x = 0x80000000#32 then 0 else el 32 0 x
      w.MaskOf ls (fun q => z (a q) == z (a l)) r) ]

/-- The vector loads of format M: the kind of load, whether its accesses need only lie in one grain, and the unit of the offset
(R293, R295, R300, R303). -/
def loadRules : List ((OpM → Instr) × LoadKind × Bool) :=
  [ (.ldB, .plain 1 false, true)
  , (.ldBs, .plain 1 true, true)
  , (.ldH, .plain 2 false, true)
  , (.ldHs, .plain 2 true, true)
  , (.ldW, .plain 4 false, true)
  , (.ldWs, .plain 4 true, true)
  , (.ldD, .plain 8 false, true)
  , (.ldQ, .quad, true)
  , (.ldncD, .nocache, false) ]

/-- The destinations of a vector load. -/
def loadDst (k : LoadKind) (d : BitVec 6) : List Use := if k = .quad then [.v d.toNat, .v (d.toNat + 1)] else [.v d.toNat]

/-- The effective address of format M: A plus the offset in units of the access (R293). -/
def effAddr (a : Word) (off : BitVec 7) (n : Nat) : Word := a + off.signExtend 64 * BitVec.ofNat 64 n

/-- The accesses of a mask of lanes whose places are `pl`. -/
def placedLanes (m : BitVec 32) (ea : Nat → Word) (pl : Nat → Place) : List PLane :=
  (lanesOf m).map (fun l => { lane := l, va := (ea l).toNat, place := pl l })

/-- The atomics: code, size, and the new word from the old one and the two operands (R309). -/
def atomRules : List ((OpM → Instr) × Nat × (Word → Word → Word → Word)) :=
  [ (.aadd, 8, fun old a _ => old + a)
  , (.amin, 9, fun old a _ => if a.slt old then a else old)
  , (.amax, 10, fun old a _ => if old.slt a then a else old)
  , (.aand, 11, fun old a _ => old &&& a)
  , (.aor, 12, fun old a _ => old ||| a)
  , (.axch, 13, fun _ a _ => a)
  , (.acas, 14, fun old a b => if old = a then b else old) ]

/-- The CSR instructions: whether sD is read, and from the register's value and sD the value written to its RW fields and the bits written
as 1 to its W1C fields, or none where nothing is written (R192). -/
def csrRules : List ((OpCsr → Instr) × Bool × (Word → Word → Option (Word × Word))) :=
  [ (.csrr, false, fun _ _ => none)
  , (.csrw, true, fun _ x => some (x, x))
  , (.csrs, true, fun old x => some (old ||| x, x))
  , (.csrc, true, fun old x => some (old &&& ~~~x, 0)) ]

/-- The unit in progress of a crew, or an empty one (R103). -/
def Crew.open_ (w : Crew) : Pfx := match w.unit with
  | some u => u.pfx
  | none => {}

/-- What a hint that joins a unit leaves: the fragment is at the next word, its unit is `p`, and nothing else of the crew has changed
(R103, R105). -/
structure Crew.Joined (w w' : Crew) (c : Cur) (p : Pfx) : Prop where
  lanes : ∀ l, w'.fibre l = if c.lanes.getLsbD l then { w.fibre l with pc := c.pc + 4 } else w.fibre l
  rest : w' = { w with fibres := w'.fibres, unit := some { lanes := c.lanes, pc := c.pc + 4, pfx := p } }

/-- What a NOP outside a sequence leaves: the fragment at the next word, after the issue unit that its issue has counted (R22, R105). -/
structure Crew.Stepped (w w' : Crew) (c : Cur) : Prop where
  lanes : ∀ l, w'.fibre l = if c.lanes.getLsbD l then { w.fibre l with pc := c.pc + 4, readyAt := w.units } else w.fibre l
  rest : w' = { w with fibres := w'.fibres }

/-- The CNTCTL operations: code, class, whether they wait for the crew's PROGs, what IDX and B must satisfy, and the relation between the
state, the issue, IDX, B, the state after the change and the value that was read (R418). -/
def cntRules : List ((OpU → Instr) × Nat × Bool × Bool × (State → Nat → Nat → Prop) × (State → Cur → Nat → Nat → State → Word → Prop)) :=
  [ (.cntctlEvsel, 0, false, false, fun _ i b => i < 4 ∧ b ≤ 10, fun s c i b t r =>
      r = BitVec.ofNat 64 (Tab.get (s.cw c).evSel 0 i) ∧ ∃ w', t = s.setCrew c.core c.slot w'
        ∧ w' = { s.cw c with evSel := w'.evSel, ev := w'.ev }
        ∧ ∀ k, Tab.get w'.evSel 0 k = (if k = i then b else Tab.get (s.cw c).evSel 0 k) ∧ Tab.get w'.ev 0 k = (if k = i then 0 else Tab.get (s.cw c).ev 0 k))
  , (fun _ => .cntctlTrmask, 1, false, false, fun _ _ b => b < 65536, fun s c _ b t r =>
      r = (s.cw c).trmask.setWidth 64 ∧ t = s.setCrew c.core c.slot { s.cw c with trmask := BitVec.ofNat 16 b })
  , (fun _ => .cntctlPclr, 2, false, true, fun _ _ b => b = 0, fun s c i _ t r =>
      let k := s.crewCtx c.core c.slot
      r = Tab.get (s.ctx k).prog 0 i ∧ ∃ f, t = s.modCtx k f ∧ f (s.ctx k) = { s.ctx k with prog := (f (s.ctx k)).prog }
        ∧ ∀ j, Tab.get (f (s.ctx k)).prog 0 j = if j = i then 0 else Tab.get (s.ctx k).prog 0 j)
  , (fun _ => .cntctlSample, 3, true, false, fun _ _ b => b = 0 ∨ 10 ≤ b ∧ b ≤ 40, fun s c _ b t r =>
      r = (s.core c.core).samplePeriod.setWidth 64 ∧ t = s.modCore c.core (fun k => { k with samplePeriod := BitVec.ofNat 6 b }))
  , (fun _ => .cntctlTrlo, 4, true, false, fun _ _ b => b % 4 = 0 ∧ b < 2 ^ 57, fun s _ _ b t r =>
      r = s.trial.lo.setWidth 64 ∧ t = { s with trial := { s.trial with lo := BitVec.ofNat 57 b } })
  , (fun _ => .cntctlTrhi, 5, true, false, fun _ _ b => b % 4 = 0 ∧ b < 2 ^ 57, fun s _ _ b t r =>
      r = s.trial.hi.setWidth 64 ∧ t = { s with trial := { s.trial with hi := BitVec.ofNat 57 b } })
  , (fun _ => .cntctlTrstart, 6, true, false, fun s _ b => b % 256 ≠ 0 ∧ b < 2 ^ 40 ∧ s.trial.lo.toNat < s.trial.hi.toNat, fun s c _ b t r =>
      let k := s.crewCtx c.core c.slot
      r = 0 ∧ t = { s.modCtx k (fun x => { x with trdly := 0 }) with trial :=
        { s.trial with active := true, ctx := k, delay := b % 256, endAt := if b < 256 then none else some (s.cycle + 1024 * (b / 256)) } })
  , (fun _ => .cntctlTrstop, 7, true, false, fun _ _ b => b = 0, fun s c _ _ t r =>
      r = BitVec.ofNat 64 (s.ctx (s.crewCtx c.core c.slot)).trdly ∧ t = { s with trial := { s.trial with active := false, endAt := none } })
  , (fun _ => .cntctlEclr, 8, true, false, fun _ _ b => b < 10, fun s _ _ b t r =>
      r = BitVec.ofNat 64 (Tab.get s.ce 0 b) ∧ t = { s with ce := t.ce, ue := t.ue, elost := t.elost }
        ∧ ∀ j, Tab.get t.ce 0 j = (if j = b then 0 else Tab.get s.ce 0 j) ∧ Tab.get t.ue 0 j = (if j = b then 0 else Tab.get s.ue 0 j)
          ∧ Tab.get t.elost 0 j = (if j = b then 0 else Tab.get s.elost 0 j))
  , (fun _ => .cntctlDstop, 9, true, false, fun _ _ b => b < 2, fun s c _ b t r =>
      let k := s.crewCtx c.core c.slot
      r = (if (s.ctx k).dstop then 1 else 0) ∧ t = s.modCtx k (fun x => { x with dstop := b = 1 })) ]

/-- The counters that every crew may read, by their selector (R399). -/
def counterRules : List (Nat × (State → Cur → Nat)) :=
  [ (0x00, fun s _ => s.cycle), (0x01, fun s _ => s.timeNs), (0x02, fun s c => (s.cw c).reti), (0x03, fun s c => s.retg (s.cw c).group)
  , (0x04, fun s c => (s.cw c).iss), (0x05, fun s c => (s.cw c).ackCl), (0x06, fun s c => (s.cw c).ackDv), (0x07, fun s c => (s.cw c).ackSy)
  , (0x08, fun s c => min (s.cw c).wdog (2 ^ 32 - 1))
  , (0x0C, fun s c => Tab.get (s.cw c).ev 0 0), (0x0D, fun s c => Tab.get (s.cw c).ev 0 1), (0x0E, fun s c => Tab.get (s.cw c).ev 0 2)
  , (0x0F, fun s c => Tab.get (s.cw c).ev 0 3)
  , (0x18, fun s c => (s.ctx (s.crewCtx c.core c.slot)).trdly), (0x19, fun s c => (s.ctx (s.crewCtx c.core c.slot)).trlost) ]

/-- A queue instruction may act, and in tandem mode its pairs agree (R48, R334). -/
abbrev State.QueueReady (s : State) (c : Cur) (r : Roles) (g : BitVec 3) (us : List Use) (xs : List Src) : Prop :=
  s.Ready c r false us (g ≠ 0) (s.act c g) (fun _ => xs) ∧ s.pairsDiffer c (s.act c g) (fun l => xs.map ((s.cw c).val l)) = false

/-- What a swap point with a status leaves: sD holds it, the fragment's latches are gone, and nothing else of the crew's registers has
changed (R38, R39). -/
def State.StatusDone (s t : State) (c : Cur) (d : BitVec 5) (x : Word) : Prop :=
  ∃ w', t = s.setCrew c.core c.slot w' ∧ (s.cw c).WentOn w' c (fun _ f => f.noLatch)
    ∧ w'.v = (s.cw c).v ∧ w'.m = (s.cw c).m ∧ w'.mtag = (s.cw c).mtag ∧ w'.fflags = (s.cw c).fflags
    ∧ ∀ n, w'.sreg n = if n = d.toNat then { val := x } else (s.cw c).sreg n

/-- What the issue of a copy leaves: the copy at the end of its core's queue, not started; one more copy in the crew's open batch; the batch's
number in sD (R333, R335, R336). `v` is the machine once an earlier batch of that number, 65,536 behind, no longer has it (R337). -/
def State.CopyQueued (s t : State) (c : Cur) (d : BitVec 5) (kind : CopyKind) (total : Nat) : Prop :=
  let w := s.cw c
  let n := (w.lastBatch + 1).toNat
  let v := if w.batches.any (fun b => b.no = n && !b.sealed_) then s else s.freshBatch c
  ∃ u bs, u = (v.newId.2.modCore c.core (fun k => { k with copies := k.copies ++
        [{ id := v.nextId, slot := c.slot, group := w.group, batch := n, kind := kind, ctx := s.crewCtx c.core c.slot
           tag := s.crewTag c.core c.slot, lid := s.crewLid c.core c.slot, total := total, pol := c.policy }] })).setCrew c.core c.slot
      { v.cw c with batches := bs }
    ∧ ((∀ b ∈ (v.cw c).batches, b.no ≠ n) → bs = (v.cw c).batches ++ [{ no := n, left := 1 }])
    ∧ ((∃ b ∈ (v.cw c).batches, b.no = n) → bs = (v.cw c).batches.map (fun b => if b.no = n then { b with left := b.left + 1 } else b))
    ∧ u.StatusDone t c d (BitVec.ofNat 64 n)

/-- The ring descriptor at an offset of a crew's partition, readable and well formed (R332); `u` is the machine after the read. -/
def State.RingIs (s : State) (c : Cur) (off : Nat) (u : State) (r : Ring) : Prop :=
  let g := (s.cw c).group
  off % 16 = 0 ∧ off + 16 ≤ (s.group g).padLimit ∧ u = s.touchPad g off 16 ∧ (u.padRead g off 16).2 = false ∧ u.ringAt g off = some r

/-- A group-12 instruction may act: its operand tags and elements are sound in every active lane (R133, R194). -/
abbrev State.LaneReady (s : State) (c : Cur) (g : BitVec 3) (us : List Use) (tags : List (BitVec 4)) (vs : List Src) : Prop :=
  s.Ready c .vector false us (g ≠ 0) (s.act c g) (fun _ => vs)
    ∧ ∀ l, (s.act c g).getLsbD l = true → ∀ k ∈ tags,
      ((s.cw c).mtagOf k.toNat l).bad = false ∧ ∀ q, q < 49 → ((s.cw c).mel k.toNat l q).poison = false

/-- The encoding at a position of a lane's result: 0 unless it is listed. -/
def elAt (es : List (Nat × Nat)) (q : Nat) : Nat := ((es.find? (fun e => e.1 = q)).map Prod.snd).getD 0

/-- What a group-12 instruction leaves, with `x l` the result of lane `l`: the matrix register `d`, the vector register that is named and the
flags of every lane of `m`, the crew's FFLAGS, and nothing else but the retirement (R194). -/
def State.LaneDone (s t : State) (c : Cur) (d : Nat) (m : BitVec 32) (x : Nat → LRes) : Prop :=
  let w := s.cw c
  ∃ w', t = s.setCrew c.core c.slot w'
    ∧ w.WentOn w' c (fun l f => if m.getLsbD l then { f with mflags := (f.mflags ||| (x l).mf) &&& ~~~(x l).clr } else f)
    ∧ w'.s = w.s ∧ w'.fflags = w.fflags ||| w.raised m (fun l => (x l).ff)
    ∧ (∀ l n, l < 32 → w'.vreg l n = match (if m.getLsbD l then (x l).vec else none) with
        | some p => if n = (w.fibre l).wbase.toNat + p.1.toNat then { val := p.2 } else w.vreg l n
        | none => w.vreg l n)
    ∧ ∀ k l, k < 16 → l < 32 →
      let here (q : Nat) : Elem := match (if m.getLsbD l = true ∧ k = d then (x l).mat else none) with
        | some p => { val := BitVec.ofNat 64 (elAt p.2 q) }
        | none => w.mel k l q
      w'.mtagOf k l = (match (if m.getLsbD l = true ∧ k = d then (x l).mat else none) with
        | some p => { tag := p.1 }
        | none => w.mtagOf k l)
      ∧ ∀ q, q < 36 → w'.mel k l q = match (if m.getLsbD l = true ∧ k = d then (x l).one else none) with
        | some p => if q = p.1 then { val := BitVec.ofNat 64 p.2 } else here q
        | none => here q

/-- A group-12 instruction completes with the lane results `x`, or takes the arithmetic trap of the lanes that would set NPP or ZP while that
trap is enabled (R194, R207). -/
def State.LaneActs (s : State) (c : Cur) (d : Nat) (m : BitVec 32) (x : Nat → LRes) (o : Host.Outcome State Fault Refusal) : Prop :=
  let w := s.cw c
  let hit (b : BitVec 4) : BitVec 32 := maskOf ((lanesOf m).filter (fun l => (x l).mf &&& b ≠ 0))
  ((w.tnpp = false ∨ hit mfNPP = 0) → (w.tzp = false ∨ hit mfZP = 0) → ∃ t, o = .next t ∧ s.LaneDone t c d m x)
    ∧ (w.tnpp = true → hit mfNPP ≠ 0 → o = .next (s.takeFault c { cause := 7, sub := 1, lanes := hit mfNPP }))
    ∧ ((w.tnpp = false ∨ hit mfNPP = 0) → w.tzp = true → hit mfZP ≠ 0 → o = .next (s.takeFault c { cause := 7, sub := 2, lanes := hit mfZP }))

/-- The lane sets SHP and changes nothing else (R196). -/
def LRes.IsShp (x : LRes) : Prop := x.mat = none ∧ x.one = none ∧ x.vec = none ∧ x.mf = mfSHP ∧ x.clr = 0 ∧ x.ff = 0

/-- The lane writes a matrix: its shape, its elements, 0 at every position outside the shape, its matrix flags and its vector register. -/
def LRes.Gives (x : LRes) (rows cols : Nat) (ty : Bool) (e : Nat → Nat → Nat) (mf : BitVec 4) (v : Option (BitVec 6 × Word)) : Prop :=
  x.one = none ∧ x.clr = 0 ∧ x.mf = mf ∧ x.vec = v
    ∧ ∃ es, x.mat = some (mkTag rows cols ty, es)
      ∧ (rows ≤ 6 → cols ≤ 6 → ∀ i j, i < 6 → j < 6 → elAt es (6 * i + j) = if i < rows ∧ j < cols then e i j else 0)

/-- A matrix of roundings: the elements with the flags of all of them (R197). -/
def LRes.Rounds (x : LRes) (rows cols : Nat) (ty : Bool) (e : Nat → Nat → Nat × FSet) : Prop :=
  x.Gives rows cols ty (fun i j => (e i j).1) 0 none ∧ x.ff = (cells rows cols).foldl (fun a p => a ||| (e p.1 p.2).2) 0

/-- The elements of a matrix that satisfy `p` are finite. -/
def MView.finite (x : MView) (p : Nat → Nat → Bool) : Prop :=
  ∀ i j, i < x.r → j < x.c → p i j = true → (mfmt x.ty).isFin (x.el i j) = true

/-- `L` is the Cholesky factor of the first `n` rows of `A` by the recurrence of R202, every step rounded once and every pivot positive. -/
def CholOf (f : Fmt) (m : RMode) (n : Nat) (A L : Nat → Nat → Nat) : Prop :=
  (∀ i j, i < n → j < n → i < j → L i j = 0)
    ∧ ∀ j, j < n →
      let sum (i : Nat) : Rat2 := sumReal (f.decode (A i j) :: (List.range j).map (fun k => ((f.decode (L i k)).mulTerm (f.decode (L j k))).1.negate))
      0 < (sum j).num ∧ L j j = (f.round m false (sqrtReal (sum j))).1
        ∧ ∀ i, j < i → i < n → ∃ z, L i j = (f.round m z ((sum i).div (f.decode (L j j)).real)).1

/-- One step of a factorisation or solve (R197): `v` is the rounding of `base` less the products of the pairs, divided by `d` where it is
given. -/
def StepOf (f : Fmt) (m : RMode) (base : Nat) (ps : List (Nat × Nat)) (d : Option Nat) (v : Nat) : Prop :=
  let t := sumReal (f.decode base :: ps.map (fun p => ((f.decode p.1).mulTerm (f.decode p.2)).1.negate))
  ∃ z, v = (f.round m z (match d with
    | some x => t.div (f.decode x).real
    | none => t)).1

/-- The magnitude of a finite encoding's value. -/
def magOf (f : Fmt) (x : Nat) : Rat2 := match f.decode x with
  | .fin _ q => q
  | _ => .ofInt 0

/-- A row's number before rows `p` and `k` were exchanged. -/
def swapped (p k i : Nat) : Nat := if i = k then p else if i = p then k else i

/-- Column `k` of an LU factorisation by R204, every step finite: the working matrix before and after it, and its pivot, the lowest row
of the greatest magnitude. -/
def LuStep (f : Fmt) (m : RMode) (n k : Nat) (W W' : Nat → Nat → Nat) (p : Nat) : Prop :=
  ∃ c : Nat → Nat,
    (∀ i, k ≤ i → i < n → StepOf f m (W i k) ((List.range k).map (fun a => (W i a, W a k))) none (c i))
    ∧ k ≤ p ∧ p < n
    ∧ (∀ i, k ≤ i → i < n → (magOf f (c p)).lt (magOf f (c i)) = false) ∧ (∀ i, k ≤ i → i < p → (magOf f (c i)).lt (magOf f (c p)) = true)
    ∧ W' k k = c p
    ∧ (∀ j, k < j → j < n → StepOf f m (W p j) ((List.range k).map (fun a => (W p a, W a j))) none (W' k j))
    ∧ (∀ i, k < i → i < n → ((f.decode (c p)).isZero = true → W' i k = 0)
        ∧ ((f.decode (c p)).isZero = false → StepOf f m (c (swapped p k i)) [] (some (c p)) (W' i k)))
    ∧ ∀ i j, i < n → j < n → ¬(i = k ∧ k ≤ j) → ¬(j = k ∧ k < i) → W' i j = W (swapped p k i) j

/-- `E` holds the LU factors of the first `n` rows of `A` by the recurrence of R204, with the pivots `ps`. -/
def LuOf (f : Fmt) (m : RMode) (n : Nat) (A E : Nat → Nat → Nat) (ps : List Nat) : Prop :=
  ∃ W : Nat → Nat → Nat → Nat, (∀ i j, i < n → j < n → W 0 i j = A i j)
    ∧ (∀ k, k < n → LuStep f m n k (W k) (W (k + 1)) (ps.getD k 0)) ∧ ∀ i j, i < n → j < n → E i j = W n i j

/-- `E` solves for `c` right-hand sides `B` with the LU factors in `A` and their pivots, by the recurrence of R205. -/
def LuSolves (f : Fmt) (m : RMode) (n c : Nat) (A : Nat → Nat → Nat) (piv : Nat → Nat) (B E : Nat → Nat → Nat) : Prop :=
  ∃ (X : Nat → Nat → Nat → Nat) (y : Nat → Nat → Nat), (∀ i j, i < n → j < c → X 0 i j = B i j)
    ∧ (∀ k i j, k < n → i < n → j < c → X (k + 1) i j = X k (swapped (piv k) k i) j)
    ∧ ∀ i j, i < n → j < c →
      StepOf f m (X n i j) ((List.range i).map (fun a => (A i a, y a j))) none (y i j)
      ∧ StepOf f m (y i j) (((List.range n).filter (fun a => decide (i < a))).map (fun a => (A i a, E a j))) (some (A i i)) (E i j)

/-- The mailbox commands: the first PHASE in which each is accepted, and whether a failed device accepts it (R425, R428). -/
def mailRules : List (Instr × Nat × Bool) :=
  [ (.readErrorLog, 1, true), (.firmwareUpdate, 1, true), (.initialiseCmd, 2, false), (.readAttestation, 4, false), (.queueDescriptor, 3, false)
  , (.contextSet, 3, false), (.mapPage, 3, false), (.unmap, 3, false), (.protect, 3, false), (.pageAllocate, 3, false), (.pageFree, 3, false)
  , (.migrateHostPage, 3, false), (.scrubRates, 3, false), (.preempt, 3, false), (.resume, 3, false), (.kill, 3, false), (.checkpoint, 3, false)
  , (.reload, 3, false), (.meshAndShards, 3, false), (.debugCtl, 3, false), (.peers, 3, false), (.crossDeviceBarrier, 3, false) ]

/-- The machine while a command holds the mailbox (R423). -/
def State.taken (s : State) : State := { s with cstate := 1, cseq := BitVec.ofNat 32 s.ev.seq }

/-- The end of a command: its status, CSTATE 2, and MSI-X vector 0 (R423). -/
def State.answers (s : State) (st : Nat) : State := { s with cstatus := st, cstate := 2, busy := none, msix := s.msix ++ [0] }

/-- A command finds the mailbox free in a device that accepts commands of PHASE `n` (R423, R425, R428). -/
abbrev State.MailReady (s : State) (n : Nat) : Prop := s.reachable = true ∧ s.cstate ≠ 1 ∧ n ≤ s.phase ∧ s.phase ≠ 15 ∧ s.busy = none

end Sys2Proof.Machine
end

