-- ==== Sys2Proof/Certificates/Slice0/Obligations.lean ====
section
/-! DEFINITION. The statements for the provers. -/

open Sys2Proof Sys2Proof.Machine

/-- Words written out from the encoding tables of R91 to R101 decode to the instructions they stand for: one of each of several
formats, a hint and a guarded form among them. -/
def Obligations.DecodeOfSpecWords : Prop :=
  decodeWord 0x8250A002#32 = .ok (.faddD { b := .s 1, a := .v 20, d := 10, k := false, g := 0 })
  ∧ decodeWord 0x701440C1#32 = .ok (.addiD { imm := 56, a := .v 5, d := 4, k := false, g := 0 })
  ∧ decodeWord 0x8841904D#32 = .ok (.tmma { w := 4, t := 2, ad := 3, cv := 1, g := 0 })
  ∧ decodeWord 0x9520505B#32 = .ok (.cpy { sb := 10, sa := 8, d := 5, g := 0 })
  ∧ decodeWord 0x0001001C#32 = .ok (.mld { xp := false, stride := 0, a := .v 1, d := 0, g := 0 })
  ∧ decodeWord 0x0A083344#32 = .ok (.icmpiD { imm := 5, a := .v 2, p := 3, j := false, cond := .le })
  ∧ decodeWord 0x000C3084#32 = .ok (.pnot { pa := 3, p := 3, j := false })
  ∧ decodeWord 0x0004822F#32 = .ok (.hintRep { bst := 0, ast := 1, dst := 2, n := 2 })
  ∧ decodeWord 0xC9900058#32 = .ok (.fend { g := 0 })
  ∧ decodeWord 0xC990051B#32 = .ok (.release { g := 5 })
  ∧ decodeWord 0xFFFFFE1F#32 = .ok (.hintImm { p := 0xFFFFFE })

/-- Decode and encode agree: a well-formed instruction that has a word is read back from it with every operand, as the first row of
its word's family (R91 to R101). -/
def Obligations.DecodeEncodeAgree : Prop := ∀ i : Instr, Sys2Proof.Laws.Encoding.Statement i

/-- The turn of a crew at the head of the agenda runs the instruction that the word at the PC decodes to (R91, R101): the word is
fetched, decoded, put in hand with its fragment, given its meaning, and what settles by itself follows. Shown for an issue slot that no
causal trial holds (R414); the reads of its source registers fire an armed injection (R132). -/
def Obligations.StepRunsDecoded : Prop :=
  ∀ (s : State) (core sl : Nat) (rest : List Turn) (f : Frag) (u : State) (x : BitVec 32) (i : Instr),
    s.agenda = .issue core sl :: rest →
    (({ s with agenda := rest } : State).crew core sl).peloton = true →
    ({ s with agenda := rest } : State).crewReady core sl = true →
    ({ s with agenda := rest } : State).pick core sl = some f →
    (({ s with agenda := rest } : State).crew core sl).heldWord f = none →
    ({ s with agenda := rest } : State).holdSlot (({ s with agenda := rest } : State).curOf core sl f 0) = none →
    ({ s with agenda := rest } : State).fetch core sl f.pc = (u, .word x) →
    u.stalled (u.curOf core sl f x) = false →
    decodeWord x = .ok i → (u.curOf core sl f x).unitOk i = true →
    let c := { u.curOf core sl f x with ins := i }
    let b := u.beginIssue (u.curOf core sl f x)
    let j := b.selectForm c
    step s = andThen (exec j { b.touchSources c j with cur := some c }) (fun t => (t.issued core sl).settle)

/-- The turn of another agent at the head of the agenda is the meaning of its row, with its arguments. -/
def Obligations.StepRunsEvent : Prop :=
  ∀ (s : State) (i : Instr) (a : EvArg) (rest : List Turn), s.agenda = .event i a :: rest →
    step s = andThen (exec i { s with agenda := rest, ev := a, cur := none }) (fun t => ({ t with ev := {} } : State).settle)

/-- A word that is no instruction, or whose prefix does not suit it, takes the illegal-instruction fault, cause 8 (R101, R104): a word
that does not decode, in a turn of its crew, save that a hint with a payload at fault marks its unit; and an instruction that decodes in a
unit that does not suit it, or with a code that its unit makes reserved (R101, R104 to R109, R188). -/
def Obligations.ReservedWordFaults : Prop :=
  (∀ (s : State) (c : Cur) (e : DecodeErr), decodeWord c.word = .error e →
    s.decoded c = (if e = .badHint then .done (s.joinHint c (fun p => { p with bad := true })) else .done (s.takeFault c (faultOf 8 0))))
  ∧ ∀ (s : State) (c : Cur) (i : Instr), decodeWord c.word = .ok i →
    (c.unitOk i = false → s.decoded c = .done (s.takeFault c (faultOf 8 0)))
    ∧ (c.unitOk i = true ↔ isHint i = true ∨ c.pfx.bad = false ∧ prefixOk c.pfx i = true
        ∧ (∀ o, i = .region o → (c.imm o.imm).toNat < 65536) ∧ ∀ o, i = .trap o → (c.imm o.imm).toNat < 65536)

/-- What a reset leaves (R427, R428 and the reset columns of the register tables): PHASE 0 in a powered device, no core, group, node
or context with anything in it, a mailbox at rest, no error logged or still to be logged, no record on its way to a queue, and nothing
of the launch and event queues enabled. That no byte of HBM or of host memory is listed, so that every byte reads 0, is the model's
choice (DESIGN CHOICE, logs 1 and 4): R427 promises nothing of what HBM holds. -/
def Obligations.ResetState : Prop :=
  State.reset.phase = 0 ∧ State.reset.powered = true
  ∧ State.reset.cores = [] ∧ State.reset.groups = [] ∧ State.reset.nodes = [] ∧ State.reset.ctxs = []
  ∧ State.reset.hbm = [] ∧ State.reset.host = [] ∧ State.reset.cstate = 0 ∧ State.reset.cstatus = 0 ∧ State.reset.busy = none
  ∧ State.reset.errs = [] ∧ State.reset.errDue = [] ∧ State.reset.evout = []
  ∧ (∀ q, (Tab.get State.reset.lqs {} q).en = false ∧ (Tab.get State.reset.eqs {} q).en = false ∧ (Tab.get State.reset.els {} q).en = false)
  ∧ State.reset.memWf = true

/-- Every write of bytes keeps the canonical form of the memory it goes to, and reading a byte afterwards gives the byte written
there and the old byte everywhere else. -/
def Obligations.MemoryWrites : Prop :=
  ∀ (m : Memory) (a : Nat) (bs : List Byte), m.wf = true →
    (m.writeBytes a bs).wf = true
    ∧ ∀ n, (m.writeBytes a bs).read n = if a ≤ n ∧ n < a + bs.length then bs.getD (n - a) 0 else m.read n

/-- The checks of an instruction come before its effect, in their order (R28, R101, R121, R133, R146, R299): a register out of range is
fault 9, a role that may not issue it is fault 5, a pending operand is waited for, a latch with a parity error is a replay, and poison
is consumed. Shown for the integer and the floating instructions of format A. -/
def Obligations.ChecksBeforeEffect : Prop :=
  ∀ (m : OpA → Instr) (r : Roles), ((∃ R, (m, R) ∈ intRules) ∧ r = .any ∨ (∃ R, (m, R) ∈ fpRules) ∧ r = .vector) →
  ∀ (o : OpA) (s : State) (c : Cur), s.cur = some c →
    let xs := [c.srcA o.a, c.srcB o.b]
    let us := xs.map srcUse ++ [useD o.k (c.dst o.d)]
    (s.inRange c us = false → exec (m o) s = .next (s.takeFault c (faultOf 9 0)))
    ∧ (s.inRange c us = true → r.allows (s.cw c).role = false → exec (m o) s = .next (s.takeFault c (faultOf 5 0)))
    ∧ (s.inRange c us = true → r.allows (s.cw c).role = true → s.pendIds c false us ≠ [] →
        exec (m o) s = .next (s.hold c (.operands (s.pendIds c false us))))
    ∧ (s.inRange c us = true → r.allows (s.cw c).role = true → s.pendIds c false us = [] →
        s.anyParity c (s.act c o.g) (fun _ => xs) = true → exec (m o) s = .next (s.replay c))
    ∧ (s.inRange c us = true → r.allows (s.cw c).role = true → s.pendIds c false us = [] →
        s.anyParity c (s.act c o.g) (fun _ => xs) = false →
        (o.g ≠ 0 ∧ s.predPoison c = true ∨ s.anyPoison c (s.act c o.g) (fun _ => xs) = true) → exec (m o) s = .next (s.consume c))

/-- The integer instructions of groups 0 and 1 (R148, R149): the result in D of every active lane, unless K, and in its latches; no
flag; nothing else of the machine changes. Under HINT.MOD saturation ADD, SUB and MUL clamp (R109). -/
def Obligations.IntegerResults : Prop :=
  ∀ p ∈ intRules, ∀ (o : OpA) (s : State) (c : Cur),
    s.VecReady c .any o.k o.g (c.dst o.d) [c.srcA o.a, c.srcB o.b] false →
    ∃ t x, exec (p.1 o) s = .next t ∧ s.VecDone t c o.k (c.dst o.d) (s.act c o.g) x 0
      ∧ ∀ l, (s.act c o.g).getLsbD l = true → p.2 c.sat ((s.cw c).val l (c.srcA o.a)) ((s.cw c).val l (c.srcB o.b)) (x l)

/-- ADDI.D, ADDI.W and MOVI (R150): the sum with the immediate of R97, wrapped or clamped, and the immediate itself; a MOVI whose A is not
100 is no instruction. -/
def Obligations.ImmediateResults : Prop :=
  (∀ (o : OpI) (s : State) (c : Cur), s.VecReady c .any o.k o.g o.d [o.a] false →
    (∃ t, exec (.addiD o) s = .next t ∧ s.VecDone t c o.k o.d (s.act c o.g)
      (fun l => if c.sat then clampS 64 (((s.cw c).val l o.a).toInt + (c.imm o.imm).toInt) else (s.cw c).val l o.a + c.imm o.imm) 0)
    ∧ ∃ t, exec (.addiW o) s = .next t ∧ s.VecDone t c o.k o.d (s.act c o.g)
      (fun l => let a := ((s.cw c).val l o.a).setWidth 32
        (if c.sat then clampS 32 (a.toInt + (c.imm o.imm).toInt) else a + (c.imm o.imm).setWidth 32 : BitVec 32).signExtend 64) 0)
  ∧ (∀ (o : OpMov) (s : State) (c : Cur), s.VecReady c .any o.k o.g o.d [] false →
    ∃ t, exec (.movi o) s = .next t ∧ s.VecDone t c o.k o.d (s.act c o.g) (fun _ => c.imm o.imm) 0)
  ∧ ∀ w : BitVec 32, w.extractLsb' 0 4 = 1#4 → w.extractLsb' 4 4 = 14#4 → w.extractLsb' 18 7 ≠ 100#7 → ∃ e, decodeWord w = .error e

/-- The operations of BITU (R151): counts of leading, trailing and one bits, reversals and extensions. -/
def Obligations.BituResults : Prop :=
  ∀ p ∈ bituRules, ∀ (o : OpA1) (s : State) (c : Cur), s.VecReady c .any o.k o.g o.d [o.a] false →
    ∃ t x, exec (p.1 o) s = .next t ∧ s.VecDone t c o.k o.d (s.act c o.g) x 0
      ∧ ∀ l, (s.act c o.g).getLsbD l = true → p.2 ((s.cw c).val l o.a) (x l)

/-- The floating instructions of format A (R65, R143, R152, R153): element by element the operation of the format under the rounding
mode of the instruction, FFMA and FNMA from A, B and D; the flags of every active lane's elements are ORed into FFLAGS. -/
def Obligations.FloatResults : Prop :=
  (∀ p ∈ fpRules, ∀ (o : OpA) (s : State) (c : Cur),
    s.VecReady c .vector o.k o.g (c.dst o.d) [c.srcA o.a, c.srcB o.b] false →
    ∃ t x fl, exec (p.1 o) s = .next t ∧ s.VecDone t c o.k (c.dst o.d) (s.act c o.g) x ((s.cw c).raised (s.act c o.g) fl)
      ∧ ∀ l, (s.act c o.g).getLsbD l = true → FpEls p.2.1 (fun k => p.2.2 (s.rmode c)
          (el p.2.1.width k ((s.cw c).val l (c.srcA o.a))).toNat (el p.2.1.width k ((s.cw c).val l (c.srcB o.b))).toNat) (x l) (fl l))
  ∧ ∀ p ∈ fmaRules, ∀ (o : OpA) (s : State) (c : Cur),
    s.VecReady c .vector o.k o.g (c.dst o.d) [c.srcA o.a, c.srcB o.b] true →
    ∃ t x fl, exec (p.1 o) s = .next t ∧ s.VecDone t c o.k (c.dst o.d) (s.act c o.g) x ((s.cw c).raised (s.act c o.g) fl)
      ∧ ∀ l, (s.act c o.g).getLsbD l = true → FpEls p.2.1 (fun k => p.2.1.fma (s.rmode c) p.2.2
          (el p.2.1.width k ((s.cw c).val l (c.srcA o.a))).toNat (el p.2.1.width k ((s.cw c).val l (c.srcB o.b))).toNat
          (el p.2.1.width k ((s.cw c).val l (.v (c.dst o.d)))).toNat) (x l) (fl l)

/-- FABS, FNEG, FCLASS and FDOT2 (R60, R153 to R155): the sign bit of every element cleared or inverted and every other bit kept, NaNs
too; the class of every element of the format that FMT names; the dot products, rounded once. -/
def Obligations.FloatMoves : Prop :=
  (∀ p ∈ ([(.fabsD, 64, false), (.fabsS, 32, false), (.fnegD, 64, true), (.fnegS, 32, true)] : List ((OpA1 → Instr) × Nat × Bool)),
    ∀ (o : OpA1) (s : State) (c : Cur), s.VecReady c .vector o.k o.g (c.dst o.d) [c.srcA o.a] false →
    ∃ t x, exec (p.1 o) s = .next t ∧ s.VecDone t c o.k (c.dst o.d) (s.act c o.g) x 0
      ∧ ∀ l, (s.act c o.g).getLsbD l = true → ∀ b, b < 64 →
        (x l).getLsbD b = if b % p.2.1 = p.2.1 - 1 then p.2.2 && !((s.cw c).val l (c.srcA o.a)).getLsbD b
          else ((s.cw c).val l (c.srcA o.a)).getLsbD b)
  ∧ (∀ (o : OpCls) (s : State) (c : Cur), s.VecReady c .vector o.k o.g o.d [o.a] false →
    ∃ t x, exec (.fclass o) s = .next t ∧ s.VecDone t c o.k o.d (s.act c o.g) x 0
      ∧ ∀ l, (s.act c o.g).getLsbD l = true → ∀ q ∈ [(0, fmtD), (1, fmtS), (2, fmtH), (3, fmtB)], o.fmt.toNat = q.1 →
        FpEls q.2 (fun k => (q.2.fclass (el q.2.width k ((s.cw c).val l o.a)).toNat, 0)) (x l) 0)
  ∧ ∀ p ∈ ([(.fdot2H, fmtH), (.fdot2B, fmtB)] : List ((OpA → Instr) × Fmt)), ∀ (o : OpA) (s : State) (c : Cur),
    s.VecReady c .vector o.k o.g (c.dst o.d) [c.srcA o.a, c.srcB o.b] true →
    ∃ t, exec (p.1 o) s = .next t ∧ s.VecDone t c o.k (c.dst o.d) (s.act c o.g)
      (fun l => (fdot2 p.2 (s.rmode c) ((s.cw c).val l (c.srcA o.a)) ((s.cw c).val l (c.srcB o.b)) ((s.cw c).val l (.v (c.dst o.d)))).1)
      ((s.cw c).raised (s.act c o.g) (fun l =>
        (fdot2 p.2 (s.rmode c) ((s.cw c).val l (c.srcA o.a)) ((s.cw c).val l (c.srcB o.b)) ((s.cw c).val l (.v (c.dst o.d)))).2))

/-- FMIN and FMAX on any two operands (R63): the lesser and the greater, −0 below +0; the other operand when one is a NaN, the canonical NaN
when both are; NV for a signalling NaN. With it NaNs, infinities and zeros of the four operations in the four formats (points of R60 and R62):
the canonical NaN, and NV for a signalling NaN or an invalid sum, product, quotient or square root; a signed infinity and DZ for a division
by zero. -/
def Obligations.FloatSpecialCases : Prop :=
  ∀ f ∈ [fmtD, fmtS, fmtH, fmtB], ∀ (m : RMode) (a b : Nat),
    ((f.decode a).isNan = true ∨ (f.decode b).isNan = true →
      let nv := snanFlag (f.decode a) (f.decode b)
      f.fadd m a b = (f.nanBits, nv) ∧ f.fsub m a b = (f.nanBits, nv) ∧ f.fmul m a b = (f.nanBits, nv) ∧ f.fdiv m a b = (f.nanBits, nv))
    ∧ (∀ n k, f.decode a = .inf n → f.decode b = .inf k →
      f.fadd m a b = (if n = k then (f.encInf n, 0) else (f.nanBits, flagNV))
      ∧ f.fsub m a b = (if n = k then (f.nanBits, flagNV) else (f.encInf n, 0))
      ∧ f.fmul m a b = (f.encInf (n != k), 0) ∧ f.fdiv m a b = (f.nanBits, flagNV))
    ∧ (∀ n k q, f.decode a = .inf n → f.decode b = .fin k q → q.num = 0 → f.fmul m a b = (f.nanBits, flagNV))
    ∧ (∀ n k p q, f.decode a = .fin n p → f.decode b = .fin k q → q.num = 0 →
      f.fdiv m a b = if p.num = 0 then (f.nanBits, flagNV) else (f.encInf (n != k), flagDZ))
    ∧ (∀ p, f.decode a = .fin true p → p.num ≠ 0 → f.fsqrt m a = (f.nanBits, flagNV))
    ∧ ((f.decode a).isNan = true → (f.decode b).isNan = true → ∀ x, f.fminmax x a b = (f.nanBits, snanFlag (f.decode a) (f.decode b)))
    ∧ ((f.decode a).isNan = false → (f.decode b).isNan = false →
      let x := f.decode a
      let y := f.decode b
      (x.cmp y = .lt ∨ x.cmp y = .eq ∧ x.neg = true ∧ y.neg = false → f.fminmax false a b = (a, 0) ∧ f.fminmax true a b = (b, 0))
      ∧ (x.cmp y = .gt ∨ x.cmp y = .eq ∧ x.neg = false ∧ y.neg = true → f.fminmax false a b = (b, 0) ∧ f.fminmax true a b = (a, 0))
      ∧ (x.cmp y = .eq → x.neg = y.neg → ∀ k, f.fminmax k a b = (a, 0) ∨ f.fminmax k a b = (b, 0)))
    ∧ ((f.decode a).isNan = true → (f.decode b).isNan = false → ∀ x, f.fminmax x a b = (b, snanFlag (f.decode a) (f.decode b)))
    ∧ ((f.decode a).isNan = false → (f.decode b).isNan = true → ∀ x, f.fminmax x a b = (a, snanFlag (f.decode a) (f.decode b)))

/-- Rounding (R9, R61, R62): a representable value rounds to its own encoding under every mode and raises no flag; a result beyond the finite
range becomes the infinity or the largest finite value of its sign, by the mode. -/
def Obligations.RoundingExactAndOverflow : Prop :=
  ∀ f ∈ [fmtD, fmtS, fmtH, fmtB],
    (∀ (m : RMode) (a : Nat) (n : Bool) (q : Rat2), a < 2 ^ f.width → f.decode a = .fin n q → f.round m n (FVal.fin n q).real = (a, 0))
    ∧ ∀ (neg : Bool), f.overflow .rne neg = f.encInf neg
      ∧ f.overflow .rtz neg = f.encInf neg - 1
      ∧ f.overflow .rdn neg = (if neg then f.encInf neg else f.encInf neg - 1)
      ∧ f.overflow .rup neg = (if neg then f.encInf neg - 1 else f.encInf neg)

/-- A write of a predicate changes that predicate alone and clears the poison of the predicate word; p0 is hard-wired: it reads 1 and
a write of it is ignored (R17, R133). -/
def Obligations.PredicateWrites : Prop :=
  ∀ (f : Fibre) (p : BitVec 4) (b : Bool), (f.pred 0 = true) ∧ f.PredSet (f.setPred p.toNat b) p.toNat b

/-- Compares and predicate operations (R156 to R159, R172, R177): the condition, ANDed with the prior predicate under J, in every fibre
of the fragment whatever its guard; floating compares raise NV for a signalling NaN. The word of the example of R158 is its PAND. -/
def Obligations.PredicateResults : Prop :=
  decodeWord 0x04044054#32 = .ok (.pand { pb := 2, pa := 1, p := 4, j := false }) ∧
  (∀ p ∈ cmpRules, ∀ (o : OpC) (s : State) (c : Cur), s.Ready c p.2.1 false [srcUse o.a, srcUse o.b] o.j c.lanes (fun _ => [o.a, o.b]) →
    ∃ t, exec (p.1 o) s = .next t ∧ s.FibreDone t c
      (fun l f => f.setPred o.p.toNat ((p.2.2 o.cond ((s.cw c).val l o.a) ((s.cw c).val l o.b)).1 && (!o.j || f.pred o.p.toNat)))
      ((s.cw c).raised c.lanes (fun l => (p.2.2 o.cond ((s.cw c).val l o.a) ((s.cw c).val l o.b)).2)))
  ∧ (∀ (o : OpCI) (s : State) (c : Cur), s.Ready c .any false [srcUse o.a] o.j c.lanes (fun _ => [o.a]) →
    ∃ t, exec (.icmpiD o) s = .next t ∧ s.FibreDone t c
      (fun l f => f.setPred o.p.toNat (condInt 64 o.cond ((s.cw c).val l o.a) (c.imm o.imm) && (!o.j || f.pred o.p.toNat))) 0)
  ∧ (∀ p ∈ predRules, ∀ (o : OpP) (s : State) (c : Cur), s.Ready c .any false [] true c.lanes (fun _ => []) →
    ∃ t, exec (p.1 o) s = .next t ∧ s.FibreDone t c
      (fun _ f => f.setPred o.p.toNat (p.2 (f.pred o.pa.toNat) (f.pred o.pb.toNat) && (!o.j || f.pred o.p.toNat))) 0)
  ∧ (∀ (o : OpP1) (s : State) (c : Cur), s.Ready c .any false [] true c.lanes (fun _ => []) →
    ∃ t, exec (.pnot o) s = .next t ∧ s.FibreDone t c
      (fun _ f => f.setPred o.p.toNat (!f.pred o.pa.toNat && (!o.j || f.pred o.p.toNat))) 0)
  ∧ (∀ (o : OpVt) (s : State) (c : Cur), s.Ready c .any false [srcUse o.a, srcUse o.b] o.j c.lanes (fun _ => [o.a, o.b]) →
    ∃ t, exec (.vtop o) s = .next t ∧ s.FibreDone t c
      (fun l f => f.setPred o.p.toNat (((s.cw c).val l o.a).getLsbD (((s.cw c).val l o.b).setWidth 6).toNat && (!o.j || f.pred o.p.toNat))) 0)
  ∧ ∀ (o : OpVote) (s : State) (c : Cur), s.Ready c .any false [] true c.lanes (fun _ => []) →
    ∃ (t : State) (b : Nat → Bool), exec (.vote o) s = .next t ∧ s.FibreDone t c (fun l f => f.setPred o.p.toNat (b l && (!o.j || f.pred o.p.toNat))) 0
      ∧ ∀ l, c.lanes.getLsbD l = true →
        let holds (x : Bool) : Prop := ∀ q ∈ (s.cw c).peers l c.lanes, ((s.cw c).fibre q).pred o.pa.toNat = x
        (b l = true ↔ if o.mode.toNat = 0 then holds true else if o.mode.toNat = 1 then ¬ holds false else holds true ∨ holds false)

/-- Mask compares, SEL and PTOV (R159, R160): all ones in every element where the condition holds and zeros elsewhere, ANDed with D under
J, without a latch result; the source that the guard selects, in every fibre; the predicate word with bit 0 reading 1. -/
def Obligations.MasksAndSelections : Prop :=
  (∀ p ∈ maskRules, ∀ (o : OpC) (s : State) (c : Cur),
    s.Ready c p.2.1 false [srcUse o.a, srcUse o.b, .v o.p.toNat] false c.lanes
      (fun _ => if o.j then [o.a, o.b, .v (o.p.setWidth 6)] else [o.a, o.b]) →
    ∃ t w', exec (p.1 o) s = .next t ∧ t = s.setCrew c.core c.slot w' ∧ (s.cw c).WentOn w' c (fun _ f => f) ∧ w'.s = (s.cw c).s
      ∧ w'.m = (s.cw c).m ∧ w'.mtag = (s.cw c).mtag
      ∧ w'.fflags = (s.cw c).fflags ||| (s.cw c).raised c.lanes (fun l => (List.range (64 / p.2.2.1)).foldl (fun a k => a ||| (p.2.2.2 o.cond
          (el p.2.2.1 k ((s.cw c).val l o.a)).toNat (el p.2.2.1 k ((s.cw c).val l o.b)).toNat).2) 0)
      ∧ ∀ l n, l < 32 →
        if c.lanes.getLsbD l = true ∧ n = ((s.cw c).fibre l).wbase.toNat + o.p.toNat
        then (w'.vreg l n).poison = false ∧ ∀ k, k < 64 / p.2.2.1 → el p.2.2.1 k (w'.vreg l n).val =
          (if (p.2.2.2 o.cond (el p.2.2.1 k ((s.cw c).val l o.a)).toNat (el p.2.2.1 k ((s.cw c).val l o.b)).toNat).1
            then (if o.j then el p.2.2.1 k ((s.cw c).val l (.v (o.p.setWidth 6))) else BitVec.allOnes _) else 0)
        else w'.vreg l n = (s.cw c).vreg l n)
  ∧ (∀ (o : OpA) (s : State) (c : Cur),
    let pick (l : Nat) : Src := if ((s.cw c).fibre l).pred o.g.toNat then o.a else o.b
    s.Ready c .any false [srcUse o.a, srcUse o.b, useD o.k o.d] (o.g ≠ 0) c.lanes (fun l => [pick l]) →
    ∃ t, exec (.sel o) s = .next t ∧ s.VecDone t c o.k o.d c.lanes (fun l => (s.cw c).val l (pick l)) 0)
  ∧ ∀ (o : OpD) (s : State) (c : Cur), s.Ready c .any false [useD o.k o.d] true (s.act c o.g) (fun _ => []) →
    ∃ t x, exec (.ptov o) s = .next t ∧ s.VecDone t c o.k o.d (s.act c o.g) x 0
      ∧ ∀ l, (s.act c o.g).getLsbD l = true → ∀ q, (x l).getLsbD q = (decide (q < 16) && ((s.cw c).fibre l).pred q)

/-- The group-5 instructions (R161 to R168): with room in the core's queue of 16 the operands are read, the results and flags are queued,
and the fragment goes on with its latches invalid; a full queue is waited for. -/
def Obligations.SpecialFunctionIssues : Prop :=
  (∀ (o : OpCvt) (s : State) (c : Cur), s.Ready c .vector false [srcUse o.a, .v o.d.toNat] (o.g ≠ 0) (s.act c o.g) (fun _ => [o.a]) →
    ((s.core c.core).sfu.length < 16 → ∃ t, exec (.cvt o) s = .next t ∧ s.SfuQueued t c o.d (s.act c o.g)
      (fun l => (cvtWord o.sel (s.rmode c) ((s.cw c).val l o.a)).1)
      ((s.cw c).raised (s.act c o.g) (fun l => (cvtWord o.sel (s.rmode c) ((s.cw c).val l o.a)).2)))
    ∧ (16 ≤ (s.core c.core).sfu.length → exec (.cvt o) s = .next (s.hold c .sfuFull)))
  ∧ (∀ p ∈ sfu2Rules, ∀ (o : Op5) (s : State) (c : Cur),
    s.Ready c .vector false [srcUse (c.srcA o.a), srcUse (c.srcB o.b), .v (c.dst o.d).toNat] (o.g ≠ 0) (s.act c o.g)
      (fun _ => if p.2.1 then [c.srcA o.a, c.srcB o.b, .v (c.dst o.d)] else [c.srcA o.a, c.srcB o.b]) →
    (((s.core c.core).sfu.length < 16 →
      let x (l : Nat) : Word × FSet :=
        p.2.2 (s.rmode c) ((s.cw c).val l (c.srcA o.a)) ((s.cw c).val l (c.srcB o.b)) ((s.cw c).val l (.v (c.dst o.d)))
      ∃ t, exec (p.1 o) s = .next t ∧ s.SfuQueued t c (c.dst o.d) (s.act c o.g) (fun l => (x l).1) ((s.cw c).raised (s.act c o.g) (fun l => (x l).2)))
    ∧ (16 ≤ (s.core c.core).sfu.length → exec (p.1 o) s = .next (s.hold c .sfuFull))))
  ∧ ∀ p ∈ sfu1Rules, ∀ (o : Op51) (s : State) (c : Cur),
    s.Ready c .vector false [srcUse (c.srcA o.a), .v (c.dst o.d).toNat] (o.g ≠ 0) (s.act c o.g) (fun _ => [c.srcA o.a]) →
    ((s.core c.core).sfu.length < 16 → ∃ t x fl, exec (p.1 o) s = .next t
      ∧ s.SfuQueued t c (c.dst o.d) (s.act c o.g) x ((s.cw c).raised (s.act c o.g) fl)
      ∧ ∀ l, (s.act c o.g).getLsbD l = true →
        FpEls p.2.1 (fun k => p.2.2 (s.rmode c) (el p.2.1.width k ((s.cw c).val l (c.srcA o.a))).toNat) (x l) (fl l))
    ∧ (16 ≤ (s.core c.core).sfu.length → exec (p.1 o) s = .next (s.hold c .sfuFull))

/-- SPECIAL_FUNCTION_COMPLETE (R44, R66, R161): the oldest entry of a core's queue leaves it, its results stand in the registers that its
lanes named at issue, and its flags are in FFLAGS; an entry with a parity error is a replay of the fibres that issued it. The model's own
choices here (DESIGN CHOICE, log 33): the replay is held back inside a prefix unit of the crew, unless the unit itself waits for the queue;
and an entry in error all of whose lanes have exited goes without a write or a record. -/
def Obligations.SpecialFunctionCompletes : Prop :=
  (∀ s : State, (s.core s.ev.core).sfu = [] → exec .specialFunctionComplete s = .next s)
  ∧ ∀ (s : State) (q : SfuOp) (rest : List SfuOp), (s.core s.ev.core).sfu = q :: rest →
    let stays : Bool := (s.crew s.ev.core q.slot).inUnit ((q :: rest).map SfuOp.id)
    (s.ev.flag = true → stays = true → exec .specialFunctionComplete s = .next s)
    ∧ (s.ev.flag = true → stays = false → q.lanes = 0 →
      exec .specialFunctionComplete s = .next (s.modCore s.ev.core (fun k => { k with sfu := rest })))
    ∧ ((q.results.map Prod.fst).Nodup → (∀ e ∈ q.results, e.1 < 32) →
    (s.ev.flag = true → stays = false → q.lanes ≠ 0 → exec .specialFunctionComplete s = .next ((s.modCore s.ev.core (fun k => { k with sfu := rest })).replay
      { core := s.ev.core, slot := q.slot, lanes := q.lanes, pc := q.pc, word := q.word, ins := .hintNop, rep := q.rep }))
    ∧ (s.ev.flag = false → ∃ w' : Crew, exec .specialFunctionComplete s
        = .next ((s.modCore s.ev.core (fun k => { k with sfu := rest })).setCrew s.ev.core q.slot w')
      ∧ w' = { s.crew s.ev.core q.slot with v := w'.v, fflags := (s.crew s.ev.core q.slot).fflags ||| q.flags }
      ∧ ∀ l n, l < 32 → w'.vreg l n = match q.results.find? (fun e => e.1 = l) with
        | some e => if n = e.2.1 then e.2.2 else (s.crew s.ev.core q.slot).vreg l n
        | none => (s.crew s.ev.core q.slot).vreg l n))

/-- PERM, BCAST, SUBPERM and ROTX (R47, R169 to R171): each active lane's result from the lanes that B names; a slot without a live fibre
and a register beyond the allocation give 0, and a poisoned element among those read is consumed. -/
def Obligations.ExchangeResults : Prop :=
  ∀ p ∈ xchgRules, ∀ (o : OpA) (s : State) (c : Cur),
    s.Ready c .any true [srcUse (c.srcA o.a), srcUse (c.srcB o.b), useD o.k (c.dst o.d)] (o.g ≠ 0) (s.act c o.g) (fun _ => [c.srcB o.b]) →
    let w := s.cw c
    let bad : Prop := ∃ l, (s.act c o.g).getLsbD l = true ∧
      ∃ v ∈ p.2.1 (w.visible l) w.nl (w.val l (c.srcB o.b)), (w.given l v (c.srcA o.a)).poison = true
    (bad → exec (p.1 o) s = .next (s.consume c))
    ∧ (¬ bad → ∃ t x, exec (p.1 o) s = .next t ∧ s.VecDone t c o.k (c.dst o.d) (s.act c o.g) x 0
      ∧ ∀ l, (s.act c o.g).getLsbD l = true →
        p.2.2 (w.visible l) w.nl (w.val l (c.srcB o.b)) (fun v => (w.given l v (c.srcA o.a)).val) (x l))

/-- BALLOT, the reductions, SCANADD and MATCH over the active lanes, and LANEMASK (R172 to R174); with a B other than 100 none of them is an
instruction. -/
def Obligations.ReductionResults : Prop :=
  (∀ w : BitVec 32, w.extractLsb' 0 4 = 6#4 → w.extractLsb' 4 4 ∈ [6#4, 8#4, 9#4, 10#4, 11#4, 12#4, 13#4, 15#4] → w.extractLsb' 25 7 ≠ 100#7 →
    ∃ e, decodeWord w = .error e) ∧
  (∀ p ∈ redRules, ∀ (o : OpA1) (s : State) (c : Cur), s.VecReady c .any o.k o.g (c.dst o.d) [c.srcA o.a] false →
    ∃ t x, exec (p.1 o) s = .next t ∧ s.VecDone t c o.k (c.dst o.d) (s.act c o.g) x 0
      ∧ ∀ l, (s.act c o.g).getLsbD l = true →
        p.2 (s.cw c) ((s.cw c).others (s.act c o.g) l) (fun q => (s.cw c).val q (c.srcA o.a)) l (x l))
  ∧ ∀ (o : OpA1) (s : State) (c : Cur), s.VecReady c .any o.k o.g (c.dst o.d) [c.srcA o.a] false →
    ∃ t x, exec (.lanemask o) s = .next t ∧ s.VecDone t c o.k (c.dst o.d) (s.act c o.g) x 0
      ∧ ∀ l, (s.act c o.g).getLsbD l = true → l < 32 →
        let w := s.cw c
        let v := w.visible l
        let n := ((w.val l (c.srcA o.a)).setWidth 3).toNat
        (n = 0 → ∀ b, (x l).getLsbD b = decide (b = v))
        ∧ (n = 1 → ∀ b, (x l).getLsbD b = decide (b < v))
        ∧ (n = 2 → ∀ b, (x l).getLsbD b = decide (b ≤ v))
        ∧ (n = 3 → w.MaskOf (w.others w.liveMask l) (fun _ => true) (x l))
        ∧ (n = 4 → w.MaskOf (w.others c.lanes l) (fun _ => true) (x l))
        ∧ (n = 5 → w.MaskOf (w.others (s.act c o.g) l) (fun _ => true) (x l))
        ∧ (6 ≤ n → x l = 0)

/-- The uniform instructions (R175, R176): the result once, from the lane-independent sources, when some fibre is active; the latches of the
active fibres; nothing but the passing of the instruction when none is. UREAD takes the element of the lane that B names, and in tandem mode
compares the pair's first. -/
def Obligations.UniformResults : Prop :=
  let done (s : State) (c : Cur) (i : Instr) (k : Bool) (g : BitVec 3) (d : BitVec 5) (x : Word) : Prop :=
    ∃ t, exec i s = .next t ∧ if s.act c g = 0 then s.FibreDone t c (fun _ f => f) 0 else s.UniDone t c k d (s.act c g) x
  (∀ p ∈ uniRules, ∀ (o : OpU) (s : State) (c : Cur),
    s.Ready c .any false [srcUse (c.srcA o.a), srcUse (c.srcB o.b), useU o.k (c.dst o.d)] (o.g ≠ 0) (s.act c o.g) (fun _ => [c.srcA o.a, c.srcB o.b]) →
    done s c (p.1 o) o.k o.g (c.dst o.d) (p.2 (s.uval c (c.srcA o.a)) (s.uval c (c.srcB o.b))))
  ∧ (∀ (o : OpUI) (s : State) (c : Cur), s.Ready c .any false [srcUse o.a, useU o.k o.d] (o.g ≠ 0) (s.act c o.g) (fun _ => [o.a]) →
    done s c (.uaddi o) o.k o.g o.d (s.uval c o.a + c.imm o.imm)
    ∧ done s c (.umovh o) o.k o.g o.d (((s.uval c o.a).setWidth 40 ++ (c.imm o.imm).setWidth 24 : BitVec 64)))
  ∧ (∀ (o : OpUMov) (s : State) (c : Cur), s.Ready c .any false [useU o.k o.d] (o.g ≠ 0) (s.act c o.g) (fun _ => []) →
    done s c (.umovi o) o.k o.g o.d (c.imm o.imm))
  ∧ ∀ (o : OpU) (s : State) (c : Cur),
    s.Ready c .any true [srcUse (c.srcA o.a), srcUse (c.srcB o.b), useU o.k (c.dst o.d)] (o.g ≠ 0) (s.act c o.g) (fun _ => [c.srcB o.b]) →
    let w := s.cw c
    let v := (s.uval c (c.srcB o.b)).toNat % w.nl
    let a := w.given 0 v (c.srcA o.a)
    let b := w.given 1 v (c.srcA o.a)
    (a.poison = false → (w.tandem = true → b.poison = false ∧ b.val = a.val) → done s c (.uread o) o.k o.g (c.dst o.d) a.val)
    ∧ (s.act c o.g ≠ 0 → (a.poison = true ∨ w.tandem = true ∧ b.poison = true) → exec (.uread o) s = .next (s.consume c))
    ∧ (s.act c o.g ≠ 0 → a.poison = false → w.tandem = true → b.poison = false → a.val ≠ b.val → exec (.uread o) s = .next (s.mismatch c))

/-- BRA, BRX, CALL and RET (R24, R26, R48, R179) whose targets are code addresses: every active fibre goes to its target, the others of the
fragment to the next word; CALL leaves the address of the next word in v7 of every active lane; fibres that go different ways get the
lowest lane as their parent; the taken branch is traced where the crew's mask asks for it. -/
def Obligations.BranchesTaken : Prop :=
  let rows : List (Instr × BitVec 3 × List Src × Bool × Nat × (Cur → Crew → Nat → Word)) → Prop := fun rows =>
    ∀ p ∈ rows, ∀ (s : State) (c : Cur),
      s.Ready c .any false (p.2.2.1.map srcUse ++ [if p.2.2.2.1 then .v 7 else .none]) (p.2.1 ≠ 0) (s.act c p.2.1) (fun _ => p.2.2.1) →
      let w := s.cw c
      let m := s.act c p.2.1
      let target (l : Nat) : Word := p.2.2.2.2.2 c w l
      let go (l : Nat) : BitVec 57 := if m.getLsbD l then (target l).setWidth 57 else c.nextPc
      (∀ l, m.getLsbD l = true → (target l).toNat < 2 ^ 57 ∧ (target l).toNat % 4 = 0) →
      (w.sys = true → (m = 0 ∨ m = c.lanes) ∧ ∀ l k, c.lanes.getLsbD l = true → c.lanes.getLsbD k = true → target l = target k) →
      s.pairsDiffer c m (fun l => [target l]) = false →
      ∃ w', exec p.1 s = .next (if m = 0 then s.setCrew c.core c.slot w'
          else (s.setCrew c.core c.slot w').traceOn c p.2.2.2.2.1 (target (lowestLane m)).toNat 0)
        ∧ w' = { w with fibres := w'.fibres, v := w'.v, reti := w.reti + popMask c.lanes, wdog := 0, unit := w.unitApart c.lanes, lastPc := c.pc }
        ∧ (∀ l, c.lanes.getLsbD l = false → w'.fibre l = w.fibre l)
        ∧ (∀ l, c.lanes.getLsbD l = true → w'.fibre l = { (w.fibre l).after c w.units (go l) with parent := (w'.fibre l).parent })
        ∧ ((∀ l k, c.lanes.getLsbD l = true → c.lanes.getLsbD k = true → go l = go k) →
            ∀ l, (w'.fibre l).parent = (w.fibre l).parent)
        ∧ ((∃ l k, c.lanes.getLsbD l = true ∧ c.lanes.getLsbD k = true ∧ go l ≠ go k) →
            ∀ l, c.lanes.getLsbD l = true → (w'.fibre l).parent = BitVec.ofNat 5 (lowestLane c.lanes))
        ∧ ∀ l n, l < 32 → w'.vreg l n =
            if p.2.2.2.1 = true ∧ m.getLsbD l = true ∧ n = (w.fibre l).wbase.toNat + 7 then { val := (c.pc + 4).setWidth 64 } else w.vreg l n
  (∀ o : OpB, rows [(.bra o, o.g, [], false, 7, fun c _ _ => c.pc.setWidth 64 + 4 * o.off.signExtend 64),
                    (.call o, o.g, [], true, 8, fun c _ _ => c.pc.setWidth 64 + 4 * o.off.signExtend 64)])
  ∧ ∀ o : OpJ, rows [(.brx o, o.g, [o.a, o.b], false, 7, fun _ w l => w.val l o.a + w.val l o.b),
                     (.ret o, o.g, [o.a, o.b], false, 9, fun _ w l => w.val l o.a + w.val l o.b)]

/-- A branch to an address that is no code address has no effect and faults (R179, R297): at or above 2^57 is fault 2, subcode 1; otherwise
one that is not a multiple of 4 is fault 4, subcode 1. The fault names the lanes that have it and the lowest one's target. Before that, a
branch that would split the live fibres of a system-mode crew is an illegal instruction (R26, R179), and one whose pairs disagree in tandem
mode is a mismatch (R48). -/
def Obligations.BranchFaults : Prop :=
  let faults (i : Instr) (g : BitVec 3) (xs : List Src) (link : Bool) (target : State → Cur → Nat → Word) : Prop := ∀ (s : State) (c : Cur),
    s.Ready c .any false (xs.map srcUse ++ [if link then .v 7 else .none]) (g ≠ 0) (s.act c g) (fun _ => xs) →
    let w := s.cw c
    let m := s.act c g
    let to_ (l : Nat) : Word := target s c l
    let strays : Prop := w.sys = true
      ∧ (m ≠ 0 ∧ m ≠ c.lanes ∨ ∃ l k, c.lanes.getLsbD l = true ∧ c.lanes.getLsbD k = true ∧ to_ l ≠ to_ k)
    let far : List Nat := (lanesOf m).filter (fun l => decide (2 ^ 57 ≤ (to_ l).toNat))
    let odd : List Nat := (lanesOf m).filter (fun l => decide ((to_ l).toNat < 2 ^ 57) && decide ((to_ l).toNat % 4 ≠ 0))
    (strays → exec i s = .next (s.takeFault c (faultOf 8 0)))
    ∧ (¬ strays → s.pairsDiffer c m (fun l => [to_ l]) = true → exec i s = .next (s.mismatch c))
    ∧ (¬ strays → s.pairsDiffer c m (fun l => [to_ l]) = false →
      (far ≠ [] → exec i s = .next (s.takeFault c
        { cause := 2, sub := 1, lanes := maskOf far, addr := (to_ (far.headD 0)).toNat, other := !odd.isEmpty }))
      ∧ (far = [] → odd ≠ [] → exec i s = .next (s.takeFault c
        { cause := 4, sub := 1, lanes := maskOf odd, addr := (to_ (odd.headD 0)).toNat, other := false })))
  (∀ o : OpJ, ∀ i ∈ [Instr.brx o, .ret o], faults i o.g [o.a, o.b] false (fun s c l => (s.cw c).val l o.a + (s.cw c).val l o.b))
  ∧ ∀ o : OpB, faults (.bra o) o.g [] false (fun _ c _ => c.pc.setWidth 64 + 4 * o.off.signExtend 64)
      ∧ faults (.call o) o.g [] true (fun _ c _ => c.pc.setWidth 64 + 4 * o.off.signExtend 64)

/-- FEND and FSPAWN (R16, R19, R25, R180, R181): FEND exits the active fibres, in tandem mode by pairs, and the crew ends with its last
one; a fibre that an exited one spawned stands on its own, and the retirements of an exited one go to the nearest spawner that its
rewind would end it with (R20, R402); FSPAWN makes a fibre in each free slot asked for, in tandem mode a pair, with its PC, window and
parent, and gives the lanes whose request succeeded, 0 when no fibre is active. -/
def Obligations.FibresEndAndStart : Prop :=
  (∀ (o : OpG) (s : State) (c : Cur), s.Ready c .any false [] (o.g ≠ 0) (s.act c o.g) (fun _ => []) →
    let w := s.cw c
    let m := if w.tandem then w.physMask (w.visMask (s.act c o.g)) &&& c.lanes else s.act c o.g
    let gain (l : Nat) : Nat := (((lanesOf m).filter (fun k => w.ancestor m 32 k = some l)).map (fun k => (w.fibre k).life + 1)).sum
    let richer (l : Nat) (f : Fibre) : Fibre := { f with since := f.since + gain l, life := f.life + gain l }
    ∃ u : State, exec (.fend o) s = .next (u.reapCrew c.core c.slot)
      ∧ (∀ l, m.getLsbD l = true → ((u.crew c.core c.slot).fibre l).st = .exited)
      ∧ (∀ l, m.getLsbD l = false → c.lanes.getLsbD l = true →
          (u.crew c.core c.slot).fibre l = (richer l ((w.fibre l).after c w.units c.nextPc)).settled m)
      ∧ (∀ l, m.getLsbD l = false → c.lanes.getLsbD l = false → (u.crew c.core c.slot).fibre l = (richer l (w.fibre l)).settled m)
      ∧ (u.crew c.core c.slot).v = w.v ∧ (u.crew c.core c.slot).s = w.s
      ∧ ((u.crew c.core c.slot).liveMask ≠ 0 → u.reapCrew c.core c.slot = u)
      ∧ ((u.crew c.core c.slot).liveMask = 0 → c.slot ≠ 32 → u.reapCrew c.core c.slot = u.endCrew c.core c.slot))
  ∧ (∀ (o : OpU) (s : State) (c : Cur),
    s.Ready c .any false [srcUse o.a, srcUse o.b, useU o.k o.d] (o.g ≠ 0) (s.act c o.g) (fun _ => [o.a, o.b]) →
    (s.cw c).tandem = true → c.lanes &&& ~~~(s.cw c).liveMask = 0 →
    (∀ v, v < 16 → (((s.cw c).fibre (2 * v)).st = .live ↔ ((s.cw c).fibre (2 * v + 1)).st = .live)) →
    (∀ l, (s.act c o.g).getLsbD l = true → ((s.cw c).val l o.a).toNat < 2 ^ 57 ∧ ((s.cw c).val l o.a).toNat % 4 = 0) →
    let w := s.cw c
    let asks (v : Nat) : Prop := v < 16 ∧ (w.primaries (s.act c o.g)).getLsbD (2 * v) = true
    let slot (v : Nat) : Nat := (w.val (2 * v) o.b).toNat % 32
    ∃ (t : State) (w' : Crew) (r : BitVec 32), exec (.fspawn o) s = .next t ∧ t = s.setCrew c.core c.slot w' ∧ w'.v = w.v
      ∧ (∀ v, r.getLsbD v = true ↔ asks v ∧ w.sys = false ∧ slot v < 16 ∧ (w.fibre (2 * slot v)).st ≠ .live
          ∧ ∀ k, k < v → asks k → slot k ≠ slot v)
      ∧ (∀ n, w'.sreg n = if o.k = false ∧ n = o.d.toNat then { val := r.setWidth 64 } else w.sreg n)
      ∧ (∀ v j, r.getLsbD v = true → j < 2 → w'.fibre (2 * slot v + j) =
          { st := .live, pc := (w.val (2 * v) o.a).setWidth 57, wbase := (w.val (2 * v) o.b).extractLsb' 5 6
            restart := (w.val (2 * v) o.a).setWidth 57 - 4, parent := BitVec.ofNat 5 (lowestLane c.lanes)
            spawner := some (BitVec.ofNat 5 (2 * v + j)), readyAt := w.units, mflags := (w.fibre (2 * slot v + j)).mflags : Fibre })
      ∧ (∀ l, c.lanes.getLsbD l = true → w'.fibre l =
          ((if (s.act c o.g).getLsbD l then (w.fibre l).latched (r.setWidth 64) else w.fibre l).after c w.units c.nextPc))
      ∧ ∀ l, c.lanes.getLsbD l = false → (∀ v j, r.getLsbD v = true → j < 2 → 2 * slot v + j ≠ l) → w'.fibre l = w.fibre l)
  ∧ ∀ (o : OpU) (s : State) (c : Cur),
    s.Ready c .any false [srcUse o.a, srcUse o.b, useU o.k o.d] (o.g ≠ 0) (s.act c o.g) (fun _ => [o.a, o.b]) →
    (s.cw c).tandem = false → c.lanes &&& ~~~(s.cw c).liveMask = 0 →
    (∀ l, (s.act c o.g).getLsbD l = true → ((s.cw c).val l o.a).toNat < 2 ^ 57 ∧ ((s.cw c).val l o.a).toNat % 4 = 0) →
    let w := s.cw c
    let slot (l : Nat) : Nat := (w.val l o.b).toNat % 32
    ∃ (t : State) (w' : Crew) (r : BitVec 32), exec (.fspawn o) s = .next t ∧ t = s.setCrew c.core c.slot w' ∧ w'.v = w.v
      ∧ (∀ l, r.getLsbD l = true ↔ (s.act c o.g).getLsbD l = true ∧ w.sys = false ∧ (w.fibre (slot l)).st ≠ .live
          ∧ ∀ k, k < l → (s.act c o.g).getLsbD k = true → slot k ≠ slot l)
      ∧ (∀ n, w'.sreg n = if o.k = false ∧ n = o.d.toNat then { val := r.setWidth 64 } else w.sreg n)
      ∧ (∀ l, r.getLsbD l = true → w'.fibre (slot l) =
          { st := .live, pc := (w.val l o.a).setWidth 57, wbase := (w.val l o.b).extractLsb' 5 6, restart := (w.val l o.a).setWidth 57 - 4
            parent := BitVec.ofNat 5 (lowestLane c.lanes), spawner := some (BitVec.ofNat 5 l), readyAt := w.units
            mflags := (w.fibre (slot l)).mflags : Fibre })
      ∧ (∀ l, c.lanes.getLsbD l = true → w'.fibre l =
          ((if (s.act c o.g).getLsbD l then (w.fibre l).latched (r.setWidth 64) else w.fibre l).after c w.units c.nextPc))
      ∧ ∀ l, c.lanes.getLsbD l = false → (∀ k, r.getLsbD k = true → slot k ≠ l) → w'.fibre l = w.fibre l

/-- SYNCM and CVSET (R25, R30, R182, R183): an empty set is no wait; the first arrival fixes the set and waits; a second at another PC or with
another set faults, cause 11; CVSET binds a convergence register that no fibre has signed to the crew and its live fibres, a signed one
faults, cause 10, before A is read, so that a poisoned A is not consumed (R371). A handler crew has no convergence register (R376): its
CVSET takes fault 10, subcode 2, which is the model's reading (DEDUCED, log 8). -/
def Obligations.SetsOfFibres : Prop :=
  (∀ (o : OpS1) (s : State) (c : Cur), s.Ready c .any false [srcUse o.a] false c.lanes (fun _ => [o.a]) →
    let w := s.cw c
    let m := w.physMask ((s.uval c o.a).setWidth 32) &&& w.liveMask
    (w.sync = none → m = 0 → ∃ t, exec (.syncm o) s = .next t ∧ s.FibreDone t c (fun _ f => f.noLatch) 0)
    ∧ (w.sync = none → c.lanes &&& ~~~m = 0 → c.lanes ≠ 0 →
        exec (.syncm o) s = .next (((s.setCrew c.core c.slot { w with sync := some { mask := m, pc := c.pc } }).hold c .syncm).trySync c.core c.slot))
    ∧ (∀ y, w.sync = some y → y.pc ≠ c.pc → ∃ f, f.cause = 11 ∧ f.sub = 1 ∧ exec (.syncm o) s = .next (s.takeFault c f))
    ∧ (∀ y, w.sync = some y → y.pc = c.pc → y.mask &&& w.liveMask ≠ m → ∃ f, f.cause = 11 ∧ f.sub = 0 ∧ exec (.syncm o) s = .next (s.takeFault c f))
    ∧ (∀ y, w.sync = some y → y.pc = c.pc → y.mask &&& w.liveMask = m → c.lanes &&& ~~~m = 0 → c.lanes ≠ 0 →
        exec (.syncm o) s = .next ((s.hold c .syncm).trySync c.core c.slot)))
  ∧ (∀ (o : OpCv) (s : State) (c : Cur), s.cur = some c → s.inRange c [srcUse o.a] = true → s.pendIds c false [srcUse o.a] = [] →
    (c.slot ≠ 32 → ((s.group (s.cw c).group).cv o.cv.toNat).signed_ ≠ 0 → exec (.cvset o) s = .next (s.takeFault c (faultOf 10 1)))
    ∧ (c.slot = 32 → exec (.cvset o) s = .next (s.takeFault c (faultOf 10 2))))
  ∧ ∀ (o : OpCv) (s : State) (c : Cur), s.Ready c .any false [srcUse o.a] false c.lanes (fun _ => [o.a]) → c.slot ≠ 32 →
    let w := s.cw c
    let r := (s.group w.group).cv o.cv.toNat
    (r.signed_ = 0 → ∃ w', exec (.cvset o) s = .next ((s.modGroup w.group (fun g => g.setCv o.cv.toNat
          { owned := true, owner := w.no, set := w.primaries (w.physMask ((s.uval c o.a).setWidth 32)) &&& w.liveMask })).setCrew c.core c.slot w')
        ∧ w.WentOn w' c (fun _ f => f) ∧ w'.v = w.v ∧ w'.s = w.s ∧ w'.fflags = w.fflags)

/-- BARA, BARW and GBAR (R184 to R187, R280): an arrival at a well-formed barrier object counts, the last one of a phase starts the next and
releases its waiters, and the phase before is given; BARW waits while the phase is the one it names; GBAR waits for its gang. A misaligned
or foreign object and a malformed one fault. -/
def Obligations.BarriersMeet : Prop :=
  (∀ (o : OpBar) (s : State) (c : Cur) (off : Nat) (x : Nat), s.Ready c .any false [srcUse o.a, useU o.k o.d] false c.lanes (fun _ => [o.a]) →
    (s.cw c).fenceWaits 2 = false → (s.cw c).impr = [] →
    ((s.uval c o.a).toNat % 8 ≠ 0 → exec (.bara o) s = .next (s.takeFault c { cause := 4, sub := 1, addr := (s.uval c o.a).toNat }))
    ∧ ((s.uval c o.a).toNat % 8 = 0 → s.ownPad c (s.uval c o.a).toNat = none →
        exec (.bara o) s = .next (s.takeFault c { cause := 2, sub := 6, addr := (s.uval c o.a).toNat }))
    ∧ ((s.uval c o.a).toNat % 8 = 0 → s.ownPad c (s.uval c o.a).toNat = some off → s.touchPad (s.cw c).group off 8 = s →
        s.padRead (s.cw c).group off 8 = (leBytes 8 x, false) → x < 2 ^ 64 →
        let g := (s.cw c).group
        let count := x % 65536
        let arrived := x / 65536 % 65536
        let phase := x / 2 ^ 32 % 2
        (2 ^ 33 ≤ x ∨ count = 0 ∨ count ≤ arrived → exec (.bara o) s = .next (s.takeFault c { cause := 13, sub := 1 }))
        ∧ (x < 2 ^ 33 → arrived + 1 < count →
            exec (.bara o) s = .next ((((s.padObject g off (count + 65536 * (arrived + 1) + 2 ^ 32 * phase)).putU c o.k o.d c.lanes (BitVec.ofNat 64 phase)
              { restart := true }).comparePoint c.core c.slot 1
                (((s.padObject g off (count + 65536 * (arrived + 1) + 2 ^ 32 * phase)).putU c o.k o.d c.lanes (BitVec.ofNat 64 phase)
                  { restart := true }).crew c.core c.slot).reti c.lanes (!decide (c.lanes = (s.cw c).liveMask)) c.pfx.level)))
        ∧ (x < 2 ^ 33 → arrived + 1 = count →
            let u := ((s.padObject g off (count + 2 ^ 32 * (1 - phase))).releaseBarw g off).putU c o.k o.d c.lanes (BitVec.ofNat 64 phase) { restart := true }
            exec (.bara o) s = .next (u.comparePoint c.core c.slot 1 (u.crew c.core c.slot).reti c.lanes (!decide (c.lanes = (s.cw c).liveMask)) c.pfx.level))))
  ∧ (∀ (o : OpS2) (s : State) (c : Cur) (off : Nat) (x : Nat),
    s.Ready c .any false [srcUse o.a, srcUse o.b] false c.lanes (fun _ => [o.a, o.b]) →
    (s.uval c o.a).toNat % 8 = 0 → s.ownPad c (s.uval c o.a).toNat = some off → s.touchPad (s.cw c).group off 8 = s →
    s.padRead (s.cw c).group off 8 = (leBytes 8 x, false) → x < 2 ^ 33 → x / 65536 % 65536 < x % 65536 →
    let phase := decide (x / 2 ^ 32 % 2 = 1)
    let u := s.setTag (s.cw c).group off
    (phase = (s.uval c o.b).getLsbD 0 → exec (.barw o) s = .next (u.hold c (.barw off phase)))
    ∧ (phase ≠ (s.uval c o.b).getLsbD 0 → exec (.barw o) s = .next (u.retire c { swap := true })))
  ∧ ∀ (s : State) (c : Cur), s.Ready c .any false [] false 0 (fun _ => []) → (s.cw c).impr = [] →
    ((s.cw c).fenceWaits 2 = true → exec .gbar s = .next (s.hold c (.fence 2)))
    ∧ ((s.cw c).fenceWaits 2 = false → exec .gbar s = .next ((s.hold c .gbar).tryGbar (s.cw c).group))

/-- REGION and REGEND for a crew whose live fibres all stand there as one fragment (R40 to R42, R97, R188): REGION pushes its identifier,
REGEND pops one; every fibre goes on with its restart point at the instruction; a ninth REGION faults 12, subcode 1, and a REGEND without a
region 12, subcode 2. -/
def Obligations.RegionsPushAndPop : Prop :=
  ∀ (s : State) (c : Cur), s.Ready c .any false [] false 0 (fun _ => []) → c.slot < 32 →
    let w := s.cw c
    c.lanes = w.liveMask → c.lanes ≠ 0 → w.halted = false → (s.group w.group).haltReq = false →
    (∀ l, c.lanes.getLsbD l = true → (w.fibre l).pc = c.pc) → c.pfx.rep = none →
    let k : Cur := { core := c.core, slot := c.slot, lanes := c.lanes, pc := c.pc, word := c.word, ins := .hintNop, pfx := c.pfx }
    let went (t : State) (st : List (BitVec 16)) : Prop := (t.crew c.core c.slot).rstack = st ∧ (t.crew c.core c.slot).reti = w.reti + popMask c.lanes
      ∧ ∀ l, c.lanes.getLsbD l = true → ((t.crew c.core c.slot).fibre l).pc = c.pc + 4 ∧ ((t.crew c.core c.slot).fibre l).restart = c.pc
          ∧ ((t.crew c.core c.slot).fibre l).wait = .none
    (∀ o : OpRg, c.word.extractLsb' 4 4 = 11#4 → c.word.extractLsb' 25 7 = o.imm → (c.imm o.imm).toNat < 65536 →
      (w.rstack.length < 8 → ∃ u : State, exec (.region o) s = .next (u.traceOn k 10 ((c.imm o.imm).setWidth 16).toNat 0)
          ∧ (c.pfx.imm = none → went u ((o.imm.setWidth 16) :: w.rstack))
          ∧ (∀ x, c.pfx.imm = some x → went u (((x ++ o.imm : BitVec 31).setWidth 16) :: w.rstack)))
      ∧ (8 ≤ w.rstack.length → exec (.region o) s = .next ((s.hold c .region).takeFault k (faultOf 12 1))))
    ∧ (c.word.extractLsb' 4 4 = 12#4 →
      (∀ x st, w.rstack = x :: st → ∃ u : State, exec .regend s = .next (u.traceOn k 10 x.toNat 1) ∧ went u st)
      ∧ (w.rstack = [] → exec .regend s = .next ((s.hold c .region).takeFault k (faultOf 12 2))))

/-- TRAP (R189): the instruction retires for the fragment with its restart point there, and the active fibres take fault 15 with the code;
with none active it only passes. -/
def Obligations.TrapTakesFault : Prop :=
  ∀ (o : OpTr) (s : State) (c : Cur), s.Ready c .any false [] (o.g ≠ 0) (s.act c o.g) (fun _ => []) →
    exec (.trap o) s = .next (if s.act c o.g = 0 then s.retire c { swap := true, restart := true }
      else (s.retire c { swap := true, restart := true }).takeFault { c with lanes := s.act c o.g }
        { cause := 15, lanes := s.act c o.g, detail := ((c.imm o.imm).setWidth 16).toNat })

/-- TAKING AN EXCEPTION (R20, R44, R374 to R377): the instruction has no effect; its fragment is rewound to its restart point, and the fibres
that it spawned since then end. Where the context's
record queue has a free slot, the record is written there, the queue's TAIL advances, the fragment is suspended for that record and its
handler is queued; a full queue makes the trap wait; a queue that cannot be used, and a fault of a handler crew itself, fail the node. -/
def Obligations.ExceptionEntry : Prop :=
  ∀ (s : State) (c : Cur) (f0 : FaultInfo), f0.lanes ≠ 0 → f0.cause ≠ 6 →
    let w := s.cw c
    let f := { f0 with cv := if f0.cause = 8 then f0.cv else c.cvNo }
    let rest := c.lanes &&& ~~~(w.spawnedBy c.lanes)
    let t : TrapReq := { slot := c.slot, lanes := rest, frag := lowestLane c.lanes, prio := c.pfx.level, info := f, pc := c.pc, word := c.word
                         rep := c.rep, parent := (w.fibre (lowestLane c.lanes)).parent, sibs := w.sibs c.lanes }
    let p := (s.rewind c.core c.slot c.lanes false).modCrew c.core c.slot (fun w => w.modLanes rest (fun _ g => { g with wait := .suspended }))
    let ctx := p.crewCtx c.core c.slot
    let u := p.touchRecord ctx
    let res : BitVec 57 := ((u.crew c.core c.slot).fibre (lowestLane rest)).restart + 4
    let fv := { f with lanes := (u.crew c.core c.slot).visMask f.lanes }
    (w.sys = true → ∃ r : RecordCtx, r.handler = true ∧ r.pc = c.pc ∧ r.word = c.word
        ∧ s.takeFault c f0 = s.failTrap c.core c.slot { f with lanes := w.visMask f.lanes } r)
    ∧ (w.sys = false → (∀ l, (w.spawnedBy c.lanes).getLsbD l = true → ((p.crew c.core c.slot).fibre l).st = .exited)
      ∧ (∀ l, rest.getLsbD l = true → ((p.crew c.core c.slot).fibre l).wait = .suspended
        ∧ ((p.crew c.core c.slot).fibre l).pc = ((w.fibre l).restart + 4) ∧ ((p.crew c.core c.slot).fibre l).l0 = none)
      ∧ (u.recordSlot ctx = .full → s.takeFault c f0 =
          (u.modCrew c.core c.slot (fun w => w.modLanes rest (fun _ f => { f with wait := .recordSlot }))).modCore c.core
            (fun k => { k with traps := k.traps ++ [t] }))
      ∧ (u.recordSlot ctx = .bad → ∃ r : RecordCtx, r.unh = true ∧ s.takeFault c f0 = u.failTrap c.core c.slot fv r)
      ∧ ∀ a i, u.recordSlot ctx = .at_ a i → ∃ (r : RecordCtx) (v : State), r.pc = c.pc ∧ r.word = c.word ∧ r.rep = c.rep ∧ r.resume = res ∧ r.state = 1
          ∧ v = ((((u.devWrite ctx a (recordBytes fv r)).devWrite ctx ((u.ctx ctx).frptr.toNat + 8) (leBytes 4 ((i + 1) % 2 ^ 32))).dropRecord
              c.core ctx a).modCrew c.core c.slot (fun w => w.modLanes rest (fun _ f =>
                { f with wait := .suspended, record := a, recNo := i, resumeAt := res })))
          ∧ ((u.crew c.core c.slot).trmask.getLsbD 11 = false → s.takeFault c f0 = v.modCore c.core (fun k => { k with handlers := k.handlers ++
              [{ slot := c.slot, record := a, index := i, info := v.crewinfo c.core c.slot, group := (u.crew c.core c.slot).group, ctx := ctx }] })))

/-- RETT (R190, R377, R378): in user mode fault 2, subcode 10; in system mode it waits for its own stores to the record, then gives 1 where
no fragment has that record, and otherwise 0: with the record's KILL bit the suspended fibres exit; without it they go on with the latches
invalid, each after its restart point, or where RESUME was changed at RESUME; a poisoned record is consumed. -/
def Obligations.ReturnFromTrap : Prop :=
  ∀ (o : OpRt) (s : State) (c : Cur), s.Ready c .any false [srcUse o.a, .s o.d.toNat] false c.lanes (fun _ => [o.a]) →
    let a := (s.uval c o.a).toNat
    let mine := (s.core c.core).stq.filter (fun q => q.slot = c.slot && decide (a / 32 ≤ q.addr / 32) && decide (q.addr / 32 ≤ (a + 127) / 32))
    ((s.cw c).sys = false → exec (.rett o) s = .next (s.takeFault c { cause := 2, sub := 10 }))
    ∧ ((s.cw c).sys = true → mine ≠ [] → exec (.rett o) s = .next (s.hold c (.accepted a)))
    ∧ ((s.cw c).sys = true → mine = [] → s.rettTarget (s.crewCtx c.core c.slot) a = none →
        exec (.rett o) s = .next (s.putU c false o.d c.lanes 1 { swap := true }))
    ∧ ((s.cw c).sys = true → mine = [] → (s.returnFrom c.core c.slot a).2.2 = false →
        exec (.rett o) s = .next ((s.returnFrom c.core c.slot a).1.putU c false o.d c.lanes (BitVec.ofNat 64 (s.returnFrom c.core c.slot a).2.1) { swap := true }))
    ∧ ∀ k sl m x, (s.cw c).sys = true → mine = [] → s.rettTarget (s.crewCtx c.core c.slot) a = some (k, sl, m) →
      s.coreXlate c.core (s.crewCtx c.core c.slot) a = some x →
      let q := s.loadBytes c.core (s.crewCtx c.core c.slot) (s.crewTag c.core c.slot) x.laddr 24 x.attr x.x true
      let u := q.1.setResumed c.core (s.crewCtx c.core c.slot) a
      let resume : BitVec 57 := BitVec.ofNat 57 (leNat (q.2.1.drop 16))
      (q.2.2 = true → exec (.rett o) s = .next (q.1.consume c))
      ∧ (q.2.2 = false → (q.2.1.getD 2 0).getLsbD 6 = true →
          exec (.rett o) s = .next (((u.exitLanes k sl m).reapCrew k sl).putU c false o.d c.lanes 0 { swap := true }))
      ∧ (q.2.2 = false → (q.2.1.getD 2 0).getLsbD 6 = false → ∃ v : State, exec (.rett o) s = .next (v.putU c false o.d c.lanes 0 { swap := true })
          ∧ (∃ w', v = u.setCrew k sl w' ∧ w' = { u.crew k sl with fibres := w'.fibres }
            ∧ (∀ l, m.getLsbD l = false → w'.fibre l = (u.crew k sl).fibre l)
            ∧ ∀ l, m.getLsbD l = true → (w'.fibre l).wait = .none ∧ (w'.fibre l).l0 = none ∧ (w'.fibre l).rep = 0
                ∧ (w'.fibre l).pc = if resume = (((q.1.crew k sl).fibre (lowestLane m)).resumeAt) then ((u.crew k sl).fibre l).restart + 4 else resume))

/-- REGG (R120, R135, R191): a value outside 1 to 8 gives 2; a size that the core's storage holds is granted with 0 and the crew has it, a
shrink or an equal value even while older grows wait; one that does not fit waits. A handler crew keeps its one granule: a request for it is
granted, any other fails with 1, which is the model's reading (DESIGN CHOICE, log 8). -/
def Obligations.RegisterGrow : Prop :=
  ∀ (o : OpRt) (s : State) (c : Cur), s.Ready c .any false [srcUse o.a, .s o.d.toNat] false c.lanes (fun _ => [o.a]) →
    let v := (s.uval c o.a).toNat
    (v < 1 ∨ 8 < v → exec (.regg o) s = .next (s.putU c false o.d c.lanes 2 { swap := true }))
    ∧ (1 ≤ v → v ≤ 8 → c.slot = 32 → exec (.regg o) s = .next (s.putU c false o.d c.lanes (if v = 1 then 0 else 1) { swap := true }))
    ∧ (1 ≤ v → v ≤ 8 → c.slot ≠ 32 →
      ((s.core c.core).grows = [] ∨ v ≤ (s.cw c).vgran ∧ ∀ r ∈ (s.core c.core).grows, ¬(r.slot = c.slot ∧ r.acc = false ∧ r.lanes = c.lanes)) →
      (∀ u, s.setVgran c.core c.slot v = some u → exec (.regg o) s = .next (u.putU c false o.d c.lanes 0 { swap := true })
        ∧ (u.crew c.core c.slot).vgran = v)
      ∧ (s.setVgran c.core c.slot v = none → exec (.regg o) s = .next ((s.modCore c.core (fun k =>
          { k with grows := k.grows ++ [{ slot := c.slot, lanes := c.lanes, acc := false, want := v, d := o.d }] })).hold c .grow)))

/-- Loads issue (R293 to R301, R302, R303): with a place for every active lane and nothing to follow, the lanes in the core's own SRAM are
performed and the others go on their way; a lane without a place faults instead, and nothing is loaded. -/
def Obligations.LoadsIssue : Prop :=
  (∀ p ∈ loadRules, ∀ (o : OpM) (s : State) (c : Cur) (pl : Nat → Place),
    let a := c.srcA o.a
    let d := c.dst o.d
    let m := s.act c o.g
    let n := p.2.1.size
    let ea (l : Nat) : Word := effAddr ((s.cw c).val l a) o.off n
    s.Ready c .any false (srcUse a :: loadDst p.2.1 d) (o.g ≠ 0) m (fun _ => [a]) →
    ((∀ l, m.getLsbD l = true → s.placeOf c .load (ea l).toNat n p.2.2 = .ok (pl l)) →
      (s.loadFollow c p.2.1 (placedLanes m ea pl) = [] → s.mustFollow c .load (placedLanes m ea pl) n = [] → (s.cw c).heldBy = none →
        exec (p.1 o) s = .next (s.issueLoad c p.2.1 d.toNat m (placedLanes m ea pl)))
      ∧ (s.loadFollow c p.2.1 (placedLanes m ea pl) ≠ [] →
        exec (p.1 o) s = .next (s.hold c (.operands (s.loadFollow c p.2.1 (placedLanes m ea pl))))))
    ∧ ((∃ l e, m.getLsbD l = true ∧ s.placeOf c .load (ea l).toNat n p.2.2 = .error e) →
      ∃ f, pickFault (accFaults (s.laneAccs c .load m ea n p.2.2)) = some f ∧ exec (p.1 o) s = .next (s.takeFault c f)))
  ∧ (∀ (o : OpMS) (s : State) (c : Cur) (pl : Nat → Place),
    let a := c.srcA o.a
    let d := c.dst o.d
    let m := s.act c o.g
    s.Ready c .any false [srcUse a, .v d.toNat] (o.g ≠ 0) m (fun _ => [a]) →
    (∀ l, m.getLsbD l = true → s.placeOf c .load ((s.cw c).val l a).toNat 8 false = .ok (pl l)) →
    s.loadFollow c (.acquire o.scope.toNat) (placedLanes m (fun l => (s.cw c).val l a) pl) = [] →
    s.mustFollow c .load (placedLanes m (fun l => (s.cw c).val l a) pl) 8 = [] → (s.cw c).heldBy = none →
    exec (.ldaD o) s = .next (s.issueLoad c (.acquire o.scope.toNat) d.toNat m (placedLanes m (fun l => (s.cw c).val l a) pl)))
  ∧ ∀ (o : OpMU) (s : State) (c : Cur) (pl : Place), ∀ q ∈ ([(.lduD o, 8), (.lduW o, 4)] : List (Instr × Nat)),
    let a := c.srcA o.a
    let d := c.dst o.d
    let m := s.act c o.g
    let ea : Word := effAddr (s.uval c a) o.off q.2
    let ps : List PLane := [{ lane := lowestLane m, va := ea.toNat, place := pl }]
    s.Ready c .any false [srcUse a, .s d.toNat] (o.g ≠ 0) m (fun _ => [a]) →
    (m = 0 → ∃ t, exec q.1 s = .next t ∧ s.FibreDone t c (fun _ f => f.noLatch) 0)
    ∧ (m ≠ 0 → s.placeOf c .load ea.toNat q.2 false = .ok pl → s.mustFollow c .load ps q.2 = [] → (s.cw c).heldBy = none →
      exec q.1 s = .next (s.issueLoad c (.uniform q.2) d.toNat m ps))

/-- A load whose lanes all lie in the group's own scratchpad (R239, R241, R300, R303): the little-endian bytes at each lane's address,
extended as the form says, stand in D of that lane, of LD.Q the higher eight in the next register; the latches are invalid; the crew's event counters of bank conflicts have counted
(R242, R403); nothing else of the machine changes, no byte of memory among it. -/
def Obligations.LoadOwnScratchpad : Prop :=
  ∀ p ∈ loadRules, ∀ (o : OpM) (s : State) (c : Cur) (off : Nat → Nat),
    let a := c.srcA o.a
    let d := c.dst o.d
    let m := s.act c o.g
    let n := p.2.1.size
    let g := (s.cw c).group
    let ea (l : Nat) : Word := effAddr ((s.cw c).val l a) o.off n
    s.Ready c .any false (srcUse a :: loadDst p.2.1 d) (o.g ≠ 0) m (fun _ => [a]) →
    (∀ l, m.getLsbD l = true → s.placeOf c .load (ea l).toNat n p.2.2 = .ok (.pad g (off l)) ∧ regionOf (ea l).toNat = .local_ (off l)
      ∧ (s.padRead g (off l) n).2 = false) →
    s.mustFollow c .load (placedLanes m ea (fun l => .pad g (off l))) n = [] → (s.cw c).heldBy = none →
    (Tab.find s.groups g).isSome = true → (s.core (s.group g).core).armed = false →
    ∃ w' e, exec (p.1 o) s = .next (s.setCrew c.core c.slot w') ∧ ({ s.cw c with ev := e } : Crew).WentOn w' c (fun _ f => f.noLatch)
      ∧ (∀ i, Tab.get e 0 i = if i < 4 ∧ Tab.get (s.cw c).evSel 0 i = 4 ∧ bankExtra (placedLanes m ea (fun l => .pad g (off l))) n ≠ 0
          then (Tab.get (s.cw c).ev 0 i + bankExtra (placedLanes m ea (fun l => .pad g (off l))) n) % 2 ^ 64 else Tab.get (s.cw c).ev 0 i)
      ∧ w'.s = (s.cw c).s ∧ w'.m = (s.cw c).m ∧ w'.mtag = (s.cw c).mtag ∧ w'.fflags = (s.cw c).fflags
      ∧ ∀ l r, l < 32 → w'.vreg l r =
        if m.getLsbD l = true ∧ r = ((s.cw c).fibre l).wbase.toNat + d.toNat
        then { val := match p.2.1 with
          | .plain _ true => (BitVec.ofNat (8 * n) (leNat (s.padRead g (off l) n).1)).signExtend 64
          | _ => BitVec.ofNat 64 (leNat (s.padRead g (off l) n).1) }
        else if p.2.1 = .quad ∧ m.getLsbD l = true ∧ r = ((s.cw c).fibre l).wbase.toNat + d.toNat + 1
        then { val := BitVec.ofNat 64 (leNat (s.padRead g (off l) n).1 / 2 ^ 64) }
        else (s.cw c).vreg l r

/-- Stores issue (R294 to R297, R306 to R308, R352, R401): with a place for every lane, its claims held, nothing to follow, no write block, no
home that moves and room in the counters, the stores of the lanes are performed with the bytes of D and counted, and the fragment goes on; in tandem mode the pairs
agree and the primaries store. STL.D waits first as a FENCE of its scope. -/
def Obligations.StoresIssue : Prop :=
  (∀ p ∈ ([(.stB, 1), (.stH, 2), (.stW, 4), (.stD, 8), (.stQ, 16)] : List ((OpM → Instr) × Nat)),
    ∀ (o : OpM) (s : State) (c : Cur) (pl : Nat → Place),
    let a := c.srcA o.a
    let d := c.dst o.d
    let m := (s.cw c).primaries (s.act c o.g)
    let n := p.2
    let ea (l : Nat) : Word := effAddr ((s.cw c).val l a) o.off n
    let bytes (l : Nat) : List Byte := if n = 16 then leBytes 8 ((s.cw c).val l (.v d)).toNat ++ leBytes 8 ((s.cw c).val l (.v (d + 1))).toNat
      else leBytes n ((s.cw c).val l (.v d)).toNat
    let ds : List Src := if n = 16 then [.v d, .v (d + 1)] else [.v d]
    let st : List LaneStore := (lanesOf m).map (fun l => { at_ := { lane := l, va := (ea l).toNat, place := pl l }, data := bytes l,
                                                            regaddr := ((s.cw c).fibre l).restart.toNat })
    s.Ready c .any false (srcUse a :: .v d.toNat :: (if n = 16 then [.v (d.toNat + 1)] else [])) (o.g ≠ 0) (s.act c o.g) (fun _ => a :: ds) →
    s.pairsDiffer c (s.act c o.g) (fun l => ea l :: ds.map ((s.cw c).val l)) = false →
    (∀ l, m.getLsbD l = true → s.placeOf c .store (ea l).toNat n true = .ok (pl l)
      ∧ ∀ q ∈ s.storeGrains c { lane := l, va := ea l, res := .ok (pl l) } n, s.claimHeld (clusterOf c.core) q.1 (s.crewTag c.core c.slot) = true) →
    s.mustFollow c .store (placedLanes m ea pl) n = [] → s.writeBlocked st = none →
    s.storeMoves c st = [] → s.mixedFollow c (placedLanes m ea pl) n = [] →
    (s.cw c).ackCl + (storeCounts st).1 ≤ 65535 → (s.cw c).ackSy + (storeCounts st).2 ≤ 4095 →
    ∃ u, u = s.modCluster (clusterOf c.core) (fun q => { q with claims := q.claims.filter (fun r => !(r.core = c.core && r.slot = c.slot && !r.retry)) })
      ∧ exec (p.1 o) s = .next ((((u.tlbFills c (placedLanes m ea pl)).countBanks c (placedLanes m ea pl) n).doStores c.core c.slot st).retire c {}))
  ∧ (∀ (o : OpMU) (s : State) (c : Cur) (pl : Place),
    let a := c.srcA o.a
    let d := c.dst o.d
    let m := s.act c o.g
    let ea : Word := effAddr (s.uval c a) o.off 8
    let q : PLane := { lane := lowestLane m, va := ea.toNat, place := pl }
    let st : List LaneStore := [{ at_ := q, data := leBytes 8 ((s.cw c).sreg d.toNat).val.toNat, regaddr := ((s.cw c).fibre (lowestLane m)).restart.toNat }]
    s.Ready c .any false [srcUse a, .s d.toNat] (o.g ≠ 0) m (fun _ => [a, .s d]) → s.pairsDiffer c m (fun _ => []) = false →
    (m = 0 → ∃ t, exec (.stuD o) s = .next t ∧ s.FibreDone t c (fun _ f => f) 0)
    ∧ (m ≠ 0 → s.placeOf c .store ea.toNat 8 false = .ok pl →
      (∀ x ∈ s.storeGrains c { lane := lowestLane m, va := ea, res := .ok pl } 8, s.claimHeld (clusterOf c.core) x.1 (s.crewTag c.core c.slot) = true) →
      s.mustFollow c .store [q] 8 = [] → s.writeBlocked st = none → s.storeMoves c st = [] →
      (s.cw c).ackCl + (storeCounts st).1 ≤ 65535 → (s.cw c).ackSy + (storeCounts st).2 ≤ 4095 →
      ∃ u, u = s.modCluster (clusterOf c.core) (fun q => { q with claims := q.claims.filter (fun r => !(r.core = c.core && r.slot = c.slot && !r.retry)) })
        ∧ exec (.stuD o) s = .next ((((u.tlbFills c [q]).countBanks c [q] 8).doStores c.core c.slot st).retire c {})))
  ∧ ∀ (o : OpMS) (s : State) (c : Cur),
    let a := c.srcA o.a
    let d := c.dst o.d
    s.Ready c .any false [srcUse a, .v d.toNat] false 0 (fun _ => []) →
    (s.act c o.g ≠ 0 → (s.cw c).fenceWaits (o.scope.toNat + 1) = true → exec (.stlD o) s = .next (s.hold c (.fence (o.scope.toNat + 1))))
    ∧ (s.act c o.g = 0 ∨ (s.cw c).fenceWaits (o.scope.toNat + 1) = false ∧ (o.scope = 0 ∨ (s.cw c).impr = []) →
      exec (.stlD o) s = .next (s.vstore c o.g a 0 d 8 false))
    ∧ ∀ pl : Nat → Place,
      let m := (s.cw c).primaries (s.act c o.g)
      let ea (l : Nat) : Word := (s.cw c).val l a
      let st : List LaneStore := (lanesOf m).map (fun l => { at_ := { lane := l, va := (ea l).toNat, place := pl l },
                                                              data := leBytes 8 ((s.cw c).val l (.v d)).toNat,
                                                              regaddr := ((s.cw c).fibre l).restart.toNat })
      s.Ready c .any false [srcUse a, .v d.toNat] (o.g ≠ 0) (s.act c o.g) (fun _ => [a, .v d]) →
      s.act c o.g = 0 ∨ (s.cw c).fenceWaits (o.scope.toNat + 1) = false ∧ (o.scope = 0 ∨ (s.cw c).impr = []) →
      s.pairsDiffer c (s.act c o.g) (fun l => [ea l, (s.cw c).val l (.v d)]) = false →
      (∀ l, m.getLsbD l = true → s.placeOf c .store (ea l).toNat 8 false = .ok (pl l)
        ∧ ∀ q ∈ s.storeGrains c { lane := l, va := ea l, res := .ok (pl l) } 8, s.claimHeld (clusterOf c.core) q.1 (s.crewTag c.core c.slot) = true) →
      s.mustFollow c .store (placedLanes m ea pl) 8 = [] → s.writeBlocked st = none →
      s.storeMoves c st = [] → s.mixedFollow c (placedLanes m ea pl) 8 = [] →
      (s.cw c).ackCl + (storeCounts st).1 ≤ 65535 → (s.cw c).ackSy + (storeCounts st).2 ≤ 4095 →
      ∃ u, u = s.modCluster (clusterOf c.core) (fun q => { q with claims := q.claims.filter (fun r => !(r.core = c.core && r.slot = c.slot && !r.retry)) })
        ∧ exec (.stlD o) s = .next ((((u.tlbFills c (placedLanes m ea pl)).countBanks c (placedLanes m ea pl) 8).doStores c.core c.slot st).retire c {})

/-- A store whose lanes all lie in the group's own scratchpad (R239, R241, R243, R306): every byte of the pool outside the bytes stored, and
outside the checksums of the group's tiles, is as it was, and so are HBM, host memory, the operand die and every register; where the group
has no tile and no other lane stores there, the bytes stored are those of D, in a word that is not poisoned or is written whole (R260).
STL.D does so once its FENCE has nothing to wait for, and STU.D once for its issue, at one address and from sD. -/
def Obligations.StoreOwnScratchpad : Prop :=
  let left (s t : State) (c : Cur) (m : BitVec 32) (off : Nat → Nat) (n : Nat) (bytes : Nat → List Byte) : Prop :=
    let g := (s.cw c).group
    let base := (s.group g).padBase
    let k := (s.group g).core
    t.hbm = s.hbm ∧ t.host = s.host ∧ (∀ j, (t.core j).die = (s.core j).die)
      ∧ (∀ j, j ≠ k → (t.core j).pool = (s.core j).pool)
      ∧ (∀ x, (∀ l, m.getLsbD l = true → x < base + off l ∨ base + off l + n ≤ x) →
          (∀ i, i < (s.group g).tiles → x < base + 4480 * i + 4096 ∨ base + 4480 * i + 4352 ≤ x) →
          (t.core k).pool.read x = (s.core k).pool.read x)
      ∧ ((s.group g).tiles = 0 → ∀ l q, m.getLsbD l = true → q < n →
          (∀ j, j ≠ l → m.getLsbD j = true → off l + q < off j ∨ off j + n ≤ off l + q) →
          (Tab.get (s.core k).poolPoison false ((base + off l + q) / 8) = false ∨ 8 ≤ n ∧ (base + off l) % 8 = 0) →
          (t.core k).pool.read (base + off l + q) = (bytes l).getD q 0)
      ∧ (t.cw c).v = (s.cw c).v ∧ (t.cw c).s = (s.cw c).s ∧ (t.cw c).m = (s.cw c).m ∧ (t.cw c).fflags = (s.cw c).fflags
      ∧ ∀ l, (t.cw c).fibre l = if c.lanes.getLsbD l then ((s.cw c).fibre l).after c (s.cw c).units c.nextPc else (s.cw c).fibre l
  let body : Instr → BitVec 3 → (Cur → Src) → Word → (Cur → BitVec 6) → Nat → Bool → State → Cur → Prop := fun i gd a' ofs d' n plain s c =>
    ∀ off : Nat → Nat,
    let a := a' c
    let d := d' c
    let m := s.act c gd
    let g := (s.cw c).group
    let ea (l : Nat) : Word := (s.cw c).val l a + ofs
    let bytes (l : Nat) : List Byte := if n = 16 then leBytes 8 ((s.cw c).val l (.v d)).toNat ++ leBytes 8 ((s.cw c).val l (.v (d + 1))).toNat
      else leBytes n ((s.cw c).val l (.v d)).toNat
    let ds : List Src := if n = 16 then [.v d, .v (d + 1)] else [.v d]
    s.Ready c .any false (srcUse a :: .v d.toNat :: (if n = 16 then [.v (d.toNat + 1)] else [])) (gd ≠ 0) m (fun _ => a :: ds) →
    (s.cw c).tandem = false → (s.cw c).ackCl ≤ 65535 → (s.cw c).ackSy ≤ 4095 →
    (∀ l, m.getLsbD l = true → s.placeOf c .store (ea l).toNat n plain = .ok (.pad g (off l)) ∧ regionOf (ea l).toNat = .local_ (off l)) →
    s.mustFollow c .store (placedLanes m ea (fun l => .pad g (off l))) n = [] → ∃ t, exec i s = .next t ∧ left s t c m off n bytes
  (∀ p ∈ ([(.stB, 1), (.stH, 2), (.stW, 4), (.stD, 8), (.stQ, 16)] : List ((OpM → Instr) × Nat)), ∀ (o : OpM) (s : State) (c : Cur),
    body (p.1 o) o.g (fun c => c.srcA o.a) (o.off.signExtend 64 * BitVec.ofNat 64 p.2) (fun c => c.dst o.d) p.2 true s c)
  ∧ (∀ (o : OpMS) (s : State) (c : Cur), s.act c o.g = 0 ∨ (s.cw c).fenceWaits (o.scope.toNat + 1) = false ∧ (o.scope = 0 ∨ (s.cw c).impr = []) →
    body (.stlD o) o.g (fun c => c.srcA o.a) 0 (fun c => c.dst o.d) 8 false s c)
  ∧ ∀ (o : OpMU) (s : State) (c : Cur) (off : Nat),
    let a := c.srcA o.a
    let d := c.dst o.d
    let m := s.act c o.g
    let g := (s.cw c).group
    let ea : Word := effAddr (s.uval c a) o.off 8
    s.Ready c .any false [srcUse a, .s d.toNat] (o.g ≠ 0) m (fun _ => [a, .s d]) → m ≠ 0 →
    (s.cw c).tandem = false → (s.cw c).ackCl ≤ 65535 → (s.cw c).ackSy ≤ 4095 →
    s.placeOf c .store ea.toNat 8 false = .ok (.pad g off) → regionOf ea.toNat = .local_ off →
    s.mustFollow c .store [{ lane := lowestLane m, va := ea.toNat, place := .pad g off }] 8 = [] →
    ∃ t, exec (.stuD o) s = .next t
      ∧ left s t c (BitVec.ofNat 32 (2 ^ lowestLane m)) (fun _ => off) 8 (fun _ => leBytes 8 ((s.cw c).sreg d.toNat).val.toNat)

/-- Atomics issue (R309, R311, R312): with a place for every active lane, nothing to follow and room in the counters, the requests leave, or
are performed where the word lies in the core's own partition, and the fragment goes on with its restart point at the instruction. -/
def Obligations.AtomicsIssue : Prop :=
  ∀ p ∈ (atomRules.map (fun x => (x.1, x.2.1, 8)) ++ [(Instr.aaddfS, 15, 4)] : List ((OpM → Instr) × Nat × Nat)),
    ∀ (o : OpM) (s : State) (c : Cur) (pl : Nat → Place),
    let ds : List Src := if p.2.1 = 14 then [.v o.d, .v (o.d + 1)] else [.v o.d]
    let m := (s.cw c).primaries (s.act c o.g)
    let ea (l : Nat) : Word := effAddr ((s.cw c).val l o.a) o.off p.2.2
    let ps := placedLanes m ea pl
    let dv := (ps.filter (fun q => q.place.isMem)).length
    let cl := (ps.filter (fun q => !q.inPlace)).length - dv
    s.Ready c .any false ([srcUse o.a, .v o.d.toNat] ++ if p.2.1 = 14 then [.v (o.d.toNat + 1)] else []) (o.g ≠ 0) (s.act c o.g) (fun _ => o.a :: ds) →
    s.pairsDiffer c (s.act c o.g) (fun l => ea l :: ds.map ((s.cw c).val l)) = false →
    (∀ l, m.getLsbD l = true → s.placeOf c .atomic (ea l).toNat p.2.2 false = .ok (pl l)) →
    s.mustFollow c .atomic ps p.2.2 = [] →
    ((s.cw c).ackCl + cl ≤ 65535 → (s.cw c).ackDv + dv ≤ 4095 →
      exec (p.1 o) s = .next ((((s.tlbFills c ps).countBanks c ps p.2.2).sendAtomics c p.2.1 p.2.2 o.d ps).retire c { restart := true, swap := true }))
    ∧ (65535 < (s.cw c).ackCl + cl ∨ 4095 < (s.cw c).ackDv + dv → exec (p.1 o) s = .next (s.hold c (.counters cl dv 0)))

/-- An atomic of one lane on a word of the group's own scratchpad (R309, R311, R313): D gets the old word, the word gets the new one, and every
other byte of the pool, and HBM and host memory, are as they were. AADDF.S adds binary32 values under RNE in the 4 bytes named, gives the
old ones zero-extended, and raises its flags (R310). -/
def Obligations.AtomicOwnScratchpad : Prop :=
  ∀ p ∈ (atomRules.map (fun x => (x.1, x.2.1, 8, fun (m o v : Word) => ((x.2.2 m o v).toNat, (0 : FSet))))
      ++ [(Instr.aaddfS, 15, 4, fun (m o _ : Word) => fmtS.fadd .rne m.toNat (el 32 0 o).toNat)]
      : List ((OpM → Instr) × Nat × Nat × (Word → Word → Word → Nat × FSet))),
    ∀ (o : OpM) (s : State) (c : Cur) (l off : Nat),
    let n := p.2.2.1
    let ds : List Src := if p.2.1 = 14 then [.v o.d, .v (o.d + 1)] else [.v o.d]
    let ea : Word := effAddr ((s.cw c).val l o.a) o.off n
    let g := (s.cw c).group
    let base := (s.group g).padBase
    let k := (s.group g).core
    let old : Word := BitVec.ofNat 64 (leNat (s.padRead g off n).1)
    let new := p.2.2.2 old ((s.cw c).val l (.v o.d)) ((s.cw c).val l (.v (o.d + 1)))
    s.Ready c .any false ([srcUse o.a, .v o.d.toNat] ++ if p.2.1 = 14 then [.v (o.d.toNat + 1)] else []) (o.g ≠ 0) (s.act c o.g) (fun _ => o.a :: ds) →
    l < 32 → s.act c o.g = BitVec.ofNat 32 (2 ^ l) → (s.cw c).tandem = false → (s.cw c).ackCl ≤ 65535 → (s.cw c).ackDv ≤ 4095 →
    s.placeOf c .atomic ea.toNat n false = .ok (.pad g off) → regionOf ea.toNat = .local_ off → (s.padRead g off n).2 = false →
    (s.group g).tiles = 0 → (s.core k).armed = false →
    s.mustFollow c .atomic [{ lane := l, va := ea.toNat, place := .pad g off }] n = [] →
    ∃ t, exec (p.1 o) s = .next t ∧ t.hbm = s.hbm ∧ t.host = s.host ∧ (t.cw c).fflags = (s.cw c).fflags ||| new.2
      ∧ (∀ x, (x < base + off ∨ base + off + n ≤ x) → (t.core k).pool.read x = (s.core k).pool.read x)
      ∧ leNat ((t.core k).pool.readBytes (base + off) n) = new.1 % 2 ^ (8 * n)
      ∧ ∀ j r, j < 32 → (t.cw c).vreg j r =
          if j = l ∧ r = ((s.cw c).fibre l).wbase.toNat + o.d.toNat then { val := old } else (s.cw c).vreg j r

/-- FENCE, ACQUIRE, IFENCE, RFENCE, RELEASE and PREF (R270, R274, R278, R288, R289, R304, R314 to R318, R320): a fence goes on once the loads
and the counters of its scope are empty and no imprecise fault has arrived; an IFENCE once the loads are performed, and an acquire once
atomics and peer stores are answered too (DEDUCED from R317, log 33); a release fences its cluster, begins, and is done when its commit is;
with no fibre active each only passes. -/
def Obligations.OrderingInstructions : Prop :=
  (∀ (o : OpF) (s : State) (c : Cur), s.Ready c .any false [] (o.g ≠ 0) (s.act c o.g) (fun _ => []) →
    let w := s.cw c
    (s.act c o.g = 0 ∨ w.loads = [] ∧ (2 ≤ o.scope.toNat → w.ackCl = 0 ∧ w.impr = []) ∧ (3 ≤ o.scope.toNat → w.ackDv = 0)
        ∧ (4 ≤ o.scope.toNat → w.ackSy = 0) → ∃ t, exec (.fence o) s = .next t ∧ s.FibreDone t c (fun _ f => f.noLatch) 0)
    ∧ (s.act c o.g ≠ 0 → w.loads ≠ [] ∨ 2 ≤ o.scope.toNat ∧ w.ackCl ≠ 0 ∨ 3 ≤ o.scope.toNat ∧ w.ackDv ≠ 0 ∨ 4 ≤ o.scope.toNat ∧ w.ackSy ≠ 0 →
        exec (.fence o) s = .next (s.hold c (.fence o.scope.toNat))))
  ∧ (∀ (o : OpG) (s : State) (c : Cur), s.Ready c .any false [] (o.g ≠ 0) (s.act c o.g) (fun _ => []) → s.act c o.g ≠ 0 →
    let w := s.cw c
    (w.heldBy = none → w.loads = [] → w.ackDv = 0 → w.ackSy = 0 → exec (.acquire o) s = .next ((s.acquire c.core true).retire c { swap := true }))
    ∧ (w.heldBy = none → w.loads ≠ [] ∨ w.ackDv ≠ 0 ∨ w.ackSy ≠ 0 → exec (.acquire o) s = .next (s.hold c .answers))
    ∧ (w.loads = [] → exec (.ifence o) s = .next ((((s.dropCopies c.core true true (fun e => e.exec || s.execPages.contains (e.grain / 128))
        (fun e => e.exec || s.execPages.contains (e.lsec / 2048))).modCore c.core (fun k => { k with l1i := [] })).modCrew c.core c.slot (fun w => w.refetch c.lanes)).retire c { swap := true }))
    ∧ (w.loads ≠ [] → exec (.ifence o) s = .next (s.hold c .loads))
    ∧ (∃ w', exec (.rfence o) s = .next ((s.modCore c.core (fun k => { k with recs := [] })).setCrew c.core c.slot w')
        ∧ w.WentOn w' c (fun _ f => f.noLatch) ∧ w'.v = w.v ∧ w'.s = w.s ∧ w'.fflags = w.fflags)
    ∧ ((w.fibre (lowestLane c.lanes)).wait = .none → w.loads = [] → w.ackCl = 0 → w.impr = [] →
        let k := clusterOf c.core
        let b := s.beginRelease k (s.crewTag c.core c.slot) c.core c.slot none
        let u := b.1.tryCommit k
        exec (.release o) s = .next (if (u.cluster k).rels.any (fun r => r.id = b.2 && r.committed)
          then (u.modCluster k (fun q => { q with rels := q.rels.filter (fun r => r.id ≠ b.2) })).released c else u.hold c (.release b.2))))
  ∧ (∀ (o : OpG) (s : State) (c : Cur), s.Ready c .any false [] (o.g ≠ 0) (s.act c o.g) (fun _ => []) → s.act c o.g = 0 →
    ∀ i ∈ [Instr.acquire o, .ifence o, .rfence o], ∃ t, exec i s = .next t ∧ s.FibreDone t c (fun _ f => f.noLatch) 0)
  ∧ ∀ (o : OpPf) (s : State) (c : Cur), s.Ready c .any false [srcUse (c.srcA o.a)] false 0 (fun _ => []) →
    ∃ t, exec (.pref o) s = .next t ∧ s.FibreDone t c (fun _ f => f) 0

/-- CSRR, CSRW, CSRS and CSRC (R66, R192, R193): sD gets the register's old value and the register its new one; a privileged register in user
mode is fault 2, subcode 10, before sD is read; FFLAGS is waited for while results that set flags are pending; with no fibre active nothing but the passing. -/
def Obligations.CsrInstructions : Prop :=
  ∀ p ∈ csrRules, ∀ (o : OpCsr) (s : State) (c : Cur),
    let n := o.csr.toNat
    let old := s.csrRead c n
    (s.Ready c .any false [.s o.d.toNat] (o.g ≠ 0) (s.act c o.g) (fun _ => []) →
      (s.act c o.g = 0 → ∃ t, exec (p.1 o) s = .next t ∧ s.FibreDone t c (fun _ f => f) 0)
      ∧ (s.act c o.g ≠ 0 → 0x1000 ≤ n → (s.cw c).sys = false → exec (p.1 o) s = .next (s.takeFault c { cause := 2, sub := 10, addr := n })))
    ∧ (s.Ready c .any false [.s o.d.toNat] (o.g ≠ 0) (s.act c o.g) (fun _ => if p.2.1 then [.s o.d] else []) → s.act c o.g ≠ 0 →
      (n = 0 → s.flagsPending c = true → exec (p.1 o) s = .next (s.hold c .flags))
      ∧ ((n < 0x1000 ∨ (s.cw c).sys = true) → (n ≠ 0 ∨ s.flagsPending c = false) →
      exec (p.1 o) s = .next ((match p.2.2 old ((s.cw c).sreg o.d.toNat).val with
        | some x => s.csrWrite c n x.1 x.2
        | none => s).putU c false o.d (s.act c o.g) old {})))

/-- What a CSR write changes and a read shows (R64, R89, R126 to R132): the fields of FFLAGS, FRM, CKTOL, MSTAT, TVEC and FRPTR, and nothing for a
read-only register. -/
def Obligations.CsrFields : Prop :=
  ∀ (s : State) (c : Cur) (x w1c : Word),
    let w := s.cw c
    let ctx := s.crewCtx c.core c.slot
    s.csrWrite c 0x000 x w1c = s.setCrew c.core c.slot { w with fflags := x.setWidth 8 }
    ∧ s.csrWrite c 0x001 x w1c = s.setCrew c.core c.slot { w with frm := x.setWidth 2 }
    ∧ s.csrWrite c 0x002 x w1c = s.setCrew c.core c.slot { w with tbf := x.extractLsb' 0 6, tf32 := x.extractLsb' 8 6 }
    ∧ (∃ w', s.csrWrite c 0x003 x w1c = s.setCrew c.core c.slot w' ∧ w' = { w with fibres := w'.fibres, tnpp := x.getLsbD 8, tzp := x.getLsbD 9 }
        ∧ ∀ l, l < 32 → w'.fibre l = { w.fibre l with mflags := (w.fibre l).mflags &&& ~~~(w1c.setWidth 4) })
    ∧ s.csrWrite c 0x1000 x w1c = s.modCtx ctx (fun y => { y with tvec := x &&& 0x01FFFFFFFFFFFFFC })
    ∧ s.csrWrite c 0x1001 x w1c = s.modCtx ctx (fun y => { y with frptr := x &&& 0x01FFFFFFFFFFFFC0 })
    ∧ (∀ n ∈ [0x010, 0x011, 0x012, 0x013, 0x014], s.csrWrite c n x w1c = s)
    ∧ s.csrRead c 0x000 = w.fflags.setWidth 64 ∧ s.csrRead c 0x001 = w.frm.setWidth 64
    ∧ (s.csrRead c 0x002).toNat = w.tbf.toNat + 256 * w.tf32.toNat
    ∧ s.csrRead c 0x1000 = (s.ctx ctx).tvec ∧ s.csrRead c 0x1001 = (s.ctx ctx).frptr

/-- The hints (R97, R102 to R110): each joins the unit in progress of its fragment, or begins one, steps over its word and retires nothing; a
SCHED that yields discards the fragment's latches (R38, R108); a second hint of one kind, and a fifth NOP, make the unit illegal; a NOP or reserved hint outside a sequence steps over its word alone. -/
def Obligations.HintsBuildTheUnit : Prop :=
  (∀ (s : State) (c : Cur), s.cur = some c →
    let p := (s.cw c).open_
    let joins (i : Instr) (q : Pfx) : Prop := ∃ w', exec i s = .next (s.setCrew c.core c.slot w') ∧ (s.cw c).Joined w' c q
    (∀ o, joins (.hintImm o) { p with imm := some o.p, bad := p.bad || p.imm.isSome })
    ∧ (∀ o, joins (.hintRep o) { p with rep := some o, bad := p.bad || p.rep.isSome })
    ∧ (∀ o : OpHSched, o.yld = false → joins (.hintSched o) { p with sched := some o, schedAt := s.cycle, bad := p.bad || p.sched.isSome })
    ∧ (∀ o : OpHSched, o.yld = true → ∃ v w', exec (.hintSched o) s = .next (s.setCrew c.core c.slot w')
        ∧ (s.cw c).Joined v c { p with sched := some o, schedAt := s.cycle, bad := p.bad || p.sched.isSome }
        ∧ w' = { v with fibres := w'.fibres } ∧ ∀ l, w'.fibre l = if c.lanes.getLsbD l then (v.fibre l).noLatch else v.fibre l)
    ∧ (∀ o, joins (.hintMod o) { p with mod := some o, bad := p.bad || p.mod.isSome })
    ∧ (∀ o, joins (.hintPrio o) { p with prio := some o.lvl, bad := p.bad || p.prio.isSome })
    ∧ ((s.cw c).unit ≠ none → ∀ i ∈ [Instr.hintNop, .reservedHint],
        joins i { p with nops := p.nops + 1, bad := p.bad || decide (4 ≤ p.nops) }))
  ∧ ∀ (s : State) (c : Cur), s.cur = some c → (s.cw c).unit = none → ∀ i ∈ [Instr.hintNop, .reservedHint],
    ∃ w', exec i s = .next (s.setCrew c.core c.slot w') ∧ (s.cw c).Stepped w' c

/-- CNTRD and the CNTCTL operations (R399, R400, R403, R405, R411 to R414, R417, R418): sD gets the counter that A selects; a reserved selector is fault 14, subcode 1; a device counter of errors
in user mode is fault 2, subcode 10; a read of a PROG counter waits for the crew's own PROGs. A control operation makes its change once when some
fibre is active, and sD gets the value before it; a wrong code, IDX or B is fault 14, subcode 1. That the operations for which R418 names no
IDX act for every IDX is the model's reading (DEDUCED, log 14). -/
def Obligations.CountersReadAndControl : Prop :=
  (∀ (o : OpUa) (s : State) (c : Cur), s.Ready c .any false [srcUse o.a, useU o.k o.d] (o.g ≠ 0) (s.act c o.g) (fun _ => [o.a]) →
    let n := (s.uval c o.a).toNat
    (s.act c o.g = 0 → ∃ t, exec (.cntrd o) s = .next t ∧ s.FibreDone t c (fun _ f => f) 0)
    ∧ (s.act c o.g ≠ 0 → (∀ q ∈ counterRules, n = q.1 → ∃ t, exec (.cntrd o) s = .next t
          ∧ s.UniDone t c o.k o.d (s.act c o.g) (BitVec.ofNat 64 (q.2 s c)))
      ∧ (0x10 ≤ n → n < 0x18 → ((s.cw c).progs = [] → ∃ t, exec (.cntrd o) s = .next t
            ∧ s.UniDone t c o.k o.d (s.act c o.g) (Tab.get (s.ctx (s.crewCtx c.core c.slot)).prog 0 (n - 0x10)))
          ∧ ((s.cw c).progs ≠ [] → exec (.cntrd o) s = .next (s.hold c .progs)))
      ∧ (∀ q ∈ [(0x20, s.ce), (0x30, s.ue), (0x40, s.elost)], q.1 ≤ n → n < q.1 + 10 →
          ((s.cw c).sys = true → ∃ t, exec (.cntrd o) s = .next t ∧ s.UniDone t c o.k o.d (s.act c o.g) (BitVec.ofNat 64 (Tab.get q.2 0 (n - q.1))))
          ∧ ((s.cw c).sys = false → exec (.cntrd o) s = .next (s.takeFault c (faultOf 2 10))))
      ∧ ((∀ q ∈ counterRules, n ≠ q.1) → ¬(0x10 ≤ n ∧ n < 0x18) → (∀ b ∈ [0x20, 0x30, 0x40], ¬(b ≤ n ∧ n < b + 10)) →
          exec (.cntrd o) s = .next (s.takeFault c (faultOf 14 1)))))
  ∧ ∀ p ∈ cntRules, ∀ (o : OpU) (s : State) (c : Cur), c.ins = .cntctlEvsel o →
    s.Ready c .any false [srcUse o.a, srcUse o.b, useU o.k o.d] (o.g ≠ 0) (s.act c o.g) (fun _ => [o.a, o.b]) →
    let a := (s.uval c o.a).toNat
    let b := (s.uval c o.b).toNat
    (s.act c o.g = 0 → ∃ t, exec (p.1 o) s = .next t ∧ s.FibreDone t c (fun _ f => f) 0)
    ∧ (s.act c o.g ≠ 0 → (2048 ≤ a ∨ a % 256 ≠ p.2.1 → exec (p.1 o) s = .next (s.takeFault c (faultOf 14 1)))
      ∧ (a < 2048 → a % 256 = p.2.1 →
        (p.2.2.1 = true → (s.cw c).sys = false → exec (p.1 o) s = .next (s.takeFault c (faultOf 2 10)))
        ∧ (p.2.2.1 = false ∨ (s.cw c).sys = true →
          (¬ p.2.2.2.2.1 s (a / 256) b → exec (p.1 o) s = .next (s.takeFault c (faultOf 14 1)))
          ∧ (p.2.2.2.2.1 s (a / 256) b → p.2.2.2.1 = true → (s.cw c).progs ≠ [] → exec (p.1 o) s = .next (s.hold c .progs))
          ∧ (p.2.2.2.2.1 s (a / 256) b → p.2.2.2.1 = false ∨ (s.cw c).progs = [] →
              ∃ u r t, p.2.2.2.2.2 s c (a / 256) b u r ∧ exec (p.1 o) s = .next t ∧ u.UniDone t c o.k o.d (s.act c o.g) r))))

/-- BKPT, TRACE and PROG (R405, R411, R412, R419, R420): a breakpoint writes its trace record and, where the context stops on breakpoints,
requests the halt of its group; a PROG sends its increment; with no fibre active, or with the record masked off, only the passing. -/
def Obligations.DebugInstructions : Prop :=
  (∀ (o : OpS1g) (s : State) (c : Cur), s.Ready c .any false [srcUse o.a] (o.g ≠ 0) (s.act c o.g) (fun _ => [o.a]) →
    let x := s.ctx (s.crewCtx c.core c.slot)
    (s.act c o.g = 0 ∨ (s.cw c).trmask.getLsbD 2 = false ∧ x.dstop = false →
      ∃ t, exec (.bkpt o) s = .next t ∧ s.FibreDone t c (fun _ f => f.noLatch) 0)
    ∧ (s.act c o.g ≠ 0 → x.dstop = false →
      exec (.bkpt o) s = .next ((s.traceOn c 2 (s.uval c o.a).toNat 0).retire c { swap := true }))
    ∧ (s.act c o.g ≠ 0 → x.dstop = true → exec (.bkpt o) s
        = .next (((s.traceOn c 2 (s.uval c o.a).toNat 1).modGroup (s.cw c).group (fun r => { r with haltReq := true })).retire c { swap := true })))
  ∧ (∀ (o : OpJ) (s : State) (c : Cur), s.Ready c .any false [srcUse o.a, srcUse o.b] (o.g ≠ 0) (s.act c o.g) (fun _ => [o.a, o.b]) →
    (s.act c o.g = 0 ∨ (s.cw c).trmask.getLsbD 1 = false → ∃ t, exec (.trace o) s = .next t ∧ s.FibreDone t c (fun _ f => f) 0)
    ∧ (s.act c o.g ≠ 0 →
      exec (.trace o) s = .next ((s.traceOn c 1 (s.uval c o.a).toNat ((s.uval c o.b).toNat % 2 ^ 32)).retire c {})))
  ∧ ∀ (o : OpJ) (s : State) (c : Cur), s.Ready c .any false [srcUse o.a, srcUse o.b] (o.g ≠ 0) (s.act c o.g) (fun _ => [o.a, o.b]) →
    let a := (s.uval c o.a).toNat
    (s.act c o.g = 0 → ∃ t, exec (.prog o) s = .next t ∧ s.FibreDone t c (fun _ f => f) 0)
    ∧ (s.act c o.g ≠ 0 → 8 ≤ a → exec (.prog o) s = .next (s.takeFault c (faultOf 14 1)))
    ∧ (s.act c o.g ≠ 0 → a < 8 → ∃ u t, u = s.setCrew c.core c.slot { s.cw c with progs := (s.cw c).progs ++ [(a, s.uval c o.b)] }
        ∧ exec (.prog o) s = .next t ∧ u.FibreDone t c (fun _ f => f) 0)

/-- CTXFL, HALTG, RESUMEG and ACCG (R125, R135, R232, R391 to R394): outside system mode the first three fault; a flush waits for what was on its
way and invalidates; a halt waits until every crew of the group has stopped, and a resume lets them go; ACCG waits for the array
operations that name an accumulator it would take away, then answers at once or waits. -/
def Obligations.SystemInstructions : Prop :=
  (∀ m ∈ [Instr.ctxfl, .haltg, .resumeg], ∀ (o : OpDA) (s : State) (c : Cur),
    s.Ready c .any false [srcUse o.a, .s o.d.toNat] (o.g ≠ 0) (s.act c o.g) (fun _ => [o.a]) →
    (s.act c o.g = 0 → ∃ t, exec (m o) s = .next t ∧ s.FibreDone t c (fun _ f => f.noLatch) 0)
    ∧ (s.act c o.g ≠ 0 → (s.cw c).sys = false → exec (m o) s = .next (s.takeFault c (faultOf 2 10))))
  ∧ (∀ (o : OpDA) (s : State) (c : Cur), s.Ready c .any false [srcUse o.a, .s o.d.toNat] (o.g ≠ 0) (s.act c o.g) (fun _ => [o.a]) →
    s.act c o.g ≠ 0 → (s.cw c).sys = true →
    let a := (s.uval c o.a).toNat
    let done (st : Nat) (u : State) : Host.Outcome State Fault Refusal := .next (u.status c o.d (s.act c o.g) st)
    let wt := ((s.cw c).fibre (lowestLane c.lanes)).wait
    (2 ^ 27 ≤ a → exec (.ctxfl o) s = done 5 s)
    ∧ (a < 2 ^ 27 → wt = .none → s.flushIds (a / 65536) (a % 65536) = [] → exec (.ctxfl o) s = done 0 (s.ctxInvalidate (a / 65536) (a % 65536)))
    ∧ (a < 2 ^ 27 → wt = .none → s.flushIds (a / 65536) (a % 65536) ≠ [] →
        exec (.ctxfl o) s = .next (s.hold c (.flush (a / 65536) (a % 65536) (s.flushIds (a / 65536) (a % 65536)))))
    ∧ (∀ i ∈ [Instr.haltg, .resumeg], (2 ^ 32 ≤ a → exec (i o) s = done 5 s)
      ∧ (a < 2 ^ 32 → s.groupOfSeq a = none → exec (i o) s = done 1 s)
      ∧ ∀ g, a < 2 ^ 32 → s.groupOfSeq a = some g → (s.node (s.group g).node).ctx ≠ s.crewCtx c.core c.slot → exec (i o) s = done 2 s)
    ∧ (∀ g, a < 2 ^ 32 → s.groupOfSeq a = some g → (s.node (s.group g).node).ctx = s.crewCtx c.core c.slot →
        let u := s.modGroup g (fun r => { r with haltReq := true })
        (s.groupStopped g = true → exec (.haltg o) s = done 6 s)
        ∧ (s.groupStopped g = false → wt = .none → s.groupHalted g = true → exec (.haltg o) s = done 4 s)
        ∧ (s.groupStopped g = false → wt = .none → s.groupHalted g = false → u.groupHalted g = true → exec (.haltg o) s = done 0 u)
        ∧ (s.groupStopped g = false → wt = .none → s.groupHalted g = false → u.groupHalted g = false →
            exec (.haltg o) s = .next (u.hold c (.halt a s.cycle)))
        ∧ (s.groupHalted g = false → exec (.resumeg o) s = done 4 s)
        ∧ (s.groupHalted g = true → exec (.resumeg o) s = done 0 ((s.modGroup g (fun r => { r with haltReq := false })).each (s.groupSlots g)
            (fun x sl => (x.modCrew (s.group g).core sl (fun w => { w with halted := false })).tryRegion (s.group g).core sl)))))
  ∧ ∀ (o : OpDA) (s : State) (c : Cur), s.Ready c .any false [srcUse o.a, .s o.d.toNat] (o.g ≠ 0) (s.act c o.g) (fun _ => [o.a]) →
    let n := (s.uval c o.a).toNat
    (s.act c o.g = 0 → ∃ t, exec (.accg o) s = .next t ∧ s.FibreDone t c (fun _ f => f.noLatch) 0)
    ∧ (s.act c o.g ≠ 0 → 48 < n → exec (.accg o) s = .next (s.status c o.d (s.act c o.g) 2))
    ∧ (s.act c o.g ≠ 0 → n ≤ 48 → s.accNamed c.core (s.cw c).group n = true → exec (.accg o) s = .next (s.hold c (.array n)))
    ∧ (s.act c o.g ≠ 0 → n ≤ 48 → s.accNamed c.core (s.cw c).group n = false → exec (.accg o) s = .next (match (s.askGrow c true n o.d).2 with
        | some st => (s.askGrow c true n o.d).1.status c o.d (s.act c o.g) st
        | none => (s.askGrow c true n o.d).1.hold c .grow))
    ∧ (s.act c o.g ≠ 0 → n ≤ 48 → s.accNamed c.core (s.cw c).group n = false →
        ((s.core c.core).grows = [] ∨ n ≤ (s.group (s.cw c).group).accPlaces.length
          ∧ ∀ r ∈ (s.core c.core).grows, ¬(r.slot = c.slot ∧ r.acc = true ∧ r.lanes = c.lanes)) →
        ∀ u, s.setAccs (s.cw c).group n = some u → exec (.accg o) s = .next (u.status c o.d (s.act c o.g) 0))

/-- CPY, CPYQ, CPYT and RGET (R332 to R336, R339): each waits while its core's queue is full, faults on a reserved control word, and else
queues one copy for the crew's open batch, with the next slot of a ring reserved where its destination is one. -/
def Obligations.CopiesIssue : Prop :=
  ∀ (o : OpCp) (s : State) (c : Cur),
    let A := (s.uval c (.s o.sa)).toNat
    let B := (s.uval c (.s (o.sa + 1))).toNat
    let C := (s.uval c (.s o.sb)).toNat
    let bad : Host.Outcome State Fault Refusal := .next (s.takeFault c (faultOf 14 1))
    (∀ p ∈ [(Instr.cpy, Roles.copy), (.cpyq, .copy), (.cpyt, .copy), (.rget, .any)], s.QueueReady c p.2 o.g (cpUses o) (cpSrcs o) →
      (s.act c o.g = 0 → ∃ t, exec (p.1 o) s = .next t ∧ s.FibreDone t c (fun _ f => f.noLatch) 0)
      ∧ (s.act c o.g ≠ 0 → 64 ≤ (s.core c.core).queued → exec (p.1 o) s = .next (s.hold c .copyFull)))
    ∧ (s.QueueReady c .copy o.g (cpUses o) (cpSrcs o) → s.act c o.g ≠ 0 → (s.core c.core).queued < 64 →
      let len := C % 2 ^ 24
      (len = 0 ∨ 2 ^ 26 ≤ C → exec (.cpy o) s = bad)
      ∧ (C < 2 ^ 24 → len ≠ 0 → ∃ t, exec (.cpy o) s = .next t ∧ s.CopyQueued t c o.d (.cpy A B len none false) len)
      ∧ (2 ^ 25 ≤ C → C < 2 ^ 25 + 2 ^ 24 → len ≠ 0 → B % 1024 = 0 → len % 1024 = 0 →
          ∃ t, exec (.cpy o) s = .next t ∧ s.CopyQueued t c o.d (.cpy A B len none true) len)
      ∧ (∀ off u r, 2 ^ 24 ≤ C → C < 2 ^ 25 → len ≠ 0 → regionOf B = .local_ off → s.RingIs c off u r →
          (r.slotsz < len → exec (.cpy o) s = .next (u.takeFault c (faultOf 14 2)))
          ∧ (len ≤ r.slotsz → r.free = 0 → exec (.cpy o) s
              = .next (((u.setTag (s.cw c).group off).setTag (s.cw c).group (off + 8)).hold c (.ringFree off)))
          ∧ (len ≤ r.slotsz → r.free ≠ 0 → exec (.cpy o) s = .next ((u.setRing (s.cw c).group off r.reserve).enqueue c o.d (s.act c o.g)
              (.cpy A (0x01FFFFFF00000000 + r.base + r.put * r.slotsz) len (some (off, r.put)) false) len)))
      ∧ (2 ^ 32 ≤ C ∨ C / 2 ^ 9 % 4 ≠ 0 → exec (.cpyq o) s = bad)
      ∧ (C < 2 ^ 8 → C / 2 < (if C % 2 = 1 then 96 else (s.group (s.cw c).group).tiles) →
          ∃ t, exec (.cpyq o) s = .next t ∧ s.CopyQueued t c o.d (.cpyq A B (C % 2) (C / 2) none) 32)
      ∧ (2 ^ 32 ≤ C ∨ C / 2 ^ 10 % 2 ≠ 0 ∨ C % 4 = 3 → exec (.cpyt o) s = bad)
      ∧ (C < 2 ^ 9 → C % 4 ≠ 3 → C / 4 < (if C % 4 = 1 then 96 else (s.group (s.cw c).group).tiles) →
          ∃ t, exec (.cpyt o) s = .next t ∧ s.CopyQueued t c o.d (.cpyt A B (C % 4) (C / 4) none) 32))
    ∧ (s.QueueReady c .any o.g (cpUses o) (cpSrcs o) → s.act c o.g ≠ 0 → (s.core c.core).queued < 64 →
      let peer := C / 2 ^ 32
      (C % 2 ^ 24 = 0 ∨ C / 2 ^ 24 % 256 ≠ 0 ∨ 2 ^ 44 ≤ C → exec (.rget o) s = bad)
      ∧ (C % 2 ^ 24 ≠ 0 → C / 2 ^ 24 % 256 = 0 → C < 2 ^ 44 →
        (Tab.find s.peers peer = none → exec (.rget o) s = .next (s.takeFault c { cause := 2, sub := 6, addr := A }))
        ∧ (Tab.find s.peers peer ≠ none →
            ∃ t, exec (.rget o) s = .next t ∧ s.CopyQueued t c o.d (.rget peer A B (C % 2 ^ 24)) (C % 2 ^ 24))))

/-- SEAL, CWAIT, RPUT and NOTIFY (R332, R336, R337, R339, R340, R401): a batch is sealed and its number given; a wait ends once every copy of its
batch is complete, or when a ring's slot is there; RPUT and NOTIFY send what they send once, irreversibly, and count it in ACK_SY;
RPUT carries the poison of each word that it read (R333). -/
def Obligations.BatchesRingsAndMessages : Prop :=
  (∀ (o : OpSeal) (s : State) (c : Cur), s.QueueReady c .any o.g [.s o.d.toNat] [] →
    let w := s.cw c
    let n := (w.lastBatch + 1).toNat
    let busy := (w.batches.filter (fun b => b.sealed_ && decide (0 < b.left))).length
    (s.act c o.g = 0 → ∃ t, exec (.sealBatch o) s = .next t ∧ s.FibreDone t c (fun _ f => f.noLatch) 0)
    ∧ (s.act c o.g ≠ 0 → 64 ≤ busy → exec (.sealBatch o) s = .next (s.hold c .sealLimit))
    ∧ (s.act c o.g ≠ 0 → busy < 64 → ∃ u t v bs, exec (.sealBatch o) s = .next t ∧ u.StatusDone t c o.d (BitVec.ofNat 64 n)
        ∧ v = (if w.batches.any (fun b => b.no = n && !b.sealed_) then s else s.freshBatch c)
        ∧ u = v.setCrew c.core c.slot { v.cw c with lastBatch := w.lastBatch + 1, batches := bs }
        ∧ (∀ b, b.no ≠ n → (b ∈ bs ↔ b ∈ (v.cw c).batches)) ∧ (∀ b ∈ bs, b.no = n → b.sealed_ = true)
        ∧ ((∀ b ∈ w.batches, b.no = n → b.sealed_ = false) → v = s)))
  ∧ (∀ (o : OpDA) (s : State) (c : Cur), c.ins = .cwaitBatch o → s.QueueReady c .any o.g [srcUse o.a, .s o.d.toNat] [o.a] →
    let w := s.cw c
    let g := w.group
    let a := (s.uval c o.a).toNat
    let v := a % 2 ^ 62
    let done (i : Instr) (u : State) (st : Nat) : Prop := ∃ t, exec i s = .next t ∧ u.StatusDone t c o.d (BitVec.ofNat 64 st)
    (∀ i ∈ [Instr.cwaitBatch o, .cwaitTake, .cwaitFree], s.act c o.g = 0 → ∃ t, exec i s = .next t ∧ s.FibreDone t c (fun _ f => f.noLatch) 0)
    ∧ (∀ p ∈ [(Instr.cwaitBatch o, 0, 65536), (.cwaitTake, 1, 2 ^ 21), (.cwaitFree, 2, 2 ^ 21)], s.act c o.g ≠ 0 → a / 2 ^ 62 ≠ p.2.1 ∨ p.2.2 ≤ v →
        exec p.1 s = .next (s.takeFault c (faultOf 14 1)))
    ∧ (s.act c o.g ≠ 0 → a < 65536 →
        let ahead := (a + 65536 - w.lastBatch.toNat) % 65536
        (1 ≤ ahead → ahead ≤ 32767 → done (.cwaitBatch o) s 2)
        ∧ (ahead = 32768 → done (.cwaitBatch o) s 0)
        ∧ (ahead = 0 ∨ 32768 < ahead →
          ((∀ b ∈ w.batches, b.no = a → b.sealed_ = false) → done (.cwaitBatch o) s 0)
          ∧ ∀ b, w.batches.find? (fun b => b.no = a && b.sealed_) = some b →
            (0 < b.left → exec (.cwaitBatch o) s = .next (s.hold c (.batch a)))
            ∧ (b.left = 0 → b.fail = none → done (.cwaitBatch o) s 0)
            ∧ ∀ f, b.left = 0 → b.fail = some f →
              let u := s.setCrew c.core c.slot { w with batches := w.batches.filter (fun x => x.no ≠ a || !x.sealed_) }
              (b.peerFail = true → done (.cwaitBatch o) u 3)
              ∧ (b.peerFail = false → exec (.cwaitBatch o) s = .next (u.takeFault c { f.2 with lanes := 0, detail := a + 2 ^ 16 }))))
    ∧ ∀ u r, s.act c o.g ≠ 0 → v < 2 ^ 21 → s.RingIs c v u r →
      (a / 2 ^ 62 = 1 → r.filled = 0 → exec .cwaitTake s = .next (((u.setTag g v).setTag g (v + 8)).hold c (.ringTake v)))
      ∧ (a / 2 ^ 62 = 1 → r.filled ≠ 0 → done .cwaitTake (u.setRing g v r.takeOne) (r.take + 64 * r.tph))
      ∧ (a / 2 ^ 62 = 2 → r.nslot ≤ r.free + r.infl + r.filled → done .cwaitFree ((u.setTag g v).setTag g (v + 8)) 2)
      ∧ (a / 2 ^ 62 = 2 → r.free + r.infl + r.filled < r.nslot → done .cwaitFree (u.setRing g v { r with free := r.free + 1 }) 0))
  ∧ (∀ (o : OpCp) (s : State) (c : Cur), s.QueueReady c .any o.g (cpUses o) (cpSrcs o) →
    let A := (s.uval c (.s o.sa)).toNat
    let B := (s.uval c (.s (o.sa + 1))).toNat
    let C := (s.uval c (.s o.sb)).toNat
    let p := C / 2 ^ 32
    let n := C % 2 ^ 24
    (s.act c o.g = 0 → exec (.rput o) s = .next (s.retire c { swap := true, restart := true }))
    ∧ (s.act c o.g ≠ 0 → n = 0 ∨ C / 2 ^ 24 % 256 ≠ 0 ∨ 2 ^ 44 ≤ C → exec (.rput o) s = .next (s.takeFault c (faultOf 14 1)))
    ∧ (s.act c o.g ≠ 0 → n ≠ 0 → C / 2 ^ 24 % 256 = 0 → C < 2 ^ 44 →
      (Tab.find s.peers p = none → exec (.rput o) s = .next (s.takeFault c { cause := 2, sub := 6, addr := B }))
      ∧ (Tab.find s.peers p ≠ none → s.rangeFault c A n = none →
        (s.peerState p = 2 → exec (.rput o) s
          = .next (s.putU c false o.d (s.act c o.g) 3 { swap := true, restart := true }))
        ∧ (s.peerState p = 0 → 4095 ≤ (s.cw c).ackSy → exec (.rput o) s = .next (s.hold c (.counters 0 0 1)))
        ∧ (s.peerState p = 1 → ((s.cw c).fibre (lowestLane c.lanes)).wait = .none → exec (.rput o) s = .next (s.hold c (.peer p s.timeNs)))
        ∧ (∀ x, s.peerState p = 0 → (s.cw c).ackSy < 4095 → s.rputWaits c = some x → exec (.rput o) s = .next (s.hold c x))
        ∧ ∀ b bs, s.peerState p = 0 → (s.cw c).ackSy < 4095 → s.rputWaits c = none → s.copyRead c A n = (b, .ok bs) →
          ∃ ps : List Nat, (∀ i, i ∈ ps ↔ ∃ j x, bs[j]? = some x ∧ x.2 = true ∧ (B % 8 + j) / 8 = i)
          ∧ exec (.rput o) s = .next (((({ b.newId.2 with peerOut := b.peerOut ++
            [{ id := b.nextId, peer := p, core := c.core, slot := c.slot, lid := s.crewLid c.core c.slot, addr := B, data := bs.map Prod.fst, vaddr := B
               pois := ps, regaddr := ((s.cw c).fibre (lowestLane c.lanes)).restart.toNat }] } : State).modCrew c.core c.slot
              (fun w => { w with ackSy := w.ackSy + 1 })).putU c false o.d (s.act c o.g) 0 { swap := true, restart := true })))))
  ∧ ∀ (o : OpDU) (s : State) (c : Cur), s.QueueReady c .any o.g [srcUse o.a, srcUse o.b, .s o.d.toNat] [o.a, o.b] →
    let b := (s.uval c o.b).toNat
    let q : EQueue := Tab.get s.eqs {} (b % 64)
    let x := s.crewCtx c.core c.slot
    (s.act c o.g = 0 → exec (.notify o) s = .next (s.retire c { swap := true, restart := true }))
    ∧ (s.act c o.g ≠ 0 → b / 64 % 4 ≠ 0 ∨ 2 ^ 24 ≤ b → exec (.notify o) s = .next (s.takeFault c (faultOf 14 1)))
    ∧ (s.act c o.g ≠ 0 → b / 64 % 4 = 0 → b < 2 ^ 24 →
      (q.en = false ∨ q.ctx ≠ x → exec (.notify o) s = .next (s.takeFault c (faultOf 2 6)))
      ∧ (q.en = true → q.ctx = x → 4095 ≤ (s.cw c).ackSy → exec (.notify o) s = .next (s.hold c (.counters 0 0 1)))
      ∧ (q.en = true → q.ctx = x → (s.cw c).ackSy < 4095 →
        exec (.notify o) s = .next (((({ s with evout := s.evout ++
          [{ queue := b % 64, kind := 2, ctx := x, data := (s.uval c o.a).toNat, info := b / 256 % 65536 + c.core * 2 ^ 16 + c.slot % 32 * 2 ^ 27
             crew := some (c.core, c.slot), node := some (s.crewLid c.core c.slot) }] } : State).modCrew c.core c.slot
            (fun w => { w with ackSy := w.ackSy + 1 })).putU c false o.d (s.act c o.g) 0 { swap := true, restart := true }))))

/-- SNAP and OWNX (R357, R363 to R366): outside system mode a SNAP faults, a reserved control word answers status 4, and each operation answers its
status with the mask of retained slots; a TAKE waits while a home cannot yet fold what is committed (R351, R352). That SLOT is 0 where no
slot is free, and the order of SHIP's statuses, are the model's choices (DESIGN CHOICE, log 33). OWNX waits for the next claim it lacks and answers 0 once it has them all, 2 at its limit. -/
def Obligations.SnapshotsAndOwnership : Prop :=
  (∀ (o : OpDU) (s : State) (c : Cur), c.ins = .snapTake o →
    s.Ready c .any false [srcUse o.a, srcUse o.b, .s o.d.toNat] (o.g ≠ 0) (s.act c o.g) (fun _ => [o.a]) →
    let m := s.act c o.g
    let a := (s.uval c o.a).toNat
    let i := a / 256 % 16
    let n := s.snap i
    let word (u : State) (st k bt : Nat) : Word := BitVec.ofNat 64 (st + k * 2 ^ 8 + bt * 2 ^ 16
      + ((List.range 16).map (fun j => if (u.snap j).valid then 2 ^ j else 0)).sum * 2 ^ 32)
    let done (u : State) (x : Word) : Host.Outcome State Fault Refusal := .next (u.putU c false o.d m x { swap := true, restart := true })
    (m = 0 → ∀ j ∈ [Instr.snapTake o, .snapDrop, .snapRollback],
      exec j s = .next (s.retire c { swap := true, restart := true }))
    ∧ (m ≠ 0 → (s.cw c).sys = false → ∀ j ∈ [Instr.snapTake o, .snapDrop, .snapRollback], exec j s = .next (s.takeFault c (faultOf 2 10)))
    ∧ (m ≠ 0 → (s.cw c).sys = true →
      (∀ p ∈ [(Instr.snapTake o, 0), (.snapDrop, 1), (.snapRollback, 2)],
        a % 8 ≠ p.2 ∨ a / 8 % 32 ≠ 0 ∨ 4096 ≤ a → exec p.1 s = done s (word s 4 i 0))
      ∧ (a / 8 % 32 = 0 → a < 4096 →
        (a % 8 = 0 → ((∀ j < 16, (s.snap j).valid = true) → exec (.snapTake o) s = done s (word s 1 0 0))
          ∧ (∀ j < 16, (s.snap j).valid = false → s.unfolded ≠ [] → exec (.snapTake o) s
              = .next (s.hold c (.homes (s.unfolded.filter (fun l => (s.page l).moving)))))
          ∧ ∀ j < 16, s.unfolded = [] → (s.snap j).valid = false → (∀ k < j, (s.snap k).valid = true) → ∃ u, exec (.snapTake o) s = done u (word u 0 j 0)
            ∧ (∀ k < 16, u.snap k = if k = j then { valid := true, gen := s.foldAll.gen, time := s.foldAll.timeNs, sealseq := s.foldAll.seals % 2 ^ 32
                                                    root := s.foldAll.root, pages := s.foldAll.pages, grains := s.foldAll.grains } else s.foldAll.snap k)
            ∧ u.gen = (s.foldAll.gen + 1) % 2 ^ 32)
        ∧ (a % 8 = 1 → (n.valid = false → exec .snapDrop s = done s (word s 2 i 0))
          ∧ (n.valid = true → n.ship = true → exec .snapDrop s = done s (word s 3 i 0))
          ∧ (n.valid = true → n.ship = false → ∃ u, u = { s with snaps := u.snaps } ∧ (∀ k, u.snap k = if k = i then {} else s.snap k)
              ∧ exec .snapDrop s = done u (word u 0 i 0)))
        ∧ (a % 8 = 2 → (n.valid = false → exec .snapRollback s = done s (word s 2 i 0))
          ∧ (n.valid = true → s.crewTag c.core c.slot ≠ 0 ∨ s.otherNode (s.crewLid c.core c.slot) = true →
              exec .snapRollback s = done s (word s 3 i 0))
          ∧ (n.valid = true → s.crewTag c.core c.slot = 0 → s.otherNode (s.crewLid c.core c.slot) = false →
              let v := s.discardAll.backTo (s.discardAll.snap i)
              ∃ u, exec .snapRollback s = done u (word u 0 i 0) ∧ u = v ∧ u.pages = n.pages ∧ u.grains = n.grains ∧ u.root.blocks = n.root.blocks
                ∧ u.gen = (s.gen + 1) % 2 ^ 32 ∧ u.snaps = s.snaps)))))
  ∧ (∀ (o : OpDU) (s : State) (c : Cur), c.ins = .snapTake o →
    let m := s.act c o.g
    let a := (s.uval c o.a).toNat
    let i := a / 256 % 16
    let n := s.snap i
    let word (u : State) (st k bt : Nat) : Word := BitVec.ofNat 64 (st + k * 2 ^ 8 + bt * 2 ^ 16
      + ((List.range 16).map (fun j => if (u.snap j).valid then 2 ^ j else 0)).sum * 2 ^ 32)
    let done (u : State) (x : Word) : Host.Outcome State Fault Refusal := .next (u.putU c false o.d m x { swap := true, restart := true })
    s.Ready c .any false [srcUse o.a, srcUse o.b, .s o.d.toNat] (o.g ≠ 0) m (fun _ => if a % 8 = 3 ∧ a / 8 % 32 = 0 ∧ a < 4096 then [o.a, o.b] else [o.a]) →
    (m = 0 → exec .snapShip s = .next (s.retire c { swap := true, restart := true }))
    ∧ (m ≠ 0 → (s.cw c).sys = false → exec .snapShip s = .next (s.takeFault c (faultOf 2 10)))
    ∧ (m ≠ 0 → (s.cw c).sys = true → a % 8 ≠ 3 ∨ a / 8 % 32 ≠ 0 ∨ 4096 ≤ a → exec .snapShip s = done s (word s 4 i 0))
    ∧ (m ≠ 0 → (s.cw c).sys = true → a % 8 = 3 → a / 8 % 32 = 0 → a < 4096 →
      let p := (s.uval c o.b).toNat % 4096
      (n.valid = false → exec .snapShip s = done s (word s 2 i 0))
      ∧ (n.valid = true → Tab.find s.peers p = none → exec .snapShip s = done s (word s 5 i 0))
      ∧ (n.valid = true → Tab.find s.peers p ≠ none → n.ship = true → exec .snapShip s = done s (word s 3 i 0))
      ∧ (n.valid = true → Tab.find s.peers p ≠ none → n.ship = false → 64 ≤ (s.core c.core).queued → exec .snapShip s = .next (s.hold c .copyFull))
      ∧ (n.valid = true → Tab.find s.peers p ≠ none → n.ship = false → (s.core c.core).queued < 64 →
          let u := ({ s with snaps := Tab.set s.snaps {} i { n with ship := true } } : State).joinBatch c (.ship p i) 1
          exec .snapShip s = done u (word u 0 i ((s.cw c).lastBatch + 1).toNat))))
  ∧ ∀ (o : OpDU) (s : State) (c : Cur),
    s.Ready c .any false [srcUse o.a, srcUse o.b, .s o.d.toNat] (o.g ≠ 0) (s.act c o.g) (fun _ => [o.a, o.b]) →
    let m := s.act c o.g
    let n := (s.uval c o.b).toNat
    let k := clusterOf c.core
    let mine (r : ClaimReq) : Bool := r.core = c.core && r.slot = c.slot && r.retry
    let done (st : Nat) : Host.Outcome State Fault Refusal :=
      .next ((s.modCluster k (fun q => { q with claims := q.claims.filter (fun r => !mine r) })).putU c false o.d m (BitVec.ofNat 64 st)
        { swap := true, restart := true })
    (m = 0 → exec (.ownx o) s = .next (s.retire c { swap := true, restart := true }))
    ∧ (m ≠ 0 → n = 0 ∨ 64 < n → exec (.ownx o) s = done 4)
    ∧ (m ≠ 0 → 1 ≤ n → n ≤ 64 → ((s.cw c).fibre (lowestLane c.lanes)).wait = .none →
      (∀ f, s.ownxGrains c (s.uval c o.a).toNat n = .error f → exec (.ownx o) s = .next (s.takeFault c f))
      ∧ (∀ gs, s.ownxGrains c (s.uval c o.a).toNat n = .ok gs → (∀ g ∈ gs, s.claimHeld k g (s.crewTag c.core c.slot) = true) →
          exec (.ownx o) s = done 0)
      ∧ ∀ gs g, s.ownxGrains c (s.uval c o.a).toNat n = .ok gs →
          (gs.filter (fun g => !s.claimHeld k g (s.crewTag c.core c.slot))).head? = some g →
          (s.cluster k).claims.any (fun r => mine r && r.grain = g) = false →
          exec (.ownx o) s = .next ((s.modCluster k (fun q => { q with claims := q.claims ++
            [{ grain := g, tag := s.crewTag c.core c.slot, core := c.core, slot := c.slot, since := s.cycle, retry := true }] })).hold c (.ownx s.cycle)))

/-- Lane matrices (R133, R194 to R198, R200, R201, R207): shapes, moves, products, sums and the transpose in every active lane, each element rounded
once; a lane whose operands do not suit sets SHP and changes nothing else; no other lane and no latch changes. -/
def Obligations.LaneMatrixResults : Prop :=
  ∀ (s : State) (c : Cur),
    let w := s.cw c
    let R : RMode := RMode.ofCode w.frm.toNat
    let X (k : BitVec 4) (l : Nat) : MView := w.mview k l
    let acts (i : Instr) (g : BitVec 3) (d : BitVec 4) (us : List Use) (tags : List (BitVec 4)) (vs : List Src) (P : Nat → LRes → Prop) : Prop :=
      s.LaneReady c g us tags vs → ∃ x, s.LaneActs c d.toNat (s.act c g) x (exec i s) ∧ ∀ l, (s.act c g).getLsbD l = true → P l (x l)
    (∀ o, acts (.mshape o) o.g o.d [.m o.d.toNat] [] [] (fun _ x => x.Gives o.rows.toNat o.cols.toNat o.ty (fun _ _ => 0) 0 none ∧ x.ff = 0))
    ∧ (∀ o, acts (.midn o) o.g o.d [.m o.d.toNat] [] [] (fun _ x => x.Gives o.n.toNat o.n.toNat o.ty
        (fun i j => if i = j then (if o.ty then 0x3FF0000000000000 else 0x3F800000) else 0) 0 none ∧ x.ff = 0))
    ∧ (∀ o, o.i.toNat < 6 → o.j.toNat < 6 → acts (.mmovv o) o.g o.m [.m o.m.toNat, .v o.v.toNat] [o.m] [.v o.v] (fun l x =>
        let y := X o.m l
        let q := 6 * o.i.toNat + o.j.toNat
        if y.r = 0 ∨ y.r ≤ o.i.toNat ∨ y.c ≤ o.j.toNat then x.IsShp
        else x.mat = none ∧ x.mf = 0 ∧ x.clr = 0 ∧ x.ff = 0 ∧
          if o.dir then x.vec = some (o.v, (w.mel o.m.toNat l q).val) ∧ x.one = none
          else x.vec = none ∧ x.one = some (q, if y.ty then (w.val l (.v o.v)).toNat else (el 32 0 (w.val l (.v o.v))).toNat)))
    ∧ (∀ o, acts (.mflag o) o.g 0 [.v o.v.toNat] [] [] (fun l x =>
        x.mat = none ∧ x.one = none ∧ x.vec = some (o.v, (w.fibre l).mflags.setWidth 64) ∧ x.mf = 0 ∧ x.clr = (if o.clr then 15 else 0) ∧ x.ff = 0))
    ∧ (∀ o, acts (.mtrn o) o.g o.d [.m o.d.toNat, .m o.a.toNat] [o.a] [] (fun l x =>
        if (X o.a l).r = 0 then x.IsShp else x.Gives (X o.a l).c (X o.a l).r (X o.a l).ty (fun i j => (X o.a l).el j i) 0 none ∧ x.ff = 0))
    ∧ (∀ o, acts (.madd o) o.g o.d [.m o.d.toNat, .m o.a.toNat, .m o.b.toNat] [o.a, o.b] [] (fun l x =>
        let a := X o.a l
        let b := X o.b l
        if a.r = 0 ∨ a.r ≠ b.r ∨ a.c ≠ b.c ∨ a.ty ≠ b.ty then x.IsShp
        else x.Rounds a.r a.c a.ty (fun i j => if o.sub then (mfmt a.ty).fsub R (a.el i j) (b.el i j) else (mfmt a.ty).fadd R (a.el i j) (b.el i j))))
    ∧ (∀ o, acts (.mscal o) o.g o.d [.m o.d.toNat, .m o.a.toNat, .v o.v.toNat] [o.a] [.v o.v] (fun l x =>
        let a := X o.a l
        let k : Nat := if a.ty then (w.val l (.v o.v)).toNat else (el 32 0 (w.val l (.v o.v))).toNat
        if a.r = 0 then x.IsShp else x.Rounds a.r a.c a.ty (fun i j => (mfmt a.ty).fmul R k (a.el i j))))
    ∧ (∀ o, acts (.mmul o) o.g o.d [.m o.d.toNat, .m o.a.toNat, .m o.b.toNat] [o.a, o.b] [] (fun l x =>
        let a := (X o.a l).op o.ta
        let b := (X o.b l).op o.tb
        if a.r = 0 ∨ b.r = 0 ∨ a.c ≠ b.r ∨ a.ty ≠ b.ty then x.IsShp
        else x.Rounds a.r b.c a.ty (fun i j => mdot (mfmt a.ty) R false [] ((List.range a.c).map (fun k => (a.el i k, b.el k j))))))
    ∧ (∀ o, acts (.mmac o) o.g o.d [.m o.d.toNat, .m o.a.toNat, .m o.b.toNat] [o.a, o.b, o.d] [] (fun l x =>
        let a := (X o.a l).op o.ta
        let b := (X o.b l).op o.tb
        let d := X o.d l
        if a.r = 0 ∨ b.r = 0 ∨ a.c ≠ b.r ∨ a.ty ≠ b.ty ∨ d.r ≠ a.r ∨ d.c ≠ b.c ∨ d.ty ≠ a.ty then x.IsShp
        else x.Rounds a.r b.c a.ty (fun i j => mdot (mfmt a.ty) R o.neg [d.el i j] ((List.range a.c).map (fun k => (a.el i k, b.el k j))))))
    ∧ ∀ o, acts (.mmv o) o.g o.d [.m o.d.toNat, .m o.a.toNat, .m o.b.toNat] (if o.acc then [o.a, o.b, o.d] else [o.a, o.b]) [] (fun l x =>
        let a := (X o.a l).op o.ta
        let b := X o.b l
        let d := X o.d l
        let col : Prop := b.c = 1
        (a.r = 0 ∨ b.r = 0 ∨ b.c ≠ 1 ∧ b.r ≠ 1 ∨ a.c ≠ (if b.c = 1 then b.r else b.c) ∨ a.ty ≠ b.ty
          ∨ o.acc = true ∧ (d.r ≠ (if b.c = 1 then a.r else 1) ∨ d.c ≠ (if b.c = 1 then 1 else a.r) ∨ d.ty ≠ a.ty) → x.IsShp)
        ∧ (a.r ≠ 0 → b.r ≠ 0 → a.ty = b.ty → (o.acc = true → d.ty = a.ty) →
          (col → a.c = b.r → (o.acc = true → d.r = a.r ∧ d.c = 1) → x.Rounds a.r 1 a.ty (fun i _ =>
              mdot (mfmt a.ty) R o.neg (if o.acc then [d.el i 0] else []) ((List.range a.c).map (fun k => (a.el i k, b.el k 0)))))
          ∧ (¬ col → b.r = 1 → a.c = b.c → (o.acc = true → d.r = 1 ∧ d.c = a.r) → x.Rounds 1 a.r a.ty (fun _ j =>
              mdot (mfmt a.ty) R o.neg (if o.acc then [d.el 0 j] else []) ((List.range a.c).map (fun k => (a.el j k, b.el 0 k)))))))

/-- MCHOL, MLU, MSOLC and MSOLL (R196, R202 to R207): SHP for shapes or a pivot record that do not suit; the canonical NaN and NFN for an input that is
not finite, and with NPP or ZP for a diagonal that does not serve; MCHOL without a flag gives the factor of its recurrence, MLU whose steps
are all finite the factors and the pivots of its own with ZP for a zero pivot, and MSOLL without a flag the solution of its two
substitutions. -/
def Obligations.FactorisationsAndSolves : Prop :=
  ∀ (s : State) (c : Cur),
    let w := s.cw c
    let R : RMode := RMode.ofCode w.frm.toNat
    let X (k : BitVec 4) (l : Nat) : MView := w.mview k l
    let acts (i : Instr) (g : BitVec 3) (d : BitVec 4) (us : List Use) (tags : List (BitVec 4)) (vs : List Src) (P : Nat → LRes → Prop) : Prop :=
      s.LaneReady c g us tags vs → ∃ x, s.LaneActs c d.toNat (s.act c g) x (exec i s) ∧ ∀ l, (s.act c g).getLsbD l = true → P l (x l)
    let nan (ty : Bool) : Nat → Nat → Nat := fun _ _ => (mfmt ty).nanBits
    let low : Nat → Nat → Bool := fun i j => decide (j ≤ i)
    let all : Nat → Nat → Bool := fun _ _ => true
    (∀ o, acts (.mchol o) o.g o.d [.m o.d.toNat, .m o.a.toNat] [o.a] [] (fun l x =>
        let a := X o.a l
        (a.r = 0 ∨ a.r ≠ a.c → x.IsShp)
        ∧ (a.r ≠ 0 → a.r = a.c → ¬ a.finite low → x.Gives a.r a.r a.ty (nan a.ty) mfNFN none ∧ x.ff = 0)
        ∧ (a.r ≠ 0 → a.r = a.c → a.finite low → (∃ mf e, x.Gives a.r a.r a.ty e mf none ∧ mf &&& ~~~(mfNPP ||| mfNFN) = 0
            ∧ (mf = 0 → a.r ≤ 6 → CholOf (mfmt a.ty) R a.r a.el e))
          ∧ (((mfmt a.ty).decode (a.el 0 0)).real.num ≤ 0 → x.Gives a.r a.r a.ty (fun _ _ => 0) mfNPP none ∧ x.ff = 0))))
    ∧ (∀ o, acts (.mlu o) o.g o.d [.m o.d.toNat, .m o.a.toNat, .v o.v.toNat] [o.a] [] (fun l x =>
        let a := X o.a l
        (a.r = 0 ∨ a.r ≠ a.c → x.IsShp)
        ∧ (a.r ≠ 0 → a.r = a.c → ¬ a.finite all → x.Gives a.r a.r a.ty (nan a.ty) mfNFN (some (o.v, 0)) ∧ x.ff = 0)
        ∧ (a.r ≠ 0 → a.r = a.c → a.finite all → ∃ e mf ps, x.Gives a.r a.r a.ty e mf (some (o.v, packEls 8 ps))
            ∧ mf &&& ~~~(mfZP ||| mfNFN) = 0 ∧ ps.length = a.r ∧ (∀ k, k < a.r → k ≤ ps.getD k 0 ∧ ps.getD k 0 < a.r)
            ∧ (mf &&& mfNFN = 0 → a.r ≤ 6 → LuOf (mfmt a.ty) R a.r a.el e ps
              ∧ (mf &&& mfZP ≠ 0 ↔ ∃ k, k < a.r ∧ ((mfmt a.ty).decode (e k k)).isZero = true)))))
    ∧ (∀ o, acts (.msolc o) o.g o.d [.m o.d.toNat, .m o.a.toNat, .m o.b.toNat] [o.a, o.b] [] (fun l x =>
        let a := X o.a l
        let b := X o.b l
        let diag : Prop := ∀ i, i < a.r → 0 < ((mfmt a.ty).decode (a.el i i)).real.num
        (a.r = 0 ∨ a.r ≠ a.c ∨ b.r ≠ a.r ∨ b.ty ≠ a.ty → x.IsShp)
        ∧ (a.r ≠ 0 → a.r = a.c → b.r = a.r → b.ty = a.ty →
          (¬(a.finite low ∧ b.finite all) → x.Gives a.r b.c a.ty (nan a.ty) mfNFN none ∧ x.ff = 0)
          ∧ (a.finite low → b.finite all → ¬ diag → x.Gives a.r b.c a.ty (nan a.ty) (mfNPP ||| mfNFN) none ∧ x.ff = 0)
          ∧ (a.finite low → b.finite all → diag → ∃ mf,
              let r := solveCols a.r b.c (fun j st => solveCol (mfmt a.ty) R a.r (o.mode ≠ 2) (o.mode ≠ 1) true a.el (fun i k => a.el k i) (fun i => b.el i j) st)
              x.Gives a.r b.c a.ty (wel r.1) mf none ∧ mf &&& ~~~mfNFN = 0 ∧ x.ff = r.2.fl))))
    ∧ ∀ o, acts (.msoll o) o.g o.d [.m o.d.toNat, .m o.a.toNat, .m o.b.toNat, .v o.v.toNat] [o.a, o.b] [.v o.v] (fun l x =>
        let a := X o.a l
        let b := X o.b l
        let n := a.r
        let piv (k : Nat) : Nat := (el 8 k (w.val l (.v o.v))).toNat
        let pivots : Prop := ∀ k, k < 8 → if k < n then k ≤ piv k ∧ piv k < n else piv k = 0
        let diag : Prop := ∀ i, i < n → ((mfmt a.ty).decode (a.el i i)).isZero = false
        (n = 0 ∨ n ≠ a.c ∨ b.r ≠ n ∨ b.ty ≠ a.ty → x.IsShp)
        ∧ (n ≠ 0 → n = a.c → b.r = n → b.ty = a.ty →
          (¬ pivots → x.IsShp)
          ∧ (pivots → ¬(a.finite all ∧ b.finite all) → x.Gives n b.c a.ty (nan a.ty) mfNFN none ∧ x.ff = 0)
          ∧ (pivots → a.finite all → b.finite all → ¬ diag → x.Gives n b.c a.ty (nan a.ty) (mfZP ||| mfNFN) none ∧ x.ff = 0)
          ∧ (pivots → a.finite all → b.finite all → diag → ∃ e mf, x.Gives n b.c a.ty e mf none ∧ mf &&& ~~~mfNFN = 0
              ∧ (mf = 0 → n ≤ 6 → b.c ≤ 6 → LuSolves (mfmt a.ty) R n b.c a.el piv b.el e))))

/-- MLD and MST (R48, R196, R199, R243, R244): element (i, j) of MD in an active lane moves from or to the scratchpad address of R199, an address off
its alignment or outside the partition faults, an unshaped lane sets SHP; MLD clears every other position; MST changes no other byte. Each
position counts its bank conflicts (R242; as one access: the model's choice, log 33). -/
def Obligations.LaneMatrixMemory : Prop :=
  ∀ (o : OpMl) (s : State) (c : Cur) (off : Nat → Nat → Nat → Nat),
    let w := s.cw c
    let m := s.act c o.g
    let X (l : Nat) : MView := w.mview o.d l
    let z (l : Nat) : Nat := if (X l).ty then 8 else 4
    let st (l : Nat) : Nat := if o.stride = 0 then (if o.xp then (X l).r else (X l).c) else o.stride.toNat
    let ea (l i j : Nat) : Word := w.val l o.a + BitVec.ofNat 64 (z l * (if o.xp then j * st l + i else i * st l + j))
    let g := w.group
    let k := (s.group g).core
    let base := (s.group g).padBase
    let shp (l : Nat) (f : Fibre) : Fibre := if m.getLsbD l = true ∧ (X l).r = 0 then { f with mflags := f.mflags ||| mfSHP } else f
    let el (l i j : Nat) : Prop := i < (X l).r ∧ j < (X l).c
    s.Ready c .vector false [.m o.d.toNat, srcUse o.a] (o.g ≠ 0) m (fun _ => [o.a]) →
    (∀ l, m.getLsbD l = true → (w.mtagOf o.d.toNat l).bad = false ∧ (X l).r ≤ 6 ∧ (X l).c ≤ 6) →
    (∀ f, pickFault (s.mlFaults c o m false) = some f → exec (.mld o) s = .next (s.takeFault c f))
    ∧ ((∀ l i j, m.getLsbD l = true → el l i j → (ea l i j).toNat % z l = 0 ∧ s.ownPad c (ea l i j).toNat = some (off l i j)) →
      ((s.core k).armed = false → s.mustFollow c .load (s.mlPlaces c o m) 8 = [] → w.heldBy = none → ∃ w', exec (.mld o) s = .next (s.setCrew c.core c.slot w')
        ∧ ({ w with ev := ((s.countMatBanks c o m).cw c).ev } : Crew).WentOn w' c shp
        ∧ w'.v = w.v ∧ w'.s = w.s ∧ w'.mtag = w.mtag ∧ w'.fflags = w.fflags
        ∧ ∀ n l q, n < 16 → l < 32 → q < 36 → w'.mel n l q =
          if m.getLsbD l = true ∧ n = o.d.toNat ∧ (X l).r ≠ 0 then
            (if el l (q / 6) (q % 6) then { val := BitVec.ofNat 64 (leNat (s.padRead g (off l (q / 6) (q % 6)) (z l)).1)
                                            poison := (s.padRead g (off l (q / 6) (q % 6)) (z l)).2 } else {})
          else w.mel n l q)
      ∧ ((∀ l i j, m.getLsbD l = true → el l i j →
            (w.mel o.d.toNat l (6 * i + j)).poison = false ∧ s.tagBlocked g (off l i j) (z l) = false) →
        s.pairsDiffer c m (fun l => (cells (X l).r (X l).c).flatMap (fun e => [ea l e.1 e.2, (w.mel o.d.toNat l (6 * e.1 + e.2)).val])) = false →
        s.mustFollow c .store (s.mlPlaces c o (w.primaries m)) 8 = [] →
        let pr (l i j : Nat) : Prop := (w.primaries m).getLsbD l = true ∧ el l i j
        ∃ t, exec (.mst o) s = .next t ∧ t.hbm = s.hbm ∧ t.host = s.host ∧ (∀ j, (t.core j).die = (s.core j).die)
          ∧ (∀ j, j ≠ k → (t.core j).pool = (s.core j).pool)
          ∧ (∀ x, (∀ l i j, pr l i j → x < base + off l i j ∨ base + off l i j + z l ≤ x) →
              (∀ i, i < (s.group g).tiles → x < base + 4480 * i + 4096 ∨ base + 4480 * i + 4352 ≤ x) →
              (t.core k).pool.read x = (s.core k).pool.read x)
          ∧ ((s.group g).tiles = 0 → ∀ l i j b, pr l i j → b < z l →
              (∀ l' i' j', pr l' i' j' → (l', i', j') ≠ (l, i, j) → off l i j + b < off l' i' j' ∨ off l' i' j' + z l' ≤ off l i j + b) →
              Tab.get (s.core k).poolPoison false ((base + off l i j + b) / 8) = false →
              (t.core k).pool.read (base + off l i j + b) = (leBytes (z l) (w.mel o.d.toNat l (6 * i + j)).val.toNat).getD b 0)
          ∧ (t.cw c).v = w.v ∧ (t.cw c).s = w.s ∧ (t.cw c).m = w.m ∧ (t.cw c).mtag = w.mtag ∧ (t.cw c).fflags = w.fflags
          ∧ ∀ l, (t.cw c).fibre l = if c.lanes.getLsbD l then (shp l (w.fibre l)).after c w.units c.nextPc else w.fibre l))

/-- Group 13 signs (R30 to R32, R212): the checks of the convergence register in their order; a set that is not complete records the signature and
waits, with nothing else done; the signature that completes it lets the array take the operation. -/
def Obligations.ArraySignatures : Prop :=
  ∀ (s : State) (c : Cur),
    let w := s.cw c
    let signs (i : Instr) (cv g : BitVec 3) (us : List Use) : Prop :=
      s.cur = some c → s.inRange c us = true → Roles.matrix.allows w.role = true → s.pendIds c false us = [] → (g ≠ 0 && s.predPoison c) = false →
      let n := cv.toNat
      let r := (s.group w.group).cv n
      let bad (sub : Nat) : Host.Outcome State Fault Refusal := .next (s.takeFault c { cause := 10, sub := sub, cv := n })
      let mine : Prop := c.slot ≠ 32 ∧ r.owned = true ∧ r.owner = w.no
      let P := w.primaries c.lanes
      (¬ mine → exec i s = bad 2)
      ∧ (mine → r.set = 0 → exec i s = bad 4)
      ∧ (mine → r.set ≠ 0 → P &&& ~~~r.set ≠ 0 → exec i s = bad 2)
      ∧ (mine → r.set ≠ 0 → P &&& ~~~r.set = 0 → r.signed_ ≠ 0 → r.word ≠ c.word ∨ r.pc ≠ c.pc → exec i s = bad 3)
      ∧ (mine → r.set ≠ 0 → P &&& ~~~r.set = 0 → r.signed_ = 0 ∨ r.word = c.word ∧ r.pc = c.pc →
        let u := (s.modGroup w.group (fun q => q.setCv n { r with signed_ := r.signed_ ||| P, word := c.word, pc := c.pc
                                                                  pfx := if r.signed_ = 0 then c.pfx else r.pfx })).hold c (.conv n)
        ((r.signed_ ||| P ≠ r.set → exec i s = .next u) ∧ (r.signed_ ||| P = r.set → exec i s = .next (u.tryConv c.core w.group n))))
    (∀ o : OpTt, (∀ i ∈ [Instr.tld o, .tst o], signs i o.cv o.g [.s o.w.toNat, .s (o.w.toNat + 1), .tile o.t.toNat])
      ∧ ∀ i ∈ [Instr.tckfix o, .tckset o, .tcopy o], signs i o.cv o.g [.s o.w.toNat, .tile o.t.toNat])
    ∧ (∀ o : OpTw, ∀ i ∈ [Instr.wload o, .dload o], signs i o.cv o.g [.s o.w.toNat])
    ∧ (∀ o : OpTc, signs (.wswap o) o.cv o.g [])
    ∧ (∀ o : OpTa, (∀ i ∈ [Instr.tmma o, .dqry o, .dcent o, .dfin o], signs i o.cv o.g [.s o.w.toNat, .tile o.t.toNat, .acc o.ad.toNat])
      ∧ signs (.tmmas o) o.cv o.g [.s o.w.toNat, .tile o.t.toNat, .tile (o.t.toNat + 1), .acc o.ad.toNat])
    ∧ (∀ o : OpTl, signs (.aclr o) o.cv o.g [.s o.w.toNat, .acc o.ad.toNat])
    ∧ (∀ o : OpTak, signs (.acvt o) o.cv o.g [.s o.w.toNat, .tile o.t.toNat, .acc o.ad.toNat])
    ∧ ∀ o : OpTtk, signs (.tckv o) o.cv o.g [.s o.w.toNat, .tile o.t.toNat]

/-- The operations of the array (R31, R212, R213, R217, R221 to R237): a complete set with an active fibre issues its operation, one with none is
skipped; bindings, clears, verifications and operand faults as the rules give; an operation's report and flags, or its fault, arrive when it
completes. -/
def Obligations.ArrayOperations : Prop :=
  (∀ (s : State) (c : Cur) (cv : Nat),
    let g := c.grp s
    let W (r : BitVec 5) : Elem := (s.cw c).sreg r.toNat
    let op (n : Nat) : ArrOp := { slot := c.slot, cv := cv, signers := c.lanes, word := c.word, pc := c.pc, cycles := n }
    let fault (f : FaultInfo) : ArrRet := (s, some { op 1 with fault := some { f with cv := cv } })
    let bad (n : Nat) : ArrRet := fault (faultOf 14 n)
    let bound (f : Group → Group) (h : Core → Core) : State :=
      (if (s.core c.core).served = none ∨ (s.core c.core).served = some g then s.modCore c.core (fun k => { h k with served := some g }) else s).modGroup g f
    (∀ o, s.arrayOp c cv (.wswap o) = (bound (fun r => { r with active := r.shadow, shadow := r.active })
      (fun k => { k with activeCells := k.shadowCells, shadowCells := k.activeCells }), some (op 1)))
    ∧ (∀ o, (W o.w).poison = true → ∀ i ∈ [Instr.wload o, .dload o], s.arrayOp c cv i = (s, some { op 1 with consumed := true }))
    ∧ (∀ o, (W o.w).poison = true → ∀ i ∈ [Instr.tmma o, .tmmas o, .dqry o, .dcent o, .dfin o], s.arrayOp c cv i = (s, some { op 1 with consumed := true }))
    ∧ (∀ o, (W o.w).poison = false →
      let x := (W o.w).val.toNat
      (256 ≤ x ∨ 128 < x ∨ 95 < x % 128 → s.arrayOp c cv (.wload o) = bad 1)
      ∧ (x = 128 → s.arrayOp c cv (.wload o) = (bound (fun r => { r with shadow := .empty }) (fun k => { k with shadowCells := {} }), some (op 32)))
      ∧ (∀ d, x ≤ 95 → s.slotDescOf c x = some d → (s.core c.core).armed = false →
        let F := d % 16
        let scaled := d / 16 % 2 = 1
        (F = 1 ∨ F = 2 ∧ scaled ∨ (F = 3 ∨ F = 4 ∨ F = 5) ∧ ¬ scaled → (s.wslot c x).sumBad = false →
          ((s.wslot c x).classify.cls ≠ 0 → s.arrayOp c cv (.wload o) = fault (sumFault true 0 x))
          ∧ ((s.wslot c x).classify.cls = 0 → (s.wslot c x).scaleBad = true → ∃ u, s.arrayOp c cv (.wload o)
              = (u, some { op 32 with consumed := true }))
          ∧ ((s.wslot c x).classify.cls = 0 → (s.wslot c x).scaleBad = false → d / 32 % 2 = 0 → s.arrayOp c cv (.wload o)
            = (bound (fun r => { r with shadow := .weights x F scaled (d / 32 % 2 = 1) ((s.core c.core).slotImg x 4352 4800) })
                (fun k => { k with shadowCells := k.slotImg x 0 4096 }), some (op 32))))
        ∧ (F = 0 ∨ 5 < F ∨ F = 2 ∧ ¬ scaled ∨ (F = 3 ∨ F = 4 ∨ F = 5) ∧ scaled → s.arrayOp c cv (.wload o) = bad 2))
      ∧ (2 ^ 32 ≤ x ∨ x / 2 ^ 15 % 2 = 1 ∨ 95 < x % 128 ∨ x / 512 % 64 = 0 ∨ 32 < x / 512 % 64 → s.arrayOp c cv (.dload o) = bad 1))
    ∧ (∀ o, (W o.w).poison = false →
      let m := (W o.w).val.toNat
      let act := (s.group g).active
      (∀ i ∈ [Instr.tmma o, .tmmas o, .dqry o], m = 0 ∨ 32 < m → s.arrayOp c cv i = bad 1)
      ∧ (1 ≤ m → m ≤ 32 → act = .empty → ∀ i ∈ [Instr.tmma o, .tmmas o, .dqry o], s.arrayOp c cv i = bad 4)
      ∧ (2 ≤ m → s.arrayOp c cv (.dfin o) = bad 1)
      ∧ (2 ^ 32 ≤ m ∨ m / 64 % 1024 ≠ 0 ∨ (s.group g).accPlaces.length ≤ m % 64 → s.arrayOp c cv (.dcent o) = bad 1))
    ∧ (∀ o, (W o.w).poison = false →
      let n := (W o.w).val.toNat
      let a := o.ad.toNat
      (n = 0 ∨ 48 < n → s.arrayOp c cv (.aclr o) = bad 1)
      ∧ (1 ≤ n → n ≤ 48 → (s.group g).accPlaces.length < a + n → s.arrayOp c cv (.aclr o) = bad 6)
      ∧ (1 ≤ n → n ≤ 48 → a + n ≤ (s.group g).accPlaces.length → ∃ f : Group → Group,
          s.arrayOp c cv (.aclr o) = (s.modGroup g f, some (op (2 * n)))
          ∧ ∀ r : Group, f r = { r with accs := (f r).accs } ∧ ∀ b i j, i < 32 → j < 32 →
            (f r).acc b i j = if a ≤ b ∧ b < a + n then {} else r.acc b i j))
    ∧ ∀ o, (s.core c.core).armed = false → (s.core (s.group g).core).armed = false →
      let v := s.tile c o.t.toNat
      let x := v.classify
      v.sumBad = false → s.arrayOp c cv (.tckv o) = (s, some { op 24 with
        report := some (o.w.toNat, BitVec.ofNat 64 (x.cls + x.row * 2 ^ 3 + x.col * 2 ^ 8))
        fault := if o.k = true ∧ x.cls ≠ 0 then some { sumFault false o.t.toNat 0 with cv := cv } else none }))
  ∧ (∀ (s : State) (core g cv sl : Nat) (rest : List Nat) (c : Cur) (i : Instr),
    let r := (s.group g).cv cv
    ((s.core core).slots.filter (fun e => e.2.group = g && e.1 < 32 && e.2.no = r.owner)).map Prod.fst = sl :: rest →
    r.owned = true → r.signed_ ≠ 0 → r.signed_ = r.set → (∀ q ∈ (s.core core).arr, ¬(q.slot = sl ∧ q.cv = cv)) →
    c = { (s.curAt core sl ((s.crew core sl).waiting (fun x => x = .conv cv))) with pc := r.pc, word := r.word, pfx := r.pfx } →
    ((s.crew core sl).active c.lanes (r.word.extractLsb' 8 3) = 0 → s.tryConv core g cv = (s.unsign g cv).retire c { swap := true })
    ∧ ((s.crew core sl).active c.lanes (r.word.extractLsb' 8 3) ≠ 0 → decodeWord r.word = .ok i → (∀ o, i ≠ .tld o ∧ i ≠ .tst o) →
        ∀ u q, s.arrayOp { c with ins := i } cv i = (u, some q) → (∀ f, q.fault = some f → f.cause ≠ 0) →
          s.tryConv core g cv = u.newId.2.modCore core (fun k => { k with
            arr := k.arr ++ [{ q with id := u.nextId, accs := s.namedAccs { c with ins := i } i }]
            served := if q.fault = none ∧ k.served ≠ none ∧ k.served ≠ some g then some noGroup else k.served })))
  ∧ ∀ (s : State) (q : ArrOp) (rest : List ArrOp), (s.core s.ev.core).arr = q :: rest →
    let k := s.ev.core
    let m := (s.crew k q.slot).waiting (fun x => x = .conv q.cv)
    let c : Cur := { (s.curAt k q.slot m) with pc := q.pc, word := q.word }
    let u := (s.modCore k (fun x => { x with arr := rest })).unsign (s.crew k q.slot).group q.cv
    let v := (match q.report with
      | some r => u.modCrew k q.slot (fun w => w.setSreg r.1 { val := if q.consumed then BitVec.allOnes 64 else r.2, poison := q.consumed })
      | none => u).modCrew k q.slot (fun w => w.countEv 8 q.cycles)
    (q.consumed = true → exec .arrayOperationComplete s
      = .next ((v.modCrew k q.slot (fun w => { w with fflags := w.fflags ||| q.flags })).consume c))
    ∧ (∀ f, q.consumed = false → q.fault = some f → exec .arrayOperationComplete s = .next (v.takeFault c f))
    ∧ (q.consumed = false → q.fault = none → ∃ t, exec .arrayOperationComplete s = .next t ∧ v.FibreDone t c (fun _ f => f.noLatch) q.flags)

/-- The steps of a core beside its issues (R36, R135, R136, R300, R333, R357, R376, R393, R405, R407, R409, R411, R413, R414): each acts when its
condition holds, and says what it does then; where it does not hold, nothing happens. -/
def Obligations.CoreEvents : Prop :=
  ∀ (s : State),
    let core := s.ev.core
    let sl := s.ev.slot
    let k := s.core core
    let w := s.crew core sl
    (s.rotateOut core = none → exec .rotation s = .next s)
    ∧ (∀ x y, s.rotateOut core = some x → s.nextIn core = some y →
      (x < 32 ∧ ∃ v, (x, v) ∈ k.slots ∧ v.peloton = true ∧ v.unit = none ∧ v.since + 96 ≤ s.cycle)
      ∧ (y < 32 ∧ s.crewReady core y = true ∧ ∃ v, (y, v) ∈ k.slots ∧ v.peloton = false)
      ∧ exec .rotation s = .next ((s.modCrew core x (fun v => { (v.countEv 3 1) with peloton := false, since := s.cycle })).modCrew core y
          (fun v => { v with peloton := true, since := s.cycle + 16 })))
    ∧ (s.crew? core 32 ≠ none ∨ s.heldWrites ≠ [] ∨ k.handlers = [] → exec .handlerStart s = .next s)
    ∧ (∀ h rest, s.crew? core 32 = none → s.heldWrites = [] → k.handlers = h :: rest →
      let u := (s.modCore core (fun k => { k with handlers := rest })).devTouch h.ctx h.record 2
      let fails (f : FaultInfo) : State := u.failTrap core h.slot f { u.recordCtx core h.slot with unh := true }
      (∀ b, (s.ctx h.ctx).tvec = 0 → u.devRead h.ctx h.record 2 = some b →
        exec .handlerStart s = .next (fails (faultOf (b.getD 0 0).toNat (b.getD 1 0).toNat)))
      ∧ ((s.ctx h.ctx).tvec = 0 → u.devRead h.ctx h.record 2 = none → exec .handlerStart s = .next (fails (faultOf 18 0)))
      ∧ ((s.ctx h.ctx).tvec ≠ 0 → ∃ t, exec .handlerStart s = .next t ∧
        let x := t.crew core 32
        x.sys = true ∧ x.role = .vector ∧ x.group = h.group ∧ x.peloton = true ∧ x.record = h.record ∧ x.recNo = h.index ∧ x.trapSlot = h.slot
        ∧ x.sreg 0 = { val := BitVec.ofNat 64 h.record } ∧ x.sreg 1 = { val := h.info } ∧ x.sreg 2 = { val := BitVec.ofNat 64 h.index }
        ∧ ∀ l, l < 32 → x.fibre l = { st := .live, pc := (s.ctx h.ctx).tvec.setWidth 57, restart := (s.ctx h.ctx).tvec.setWidth 57 - 4 }))
    ∧ (w.loads = [] → exec .loadDataReturn s = .next s)
    ∧ (∀ q rest, w.loads = q :: rest →
      let local_ : Prop := ∃ x ∈ q.lanes, ∀ n a, x.place ≠ .peer n a
      (local_ → s.loadMoves core sl q = false → exec .loadDataReturn s = .next (s.performLoad core sl q))
      ∧ (local_ → s.loadMoves core sl q = true → exec .loadDataReturn s = .next s)
      ∧ (¬ local_ → (∀ p ∈ q.peers, s.peerState p = 1) → exec .loadDataReturn s = .next s)
      ∧ (¬ local_ → ∀ p, q.peers.find? (fun p => s.peerState p ≠ 1) = some p → exec .loadDataReturn s
          = .next (if s.ev.flag = true ∨ s.peerState p = 2 then s.poisonLoad core sl q p else s.peerLoad core sl q p)))
    ∧ (16 ≤ (k.copies.filter (fun y => y.started)).length ∨ k.copies.find? (fun y => !y.started) = none → exec .copyStart s = .next s)
    ∧ (∀ x, (k.copies.filter (fun y => y.started)).length < 16 → k.copies.find? (fun y => !y.started) = some x →
      exec .copyStart s = .next (s.startCopy core x))
    ∧ ((k.copies.filter (fun y => y.started && y.fail.isNone && decide (y.done < y.total)))[s.ev.idx]? = none → exec .copyPiece s = .next s)
    ∧ (∀ x, (k.copies.filter (fun y => y.started && y.fail.isNone && decide (y.done < y.total)))[s.ev.idx]? = some x →
      exec .copyPiece s = .next (s.copyPiece core x) ∧ (s.copyWaits core x = true → exec .copyPiece s = .next s))
    ∧ (k.copyOver = none → exec .copyComplete s = .next s)
    ∧ (∀ x, k.copyOver = some x → x.started = true ∧ x.out = 0 ∧ (x.fail ≠ none ∨ x.total ≤ x.done) ∧ exec .copyComplete s = .next (s.endCopy core x))
    ∧ (s.copyLate core = none → exec .copyClaimTimeout s = .next s)
    ∧ (∀ x, s.copyLate core = some x → (∃ t, x.since = some t ∧ t + 1048576 ≤ s.cycle)
      ∧ ∃ t, exec .copyClaimTimeout s = .next t ∧
        let u := s.failCopy core x.id { cause := 3, addr := x.claimAddr } false
        (t = u ∨ t = u.modCluster (clusterOf core) (fun q => { q with claims := q.claims.filter (fun r => !(r.core = core && r.slot = engineSlot)) })))
    ∧ (let m := s.lateLanes core sl Wait.ownxSince
       let c := s.curAt core sl m
       (m = 0 → exec .ownxTimeout s = .next s)
       ∧ ∀ o, m ≠ 0 → decodeWord c.word = .ok (.ownx o) → exec .ownxTimeout s = .next (s.ownxGo c o))
    ∧ (let m := s.lateLanes core sl Wait.haltSince
       let c := s.curAt core sl m
       (m = 0 → exec .haltgTimeout s = .next s)
       ∧ ∀ o, m ≠ 0 → decodeWord c.word = .ok (.haltg o) → ∃ t, exec .haltgTimeout s = .next t ∧ s.StatusDone t c o.d 3)
    ∧ (s.firstGrow core = none ∨ (∃ r, s.firstGrow core = some r ∧ s.grantOf core r = none) → exec .growGrant s = .next s)
    ∧ (∀ r t, s.firstGrow core = some r → s.grantOf core r = some t → exec .growGrant s = .next (t.finishGrow core r 0))
    ∧ (k.blocked = none ∨ s.lastGrow core = none → exec .growDeadlockBreak s = .next s)
    ∧ (∀ r t, k.blocked = some t → s.lastGrow core = some r →
      (t + 1024 ≤ s.cycle → exec .growDeadlockBreak s = .next (s.finishGrow core r 1)) ∧ (s.cycle < t + 1024 → exec .growDeadlockBreak s = .next s))
    ∧ (∀ (r : GrowReq) (st : Nat),
      let u := s.modCore core (fun k => { k with grows := k.grows.erase r })
      let m := (u.crew core r.slot).waiting (fun x => x = .grow) &&& r.lanes
      let c := u.curAt core r.slot m
      let done (to_ : BitVec 32) : State := u.putU c false r.d to_ (BitVec.ofNat 64 st) { swap := true }
      (m = 0 → s.finishGrow core r st = u)
      ∧ (∀ o, m ≠ 0 → decodeWord c.word = .ok (.regg o) → s.finishGrow core r st = done m)
      ∧ ∀ o, m ≠ 0 → decodeWord c.word = .ok (.accg o) → s.finishGrow core r st = done (u.act c o.g))
    ∧ (w.progs = [] → exec .progApply s = .next s)
    ∧ (∀ p rest, w.progs = p :: rest → ∃ t, exec .progApply s = .next t ∧ t.crew core sl = { w with progs := rest }
      ∧ ∀ j, Tab.get (t.ctx (s.crewCtx core sl)).prog 0 j
          = Tab.get (s.ctx (s.crewCtx core sl)).prog 0 j + (if j = p.1 then p.2 else 0))
    ∧ (k.samples = [] → exec .sampleTick s = .next s)
    ∧ (∀ x pc iss lanes long rest, k.samples = (x, pc, iss, lanes, long) :: rest →
      let u := s.modCore core (fun k => { k with samples := rest })
      (s.crew? core x = none → exec .sampleTick s = .next u)
      ∧ ((s.crew? core x).isSome = true →
        exec .sampleTick s = .next (u.trace core x 4 (BitVec.ofNat 57 pc) iss lanes (if long = true then 1 else 0) 0)))
    ∧ (s.trial.active = false ∨ s.trial.endAt = none ∨ (∃ t, s.trial.endAt = some t ∧ s.cycle < t) → exec .trialEnd s = .next s)
    ∧ (∀ t, s.trial.active = true → s.trial.endAt = some t → t ≤ s.cycle →
      exec .trialEnd s = .next { s with trial := { s.trial with active := false, endAt := none } })
    ∧ ((s.crew? core sl).isSome = true → 2 ^ 32 ≤ w.wdog → exec .watchdogHang s = .next ((s.nodeEvent (s.crewLid core sl)
        { cause := 16, detail := 0x10000, lanes := w.visMask w.liveMask }
        { s.recordCtx core sl with handler := w.sys, rb := true, pc := w.lastPc }).failNode (s.crewLid core sl) 2))
    ∧ (s.crew? core sl = none ∨ w.wdog < 2 ^ 32 → exec .watchdogHang s = .next s)
    ∧ (w.frozen = none ∨ (∃ t, w.frozen = some t ∧ s.timeNs < t + 2000000000) → exec .peerUnavailable s = .next s)
    ∧ (∀ t, w.frozen = some t → t + 2000000000 ≤ s.timeNs → exec .peerUnavailable s = .next
        ((((s.peersWaited core sl).filter (fun p => s.peerState p = 1)).foldl (fun u p => u.peerGone core sl p) s).modCrew core sl
          (fun w => w.modLanes w.liveMask (fun _ f => match f.wait with
            | .peer p _ => { f with wait := .peer p 0 }
            | _ => f))))

/-- The steps of the index homes, the ownership homes, the atomic units and the crossbar (R241, R270, R271, R281 to R286, R291, R311 to R313, R319,
R320, R349 to R356, R438): each acts when its condition holds, and says what it does then; where it does not hold, or the page's home moves
(R352), nothing happens. That a home moves in two steps, and which tile and page a step is for, is the model's choice (log 34). A pending
atomic stands for a lane of the crew, which the clause of its answer asks. -/
def Obligations.HomeEvents : Prop :=
  ∀ (s : State),
    let e := s.ev
    let core := e.core
    let sl := e.slot
    let w := s.crew core sl
    let q := s.cluster e.cluster
    (let pg := s.page (e.addr / 128)
     let answered (u : State) : State := u.ixFill e.cluster e.addr e.value e.idx e.ctx e.flag
     (e.kind ≠ 1 → e.kind ≠ 2 → pg.valid = true → pg.moving = false → exec .indexLookup s = .next (answered s))
     ∧ (e.kind ≠ 1 → e.kind ≠ 2 → pg.valid = false ∨ pg.moving = true → exec .indexLookup s = .next s)
     ∧ (let answer (v : State) : State :=
          if (v.page (e.addr / 128)).valid = true ∧ (v.page (e.addr / 128)).moving = false then answered v else v
        (e.kind = 1 → exec .indexLookup s = .next (answer (s.logErr { level := 1, kind := 7, unit := pg.home, paddr := e.addr * 512 })))
        ∧ (e.kind = 2 → exec .indexLookup s = .next (answer (s.loseEntry e.addr)))))
    ∧ (q.rels.find? (fun r => !r.left.isEmpty) = none → exec .indexUpdate s = .next s)
    ∧ (∀ r u rest, q.rels.find? (fun r => !r.left.isEmpty) = some r → r.left = u :: rest →
      let pg := s.page (u.lsec / 2048)
      (pg.moving = true → exec .indexUpdate s = .next s)
      ∧ (pg.moving = false → pg.valid = false → exec .indexUpdate s = .next (s.loseUpdates (fun x => decide (x = u))))
      ∧ (pg.moving = false → pg.valid = true → exec .indexUpdate s = .next ((s.modCluster e.cluster (fun c => { c with
          rels := mapIf (fun x => decide (x.id = r.id)) (fun x => { x with left := rest }) c.rels })).arrive u)))
    ∧ ((s.page (e.addr / 2048)).moving = true → exec .fold s = .next s)
    ∧ ((s.page (e.addr / 2048)).moving = false →
      exec .fold s = .next (((s.updatesOf e.addr).foldl (fun t u => t.broadcast u.cluster) s).settleSector e.addr).admitWaiting)
    ∧ (∃ t, exec .grainEntryWriteback s = .next t ∧ t = { s.cowPage (e.addr / 128) with grains := t.grains, gtabs := t.gtabs }
      ∧ (∀ g, Tab.get t.gtabs {} g = if g = e.addr then { s.grain g with written := true } else Tab.get s.gtabs {} g)
      ∧ ∀ g, t.grain g = if g = e.addr then { s.grain g with written := true } else s.grain g)
    ∧ (∃ f p, exec .tableFree s = .next ({ s with freeTabs := f, tabPool := p } : State).sweep
      ∧ let here (a : Nat) (r : Root) (ps : Tab PageRec) : Prop :=
          r.addr = a ∨ (∃ b ∈ r.blocks, b.2.addr = a) ∨ ∃ p ∈ ps, p.2.valid = true ∧ 4096 * p.2.gtab = a
        let named (a : Nat) : Prop := here a s.root s.pages ∨ ∃ n ∈ s.snaps, n.2.valid = true ∧ here a n.2.root n.2.pages
        (∀ x, x ∈ f ↔ x ∈ s.freeTabs ∧ named x.1) ∧ ∀ x, x ∈ p ↔ x ∈ s.tabPool ∨ x ∈ s.freeTabs ∧ ¬ named x.1)
    ∧ (let pg := s.page e.page
       (pg.valid = false ∨ s.tilesUp.getLsbD e.tile = false ∨ pg.home = e.tile → exec .homeMove s = .next s)
       ∧ (pg.valid = true → s.tilesUp.getLsbD e.tile = true → pg.home ≠ e.tile → ∃ t, exec .homeMove s = .next t
          ∧ (∀ n, t.page n = if n = e.page then
            (if pg.moving then { pg with moving := false, home := e.tile } else { pg with moving := true }) else s.page n)
          ∧ (pg.moving = false → t = { s with pages := t.pages })
          ∧ (pg.moving = true → t = { s.cowBlock e.page with pages := t.pages, clusters := t.clusters }
            ∧ ∀ c ∈ t.clusters, ∀ x ∈ c.2.ixlb, x.grain / 128 ≠ e.page)))
    ∧ (q.claims.find? (fun r => r.outcome = 0) = none → exec .claimRequest s = .next s)
    ∧ (∀ r, q.claims.find? (fun r => r.outcome = 0) = some r →
      let a := s.claim e.cluster r.grain r.tag
      let left (c : Cluster) : List ClaimReq := c.claims.erase r
      let moving := (s.page (r.grain / 128)).moving
      (moving = true → exec .claimRequest s = .next s)
      ∧ (moving = false → r.retry = true → exec .claimRequest s = .next (a.1.modCluster e.cluster
        (fun c => { c with claims := if a.2 then left c else left c ++ [{ r with since := s.cycle }] })))
      ∧ (moving = false → r.retry = false → exec .claimRequest s = .next (a.1.modCluster e.cluster
        (fun c => { c with claims := left c ++ [{ r with outcome := if a.2 then 1 else 2 }] }))))
    ∧ (let u := s.tryCommit e.cluster
       exec .commitWrite s = .next (u.modCluster e.cluster (fun c => { c with rels := c.rels.filter (fun r => !r.committed || r.node.isSome
         || (List.range 32).any (fun l => ((u.crew r.core r.slot).fibre l).wait = .release r.id)) })))
    ∧ (let orphan := s.orphans.find? (fun o => o.core = core && o.slot = sl)
       (∀ o, orphan = some o → exec .atomicApply s = .next ((optEach s (s.orphans.filter (fun p => decide (p.core = core ∧ p.slot = sl
            ∧ p.lid = o.lid ∧ p.atom.seq = o.atom.seq ∧ p.atom.addr = o.atom.addr))) State.applyOrphan).getD s))
       ∧ (∀ (u : State) (o : Orphan) (l : Nat) (at_ x : Nat), o.atom.place = .mem l at_ x →
          ((u.page (l / 32 / 2048)).moving = true ∨ u.atomicHome o.core o.slot o.atom l = none → u.applyOrphan o = none)
          ∧ ∀ r, (u.page (l / 32 / 2048)).moving = false → u.atomicHome o.core o.slot o.atom l = some r →
            u.applyOrphan o = some { r.1 with orphans := r.1.orphans.erase o })
       ∧ (orphan = none → w.nextAtom = none → exec .atomicApply s = .next s)
       ∧ (∀ a, orphan = none → w.nextAtom = some a →
          let group := w.atoms.filter (fun b => b.seq = a.seq && b.addr = a.addr && b.answer.isNone)
          let moves : Prop := ∃ l at_ x, a.place = .mem l at_ x ∧ (s.page (l / 32 / 2048)).moving = true
          (moves → exec .atomicApply s = .next (s.modCrew core sl (fun w => { w with
            atoms := mapIf (fun b => group.contains b) (fun b => { b with moved := true }) w.atoms })))
          ∧ (¬ moves → exec .atomicApply s = .next ((optEach s group (fun u b => u.applyAtom core sl b)).getD s)))
       ∧ ∀ (u : State) (a : PAtom),
          let put (t : State) (b : PAtom) : State := t.modCrew core sl (fun w => { w with atoms := mapIf (fun x => decide (x = a)) (fun _ => b) w.atoms })
          (∀ l at_ x, a.place = .mem l at_ x →
            (u.atomicHome core sl a l = none → u.applyAtom core sl a = none)
            ∧ ∀ r, u.atomicHome core sl a l = some r → u.applyAtom core sl a = some (put r.1 { a with answer := some (r.2.1, r.2.2) }))
          ∧ ∀ g off, a.place = .pad g off →
            (u.padRefusal g off a.size = none →
              let r := u.padAtomic g off a
              u.applyAtom core sl a = some (put r.1 { a with answer := some (r.2.1, r.2.2) }))
            ∧ ∀ sub, u.padRefusal g off a.size = some sub → u.applyAtom core sl a
              = some ((u.modCrew core sl (fun w => { (a.acked w) with atoms := w.atoms.erase a })).imprecise core sl (u.crewLid core sl)
                  { cause := 2, sub := sub, addr := a.addr, regaddr := a.regaddr, seq := a.id }))
    ∧ (w.atoms.find? (fun a => a.answer.isSome) = none → exec .atomicAnswer s = .next s)
    ∧ (∀ a r, w.atoms.find? (fun a => a.answer.isSome) = some a → a.answer = some r → a.lane < 32 → (w.tandem = true → a.lane + 1 < 32) →
      ∃ w', exec .atomicAnswer s = .next (s.setCrew core sl w')
      ∧ (∀ l n, n < 64 → l < 32 → w'.vreg l n
          = if n = a.d ∧ a.d < a.lim ∧ (l = a.lane ∨ w.tandem = true ∧ l = a.lane + 1) then r.1 else w.vreg l n)
      ∧ w'.atoms = w.atoms.erase a ∧ w'.fflags = w.fflags ||| r.2
      ∧ w'.ackDv = (if a.place.isMem then w.ackDv - 1 else w.ackDv) ∧ w'.ackCl = (if a.place.isMem then w.ackCl else w.ackCl - 1)
      ∧ w' = { w with v := w'.v, atoms := w'.atoms, fflags := w'.fflags, ackDv := w'.ackDv, ackCl := w'.ackCl })
    ∧ (w.atoms.find? (fun a => a.moved) = none → exec .atomicMovedReissue s = .next s)
    ∧ (∀ a, w.atoms.find? (fun a => a.moved) = some a → exec .atomicMovedReissue s = .next (s.modCrew core sl (fun w =>
        { w with atoms := mapIf (fun x => decide (x = a)) (fun x => { x with moved := false }) w.atoms })))
    ∧ (∃ t, exec .atomicTagSetExpiry s = .next t ∧ t = { s with atomTags := t.atomTags }
      ∧ ∀ x, x ∈ t.atomTags ↔ x ∈ s.atomTags ∧ s.timeNs < x.time + 64000)
    ∧ ((s.core core).remq.find? (fun r => !r.acked) = none → exec .remoteAccessPerform s = .next s)
    ∧ (∀ r, (s.core core).remq.find? (fun r => !r.acked) = some r →
      let u := s.modCore core (fun k => { k with remq := mapIf (fun x => decide (x = r)) (fun x => { x with acked := true }) k.remq })
      let v := u.padWrite r.tgroup r.off r.data
      (u.padRefusal r.tgroup r.off r.data.length = none → exec .remoteAccessPerform s
        = .next (if r.pois then v.padMark r.tgroup ((wordsOf r.off r.data.length).map (8 * ·)) else v))
      ∧ ∀ sub, u.padRefusal r.tgroup r.off r.data.length = some sub →
        let f : FaultInfo := { cause := 2, sub := sub, addr := r.addr, regaddr := r.regaddr, seq := r.id }
        (r.copyId = none → exec .remoteAccessPerform s = .next (u.imprecise core r.slot r.lid f))
        ∧ ∀ id, r.copyId = some id → exec .remoteAccessPerform s = .next (u.failCopy core id f false))
    ∧ (e.kind ≠ 1 → (s.core core).remq.find? (fun r => r.acked) = none → exec .remoteAck s = .next s)
    ∧ (∀ r, (s.core core).remq.find? (fun r => r.acked) = some r → e.kind ≠ 1 →
      let u := s.modCore core (fun k => { k with remq := k.remq.erase r })
      (r.copyId = none → exec .remoteAck s = .next (u.ifCrew core r.slot r.lid (fun w => { w with ackCl := w.ackCl - 1 })))
      ∧ ∀ id, r.copyId = some id → exec .remoteAck s = .next (u.modCopy core id (fun x => { x with out := x.out - 1 })))
    ∧ (e.kind = 1 → s.peerOut.find? (fun r => r.core = core && s.peerState r.peer = 0) = none → exec .remoteAck s = .next s)
    ∧ (∀ r, s.peerOut.find? (fun r => r.core = core && s.peerState r.peer = 0) = some r → e.kind = 1 →
      let u : State := { s with peerOut := s.peerOut.erase r }
      (r.copyId = none → exec .remoteAck s = .next (u.ifCrew core r.slot r.lid (fun w => { w with ackSy := w.ackSy - 1 })))
      ∧ ∀ id, r.copyId = some id → exec .remoteAck s = .next (u.modCopy core id (fun x => { x with out := x.out - 1 })))
    ∧ (∀ r, e.kind = 0 → s.peerOut.find? (fun r => r.core = core && (e.flag || s.peerState r.peer = 2)) = some r →
      exec .impreciseFaultArrival s = .next (s.refusePeer r))
    ∧ (e.kind = 0 → s.peerOut.find? (fun r => r.core = core && (e.flag || s.peerState r.peer = 2)) = none → exec .impreciseFaultArrival s = .next s)
    ∧ (e.kind = 2 → ((s.core core).copies.filter (fun x => x.started && x.fail.isNone))[e.idx]? = none → exec .impreciseFaultArrival s = .next s)
    ∧ (∀ x, e.kind = 2 → ((s.core core).copies.filter (fun x => x.started && x.fail.isNone))[e.idx]? = some x →
      exec .impreciseFaultArrival s = .next (s.rollBack x.lid { cause := 1, sub := 2, impr := true } { core := core, slot := x.slot, time := s.timeNs }))
    ∧ (∀ x rest, e.kind ≠ 0 → e.kind ≠ 2 → (s.core core).stq = x :: rest →
      let r := s.accept core { x with lost := true }
      let u := (r.1.modCore core (fun c => { c with stq := rest })).accepted core x
      (r.2 = false → exec .impreciseFaultArrival s = .next r.1)
      ∧ (r.2 = true → exec .impreciseFaultArrival s = .next (u.rollBack x.crewLid
          { cause := 1, sub := 2, addr := x.addr, regaddr := x.regaddr, impr := true } { core := core, slot := x.slot, time := u.timeNs })))
    ∧ (e.kind ≠ 0 → e.kind ≠ 2 → (s.core core).stq = [] → exec .impreciseFaultArrival s = .next s)

/-- The steps of the appenders, the dredge engines, the HBM, the scrubbers, host fetches and the outflow (R247, R253 to R262, R291, R342, R344, R355,
R365, R367): each acts when its condition holds, and says what it does then; where it does not hold, nothing happens. The model's choices here:
log pressure uses event queue 0 (log 16); a failed host fetch and an item of levels 6 to 8 have the UNIT and PADDR of log 33, and a dredge
that finds no block keeps what it has moved (log 33); the scrubbers of L2 and L1 visit places modulo the capacity (log 12). -/
def Obligations.LogEvents : Prop :=
  ∀ (s : State),
    let e := s.ev
    ((s.core e.core).stq = [] → exec .appenderAccept s = .next s)
    ∧ (∀ q rest, (s.core e.core).stq = q :: rest →
      let r := s.accept e.core q
      exec .appenderAccept s = .next (if r.2 then ((r.1.modCore e.core (fun c => { c with stq := rest })).accepted e.core q).relax else r.1))
    ∧ ((s.cluster e.cluster).held = none ∨ s.appendBlock e.cluster = none → exec .appendHoldRelease s = .next s)
    ∧ (∀ t0 b, (s.cluster e.cluster).held = some t0 → s.appendBlock e.cluster = some b →
      let gs := (s.cluster e.cluster).gather
      (∀ g, gs.find? (fun g => g.isDue) = some g → exec .appendHoldRelease s = .next (s.flushEntry e.cluster g).1.relax)
      ∧ (∀ g rest, (∀ x ∈ gs, x.isDue = false) → gs = g :: rest → 256 ≤ gs.length →
        exec .appendHoldRelease s = .next (s.flushEntry e.cluster g).1.relax)
      ∧ ((∀ x ∈ gs, x.isDue = false) → gs.length < 256 →
        exec .appendHoldRelease s = .next (s.modCluster e.cluster (fun c => { c with held := none })).relax))
    ∧ (let since (t : Nat) : Prop := (∃ c ∈ s.clusters, c.2.held = some t) ∨ (∃ k ∈ s.cores, ∃ x ∈ k.2.copies, x.held = some t)
        ∨ ∃ h ∈ s.heldWrites, h.since = t
       (s.pressure = true ∨ (∀ t, since t → s.timeNs < t + 1000000) → exec .logPressureEvent s = .next s)
       ∧ (s.pressure = false → (∃ t, since t ∧ t + 1000000 ≤ s.timeNs) → exec .logPressureEvent s
        = .next { (s.tryEvent { queue := 0, kind := 4, data := s.fullStacks }).1 with pressure := true }))
    ∧ ((∃ d ∈ s.dredges, d.stack = e.stack) ∨ s.pickDredge e.stack = none → exec .dredgeStart s = .next s)
    ∧ (∀ g, (∀ d ∈ s.dredges, d.stack ≠ e.stack) → s.pickDredge e.stack = some g →
      let blocks := (s.masks.filter (fun m => decide (m.1 / 4096 = g))).map Prod.fst
      let copied (bs : List Nat) : Option State :=
        optEach (s.modSeg g (fun x => { x with st := .dredging })) bs (fun u b => u.dredgeBlock e.stack b)
      s.candidate e.stack g = true
      ∧ (∀ u, copied blocks = some u → exec .dredgeStart s = .next { (u.modSeg g (fun x => { x with st := .draining })) with
          dredges := u.dredges ++ [{ stack := e.stack, seg := g, drained := true }] })
      ∧ (copied blocks = none → ∃ n u, copied (blocks.take n) = some u
        ∧ exec .dredgeStart s = .next (u.modSeg g (fun x => { x with st := .sealed_ }))))
    ∧ (s.dredges.find? (fun d => d.stack = e.stack && d.drained) = none → exec .dredgeDrainComplete s = .next s)
    ∧ (∀ d, s.dredges.find? (fun d => d.stack = e.stack && d.drained) = some d → ∃ t, exec .dredgeDrainComplete s = .next t
      ∧ (∀ x, x ∈ t.dredges ↔ x ∈ s.dredges ∧ x ≠ d)
      ∧ t.seg d.seg = { s.seg d.seg with st := if 8 < (s.seg d.seg).badBlocks.length then .retired else .free, owner := 0, live := 0, next := 1 }
      ∧ (∀ g, g ≠ d.seg → t.seg g = s.seg g)
      ∧ (∀ x, x ∈ t.l2 ↔ x ∈ s.l2 ∧ x.key.inSeg d.seg = false)
      ∧ (∀ c ∈ t.clusters, ∀ x ∈ c.2.ixlb, ∀ p ∈ x.pos, p.inSeg d.seg = false) ∧ t.hbm = s.hbm)
    ∧ (let a := e.addr / 128 * 128
       let pg := s.page e.page
       let held : Prop := ∃ x, s.l2Find e.tile (.host a) = some x
       ∃ h, (∀ j, Tab.get h false j = if a / 8 ≤ j ∧ j < a / 8 + 16 then e.flag else Tab.get s.hostErr false j)
        ∧ let u : State := { s with hostErr := h }
          (pg.valid = false ∨ pg.host = false ∨ a / 65536 ≠ pg.hbase ∨ held → exec .hostFetch s = .next u)
          ∧ (pg.valid = true → pg.host = true → a / 65536 = pg.hbase → ¬ held →
            exec .hostFetch s = .next (u.fetchSrc e.tile e.ctx e.page (.host a)).1))
    ∧ (∀ (u : State) (a i : Nat), i < 4 → (u.hostSector a).poison.getLsbD i = Tab.get u.hostErr false (a / 8 + i))
    ∧ (∀ (u : State) (a n : Nat), (u.hostBad a n = true → u.logHost a n = u.logErr { level := 0, kind := 2, unit := 0, paddr := a })
      ∧ (u.hostBad a n = false → u.logHost a n = u))
    ∧ (let w := e.addr / 8
       let rec_ (unit : Nat) : ErrRec := { level := e.kind, kind := if e.idx = 1 then 1 else 2, unit := unit, paddr := 8 * w }
       let found (good bad : State) (unit : Nat) : Prop :=
         (e.idx = 1 → exec .scrub s = .next (good.logErr (rec_ unit))) ∧ (e.idx = 2 → exec .scrub s = .next (bad.logErr (rec_ unit)))
       (e.idx = 0 ∨ 2 < e.idx ∨ 8 < e.kind ∨ e.kind = 0 ∧ s.scrubbed e.addr = false → exec .scrub s = .next s)
       ∧ (e.kind = 0 → s.scrubbed e.addr = true → found { s with hbmFlips := s.hbmFlips.filter (fun f => f.word ≠ w) } (s.failSector (e.addr / 32 * 32)) (hbmUnit e.addr))
       ∧ (e.kind = 1 → found s { s with l2 := s.l2.filter (fun x => !(x.tile = e.tile && x.key.number % l2Places / 4 = e.addr / 128)) } e.tile)
       ∧ (e.kind = 2 → found (s.modCore e.core (fun k => { k with
           l1 := mapIf (fun x => x.lsec % l1Places = e.addr / 32) (fun x => { x with flips := x.flips.filter (fun b => b / 64 ≠ w % 4) }) k.l1 }))
           (((s.core e.core).l1.filter (fun x => x.lsec % l1Places = e.addr / 32)).foldl
           (fun u x => u.dropLine e.core x.lsec x.tag) s) e.core)
       ∧ (e.kind = 3 → found s (s.markPoolWord e.core w) e.core)
       ∧ (e.kind = 4 → found s (s.modCore e.core (fun k => k.markDie [w])) e.core)
       ∧ (e.kind = 5 → (e.idx = 1 → exec .scrub s = .next (s.logErr (rec_ e.core)))
         ∧ (e.idx = 2 → ((∀ g ∈ s.groups, g.2.core = e.core → .store (e.addr / 16384) ∉ g.2.accPlaces) → exec .scrub s = .next (s.logErr (rec_ e.core)))
           ∧ ((∃ g ∈ s.groups, g.2.core = e.core ∧ .store (e.addr / 16384) ∈ g.2.accPlaces) → ∃ g ∈ s.groups, ∃ i,
               g.2.core = e.core ∧ g.2.accPlaces[i]? = some (.store (e.addr / 16384))
               ∧ let k := 1024 * i + e.addr % 16384 / 16
                 exec .scrub s = .next ((s.modGroup g.1 (fun r => { r with accs := Tab.set r.accs {} k { (Tab.get r.accs {} k) with poison := true } })).logErr
                   (rec_ e.core)))))
       ∧ (e.idx = 1 ∨ e.idx = 2 →
         (e.kind = 6 → exec .scrub s = .next (s.regError e.core e.slot e.value e.lane e.addr (e.idx = 2) (rec_ e.core)))
         ∧ (e.kind = 7 → exec .scrub s = .next (if e.idx = 2 then s.entryError e.core e.value e.addr (rec_ e.core) else s))
         ∧ (e.kind = 8 → exec .scrub s = .next (s.gatherError e.cluster (e.addr / 512) (e.addr % 512 / 8) (e.idx = 2) (rec_ (8 * e.cluster))))))
    ∧ (let unit := hbmUnit e.addr
       let key := unit * 128 + e.lane % 128
       let n := Tab.get s.laneRetries 0 key + 1
       let beat := e.addr / 64 * 64
       (3 < e.idx → exec .hbmBeatRetry s = .next ((s.poisonHbm beat 8).logErr { level := 0, kind := 2, unit := unit, paddr := beat }))
       ∧ (e.idx = 0 → exec .hbmBeatRetry s = .next s)
       ∧ (1 ≤ e.idx → e.idx ≤ 3 →
         (e.flag = true → exec .hbmBeatRetry s = .next (s.logErr { level := 0, kind := 4, unit := unit, retry := e.idx, paddr := beat }))
         ∧ (e.flag = false → ∃ u : State, Tab.get u.laneRetries 0 key = n ∧ (∀ j, j ≠ key → Tab.get u.laneRetries 0 j = Tab.get s.laneRetries 0 j)
           ∧ u = { s with laneRetries := u.laneRetries }
           ∧ let v := u.logErr { level := 0, kind := 4, unit := unit, lane := e.lane % 128, retry := e.idx, paddr := beat }
             (n ≠ 3 → exec .hbmBeatRetry s = .next v)
             ∧ (n = 3 → Tab.get s.lanesUsed 0 unit < 4 → ∃ x : State, x = { v with lanesUsed := x.lanesUsed }
               ∧ Tab.get x.lanesUsed 0 unit = Tab.get s.lanesUsed 0 unit + 1
               ∧ exec .hbmBeatRetry s = .next (x.logErr { level := 0, kind := 5, unit := unit, lane := e.lane % 128, paddr := beat }))
             ∧ (n = 3 → 4 ≤ Tab.get s.lanesUsed 0 unit → exec .hbmBeatRetry s
               = .next (({ v with degraded := true } : State).logErr { level := 0, kind := 8, unit := unit, paddr := beat })))))
    ∧ (∃ t, exec .recalibration s = .next t ∧ t = { s with laneRetries := t.laneRetries }
        ∧ ∀ x, x ∈ t.laneRetries ↔ x ∈ s.laneRetries ∧ x.1 / 2048 ≠ e.stack)
    ∧ (let c := e.stack * 16 + e.idx % 16
       (Tab.get s.chanRefresh 0 c + 3900 ≤ s.timeNs → ∃ t, exec .hbmRefresh s = .next t ∧ t = { s with chanRefresh := t.chanRefresh }
         ∧ ∀ j, Tab.get t.chanRefresh 0 j = if j = c then s.timeNs else Tab.get s.chanRefresh 0 j)
       ∧ (s.timeNs < Tab.get s.chanRefresh 0 c + 3900 → exec .hbmRefresh s = .next s)
       ∧ (let y := s.chanNow e.stack c
          let x : Chan := { y with reads := y.reads ++ e.ints, due := if 2 ≤ y.last then (y.reads ++ e.ints.take e.lane).length else y.due }
          let waits := BitVec.ofNat 7 e.value
          (x.next waits ≠ some e.kind ∨ 2 ≤ e.kind ∧ 256 < e.addr → exec .channelGrant s = .next s)
          ∧ (x.next waits = some e.kind → e.kind < 2 ∨ e.addr ≤ 256 → ∃ t, exec .channelGrant s = .next t ∧ t = { s with chans := t.chans }
            ∧ ∀ j, Tab.get t.chans {} j = if j = c then
                { x with last := e.kind, waits := waits, owed := Tab.set x.owed 0 e.kind (Tab.get x.owed 0 e.kind - e.addr)
                         reads := if e.kind = 1 then x.reads.drop 1 else x.reads, due := if e.kind = 1 then x.due - 1 else x.due }
              else Tab.get s.chans {} j)))
    ∧ (∀ (x : Chan) (waits : BitVec 7), x.due ≤ x.reads.length →
      let due (k : Nat) : Prop := 0 < Tab.get x.owed 0 k
      let waiting (k : Nat) : Prop := 1 ≤ k ∧ k ≤ 6 ∧ (k = 1 → x.reads ≠ []) ∧ (k ≠ 1 → waits.getLsbD k = true)
      (∀ k, x.next waits = some k → waiting k)
      ∧ (0 < x.due → x.next waits = some 1)
      ∧ (∀ k, x.next waits = some k → x.due = 0 → due k ∧ (∀ j, waiting j → due j → k ≤ j)
          ∨ (∀ j, waiting j → ¬ due j) ∧ ∀ j, waiting j → k ≤ j))
    ∧ (s.replica = none ∨ s.outflow = [] → exec .outflowShip s = .next s)
    ∧ (∀ p x rest, s.replica = some p → s.outflow = x :: rest →
      (s.peerState p = 0 → exec .outflowShip s = .next { s with outflow := rest, outflowSent := s.outflowSent + 1 })
      ∧ (s.peerState p ≠ 0 → exec .outflowShip s = .next s))
    ∧ (let t := e.value
       let held : Bool := s.hpend.any (fun u => u.tag = t) || s.hwait.any (fun u => u.tag = t)
         || s.clusters.any (fun c => c.2.pend.any (fun u => u.tag = t) || c.2.gather.any (fun g => g.tag = t))
       (t = 0 ∨ held = true ∨ s.staging t = .free ∨ (∃ l, s.staging t = .running l) → exec .stagingTagFree s = .next s)
       ∧ (t ≠ 0 → held = false → s.staging t ≠ .free → (∀ l, s.staging t ≠ .running l) → ∃ u, exec .stagingTagFree s = .next u
         ∧ u.staging t = .free ∧ (∀ j, j ≠ t → u.staging j = s.staging j)
         ∧ u = { s with stagingT := u.stagingT, clusters := u.clusters, cores := u.cores }
         ∧ (∀ c ∈ u.clusters, ∀ x ∈ c.2.ixlb, x.tag ≠ t)
         ∧ ∀ k ∈ u.cores, ∀ x ∈ k.2.l1, x.tag = t → x.dirty = true))

/-- Launch, records, doorbells, pre-emption and saves (R51 to R53, R322, R325 to R329, R341, R342, R382 to R384, R386, R401, R422): each step acts when
its condition holds, and says what it does then; where it does not hold, nothing happens. -/
def Obligations.LaunchAndPreemptionEvents : Prop :=
  ∀ (s : State),
    let e := s.ev
    let q := e.queue
    let v := e.value % 2 ^ 32
    (s.phase ≠ 3 → s.phase ≠ 4 → exec .nodeDispatch s = .next s)
    ∧ (∀ n, s.phase = 3 ∨ s.phase = 4 → s.unseen = [] → (∀ l ∈ s.spans, s.nowReady l = false) → s.nextNode = some n →
      ∃ t, exec .nodeDispatch s = .next t ∧ t.pending = s.pending ++ [{ lid := n.lid, count := (LRec.read n.recd).count }]
        ∧ (t.node n.lid).phase = .running ∧ (∀ l, l ≠ n.lid → t.node l = s.node l)
        ∧ ((LRec.read n.recd).staged = false → (t.node n.lid).stag = 0 ∧ t.stagingT = s.stagingT)
        ∧ (∀ g, (LRec.read n.recd).staged = true → s.freeTag = some g → (t.node n.lid).stag = g ∧ t.staging g = .running n.lid))
    ∧ (let u1 := s.unseen.foldl (fun u l => if (Tab.find u.nodes l).isNone then u.examine l else u) s
       let u2 := (u1.spans.filter u1.nowReady).foldl (fun u l => u.modNode l (fun n => { n with phase := .ready u.timeNs, readySince := u.timeNs })) u1
       s.phase = 3 ∨ s.phase = 4 → (u2.nextNode = none → exec .nodeDispatch s = .next u2)
         ∧ ∀ n, u2.nextNode = some n → exec .nodeDispatch s = .next (u2.dispatch n))
    ∧ (s.units = [] → exec .groupAdmission s = .next s)
    ∧ (∀ h rest, s.units = h :: rest →
      let marks : List Nat := if s.markHead = some h then s.marked else []
      (∀ t, s.tryUnit h [] = some t → exec .groupAdmission s = .next { t with marked := [], markHead := none })
      ∧ (s.tryUnit h [] = none →
        (marks = [] → s.markFor h ≠ [] → exec .groupAdmission s = .next { s with marked := s.markFor h, markHead := some h })
        ∧ (marks ≠ [] ∨ s.markFor h = [] → exec .groupAdmission s = .next ((rest.findSome? (fun u => s.tryUnit u marks)).getD s))))
    ∧ (s.prologues = [] → exec .prologue s = .next s)
    ∧ (∀ g rest, s.prologues = g :: rest →
      let l := LRec.read (s.node (s.group g).node).recd
      let u := s.modGroup g (fun r => { r with prologue := false })
      (l.xform % 32 ≠ 0 → exec .prologue s = .next (u.prologueFault g { cause := 4, sub := 1, addr := l.xform }))
      ∧ ∀ t f, l.xform % 32 = 0 → u.runBindings g (s.group g).gnum l.xform 0 l.xcount = (t, f) → exec .prologue s = .next (match f with
        | none => t
        | some f => t.prologueFault g f))
    ∧ (∀ n, (s.nodes.map Prod.snd).find? s.nodePublished = some n → exec .nodeRetirement s
      = .next ((((s.nodeCommit n).decrementSuccs n.succs).modClusters (fun c => { c with rels := c.rels.filter (fun r => r.node ≠ some n.lid) })).reportNode
          n.lid (if n.imprecise then 3 else 0)))
    ∧ (∀ n, (s.nodes.map Prod.snd).find? s.nodePublished = none → (s.nodes.map Prod.snd).find? s.nodeOver = some n → exec .nodeRetirement s
      = .next (((n.clusters.filter (fun k => s.unpublished k n.stag n.lid)).foldl
          (fun u k => (u.beginRelease k n.stag (8 * k) 33 (some n.lid)).1) s).modNode n.lid (fun n => { n with phase := .publishing })))
    ∧ ((s.nodes.map Prod.snd).find? s.nodePublished = none → (s.nodes.map Prod.snd).find? s.nodeOver = none → exec .nodeRetirement s = .next s)
    ∧ (s.nextRecord 1 = none → exec .completionRecord s = .next s)
    ∧ (∀ r, s.nextRecord 1 = some r → r.node = none → exec .completionRecord s = .next (({ s with evout := s.evout.erase r } : State).putEvent r))
    ∧ (∀ r l, s.nextRecord 1 = some r → r.node = some l → exec .completionRecord s
      = .next (((({ s with evout := s.evout.erase r } : State).putEvent r).modNode l (fun n => { n with phase := .completed })).advanceHead (l / 2 ^ 32) 65536))
    ∧ (s.nextRecord 2 = none → exec .notifyRecord s = .next s)
    ∧ (∀ r, s.nextRecord 2 = some r →
      let u := ({ s with evout := s.evout.erase r } : State).putEvent r
      let lives (c : Nat × Nat) (l : Nat) : Prop := r.crew = some c ∧ r.node = some l ∧ (u.crew? c.1 c.2).isSome = true ∧ u.crewLid c.1 c.2 = l
      (∀ c l, lives c l → exec .notifyRecord s = .next (u.modCrew c.1 c.2 (fun w => { w with ackSy := w.ackSy - 1 })))
      ∧ ((∀ c l, ¬ lives c l) → exec .notifyRecord s = .next u))
    ∧ (let due (d : EQueue) : Prop := d.deferred = true ∧ ∀ t, d.sentAt = some t → t + 64 * d.holdoff ≤ s.timeNs
       let b : EQueue := Tab.get s.eqs {} q
       let d : EQueue := Tab.get s.els {} q
       (e.kind ≠ 1 → ¬ due b → exec .msixHoldoffExpiry s = .next s)
       ∧ (e.kind ≠ 1 → due b → ∃ t, exec .msixHoldoffExpiry s = .next t ∧ t = { s with msix := s.msix ++ [b.vec], eqs := t.eqs }
          ∧ ∀ j, Tab.get t.eqs {} j = if j = q then { b with sentAt := some s.timeNs, deferred := false } else Tab.get s.eqs {} j)
       ∧ (e.kind = 1 → ¬ due d → exec .msixHoldoffExpiry s = .next s)
       ∧ (e.kind = 1 → due d → ∃ t, exec .msixHoldoffExpiry s = .next t ∧ t = { s with msix := s.msix ++ [d.vec], els := t.els }
          ∧ ∀ j, Tab.get t.els {} j = if j = q then { d with sentAt := some s.timeNs, deferred := false } else Tab.get s.els {} j))
    ∧ (s.reachable = false → ∀ i ∈ [Instr.lqdoor, .eqdoor, .eldoor, .registerWrite], exec i s = .next s)
    ∧ (64 ≤ q → exec .lqdoor s = .next s ∧ exec .eqdoor s = .next s) ∧ (10 ≤ q → exec .eldoor s = .next s)
    ∧ (s.reachable = true → q < 64 →
      let d : LQueue := Tab.get s.lqs {} q
      let b : EQueue := Tab.get s.eqs {} q
      let grown := (v + 2 ^ 32 - d.tail) % 2 ^ 32
      let fresh (l : Nat) : Prop := l / 2 ^ 32 = q ∧ (l % 2 ^ 32 + 2 ^ 32 - d.tail) % 2 ^ 32 < grown
      let late : Prop := (b.tail + 2 ^ 32 - b.head) % 2 ^ 32 < (v + 2 ^ 32 - b.head) % 2 ^ 32
      ((v + 2 ^ 32 - d.head) % 2 ^ 32 ≤ 2 ^ d.log2n → ∃ u, (∀ j, Tab.get u.lqs {} j = if j = q then { d with tail := v } else Tab.get s.lqs {} j)
        ∧ (2 ^ d.log2n < grown → u = { s with lqs := u.lqs } ∧ exec .lqdoor s = .next u)
        ∧ (grown ≤ 2 ^ d.log2n → u = { s with lqs := u.lqs, nodes := u.nodes } ∧ exec .lqdoor s = .next (u.advanceHead q 65536)
          ∧ ∀ l n, (l, n) ∈ u.nodes ↔ (¬ fresh l ∧ (l, n) ∈ s.nodes)
              ∨ fresh l ∧ ∃ n0, (l, n0) ∈ s.nodes ∧ (n0.phase ≠ .completed ∨ n0.early = true) ∧ n = { n0 with early := false }))
      ∧ (2 ^ d.log2n < (v + 2 ^ 32 - d.head) % 2 ^ 32 → exec .lqdoor s = .next (s.overrun (0x10000 + 8 * q)))
      ∧ (¬ late → ∃ t, exec .eqdoor s = .next t ∧ t = { s with eqs := t.eqs }
        ∧ ∀ j, Tab.get t.eqs {} j = if j = q then { b with head := v } else Tab.get s.eqs {} j)
      ∧ (late → exec .eqdoor s = .next (s.overrun (0x10400 + 8 * q))))
    ∧ (s.reachable = true → q < 10 →
      let b : EQueue := Tab.get s.els {} q
      let late : Prop := (b.tail + 2 ^ 32 - b.head) % 2 ^ 32 < (v + 2 ^ 32 - b.head) % 2 ^ 32
      (¬ late → ∃ t, exec .eldoor s = .next t ∧ t = { s with els := t.els }
        ∧ ∀ j, Tab.get t.els {} j = if j = q then { b with head := v } else Tab.get s.els {} j)
      ∧ (late → exec .eldoor s = .next (s.overrun (0x10800 + 8 * q))))
    ∧ (s.reachable = true →
      let a := e.addr
      let x := leNat (e.bytes.take 4)
      let door (base n : Nat) : Prop := 4 ≤ e.bytes.length ∧ ∃ i, i < n ∧ a = base + 8 * i
      (0x1000 ≤ a → a < 0x2000 → ∃ t, exec .registerWrite s = .next t ∧ t = { s with cmdbuf := t.cmdbuf }
        ∧ ∀ j, t.cmdbuf.read j = if a - 0x1000 ≤ j ∧ j < a - 0x1000 + e.bytes.length ∧ j < 0x1000 then e.bytes.getD (j - (a - 0x1000)) 0 else s.cmdbuf.read j)
      ∧ (a = 0x18 → 4 ≤ e.bytes.length → exec .registerWrite s = s.rung x)
      ∧ (door 0x10000 64 → exec .registerWrite s = .next (s.lqDoor ((a - 0x10000) / 8) x))
      ∧ (door 0x10400 64 → exec .registerWrite s = .next (s.eqDoor ((a - 0x10400) / 8) x))
      ∧ (door 0x10800 10 → exec .registerWrite s = .next (s.elDoor ((a - 0x10800) / 8) x))
      ∧ (a < 0x1000 ∨ 0x2000 ≤ a → ¬(a = 0x18 ∧ 4 ≤ e.bytes.length) → ¬ door 0x10000 64 → ¬ door 0x10400 64 → ¬ door 0x10800 10 →
          exec .registerWrite s = .next s))
    ∧ (let x := s.ctx e.ctx
       (x.stage = 1 → x.d1 ≤ s.timeNs → exec .preemptRegionStop s = .next (s.modCtx e.ctx (fun x => { x with stage := 2 })))
       ∧ (x.stage ≠ 1 ∨ s.timeNs < x.d1 → exec .preemptRegionStop s = .next s)
       ∧ (x.stage = 1 ∨ x.stage = 2 → x.d2 ≤ s.timeNs → exec .forcedReset s = .next (s.killCtx e.ctx 1))
       ∧ ((x.stage ≠ 1 ∧ x.stage ≠ 2) ∨ s.timeNs < x.d2 → exec .forcedReset s = .next s))
    ∧ (s.canStop e.core e.slot = false → exec .crewStop s = .next s)
    ∧ (s.canStop e.core e.slot = true →
      let w := s.crew e.core e.slot
      let u := (s.rewind e.core e.slot w.liveMask false).modCrew e.core e.slot
        (fun w => { w with stopped := true, peloton := false, sync := none })
      let v := (u.modCore e.core (fun k => { k with
          grows := k.grows.filter (fun r => r.slot ≠ e.slot) })).modCluster (clusterOf e.core)
          (fun c => { c with claims := c.claims.filter (fun r => !(r.core = e.core && r.slot = e.slot)) })
      exec .crewStop s = .next (v.modGroup w.group (fun g => { g with stopTime := v.timeNs })))
    ∧ (∀ g rest, s.toSave = g :: rest → exec .groupSave s = .next (s.saveGang g)) ∧ (s.toSave = [] → exec .groupSave s = .next s)

/-- The start of the device, its temperature and supply, links and peers (R422, R426 to R430, R432 to R436, R438, R439, R442): each step acts when its
condition holds, and says what it does then; where it does not hold, nothing happens. The model's choices here: the clock steps up again
after throttling (log 20); an image's layout (log 19); the counts of failed flits and of KIND 8, the codes of flits, what is kept of nodes and
host, and how blocks, commit records and roots of a peer arrive (log 31); 2,048 segments of each stack hold tables (log 9); HBM is empty after
a reset (log 4). -/
def Obligations.StartAndLinkEvents : Prop :=
  ∀ (s : State),
    let e := s.ev
    (∀ b, s.kept.bootImage = some b → exec .deviceReset s = .next { s.kept with stage1 := b })
    ∧ (s.kept.bootImage = none → exec .deviceReset s = .next { s.kept with phase := 15, fwrej := true })
    ∧ (s.kept.phase = 0 ∧ s.kept.cores = [] ∧ s.kept.hbm = [] ∧ s.kept.host = s.host ∧ s.kept.flashA = s.flashA ∧ s.kept.flashB = s.flashB
        ∧ s.kept.fuseFloor = s.fuseFloor ∧ s.kept.powered = true ∧ s.kept.hostErr = s.hostErr ∧ s.kept.stage2 = s.stage2)
    ∧ (s.phase = 0 → s.powered = true → exec .safePhaseReached s
        = .next (if ∀ b ∈ s.stage2, imageOk s.fuseFloor b = true then { s with phase := 1, fuseFloor := max s.fuseFloor (imageParts s.stage1).1 }
            else { s with phase := 15, fwrej := true }))
    ∧ (s.phase ≠ 0 ∨ s.powered = false → exec .safePhaseReached s = .next s)
    ∧ (let u := e.ints.foldl (fun u x => u.spareLane (x / 128 % 192) (x % 128) 0) s
       (s.phase = 1 → e.flag = false → exec .hbmTrainingComplete s = .next { u with phase := 2, started := u.timeNs })
       ∧ (s.phase = 1 → e.flag = true → exec .hbmTrainingComplete s
        = .next { (u.logErr { level := 0, kind := 8, unit := e.stack * 16 }) with phase := 15 }))
    ∧ (∀ (u : State) (unit lane a : Nat),
      (Tab.get u.lanesUsed 0 unit < 4 → ∃ x : State, x = { u with lanesUsed := x.lanesUsed }
        ∧ (∀ j, Tab.get x.lanesUsed 0 j = if j = unit then Tab.get u.lanesUsed 0 unit + 1 else Tab.get u.lanesUsed 0 j)
        ∧ u.spareLane unit lane a = x.logErr { level := 0, kind := 5, unit := unit, lane := lane, paddr := a })
      ∧ (4 ≤ Tab.get u.lanesUsed 0 unit → u.spareLane unit lane a
        = ({ u with degraded := true } : State).logErr { level := 0, kind := 8, unit := unit, paddr := a }))
    ∧ (s.phase ≠ 1 → exec .hbmTrainingComplete s = .next s)
    ∧ (s.phase ≠ 2 ∨ s.capacity ≠ none ∨ s.timeNs < s.started + 2000000000 → exec .initialiseTimeout s = .next s)
    ∧ (s.phase ≠ 2 ∨ s.capacity = none → exec .logInitialised s = .next s)
    ∧ (s.phase = 2 → s.capacity = none → s.started + 2000000000 ≤ s.timeNs → exec .initialiseTimeout s = .next { s with capacity := some (512 * 2 ^ 30) })
    ∧ (s.phase = 2 → s.capacity ≠ none → ∃ t, exec .logInitialised s = .next t ∧ t.phase = 3 ∧ t.pages = [] ∧ t.grains = [] ∧ t.segs = [] ∧ t.ctxs = []
        ∧ t.masks = [] ∧ t.tables = [] ∧ t.tableSegs = 2048 ∧ t.root.gen = s.gen ∧ t.root.blocks = [] ∧ t.freeTabs = [] ∧ t.tabPool = []
        ∧ t.capacity = s.capacity ∧ t.host = s.host)
    ∧ (8 ≤ e.tile ∨ s.selfTest / 2 ^ e.tile % 2 = 1 ∨ s.phase < 1 ∨ 3 < s.phase → exec .tileSelfTest s = .next s)
    ∧ (e.tile < 8 → s.selfTest / 2 ^ e.tile % 2 = 0 → 1 ≤ s.phase → s.phase ≤ 3 → exec .tileSelfTest s = .next (if e.flag
        then { s with selfTest := s.selfTest + 2 ^ e.tile, tilesUp := s.tilesUp ||| BitVec.ofNat 8 (2 ^ e.tile) }
        else { s with selfTest := s.selfTest + 2 ^ e.tile, degraded := true }))
    ∧ (s.phase = 3 → s.selfTest = 255 → exec .attestationSigned s
        = .next { (s.report (List.replicate 32 0)).1 with phase := 4, attest := true, startReport := (s.report (List.replicate 32 0)).2 })
    ∧ (s.phase ≠ 3 ∨ s.selfTest ≠ 255 → exec .attestationSigned s = .next s)
    ∧ (s.phase = 0 ∨ s.powered = false → exec .thermalThrottle s = .next s)
    ∧ (s.phase ≠ 0 → s.powered = true → ∃ t, exec .thermalThrottle s = .next t ∧ t.tjmax = BitVec.ofNat 16 e.value
        ∧ t.clock = (if 1680 < (BitVec.ofNat 16 e.value).toInt then max 1 (s.clock - 1) else min 36 (s.clock + 1)) ∧ (t.throt = true ↔ t.clock < 36)
        ∧ t = { s with tjmax := t.tjmax, tinlet := t.tinlet, power := t.power, clock := t.clock, throt := t.throt })
    ∧ (s.tilesUp ≠ 0 → 1840 ≤ s.tjmax.toInt → exec .thermalShutdown s = .next { (s.logErr { level := 9, kind := 10, unit := 17 }) with
        tilesUp := 0, cores := [], groups := [], clusters := [], pending := [], marked := [], markHead := none, l2 := [] })
    ∧ (s.tilesUp = 0 ∨ s.tjmax.toInt < 1840 → exec .thermalShutdown s = .next s)
    ∧ exec .supplyOff s = .next { s.kept with powered := false }
    ∧ (let p := s.port e.idx
       let good : Prop := e.bytes.length = 256 ∧ (crc64 (e.bytes.take 248)).toNat = fieldAt e.bytes 248 8 ∧ fieldAt e.bytes 0 8 % 4096 = p.rxSeq
       let goes (q : Port) : Prop := ∃ t, exec .flitReceive s = .next t ∧ t = { s with ports := t.ports } ∧ ∀ j, t.port j = if j = e.idx then q else s.port j
       let h := fieldAt e.bytes 0 8
       (p.st = .up ∨ p.st = .half → e.idx < 16 →
          (e.kind = 0 → good → goes { (p.acked (h / 2 ^ 12 % 4096)) with
              rxSeq := (p.rxSeq + 1) % 4096, retries := 0, retryFrom := none, credits := p.credits + h / 2 ^ 28 % 65536 })
          ∧ (e.kind = 0 → ¬ good → p.retries < 8 → goes { p with retries := p.retries + 1, retryFrom := some p.rxSeq })
          ∧ (e.kind = 0 → ¬ good → 8 ≤ p.retries → goes { p with retries := 0, st := .recovering s.timeNs, retryFrom := some p.rxSeq })
          ∧ (e.kind = 1 → 512 ≤ p.replay.length → goes p)
          ∧ (e.kind = 1 → p.replay.length < 512 →
            let b := flitOf p.txSeq (p.rxSeq + 4095) e.value e.addr e.bytes
            goes { p with txSeq := (p.txSeq + 1) % 4096, replay := p.replay ++ [b], out := p.out ++ [b] })
          ∧ (∀ xs ys, e.kind = 2 → p.replay = xs ++ ys → (∀ b ∈ xs, flitSeq b ≠ e.value) → (∀ b, ys.head? = some b → flitSeq b = e.value) →
            goes { p with out := p.out ++ ys })
          ∧ (2 < e.kind → exec .flitReceive s = .next s))
       ∧ (∀ (q : Port) (a : Nat), ((∀ b ∈ q.replay, flitSeq b ≠ a) → q.acked a = q)
          ∧ ∀ xs b ys, q.replay = xs ++ b :: ys → (∀ x ∈ xs, flitSeq x ≠ a) → flitSeq b = a → q.acked a = { q with replay := ys })
       ∧ (p.st.runs = false ∨ 16 ≤ e.idx → exec .flitReceive s = .next s)
       ∧ (p.st = .failed ∨ 16 ≤ e.idx → exec .linkTraining s = .next s)
       ∧ (e.idx < 16 → p.st ≠ .failed →
          let u := if e.flag then s.logErr { level := 9, kind := 5, unit := e.idx, lane := e.lane } else s
          ∃ t, t = { u with ports := t.ports }
            ∧ (∀ j, t.port j = if j = e.idx then { p with st := (if e.flag then .half else .up), retries := 0, partner := some e.value } else s.port j)
            ∧ ((∀ r ∈ s.peers, r.2.ports.contains e.idx = true → r.2.serial = e.value) → exec .linkTraining s = .next t)
            ∧ ((∃ r ∈ s.peers, r.2.ports.contains e.idx = true ∧ r.2.serial ≠ e.value) → exec .linkTraining s = .next (t.wrongPartner e.idx)))
       ∧ (∀ t0, p.st = .recovering t0 → t0 + 10000000000 ≤ s.timeNs → exec .portFail s = .next (s.portDown e.idx))
       ∧ ((∀ t0, p.st = .recovering t0 → s.timeNs < t0 + 10000000000) → exec .portFail s = .next s))
    ∧ (e.kind = 0 →
      (s.granted e.idx e.addr e.value false = false ∨ (s.page (e.addr / 65536)).valid = false →
        exec .peerAccess s = .next (s.answerPeer e.idx e.addr .refused))
      ∧ (s.granted e.idx e.addr e.value false = true → (s.page (e.addr / 65536)).valid = true →
        (s.moving (e.addr / 32) = true → exec .peerAccess s = .next s)
        ∧ (s.moving (e.addr / 32) = false → exec .peerAccess s
          = .next ((s.peerRead e.addr e.value).1.answerPeer e.idx e.addr (s.peerRead e.addr e.value).2))))
    ∧ (∀ (a n : Nat), 0 < n → a % 32 + n ≤ 32 →
      let h := s.homeSector (s.lookup 0 (a / 32))
      ∃ ps : List Bool, s.peerRead a n = (h.1, .data ((h.2.bytes.drop (a % 32)).take n) ps)
        ∧ ps = (List.range ((a % 8 + n + 7) / 8)).map (fun i => h.2.poison.getLsbD (a % 32 / 8 + i)))
    ∧ (e.kind = 1 →
      let q : PeerStore := { peer := e.idx, addr := e.addr, data := e.bytes, since := s.timeNs, pois := e.ints }
      let waits : Prop := s.grainTaken e.addr = true ∨ s.moving (e.addr / 32) = true ∨ ∃ r ∈ s.peerIn, r.peer = e.idx ∧ r.addr / 32 = e.addr / 32
      (s.granted e.idx e.addr e.bytes.length true = false ∨ (s.page (e.addr / 65536)).valid = false →
        exec .peerAccess s = .next (s.answerPeer e.idx e.addr .refused))
      ∧ (s.granted e.idx e.addr e.bytes.length true = true → (s.page (e.addr / 65536)).valid = true →
        (waits ∨ s.peerApply q = none → exec .peerAccess s = .next { s with peerIn := s.peerIn ++ [q] })
        ∧ ∀ t, ¬ waits → s.peerApply q = some t → exec .peerAccess s = .next t))
    ∧ (e.kind = 2 → s.peerReady = none → exec .peerAccess s = .next s)
    ∧ (∀ q, e.kind = 2 → s.peerReady = some q →
      exec .peerAccess s = .next ((({ s with peerIn := s.peerIn.erase q } : State).peerApply q).getD s))
    ∧ (∀ (q : PeerStore) (t : State), s.peerApply q = some t → ∃ (bad : Nat → BitVec 4) (u : State), t = u.answerPeer q.peer q.addr .ack
      ∧ optEach s (sectorPieces q.addr q.data) (fun u p =>
          u.atomicStore p.1 ((u.readSrc (u.committedSrc p.1)).merge p.2.1 p.2.2 (bad p.1))) = some u
      ∧ ∀ l i, i < 4 → (bad l).getLsbD i = (decide (q.addr / 8 ≤ 4 * l + i) && q.pois.contains (4 * l + i - q.addr / 8)))
    ∧ (let keeps (r : Replica) : Prop := ∃ t, exec .peerAccess s = .next t ∧ t = { s with replicas := t.replicas }
          ∧ (∀ j, j ≠ e.idx → Tab.find t.replicas j = Tab.find s.replicas j) ∧ Tab.find t.replicas e.idx = some (r.apply r.waiting.length)
       let r : Replica := (Tab.find s.replicas e.idx).getD {}
       (e.kind = 3 → keeps { r with blocks := Tab.put r.blocks e.addr e.bytes })
       ∧ (e.kind = 4 → keeps { r with waiting := r.waiting ++ [{ time := e.value, set := pairsOf e.ints }] })
       ∧ (∀ (r : Replica) (c : ReplicaCommit), r.waiting = [c] →
          let there : Prop := ∀ x ∈ c.set, ∀ b, posBlock x.2 = some b → (Tab.find r.blocks b).isSome = true
          (there → r.apply 1 = { r with waiting := [], index := c.set.foldl (fun t x => Tab.put t x.1 x.2) r.index })
          ∧ (¬ there → r.apply 1 = r))
       ∧ (e.kind = 5 → 
          let kept := s.replicaRoots.filter (fun x => !(x.peer = e.idx && (x.slot = e.value % 16 || decide (x.gen < e.seq))))
          let root : ReplicaRoot :=
            { peer := e.idx, slot := e.value % 16, gen := e.seq, index := (pairsOf e.ints).foldl (fun t x => Tab.put t x.1 x.2) [] }
          exec .peerAccess s = .next { s with replicaRoots := kept ++ [root] })
       ∧ (5 < e.kind → exec .peerAccess s = .next s))
    ∧ (∀ q, s.peerLate = some q → (q.since + 1000000 ≤ s.timeNs ∨ s.granted q.peer q.addr q.data.length true = false)
        ∧ exec .peerStoreRefuse s = .next (({ s with peerIn := s.peerIn.erase q } : State).answerPeer q.peer q.addr .refused))
    ∧ (s.peerLate = none → exec .peerStoreRefuse s = .next s)
    ∧ (Tab.find s.peers e.idx = none → exec .peerWindowRefresh s = .next s)
    ∧ (∀ r, Tab.find s.peers e.idx = some r → ∃ t, exec .peerWindowRefresh s = .next t ∧ t = { s with peers := t.peers }
        ∧ (∀ j, j ≠ e.idx → Tab.find t.peers j = Tab.find s.peers j)
        ∧ Tab.find t.peers e.idx = some (if e.kind = 0 then { r with grantedCopy := r.granted } else { r with windows := windowsOf e.ints }))
    ∧ (∃ t, exec .crossDeviceBarrierArrival s = .next t ∧ t = { s with xbars := t.xbars } ∧ t.xbars = s.xbars.map (fun b =>
        if b.lid = e.addr ∧ e.idx < b.partners.length
        then { b with arrivals := Tab.set b.arrivals 0 (arrivalKey e.idx e.value) (Tab.get b.arrivals 0 (arrivalKey e.idx e.value) + 1) } else b))

/-- The mailbox (R262, R341, R346 to R349, R368, R382, R384, R389, R395, R396, R412, R415, R423 to R425, R428 to R432, R436, R442): a command is ignored
while another holds it, answers status 3 before its PHASE, and else makes its change and answers 0, or answers the status of the check that fails. A read of region 0 finds the words of R422. How operands
stand in the command buffer, and what Debug reads, is log 17. -/
def Obligations.MailboxCommands : Prop :=
  ∀ (s : State),
    let e := s.ev
    let u := s.taken
    let x := s.ctx e.ctx
    let done (v : State) (st : Nat) : Host.Outcome State Fault Refusal := .next (v.answers st)
    (∀ m ∈ mailRules, s.busy = none →
      (s.reachable = false ∨ s.cstate = 1 → exec m.1 s = .next s)
      ∧ (s.reachable = true → s.cstate ≠ 1 → s.phase < m.2.1 ∨ s.phase = 15 ∧ m.2.2 = false → exec m.1 s = done u 3))
    ∧ (let h := leNat (s.cmdbuf.readBytes 0 8)
       let len := h / 2 ^ 16 % 2 ^ 16
       let call : Option MailCall := if len ≤ 4088 then s.mailCall (h % 65536) (s.cmdbuf.readBytes 8 len) else none
       (s.reachable = false ∨ s.cstate = 1 → exec .cdoor s = .next s)
       ∧ (s.reachable = true → s.cstate ≠ 1 → (call = none → exec .cdoor s = done u 1)
         ∧ (∀ m, call = some m → h / 2 ^ 32 ≠ 0 → exec .cdoor s = done u 2)
         ∧ ∀ m v, call = some m → h / 2 ^ 32 = 0 → m.run { s with ev := { m.ev with seq := e.seq } } = .next v →
           exec .cdoor s = .next { v with ev := s.ev })
       ∧ (∀ op b, op ∉ [1, 2, 3, 4, 0x10, 0x20, 0x21, 0x22, 0x23, 0x30, 0x40, 0x41, 0x42, 0x50, 0x60, 0x61] → s.mailCall op b = none)
       ∧ (∀ k n, k < 2 ^ 64 → n < 2 ^ 64 →
         s.mailCall 1 (leBytes 8 k ++ leBytes 8 n) = some { run := execReadErrorLog, ev := { kind := k, value := n } }))
    ∧ (let bit (b : Bool) (n : Nat) : Nat := if b = true then 2 ^ n else 0
       s.regionRead 0 = s.phase % 16 + s.tilesUp.toNat * 2 ^ 4 + bit s.degraded 12 + bit s.attest 13 + bit s.fwrej 14
       ∧ s.regionRead 8 = s.tjmax.toNat + s.tinlet.toNat * 2 ^ 16 + s.power.toNat * 2 ^ 32 + bit s.throt 48
       ∧ s.regionRead 0x10 = s.cstate % 4 + s.cstatus % 256 * 2 ^ 8 + s.cseq.toNat * 2 ^ 16
       ∧ (∀ a, 0x1000 ≤ a → a < 0x2000 → s.regionRead a = leNat (s.cmdbuf.readBytes (a - 0x1000) 8))
       ∧ (∀ a, 0x2000 ≤ a → a < 0x3000 → s.regionRead a = leNat (s.rspbuf.readBytes (a - 0x2000) 8))
       ∧ ∀ a, a ∉ [0, 8, 0x10] → a < 0x1000 ∨ 0x3000 ≤ a → s.regionRead a = 0)
    ∧ (∀ (v : State) c p, (v.inFlight c p = true → v.drained c p = { v with busy := some (.drain c p) })
      ∧ (v.inFlight c p = false → v.drained c p = v.answers 0))
    ∧ (s.MailReady 1 →
      (9 < e.kind ∨ 64 < e.value → exec .readErrorLog s = done u 2)
      ∧ (e.kind ≤ 9 → e.value ≤ 64 → ∃ v, v = { u with rspbuf := v.rspbuf } ∧ exec .readErrorLog s = done v 0
        ∧ let bs := ((s.errs.filter (fun r => decide (r.level = e.kind))).take e.value).flatMap
            (fun r => r.head false ++ leBytes 8 (Config.syndrome r.syn).toNat ++ leBytes 8 r.time)
          ∀ j, v.rspbuf.read j = if j < bs.length then bs.getD j 0 else s.rspbuf.read j)
      ∧ (1 < e.idx → exec .firmwareUpdate s = done u 2)
      ∧ (e.idx ≤ 1 → imageOk s.fuseFloor e.bytes = false → exec .firmwareUpdate s = done u 6)
      ∧ (e.idx ≤ 1 → imageOk s.fuseFloor e.bytes = true → exec .firmwareUpdate s
          = done (if e.idx = 0 then { u with flashA := e.bytes } else { u with flashB := e.bytes }) 0))
    ∧ (s.MailReady 2 →
      let bad : Prop := e.value < 512 * 2 ^ 30 ∨ 640 * 2 ^ 30 < e.value ∨ e.value % 65536 ≠ 0
      (bad → exec .initialiseCmd s = done u 2)
      ∧ (¬ bad → s.phase ≠ 2 ∨ s.capacity ≠ none → exec .initialiseCmd s = done u 4)
      ∧ (¬ bad → s.phase = 2 → s.capacity = none → exec .initialiseCmd s = done { u with capacity := some e.value } 0))
    ∧ (s.MailReady 4 → (e.bytes.length ≠ 32 → exec .readAttestation s = done u 1)
      ∧ (e.bytes.length = 32 → ∃ v, v = { (u.report e.bytes).1 with rspbuf := v.rspbuf } ∧ exec .readAttestation s = done v 0
        ∧ let bs := (u.report e.bytes).2 ++ Config.certificate
          ∀ j, v.rspbuf.read j = if j < bs.length then bs.getD j 0 else s.rspbuf.read j))
    ∧ (s.MailReady 3 →
      (3 < e.kind → exec .queueDescriptor s = done u 2)
      ∧ (e.flag = true → (s.descriptor e.kind e.queue = none → exec .queueDescriptor s = done u 2)
        ∧ ∀ ws, s.descriptor e.kind e.queue = some ws → ∃ v, v = { u with rspbuf := v.rspbuf } ∧ exec .queueDescriptor s = done v 0
            ∧ ∀ j, v.rspbuf.read j = if j < 8 * ws.length then (ws.flatMap (leBytes 8)).getD j 0 else s.rspbuf.read j)
      ∧ (∀ base log2n vec tag head holdoff, e.flag = false → e.kind = 1 → e.queue < 64 → base < 2 ^ 57 → base % 32 = 0 → 4 ≤ log2n → log2n ≤ 16 → vec < 2048 → tag < 65536 →
          head < 2 ^ 32 → holdoff < 65536 → ∀ loc : Bool, e.ints = [base + (if loc then 2 ^ 57 else 0), log2n + vec * 2 ^ 16 + tag * 2 ^ 32 + 2 ^ 63, head, holdoff] →
          ∃ v, v = { u with eqs := v.eqs } ∧ exec .queueDescriptor s = done v 0 ∧ ∀ j, Tab.get v.eqs {} j = if j = e.queue
            then { (Tab.get s.eqs {} e.queue) with base := base, loc := loc, log2n := log2n, vec := vec, ctx := tag, en := true, head := head, holdoff := holdoff }
            else Tab.get s.eqs {} j)
      ∧ (∀ base log2n evq tag head tail, e.flag = false → e.kind = 0 → e.queue < 64 → base < 2 ^ 57 → base % 256 = 0 → 4 ≤ log2n → log2n ≤ 16 → evq < 64 → tag < 65536 →
          head < 2 ^ 32 → tail < 2 ^ 32 → ∀ loc : Bool, e.ints = [base + (if loc then 2 ^ 57 else 0), log2n + evq * 2 ^ 8 + tag * 2 ^ 16 + 2 ^ 63, head + tail * 2 ^ 32, 0] →
          (Tab.get s.eqs ({} : EQueue) evq).en = true →
          let d : LQueue := Tab.get s.lqs {} e.queue
          (tail + 2 ^ 32 - d.head) % 2 ^ 32 ≤ 2 ^ log2n →
          ∃ v, v = { u with lqs := v.lqs } ∧ exec .queueDescriptor s = done v 0 ∧ ∀ j, Tab.get v.lqs {} j = if j = e.queue
            then { base := base, loc := loc, log2n := log2n, evq := evq, ctx := tag, en := true, head := d.head, tail := tail } else Tab.get s.lqs {} j)
      ∧ (∀ base log2n vec tag head holdoff, e.flag = false → base < 2 ^ 57 → base % 32 = 0 → 4 ≤ log2n → log2n ≤ 16 → vec < 2048 → tag < 65536 →
          head < 2 ^ 32 → holdoff < 65536 → ∀ loc : Bool, e.ints = [base + (if loc then 2 ^ 57 else 0), log2n + vec * 2 ^ 16 + tag * 2 ^ 32 + 2 ^ 63, head, holdoff] →
          (e.kind = 2 → e.queue < 10 → ∃ v, v = { u with els := v.els } ∧ exec .queueDescriptor s = done v 0 ∧ ∀ j, Tab.get v.els {} j = if j = e.queue
            then { (Tab.get s.els {} e.queue) with base := base, loc := loc, log2n := log2n, vec := vec, en := true, head := head, holdoff := holdoff }
            else Tab.get s.els {} j)
          ∧ (e.kind = 3 → e.queue < 65536 → ∃ v : State, v = { u with ctxs := v.ctxs } ∧ exec .queueDescriptor s = done v 0
            ∧ (∀ t, t ≠ e.queue → v.ctx t = s.ctx t)
            ∧ v.ctx e.queue = { s.ctx e.queue with trace := (v.ctx e.queue).trace, trlost := 0 }
            ∧ (v.ctx e.queue).ring = { (s.ctx e.queue).ring with base := base, loc := loc, log2n := log2n, en := true, head := head, ctx := tag }))
      ∧ (65536 ≤ e.ctx → ∀ i ∈ [Instr.contextSet, .mapPage, .unmap, .protect, .preempt, .resume, .kill, .migrateHostPage], exec i s = done u 2)
      ∧ (e.ctx < 65536 → e.flag = true → x.valid = false → ∃ v : State, v = { u with ctxs := v.ctxs } ∧ exec .contextSet s = done v 0
          ∧ ∀ t, v.ctx t = if t = e.ctx then { x with valid := false, root := 0, pnq := 0, pnqen := false, aper := false, hpth := 256 } else s.ctx t)
      ∧ (e.ctx < 65536 → e.flag = true → x.valid = true → (u.openNodes e.ctx = true → exec .contextSet s = done u 4)
          ∧ (u.openNodes e.ctx = false → ∃ v : State, v = { u with ctxs := v.ctxs }
            ∧ exec .contextSet s = .next ((v.tlbDrop e.ctx (fun _ => true)).drained e.ctx none)
            ∧ ∀ t, v.ctx t = if t = e.ctx then { x with valid := false, root := 0, pnq := 0, pnqen := false, aper := false, hpth := 256 } else s.ctx t))
      ∧ (∀ (valid pnqen aper : Bool) (root pnq hpth : Nat), e.ctx < 65536 → e.flag = false → root % 16384 = 0 → root < 2 ^ 40 → pnq < 64 →
          0 < hpth → hpth < 65536 → (valid = true → root < 768 * 2 ^ 30 ∧ root % 2 ^ 36 < u.tableBytes) →
          e.ints = [root + (if valid then 1 else 0), pnq + (if pnqen then 64 else 0) + (if aper then 2 ^ 14 else 0) + hpth * 2 ^ 16] →
          (x.valid = true → valid = false → u.openNodes e.ctx = true → exec .contextSet s = done u 4)
          ∧ (x.valid = false ∨ valid = true ∨ u.openNodes e.ctx = false → ∃ v : State, v = { u with ctxs := v.ctxs }
            ∧ (∀ t, v.ctx t = if t = e.ctx then { x with
                valid := valid, root := root, pnq := pnq, pnqen := pnqen, aper := aper, hpth := hpth
                prog := if valid = true ∧ x.valid = false then [] else x.prog } else s.ctx t)
            ∧ (x.valid = false ∨ valid = true ∧ root = x.root → exec .contextSet s = done v 0)
            ∧ (x.valid = true → valid = false ∨ root ≠ x.root →
              exec .contextSet s = .next ((v.tlbDrop e.ctx (fun _ => true)).drained e.ctx none))))
      ∧ (let y : Word := BitVec.ofNat 64 e.value
         let pg := s.page (y.extractLsb' 16 24).toNat
         let fits : Prop := (((y.extractLsb' 3 3).toNat = attrCompressed) = (pg.comp = true)) ∧ (((y.extractLsb' 3 3).toNat = attrHost) = (pg.host = true))
         e.ctx < 65536 → e.page < 2 ^ 41 →
         (u.leafOk y = false → exec .mapPage s = done u 2 ∧ exec .protect s = done u 2)
         ∧ (u.leafOk y = true → inAperture e.page = false → x.valid = true → pg.valid = true → pg.host = false → fits →
             exec .mapPage s = .next (u.remap e.ctx e.page y))
         ∧ (u.leafOk y = true → inAperture e.page = false → x.valid = true → pg.valid = true → pg.host = true → fits →
             let twice : Prop := ∃ c ∈ s.ctxs, c.2.valid = true ∧ ∃ l ∈ u.leaves c.1, l.2.extractLsb' 16 24 = y.extractLsb' 16 24 ∧ ¬(c.1 = e.ctx ∧ l.1 = e.page)
             (¬ twice → exec .mapPage s = .next (u.remap e.ctx e.page y)) ∧ (twice → exec .mapPage s = done u 4))
         ∧ (u.leafOk y = true → inAperture e.page = false → x.valid = false ∨ pg.valid = false ∨ ¬ fits → exec .mapPage s = done u 4)
         ∧ (u.mappedAt e.ctx e.page = none → exec .unmap s = done u 4 ∧ (u.leafOk y = true → exec .protect s = done u 4))
         ∧ (∀ o, u.mappedAt e.ctx e.page = some o → exec .unmap s = .next (u.remap e.ctx e.page 0)
            ∧ (u.leafOk y = true → o.extractLsb' 16 24 = y.extractLsb' 16 24 → fits → exec .protect s = .next (u.remap e.ctx e.page y)))
         ∧ (∀ v, u.mappedAt e.ctx e.page = none → u.setLeaf e.ctx e.page y = some v → u.remap e.ctx e.page y = v.answers 0)
         ∧ (∀ o, u.mappedAt e.ctx e.page = some o → x.valid = true → (s.page (o.extractLsb' 16 24).toNat).host = true →
            ∃ v, exec .migrateHostPage s = .next v ∧ v.busy = some (.migrate e.ctx e.page)
              ∧ v.page (o.extractLsb' 16 24).toNat = { s.page (o.extractLsb' 16 24).toNat with wb := true }))
      ∧ (let range : Prop := e.page * 65536 < s.cap
         (¬ range → exec .pageAllocate s = done u 2 ∧ exec .pageFree s = done u 2)
         ∧ (range → (s.page e.page).valid = false → exec .pageFree s = done u 4)
         ∧ (range → (s.page e.page).valid = true → exec .pageFree s = done (u.freePage e.page) 0)
         ∧ (range → e.kind ≤ 1 → e.flag = false → e.value = 0 → (s.page e.page).valid = true → exec .pageAllocate s = done u 4)
         ∧ (∀ v, range → e.kind ≤ 1 → e.flag = false → e.value = 0 → (s.page e.page).valid = false → u.makePage e.page false (e.kind = 1) 0 = some v →
             exec .pageAllocate s = done v 0 ∧ (v.page e.page).valid = true ∧ (v.page e.page).comp = decide (e.kind = 1)
               ∧ ∀ n, n ≠ e.page → v.page n = s.page n))
      ∧ (∀ r ∈ [(0, 1000000, 100000000), (1, 10000000, 1000000000), (2, 300000000000, 86400000000000)], e.kind = r.1 →
          (e.value < r.2.1 ∨ r.2.2 < e.value → exec .scrubRates s = done u 2)
          ∧ (r.2.1 ≤ e.value → e.value ≤ r.2.2 → ∃ v, v = { u with scrubRates := v.scrubRates } ∧ Tab.get v.scrubRates 0 r.1 = e.value
              ∧ exec .scrubRates s = done v 0))
      ∧ (let g (i d : Nat) : Nat := if e.ints.getD i 0 = 0 then d else e.ints.getD i 0
         let d1 := g 0 100000
         let d2 := g 1 10000000
         let win := e.ints.getD 2 0
         let bad : Prop := 65536 ≤ e.ctx ∨ d1 < 1000 ∨ 1000000000 < d1 ∨ d2 < d1 ∨ win % 65536 ≠ 0 ∨ 2 ^ 57 ≤ win
         (bad → exec .preempt s = done u 2)
         ∧ (¬ bad → x.valid = false ∨ x.stage ≠ 0 → exec .preempt s = done u 4)
         ∧ (¬ bad → x.valid = true → x.stage = 0 → ∃ v, exec .preempt s = .next v ∧ v.busy = some (.preempt e.ctx) ∧ v.cstate = 1
              ∧ (∀ t, v.ctx t = if t = e.ctx then { x with stage := 1, pstart := s.timeNs, d1 := s.timeNs + d1, d2 := s.timeNs + d2
                                                           window := win, winLen := e.ints.getD 3 0 } else s.ctx t)
              ∧ v.trial = if s.trial.active = true ∧ s.trial.ctx = e.ctx then { s.trial with active := false, endAt := none } else s.trial))
      ∧ (e.ctx < 65536 → (x.stage = 0 → exec .resume s = done u 4) ∧ (x.stage = 3 → exec .resume s = done (u.resume e.ctx) 0)
          ∧ (x.stage = 1 ∨ x.stage = 2 → exec .resume s = .next { u with busy := some (.resume e.ctx) }))
      ∧ (e.ctx < 65536 → (x.valid = false → exec .kill s = done u 4) ∧ (x.valid = true → exec .kill s = done (u.killCtx e.ctx 2) 0))
      ∧ (let d2 := if e.ints.getD 0 0 = 0 then 10000000 else e.ints.getD 0 0
         let v := (s.ctxs.filter (fun c => c.2.valid && decide (c.2.stage = 0))).foldl (fun v c => v.modCtx c.1 (fun x => { x with
           stage := 1, pstart := v.timeNs, d1 := v.timeNs + 1000, d2 := v.timeNs + d2 })) u
         let w := (v.nodes.filter (fun n => decide (n.2.stag ≠ 0) && (n.2.phase == .running || n.2.phase == .publishing))).foldl (fun w n => w.requeue n.1) v
         (d2 < 1000 → exec .checkpoint s = done u 2)
         ∧ (1000 ≤ d2 → u.freeSnap = none → exec .checkpoint s = done u 5)
         ∧ (1000 ≤ d2 → u.freeSnap ≠ none → exec .checkpoint s = .next { w with
             busy := some (.checkpoint d2 (e.ints.getD 1 0) (e.ints.getD 2 0)), trial := { w.trial with active := false, endAt := none } }))
      ∧ (let m := e.ints.getD 0 0
         let i := e.ints.getD 1 0
         let w := (u.checkpointRanges m i).foldl (fun v r => v.logHost r.1 r.2) u
         (w.readCheckpoint m i = none → exec .reload s = done w 6)
         ∧ ∀ head xs, w.readCheckpoint m i = some (head, xs) →
          let same : Prop := fieldAt head 0x10 8 = w.cap ∧ ∀ j, j < 4 → fieldAt head (0x28 + 2 * j) 2 = w.mesh.getD (5 + j) 0
          let pinned : Prop := fieldAt head 0 4 / 2 ^ 16 % 2 = 1
          let ofKind (k : Nat) : List Shard := xs.filter (fun y => decide (y.kind = k))
          (pinned → ¬ same → exec .reload s = done w 4)
          ∧ (same → exec .reload s = done ((ofKind 3).foldl State.loadGroup ((ofKind 1).foldl State.loadNodes ((ofKind 2).foldl (fun v y => v.loadData y true)
              ((ofKind 1).foldl State.loadCtx ((ofKind 0).foldl State.loadDevice w))))) 0)
          ∧ (¬ pinned → ¬ same → exec .reload s
              = done (((ofKind 2).filter (fun y => decide (y.tensor ≠ 2 ^ 32 - 1))).foldl (fun v y => v.loadData y false) w) 0))
      ∧ (let n (j : Nat) : Nat := e.ints.getD j 0
         let bad : Prop := n 0 < 1 ∨ 4 < n 0 ∨ (∃ y ∈ e.ints.drop 1, 2 ^ 32 ≤ y) ∨ (∃ j, j < n 0 ∧ (n (1 + j) ≤ n (5 + j) ∨ 65536 ≤ n (1 + j)))
           ∨ ∃ b ∈ shardList e.bytes 32, fieldAt b 0 8 % 16 ≠ 2 ∨ fieldAt b 0 8 / 16 % 65536 ≠ e.ctx ∨ fieldAt b 0x24 4 % 16 ∉ [1, 2, 4, 8]
         (e.bytes.length % 128 ≠ 0 → exec .meshAndShards s = done u 1)
         ∧ (e.bytes.length % 128 = 0 → bad → exec .meshAndShards s = done u 2)
         ∧ (e.bytes.length % 128 = 0 → ¬ bad → exec .meshAndShards s
            = done { u with mesh := (List.range 10).map n, shards := s.shards ++ shardList e.bytes 32 } 0))
      ∧ (e.kind = 0 → e.ctx < 65536 → exec .debugCtl s = done (u.modCtx e.ctx (fun x => { x with dstop := e.flag })) 0)
      ∧ (e.kind = 2 → exec .debugCtl s = done { u with runcmp := {} } 0)
      ∧ (e.kind = 0 → 65536 ≤ e.ctx → exec .debugCtl s = done u 2)
      ∧ (e.kind = 1 → ∃ r, r.on = true ∧ r.lid = e.value ∧ r.compare = e.flag ∧ exec .debugCtl s = done { u with runcmp := r } 0)
      ∧ (∀ r ∈ [(3, decide (e.core < 2048 ∧ e.slot < 32), u.leaseRow e.core e.slot), (4, decide (e.cluster < 256), u.commitWords e.cluster),
            (5, decide (e.value < 4096), [(u.staging e.value).word])], e.kind = r.1 →
          (r.2.1 = false → exec .debugCtl s = done u 2)
          ∧ (r.2.1 = true → ∃ v, v = { u with rspbuf := v.rspbuf } ∧ exec .debugCtl s = done v 0
            ∧ ∀ j, v.rspbuf.read j = if j < 8 * r.2.2.length then (r.2.2.flatMap (leBytes 8)).getD j 0 else s.rspbuf.read j))
      ∧ (5 < e.kind → exec .debugCtl s = done u 2)
      ∧ (4096 ≤ e.idx → e.kind = 1 ∨ e.kind = 3 → exec .peers s = done u 2)
      ∧ (let bad : Prop := 4096 ≤ e.idx ∨ ∃ y ∈ e.ints, 16 ≤ y
         (e.kind = 0 → bad → exec .peers s = done u 2)
         ∧ (e.kind = 0 → ¬ bad → ∃ ps,
            (∀ j, Tab.get ps ({} : Port) j = if j ∈ e.ints ∧ (s.port j).st = .failed then { s.port j with st := .recovering s.timeNs } else s.port j)
            ∧ let v : State := { u with
                peers := Tab.put s.peers e.idx { ((Tab.find s.peers e.idx).getD {}) with serial := e.value, ports := e.ints }, ports := ps }
              let other (j : Nat) : Bool := match (v.port j).partner with
                | some n => (v.port j).st.runs && decide (n ≠ e.value)
                | none => false
              exec .peers s = done ((e.ints.filter other).foldl (fun v j => v.wrongPartner j) v) 0))
      ∧ (e.kind = 2 → e.ints.length % 3 ≠ 0 → exec .peers s = done u 1)
      ∧ (∀ ws : List (Nat × Nat × Nat), e.kind = 2 → e.ints = ws.flatMap (fun w => [w.1, w.2.1, w.2.2]) →
         let bad : Prop := 4096 ≤ e.idx ∨ 16 < ws.length ∨ ∃ w ∈ ws, 1 < w.2.2 ∨ s.cap < w.1 * 65536 + w.2.1 * 65536
         (bad → exec .peers s = done u 2)
         ∧ (¬ bad → Tab.find s.peers e.idx = none → exec .peers s = done u 4)
         ∧ ∀ r, ¬ bad → Tab.find s.peers e.idx = some r → exec .peers s = done { u with peers := Tab.put s.peers e.idx { r with
             granted := ws.map (fun w => { base := w.1 * 65536, len := w.2.1 * 65536, write := decide (w.2.2 = 1) }) } } 0)
      ∧ (e.kind = 4 → exec .peers s = done { u with replicaRoots := s.replicaRoots.filter (fun y => decide (16 * y.peer + y.slot ∉ e.ints)) } 0)
      ∧ (4 < e.kind → exec .peers s = done u 2)
      ∧ (e.idx < 4096 → Tab.find s.peers e.idx = none → (e.kind = 1 ∨ e.kind = 3 → exec .peers s = done u 4))
      ∧ (e.idx < 4096 → Tab.find s.peers e.idx ≠ none → (e.kind = 1 → exec .peers s = done { u with peers := Tab.erase s.peers e.idx } 0)
          ∧ (e.kind = 3 → exec .peers s = done { u with replica := some e.idx } 0))
      ∧ (e.ints.length % 2 ≠ 0 → exec .crossDeviceBarrier s = done u 1)
      ∧ (∀ ps : List (Nat × Nat), e.ints = ps.flatMap (fun p => [p.1, p.2]) →
         let bad : Prop := 2 ^ 38 ≤ e.value ∨ 16 < ps.length
         (bad → exec .crossDeviceBarrier s = done u 2)
         ∧ (¬ bad → (∃ p ∈ ps, Tab.find s.peers p.1 = none) → exec .crossDeviceBarrier s = done u 4)
         ∧ (¬ bad → (∀ p ∈ ps, Tab.find s.peers p.1 ≠ none) → exec .crossDeviceBarrier s
            = done { u with xbars := { lid := e.value, partners := ps } :: s.xbars.filter (fun b => b.lid ≠ e.value) } 0)))
    ∧ (∀ t, s.busy = some (.resume t) → (s.ctx t).stage = 3 → exec .resume s = done (s.resume t) 0)
    ∧ (∀ d m i, s.busy = some (.checkpoint d m i) → exec .checkpoint s = .next (s.checkpoint m i))
    ∧ (∀ c v, s.busy = some (.migrate c v) → exec .migrateHostPage s = .next (s.migrate c v))
    ∧ (∀ c p, s.busy = some (.drain c p) → ∀ i ∈ [Instr.contextSet, .mapPage, .unmap, .protect],
      exec i s = if s.inFlight c p then .next s else done s 0)
end

