-- ==== Sys2Proof/Laws/State.lean ====
section
/-! SUPPORT. One lemma for each field and each update of the state, a core or a crew: what the update leaves as it was. -/

namespace Sys2Proof.Machine

@[simp] theorem State.setCore_phase (s : State) (k : Nat) (v : Core) : (s.setCore k v).phase = s.phase := rfl
@[simp] theorem State.setCore_tilesUp (s : State) (k : Nat) (v : Core) : (s.setCore k v).tilesUp = s.tilesUp := rfl
@[simp] theorem State.setCore_degraded (s : State) (k : Nat) (v : Core) : (s.setCore k v).degraded = s.degraded := rfl
@[simp] theorem State.setCore_attest (s : State) (k : Nat) (v : Core) : (s.setCore k v).attest = s.attest := rfl
@[simp] theorem State.setCore_fwrej (s : State) (k : Nat) (v : Core) : (s.setCore k v).fwrej = s.fwrej := rfl
@[simp] theorem State.setCore_powered (s : State) (k : Nat) (v : Core) : (s.setCore k v).powered = s.powered := rfl
@[simp] theorem State.setCore_selfTest (s : State) (k : Nat) (v : Core) : (s.setCore k v).selfTest = s.selfTest := rfl
@[simp] theorem State.setCore_tjmax (s : State) (k : Nat) (v : Core) : (s.setCore k v).tjmax = s.tjmax := rfl
@[simp] theorem State.setCore_tinlet (s : State) (k : Nat) (v : Core) : (s.setCore k v).tinlet = s.tinlet := rfl
@[simp] theorem State.setCore_power (s : State) (k : Nat) (v : Core) : (s.setCore k v).power = s.power := rfl
@[simp] theorem State.setCore_throt (s : State) (k : Nat) (v : Core) : (s.setCore k v).throt = s.throt := rfl
@[simp] theorem State.setCore_clock (s : State) (k : Nat) (v : Core) : (s.setCore k v).clock = s.clock := rfl
@[simp] theorem State.setCore_cstate (s : State) (k : Nat) (v : Core) : (s.setCore k v).cstate = s.cstate := rfl
@[simp] theorem State.setCore_cstatus (s : State) (k : Nat) (v : Core) : (s.setCore k v).cstatus = s.cstatus := rfl
@[simp] theorem State.setCore_cseq (s : State) (k : Nat) (v : Core) : (s.setCore k v).cseq = s.cseq := rfl
@[simp] theorem State.setCore_busy (s : State) (k : Nat) (v : Core) : (s.setCore k v).busy = s.busy := rfl
@[simp] theorem State.setCore_cmdbuf (s : State) (k : Nat) (v : Core) : (s.setCore k v).cmdbuf = s.cmdbuf := rfl
@[simp] theorem State.setCore_rspbuf (s : State) (k : Nat) (v : Core) : (s.setCore k v).rspbuf = s.rspbuf := rfl
@[simp] theorem State.setCore_msix (s : State) (k : Nat) (v : Core) : (s.setCore k v).msix = s.msix := rfl
@[simp] theorem State.setCore_capacity (s : State) (k : Nat) (v : Core) : (s.setCore k v).capacity = s.capacity := rfl
@[simp] theorem State.setCore_cycle (s : State) (k : Nat) (v : Core) : (s.setCore k v).cycle = s.cycle := rfl
@[simp] theorem State.setCore_ticks (s : State) (k : Nat) (v : Core) : (s.setCore k v).ticks = s.ticks := rfl
@[simp] theorem State.setCore_clusters (s : State) (k : Nat) (v : Core) : (s.setCore k v).clusters = s.clusters := rfl
@[simp] theorem State.setCore_groups (s : State) (k : Nat) (v : Core) : (s.setCore k v).groups = s.groups := rfl
@[simp] theorem State.setCore_nodes (s : State) (k : Nat) (v : Core) : (s.setCore k v).nodes = s.nodes := rfl
@[simp] theorem State.setCore_pending (s : State) (k : Nat) (v : Core) : (s.setCore k v).pending = s.pending := rfl
@[simp] theorem State.setCore_marked (s : State) (k : Nat) (v : Core) : (s.setCore k v).marked = s.marked := rfl
@[simp] theorem State.setCore_markHead (s : State) (k : Nat) (v : Core) : (s.setCore k v).markHead = s.markHead := rfl
@[simp] theorem State.setCore_nextLseq (s : State) (k : Nat) (v : Core) : (s.setCore k v).nextLseq = s.nextLseq := rfl
@[simp] theorem State.setCore_lqs (s : State) (k : Nat) (v : Core) : (s.setCore k v).lqs = s.lqs := rfl
@[simp] theorem State.setCore_eqs (s : State) (k : Nat) (v : Core) : (s.setCore k v).eqs = s.eqs := rfl
@[simp] theorem State.setCore_els (s : State) (k : Nat) (v : Core) : (s.setCore k v).els = s.els := rfl
@[simp] theorem State.setCore_evout (s : State) (k : Nat) (v : Core) : (s.setCore k v).evout = s.evout := rfl
@[simp] theorem State.setCore_errs (s : State) (k : Nat) (v : Core) : (s.setCore k v).errs = s.errs := rfl
@[simp] theorem State.setCore_errDue (s : State) (k : Nat) (v : Core) : (s.setCore k v).errDue = s.errDue := rfl
@[simp] theorem State.setCore_ce (s : State) (k : Nat) (v : Core) : (s.setCore k v).ce = s.ce := rfl
@[simp] theorem State.setCore_ue (s : State) (k : Nat) (v : Core) : (s.setCore k v).ue = s.ue := rfl
@[simp] theorem State.setCore_elost (s : State) (k : Nat) (v : Core) : (s.setCore k v).elost = s.elost := rfl
@[simp] theorem State.setCore_ctxs (s : State) (k : Nat) (v : Core) : (s.setCore k v).ctxs = s.ctxs := rfl
@[simp] theorem State.setCore_tables (s : State) (k : Nat) (v : Core) : (s.setCore k v).tables = s.tables := rfl
@[simp] theorem State.setCore_nextTable (s : State) (k : Nat) (v : Core) : (s.setCore k v).nextTable = s.nextTable := rfl
@[simp] theorem State.setCore_pages (s : State) (k : Nat) (v : Core) : (s.setCore k v).pages = s.pages := rfl
@[simp] theorem State.setCore_grains (s : State) (k : Nat) (v : Core) : (s.setCore k v).grains = s.grains := rfl
@[simp] theorem State.setCore_gtabs (s : State) (k : Nat) (v : Core) : (s.setCore k v).gtabs = s.gtabs := rfl
@[simp] theorem State.setCore_hpend (s : State) (k : Nat) (v : Core) : (s.setCore k v).hpend = s.hpend := rfl
@[simp] theorem State.setCore_hwait (s : State) (k : Nat) (v : Core) : (s.setCore k v).hwait = s.hwait := rfl
@[simp] theorem State.setCore_homeClaims (s : State) (k : Nat) (v : Core) : (s.setCore k v).homeClaims = s.homeClaims := rfl
@[simp] theorem State.setCore_atomTags (s : State) (k : Nat) (v : Core) : (s.setCore k v).atomTags = s.atomTags := rfl
@[simp] theorem State.setCore_orphans (s : State) (k : Nat) (v : Core) : (s.setCore k v).orphans = s.orphans := rfl
@[simp] theorem State.setCore_commitCopies (s : State) (k : Nat) (v : Core) : (s.setCore k v).commitCopies = s.commitCopies := rfl
@[simp] theorem State.setCore_freeTabs (s : State) (k : Nat) (v : Core) : (s.setCore k v).freeTabs = s.freeTabs := rfl
@[simp] theorem State.setCore_tabPool (s : State) (k : Nat) (v : Core) : (s.setCore k v).tabPool = s.tabPool := rfl
@[simp] theorem State.setCore_gen (s : State) (k : Nat) (v : Core) : (s.setCore k v).gen = s.gen := rfl
@[simp] theorem State.setCore_root (s : State) (k : Nat) (v : Core) : (s.setCore k v).root = s.root := rfl
@[simp] theorem State.setCore_snaps (s : State) (k : Nat) (v : Core) : (s.setCore k v).snaps = s.snaps := rfl
@[simp] theorem State.setCore_replicaRoots (s : State) (k : Nat) (v : Core) : (s.setCore k v).replicaRoots = s.replicaRoots := rfl
@[simp] theorem State.setCore_replicas (s : State) (k : Nat) (v : Core) : (s.setCore k v).replicas = s.replicas := rfl
@[simp] theorem State.setCore_stagingT (s : State) (k : Nat) (v : Core) : (s.setCore k v).stagingT = s.stagingT := rfl
@[simp] theorem State.setCore_segs (s : State) (k : Nat) (v : Core) : (s.setCore k v).segs = s.segs := rfl
@[simp] theorem State.setCore_seals (s : State) (k : Nat) (v : Core) : (s.setCore k v).seals = s.seals := rfl
@[simp] theorem State.setCore_masks (s : State) (k : Nat) (v : Core) : (s.setCore k v).masks = s.masks := rfl
@[simp] theorem State.setCore_dredges (s : State) (k : Nat) (v : Core) : (s.setCore k v).dredges = s.dredges := rfl
@[simp] theorem State.setCore_recSeg (s : State) (k : Nat) (v : Core) : (s.setCore k v).recSeg = s.recSeg := rfl
@[simp] theorem State.setCore_tableSegs (s : State) (k : Nat) (v : Core) : (s.setCore k v).tableSegs = s.tableSegs := rfl
@[simp] theorem State.setCore_pressure (s : State) (k : Nat) (v : Core) : (s.setCore k v).pressure = s.pressure := rfl
@[simp] theorem State.setCore_hbm (s : State) (k : Nat) (v : Core) : (s.setCore k v).hbm = s.hbm := rfl
@[simp] theorem State.setCore_hbmPoison (s : State) (k : Nat) (v : Core) : (s.setCore k v).hbmPoison = s.hbmPoison := rfl
@[simp] theorem State.setCore_hbmFlips (s : State) (k : Nat) (v : Core) : (s.setCore k v).hbmFlips = s.hbmFlips := rfl
@[simp] theorem State.setCore_heldWrites (s : State) (k : Nat) (v : Core) : (s.setCore k v).heldWrites = s.heldWrites := rfl
@[simp] theorem State.setCore_laneRetries (s : State) (k : Nat) (v : Core) : (s.setCore k v).laneRetries = s.laneRetries := rfl
@[simp] theorem State.setCore_lanesUsed (s : State) (k : Nat) (v : Core) : (s.setCore k v).lanesUsed = s.lanesUsed := rfl
@[simp] theorem State.setCore_chanRefresh (s : State) (k : Nat) (v : Core) : (s.setCore k v).chanRefresh = s.chanRefresh := rfl
@[simp] theorem State.setCore_chans (s : State) (k : Nat) (v : Core) : (s.setCore k v).chans = s.chans := rfl
@[simp] theorem State.setCore_scrubRates (s : State) (k : Nat) (v : Core) : (s.setCore k v).scrubRates = s.scrubRates := rfl
@[simp] theorem State.setCore_l2 (s : State) (k : Nat) (v : Core) : (s.setCore k v).l2 = s.l2 := rfl
@[simp] theorem State.setCore_host (s : State) (k : Nat) (v : Core) : (s.setCore k v).host = s.host := rfl
@[simp] theorem State.setCore_hostErr (s : State) (k : Nat) (v : Core) : (s.setCore k v).hostErr = s.hostErr := rfl
@[simp] theorem State.setCore_peers (s : State) (k : Nat) (v : Core) : (s.setCore k v).peers = s.peers := rfl
@[simp] theorem State.setCore_ports (s : State) (k : Nat) (v : Core) : (s.setCore k v).ports = s.ports := rfl
@[simp] theorem State.setCore_serial (s : State) (k : Nat) (v : Core) : (s.setCore k v).serial = s.serial := rfl
@[simp] theorem State.setCore_replica (s : State) (k : Nat) (v : Core) : (s.setCore k v).replica = s.replica := rfl
@[simp] theorem State.setCore_peerOut (s : State) (k : Nat) (v : Core) : (s.setCore k v).peerOut = s.peerOut := rfl
@[simp] theorem State.setCore_peerIn (s : State) (k : Nat) (v : Core) : (s.setCore k v).peerIn = s.peerIn := rfl
@[simp] theorem State.setCore_peerReplies (s : State) (k : Nat) (v : Core) : (s.setCore k v).peerReplies = s.peerReplies := rfl
@[simp] theorem State.setCore_outflow (s : State) (k : Nat) (v : Core) : (s.setCore k v).outflow = s.outflow := rfl
@[simp] theorem State.setCore_outflowSent (s : State) (k : Nat) (v : Core) : (s.setCore k v).outflowSent = s.outflowSent := rfl
@[simp] theorem State.setCore_xbars (s : State) (k : Nat) (v : Core) : (s.setCore k v).xbars = s.xbars := rfl
@[simp] theorem State.setCore_trial (s : State) (k : Nat) (v : Core) : (s.setCore k v).trial = s.trial := rfl
@[simp] theorem State.setCore_runcmp (s : State) (k : Nat) (v : Core) : (s.setCore k v).runcmp = s.runcmp := rfl
@[simp] theorem State.setCore_savedGroups (s : State) (k : Nat) (v : Core) : (s.setCore k v).savedGroups = s.savedGroups := rfl
@[simp] theorem State.setCore_mesh (s : State) (k : Nat) (v : Core) : (s.setCore k v).mesh = s.mesh := rfl
@[simp] theorem State.setCore_shards (s : State) (k : Nat) (v : Core) : (s.setCore k v).shards = s.shards := rfl
@[simp] theorem State.setCore_fuseFloor (s : State) (k : Nat) (v : Core) : (s.setCore k v).fuseFloor = s.fuseFloor := rfl
@[simp] theorem State.setCore_flashA (s : State) (k : Nat) (v : Core) : (s.setCore k v).flashA = s.flashA := rfl
@[simp] theorem State.setCore_flashB (s : State) (k : Nat) (v : Core) : (s.setCore k v).flashB = s.flashB := rfl
@[simp] theorem State.setCore_stage1 (s : State) (k : Nat) (v : Core) : (s.setCore k v).stage1 = s.stage1 := rfl
@[simp] theorem State.setCore_stage2 (s : State) (k : Nat) (v : Core) : (s.setCore k v).stage2 = s.stage2 := rfl
@[simp] theorem State.setCore_startReport (s : State) (k : Nat) (v : Core) : (s.setCore k v).startReport = s.startReport := rfl
@[simp] theorem State.setCore_started (s : State) (k : Nat) (v : Core) : (s.setCore k v).started = s.started := rfl
@[simp] theorem State.setCore_nextId (s : State) (k : Nat) (v : Core) : (s.setCore k v).nextId = s.nextId := rfl
@[simp] theorem State.setCore_fresh (s : State) (k : Nat) (v : Core) : (s.setCore k v).fresh = s.fresh := rfl
@[simp] theorem State.setCore_lastCore (s : State) (k : Nat) (v : Core) : (s.setCore k v).lastCore = s.lastCore := rfl
@[simp] theorem State.setCore_agenda (s : State) (k : Nat) (v : Core) : (s.setCore k v).agenda = s.agenda := rfl
@[simp] theorem State.setCore_cur (s : State) (k : Nat) (v : Core) : (s.setCore k v).cur = s.cur := rfl
@[simp] theorem State.setCore_ev (s : State) (k : Nat) (v : Core) : (s.setCore k v).ev = s.ev := rfl
@[simp] theorem State.modCore_phase (s : State) (k : Nat) (f : Core → Core) : (s.modCore k f).phase = s.phase := rfl
@[simp] theorem State.modCore_tilesUp (s : State) (k : Nat) (f : Core → Core) : (s.modCore k f).tilesUp = s.tilesUp := rfl
@[simp] theorem State.modCore_degraded (s : State) (k : Nat) (f : Core → Core) : (s.modCore k f).degraded = s.degraded := rfl
@[simp] theorem State.modCore_attest (s : State) (k : Nat) (f : Core → Core) : (s.modCore k f).attest = s.attest := rfl
@[simp] theorem State.modCore_fwrej (s : State) (k : Nat) (f : Core → Core) : (s.modCore k f).fwrej = s.fwrej := rfl
@[simp] theorem State.modCore_powered (s : State) (k : Nat) (f : Core → Core) : (s.modCore k f).powered = s.powered := rfl
@[simp] theorem State.modCore_selfTest (s : State) (k : Nat) (f : Core → Core) : (s.modCore k f).selfTest = s.selfTest := rfl
@[simp] theorem State.modCore_tjmax (s : State) (k : Nat) (f : Core → Core) : (s.modCore k f).tjmax = s.tjmax := rfl
@[simp] theorem State.modCore_tinlet (s : State) (k : Nat) (f : Core → Core) : (s.modCore k f).tinlet = s.tinlet := rfl
@[simp] theorem State.modCore_power (s : State) (k : Nat) (f : Core → Core) : (s.modCore k f).power = s.power := rfl
@[simp] theorem State.modCore_throt (s : State) (k : Nat) (f : Core → Core) : (s.modCore k f).throt = s.throt := rfl
@[simp] theorem State.modCore_clock (s : State) (k : Nat) (f : Core → Core) : (s.modCore k f).clock = s.clock := rfl
@[simp] theorem State.modCore_cstate (s : State) (k : Nat) (f : Core → Core) : (s.modCore k f).cstate = s.cstate := rfl
@[simp] theorem State.modCore_cstatus (s : State) (k : Nat) (f : Core → Core) : (s.modCore k f).cstatus = s.cstatus := rfl
@[simp] theorem State.modCore_cseq (s : State) (k : Nat) (f : Core → Core) : (s.modCore k f).cseq = s.cseq := rfl
@[simp] theorem State.modCore_busy (s : State) (k : Nat) (f : Core → Core) : (s.modCore k f).busy = s.busy := rfl
@[simp] theorem State.modCore_cmdbuf (s : State) (k : Nat) (f : Core → Core) : (s.modCore k f).cmdbuf = s.cmdbuf := rfl
@[simp] theorem State.modCore_rspbuf (s : State) (k : Nat) (f : Core → Core) : (s.modCore k f).rspbuf = s.rspbuf := rfl
@[simp] theorem State.modCore_msix (s : State) (k : Nat) (f : Core → Core) : (s.modCore k f).msix = s.msix := rfl
@[simp] theorem State.modCore_capacity (s : State) (k : Nat) (f : Core → Core) : (s.modCore k f).capacity = s.capacity := rfl
@[simp] theorem State.modCore_cycle (s : State) (k : Nat) (f : Core → Core) : (s.modCore k f).cycle = s.cycle := rfl
@[simp] theorem State.modCore_ticks (s : State) (k : Nat) (f : Core → Core) : (s.modCore k f).ticks = s.ticks := rfl
@[simp] theorem State.modCore_clusters (s : State) (k : Nat) (f : Core → Core) : (s.modCore k f).clusters = s.clusters := rfl
@[simp] theorem State.modCore_groups (s : State) (k : Nat) (f : Core → Core) : (s.modCore k f).groups = s.groups := rfl
@[simp] theorem State.modCore_nodes (s : State) (k : Nat) (f : Core → Core) : (s.modCore k f).nodes = s.nodes := rfl
@[simp] theorem State.modCore_pending (s : State) (k : Nat) (f : Core → Core) : (s.modCore k f).pending = s.pending := rfl
@[simp] theorem State.modCore_marked (s : State) (k : Nat) (f : Core → Core) : (s.modCore k f).marked = s.marked := rfl
@[simp] theorem State.modCore_markHead (s : State) (k : Nat) (f : Core → Core) : (s.modCore k f).markHead = s.markHead := rfl
@[simp] theorem State.modCore_nextLseq (s : State) (k : Nat) (f : Core → Core) : (s.modCore k f).nextLseq = s.nextLseq := rfl
@[simp] theorem State.modCore_lqs (s : State) (k : Nat) (f : Core → Core) : (s.modCore k f).lqs = s.lqs := rfl
@[simp] theorem State.modCore_eqs (s : State) (k : Nat) (f : Core → Core) : (s.modCore k f).eqs = s.eqs := rfl
@[simp] theorem State.modCore_els (s : State) (k : Nat) (f : Core → Core) : (s.modCore k f).els = s.els := rfl
@[simp] theorem State.modCore_evout (s : State) (k : Nat) (f : Core → Core) : (s.modCore k f).evout = s.evout := rfl
@[simp] theorem State.modCore_errs (s : State) (k : Nat) (f : Core → Core) : (s.modCore k f).errs = s.errs := rfl
@[simp] theorem State.modCore_errDue (s : State) (k : Nat) (f : Core → Core) : (s.modCore k f).errDue = s.errDue := rfl
@[simp] theorem State.modCore_ce (s : State) (k : Nat) (f : Core → Core) : (s.modCore k f).ce = s.ce := rfl
@[simp] theorem State.modCore_ue (s : State) (k : Nat) (f : Core → Core) : (s.modCore k f).ue = s.ue := rfl
@[simp] theorem State.modCore_elost (s : State) (k : Nat) (f : Core → Core) : (s.modCore k f).elost = s.elost := rfl
@[simp] theorem State.modCore_ctxs (s : State) (k : Nat) (f : Core → Core) : (s.modCore k f).ctxs = s.ctxs := rfl
@[simp] theorem State.modCore_tables (s : State) (k : Nat) (f : Core → Core) : (s.modCore k f).tables = s.tables := rfl
@[simp] theorem State.modCore_nextTable (s : State) (k : Nat) (f : Core → Core) : (s.modCore k f).nextTable = s.nextTable := rfl
@[simp] theorem State.modCore_pages (s : State) (k : Nat) (f : Core → Core) : (s.modCore k f).pages = s.pages := rfl
@[simp] theorem State.modCore_grains (s : State) (k : Nat) (f : Core → Core) : (s.modCore k f).grains = s.grains := rfl
@[simp] theorem State.modCore_gtabs (s : State) (k : Nat) (f : Core → Core) : (s.modCore k f).gtabs = s.gtabs := rfl
@[simp] theorem State.modCore_hpend (s : State) (k : Nat) (f : Core → Core) : (s.modCore k f).hpend = s.hpend := rfl
@[simp] theorem State.modCore_hwait (s : State) (k : Nat) (f : Core → Core) : (s.modCore k f).hwait = s.hwait := rfl
@[simp] theorem State.modCore_homeClaims (s : State) (k : Nat) (f : Core → Core) : (s.modCore k f).homeClaims = s.homeClaims := rfl
@[simp] theorem State.modCore_atomTags (s : State) (k : Nat) (f : Core → Core) : (s.modCore k f).atomTags = s.atomTags := rfl
@[simp] theorem State.modCore_orphans (s : State) (k : Nat) (f : Core → Core) : (s.modCore k f).orphans = s.orphans := rfl
@[simp] theorem State.modCore_commitCopies (s : State) (k : Nat) (f : Core → Core) : (s.modCore k f).commitCopies = s.commitCopies := rfl
@[simp] theorem State.modCore_freeTabs (s : State) (k : Nat) (f : Core → Core) : (s.modCore k f).freeTabs = s.freeTabs := rfl
@[simp] theorem State.modCore_tabPool (s : State) (k : Nat) (f : Core → Core) : (s.modCore k f).tabPool = s.tabPool := rfl
@[simp] theorem State.modCore_gen (s : State) (k : Nat) (f : Core → Core) : (s.modCore k f).gen = s.gen := rfl
@[simp] theorem State.modCore_root (s : State) (k : Nat) (f : Core → Core) : (s.modCore k f).root = s.root := rfl
@[simp] theorem State.modCore_snaps (s : State) (k : Nat) (f : Core → Core) : (s.modCore k f).snaps = s.snaps := rfl
@[simp] theorem State.modCore_replicaRoots (s : State) (k : Nat) (f : Core → Core) : (s.modCore k f).replicaRoots = s.replicaRoots := rfl
@[simp] theorem State.modCore_replicas (s : State) (k : Nat) (f : Core → Core) : (s.modCore k f).replicas = s.replicas := rfl
@[simp] theorem State.modCore_stagingT (s : State) (k : Nat) (f : Core → Core) : (s.modCore k f).stagingT = s.stagingT := rfl
@[simp] theorem State.modCore_segs (s : State) (k : Nat) (f : Core → Core) : (s.modCore k f).segs = s.segs := rfl
@[simp] theorem State.modCore_seals (s : State) (k : Nat) (f : Core → Core) : (s.modCore k f).seals = s.seals := rfl
@[simp] theorem State.modCore_masks (s : State) (k : Nat) (f : Core → Core) : (s.modCore k f).masks = s.masks := rfl
@[simp] theorem State.modCore_dredges (s : State) (k : Nat) (f : Core → Core) : (s.modCore k f).dredges = s.dredges := rfl
@[simp] theorem State.modCore_recSeg (s : State) (k : Nat) (f : Core → Core) : (s.modCore k f).recSeg = s.recSeg := rfl
@[simp] theorem State.modCore_tableSegs (s : State) (k : Nat) (f : Core → Core) : (s.modCore k f).tableSegs = s.tableSegs := rfl
@[simp] theorem State.modCore_pressure (s : State) (k : Nat) (f : Core → Core) : (s.modCore k f).pressure = s.pressure := rfl
@[simp] theorem State.modCore_hbm (s : State) (k : Nat) (f : Core → Core) : (s.modCore k f).hbm = s.hbm := rfl
@[simp] theorem State.modCore_hbmPoison (s : State) (k : Nat) (f : Core → Core) : (s.modCore k f).hbmPoison = s.hbmPoison := rfl
@[simp] theorem State.modCore_hbmFlips (s : State) (k : Nat) (f : Core → Core) : (s.modCore k f).hbmFlips = s.hbmFlips := rfl
@[simp] theorem State.modCore_heldWrites (s : State) (k : Nat) (f : Core → Core) : (s.modCore k f).heldWrites = s.heldWrites := rfl
@[simp] theorem State.modCore_laneRetries (s : State) (k : Nat) (f : Core → Core) : (s.modCore k f).laneRetries = s.laneRetries := rfl
@[simp] theorem State.modCore_lanesUsed (s : State) (k : Nat) (f : Core → Core) : (s.modCore k f).lanesUsed = s.lanesUsed := rfl
@[simp] theorem State.modCore_chanRefresh (s : State) (k : Nat) (f : Core → Core) : (s.modCore k f).chanRefresh = s.chanRefresh := rfl
@[simp] theorem State.modCore_chans (s : State) (k : Nat) (f : Core → Core) : (s.modCore k f).chans = s.chans := rfl
@[simp] theorem State.modCore_scrubRates (s : State) (k : Nat) (f : Core → Core) : (s.modCore k f).scrubRates = s.scrubRates := rfl
@[simp] theorem State.modCore_l2 (s : State) (k : Nat) (f : Core → Core) : (s.modCore k f).l2 = s.l2 := rfl
@[simp] theorem State.modCore_host (s : State) (k : Nat) (f : Core → Core) : (s.modCore k f).host = s.host := rfl
@[simp] theorem State.modCore_hostErr (s : State) (k : Nat) (f : Core → Core) : (s.modCore k f).hostErr = s.hostErr := rfl
@[simp] theorem State.modCore_peers (s : State) (k : Nat) (f : Core → Core) : (s.modCore k f).peers = s.peers := rfl
@[simp] theorem State.modCore_ports (s : State) (k : Nat) (f : Core → Core) : (s.modCore k f).ports = s.ports := rfl
@[simp] theorem State.modCore_serial (s : State) (k : Nat) (f : Core → Core) : (s.modCore k f).serial = s.serial := rfl
@[simp] theorem State.modCore_replica (s : State) (k : Nat) (f : Core → Core) : (s.modCore k f).replica = s.replica := rfl
@[simp] theorem State.modCore_peerOut (s : State) (k : Nat) (f : Core → Core) : (s.modCore k f).peerOut = s.peerOut := rfl
@[simp] theorem State.modCore_peerIn (s : State) (k : Nat) (f : Core → Core) : (s.modCore k f).peerIn = s.peerIn := rfl
@[simp] theorem State.modCore_peerReplies (s : State) (k : Nat) (f : Core → Core) : (s.modCore k f).peerReplies = s.peerReplies := rfl
@[simp] theorem State.modCore_outflow (s : State) (k : Nat) (f : Core → Core) : (s.modCore k f).outflow = s.outflow := rfl
@[simp] theorem State.modCore_outflowSent (s : State) (k : Nat) (f : Core → Core) : (s.modCore k f).outflowSent = s.outflowSent := rfl
@[simp] theorem State.modCore_xbars (s : State) (k : Nat) (f : Core → Core) : (s.modCore k f).xbars = s.xbars := rfl
@[simp] theorem State.modCore_trial (s : State) (k : Nat) (f : Core → Core) : (s.modCore k f).trial = s.trial := rfl
@[simp] theorem State.modCore_runcmp (s : State) (k : Nat) (f : Core → Core) : (s.modCore k f).runcmp = s.runcmp := rfl
@[simp] theorem State.modCore_savedGroups (s : State) (k : Nat) (f : Core → Core) : (s.modCore k f).savedGroups = s.savedGroups := rfl
@[simp] theorem State.modCore_mesh (s : State) (k : Nat) (f : Core → Core) : (s.modCore k f).mesh = s.mesh := rfl
@[simp] theorem State.modCore_shards (s : State) (k : Nat) (f : Core → Core) : (s.modCore k f).shards = s.shards := rfl
@[simp] theorem State.modCore_fuseFloor (s : State) (k : Nat) (f : Core → Core) : (s.modCore k f).fuseFloor = s.fuseFloor := rfl
@[simp] theorem State.modCore_flashA (s : State) (k : Nat) (f : Core → Core) : (s.modCore k f).flashA = s.flashA := rfl
@[simp] theorem State.modCore_flashB (s : State) (k : Nat) (f : Core → Core) : (s.modCore k f).flashB = s.flashB := rfl
@[simp] theorem State.modCore_stage1 (s : State) (k : Nat) (f : Core → Core) : (s.modCore k f).stage1 = s.stage1 := rfl
@[simp] theorem State.modCore_stage2 (s : State) (k : Nat) (f : Core → Core) : (s.modCore k f).stage2 = s.stage2 := rfl
@[simp] theorem State.modCore_startReport (s : State) (k : Nat) (f : Core → Core) : (s.modCore k f).startReport = s.startReport := rfl
@[simp] theorem State.modCore_started (s : State) (k : Nat) (f : Core → Core) : (s.modCore k f).started = s.started := rfl
@[simp] theorem State.modCore_nextId (s : State) (k : Nat) (f : Core → Core) : (s.modCore k f).nextId = s.nextId := rfl
@[simp] theorem State.modCore_fresh (s : State) (k : Nat) (f : Core → Core) : (s.modCore k f).fresh = s.fresh := rfl
@[simp] theorem State.modCore_lastCore (s : State) (k : Nat) (f : Core → Core) : (s.modCore k f).lastCore = s.lastCore := rfl
@[simp] theorem State.modCore_agenda (s : State) (k : Nat) (f : Core → Core) : (s.modCore k f).agenda = s.agenda := rfl
@[simp] theorem State.modCore_cur (s : State) (k : Nat) (f : Core → Core) : (s.modCore k f).cur = s.cur := rfl
@[simp] theorem State.modCore_ev (s : State) (k : Nat) (f : Core → Core) : (s.modCore k f).ev = s.ev := rfl
@[simp] theorem State.setCrew_phase (s : State) (k sl : Nat) (w : Crew) : (s.setCrew k sl w).phase = s.phase := rfl
@[simp] theorem State.setCrew_tilesUp (s : State) (k sl : Nat) (w : Crew) : (s.setCrew k sl w).tilesUp = s.tilesUp := rfl
@[simp] theorem State.setCrew_degraded (s : State) (k sl : Nat) (w : Crew) : (s.setCrew k sl w).degraded = s.degraded := rfl
@[simp] theorem State.setCrew_attest (s : State) (k sl : Nat) (w : Crew) : (s.setCrew k sl w).attest = s.attest := rfl
@[simp] theorem State.setCrew_fwrej (s : State) (k sl : Nat) (w : Crew) : (s.setCrew k sl w).fwrej = s.fwrej := rfl
@[simp] theorem State.setCrew_powered (s : State) (k sl : Nat) (w : Crew) : (s.setCrew k sl w).powered = s.powered := rfl
@[simp] theorem State.setCrew_selfTest (s : State) (k sl : Nat) (w : Crew) : (s.setCrew k sl w).selfTest = s.selfTest := rfl
@[simp] theorem State.setCrew_tjmax (s : State) (k sl : Nat) (w : Crew) : (s.setCrew k sl w).tjmax = s.tjmax := rfl
@[simp] theorem State.setCrew_tinlet (s : State) (k sl : Nat) (w : Crew) : (s.setCrew k sl w).tinlet = s.tinlet := rfl
@[simp] theorem State.setCrew_power (s : State) (k sl : Nat) (w : Crew) : (s.setCrew k sl w).power = s.power := rfl
@[simp] theorem State.setCrew_throt (s : State) (k sl : Nat) (w : Crew) : (s.setCrew k sl w).throt = s.throt := rfl
@[simp] theorem State.setCrew_clock (s : State) (k sl : Nat) (w : Crew) : (s.setCrew k sl w).clock = s.clock := rfl
@[simp] theorem State.setCrew_cstate (s : State) (k sl : Nat) (w : Crew) : (s.setCrew k sl w).cstate = s.cstate := rfl
@[simp] theorem State.setCrew_cstatus (s : State) (k sl : Nat) (w : Crew) : (s.setCrew k sl w).cstatus = s.cstatus := rfl
@[simp] theorem State.setCrew_cseq (s : State) (k sl : Nat) (w : Crew) : (s.setCrew k sl w).cseq = s.cseq := rfl
@[simp] theorem State.setCrew_busy (s : State) (k sl : Nat) (w : Crew) : (s.setCrew k sl w).busy = s.busy := rfl
@[simp] theorem State.setCrew_cmdbuf (s : State) (k sl : Nat) (w : Crew) : (s.setCrew k sl w).cmdbuf = s.cmdbuf := rfl
@[simp] theorem State.setCrew_rspbuf (s : State) (k sl : Nat) (w : Crew) : (s.setCrew k sl w).rspbuf = s.rspbuf := rfl
@[simp] theorem State.setCrew_msix (s : State) (k sl : Nat) (w : Crew) : (s.setCrew k sl w).msix = s.msix := rfl
@[simp] theorem State.setCrew_capacity (s : State) (k sl : Nat) (w : Crew) : (s.setCrew k sl w).capacity = s.capacity := rfl
@[simp] theorem State.setCrew_cycle (s : State) (k sl : Nat) (w : Crew) : (s.setCrew k sl w).cycle = s.cycle := rfl
@[simp] theorem State.setCrew_ticks (s : State) (k sl : Nat) (w : Crew) : (s.setCrew k sl w).ticks = s.ticks := rfl
@[simp] theorem State.setCrew_clusters (s : State) (k sl : Nat) (w : Crew) : (s.setCrew k sl w).clusters = s.clusters := rfl
@[simp] theorem State.setCrew_groups (s : State) (k sl : Nat) (w : Crew) : (s.setCrew k sl w).groups = s.groups := rfl
@[simp] theorem State.setCrew_nodes (s : State) (k sl : Nat) (w : Crew) : (s.setCrew k sl w).nodes = s.nodes := rfl
@[simp] theorem State.setCrew_pending (s : State) (k sl : Nat) (w : Crew) : (s.setCrew k sl w).pending = s.pending := rfl
@[simp] theorem State.setCrew_marked (s : State) (k sl : Nat) (w : Crew) : (s.setCrew k sl w).marked = s.marked := rfl
@[simp] theorem State.setCrew_markHead (s : State) (k sl : Nat) (w : Crew) : (s.setCrew k sl w).markHead = s.markHead := rfl
@[simp] theorem State.setCrew_nextLseq (s : State) (k sl : Nat) (w : Crew) : (s.setCrew k sl w).nextLseq = s.nextLseq := rfl
@[simp] theorem State.setCrew_lqs (s : State) (k sl : Nat) (w : Crew) : (s.setCrew k sl w).lqs = s.lqs := rfl
@[simp] theorem State.setCrew_eqs (s : State) (k sl : Nat) (w : Crew) : (s.setCrew k sl w).eqs = s.eqs := rfl
@[simp] theorem State.setCrew_els (s : State) (k sl : Nat) (w : Crew) : (s.setCrew k sl w).els = s.els := rfl
@[simp] theorem State.setCrew_evout (s : State) (k sl : Nat) (w : Crew) : (s.setCrew k sl w).evout = s.evout := rfl
@[simp] theorem State.setCrew_errs (s : State) (k sl : Nat) (w : Crew) : (s.setCrew k sl w).errs = s.errs := rfl
@[simp] theorem State.setCrew_errDue (s : State) (k sl : Nat) (w : Crew) : (s.setCrew k sl w).errDue = s.errDue := rfl
@[simp] theorem State.setCrew_ce (s : State) (k sl : Nat) (w : Crew) : (s.setCrew k sl w).ce = s.ce := rfl
@[simp] theorem State.setCrew_ue (s : State) (k sl : Nat) (w : Crew) : (s.setCrew k sl w).ue = s.ue := rfl
@[simp] theorem State.setCrew_elost (s : State) (k sl : Nat) (w : Crew) : (s.setCrew k sl w).elost = s.elost := rfl
@[simp] theorem State.setCrew_ctxs (s : State) (k sl : Nat) (w : Crew) : (s.setCrew k sl w).ctxs = s.ctxs := rfl
@[simp] theorem State.setCrew_tables (s : State) (k sl : Nat) (w : Crew) : (s.setCrew k sl w).tables = s.tables := rfl
@[simp] theorem State.setCrew_nextTable (s : State) (k sl : Nat) (w : Crew) : (s.setCrew k sl w).nextTable = s.nextTable := rfl
@[simp] theorem State.setCrew_pages (s : State) (k sl : Nat) (w : Crew) : (s.setCrew k sl w).pages = s.pages := rfl
@[simp] theorem State.setCrew_grains (s : State) (k sl : Nat) (w : Crew) : (s.setCrew k sl w).grains = s.grains := rfl
@[simp] theorem State.setCrew_gtabs (s : State) (k sl : Nat) (w : Crew) : (s.setCrew k sl w).gtabs = s.gtabs := rfl
@[simp] theorem State.setCrew_hpend (s : State) (k sl : Nat) (w : Crew) : (s.setCrew k sl w).hpend = s.hpend := rfl
@[simp] theorem State.setCrew_hwait (s : State) (k sl : Nat) (w : Crew) : (s.setCrew k sl w).hwait = s.hwait := rfl
@[simp] theorem State.setCrew_homeClaims (s : State) (k sl : Nat) (w : Crew) : (s.setCrew k sl w).homeClaims = s.homeClaims := rfl
@[simp] theorem State.setCrew_atomTags (s : State) (k sl : Nat) (w : Crew) : (s.setCrew k sl w).atomTags = s.atomTags := rfl
@[simp] theorem State.setCrew_orphans (s : State) (k sl : Nat) (w : Crew) : (s.setCrew k sl w).orphans = s.orphans := rfl
@[simp] theorem State.setCrew_commitCopies (s : State) (k sl : Nat) (w : Crew) : (s.setCrew k sl w).commitCopies = s.commitCopies := rfl
@[simp] theorem State.setCrew_freeTabs (s : State) (k sl : Nat) (w : Crew) : (s.setCrew k sl w).freeTabs = s.freeTabs := rfl
@[simp] theorem State.setCrew_tabPool (s : State) (k sl : Nat) (w : Crew) : (s.setCrew k sl w).tabPool = s.tabPool := rfl
@[simp] theorem State.setCrew_gen (s : State) (k sl : Nat) (w : Crew) : (s.setCrew k sl w).gen = s.gen := rfl
@[simp] theorem State.setCrew_root (s : State) (k sl : Nat) (w : Crew) : (s.setCrew k sl w).root = s.root := rfl
@[simp] theorem State.setCrew_snaps (s : State) (k sl : Nat) (w : Crew) : (s.setCrew k sl w).snaps = s.snaps := rfl
@[simp] theorem State.setCrew_replicaRoots (s : State) (k sl : Nat) (w : Crew) : (s.setCrew k sl w).replicaRoots = s.replicaRoots := rfl
@[simp] theorem State.setCrew_replicas (s : State) (k sl : Nat) (w : Crew) : (s.setCrew k sl w).replicas = s.replicas := rfl
@[simp] theorem State.setCrew_stagingT (s : State) (k sl : Nat) (w : Crew) : (s.setCrew k sl w).stagingT = s.stagingT := rfl
@[simp] theorem State.setCrew_segs (s : State) (k sl : Nat) (w : Crew) : (s.setCrew k sl w).segs = s.segs := rfl
@[simp] theorem State.setCrew_seals (s : State) (k sl : Nat) (w : Crew) : (s.setCrew k sl w).seals = s.seals := rfl
@[simp] theorem State.setCrew_masks (s : State) (k sl : Nat) (w : Crew) : (s.setCrew k sl w).masks = s.masks := rfl
@[simp] theorem State.setCrew_dredges (s : State) (k sl : Nat) (w : Crew) : (s.setCrew k sl w).dredges = s.dredges := rfl
@[simp] theorem State.setCrew_recSeg (s : State) (k sl : Nat) (w : Crew) : (s.setCrew k sl w).recSeg = s.recSeg := rfl
@[simp] theorem State.setCrew_tableSegs (s : State) (k sl : Nat) (w : Crew) : (s.setCrew k sl w).tableSegs = s.tableSegs := rfl
@[simp] theorem State.setCrew_pressure (s : State) (k sl : Nat) (w : Crew) : (s.setCrew k sl w).pressure = s.pressure := rfl
@[simp] theorem State.setCrew_hbm (s : State) (k sl : Nat) (w : Crew) : (s.setCrew k sl w).hbm = s.hbm := rfl
@[simp] theorem State.setCrew_hbmPoison (s : State) (k sl : Nat) (w : Crew) : (s.setCrew k sl w).hbmPoison = s.hbmPoison := rfl
@[simp] theorem State.setCrew_hbmFlips (s : State) (k sl : Nat) (w : Crew) : (s.setCrew k sl w).hbmFlips = s.hbmFlips := rfl
@[simp] theorem State.setCrew_heldWrites (s : State) (k sl : Nat) (w : Crew) : (s.setCrew k sl w).heldWrites = s.heldWrites := rfl
@[simp] theorem State.setCrew_laneRetries (s : State) (k sl : Nat) (w : Crew) : (s.setCrew k sl w).laneRetries = s.laneRetries := rfl
@[simp] theorem State.setCrew_lanesUsed (s : State) (k sl : Nat) (w : Crew) : (s.setCrew k sl w).lanesUsed = s.lanesUsed := rfl
@[simp] theorem State.setCrew_chanRefresh (s : State) (k sl : Nat) (w : Crew) : (s.setCrew k sl w).chanRefresh = s.chanRefresh := rfl
@[simp] theorem State.setCrew_chans (s : State) (k sl : Nat) (w : Crew) : (s.setCrew k sl w).chans = s.chans := rfl
@[simp] theorem State.setCrew_scrubRates (s : State) (k sl : Nat) (w : Crew) : (s.setCrew k sl w).scrubRates = s.scrubRates := rfl
@[simp] theorem State.setCrew_l2 (s : State) (k sl : Nat) (w : Crew) : (s.setCrew k sl w).l2 = s.l2 := rfl
@[simp] theorem State.setCrew_host (s : State) (k sl : Nat) (w : Crew) : (s.setCrew k sl w).host = s.host := rfl
@[simp] theorem State.setCrew_hostErr (s : State) (k sl : Nat) (w : Crew) : (s.setCrew k sl w).hostErr = s.hostErr := rfl
@[simp] theorem State.setCrew_peers (s : State) (k sl : Nat) (w : Crew) : (s.setCrew k sl w).peers = s.peers := rfl
@[simp] theorem State.setCrew_ports (s : State) (k sl : Nat) (w : Crew) : (s.setCrew k sl w).ports = s.ports := rfl
@[simp] theorem State.setCrew_serial (s : State) (k sl : Nat) (w : Crew) : (s.setCrew k sl w).serial = s.serial := rfl
@[simp] theorem State.setCrew_replica (s : State) (k sl : Nat) (w : Crew) : (s.setCrew k sl w).replica = s.replica := rfl
@[simp] theorem State.setCrew_peerOut (s : State) (k sl : Nat) (w : Crew) : (s.setCrew k sl w).peerOut = s.peerOut := rfl
@[simp] theorem State.setCrew_peerIn (s : State) (k sl : Nat) (w : Crew) : (s.setCrew k sl w).peerIn = s.peerIn := rfl
@[simp] theorem State.setCrew_peerReplies (s : State) (k sl : Nat) (w : Crew) : (s.setCrew k sl w).peerReplies = s.peerReplies := rfl
@[simp] theorem State.setCrew_outflow (s : State) (k sl : Nat) (w : Crew) : (s.setCrew k sl w).outflow = s.outflow := rfl
@[simp] theorem State.setCrew_outflowSent (s : State) (k sl : Nat) (w : Crew) : (s.setCrew k sl w).outflowSent = s.outflowSent := rfl
@[simp] theorem State.setCrew_xbars (s : State) (k sl : Nat) (w : Crew) : (s.setCrew k sl w).xbars = s.xbars := rfl
@[simp] theorem State.setCrew_trial (s : State) (k sl : Nat) (w : Crew) : (s.setCrew k sl w).trial = s.trial := rfl
@[simp] theorem State.setCrew_runcmp (s : State) (k sl : Nat) (w : Crew) : (s.setCrew k sl w).runcmp = s.runcmp := rfl
@[simp] theorem State.setCrew_savedGroups (s : State) (k sl : Nat) (w : Crew) : (s.setCrew k sl w).savedGroups = s.savedGroups := rfl
@[simp] theorem State.setCrew_mesh (s : State) (k sl : Nat) (w : Crew) : (s.setCrew k sl w).mesh = s.mesh := rfl
@[simp] theorem State.setCrew_shards (s : State) (k sl : Nat) (w : Crew) : (s.setCrew k sl w).shards = s.shards := rfl
@[simp] theorem State.setCrew_fuseFloor (s : State) (k sl : Nat) (w : Crew) : (s.setCrew k sl w).fuseFloor = s.fuseFloor := rfl
@[simp] theorem State.setCrew_flashA (s : State) (k sl : Nat) (w : Crew) : (s.setCrew k sl w).flashA = s.flashA := rfl
@[simp] theorem State.setCrew_flashB (s : State) (k sl : Nat) (w : Crew) : (s.setCrew k sl w).flashB = s.flashB := rfl
@[simp] theorem State.setCrew_stage1 (s : State) (k sl : Nat) (w : Crew) : (s.setCrew k sl w).stage1 = s.stage1 := rfl
@[simp] theorem State.setCrew_stage2 (s : State) (k sl : Nat) (w : Crew) : (s.setCrew k sl w).stage2 = s.stage2 := rfl
@[simp] theorem State.setCrew_startReport (s : State) (k sl : Nat) (w : Crew) : (s.setCrew k sl w).startReport = s.startReport := rfl
@[simp] theorem State.setCrew_started (s : State) (k sl : Nat) (w : Crew) : (s.setCrew k sl w).started = s.started := rfl
@[simp] theorem State.setCrew_nextId (s : State) (k sl : Nat) (w : Crew) : (s.setCrew k sl w).nextId = s.nextId := rfl
@[simp] theorem State.setCrew_fresh (s : State) (k sl : Nat) (w : Crew) : (s.setCrew k sl w).fresh = s.fresh := rfl
@[simp] theorem State.setCrew_lastCore (s : State) (k sl : Nat) (w : Crew) : (s.setCrew k sl w).lastCore = s.lastCore := rfl
@[simp] theorem State.setCrew_agenda (s : State) (k sl : Nat) (w : Crew) : (s.setCrew k sl w).agenda = s.agenda := rfl
@[simp] theorem State.setCrew_cur (s : State) (k sl : Nat) (w : Crew) : (s.setCrew k sl w).cur = s.cur := rfl
@[simp] theorem State.setCrew_ev (s : State) (k sl : Nat) (w : Crew) : (s.setCrew k sl w).ev = s.ev := rfl
@[simp] theorem State.modCrew_phase (s : State) (k sl : Nat) (f : Crew → Crew) : (s.modCrew k sl f).phase = s.phase := rfl
@[simp] theorem State.modCrew_tilesUp (s : State) (k sl : Nat) (f : Crew → Crew) : (s.modCrew k sl f).tilesUp = s.tilesUp := rfl
@[simp] theorem State.modCrew_degraded (s : State) (k sl : Nat) (f : Crew → Crew) : (s.modCrew k sl f).degraded = s.degraded := rfl
@[simp] theorem State.modCrew_attest (s : State) (k sl : Nat) (f : Crew → Crew) : (s.modCrew k sl f).attest = s.attest := rfl
@[simp] theorem State.modCrew_fwrej (s : State) (k sl : Nat) (f : Crew → Crew) : (s.modCrew k sl f).fwrej = s.fwrej := rfl
@[simp] theorem State.modCrew_powered (s : State) (k sl : Nat) (f : Crew → Crew) : (s.modCrew k sl f).powered = s.powered := rfl
@[simp] theorem State.modCrew_selfTest (s : State) (k sl : Nat) (f : Crew → Crew) : (s.modCrew k sl f).selfTest = s.selfTest := rfl
@[simp] theorem State.modCrew_tjmax (s : State) (k sl : Nat) (f : Crew → Crew) : (s.modCrew k sl f).tjmax = s.tjmax := rfl
@[simp] theorem State.modCrew_tinlet (s : State) (k sl : Nat) (f : Crew → Crew) : (s.modCrew k sl f).tinlet = s.tinlet := rfl
@[simp] theorem State.modCrew_power (s : State) (k sl : Nat) (f : Crew → Crew) : (s.modCrew k sl f).power = s.power := rfl
@[simp] theorem State.modCrew_throt (s : State) (k sl : Nat) (f : Crew → Crew) : (s.modCrew k sl f).throt = s.throt := rfl
@[simp] theorem State.modCrew_clock (s : State) (k sl : Nat) (f : Crew → Crew) : (s.modCrew k sl f).clock = s.clock := rfl
@[simp] theorem State.modCrew_cstate (s : State) (k sl : Nat) (f : Crew → Crew) : (s.modCrew k sl f).cstate = s.cstate := rfl
@[simp] theorem State.modCrew_cstatus (s : State) (k sl : Nat) (f : Crew → Crew) : (s.modCrew k sl f).cstatus = s.cstatus := rfl
@[simp] theorem State.modCrew_cseq (s : State) (k sl : Nat) (f : Crew → Crew) : (s.modCrew k sl f).cseq = s.cseq := rfl
@[simp] theorem State.modCrew_busy (s : State) (k sl : Nat) (f : Crew → Crew) : (s.modCrew k sl f).busy = s.busy := rfl
@[simp] theorem State.modCrew_cmdbuf (s : State) (k sl : Nat) (f : Crew → Crew) : (s.modCrew k sl f).cmdbuf = s.cmdbuf := rfl
@[simp] theorem State.modCrew_rspbuf (s : State) (k sl : Nat) (f : Crew → Crew) : (s.modCrew k sl f).rspbuf = s.rspbuf := rfl
@[simp] theorem State.modCrew_msix (s : State) (k sl : Nat) (f : Crew → Crew) : (s.modCrew k sl f).msix = s.msix := rfl
@[simp] theorem State.modCrew_capacity (s : State) (k sl : Nat) (f : Crew → Crew) : (s.modCrew k sl f).capacity = s.capacity := rfl
@[simp] theorem State.modCrew_cycle (s : State) (k sl : Nat) (f : Crew → Crew) : (s.modCrew k sl f).cycle = s.cycle := rfl
@[simp] theorem State.modCrew_ticks (s : State) (k sl : Nat) (f : Crew → Crew) : (s.modCrew k sl f).ticks = s.ticks := rfl
@[simp] theorem State.modCrew_clusters (s : State) (k sl : Nat) (f : Crew → Crew) : (s.modCrew k sl f).clusters = s.clusters := rfl
@[simp] theorem State.modCrew_groups (s : State) (k sl : Nat) (f : Crew → Crew) : (s.modCrew k sl f).groups = s.groups := rfl
@[simp] theorem State.modCrew_nodes (s : State) (k sl : Nat) (f : Crew → Crew) : (s.modCrew k sl f).nodes = s.nodes := rfl
@[simp] theorem State.modCrew_pending (s : State) (k sl : Nat) (f : Crew → Crew) : (s.modCrew k sl f).pending = s.pending := rfl
@[simp] theorem State.modCrew_marked (s : State) (k sl : Nat) (f : Crew → Crew) : (s.modCrew k sl f).marked = s.marked := rfl
@[simp] theorem State.modCrew_markHead (s : State) (k sl : Nat) (f : Crew → Crew) : (s.modCrew k sl f).markHead = s.markHead := rfl
@[simp] theorem State.modCrew_nextLseq (s : State) (k sl : Nat) (f : Crew → Crew) : (s.modCrew k sl f).nextLseq = s.nextLseq := rfl
@[simp] theorem State.modCrew_lqs (s : State) (k sl : Nat) (f : Crew → Crew) : (s.modCrew k sl f).lqs = s.lqs := rfl
@[simp] theorem State.modCrew_eqs (s : State) (k sl : Nat) (f : Crew → Crew) : (s.modCrew k sl f).eqs = s.eqs := rfl
@[simp] theorem State.modCrew_els (s : State) (k sl : Nat) (f : Crew → Crew) : (s.modCrew k sl f).els = s.els := rfl
@[simp] theorem State.modCrew_evout (s : State) (k sl : Nat) (f : Crew → Crew) : (s.modCrew k sl f).evout = s.evout := rfl
@[simp] theorem State.modCrew_errs (s : State) (k sl : Nat) (f : Crew → Crew) : (s.modCrew k sl f).errs = s.errs := rfl
@[simp] theorem State.modCrew_errDue (s : State) (k sl : Nat) (f : Crew → Crew) : (s.modCrew k sl f).errDue = s.errDue := rfl
@[simp] theorem State.modCrew_ce (s : State) (k sl : Nat) (f : Crew → Crew) : (s.modCrew k sl f).ce = s.ce := rfl
@[simp] theorem State.modCrew_ue (s : State) (k sl : Nat) (f : Crew → Crew) : (s.modCrew k sl f).ue = s.ue := rfl
@[simp] theorem State.modCrew_elost (s : State) (k sl : Nat) (f : Crew → Crew) : (s.modCrew k sl f).elost = s.elost := rfl
@[simp] theorem State.modCrew_ctxs (s : State) (k sl : Nat) (f : Crew → Crew) : (s.modCrew k sl f).ctxs = s.ctxs := rfl
@[simp] theorem State.modCrew_tables (s : State) (k sl : Nat) (f : Crew → Crew) : (s.modCrew k sl f).tables = s.tables := rfl
@[simp] theorem State.modCrew_nextTable (s : State) (k sl : Nat) (f : Crew → Crew) : (s.modCrew k sl f).nextTable = s.nextTable := rfl
@[simp] theorem State.modCrew_pages (s : State) (k sl : Nat) (f : Crew → Crew) : (s.modCrew k sl f).pages = s.pages := rfl
@[simp] theorem State.modCrew_grains (s : State) (k sl : Nat) (f : Crew → Crew) : (s.modCrew k sl f).grains = s.grains := rfl
@[simp] theorem State.modCrew_gtabs (s : State) (k sl : Nat) (f : Crew → Crew) : (s.modCrew k sl f).gtabs = s.gtabs := rfl
@[simp] theorem State.modCrew_hpend (s : State) (k sl : Nat) (f : Crew → Crew) : (s.modCrew k sl f).hpend = s.hpend := rfl
@[simp] theorem State.modCrew_hwait (s : State) (k sl : Nat) (f : Crew → Crew) : (s.modCrew k sl f).hwait = s.hwait := rfl
@[simp] theorem State.modCrew_homeClaims (s : State) (k sl : Nat) (f : Crew → Crew) : (s.modCrew k sl f).homeClaims = s.homeClaims := rfl
@[simp] theorem State.modCrew_atomTags (s : State) (k sl : Nat) (f : Crew → Crew) : (s.modCrew k sl f).atomTags = s.atomTags := rfl
@[simp] theorem State.modCrew_orphans (s : State) (k sl : Nat) (f : Crew → Crew) : (s.modCrew k sl f).orphans = s.orphans := rfl
@[simp] theorem State.modCrew_commitCopies (s : State) (k sl : Nat) (f : Crew → Crew) : (s.modCrew k sl f).commitCopies = s.commitCopies := rfl
@[simp] theorem State.modCrew_freeTabs (s : State) (k sl : Nat) (f : Crew → Crew) : (s.modCrew k sl f).freeTabs = s.freeTabs := rfl
@[simp] theorem State.modCrew_tabPool (s : State) (k sl : Nat) (f : Crew → Crew) : (s.modCrew k sl f).tabPool = s.tabPool := rfl
@[simp] theorem State.modCrew_gen (s : State) (k sl : Nat) (f : Crew → Crew) : (s.modCrew k sl f).gen = s.gen := rfl
@[simp] theorem State.modCrew_root (s : State) (k sl : Nat) (f : Crew → Crew) : (s.modCrew k sl f).root = s.root := rfl
@[simp] theorem State.modCrew_snaps (s : State) (k sl : Nat) (f : Crew → Crew) : (s.modCrew k sl f).snaps = s.snaps := rfl
@[simp] theorem State.modCrew_replicaRoots (s : State) (k sl : Nat) (f : Crew → Crew) : (s.modCrew k sl f).replicaRoots = s.replicaRoots := rfl
@[simp] theorem State.modCrew_replicas (s : State) (k sl : Nat) (f : Crew → Crew) : (s.modCrew k sl f).replicas = s.replicas := rfl
@[simp] theorem State.modCrew_stagingT (s : State) (k sl : Nat) (f : Crew → Crew) : (s.modCrew k sl f).stagingT = s.stagingT := rfl
@[simp] theorem State.modCrew_segs (s : State) (k sl : Nat) (f : Crew → Crew) : (s.modCrew k sl f).segs = s.segs := rfl
@[simp] theorem State.modCrew_seals (s : State) (k sl : Nat) (f : Crew → Crew) : (s.modCrew k sl f).seals = s.seals := rfl
@[simp] theorem State.modCrew_masks (s : State) (k sl : Nat) (f : Crew → Crew) : (s.modCrew k sl f).masks = s.masks := rfl
@[simp] theorem State.modCrew_dredges (s : State) (k sl : Nat) (f : Crew → Crew) : (s.modCrew k sl f).dredges = s.dredges := rfl
@[simp] theorem State.modCrew_recSeg (s : State) (k sl : Nat) (f : Crew → Crew) : (s.modCrew k sl f).recSeg = s.recSeg := rfl
@[simp] theorem State.modCrew_tableSegs (s : State) (k sl : Nat) (f : Crew → Crew) : (s.modCrew k sl f).tableSegs = s.tableSegs := rfl
@[simp] theorem State.modCrew_pressure (s : State) (k sl : Nat) (f : Crew → Crew) : (s.modCrew k sl f).pressure = s.pressure := rfl
@[simp] theorem State.modCrew_hbm (s : State) (k sl : Nat) (f : Crew → Crew) : (s.modCrew k sl f).hbm = s.hbm := rfl
@[simp] theorem State.modCrew_hbmPoison (s : State) (k sl : Nat) (f : Crew → Crew) : (s.modCrew k sl f).hbmPoison = s.hbmPoison := rfl
@[simp] theorem State.modCrew_hbmFlips (s : State) (k sl : Nat) (f : Crew → Crew) : (s.modCrew k sl f).hbmFlips = s.hbmFlips := rfl
@[simp] theorem State.modCrew_heldWrites (s : State) (k sl : Nat) (f : Crew → Crew) : (s.modCrew k sl f).heldWrites = s.heldWrites := rfl
@[simp] theorem State.modCrew_laneRetries (s : State) (k sl : Nat) (f : Crew → Crew) : (s.modCrew k sl f).laneRetries = s.laneRetries := rfl
@[simp] theorem State.modCrew_lanesUsed (s : State) (k sl : Nat) (f : Crew → Crew) : (s.modCrew k sl f).lanesUsed = s.lanesUsed := rfl
@[simp] theorem State.modCrew_chanRefresh (s : State) (k sl : Nat) (f : Crew → Crew) : (s.modCrew k sl f).chanRefresh = s.chanRefresh := rfl
@[simp] theorem State.modCrew_chans (s : State) (k sl : Nat) (f : Crew → Crew) : (s.modCrew k sl f).chans = s.chans := rfl
@[simp] theorem State.modCrew_scrubRates (s : State) (k sl : Nat) (f : Crew → Crew) : (s.modCrew k sl f).scrubRates = s.scrubRates := rfl
@[simp] theorem State.modCrew_l2 (s : State) (k sl : Nat) (f : Crew → Crew) : (s.modCrew k sl f).l2 = s.l2 := rfl
@[simp] theorem State.modCrew_host (s : State) (k sl : Nat) (f : Crew → Crew) : (s.modCrew k sl f).host = s.host := rfl
@[simp] theorem State.modCrew_hostErr (s : State) (k sl : Nat) (f : Crew → Crew) : (s.modCrew k sl f).hostErr = s.hostErr := rfl
@[simp] theorem State.modCrew_peers (s : State) (k sl : Nat) (f : Crew → Crew) : (s.modCrew k sl f).peers = s.peers := rfl
@[simp] theorem State.modCrew_ports (s : State) (k sl : Nat) (f : Crew → Crew) : (s.modCrew k sl f).ports = s.ports := rfl
@[simp] theorem State.modCrew_serial (s : State) (k sl : Nat) (f : Crew → Crew) : (s.modCrew k sl f).serial = s.serial := rfl
@[simp] theorem State.modCrew_replica (s : State) (k sl : Nat) (f : Crew → Crew) : (s.modCrew k sl f).replica = s.replica := rfl
@[simp] theorem State.modCrew_peerOut (s : State) (k sl : Nat) (f : Crew → Crew) : (s.modCrew k sl f).peerOut = s.peerOut := rfl
@[simp] theorem State.modCrew_peerIn (s : State) (k sl : Nat) (f : Crew → Crew) : (s.modCrew k sl f).peerIn = s.peerIn := rfl
@[simp] theorem State.modCrew_peerReplies (s : State) (k sl : Nat) (f : Crew → Crew) : (s.modCrew k sl f).peerReplies = s.peerReplies := rfl
@[simp] theorem State.modCrew_outflow (s : State) (k sl : Nat) (f : Crew → Crew) : (s.modCrew k sl f).outflow = s.outflow := rfl
@[simp] theorem State.modCrew_outflowSent (s : State) (k sl : Nat) (f : Crew → Crew) : (s.modCrew k sl f).outflowSent = s.outflowSent := rfl
@[simp] theorem State.modCrew_xbars (s : State) (k sl : Nat) (f : Crew → Crew) : (s.modCrew k sl f).xbars = s.xbars := rfl
@[simp] theorem State.modCrew_trial (s : State) (k sl : Nat) (f : Crew → Crew) : (s.modCrew k sl f).trial = s.trial := rfl
@[simp] theorem State.modCrew_runcmp (s : State) (k sl : Nat) (f : Crew → Crew) : (s.modCrew k sl f).runcmp = s.runcmp := rfl
@[simp] theorem State.modCrew_savedGroups (s : State) (k sl : Nat) (f : Crew → Crew) : (s.modCrew k sl f).savedGroups = s.savedGroups := rfl
@[simp] theorem State.modCrew_mesh (s : State) (k sl : Nat) (f : Crew → Crew) : (s.modCrew k sl f).mesh = s.mesh := rfl
@[simp] theorem State.modCrew_shards (s : State) (k sl : Nat) (f : Crew → Crew) : (s.modCrew k sl f).shards = s.shards := rfl
@[simp] theorem State.modCrew_fuseFloor (s : State) (k sl : Nat) (f : Crew → Crew) : (s.modCrew k sl f).fuseFloor = s.fuseFloor := rfl
@[simp] theorem State.modCrew_flashA (s : State) (k sl : Nat) (f : Crew → Crew) : (s.modCrew k sl f).flashA = s.flashA := rfl
@[simp] theorem State.modCrew_flashB (s : State) (k sl : Nat) (f : Crew → Crew) : (s.modCrew k sl f).flashB = s.flashB := rfl
@[simp] theorem State.modCrew_stage1 (s : State) (k sl : Nat) (f : Crew → Crew) : (s.modCrew k sl f).stage1 = s.stage1 := rfl
@[simp] theorem State.modCrew_stage2 (s : State) (k sl : Nat) (f : Crew → Crew) : (s.modCrew k sl f).stage2 = s.stage2 := rfl
@[simp] theorem State.modCrew_startReport (s : State) (k sl : Nat) (f : Crew → Crew) : (s.modCrew k sl f).startReport = s.startReport := rfl
@[simp] theorem State.modCrew_started (s : State) (k sl : Nat) (f : Crew → Crew) : (s.modCrew k sl f).started = s.started := rfl
@[simp] theorem State.modCrew_nextId (s : State) (k sl : Nat) (f : Crew → Crew) : (s.modCrew k sl f).nextId = s.nextId := rfl
@[simp] theorem State.modCrew_fresh (s : State) (k sl : Nat) (f : Crew → Crew) : (s.modCrew k sl f).fresh = s.fresh := rfl
@[simp] theorem State.modCrew_lastCore (s : State) (k sl : Nat) (f : Crew → Crew) : (s.modCrew k sl f).lastCore = s.lastCore := rfl
@[simp] theorem State.modCrew_agenda (s : State) (k sl : Nat) (f : Crew → Crew) : (s.modCrew k sl f).agenda = s.agenda := rfl
@[simp] theorem State.modCrew_cur (s : State) (k sl : Nat) (f : Crew → Crew) : (s.modCrew k sl f).cur = s.cur := rfl
@[simp] theorem State.modCrew_ev (s : State) (k sl : Nat) (f : Crew → Crew) : (s.modCrew k sl f).ev = s.ev := rfl
@[simp] theorem State.modGroup_phase (s : State) (g : Nat) (f : Group → Group) : (s.modGroup g f).phase = s.phase := rfl
@[simp] theorem State.modGroup_tilesUp (s : State) (g : Nat) (f : Group → Group) : (s.modGroup g f).tilesUp = s.tilesUp := rfl
@[simp] theorem State.modGroup_degraded (s : State) (g : Nat) (f : Group → Group) : (s.modGroup g f).degraded = s.degraded := rfl
@[simp] theorem State.modGroup_attest (s : State) (g : Nat) (f : Group → Group) : (s.modGroup g f).attest = s.attest := rfl
@[simp] theorem State.modGroup_fwrej (s : State) (g : Nat) (f : Group → Group) : (s.modGroup g f).fwrej = s.fwrej := rfl
@[simp] theorem State.modGroup_powered (s : State) (g : Nat) (f : Group → Group) : (s.modGroup g f).powered = s.powered := rfl
@[simp] theorem State.modGroup_selfTest (s : State) (g : Nat) (f : Group → Group) : (s.modGroup g f).selfTest = s.selfTest := rfl
@[simp] theorem State.modGroup_tjmax (s : State) (g : Nat) (f : Group → Group) : (s.modGroup g f).tjmax = s.tjmax := rfl
@[simp] theorem State.modGroup_tinlet (s : State) (g : Nat) (f : Group → Group) : (s.modGroup g f).tinlet = s.tinlet := rfl
@[simp] theorem State.modGroup_power (s : State) (g : Nat) (f : Group → Group) : (s.modGroup g f).power = s.power := rfl
@[simp] theorem State.modGroup_throt (s : State) (g : Nat) (f : Group → Group) : (s.modGroup g f).throt = s.throt := rfl
@[simp] theorem State.modGroup_clock (s : State) (g : Nat) (f : Group → Group) : (s.modGroup g f).clock = s.clock := rfl
@[simp] theorem State.modGroup_cstate (s : State) (g : Nat) (f : Group → Group) : (s.modGroup g f).cstate = s.cstate := rfl
@[simp] theorem State.modGroup_cstatus (s : State) (g : Nat) (f : Group → Group) : (s.modGroup g f).cstatus = s.cstatus := rfl
@[simp] theorem State.modGroup_cseq (s : State) (g : Nat) (f : Group → Group) : (s.modGroup g f).cseq = s.cseq := rfl
@[simp] theorem State.modGroup_busy (s : State) (g : Nat) (f : Group → Group) : (s.modGroup g f).busy = s.busy := rfl
@[simp] theorem State.modGroup_cmdbuf (s : State) (g : Nat) (f : Group → Group) : (s.modGroup g f).cmdbuf = s.cmdbuf := rfl
@[simp] theorem State.modGroup_rspbuf (s : State) (g : Nat) (f : Group → Group) : (s.modGroup g f).rspbuf = s.rspbuf := rfl
@[simp] theorem State.modGroup_msix (s : State) (g : Nat) (f : Group → Group) : (s.modGroup g f).msix = s.msix := rfl
@[simp] theorem State.modGroup_capacity (s : State) (g : Nat) (f : Group → Group) : (s.modGroup g f).capacity = s.capacity := rfl
@[simp] theorem State.modGroup_cycle (s : State) (g : Nat) (f : Group → Group) : (s.modGroup g f).cycle = s.cycle := rfl
@[simp] theorem State.modGroup_ticks (s : State) (g : Nat) (f : Group → Group) : (s.modGroup g f).ticks = s.ticks := rfl
@[simp] theorem State.modGroup_cores (s : State) (g : Nat) (f : Group → Group) : (s.modGroup g f).cores = s.cores := rfl
@[simp] theorem State.modGroup_clusters (s : State) (g : Nat) (f : Group → Group) : (s.modGroup g f).clusters = s.clusters := rfl
@[simp] theorem State.modGroup_nodes (s : State) (g : Nat) (f : Group → Group) : (s.modGroup g f).nodes = s.nodes := rfl
@[simp] theorem State.modGroup_pending (s : State) (g : Nat) (f : Group → Group) : (s.modGroup g f).pending = s.pending := rfl
@[simp] theorem State.modGroup_marked (s : State) (g : Nat) (f : Group → Group) : (s.modGroup g f).marked = s.marked := rfl
@[simp] theorem State.modGroup_markHead (s : State) (g : Nat) (f : Group → Group) : (s.modGroup g f).markHead = s.markHead := rfl
@[simp] theorem State.modGroup_nextLseq (s : State) (g : Nat) (f : Group → Group) : (s.modGroup g f).nextLseq = s.nextLseq := rfl
@[simp] theorem State.modGroup_lqs (s : State) (g : Nat) (f : Group → Group) : (s.modGroup g f).lqs = s.lqs := rfl
@[simp] theorem State.modGroup_eqs (s : State) (g : Nat) (f : Group → Group) : (s.modGroup g f).eqs = s.eqs := rfl
@[simp] theorem State.modGroup_els (s : State) (g : Nat) (f : Group → Group) : (s.modGroup g f).els = s.els := rfl
@[simp] theorem State.modGroup_evout (s : State) (g : Nat) (f : Group → Group) : (s.modGroup g f).evout = s.evout := rfl
@[simp] theorem State.modGroup_errs (s : State) (g : Nat) (f : Group → Group) : (s.modGroup g f).errs = s.errs := rfl
@[simp] theorem State.modGroup_errDue (s : State) (g : Nat) (f : Group → Group) : (s.modGroup g f).errDue = s.errDue := rfl
@[simp] theorem State.modGroup_ce (s : State) (g : Nat) (f : Group → Group) : (s.modGroup g f).ce = s.ce := rfl
@[simp] theorem State.modGroup_ue (s : State) (g : Nat) (f : Group → Group) : (s.modGroup g f).ue = s.ue := rfl
@[simp] theorem State.modGroup_elost (s : State) (g : Nat) (f : Group → Group) : (s.modGroup g f).elost = s.elost := rfl
@[simp] theorem State.modGroup_ctxs (s : State) (g : Nat) (f : Group → Group) : (s.modGroup g f).ctxs = s.ctxs := rfl
@[simp] theorem State.modGroup_tables (s : State) (g : Nat) (f : Group → Group) : (s.modGroup g f).tables = s.tables := rfl
@[simp] theorem State.modGroup_nextTable (s : State) (g : Nat) (f : Group → Group) : (s.modGroup g f).nextTable = s.nextTable := rfl
@[simp] theorem State.modGroup_pages (s : State) (g : Nat) (f : Group → Group) : (s.modGroup g f).pages = s.pages := rfl
@[simp] theorem State.modGroup_grains (s : State) (g : Nat) (f : Group → Group) : (s.modGroup g f).grains = s.grains := rfl
@[simp] theorem State.modGroup_gtabs (s : State) (g : Nat) (f : Group → Group) : (s.modGroup g f).gtabs = s.gtabs := rfl
@[simp] theorem State.modGroup_hpend (s : State) (g : Nat) (f : Group → Group) : (s.modGroup g f).hpend = s.hpend := rfl
@[simp] theorem State.modGroup_hwait (s : State) (g : Nat) (f : Group → Group) : (s.modGroup g f).hwait = s.hwait := rfl
@[simp] theorem State.modGroup_homeClaims (s : State) (g : Nat) (f : Group → Group) : (s.modGroup g f).homeClaims = s.homeClaims := rfl
@[simp] theorem State.modGroup_atomTags (s : State) (g : Nat) (f : Group → Group) : (s.modGroup g f).atomTags = s.atomTags := rfl
@[simp] theorem State.modGroup_orphans (s : State) (g : Nat) (f : Group → Group) : (s.modGroup g f).orphans = s.orphans := rfl
@[simp] theorem State.modGroup_commitCopies (s : State) (g : Nat) (f : Group → Group) : (s.modGroup g f).commitCopies = s.commitCopies := rfl
@[simp] theorem State.modGroup_freeTabs (s : State) (g : Nat) (f : Group → Group) : (s.modGroup g f).freeTabs = s.freeTabs := rfl
@[simp] theorem State.modGroup_tabPool (s : State) (g : Nat) (f : Group → Group) : (s.modGroup g f).tabPool = s.tabPool := rfl
@[simp] theorem State.modGroup_gen (s : State) (g : Nat) (f : Group → Group) : (s.modGroup g f).gen = s.gen := rfl
@[simp] theorem State.modGroup_root (s : State) (g : Nat) (f : Group → Group) : (s.modGroup g f).root = s.root := rfl
@[simp] theorem State.modGroup_snaps (s : State) (g : Nat) (f : Group → Group) : (s.modGroup g f).snaps = s.snaps := rfl
@[simp] theorem State.modGroup_replicaRoots (s : State) (g : Nat) (f : Group → Group) : (s.modGroup g f).replicaRoots = s.replicaRoots := rfl
@[simp] theorem State.modGroup_replicas (s : State) (g : Nat) (f : Group → Group) : (s.modGroup g f).replicas = s.replicas := rfl
@[simp] theorem State.modGroup_stagingT (s : State) (g : Nat) (f : Group → Group) : (s.modGroup g f).stagingT = s.stagingT := rfl
@[simp] theorem State.modGroup_segs (s : State) (g : Nat) (f : Group → Group) : (s.modGroup g f).segs = s.segs := rfl
@[simp] theorem State.modGroup_seals (s : State) (g : Nat) (f : Group → Group) : (s.modGroup g f).seals = s.seals := rfl
@[simp] theorem State.modGroup_masks (s : State) (g : Nat) (f : Group → Group) : (s.modGroup g f).masks = s.masks := rfl
@[simp] theorem State.modGroup_dredges (s : State) (g : Nat) (f : Group → Group) : (s.modGroup g f).dredges = s.dredges := rfl
@[simp] theorem State.modGroup_recSeg (s : State) (g : Nat) (f : Group → Group) : (s.modGroup g f).recSeg = s.recSeg := rfl
@[simp] theorem State.modGroup_tableSegs (s : State) (g : Nat) (f : Group → Group) : (s.modGroup g f).tableSegs = s.tableSegs := rfl
@[simp] theorem State.modGroup_pressure (s : State) (g : Nat) (f : Group → Group) : (s.modGroup g f).pressure = s.pressure := rfl
@[simp] theorem State.modGroup_hbm (s : State) (g : Nat) (f : Group → Group) : (s.modGroup g f).hbm = s.hbm := rfl
@[simp] theorem State.modGroup_hbmPoison (s : State) (g : Nat) (f : Group → Group) : (s.modGroup g f).hbmPoison = s.hbmPoison := rfl
@[simp] theorem State.modGroup_hbmFlips (s : State) (g : Nat) (f : Group → Group) : (s.modGroup g f).hbmFlips = s.hbmFlips := rfl
@[simp] theorem State.modGroup_heldWrites (s : State) (g : Nat) (f : Group → Group) : (s.modGroup g f).heldWrites = s.heldWrites := rfl
@[simp] theorem State.modGroup_laneRetries (s : State) (g : Nat) (f : Group → Group) : (s.modGroup g f).laneRetries = s.laneRetries := rfl
@[simp] theorem State.modGroup_lanesUsed (s : State) (g : Nat) (f : Group → Group) : (s.modGroup g f).lanesUsed = s.lanesUsed := rfl
@[simp] theorem State.modGroup_chanRefresh (s : State) (g : Nat) (f : Group → Group) : (s.modGroup g f).chanRefresh = s.chanRefresh := rfl
@[simp] theorem State.modGroup_chans (s : State) (g : Nat) (f : Group → Group) : (s.modGroup g f).chans = s.chans := rfl
@[simp] theorem State.modGroup_scrubRates (s : State) (g : Nat) (f : Group → Group) : (s.modGroup g f).scrubRates = s.scrubRates := rfl
@[simp] theorem State.modGroup_l2 (s : State) (g : Nat) (f : Group → Group) : (s.modGroup g f).l2 = s.l2 := rfl
@[simp] theorem State.modGroup_host (s : State) (g : Nat) (f : Group → Group) : (s.modGroup g f).host = s.host := rfl
@[simp] theorem State.modGroup_hostErr (s : State) (g : Nat) (f : Group → Group) : (s.modGroup g f).hostErr = s.hostErr := rfl
@[simp] theorem State.modGroup_peers (s : State) (g : Nat) (f : Group → Group) : (s.modGroup g f).peers = s.peers := rfl
@[simp] theorem State.modGroup_ports (s : State) (g : Nat) (f : Group → Group) : (s.modGroup g f).ports = s.ports := rfl
@[simp] theorem State.modGroup_serial (s : State) (g : Nat) (f : Group → Group) : (s.modGroup g f).serial = s.serial := rfl
@[simp] theorem State.modGroup_replica (s : State) (g : Nat) (f : Group → Group) : (s.modGroup g f).replica = s.replica := rfl
@[simp] theorem State.modGroup_peerOut (s : State) (g : Nat) (f : Group → Group) : (s.modGroup g f).peerOut = s.peerOut := rfl
@[simp] theorem State.modGroup_peerIn (s : State) (g : Nat) (f : Group → Group) : (s.modGroup g f).peerIn = s.peerIn := rfl
@[simp] theorem State.modGroup_peerReplies (s : State) (g : Nat) (f : Group → Group) : (s.modGroup g f).peerReplies = s.peerReplies := rfl
@[simp] theorem State.modGroup_outflow (s : State) (g : Nat) (f : Group → Group) : (s.modGroup g f).outflow = s.outflow := rfl
@[simp] theorem State.modGroup_outflowSent (s : State) (g : Nat) (f : Group → Group) : (s.modGroup g f).outflowSent = s.outflowSent := rfl
@[simp] theorem State.modGroup_xbars (s : State) (g : Nat) (f : Group → Group) : (s.modGroup g f).xbars = s.xbars := rfl
@[simp] theorem State.modGroup_trial (s : State) (g : Nat) (f : Group → Group) : (s.modGroup g f).trial = s.trial := rfl
@[simp] theorem State.modGroup_runcmp (s : State) (g : Nat) (f : Group → Group) : (s.modGroup g f).runcmp = s.runcmp := rfl
@[simp] theorem State.modGroup_savedGroups (s : State) (g : Nat) (f : Group → Group) : (s.modGroup g f).savedGroups = s.savedGroups := rfl
@[simp] theorem State.modGroup_mesh (s : State) (g : Nat) (f : Group → Group) : (s.modGroup g f).mesh = s.mesh := rfl
@[simp] theorem State.modGroup_shards (s : State) (g : Nat) (f : Group → Group) : (s.modGroup g f).shards = s.shards := rfl
@[simp] theorem State.modGroup_fuseFloor (s : State) (g : Nat) (f : Group → Group) : (s.modGroup g f).fuseFloor = s.fuseFloor := rfl
@[simp] theorem State.modGroup_flashA (s : State) (g : Nat) (f : Group → Group) : (s.modGroup g f).flashA = s.flashA := rfl
@[simp] theorem State.modGroup_flashB (s : State) (g : Nat) (f : Group → Group) : (s.modGroup g f).flashB = s.flashB := rfl
@[simp] theorem State.modGroup_stage1 (s : State) (g : Nat) (f : Group → Group) : (s.modGroup g f).stage1 = s.stage1 := rfl
@[simp] theorem State.modGroup_stage2 (s : State) (g : Nat) (f : Group → Group) : (s.modGroup g f).stage2 = s.stage2 := rfl
@[simp] theorem State.modGroup_startReport (s : State) (g : Nat) (f : Group → Group) : (s.modGroup g f).startReport = s.startReport := rfl
@[simp] theorem State.modGroup_started (s : State) (g : Nat) (f : Group → Group) : (s.modGroup g f).started = s.started := rfl
@[simp] theorem State.modGroup_nextId (s : State) (g : Nat) (f : Group → Group) : (s.modGroup g f).nextId = s.nextId := rfl
@[simp] theorem State.modGroup_fresh (s : State) (g : Nat) (f : Group → Group) : (s.modGroup g f).fresh = s.fresh := rfl
@[simp] theorem State.modGroup_lastCore (s : State) (g : Nat) (f : Group → Group) : (s.modGroup g f).lastCore = s.lastCore := rfl
@[simp] theorem State.modGroup_agenda (s : State) (g : Nat) (f : Group → Group) : (s.modGroup g f).agenda = s.agenda := rfl
@[simp] theorem State.modGroup_cur (s : State) (g : Nat) (f : Group → Group) : (s.modGroup g f).cur = s.cur := rfl
@[simp] theorem State.modGroup_ev (s : State) (g : Nat) (f : Group → Group) : (s.modGroup g f).ev = s.ev := rfl
@[simp] theorem State.modNode_phase (s : State) (n : Nat) (f : Node → Node) : (s.modNode n f).phase = s.phase := rfl
@[simp] theorem State.modNode_tilesUp (s : State) (n : Nat) (f : Node → Node) : (s.modNode n f).tilesUp = s.tilesUp := rfl
@[simp] theorem State.modNode_degraded (s : State) (n : Nat) (f : Node → Node) : (s.modNode n f).degraded = s.degraded := rfl
@[simp] theorem State.modNode_attest (s : State) (n : Nat) (f : Node → Node) : (s.modNode n f).attest = s.attest := rfl
@[simp] theorem State.modNode_fwrej (s : State) (n : Nat) (f : Node → Node) : (s.modNode n f).fwrej = s.fwrej := rfl
@[simp] theorem State.modNode_powered (s : State) (n : Nat) (f : Node → Node) : (s.modNode n f).powered = s.powered := rfl
@[simp] theorem State.modNode_selfTest (s : State) (n : Nat) (f : Node → Node) : (s.modNode n f).selfTest = s.selfTest := rfl
@[simp] theorem State.modNode_tjmax (s : State) (n : Nat) (f : Node → Node) : (s.modNode n f).tjmax = s.tjmax := rfl
@[simp] theorem State.modNode_tinlet (s : State) (n : Nat) (f : Node → Node) : (s.modNode n f).tinlet = s.tinlet := rfl
@[simp] theorem State.modNode_power (s : State) (n : Nat) (f : Node → Node) : (s.modNode n f).power = s.power := rfl
@[simp] theorem State.modNode_throt (s : State) (n : Nat) (f : Node → Node) : (s.modNode n f).throt = s.throt := rfl
@[simp] theorem State.modNode_clock (s : State) (n : Nat) (f : Node → Node) : (s.modNode n f).clock = s.clock := rfl
@[simp] theorem State.modNode_cstate (s : State) (n : Nat) (f : Node → Node) : (s.modNode n f).cstate = s.cstate := rfl
@[simp] theorem State.modNode_cstatus (s : State) (n : Nat) (f : Node → Node) : (s.modNode n f).cstatus = s.cstatus := rfl
@[simp] theorem State.modNode_cseq (s : State) (n : Nat) (f : Node → Node) : (s.modNode n f).cseq = s.cseq := rfl
@[simp] theorem State.modNode_busy (s : State) (n : Nat) (f : Node → Node) : (s.modNode n f).busy = s.busy := rfl
@[simp] theorem State.modNode_cmdbuf (s : State) (n : Nat) (f : Node → Node) : (s.modNode n f).cmdbuf = s.cmdbuf := rfl
@[simp] theorem State.modNode_rspbuf (s : State) (n : Nat) (f : Node → Node) : (s.modNode n f).rspbuf = s.rspbuf := rfl
@[simp] theorem State.modNode_msix (s : State) (n : Nat) (f : Node → Node) : (s.modNode n f).msix = s.msix := rfl
@[simp] theorem State.modNode_capacity (s : State) (n : Nat) (f : Node → Node) : (s.modNode n f).capacity = s.capacity := rfl
@[simp] theorem State.modNode_cycle (s : State) (n : Nat) (f : Node → Node) : (s.modNode n f).cycle = s.cycle := rfl
@[simp] theorem State.modNode_ticks (s : State) (n : Nat) (f : Node → Node) : (s.modNode n f).ticks = s.ticks := rfl
@[simp] theorem State.modNode_cores (s : State) (n : Nat) (f : Node → Node) : (s.modNode n f).cores = s.cores := rfl
@[simp] theorem State.modNode_clusters (s : State) (n : Nat) (f : Node → Node) : (s.modNode n f).clusters = s.clusters := rfl
@[simp] theorem State.modNode_groups (s : State) (n : Nat) (f : Node → Node) : (s.modNode n f).groups = s.groups := rfl
@[simp] theorem State.modNode_pending (s : State) (n : Nat) (f : Node → Node) : (s.modNode n f).pending = s.pending := rfl
@[simp] theorem State.modNode_marked (s : State) (n : Nat) (f : Node → Node) : (s.modNode n f).marked = s.marked := rfl
@[simp] theorem State.modNode_markHead (s : State) (n : Nat) (f : Node → Node) : (s.modNode n f).markHead = s.markHead := rfl
@[simp] theorem State.modNode_nextLseq (s : State) (n : Nat) (f : Node → Node) : (s.modNode n f).nextLseq = s.nextLseq := rfl
@[simp] theorem State.modNode_lqs (s : State) (n : Nat) (f : Node → Node) : (s.modNode n f).lqs = s.lqs := rfl
@[simp] theorem State.modNode_eqs (s : State) (n : Nat) (f : Node → Node) : (s.modNode n f).eqs = s.eqs := rfl
@[simp] theorem State.modNode_els (s : State) (n : Nat) (f : Node → Node) : (s.modNode n f).els = s.els := rfl
@[simp] theorem State.modNode_evout (s : State) (n : Nat) (f : Node → Node) : (s.modNode n f).evout = s.evout := rfl
@[simp] theorem State.modNode_errs (s : State) (n : Nat) (f : Node → Node) : (s.modNode n f).errs = s.errs := rfl
@[simp] theorem State.modNode_errDue (s : State) (n : Nat) (f : Node → Node) : (s.modNode n f).errDue = s.errDue := rfl
@[simp] theorem State.modNode_ce (s : State) (n : Nat) (f : Node → Node) : (s.modNode n f).ce = s.ce := rfl
@[simp] theorem State.modNode_ue (s : State) (n : Nat) (f : Node → Node) : (s.modNode n f).ue = s.ue := rfl
@[simp] theorem State.modNode_elost (s : State) (n : Nat) (f : Node → Node) : (s.modNode n f).elost = s.elost := rfl
@[simp] theorem State.modNode_ctxs (s : State) (n : Nat) (f : Node → Node) : (s.modNode n f).ctxs = s.ctxs := rfl
@[simp] theorem State.modNode_tables (s : State) (n : Nat) (f : Node → Node) : (s.modNode n f).tables = s.tables := rfl
@[simp] theorem State.modNode_nextTable (s : State) (n : Nat) (f : Node → Node) : (s.modNode n f).nextTable = s.nextTable := rfl
@[simp] theorem State.modNode_pages (s : State) (n : Nat) (f : Node → Node) : (s.modNode n f).pages = s.pages := rfl
@[simp] theorem State.modNode_grains (s : State) (n : Nat) (f : Node → Node) : (s.modNode n f).grains = s.grains := rfl
@[simp] theorem State.modNode_gtabs (s : State) (n : Nat) (f : Node → Node) : (s.modNode n f).gtabs = s.gtabs := rfl
@[simp] theorem State.modNode_hpend (s : State) (n : Nat) (f : Node → Node) : (s.modNode n f).hpend = s.hpend := rfl
@[simp] theorem State.modNode_hwait (s : State) (n : Nat) (f : Node → Node) : (s.modNode n f).hwait = s.hwait := rfl
@[simp] theorem State.modNode_homeClaims (s : State) (n : Nat) (f : Node → Node) : (s.modNode n f).homeClaims = s.homeClaims := rfl
@[simp] theorem State.modNode_atomTags (s : State) (n : Nat) (f : Node → Node) : (s.modNode n f).atomTags = s.atomTags := rfl
@[simp] theorem State.modNode_orphans (s : State) (n : Nat) (f : Node → Node) : (s.modNode n f).orphans = s.orphans := rfl
@[simp] theorem State.modNode_commitCopies (s : State) (n : Nat) (f : Node → Node) : (s.modNode n f).commitCopies = s.commitCopies := rfl
@[simp] theorem State.modNode_freeTabs (s : State) (n : Nat) (f : Node → Node) : (s.modNode n f).freeTabs = s.freeTabs := rfl
@[simp] theorem State.modNode_tabPool (s : State) (n : Nat) (f : Node → Node) : (s.modNode n f).tabPool = s.tabPool := rfl
@[simp] theorem State.modNode_gen (s : State) (n : Nat) (f : Node → Node) : (s.modNode n f).gen = s.gen := rfl
@[simp] theorem State.modNode_root (s : State) (n : Nat) (f : Node → Node) : (s.modNode n f).root = s.root := rfl
@[simp] theorem State.modNode_snaps (s : State) (n : Nat) (f : Node → Node) : (s.modNode n f).snaps = s.snaps := rfl
@[simp] theorem State.modNode_replicaRoots (s : State) (n : Nat) (f : Node → Node) : (s.modNode n f).replicaRoots = s.replicaRoots := rfl
@[simp] theorem State.modNode_replicas (s : State) (n : Nat) (f : Node → Node) : (s.modNode n f).replicas = s.replicas := rfl
@[simp] theorem State.modNode_stagingT (s : State) (n : Nat) (f : Node → Node) : (s.modNode n f).stagingT = s.stagingT := rfl
@[simp] theorem State.modNode_segs (s : State) (n : Nat) (f : Node → Node) : (s.modNode n f).segs = s.segs := rfl
@[simp] theorem State.modNode_seals (s : State) (n : Nat) (f : Node → Node) : (s.modNode n f).seals = s.seals := rfl
@[simp] theorem State.modNode_masks (s : State) (n : Nat) (f : Node → Node) : (s.modNode n f).masks = s.masks := rfl
@[simp] theorem State.modNode_dredges (s : State) (n : Nat) (f : Node → Node) : (s.modNode n f).dredges = s.dredges := rfl
@[simp] theorem State.modNode_recSeg (s : State) (n : Nat) (f : Node → Node) : (s.modNode n f).recSeg = s.recSeg := rfl
@[simp] theorem State.modNode_tableSegs (s : State) (n : Nat) (f : Node → Node) : (s.modNode n f).tableSegs = s.tableSegs := rfl
@[simp] theorem State.modNode_pressure (s : State) (n : Nat) (f : Node → Node) : (s.modNode n f).pressure = s.pressure := rfl
@[simp] theorem State.modNode_hbm (s : State) (n : Nat) (f : Node → Node) : (s.modNode n f).hbm = s.hbm := rfl
@[simp] theorem State.modNode_hbmPoison (s : State) (n : Nat) (f : Node → Node) : (s.modNode n f).hbmPoison = s.hbmPoison := rfl
@[simp] theorem State.modNode_hbmFlips (s : State) (n : Nat) (f : Node → Node) : (s.modNode n f).hbmFlips = s.hbmFlips := rfl
@[simp] theorem State.modNode_heldWrites (s : State) (n : Nat) (f : Node → Node) : (s.modNode n f).heldWrites = s.heldWrites := rfl
@[simp] theorem State.modNode_laneRetries (s : State) (n : Nat) (f : Node → Node) : (s.modNode n f).laneRetries = s.laneRetries := rfl
@[simp] theorem State.modNode_lanesUsed (s : State) (n : Nat) (f : Node → Node) : (s.modNode n f).lanesUsed = s.lanesUsed := rfl
@[simp] theorem State.modNode_chanRefresh (s : State) (n : Nat) (f : Node → Node) : (s.modNode n f).chanRefresh = s.chanRefresh := rfl
@[simp] theorem State.modNode_chans (s : State) (n : Nat) (f : Node → Node) : (s.modNode n f).chans = s.chans := rfl
@[simp] theorem State.modNode_scrubRates (s : State) (n : Nat) (f : Node → Node) : (s.modNode n f).scrubRates = s.scrubRates := rfl
@[simp] theorem State.modNode_l2 (s : State) (n : Nat) (f : Node → Node) : (s.modNode n f).l2 = s.l2 := rfl
@[simp] theorem State.modNode_host (s : State) (n : Nat) (f : Node → Node) : (s.modNode n f).host = s.host := rfl
@[simp] theorem State.modNode_hostErr (s : State) (n : Nat) (f : Node → Node) : (s.modNode n f).hostErr = s.hostErr := rfl
@[simp] theorem State.modNode_peers (s : State) (n : Nat) (f : Node → Node) : (s.modNode n f).peers = s.peers := rfl
@[simp] theorem State.modNode_ports (s : State) (n : Nat) (f : Node → Node) : (s.modNode n f).ports = s.ports := rfl
@[simp] theorem State.modNode_serial (s : State) (n : Nat) (f : Node → Node) : (s.modNode n f).serial = s.serial := rfl
@[simp] theorem State.modNode_replica (s : State) (n : Nat) (f : Node → Node) : (s.modNode n f).replica = s.replica := rfl
@[simp] theorem State.modNode_peerOut (s : State) (n : Nat) (f : Node → Node) : (s.modNode n f).peerOut = s.peerOut := rfl
@[simp] theorem State.modNode_peerIn (s : State) (n : Nat) (f : Node → Node) : (s.modNode n f).peerIn = s.peerIn := rfl
@[simp] theorem State.modNode_peerReplies (s : State) (n : Nat) (f : Node → Node) : (s.modNode n f).peerReplies = s.peerReplies := rfl
@[simp] theorem State.modNode_outflow (s : State) (n : Nat) (f : Node → Node) : (s.modNode n f).outflow = s.outflow := rfl
@[simp] theorem State.modNode_outflowSent (s : State) (n : Nat) (f : Node → Node) : (s.modNode n f).outflowSent = s.outflowSent := rfl
@[simp] theorem State.modNode_xbars (s : State) (n : Nat) (f : Node → Node) : (s.modNode n f).xbars = s.xbars := rfl
@[simp] theorem State.modNode_trial (s : State) (n : Nat) (f : Node → Node) : (s.modNode n f).trial = s.trial := rfl
@[simp] theorem State.modNode_runcmp (s : State) (n : Nat) (f : Node → Node) : (s.modNode n f).runcmp = s.runcmp := rfl
@[simp] theorem State.modNode_savedGroups (s : State) (n : Nat) (f : Node → Node) : (s.modNode n f).savedGroups = s.savedGroups := rfl
@[simp] theorem State.modNode_mesh (s : State) (n : Nat) (f : Node → Node) : (s.modNode n f).mesh = s.mesh := rfl
@[simp] theorem State.modNode_shards (s : State) (n : Nat) (f : Node → Node) : (s.modNode n f).shards = s.shards := rfl
@[simp] theorem State.modNode_fuseFloor (s : State) (n : Nat) (f : Node → Node) : (s.modNode n f).fuseFloor = s.fuseFloor := rfl
@[simp] theorem State.modNode_flashA (s : State) (n : Nat) (f : Node → Node) : (s.modNode n f).flashA = s.flashA := rfl
@[simp] theorem State.modNode_flashB (s : State) (n : Nat) (f : Node → Node) : (s.modNode n f).flashB = s.flashB := rfl
@[simp] theorem State.modNode_stage1 (s : State) (n : Nat) (f : Node → Node) : (s.modNode n f).stage1 = s.stage1 := rfl
@[simp] theorem State.modNode_stage2 (s : State) (n : Nat) (f : Node → Node) : (s.modNode n f).stage2 = s.stage2 := rfl
@[simp] theorem State.modNode_startReport (s : State) (n : Nat) (f : Node → Node) : (s.modNode n f).startReport = s.startReport := rfl
@[simp] theorem State.modNode_started (s : State) (n : Nat) (f : Node → Node) : (s.modNode n f).started = s.started := rfl
@[simp] theorem State.modNode_nextId (s : State) (n : Nat) (f : Node → Node) : (s.modNode n f).nextId = s.nextId := rfl
@[simp] theorem State.modNode_fresh (s : State) (n : Nat) (f : Node → Node) : (s.modNode n f).fresh = s.fresh := rfl
@[simp] theorem State.modNode_lastCore (s : State) (n : Nat) (f : Node → Node) : (s.modNode n f).lastCore = s.lastCore := rfl
@[simp] theorem State.modNode_agenda (s : State) (n : Nat) (f : Node → Node) : (s.modNode n f).agenda = s.agenda := rfl
@[simp] theorem State.modNode_cur (s : State) (n : Nat) (f : Node → Node) : (s.modNode n f).cur = s.cur := rfl
@[simp] theorem State.modNode_ev (s : State) (n : Nat) (f : Node → Node) : (s.modNode n f).ev = s.ev := rfl
@[simp] theorem State.modCtx_phase (s : State) (t : Nat) (f : Ctx → Ctx) : (s.modCtx t f).phase = s.phase := rfl
@[simp] theorem State.modCtx_tilesUp (s : State) (t : Nat) (f : Ctx → Ctx) : (s.modCtx t f).tilesUp = s.tilesUp := rfl
@[simp] theorem State.modCtx_degraded (s : State) (t : Nat) (f : Ctx → Ctx) : (s.modCtx t f).degraded = s.degraded := rfl
@[simp] theorem State.modCtx_attest (s : State) (t : Nat) (f : Ctx → Ctx) : (s.modCtx t f).attest = s.attest := rfl
@[simp] theorem State.modCtx_fwrej (s : State) (t : Nat) (f : Ctx → Ctx) : (s.modCtx t f).fwrej = s.fwrej := rfl
@[simp] theorem State.modCtx_powered (s : State) (t : Nat) (f : Ctx → Ctx) : (s.modCtx t f).powered = s.powered := rfl
@[simp] theorem State.modCtx_selfTest (s : State) (t : Nat) (f : Ctx → Ctx) : (s.modCtx t f).selfTest = s.selfTest := rfl
@[simp] theorem State.modCtx_tjmax (s : State) (t : Nat) (f : Ctx → Ctx) : (s.modCtx t f).tjmax = s.tjmax := rfl
@[simp] theorem State.modCtx_tinlet (s : State) (t : Nat) (f : Ctx → Ctx) : (s.modCtx t f).tinlet = s.tinlet := rfl
@[simp] theorem State.modCtx_power (s : State) (t : Nat) (f : Ctx → Ctx) : (s.modCtx t f).power = s.power := rfl
@[simp] theorem State.modCtx_throt (s : State) (t : Nat) (f : Ctx → Ctx) : (s.modCtx t f).throt = s.throt := rfl
@[simp] theorem State.modCtx_clock (s : State) (t : Nat) (f : Ctx → Ctx) : (s.modCtx t f).clock = s.clock := rfl
@[simp] theorem State.modCtx_cstate (s : State) (t : Nat) (f : Ctx → Ctx) : (s.modCtx t f).cstate = s.cstate := rfl
@[simp] theorem State.modCtx_cstatus (s : State) (t : Nat) (f : Ctx → Ctx) : (s.modCtx t f).cstatus = s.cstatus := rfl
@[simp] theorem State.modCtx_cseq (s : State) (t : Nat) (f : Ctx → Ctx) : (s.modCtx t f).cseq = s.cseq := rfl
@[simp] theorem State.modCtx_busy (s : State) (t : Nat) (f : Ctx → Ctx) : (s.modCtx t f).busy = s.busy := rfl
@[simp] theorem State.modCtx_cmdbuf (s : State) (t : Nat) (f : Ctx → Ctx) : (s.modCtx t f).cmdbuf = s.cmdbuf := rfl
@[simp] theorem State.modCtx_rspbuf (s : State) (t : Nat) (f : Ctx → Ctx) : (s.modCtx t f).rspbuf = s.rspbuf := rfl
@[simp] theorem State.modCtx_msix (s : State) (t : Nat) (f : Ctx → Ctx) : (s.modCtx t f).msix = s.msix := rfl
@[simp] theorem State.modCtx_capacity (s : State) (t : Nat) (f : Ctx → Ctx) : (s.modCtx t f).capacity = s.capacity := rfl
@[simp] theorem State.modCtx_cycle (s : State) (t : Nat) (f : Ctx → Ctx) : (s.modCtx t f).cycle = s.cycle := rfl
@[simp] theorem State.modCtx_ticks (s : State) (t : Nat) (f : Ctx → Ctx) : (s.modCtx t f).ticks = s.ticks := rfl
@[simp] theorem State.modCtx_cores (s : State) (t : Nat) (f : Ctx → Ctx) : (s.modCtx t f).cores = s.cores := rfl
@[simp] theorem State.modCtx_clusters (s : State) (t : Nat) (f : Ctx → Ctx) : (s.modCtx t f).clusters = s.clusters := rfl
@[simp] theorem State.modCtx_groups (s : State) (t : Nat) (f : Ctx → Ctx) : (s.modCtx t f).groups = s.groups := rfl
@[simp] theorem State.modCtx_nodes (s : State) (t : Nat) (f : Ctx → Ctx) : (s.modCtx t f).nodes = s.nodes := rfl
@[simp] theorem State.modCtx_pending (s : State) (t : Nat) (f : Ctx → Ctx) : (s.modCtx t f).pending = s.pending := rfl
@[simp] theorem State.modCtx_marked (s : State) (t : Nat) (f : Ctx → Ctx) : (s.modCtx t f).marked = s.marked := rfl
@[simp] theorem State.modCtx_markHead (s : State) (t : Nat) (f : Ctx → Ctx) : (s.modCtx t f).markHead = s.markHead := rfl
@[simp] theorem State.modCtx_nextLseq (s : State) (t : Nat) (f : Ctx → Ctx) : (s.modCtx t f).nextLseq = s.nextLseq := rfl
@[simp] theorem State.modCtx_lqs (s : State) (t : Nat) (f : Ctx → Ctx) : (s.modCtx t f).lqs = s.lqs := rfl
@[simp] theorem State.modCtx_eqs (s : State) (t : Nat) (f : Ctx → Ctx) : (s.modCtx t f).eqs = s.eqs := rfl
@[simp] theorem State.modCtx_els (s : State) (t : Nat) (f : Ctx → Ctx) : (s.modCtx t f).els = s.els := rfl
@[simp] theorem State.modCtx_evout (s : State) (t : Nat) (f : Ctx → Ctx) : (s.modCtx t f).evout = s.evout := rfl
@[simp] theorem State.modCtx_errs (s : State) (t : Nat) (f : Ctx → Ctx) : (s.modCtx t f).errs = s.errs := rfl
@[simp] theorem State.modCtx_errDue (s : State) (t : Nat) (f : Ctx → Ctx) : (s.modCtx t f).errDue = s.errDue := rfl
@[simp] theorem State.modCtx_ce (s : State) (t : Nat) (f : Ctx → Ctx) : (s.modCtx t f).ce = s.ce := rfl
@[simp] theorem State.modCtx_ue (s : State) (t : Nat) (f : Ctx → Ctx) : (s.modCtx t f).ue = s.ue := rfl
@[simp] theorem State.modCtx_elost (s : State) (t : Nat) (f : Ctx → Ctx) : (s.modCtx t f).elost = s.elost := rfl
@[simp] theorem State.modCtx_tables (s : State) (t : Nat) (f : Ctx → Ctx) : (s.modCtx t f).tables = s.tables := rfl
@[simp] theorem State.modCtx_nextTable (s : State) (t : Nat) (f : Ctx → Ctx) : (s.modCtx t f).nextTable = s.nextTable := rfl
@[simp] theorem State.modCtx_pages (s : State) (t : Nat) (f : Ctx → Ctx) : (s.modCtx t f).pages = s.pages := rfl
@[simp] theorem State.modCtx_grains (s : State) (t : Nat) (f : Ctx → Ctx) : (s.modCtx t f).grains = s.grains := rfl
@[simp] theorem State.modCtx_gtabs (s : State) (t : Nat) (f : Ctx → Ctx) : (s.modCtx t f).gtabs = s.gtabs := rfl
@[simp] theorem State.modCtx_hpend (s : State) (t : Nat) (f : Ctx → Ctx) : (s.modCtx t f).hpend = s.hpend := rfl
@[simp] theorem State.modCtx_hwait (s : State) (t : Nat) (f : Ctx → Ctx) : (s.modCtx t f).hwait = s.hwait := rfl
@[simp] theorem State.modCtx_homeClaims (s : State) (t : Nat) (f : Ctx → Ctx) : (s.modCtx t f).homeClaims = s.homeClaims := rfl
@[simp] theorem State.modCtx_atomTags (s : State) (t : Nat) (f : Ctx → Ctx) : (s.modCtx t f).atomTags = s.atomTags := rfl
@[simp] theorem State.modCtx_orphans (s : State) (t : Nat) (f : Ctx → Ctx) : (s.modCtx t f).orphans = s.orphans := rfl
@[simp] theorem State.modCtx_commitCopies (s : State) (t : Nat) (f : Ctx → Ctx) : (s.modCtx t f).commitCopies = s.commitCopies := rfl
@[simp] theorem State.modCtx_freeTabs (s : State) (t : Nat) (f : Ctx → Ctx) : (s.modCtx t f).freeTabs = s.freeTabs := rfl
@[simp] theorem State.modCtx_tabPool (s : State) (t : Nat) (f : Ctx → Ctx) : (s.modCtx t f).tabPool = s.tabPool := rfl
@[simp] theorem State.modCtx_gen (s : State) (t : Nat) (f : Ctx → Ctx) : (s.modCtx t f).gen = s.gen := rfl
@[simp] theorem State.modCtx_root (s : State) (t : Nat) (f : Ctx → Ctx) : (s.modCtx t f).root = s.root := rfl
@[simp] theorem State.modCtx_snaps (s : State) (t : Nat) (f : Ctx → Ctx) : (s.modCtx t f).snaps = s.snaps := rfl
@[simp] theorem State.modCtx_replicaRoots (s : State) (t : Nat) (f : Ctx → Ctx) : (s.modCtx t f).replicaRoots = s.replicaRoots := rfl
@[simp] theorem State.modCtx_replicas (s : State) (t : Nat) (f : Ctx → Ctx) : (s.modCtx t f).replicas = s.replicas := rfl
@[simp] theorem State.modCtx_stagingT (s : State) (t : Nat) (f : Ctx → Ctx) : (s.modCtx t f).stagingT = s.stagingT := rfl
@[simp] theorem State.modCtx_segs (s : State) (t : Nat) (f : Ctx → Ctx) : (s.modCtx t f).segs = s.segs := rfl
@[simp] theorem State.modCtx_seals (s : State) (t : Nat) (f : Ctx → Ctx) : (s.modCtx t f).seals = s.seals := rfl
@[simp] theorem State.modCtx_masks (s : State) (t : Nat) (f : Ctx → Ctx) : (s.modCtx t f).masks = s.masks := rfl
@[simp] theorem State.modCtx_dredges (s : State) (t : Nat) (f : Ctx → Ctx) : (s.modCtx t f).dredges = s.dredges := rfl
@[simp] theorem State.modCtx_recSeg (s : State) (t : Nat) (f : Ctx → Ctx) : (s.modCtx t f).recSeg = s.recSeg := rfl
@[simp] theorem State.modCtx_tableSegs (s : State) (t : Nat) (f : Ctx → Ctx) : (s.modCtx t f).tableSegs = s.tableSegs := rfl
@[simp] theorem State.modCtx_pressure (s : State) (t : Nat) (f : Ctx → Ctx) : (s.modCtx t f).pressure = s.pressure := rfl
@[simp] theorem State.modCtx_hbm (s : State) (t : Nat) (f : Ctx → Ctx) : (s.modCtx t f).hbm = s.hbm := rfl
@[simp] theorem State.modCtx_hbmPoison (s : State) (t : Nat) (f : Ctx → Ctx) : (s.modCtx t f).hbmPoison = s.hbmPoison := rfl
@[simp] theorem State.modCtx_hbmFlips (s : State) (t : Nat) (f : Ctx → Ctx) : (s.modCtx t f).hbmFlips = s.hbmFlips := rfl
@[simp] theorem State.modCtx_heldWrites (s : State) (t : Nat) (f : Ctx → Ctx) : (s.modCtx t f).heldWrites = s.heldWrites := rfl
@[simp] theorem State.modCtx_laneRetries (s : State) (t : Nat) (f : Ctx → Ctx) : (s.modCtx t f).laneRetries = s.laneRetries := rfl
@[simp] theorem State.modCtx_lanesUsed (s : State) (t : Nat) (f : Ctx → Ctx) : (s.modCtx t f).lanesUsed = s.lanesUsed := rfl
@[simp] theorem State.modCtx_chanRefresh (s : State) (t : Nat) (f : Ctx → Ctx) : (s.modCtx t f).chanRefresh = s.chanRefresh := rfl
@[simp] theorem State.modCtx_chans (s : State) (t : Nat) (f : Ctx → Ctx) : (s.modCtx t f).chans = s.chans := rfl
@[simp] theorem State.modCtx_scrubRates (s : State) (t : Nat) (f : Ctx → Ctx) : (s.modCtx t f).scrubRates = s.scrubRates := rfl
@[simp] theorem State.modCtx_l2 (s : State) (t : Nat) (f : Ctx → Ctx) : (s.modCtx t f).l2 = s.l2 := rfl
@[simp] theorem State.modCtx_host (s : State) (t : Nat) (f : Ctx → Ctx) : (s.modCtx t f).host = s.host := rfl
@[simp] theorem State.modCtx_hostErr (s : State) (t : Nat) (f : Ctx → Ctx) : (s.modCtx t f).hostErr = s.hostErr := rfl
@[simp] theorem State.modCtx_peers (s : State) (t : Nat) (f : Ctx → Ctx) : (s.modCtx t f).peers = s.peers := rfl
@[simp] theorem State.modCtx_ports (s : State) (t : Nat) (f : Ctx → Ctx) : (s.modCtx t f).ports = s.ports := rfl
@[simp] theorem State.modCtx_serial (s : State) (t : Nat) (f : Ctx → Ctx) : (s.modCtx t f).serial = s.serial := rfl
@[simp] theorem State.modCtx_replica (s : State) (t : Nat) (f : Ctx → Ctx) : (s.modCtx t f).replica = s.replica := rfl
@[simp] theorem State.modCtx_peerOut (s : State) (t : Nat) (f : Ctx → Ctx) : (s.modCtx t f).peerOut = s.peerOut := rfl
@[simp] theorem State.modCtx_peerIn (s : State) (t : Nat) (f : Ctx → Ctx) : (s.modCtx t f).peerIn = s.peerIn := rfl
@[simp] theorem State.modCtx_peerReplies (s : State) (t : Nat) (f : Ctx → Ctx) : (s.modCtx t f).peerReplies = s.peerReplies := rfl
@[simp] theorem State.modCtx_outflow (s : State) (t : Nat) (f : Ctx → Ctx) : (s.modCtx t f).outflow = s.outflow := rfl
@[simp] theorem State.modCtx_outflowSent (s : State) (t : Nat) (f : Ctx → Ctx) : (s.modCtx t f).outflowSent = s.outflowSent := rfl
@[simp] theorem State.modCtx_xbars (s : State) (t : Nat) (f : Ctx → Ctx) : (s.modCtx t f).xbars = s.xbars := rfl
@[simp] theorem State.modCtx_trial (s : State) (t : Nat) (f : Ctx → Ctx) : (s.modCtx t f).trial = s.trial := rfl
@[simp] theorem State.modCtx_runcmp (s : State) (t : Nat) (f : Ctx → Ctx) : (s.modCtx t f).runcmp = s.runcmp := rfl
@[simp] theorem State.modCtx_savedGroups (s : State) (t : Nat) (f : Ctx → Ctx) : (s.modCtx t f).savedGroups = s.savedGroups := rfl
@[simp] theorem State.modCtx_mesh (s : State) (t : Nat) (f : Ctx → Ctx) : (s.modCtx t f).mesh = s.mesh := rfl
@[simp] theorem State.modCtx_shards (s : State) (t : Nat) (f : Ctx → Ctx) : (s.modCtx t f).shards = s.shards := rfl
@[simp] theorem State.modCtx_fuseFloor (s : State) (t : Nat) (f : Ctx → Ctx) : (s.modCtx t f).fuseFloor = s.fuseFloor := rfl
@[simp] theorem State.modCtx_flashA (s : State) (t : Nat) (f : Ctx → Ctx) : (s.modCtx t f).flashA = s.flashA := rfl
@[simp] theorem State.modCtx_flashB (s : State) (t : Nat) (f : Ctx → Ctx) : (s.modCtx t f).flashB = s.flashB := rfl
@[simp] theorem State.modCtx_stage1 (s : State) (t : Nat) (f : Ctx → Ctx) : (s.modCtx t f).stage1 = s.stage1 := rfl
@[simp] theorem State.modCtx_stage2 (s : State) (t : Nat) (f : Ctx → Ctx) : (s.modCtx t f).stage2 = s.stage2 := rfl
@[simp] theorem State.modCtx_startReport (s : State) (t : Nat) (f : Ctx → Ctx) : (s.modCtx t f).startReport = s.startReport := rfl
@[simp] theorem State.modCtx_started (s : State) (t : Nat) (f : Ctx → Ctx) : (s.modCtx t f).started = s.started := rfl
@[simp] theorem State.modCtx_nextId (s : State) (t : Nat) (f : Ctx → Ctx) : (s.modCtx t f).nextId = s.nextId := rfl
@[simp] theorem State.modCtx_fresh (s : State) (t : Nat) (f : Ctx → Ctx) : (s.modCtx t f).fresh = s.fresh := rfl
@[simp] theorem State.modCtx_lastCore (s : State) (t : Nat) (f : Ctx → Ctx) : (s.modCtx t f).lastCore = s.lastCore := rfl
@[simp] theorem State.modCtx_agenda (s : State) (t : Nat) (f : Ctx → Ctx) : (s.modCtx t f).agenda = s.agenda := rfl
@[simp] theorem State.modCtx_cur (s : State) (t : Nat) (f : Ctx → Ctx) : (s.modCtx t f).cur = s.cur := rfl
@[simp] theorem State.modCtx_ev (s : State) (t : Nat) (f : Ctx → Ctx) : (s.modCtx t f).ev = s.ev := rfl
@[simp] theorem State.modCluster_phase (s : State) (k : Nat) (f : Cluster → Cluster) : (s.modCluster k f).phase = s.phase := rfl
@[simp] theorem State.modCluster_tilesUp (s : State) (k : Nat) (f : Cluster → Cluster) : (s.modCluster k f).tilesUp = s.tilesUp := rfl
@[simp] theorem State.modCluster_degraded (s : State) (k : Nat) (f : Cluster → Cluster) : (s.modCluster k f).degraded = s.degraded := rfl
@[simp] theorem State.modCluster_attest (s : State) (k : Nat) (f : Cluster → Cluster) : (s.modCluster k f).attest = s.attest := rfl
@[simp] theorem State.modCluster_fwrej (s : State) (k : Nat) (f : Cluster → Cluster) : (s.modCluster k f).fwrej = s.fwrej := rfl
@[simp] theorem State.modCluster_powered (s : State) (k : Nat) (f : Cluster → Cluster) : (s.modCluster k f).powered = s.powered := rfl
@[simp] theorem State.modCluster_selfTest (s : State) (k : Nat) (f : Cluster → Cluster) : (s.modCluster k f).selfTest = s.selfTest := rfl
@[simp] theorem State.modCluster_tjmax (s : State) (k : Nat) (f : Cluster → Cluster) : (s.modCluster k f).tjmax = s.tjmax := rfl
@[simp] theorem State.modCluster_tinlet (s : State) (k : Nat) (f : Cluster → Cluster) : (s.modCluster k f).tinlet = s.tinlet := rfl
@[simp] theorem State.modCluster_power (s : State) (k : Nat) (f : Cluster → Cluster) : (s.modCluster k f).power = s.power := rfl
@[simp] theorem State.modCluster_throt (s : State) (k : Nat) (f : Cluster → Cluster) : (s.modCluster k f).throt = s.throt := rfl
@[simp] theorem State.modCluster_clock (s : State) (k : Nat) (f : Cluster → Cluster) : (s.modCluster k f).clock = s.clock := rfl
@[simp] theorem State.modCluster_cstate (s : State) (k : Nat) (f : Cluster → Cluster) : (s.modCluster k f).cstate = s.cstate := rfl
@[simp] theorem State.modCluster_cstatus (s : State) (k : Nat) (f : Cluster → Cluster) : (s.modCluster k f).cstatus = s.cstatus := rfl
@[simp] theorem State.modCluster_cseq (s : State) (k : Nat) (f : Cluster → Cluster) : (s.modCluster k f).cseq = s.cseq := rfl
@[simp] theorem State.modCluster_busy (s : State) (k : Nat) (f : Cluster → Cluster) : (s.modCluster k f).busy = s.busy := rfl
@[simp] theorem State.modCluster_cmdbuf (s : State) (k : Nat) (f : Cluster → Cluster) : (s.modCluster k f).cmdbuf = s.cmdbuf := rfl
@[simp] theorem State.modCluster_rspbuf (s : State) (k : Nat) (f : Cluster → Cluster) : (s.modCluster k f).rspbuf = s.rspbuf := rfl
@[simp] theorem State.modCluster_msix (s : State) (k : Nat) (f : Cluster → Cluster) : (s.modCluster k f).msix = s.msix := rfl
@[simp] theorem State.modCluster_capacity (s : State) (k : Nat) (f : Cluster → Cluster) : (s.modCluster k f).capacity = s.capacity := rfl
@[simp] theorem State.modCluster_cycle (s : State) (k : Nat) (f : Cluster → Cluster) : (s.modCluster k f).cycle = s.cycle := rfl
@[simp] theorem State.modCluster_ticks (s : State) (k : Nat) (f : Cluster → Cluster) : (s.modCluster k f).ticks = s.ticks := rfl
@[simp] theorem State.modCluster_cores (s : State) (k : Nat) (f : Cluster → Cluster) : (s.modCluster k f).cores = s.cores := rfl
@[simp] theorem State.modCluster_groups (s : State) (k : Nat) (f : Cluster → Cluster) : (s.modCluster k f).groups = s.groups := rfl
@[simp] theorem State.modCluster_nodes (s : State) (k : Nat) (f : Cluster → Cluster) : (s.modCluster k f).nodes = s.nodes := rfl
@[simp] theorem State.modCluster_pending (s : State) (k : Nat) (f : Cluster → Cluster) : (s.modCluster k f).pending = s.pending := rfl
@[simp] theorem State.modCluster_marked (s : State) (k : Nat) (f : Cluster → Cluster) : (s.modCluster k f).marked = s.marked := rfl
@[simp] theorem State.modCluster_markHead (s : State) (k : Nat) (f : Cluster → Cluster) : (s.modCluster k f).markHead = s.markHead := rfl
@[simp] theorem State.modCluster_nextLseq (s : State) (k : Nat) (f : Cluster → Cluster) : (s.modCluster k f).nextLseq = s.nextLseq := rfl
@[simp] theorem State.modCluster_lqs (s : State) (k : Nat) (f : Cluster → Cluster) : (s.modCluster k f).lqs = s.lqs := rfl
@[simp] theorem State.modCluster_eqs (s : State) (k : Nat) (f : Cluster → Cluster) : (s.modCluster k f).eqs = s.eqs := rfl
@[simp] theorem State.modCluster_els (s : State) (k : Nat) (f : Cluster → Cluster) : (s.modCluster k f).els = s.els := rfl
@[simp] theorem State.modCluster_evout (s : State) (k : Nat) (f : Cluster → Cluster) : (s.modCluster k f).evout = s.evout := rfl
@[simp] theorem State.modCluster_errs (s : State) (k : Nat) (f : Cluster → Cluster) : (s.modCluster k f).errs = s.errs := rfl
@[simp] theorem State.modCluster_errDue (s : State) (k : Nat) (f : Cluster → Cluster) : (s.modCluster k f).errDue = s.errDue := rfl
@[simp] theorem State.modCluster_ce (s : State) (k : Nat) (f : Cluster → Cluster) : (s.modCluster k f).ce = s.ce := rfl
@[simp] theorem State.modCluster_ue (s : State) (k : Nat) (f : Cluster → Cluster) : (s.modCluster k f).ue = s.ue := rfl
@[simp] theorem State.modCluster_elost (s : State) (k : Nat) (f : Cluster → Cluster) : (s.modCluster k f).elost = s.elost := rfl
@[simp] theorem State.modCluster_ctxs (s : State) (k : Nat) (f : Cluster → Cluster) : (s.modCluster k f).ctxs = s.ctxs := rfl
@[simp] theorem State.modCluster_tables (s : State) (k : Nat) (f : Cluster → Cluster) : (s.modCluster k f).tables = s.tables := rfl
@[simp] theorem State.modCluster_nextTable (s : State) (k : Nat) (f : Cluster → Cluster) : (s.modCluster k f).nextTable = s.nextTable := rfl
@[simp] theorem State.modCluster_pages (s : State) (k : Nat) (f : Cluster → Cluster) : (s.modCluster k f).pages = s.pages := rfl
@[simp] theorem State.modCluster_grains (s : State) (k : Nat) (f : Cluster → Cluster) : (s.modCluster k f).grains = s.grains := rfl
@[simp] theorem State.modCluster_gtabs (s : State) (k : Nat) (f : Cluster → Cluster) : (s.modCluster k f).gtabs = s.gtabs := rfl
@[simp] theorem State.modCluster_hpend (s : State) (k : Nat) (f : Cluster → Cluster) : (s.modCluster k f).hpend = s.hpend := rfl
@[simp] theorem State.modCluster_hwait (s : State) (k : Nat) (f : Cluster → Cluster) : (s.modCluster k f).hwait = s.hwait := rfl
@[simp] theorem State.modCluster_homeClaims (s : State) (k : Nat) (f : Cluster → Cluster) : (s.modCluster k f).homeClaims = s.homeClaims := rfl
@[simp] theorem State.modCluster_atomTags (s : State) (k : Nat) (f : Cluster → Cluster) : (s.modCluster k f).atomTags = s.atomTags := rfl
@[simp] theorem State.modCluster_orphans (s : State) (k : Nat) (f : Cluster → Cluster) : (s.modCluster k f).orphans = s.orphans := rfl
@[simp] theorem State.modCluster_commitCopies (s : State) (k : Nat) (f : Cluster → Cluster) : (s.modCluster k f).commitCopies = s.commitCopies := rfl
@[simp] theorem State.modCluster_freeTabs (s : State) (k : Nat) (f : Cluster → Cluster) : (s.modCluster k f).freeTabs = s.freeTabs := rfl
@[simp] theorem State.modCluster_tabPool (s : State) (k : Nat) (f : Cluster → Cluster) : (s.modCluster k f).tabPool = s.tabPool := rfl
@[simp] theorem State.modCluster_gen (s : State) (k : Nat) (f : Cluster → Cluster) : (s.modCluster k f).gen = s.gen := rfl
@[simp] theorem State.modCluster_root (s : State) (k : Nat) (f : Cluster → Cluster) : (s.modCluster k f).root = s.root := rfl
@[simp] theorem State.modCluster_snaps (s : State) (k : Nat) (f : Cluster → Cluster) : (s.modCluster k f).snaps = s.snaps := rfl
@[simp] theorem State.modCluster_replicaRoots (s : State) (k : Nat) (f : Cluster → Cluster) : (s.modCluster k f).replicaRoots = s.replicaRoots := rfl
@[simp] theorem State.modCluster_replicas (s : State) (k : Nat) (f : Cluster → Cluster) : (s.modCluster k f).replicas = s.replicas := rfl
@[simp] theorem State.modCluster_stagingT (s : State) (k : Nat) (f : Cluster → Cluster) : (s.modCluster k f).stagingT = s.stagingT := rfl
@[simp] theorem State.modCluster_segs (s : State) (k : Nat) (f : Cluster → Cluster) : (s.modCluster k f).segs = s.segs := rfl
@[simp] theorem State.modCluster_seals (s : State) (k : Nat) (f : Cluster → Cluster) : (s.modCluster k f).seals = s.seals := rfl
@[simp] theorem State.modCluster_masks (s : State) (k : Nat) (f : Cluster → Cluster) : (s.modCluster k f).masks = s.masks := rfl
@[simp] theorem State.modCluster_dredges (s : State) (k : Nat) (f : Cluster → Cluster) : (s.modCluster k f).dredges = s.dredges := rfl
@[simp] theorem State.modCluster_recSeg (s : State) (k : Nat) (f : Cluster → Cluster) : (s.modCluster k f).recSeg = s.recSeg := rfl
@[simp] theorem State.modCluster_tableSegs (s : State) (k : Nat) (f : Cluster → Cluster) : (s.modCluster k f).tableSegs = s.tableSegs := rfl
@[simp] theorem State.modCluster_pressure (s : State) (k : Nat) (f : Cluster → Cluster) : (s.modCluster k f).pressure = s.pressure := rfl
@[simp] theorem State.modCluster_hbm (s : State) (k : Nat) (f : Cluster → Cluster) : (s.modCluster k f).hbm = s.hbm := rfl
@[simp] theorem State.modCluster_hbmPoison (s : State) (k : Nat) (f : Cluster → Cluster) : (s.modCluster k f).hbmPoison = s.hbmPoison := rfl
@[simp] theorem State.modCluster_hbmFlips (s : State) (k : Nat) (f : Cluster → Cluster) : (s.modCluster k f).hbmFlips = s.hbmFlips := rfl
@[simp] theorem State.modCluster_heldWrites (s : State) (k : Nat) (f : Cluster → Cluster) : (s.modCluster k f).heldWrites = s.heldWrites := rfl
@[simp] theorem State.modCluster_laneRetries (s : State) (k : Nat) (f : Cluster → Cluster) : (s.modCluster k f).laneRetries = s.laneRetries := rfl
@[simp] theorem State.modCluster_lanesUsed (s : State) (k : Nat) (f : Cluster → Cluster) : (s.modCluster k f).lanesUsed = s.lanesUsed := rfl
@[simp] theorem State.modCluster_chanRefresh (s : State) (k : Nat) (f : Cluster → Cluster) : (s.modCluster k f).chanRefresh = s.chanRefresh := rfl
@[simp] theorem State.modCluster_chans (s : State) (k : Nat) (f : Cluster → Cluster) : (s.modCluster k f).chans = s.chans := rfl
@[simp] theorem State.modCluster_scrubRates (s : State) (k : Nat) (f : Cluster → Cluster) : (s.modCluster k f).scrubRates = s.scrubRates := rfl
@[simp] theorem State.modCluster_l2 (s : State) (k : Nat) (f : Cluster → Cluster) : (s.modCluster k f).l2 = s.l2 := rfl
@[simp] theorem State.modCluster_host (s : State) (k : Nat) (f : Cluster → Cluster) : (s.modCluster k f).host = s.host := rfl
@[simp] theorem State.modCluster_hostErr (s : State) (k : Nat) (f : Cluster → Cluster) : (s.modCluster k f).hostErr = s.hostErr := rfl
@[simp] theorem State.modCluster_peers (s : State) (k : Nat) (f : Cluster → Cluster) : (s.modCluster k f).peers = s.peers := rfl
@[simp] theorem State.modCluster_ports (s : State) (k : Nat) (f : Cluster → Cluster) : (s.modCluster k f).ports = s.ports := rfl
@[simp] theorem State.modCluster_serial (s : State) (k : Nat) (f : Cluster → Cluster) : (s.modCluster k f).serial = s.serial := rfl
@[simp] theorem State.modCluster_replica (s : State) (k : Nat) (f : Cluster → Cluster) : (s.modCluster k f).replica = s.replica := rfl
@[simp] theorem State.modCluster_peerOut (s : State) (k : Nat) (f : Cluster → Cluster) : (s.modCluster k f).peerOut = s.peerOut := rfl
@[simp] theorem State.modCluster_peerIn (s : State) (k : Nat) (f : Cluster → Cluster) : (s.modCluster k f).peerIn = s.peerIn := rfl
@[simp] theorem State.modCluster_peerReplies (s : State) (k : Nat) (f : Cluster → Cluster) : (s.modCluster k f).peerReplies = s.peerReplies := rfl
@[simp] theorem State.modCluster_outflow (s : State) (k : Nat) (f : Cluster → Cluster) : (s.modCluster k f).outflow = s.outflow := rfl
@[simp] theorem State.modCluster_outflowSent (s : State) (k : Nat) (f : Cluster → Cluster) : (s.modCluster k f).outflowSent = s.outflowSent := rfl
@[simp] theorem State.modCluster_xbars (s : State) (k : Nat) (f : Cluster → Cluster) : (s.modCluster k f).xbars = s.xbars := rfl
@[simp] theorem State.modCluster_trial (s : State) (k : Nat) (f : Cluster → Cluster) : (s.modCluster k f).trial = s.trial := rfl
@[simp] theorem State.modCluster_runcmp (s : State) (k : Nat) (f : Cluster → Cluster) : (s.modCluster k f).runcmp = s.runcmp := rfl
@[simp] theorem State.modCluster_savedGroups (s : State) (k : Nat) (f : Cluster → Cluster) : (s.modCluster k f).savedGroups = s.savedGroups := rfl
@[simp] theorem State.modCluster_mesh (s : State) (k : Nat) (f : Cluster → Cluster) : (s.modCluster k f).mesh = s.mesh := rfl
@[simp] theorem State.modCluster_shards (s : State) (k : Nat) (f : Cluster → Cluster) : (s.modCluster k f).shards = s.shards := rfl
@[simp] theorem State.modCluster_fuseFloor (s : State) (k : Nat) (f : Cluster → Cluster) : (s.modCluster k f).fuseFloor = s.fuseFloor := rfl
@[simp] theorem State.modCluster_flashA (s : State) (k : Nat) (f : Cluster → Cluster) : (s.modCluster k f).flashA = s.flashA := rfl
@[simp] theorem State.modCluster_flashB (s : State) (k : Nat) (f : Cluster → Cluster) : (s.modCluster k f).flashB = s.flashB := rfl
@[simp] theorem State.modCluster_stage1 (s : State) (k : Nat) (f : Cluster → Cluster) : (s.modCluster k f).stage1 = s.stage1 := rfl
@[simp] theorem State.modCluster_stage2 (s : State) (k : Nat) (f : Cluster → Cluster) : (s.modCluster k f).stage2 = s.stage2 := rfl
@[simp] theorem State.modCluster_startReport (s : State) (k : Nat) (f : Cluster → Cluster) : (s.modCluster k f).startReport = s.startReport := rfl
@[simp] theorem State.modCluster_started (s : State) (k : Nat) (f : Cluster → Cluster) : (s.modCluster k f).started = s.started := rfl
@[simp] theorem State.modCluster_nextId (s : State) (k : Nat) (f : Cluster → Cluster) : (s.modCluster k f).nextId = s.nextId := rfl
@[simp] theorem State.modCluster_fresh (s : State) (k : Nat) (f : Cluster → Cluster) : (s.modCluster k f).fresh = s.fresh := rfl
@[simp] theorem State.modCluster_lastCore (s : State) (k : Nat) (f : Cluster → Cluster) : (s.modCluster k f).lastCore = s.lastCore := rfl
@[simp] theorem State.modCluster_agenda (s : State) (k : Nat) (f : Cluster → Cluster) : (s.modCluster k f).agenda = s.agenda := rfl
@[simp] theorem State.modCluster_cur (s : State) (k : Nat) (f : Cluster → Cluster) : (s.modCluster k f).cur = s.cur := rfl
@[simp] theorem State.modCluster_ev (s : State) (k : Nat) (f : Cluster → Cluster) : (s.modCluster k f).ev = s.ev := rfl
@[simp] theorem Crew.setVreg_role (w : Crew) (l n : Nat) (e : Elem) : (w.setVreg l n e).role = w.role := rfl
@[simp] theorem Crew.setVreg_no (w : Crew) (l n : Nat) (e : Elem) : (w.setVreg l n e).no = w.no := rfl
@[simp] theorem Crew.setVreg_group (w : Crew) (l n : Nat) (e : Elem) : (w.setVreg l n e).group = w.group := rfl
@[simp] theorem Crew.setVreg_sys (w : Crew) (l n : Nat) (e : Elem) : (w.setVreg l n e).sys = w.sys := rfl
@[simp] theorem Crew.setVreg_tandem (w : Crew) (l n : Nat) (e : Elem) : (w.setVreg l n e).tandem = w.tandem := rfl
@[simp] theorem Crew.setVreg_vgran (w : Crew) (l n : Nat) (e : Elem) : (w.setVreg l n e).vgran = w.vgran := rfl
@[simp] theorem Crew.setVreg_mregs (w : Crew) (l n : Nat) (e : Elem) : (w.setVreg l n e).mregs = w.mregs := rfl
@[simp] theorem Crew.setVreg_fibres (w : Crew) (l n : Nat) (e : Elem) : (w.setVreg l n e).fibres = w.fibres := rfl
@[simp] theorem Crew.setVreg_s (w : Crew) (l n : Nat) (e : Elem) : (w.setVreg l n e).s = w.s := rfl
@[simp] theorem Crew.setVreg_m (w : Crew) (l n : Nat) (e : Elem) : (w.setVreg l n e).m = w.m := rfl
@[simp] theorem Crew.setVreg_mtag (w : Crew) (l n : Nat) (e : Elem) : (w.setVreg l n e).mtag = w.mtag := rfl
@[simp] theorem Crew.setVreg_fflags (w : Crew) (l n : Nat) (e : Elem) : (w.setVreg l n e).fflags = w.fflags := rfl
@[simp] theorem Crew.setVreg_frm (w : Crew) (l n : Nat) (e : Elem) : (w.setVreg l n e).frm = w.frm := rfl
@[simp] theorem Crew.setVreg_tbf (w : Crew) (l n : Nat) (e : Elem) : (w.setVreg l n e).tbf = w.tbf := rfl
@[simp] theorem Crew.setVreg_tf32 (w : Crew) (l n : Nat) (e : Elem) : (w.setVreg l n e).tf32 = w.tf32 := rfl
@[simp] theorem Crew.setVreg_tnpp (w : Crew) (l n : Nat) (e : Elem) : (w.setVreg l n e).tnpp = w.tnpp := rfl
@[simp] theorem Crew.setVreg_tzp (w : Crew) (l n : Nat) (e : Elem) : (w.setVreg l n e).tzp = w.tzp := rfl
@[simp] theorem Crew.setVreg_rstack (w : Crew) (l n : Nat) (e : Elem) : (w.setVreg l n e).rstack = w.rstack := rfl
@[simp] theorem Crew.setVreg_reti (w : Crew) (l n : Nat) (e : Elem) : (w.setVreg l n e).reti = w.reti := rfl
@[simp] theorem Crew.setVreg_iss (w : Crew) (l n : Nat) (e : Elem) : (w.setVreg l n e).iss = w.iss := rfl
@[simp] theorem Crew.setVreg_ackCl (w : Crew) (l n : Nat) (e : Elem) : (w.setVreg l n e).ackCl = w.ackCl := rfl
@[simp] theorem Crew.setVreg_ackDv (w : Crew) (l n : Nat) (e : Elem) : (w.setVreg l n e).ackDv = w.ackDv := rfl
@[simp] theorem Crew.setVreg_ackSy (w : Crew) (l n : Nat) (e : Elem) : (w.setVreg l n e).ackSy = w.ackSy := rfl
@[simp] theorem Crew.setVreg_wdog (w : Crew) (l n : Nat) (e : Elem) : (w.setVreg l n e).wdog = w.wdog := rfl
@[simp] theorem Crew.setVreg_ev (w : Crew) (l n : Nat) (e : Elem) : (w.setVreg l n e).ev = w.ev := rfl
@[simp] theorem Crew.setVreg_evSel (w : Crew) (l n : Nat) (e : Elem) : (w.setVreg l n e).evSel = w.evSel := rfl
@[simp] theorem Crew.setVreg_trmask (w : Crew) (l n : Nat) (e : Elem) : (w.setVreg l n e).trmask = w.trmask := rfl
@[simp] theorem Crew.setVreg_lastBatch (w : Crew) (l n : Nat) (e : Elem) : (w.setVreg l n e).lastBatch = w.lastBatch := rfl
@[simp] theorem Crew.setVreg_batches (w : Crew) (l n : Nat) (e : Elem) : (w.setVreg l n e).batches = w.batches := rfl
@[simp] theorem Crew.setVreg_atomSeq (w : Crew) (l n : Nat) (e : Elem) : (w.setVreg l n e).atomSeq = w.atomSeq := rfl
@[simp] theorem Crew.setVreg_unit (w : Crew) (l n : Nat) (e : Elem) : (w.setVreg l n e).unit = w.unit := rfl
@[simp] theorem Crew.setVreg_sync (w : Crew) (l n : Nat) (e : Elem) : (w.setVreg l n e).sync = w.sync := rfl
@[simp] theorem Crew.setVreg_loads (w : Crew) (l n : Nat) (e : Elem) : (w.setVreg l n e).loads = w.loads := rfl
@[simp] theorem Crew.setVreg_atoms (w : Crew) (l n : Nat) (e : Elem) : (w.setVreg l n e).atoms = w.atoms := rfl
@[simp] theorem Crew.setVreg_progs (w : Crew) (l n : Nat) (e : Elem) : (w.setVreg l n e).progs = w.progs := rfl
@[simp] theorem Crew.setVreg_impr (w : Crew) (l n : Nat) (e : Elem) : (w.setVreg l n e).impr = w.impr := rfl
@[simp] theorem Crew.setVreg_peloton (w : Crew) (l n : Nat) (e : Elem) : (w.setVreg l n e).peloton = w.peloton := rfl
@[simp] theorem Crew.setVreg_since (w : Crew) (l n : Nat) (e : Elem) : (w.setVreg l n e).since = w.since := rfl
@[simp] theorem Crew.setVreg_units (w : Crew) (l n : Nat) (e : Elem) : (w.setVreg l n e).units = w.units := rfl
@[simp] theorem Crew.setVreg_stopped (w : Crew) (l n : Nat) (e : Elem) : (w.setVreg l n e).stopped = w.stopped := rfl
@[simp] theorem Crew.setVreg_halted (w : Crew) (l n : Nat) (e : Elem) : (w.setVreg l n e).halted = w.halted := rfl
@[simp] theorem Crew.setVreg_frozen (w : Crew) (l n : Nat) (e : Elem) : (w.setVreg l n e).frozen = w.frozen := rfl
@[simp] theorem Crew.setVreg_record (w : Crew) (l n : Nat) (e : Elem) : (w.setVreg l n e).record = w.record := rfl
@[simp] theorem Crew.setVreg_recNo (w : Crew) (l n : Nat) (e : Elem) : (w.setVreg l n e).recNo = w.recNo := rfl
@[simp] theorem Crew.setVreg_trapSlot (w : Crew) (l n : Nat) (e : Elem) : (w.setVreg l n e).trapSlot = w.trapSlot := rfl
@[simp] theorem Crew.setVreg_heldBy (w : Crew) (l n : Nat) (e : Elem) : (w.setVreg l n e).heldBy = w.heldBy := rfl
@[simp] theorem Crew.setVreg_lastPc (w : Crew) (l n : Nat) (e : Elem) : (w.setVreg l n e).lastPc = w.lastPc := rfl
@[simp] theorem Crew.setVreg_busyTo (w : Crew) (l n : Nat) (e : Elem) : (w.setVreg l n e).busyTo = w.busyTo := rfl
@[simp] theorem Crew.setVreg_slotHeld (w : Crew) (l n : Nat) (e : Elem) : (w.setVreg l n e).slotHeld = w.slotHeld := rfl
@[simp] theorem Crew.setSreg_role (w : Crew) (n : Nat) (e : Elem) : (w.setSreg n e).role = w.role := rfl
@[simp] theorem Crew.setSreg_no (w : Crew) (n : Nat) (e : Elem) : (w.setSreg n e).no = w.no := rfl
@[simp] theorem Crew.setSreg_group (w : Crew) (n : Nat) (e : Elem) : (w.setSreg n e).group = w.group := rfl
@[simp] theorem Crew.setSreg_sys (w : Crew) (n : Nat) (e : Elem) : (w.setSreg n e).sys = w.sys := rfl
@[simp] theorem Crew.setSreg_tandem (w : Crew) (n : Nat) (e : Elem) : (w.setSreg n e).tandem = w.tandem := rfl
@[simp] theorem Crew.setSreg_vgran (w : Crew) (n : Nat) (e : Elem) : (w.setSreg n e).vgran = w.vgran := rfl
@[simp] theorem Crew.setSreg_mregs (w : Crew) (n : Nat) (e : Elem) : (w.setSreg n e).mregs = w.mregs := rfl
@[simp] theorem Crew.setSreg_fibres (w : Crew) (n : Nat) (e : Elem) : (w.setSreg n e).fibres = w.fibres := rfl
@[simp] theorem Crew.setSreg_v (w : Crew) (n : Nat) (e : Elem) : (w.setSreg n e).v = w.v := rfl
@[simp] theorem Crew.setSreg_m (w : Crew) (n : Nat) (e : Elem) : (w.setSreg n e).m = w.m := rfl
@[simp] theorem Crew.setSreg_mtag (w : Crew) (n : Nat) (e : Elem) : (w.setSreg n e).mtag = w.mtag := rfl
@[simp] theorem Crew.setSreg_fflags (w : Crew) (n : Nat) (e : Elem) : (w.setSreg n e).fflags = w.fflags := rfl
@[simp] theorem Crew.setSreg_frm (w : Crew) (n : Nat) (e : Elem) : (w.setSreg n e).frm = w.frm := rfl
@[simp] theorem Crew.setSreg_tbf (w : Crew) (n : Nat) (e : Elem) : (w.setSreg n e).tbf = w.tbf := rfl
@[simp] theorem Crew.setSreg_tf32 (w : Crew) (n : Nat) (e : Elem) : (w.setSreg n e).tf32 = w.tf32 := rfl
@[simp] theorem Crew.setSreg_tnpp (w : Crew) (n : Nat) (e : Elem) : (w.setSreg n e).tnpp = w.tnpp := rfl
@[simp] theorem Crew.setSreg_tzp (w : Crew) (n : Nat) (e : Elem) : (w.setSreg n e).tzp = w.tzp := rfl
@[simp] theorem Crew.setSreg_rstack (w : Crew) (n : Nat) (e : Elem) : (w.setSreg n e).rstack = w.rstack := rfl
@[simp] theorem Crew.setSreg_reti (w : Crew) (n : Nat) (e : Elem) : (w.setSreg n e).reti = w.reti := rfl
@[simp] theorem Crew.setSreg_iss (w : Crew) (n : Nat) (e : Elem) : (w.setSreg n e).iss = w.iss := rfl
@[simp] theorem Crew.setSreg_ackCl (w : Crew) (n : Nat) (e : Elem) : (w.setSreg n e).ackCl = w.ackCl := rfl
@[simp] theorem Crew.setSreg_ackDv (w : Crew) (n : Nat) (e : Elem) : (w.setSreg n e).ackDv = w.ackDv := rfl
@[simp] theorem Crew.setSreg_ackSy (w : Crew) (n : Nat) (e : Elem) : (w.setSreg n e).ackSy = w.ackSy := rfl
@[simp] theorem Crew.setSreg_wdog (w : Crew) (n : Nat) (e : Elem) : (w.setSreg n e).wdog = w.wdog := rfl
@[simp] theorem Crew.setSreg_ev (w : Crew) (n : Nat) (e : Elem) : (w.setSreg n e).ev = w.ev := rfl
@[simp] theorem Crew.setSreg_evSel (w : Crew) (n : Nat) (e : Elem) : (w.setSreg n e).evSel = w.evSel := rfl
@[simp] theorem Crew.setSreg_trmask (w : Crew) (n : Nat) (e : Elem) : (w.setSreg n e).trmask = w.trmask := rfl
@[simp] theorem Crew.setSreg_lastBatch (w : Crew) (n : Nat) (e : Elem) : (w.setSreg n e).lastBatch = w.lastBatch := rfl
@[simp] theorem Crew.setSreg_batches (w : Crew) (n : Nat) (e : Elem) : (w.setSreg n e).batches = w.batches := rfl
@[simp] theorem Crew.setSreg_atomSeq (w : Crew) (n : Nat) (e : Elem) : (w.setSreg n e).atomSeq = w.atomSeq := rfl
@[simp] theorem Crew.setSreg_unit (w : Crew) (n : Nat) (e : Elem) : (w.setSreg n e).unit = w.unit := rfl
@[simp] theorem Crew.setSreg_sync (w : Crew) (n : Nat) (e : Elem) : (w.setSreg n e).sync = w.sync := rfl
@[simp] theorem Crew.setSreg_loads (w : Crew) (n : Nat) (e : Elem) : (w.setSreg n e).loads = w.loads := rfl
@[simp] theorem Crew.setSreg_atoms (w : Crew) (n : Nat) (e : Elem) : (w.setSreg n e).atoms = w.atoms := rfl
@[simp] theorem Crew.setSreg_progs (w : Crew) (n : Nat) (e : Elem) : (w.setSreg n e).progs = w.progs := rfl
@[simp] theorem Crew.setSreg_impr (w : Crew) (n : Nat) (e : Elem) : (w.setSreg n e).impr = w.impr := rfl
@[simp] theorem Crew.setSreg_peloton (w : Crew) (n : Nat) (e : Elem) : (w.setSreg n e).peloton = w.peloton := rfl
@[simp] theorem Crew.setSreg_since (w : Crew) (n : Nat) (e : Elem) : (w.setSreg n e).since = w.since := rfl
@[simp] theorem Crew.setSreg_units (w : Crew) (n : Nat) (e : Elem) : (w.setSreg n e).units = w.units := rfl
@[simp] theorem Crew.setSreg_stopped (w : Crew) (n : Nat) (e : Elem) : (w.setSreg n e).stopped = w.stopped := rfl
@[simp] theorem Crew.setSreg_halted (w : Crew) (n : Nat) (e : Elem) : (w.setSreg n e).halted = w.halted := rfl
@[simp] theorem Crew.setSreg_frozen (w : Crew) (n : Nat) (e : Elem) : (w.setSreg n e).frozen = w.frozen := rfl
@[simp] theorem Crew.setSreg_record (w : Crew) (n : Nat) (e : Elem) : (w.setSreg n e).record = w.record := rfl
@[simp] theorem Crew.setSreg_recNo (w : Crew) (n : Nat) (e : Elem) : (w.setSreg n e).recNo = w.recNo := rfl
@[simp] theorem Crew.setSreg_trapSlot (w : Crew) (n : Nat) (e : Elem) : (w.setSreg n e).trapSlot = w.trapSlot := rfl
@[simp] theorem Crew.setSreg_heldBy (w : Crew) (n : Nat) (e : Elem) : (w.setSreg n e).heldBy = w.heldBy := rfl
@[simp] theorem Crew.setSreg_lastPc (w : Crew) (n : Nat) (e : Elem) : (w.setSreg n e).lastPc = w.lastPc := rfl
@[simp] theorem Crew.setSreg_busyTo (w : Crew) (n : Nat) (e : Elem) : (w.setSreg n e).busyTo = w.busyTo := rfl
@[simp] theorem Crew.setSreg_slotHeld (w : Crew) (n : Nat) (e : Elem) : (w.setSreg n e).slotHeld = w.slotHeld := rfl
@[simp] theorem Crew.modFibre_role (w : Crew) (l : Nat) (f : Fibre → Fibre) : (w.modFibre l f).role = w.role := rfl
@[simp] theorem Crew.modFibre_no (w : Crew) (l : Nat) (f : Fibre → Fibre) : (w.modFibre l f).no = w.no := rfl
@[simp] theorem Crew.modFibre_group (w : Crew) (l : Nat) (f : Fibre → Fibre) : (w.modFibre l f).group = w.group := rfl
@[simp] theorem Crew.modFibre_sys (w : Crew) (l : Nat) (f : Fibre → Fibre) : (w.modFibre l f).sys = w.sys := rfl
@[simp] theorem Crew.modFibre_tandem (w : Crew) (l : Nat) (f : Fibre → Fibre) : (w.modFibre l f).tandem = w.tandem := rfl
@[simp] theorem Crew.modFibre_vgran (w : Crew) (l : Nat) (f : Fibre → Fibre) : (w.modFibre l f).vgran = w.vgran := rfl
@[simp] theorem Crew.modFibre_mregs (w : Crew) (l : Nat) (f : Fibre → Fibre) : (w.modFibre l f).mregs = w.mregs := rfl
@[simp] theorem Crew.modFibre_v (w : Crew) (l : Nat) (f : Fibre → Fibre) : (w.modFibre l f).v = w.v := rfl
@[simp] theorem Crew.modFibre_s (w : Crew) (l : Nat) (f : Fibre → Fibre) : (w.modFibre l f).s = w.s := rfl
@[simp] theorem Crew.modFibre_m (w : Crew) (l : Nat) (f : Fibre → Fibre) : (w.modFibre l f).m = w.m := rfl
@[simp] theorem Crew.modFibre_mtag (w : Crew) (l : Nat) (f : Fibre → Fibre) : (w.modFibre l f).mtag = w.mtag := rfl
@[simp] theorem Crew.modFibre_fflags (w : Crew) (l : Nat) (f : Fibre → Fibre) : (w.modFibre l f).fflags = w.fflags := rfl
@[simp] theorem Crew.modFibre_frm (w : Crew) (l : Nat) (f : Fibre → Fibre) : (w.modFibre l f).frm = w.frm := rfl
@[simp] theorem Crew.modFibre_tbf (w : Crew) (l : Nat) (f : Fibre → Fibre) : (w.modFibre l f).tbf = w.tbf := rfl
@[simp] theorem Crew.modFibre_tf32 (w : Crew) (l : Nat) (f : Fibre → Fibre) : (w.modFibre l f).tf32 = w.tf32 := rfl
@[simp] theorem Crew.modFibre_tnpp (w : Crew) (l : Nat) (f : Fibre → Fibre) : (w.modFibre l f).tnpp = w.tnpp := rfl
@[simp] theorem Crew.modFibre_tzp (w : Crew) (l : Nat) (f : Fibre → Fibre) : (w.modFibre l f).tzp = w.tzp := rfl
@[simp] theorem Crew.modFibre_rstack (w : Crew) (l : Nat) (f : Fibre → Fibre) : (w.modFibre l f).rstack = w.rstack := rfl
@[simp] theorem Crew.modFibre_reti (w : Crew) (l : Nat) (f : Fibre → Fibre) : (w.modFibre l f).reti = w.reti := rfl
@[simp] theorem Crew.modFibre_iss (w : Crew) (l : Nat) (f : Fibre → Fibre) : (w.modFibre l f).iss = w.iss := rfl
@[simp] theorem Crew.modFibre_ackCl (w : Crew) (l : Nat) (f : Fibre → Fibre) : (w.modFibre l f).ackCl = w.ackCl := rfl
@[simp] theorem Crew.modFibre_ackDv (w : Crew) (l : Nat) (f : Fibre → Fibre) : (w.modFibre l f).ackDv = w.ackDv := rfl
@[simp] theorem Crew.modFibre_ackSy (w : Crew) (l : Nat) (f : Fibre → Fibre) : (w.modFibre l f).ackSy = w.ackSy := rfl
@[simp] theorem Crew.modFibre_wdog (w : Crew) (l : Nat) (f : Fibre → Fibre) : (w.modFibre l f).wdog = w.wdog := rfl
@[simp] theorem Crew.modFibre_ev (w : Crew) (l : Nat) (f : Fibre → Fibre) : (w.modFibre l f).ev = w.ev := rfl
@[simp] theorem Crew.modFibre_evSel (w : Crew) (l : Nat) (f : Fibre → Fibre) : (w.modFibre l f).evSel = w.evSel := rfl
@[simp] theorem Crew.modFibre_trmask (w : Crew) (l : Nat) (f : Fibre → Fibre) : (w.modFibre l f).trmask = w.trmask := rfl
@[simp] theorem Crew.modFibre_lastBatch (w : Crew) (l : Nat) (f : Fibre → Fibre) : (w.modFibre l f).lastBatch = w.lastBatch := rfl
@[simp] theorem Crew.modFibre_batches (w : Crew) (l : Nat) (f : Fibre → Fibre) : (w.modFibre l f).batches = w.batches := rfl
@[simp] theorem Crew.modFibre_atomSeq (w : Crew) (l : Nat) (f : Fibre → Fibre) : (w.modFibre l f).atomSeq = w.atomSeq := rfl
@[simp] theorem Crew.modFibre_unit (w : Crew) (l : Nat) (f : Fibre → Fibre) : (w.modFibre l f).unit = w.unit := rfl
@[simp] theorem Crew.modFibre_sync (w : Crew) (l : Nat) (f : Fibre → Fibre) : (w.modFibre l f).sync = w.sync := rfl
@[simp] theorem Crew.modFibre_loads (w : Crew) (l : Nat) (f : Fibre → Fibre) : (w.modFibre l f).loads = w.loads := rfl
@[simp] theorem Crew.modFibre_atoms (w : Crew) (l : Nat) (f : Fibre → Fibre) : (w.modFibre l f).atoms = w.atoms := rfl
@[simp] theorem Crew.modFibre_progs (w : Crew) (l : Nat) (f : Fibre → Fibre) : (w.modFibre l f).progs = w.progs := rfl
@[simp] theorem Crew.modFibre_impr (w : Crew) (l : Nat) (f : Fibre → Fibre) : (w.modFibre l f).impr = w.impr := rfl
@[simp] theorem Crew.modFibre_peloton (w : Crew) (l : Nat) (f : Fibre → Fibre) : (w.modFibre l f).peloton = w.peloton := rfl
@[simp] theorem Crew.modFibre_since (w : Crew) (l : Nat) (f : Fibre → Fibre) : (w.modFibre l f).since = w.since := rfl
@[simp] theorem Crew.modFibre_units (w : Crew) (l : Nat) (f : Fibre → Fibre) : (w.modFibre l f).units = w.units := rfl
@[simp] theorem Crew.modFibre_stopped (w : Crew) (l : Nat) (f : Fibre → Fibre) : (w.modFibre l f).stopped = w.stopped := rfl
@[simp] theorem Crew.modFibre_halted (w : Crew) (l : Nat) (f : Fibre → Fibre) : (w.modFibre l f).halted = w.halted := rfl
@[simp] theorem Crew.modFibre_frozen (w : Crew) (l : Nat) (f : Fibre → Fibre) : (w.modFibre l f).frozen = w.frozen := rfl
@[simp] theorem Crew.modFibre_record (w : Crew) (l : Nat) (f : Fibre → Fibre) : (w.modFibre l f).record = w.record := rfl
@[simp] theorem Crew.modFibre_recNo (w : Crew) (l : Nat) (f : Fibre → Fibre) : (w.modFibre l f).recNo = w.recNo := rfl
@[simp] theorem Crew.modFibre_trapSlot (w : Crew) (l : Nat) (f : Fibre → Fibre) : (w.modFibre l f).trapSlot = w.trapSlot := rfl
@[simp] theorem Crew.modFibre_heldBy (w : Crew) (l : Nat) (f : Fibre → Fibre) : (w.modFibre l f).heldBy = w.heldBy := rfl
@[simp] theorem Crew.modFibre_lastPc (w : Crew) (l : Nat) (f : Fibre → Fibre) : (w.modFibre l f).lastPc = w.lastPc := rfl
@[simp] theorem Crew.modFibre_busyTo (w : Crew) (l : Nat) (f : Fibre → Fibre) : (w.modFibre l f).busyTo = w.busyTo := rfl
@[simp] theorem Crew.modFibre_slotHeld (w : Crew) (l : Nat) (f : Fibre → Fibre) : (w.modFibre l f).slotHeld = w.slotHeld := rfl
@[simp] theorem Crew.setMel_role (w : Crew) (k l q : Nat) (e : Elem) : (w.setMel k l q e).role = w.role := rfl
@[simp] theorem Crew.setMel_no (w : Crew) (k l q : Nat) (e : Elem) : (w.setMel k l q e).no = w.no := rfl
@[simp] theorem Crew.setMel_group (w : Crew) (k l q : Nat) (e : Elem) : (w.setMel k l q e).group = w.group := rfl
@[simp] theorem Crew.setMel_sys (w : Crew) (k l q : Nat) (e : Elem) : (w.setMel k l q e).sys = w.sys := rfl
@[simp] theorem Crew.setMel_tandem (w : Crew) (k l q : Nat) (e : Elem) : (w.setMel k l q e).tandem = w.tandem := rfl
@[simp] theorem Crew.setMel_vgran (w : Crew) (k l q : Nat) (e : Elem) : (w.setMel k l q e).vgran = w.vgran := rfl
@[simp] theorem Crew.setMel_mregs (w : Crew) (k l q : Nat) (e : Elem) : (w.setMel k l q e).mregs = w.mregs := rfl
@[simp] theorem Crew.setMel_fibres (w : Crew) (k l q : Nat) (e : Elem) : (w.setMel k l q e).fibres = w.fibres := rfl
@[simp] theorem Crew.setMel_v (w : Crew) (k l q : Nat) (e : Elem) : (w.setMel k l q e).v = w.v := rfl
@[simp] theorem Crew.setMel_s (w : Crew) (k l q : Nat) (e : Elem) : (w.setMel k l q e).s = w.s := rfl
@[simp] theorem Crew.setMel_mtag (w : Crew) (k l q : Nat) (e : Elem) : (w.setMel k l q e).mtag = w.mtag := rfl
@[simp] theorem Crew.setMel_fflags (w : Crew) (k l q : Nat) (e : Elem) : (w.setMel k l q e).fflags = w.fflags := rfl
@[simp] theorem Crew.setMel_frm (w : Crew) (k l q : Nat) (e : Elem) : (w.setMel k l q e).frm = w.frm := rfl
@[simp] theorem Crew.setMel_tbf (w : Crew) (k l q : Nat) (e : Elem) : (w.setMel k l q e).tbf = w.tbf := rfl
@[simp] theorem Crew.setMel_tf32 (w : Crew) (k l q : Nat) (e : Elem) : (w.setMel k l q e).tf32 = w.tf32 := rfl
@[simp] theorem Crew.setMel_tnpp (w : Crew) (k l q : Nat) (e : Elem) : (w.setMel k l q e).tnpp = w.tnpp := rfl
@[simp] theorem Crew.setMel_tzp (w : Crew) (k l q : Nat) (e : Elem) : (w.setMel k l q e).tzp = w.tzp := rfl
@[simp] theorem Crew.setMel_rstack (w : Crew) (k l q : Nat) (e : Elem) : (w.setMel k l q e).rstack = w.rstack := rfl
@[simp] theorem Crew.setMel_reti (w : Crew) (k l q : Nat) (e : Elem) : (w.setMel k l q e).reti = w.reti := rfl
@[simp] theorem Crew.setMel_iss (w : Crew) (k l q : Nat) (e : Elem) : (w.setMel k l q e).iss = w.iss := rfl
@[simp] theorem Crew.setMel_ackCl (w : Crew) (k l q : Nat) (e : Elem) : (w.setMel k l q e).ackCl = w.ackCl := rfl
@[simp] theorem Crew.setMel_ackDv (w : Crew) (k l q : Nat) (e : Elem) : (w.setMel k l q e).ackDv = w.ackDv := rfl
@[simp] theorem Crew.setMel_ackSy (w : Crew) (k l q : Nat) (e : Elem) : (w.setMel k l q e).ackSy = w.ackSy := rfl
@[simp] theorem Crew.setMel_wdog (w : Crew) (k l q : Nat) (e : Elem) : (w.setMel k l q e).wdog = w.wdog := rfl
@[simp] theorem Crew.setMel_ev (w : Crew) (k l q : Nat) (e : Elem) : (w.setMel k l q e).ev = w.ev := rfl
@[simp] theorem Crew.setMel_evSel (w : Crew) (k l q : Nat) (e : Elem) : (w.setMel k l q e).evSel = w.evSel := rfl
@[simp] theorem Crew.setMel_trmask (w : Crew) (k l q : Nat) (e : Elem) : (w.setMel k l q e).trmask = w.trmask := rfl
@[simp] theorem Crew.setMel_lastBatch (w : Crew) (k l q : Nat) (e : Elem) : (w.setMel k l q e).lastBatch = w.lastBatch := rfl
@[simp] theorem Crew.setMel_batches (w : Crew) (k l q : Nat) (e : Elem) : (w.setMel k l q e).batches = w.batches := rfl
@[simp] theorem Crew.setMel_atomSeq (w : Crew) (k l q : Nat) (e : Elem) : (w.setMel k l q e).atomSeq = w.atomSeq := rfl
@[simp] theorem Crew.setMel_unit (w : Crew) (k l q : Nat) (e : Elem) : (w.setMel k l q e).unit = w.unit := rfl
@[simp] theorem Crew.setMel_sync (w : Crew) (k l q : Nat) (e : Elem) : (w.setMel k l q e).sync = w.sync := rfl
@[simp] theorem Crew.setMel_loads (w : Crew) (k l q : Nat) (e : Elem) : (w.setMel k l q e).loads = w.loads := rfl
@[simp] theorem Crew.setMel_atoms (w : Crew) (k l q : Nat) (e : Elem) : (w.setMel k l q e).atoms = w.atoms := rfl
@[simp] theorem Crew.setMel_progs (w : Crew) (k l q : Nat) (e : Elem) : (w.setMel k l q e).progs = w.progs := rfl
@[simp] theorem Crew.setMel_impr (w : Crew) (k l q : Nat) (e : Elem) : (w.setMel k l q e).impr = w.impr := rfl
@[simp] theorem Crew.setMel_peloton (w : Crew) (k l q : Nat) (e : Elem) : (w.setMel k l q e).peloton = w.peloton := rfl
@[simp] theorem Crew.setMel_since (w : Crew) (k l q : Nat) (e : Elem) : (w.setMel k l q e).since = w.since := rfl
@[simp] theorem Crew.setMel_units (w : Crew) (k l q : Nat) (e : Elem) : (w.setMel k l q e).units = w.units := rfl
@[simp] theorem Crew.setMel_stopped (w : Crew) (k l q : Nat) (e : Elem) : (w.setMel k l q e).stopped = w.stopped := rfl
@[simp] theorem Crew.setMel_halted (w : Crew) (k l q : Nat) (e : Elem) : (w.setMel k l q e).halted = w.halted := rfl
@[simp] theorem Crew.setMel_frozen (w : Crew) (k l q : Nat) (e : Elem) : (w.setMel k l q e).frozen = w.frozen := rfl
@[simp] theorem Crew.setMel_record (w : Crew) (k l q : Nat) (e : Elem) : (w.setMel k l q e).record = w.record := rfl
@[simp] theorem Crew.setMel_recNo (w : Crew) (k l q : Nat) (e : Elem) : (w.setMel k l q e).recNo = w.recNo := rfl
@[simp] theorem Crew.setMel_trapSlot (w : Crew) (k l q : Nat) (e : Elem) : (w.setMel k l q e).trapSlot = w.trapSlot := rfl
@[simp] theorem Crew.setMel_heldBy (w : Crew) (k l q : Nat) (e : Elem) : (w.setMel k l q e).heldBy = w.heldBy := rfl
@[simp] theorem Crew.setMel_lastPc (w : Crew) (k l q : Nat) (e : Elem) : (w.setMel k l q e).lastPc = w.lastPc := rfl
@[simp] theorem Crew.setMel_busyTo (w : Crew) (k l q : Nat) (e : Elem) : (w.setMel k l q e).busyTo = w.busyTo := rfl
@[simp] theorem Crew.setMel_slotHeld (w : Crew) (k l q : Nat) (e : Elem) : (w.setMel k l q e).slotHeld = w.slotHeld := rfl

end Sys2Proof.Machine
end

