-- ==== Sys2Proof/Laws/Tab.lean ====
section
/-! SUPPORT. Laws of sparse tables and byte memories: reading after writing, and the canonical form. -/

namespace Sys2Proof.Machine

variable {α : Type}

theorem Tab.get_put_same (t : Tab α) (d v : α) (k : Nat) : Tab.get (Tab.put t k v) d k = v := by
  induction t with
  | nil => simp [Tab.put, Tab.get]
  | cons e t ih =>
    obtain ⟨j, w⟩ := e
    simp only [Tab.put]
    split
    · simp [Tab.get]
    · split
      · simp [Tab.get]
      · simp [Tab.get, *]

theorem Tab.get_put_other (t : Tab α) (d v : α) {k n : Nat} (h : n ≠ k) : Tab.get (Tab.put t k v) d n = Tab.get t d n := by
  induction t with
  | nil => simp [Tab.put, Tab.get, Ne.symm h]
  | cons e t ih =>
    obtain ⟨j, w⟩ := e
    simp only [Tab.put]
    split
    · subst_vars; simp [Tab.get, Ne.symm h]
    · split
      · simp [Tab.get, Ne.symm h]
      · simp only [Tab.get, ih]

theorem Tab.get_erase_same (t : Tab α) (d : α) (k : Nat) : Tab.get (Tab.erase t k) d k = d := by
  induction t with
  | nil => rfl
  | cons e t ih =>
    obtain ⟨j, w⟩ := e
    simp only [Tab.erase]
    split
    · exact ih
    · simp [Tab.get, *]

theorem Tab.get_erase_other (t : Tab α) (d : α) {k n : Nat} (h : n ≠ k) : Tab.get (Tab.erase t k) d n = Tab.get t d n := by
  induction t with
  | nil => rfl
  | cons e t ih =>
    obtain ⟨j, w⟩ := e
    simp only [Tab.erase]
    split
    · subst_vars; simp [Tab.get, Ne.symm h, ih]
    · simp [Tab.get, ih]

theorem Tab.find_put_same (t : Tab α) (v : α) (k : Nat) : Tab.find (Tab.put t k v) k = some v := by
  induction t with
  | nil => simp [Tab.put, Tab.find]
  | cons e t ih =>
    obtain ⟨j, w⟩ := e
    simp only [Tab.put]
    split
    · simp [Tab.find]
    · split
      · simp [Tab.find]
      · simp [Tab.find, *]

theorem Tab.find_put_other (t : Tab α) (v : α) {k n : Nat} (h : n ≠ k) : Tab.find (Tab.put t k v) n = Tab.find t n := by
  induction t with
  | nil => simp [Tab.put, Tab.find, Ne.symm h]
  | cons e t ih =>
    obtain ⟨j, w⟩ := e
    simp only [Tab.put]
    split
    · subst_vars; simp [Tab.find, Ne.symm h]
    · split
      · simp [Tab.find, Ne.symm h]
      · simp only [Tab.find, ih]

theorem Tab.rising_le {t : Tab α} {a b : Nat} (h : Tab.risingFrom b t = true) (hab : a ≤ b) : Tab.risingFrom a t = true := by
  cases t with
  | nil => rfl
  | cons e t =>
    obtain ⟨j, w⟩ := e
    simp only [Tab.risingFrom, Bool.and_eq_true, decide_eq_true_eq] at h ⊢
    exact ⟨by omega, h.2⟩

theorem Tab.rising_put (t : Tab α) (k b : Nat) (v : α) (h : Tab.risingFrom b t = true) (hb : b ≤ k) :
    Tab.risingFrom b (Tab.put t k v) = true := by
  induction t generalizing b with
  | nil => simp [Tab.put, Tab.risingFrom, hb]
  | cons e t ih =>
    obtain ⟨j, w⟩ := e
    simp [Tab.risingFrom] at h
    simp only [Tab.put]
    split
    · subst_vars; simp [Tab.risingFrom, h.1, h.2]
    · split
      · simp [Tab.risingFrom, hb, h.2]; omega
      · simp [Tab.risingFrom, h.1]; exact ih _ h.2 (by omega)

theorem Tab.rising_erase (t : Tab α) (k b : Nat) (h : Tab.risingFrom b t = true) : Tab.risingFrom b (Tab.erase t k) = true := by
  induction t generalizing b with
  | nil => rfl
  | cons e t ih =>
    obtain ⟨j, w⟩ := e
    simp [Tab.risingFrom] at h
    simp only [Tab.erase]
    split
    · exact Tab.rising_le (ih _ h.2) (by omega)
    · simp [Tab.risingFrom, h.1]; exact ih _ h.2

theorem Tab.all_put (t : Tab α) (k : Nat) (v : α) (p : α → Bool) (h : t.all (fun e => p e.2) = true) (hv : p v = true) :
    (Tab.put t k v).all (fun e => p e.2) = true := by
  induction t with
  | nil => simp [Tab.put, hv]
  | cons e t ih =>
    obtain ⟨j, w⟩ := e
    simp only [List.all_cons, Bool.and_eq_true] at h
    simp only [Tab.put]
    split
    · simp only [List.all_cons, hv, h.2, Bool.and_self]
    · split
      · simp only [List.all_cons, hv, h.1, h.2, Bool.and_self]
      · simp only [List.all_cons, h.1, ih h.2, Bool.and_self]

theorem Tab.all_erase (t : Tab α) (k : Nat) (p : α → Bool) (h : t.all (fun e => p e.2) = true) :
    (Tab.erase t k).all (fun e => p e.2) = true := by
  induction t with
  | nil => rfl
  | cons e t ih =>
    obtain ⟨j, w⟩ := e
    simp only [List.all_cons, Bool.and_eq_true] at h
    simp only [Tab.erase]
    split
    · exact ih h.2
    · simp only [List.all_cons, Bool.and_eq_true]; exact ⟨h.1, ih h.2⟩

/-- A filter keeps the canonical form. -/
theorem Tab.rising_filter (t : Tab α) (b : Nat) (p : Nat × α → Bool) (h : Tab.risingFrom b t = true) :
    Tab.risingFrom b (t.filter p) = true := by
  induction t generalizing b with
  | nil => rfl
  | cons e t ih =>
    obtain ⟨j, w⟩ := e
    simp [Tab.risingFrom] at h
    simp only [List.filter_cons]
    split
    · simp [Tab.risingFrom, h.1]; exact ih _ h.2
    · exact Tab.rising_le (ih _ h.2) (by omega)

variable [DecidableEq α]

@[simp] theorem Tab.get_set_same (t : Tab α) (d v : α) (k : Nat) : Tab.get (Tab.set t d k v) d k = v := by
  unfold Tab.set
  split
  · rw [Tab.get_erase_same]; exact Eq.symm ‹_›
  · exact Tab.get_put_same t d v k

theorem Tab.get_set_other (t : Tab α) (d v : α) {k n : Nat} (h : n ≠ k) : Tab.get (Tab.set t d k v) d n = Tab.get t d n := by
  unfold Tab.set
  split
  · exact Tab.get_erase_other t d h
  · exact Tab.get_put_other t d v h

/-- Reading a table after a write: the value at the key written, the old value elsewhere. -/
theorem Tab.get_set (t : Tab α) (d v : α) (k n : Nat) :
    Tab.get (Tab.set t d k v) d n = if n = k then v else Tab.get t d n := by
  split
  · subst_vars; exact Tab.get_set_same t d v _
  · exact Tab.get_set_other t d v ‹_›

/-- Every value of a table is changed, where the default stays the default. -/
theorem Tab.get_mapVals (t : Tab α) (d : α) (f : α → α) (hd : f d = d) (n : Nat) :
    Tab.get (Tab.mapVals d f t) d n = f (Tab.get t d n) := by
  induction t with
  | nil => simp [Tab.mapVals, Tab.get, hd]
  | cons e t ih =>
    obtain ⟨j, w⟩ := e
    simp only [Tab.mapVals, Tab.get_set, Tab.get]
    by_cases h : n = j
    · subst h; simp
    · rw [if_neg h, if_neg (fun e => h e.symm), ih]

/-- A byte read after a write of one byte. -/
theorem Memory.read_write (m : Memory) (a n : Nat) (b : Byte) : (m.write a b).read n = if n = a then b else m.read n :=
  Tab.get_set m Memory.unlisted b a n

/-- A write keeps the canonical form. -/
theorem Tab.wf_set (t : Tab α) (d v : α) (k : Nat) (h : Tab.wf d t = true) : Tab.wf d (Tab.set t d k v) = true := by
  simp only [Tab.wf, Bool.and_eq_true] at h ⊢
  unfold Tab.set
  split
  · exact ⟨Tab.rising_erase _ _ _ h.1, Tab.all_erase _ _ (fun x => decide (x ≠ d)) h.2⟩
  · exact ⟨Tab.rising_put _ _ _ _ h.1 (Nat.zero_le _), Tab.all_put _ _ _ (fun x => decide (x ≠ d)) h.2 (by simpa using ‹_›)⟩

/-- Changing every entry gives the canonical form. -/
theorem Tab.wf_mapVals (t : Tab α) (d : α) (f : α → α) : Tab.wf d (Tab.mapVals d f t) = true := by
  induction t with
  | nil => rfl
  | cons e t ih => obtain ⟨j, w⟩ := e; exact Tab.wf_set _ _ _ _ ih

theorem Tab.wf_filter (t : Tab α) (d : α) (p : Nat × α → Bool) (h : Tab.wf d t = true) : Tab.wf d (t.filter p) = true := by
  simp only [Tab.wf, Bool.and_eq_true] at h ⊢
  refine ⟨Tab.rising_filter _ _ _ h.1, ?_⟩
  rw [List.all_eq_true] at h ⊢
  exact fun x hx => h.2 x (List.mem_of_mem_filter hx)

theorem Memory.wf_write (m : Memory) (a : Nat) (b : Byte) (h : m.wf = true) : (m.write a b).wf = true := Tab.wf_set _ _ _ _ h

/-- Writing bytes keeps the canonical form of a memory. -/
theorem Memory.wf_writeBytes (m : Memory) (a : Nat) (bs : List Byte) (h : m.wf = true) : (m.writeBytes a bs).wf = true := by
  induction bs generalizing m a with
  | nil => exact h
  | cons b bs ih => exact ih _ _ (Memory.wf_write _ _ _ h)

/-- A byte read after a write of several: the byte written there, the old one elsewhere. -/
theorem Memory.read_writeBytes (m : Memory) (a n : Nat) (bs : List Byte) :
    (m.writeBytes a bs).read n = if a ≤ n ∧ n < a + bs.length then bs.getD (n - a) 0 else m.read n := by
  induction bs generalizing m a with
  | nil => simp [Memory.writeBytes]
  | cons b bs ih =>
    simp only [Memory.writeBytes, ih, Memory.read_write, List.length_cons]
    by_cases h1 : a + 1 ≤ n ∧ n < a + 1 + bs.length
    · rw [if_pos h1, if_pos (by omega)]
      obtain ⟨k, rfl⟩ : ∃ k, n = a + 1 + k := ⟨n - (a + 1), by omega⟩
      have : a + 1 + k - a = k + 1 := by omega
      simp [this]
    · rw [if_neg h1]
      by_cases h2 : n = a
      · subst h2; simp
      · rw [if_neg h2, if_neg (by omega)]

end Sys2Proof.Machine
end

