-- ==== Sys2Proof/Laws/Crew.lean ====
section
/-! SUPPORT. What the accessors read after an update: cores, crews, fibres and registers. -/

namespace Sys2Proof.Machine

theorem State.core_setCore (s : State) (k n : Nat) (v : Core) : (s.setCore k v).core n = if n = k then v else s.core n :=
  Tab.get_set _ _ _ _ _

theorem State.core_modCore (s : State) (k n : Nat) (f : Core → Core) :
    (s.modCore k f).core n = if n = k then f (s.core k) else s.core n := State.core_setCore _ _ _ _

theorem State.core_setCrew (s : State) (k n sl : Nat) (w : Crew) :
    (s.setCrew k sl w).core n = if n = k then { s.core k with slots := Tab.put (s.core k).slots sl w } else s.core n :=
  State.core_modCore _ _ _ _

/-- The crew of a slot after a crew is set. -/
theorem State.crew?_setCrew (s : State) (k n sl t : Nat) (w : Crew) :
    (s.setCrew k sl w).crew? n t = if n = k ∧ t = sl then some w else s.crew? n t := by
  unfold State.crew?
  rw [State.core_setCrew]
  by_cases h : n = k
  · subst h
    by_cases h' : t = sl
    · subst h'; simp [Tab.find_put_same]
    · simp [h', Tab.find_put_other _ _ h']
  · simp [h]

@[simp] theorem State.crew_setCrew_same (s : State) (k sl : Nat) (w : Crew) : (s.setCrew k sl w).crew k sl = w := by
  simp [State.crew, State.crew?_setCrew]

theorem State.crew_setCrew (s : State) (k n sl t : Nat) (w : Crew) :
    (s.setCrew k sl w).crew n t = if n = k ∧ t = sl then w else s.crew n t := by
  unfold State.crew
  rw [State.crew?_setCrew]
  split <;> rfl

theorem State.crew_modCrew_same (s : State) (k sl : Nat) (f : Crew → Crew) : (s.modCrew k sl f).crew k sl = f (s.crew k sl) :=
  State.crew_setCrew_same _ _ _ _

/-- Two writes of one entry leave the second. -/
theorem Tab.put_put {α : Type} (t : Tab α) (k : Nat) (v w : α) : Tab.put (Tab.put t k v) k w = Tab.put t k w := by
  induction t with
  | nil => simp [Tab.put]
  | cons e t ih =>
    obtain ⟨j, x⟩ := e
    simp only [Tab.put]
    by_cases h : j = k
    · subst h; simp [Tab.put]
    · by_cases h' : k < j
      · simp [Tab.put, h, h']
      · simp [Tab.put, h, h', ih]

/-- A core whose slots hold a crew is not a core without anything. -/
theorem Tab.put_ne_nil {α : Type} (t : Tab α) (k : Nat) (v : α) : Tab.put t k v ≠ [] := by
  cases t with
  | nil => simp [Tab.put]
  | cons e t => obtain ⟨j, x⟩ := e; simp only [Tab.put]; split <;> [simp; (split <;> simp)]

theorem Core.slots_ne (k : Core) (sl : Nat) (w : Crew) : ({ k with slots := Tab.put k.slots sl w } : Core) ≠ {} := by
  intro h
  exact Tab.put_ne_nil _ _ _ (congrArg Core.slots h)

/-- Two crews set in one slot leave the second. -/
theorem State.setCrew_setCrew (s : State) (k sl : Nat) (v w : Crew) : (s.setCrew k sl v).setCrew k sl w = s.setCrew k sl w := by
  show State.setCore _ _ _ = State.setCore _ _ _
  unfold State.setCore
  have hc : (s.setCrew k sl v).core k = { s.core k with slots := Tab.put (s.core k).slots sl v } := by
    rw [State.core_setCrew]; simp
  simp only [hc]
  have e : (s.setCrew k sl v).cores = Tab.put s.cores k { s.core k with slots := Tab.put (s.core k).slots sl v } := by
    show Tab.set _ _ _ _ = _
    rw [Tab.set, if_neg (Core.slots_ne _ _ _)]
  rw [e]
  simp only [Tab.put_put]
  rw [Tab.set, if_neg (Core.slots_ne _ _ _), Tab.put_put, Tab.set, if_neg (Core.slots_ne _ _ _)]
  rfl

theorem State.setCrew_modCrew (s : State) (k sl : Nat) (v : Crew) (f : Crew → Crew) :
    (s.setCrew k sl v).modCrew k sl f = s.setCrew k sl (f v) := by
  unfold State.modCrew
  rw [State.crew_setCrew_same, State.setCrew_setCrew]

theorem State.modCrew_modCrew (s : State) (k sl : Nat) (f g : Crew → Crew) :
    (s.modCrew k sl f).modCrew k sl g = s.modCrew k sl (fun w => g (f w)) := State.setCrew_modCrew _ _ _ _ _

/-- A fibre after one is changed. -/
theorem Crew.fibre_modFibre (w : Crew) (l n : Nat) (f : Fibre → Fibre) :
    (w.modFibre l f).fibre n = if n = l then f (w.fibre l) else w.fibre n := Tab.get_set _ _ _ _ _

theorem mem_lanesOf (m : BitVec 32) (l : Nat) : l ∈ lanesOf m ↔ m.getLsbD l = true := by
  simp only [lanesOf, List.mem_filter, List.mem_range]
  constructor
  · exact fun h => h.2
  · intro h
    refine ⟨?_, h⟩
    by_contra hl
    rw [BitVec.getLsbD_of_ge _ _ (by omega)] at h
    exact Bool.noConfusion h

theorem nodup_lanesOf (m : BitVec 32) : (lanesOf m).Nodup := List.Nodup.filter _ List.nodup_range

theorem Crew.fibre_foldl (ls : List Nat) (f : Nat → Fibre → Fibre) (w : Crew) (n : Nat) (h : ls.Nodup) :
    (ls.foldl (fun w l => w.modFibre l (f l)) w).fibre n = if n ∈ ls then f n (w.fibre n) else w.fibre n := by
  induction ls generalizing w with
  | nil => simp
  | cons l ls ih =>
    rw [List.nodup_cons] at h
    rw [List.foldl_cons, ih _ h.2, Crew.fibre_modFibre]
    by_cases hn : n = l
    · subst hn; simp [h.1]
    · simp [hn]

/-- A fibre after the lanes of a mask are changed. -/
theorem Crew.fibre_modLanes (w : Crew) (m : BitVec 32) (f : Nat → Fibre → Fibre) (n : Nat) :
    (w.modLanes m f).fibre n = if m.getLsbD n then f n (w.fibre n) else w.fibre n := by
  unfold Crew.modLanes
  rw [Crew.fibre_foldl _ _ _ _ (nodup_lanesOf m)]
  simp only [mem_lanesOf]

/-- Changing fibres changes nothing else of a crew. -/
theorem Crew.foldl_modFibre (ls : List Nat) (f : Nat → Fibre → Fibre) (w : Crew) :
    ls.foldl (fun w l => w.modFibre l (f l)) w = { w with fibres := (ls.foldl (fun w l => w.modFibre l (f l)) w).fibres } := by
  induction ls generalizing w with
  | nil => rfl
  | cons l ls ih => rw [List.foldl_cons, ih]; rfl

theorem Crew.modLanes_eq (w : Crew) (m : BitVec 32) (f : Nat → Fibre → Fibre) :
    w.modLanes m f = { w with fibres := (w.modLanes m f).fibres } := Crew.foldl_modFibre _ _ _

/-- A vector register after a write of one. -/
theorem Crew.vreg_setVreg (w : Crew) (l n l' n' : Nat) (e : Elem) (h : l < 32) (h' : l' < 32) :
    (w.setVreg l n e).vreg l' n' = if l' = l ∧ n' = n then e else w.vreg l' n' := by
  show Tab.get (Tab.set _ _ _ _) _ _ = _
  rw [Tab.get_set]
  by_cases hh : l' = l ∧ n' = n
  · rw [if_pos hh, if_pos (by omega)]
  · rw [if_neg hh, if_neg (by omega)]; rfl

/-- A uniform register after a write of one. -/
theorem Crew.sreg_setSreg (w : Crew) (n n' : Nat) (e : Elem) : (w.setSreg n e).sreg n' = if n' = n then e else w.sreg n' :=
  Tab.get_set _ _ _ _ _

/-- Writing registers changes nothing else of a crew. -/
theorem Crew.writeV_eq (w : Crew) (d : Nat) (vals : List (Nat × Word)) : w.writeV d vals = { w with v := (w.writeV d vals).v } := by
  unfold Crew.writeV
  induction vals generalizing w with
  | nil => rfl
  | cons e vals ih => rw [List.foldl_cons, ih]; rfl

theorem Crew.writeV_fibre (w : Crew) (d : Nat) (vals : List (Nat × Word)) (l : Nat) : (w.writeV d vals).fibre l = w.fibre l := by
  rw [Crew.writeV_eq]; rfl

/-- The registers after lane values are written: the destination of every lane listed, in the window of the lane. -/
theorem Crew.vreg_writeV (w : Crew) (d : Nat) (vals : List (Nat × Word)) (l n : Nat) (hl : l < 32)
    (hv : ∀ e ∈ vals, e.1 < 32) (hd : (vals.map Prod.fst).Nodup) :
    (w.writeV d vals).vreg l n =
      match vals.find? (fun e => e.1 = l) with
      | some e => if n = (w.fibre l).wbase.toNat + d then { val := e.2 } else w.vreg l n
      | none => w.vreg l n := by
  induction vals generalizing w with
  | nil => rfl
  | cons e vals ih =>
    simp only [List.map_cons, List.nodup_cons] at hd
    have h1 := ih (w.setVreg e.1 ((w.fibre e.1).wbase.toNat + d) { val := e.2 }) (fun x hx => hv x (List.mem_cons_of_mem _ hx)) hd.2
    have h2 : w.writeV d (e :: vals) = (w.setVreg e.1 ((w.fibre e.1).wbase.toNat + d) { val := e.2 }).writeV d vals := rfl
    rw [h2, h1]
    have hf : ∀ x, (w.setVreg e.1 ((w.fibre e.1).wbase.toNat + d) { val := e.2 }).fibre x = w.fibre x := fun _ => rfl
    have he : e.1 < 32 := hv e List.mem_cons_self
    by_cases h : e.1 = l
    · subst h
      have hn : vals.find? (fun x => decide (x.1 = e.1)) = none := by
        rw [List.find?_eq_none]
        intro x hx hc
        exact hd.1 (List.mem_map.2 ⟨x, hx, by simpa using hc⟩)
      rw [hn]
      simp [Crew.vreg_setVreg _ _ _ _ _ _ he he]
    · rw [List.find?_cons_of_neg (by simpa using h)]
      simp only [hf, Crew.vreg_setVreg _ _ _ _ _ _ he hl]
      have : ¬ (l = e.1 ∧ n = (w.fibre e.1).wbase.toNat + d) := fun x => h x.1.symm
      simp only [this, if_false]

end Sys2Proof.Machine
end

