-- ==== Sys2Proof/Laws/Elements.lean ====
section
/-! SUPPORT. Packed values: an element of a packed value is the element it was packed from (R143). -/

namespace Sys2Proof.Machine

/-- The number that packed elements make. -/
def packNat (w : Nat) (es : List Nat) : Nat := es.foldr (fun e acc => e % 2 ^ w + 2 ^ w * acc) 0

theorem packNat_lt (w : Nat) (es : List Nat) : packNat w es < 2 ^ (w * es.length) := by
  induction es with
  | nil => simp [packNat]
  | cons e es ih =>
    have h1 : e % 2 ^ w < 2 ^ w := Nat.mod_lt _ (Nat.two_pow_pos w)
    show e % 2 ^ w + 2 ^ w * packNat w es < _
    rw [List.length_cons, Nat.mul_add, Nat.mul_one, Nat.pow_add]
    have h2 : 2 ^ w * (packNat w es + 1) ≤ 2 ^ w * 2 ^ (w * es.length) := Nat.mul_le_mul_left _ ih
    rw [Nat.mul_comm (2 ^ (w * es.length))]
    rw [Nat.mul_add] at h2
    omega

theorem packNat_el (w : Nat) (es : List Nat) (k : Nat) : packNat w es / 2 ^ (w * k) % 2 ^ w = es.getD k 0 % 2 ^ w := by
  induction es generalizing k with
  | nil => simp [packNat]
  | cons e es ih =>
    show (e % 2 ^ w + 2 ^ w * packNat w es) / _ % _ = _
    cases k with
    | zero => simp [Nat.add_mul_mod_self_left]
    | succ k =>
      rw [Nat.mul_succ, Nat.add_comm (w * k), Nat.pow_add, ← Nat.div_div_eq_div_mul,
        Nat.add_mul_div_left _ _ (Nat.two_pow_pos w), Nat.div_eq_of_lt (Nat.mod_lt _ (Nat.two_pow_pos w)), Nat.zero_add, ih]
      simp

/-- An element of a value by numbers is its element by bits. -/
theorem lmt_eq_el (w k : Nat) (x : Word) : lmt w k x = (el w k x).toNat := by
  simp [lmt, el, BitVec.extractLsb'_toNat, Nat.shiftRight_eq_div_pow]

/-- An element of a packed value. -/
theorem el_packEls (w : Nat) (es : List Nat) (k : Nat) (h : w * es.length ≤ 64) : el w k (packEls w es) = BitVec.ofNat w (es.getD k 0) := by
  apply BitVec.eq_of_toNat_eq
  have hlt : packNat w es < 2 ^ 64 := lt_of_lt_of_le (packNat_lt w es) (Nat.pow_le_pow_right (by decide) h)
  simp only [el, packEls, BitVec.extractLsb'_toNat, BitVec.toNat_ofNat, Nat.shiftRight_eq_div_pow]
  show (packNat w es % 2 ^ 64) / _ % _ = _
  rw [Nat.mod_eq_of_lt hlt, packNat_el]

/-- An element-wise map, element by element. -/
theorem el_mapEls (w : Nat) (f : Nat → Nat → Nat) (a b : Word) (k : Nat) (h : k < 64 / w) :
    el w k (mapEls w f a b) = BitVec.ofNat w (f (el w k a).toNat (el w k b).toNat) := by
  unfold mapEls
  rw [el_packEls _ _ _ (by rw [List.length_map, List.length_range]; exact Nat.mul_div_le 64 w)]
  congr 1
  rw [List.getD_eq_getElem _ _ (by simpa using h)]
  simp [lmt_eq_el]

/-- The signed value of an element. -/
theorem sgn_toNat {w : Nat} (x : BitVec w) (hw : 0 < w) : sgn w x.toNat = x.toInt := by
  have h : x.toNat % 2 ^ w = x.toNat := Nat.mod_eq_of_lt x.isLt
  unfold sgn
  rw [h, BitVec.toInt_eq_toNat_cond]
  obtain ⟨n, rfl⟩ : ∃ n, w = n + 1 := ⟨w - 1, by omega⟩
  have e : (2 * x.toNat < 2 ^ (n + 1)) ↔ x.toNat < 2 ^ (n + 1 - 1) := by rw [Nat.pow_succ, Nat.add_sub_cancel]; omega
  by_cases hh : x.toNat < 2 ^ (n + 1 - 1)
  · rw [if_pos hh, if_pos (e.2 hh)]
  · rw [if_neg hh, if_neg (fun a => hh (e.1 a))]; push_cast; rfl

/-- The encoding of an integer as bits. -/
theorem ofNat_encInt (w : Nat) (v : Int) : BitVec.ofNat w (encInt w v) = BitVec.ofInt w v := by
  apply BitVec.eq_of_toNat_eq
  unfold encInt
  rw [BitVec.toNat_ofNat, BitVec.toNat_ofInt]
  have h0 : 0 ≤ v % (2 : Int) ^ w := Int.emod_nonneg _ (by positivity)
  have h1 : v % (2 : Int) ^ w < 2 ^ w := Int.emod_lt_of_pos _ (by positivity)
  have h2 : (v % (2 : Int) ^ w).toNat < 2 ^ w := by zify; rw [Int.toNat_of_nonneg h0]; exact h1
  rw [Nat.mod_eq_of_lt h2]
  push_cast
  rfl

/-- The clamp of R109. -/
theorem clampInt_eq (w : Nat) (v : Int) : BitVec.ofInt w (clampInt w false v) = clampS w v := by
  have hlo : intLo w false = -2 ^ (w - 1) := by simp [intLo]
  have hhi : intHi w false = 2 ^ (w - 1) - 1 := by simp [intHi]
  have hpos : (0 : Int) < 2 ^ (w - 1) := by positivity
  unfold clampInt clampS
  rw [hlo, hhi]
  congr 1
  generalize (2 : Int) ^ (w - 1) = M at *
  split
  · omega
  · split <;> omega

/-- Signed arithmetic, element by element: wrapping, or clamped (R109, R148). -/
theorem el_arith (w : Nat) (hw : 0 < w) (f : Int → Int → Int) (t : Bool) (a b : Word) (k : Nat) (h : k < 64 / w) :
    el w k (arith w f t a b) =
      if t then clampS w (f (el w k a).toInt (el w k b).toInt) else BitVec.ofInt w (f (el w k a).toInt (el w k b).toInt) := by
  unfold arith
  rw [el_mapEls _ _ _ _ _ h]
  simp only [sgn_toNat _ hw, ofNat_encInt]
  cases t <;> simp [clampInt_eq]

end Sys2Proof.Machine
end

