-- ==== Sys2Proof/Laws/Retire.lean ====
section
/-! SUPPORT. What retirement does, and what a vector instruction leaves: every field of the crew, and nothing else of the machine
(R17, R39, R42, R107, R144, R402). -/

namespace Sys2Proof.Machine

/-- A retirement changes one crew. -/
theorem State.retire_eq (s : State) (c : Cur) (r : Done) :
    s.retire c r = s.setCrew c.core c.slot ((s.crew c.core c.slot).retired c r) := rfl

/-- Retirement changes the fibres, RETI, the watchdog, the unit and the last PC of a crew, the restart points that its loads stand
behind, and nothing else of it. -/
theorem Crew.retired_eq (w : Crew) (c : Cur) (r : Done) :
    w.retired c r = { w with
      fibres := (w.retired c r).fibres, loads := (w.retired c r).loads, reti := w.reti + popMask c.lanes
      wdog := 0, unit := w.unitApart c.lanes, lastPc := c.pc } := by
  unfold Crew.retired
  simp only
  split
  · rw [Crew.modLanes_eq]; rfl
  · rw [Crew.modLanes_eq]

/-- A retirement that leaves the restart point leaves the loads. -/
theorem Crew.loads_retired (w : Crew) (c : Cur) (r : Done) (h : r.restart = false) : (w.retired c r).loads = w.loads := by
  unfold Crew.retired
  simp only [h]
  rw [if_neg (by decide), Crew.modLanes_eq]

/-- A fibre after a retirement that leaves the restart point. -/
theorem Crew.fibre_retired (w : Crew) (c : Cur) (r : Done) (l : Nat) (h : r.restart = false) :
    (w.retired c r).fibre l = if c.lanes.getLsbD l then (w.fibre l).retired c r w.units l else w.fibre l := by
  unfold Crew.retired
  simp only [h]
  exact Crew.fibre_modLanes _ _ _ _

/-- A fibre after a retirement that advances the restart point. -/
theorem Crew.fibre_retired_restart (w : Crew) (c : Cur) (r : Done) (l : Nat) (h : r.restart = true) :
    (w.retired c r).fibre l =
      (if c.lanes.getLsbD l then (w.fibre l).retired c r w.units l else w.fibre l).settled c.lanes := by
  unfold Crew.retired
  simp only [h, if_true]
  show Tab.get (Tab.mapVals _ _ _) _ _ = _
  rw [Tab.get_mapVals _ _ _ rfl]
  exact congrArg (fun f => Fibre.settled f c.lanes) (Crew.fibre_modLanes _ _ _ _)

/-- A fibre after a retirement depends on the fibres and the issue count alone. -/
theorem Crew.fibre_retired_congr (w w' : Crew) (c : Cur) (r : Done) (l : Nat) (hf : ∀ n, w'.fibre n = w.fibre n)
    (hu : w'.units = w.units) : (w'.retired c r).fibre l = (w.retired c r).fibre l := by
  cases h : r.restart with
  | false => rw [Crew.fibre_retired _ _ _ _ h, Crew.fibre_retired _ _ _ _ h, hf, hu]
  | true => rw [Crew.fibre_retired_restart _ _ _ _ h, Crew.fibre_retired_restart _ _ _ _ h, hf, hu]

end Sys2Proof.Machine
end

