-- ==== Sys2Proof/Laws/Ops.lean ====
section
/-! SUPPORT. What the shared operations of an issue leave: the checks that pass, and vector, uniform and predicate results
(R28, R39, R65, R98, R144, R157, R175). -/

namespace Sys2Proof.Machine

variable {s : State} {c : Cur}

/-- The checks pass for a fragment that may act. -/
theorem State.gate_ready {r : Roles} {all : Bool} {us : List Use} {pr : Bool} {m : BitVec 32} {xs : Nat → List Src}
    (h : s.Ready c r all us pr m xs) (k : State) : s.gate c r all us k = k := by
  obtain ⟨-, h1, h2, h3, -⟩ := h
  simp [State.gate, h1, h2, h3]

/-- The reads find nothing for a fragment that may act. -/
theorem State.reads_ready {r : Roles} {all : Bool} {us : List Use} {pr : Bool} {m : BitVec 32} {xs : Nat → List Src}
    (h : s.Ready c r all us pr m xs) (k : State) : s.reads c pr m xs k = k := by
  obtain ⟨-, -, -, -, h1, h2, h3⟩ := h
  simp [State.reads, h1, h2, h3]

/-- A meaning acts for the fragment in hand. -/
theorem State.run_cur (h : s.cur = some c) (f : Cur → State) : s.run f = .next (f c) := by
  simp [State.run, h]

/-- Where the lanes of a plain retirement go. -/
theorem Cur.target_plain (c : Cur) (r : Done) (h : r.pcs = []) (l : Nat) : c.target r l = c.nextPc := by
  simp [Cur.target, Cur.nextPc, h]

/-- The lanes of a plain retirement stay together. -/
theorem Cur.splits_plain (c : Cur) (r : Done) (h : r.pcs = []) : c.splits r = false := by
  have e : (lanesOf c.lanes).map (c.target r) = List.replicate (lanesOf c.lanes).length c.nextPc := by
    rw [List.eq_replicate_iff]
    refine ⟨by simp, ?_⟩
    intro x hx
    obtain ⟨l, -, rfl⟩ := List.mem_map.1 hx
    exact c.target_plain r h l
  unfold Cur.splits
  rw [e]
  have k : ∀ n, (List.replicate n c.nextPc).eraseDups.length ≤ 1 := by
    intro n
    cases n with
    | zero => simp
    | succ n =>
      have hf : (List.replicate n c.nextPc).filter (fun b => !b == c.nextPc) = [] := by
        rw [List.filter_eq_nil_iff]
        intro a ha
        rw [(List.mem_replicate.1 ha).2]
        simp
      rw [List.replicate_succ, List.eraseDups_cons, hf]
      simp
  simpa using k _

/-- The latch result of a lane in a list of them. -/
theorem find_lane {α : Type} (ls : List Nat) (x : Nat → α) (l : Nat) :
    (ls.map (fun l => (l, x l))).find? (fun e => e.1 = l) = if l ∈ ls then some (l, x l) else none := by
  induction ls with
  | nil => simp
  | cons a ls ih =>
    rw [List.map_cons, List.find?_cons]
    by_cases h : a = l
    · subst h; simp
    · simp only [h, decide_false, ih, List.mem_cons, Ne.symm h, false_or]

/-- A fibre after a plain retirement. -/
theorem Fibre.retired_plain (f : Fibre) (c : Cur) (r : Done) (u l : Nat) (h : r.pcs = []) (hr : r.restart = false) :
    f.retired c r u l =
      ((fun f : Fibre => if r.swap then f.noLatch else f) (match r.latch.find? (fun e => e.1 = l) with
        | some e => f.latched e.2
        | none => f)).after c u c.nextPc := by
  unfold Fibre.retired
  simp only [c.target_plain r h, c.splits_plain r h, hr]
  cases r.latch.find? (fun e => e.1 = l) <;> cases r.swap <;> simp [Fibre.after, Fibre.push, Fibre.latched, Fibre.noLatch]

theorem Crew.raised_eq (w : Crew) (m : BitVec 32) (x : Nat → Word × FSet) :
    w.flagsOf ((lanesOf m).map (fun l => (l, x l))) = w.raised m (fun l => (x l).2) := by
  unfold Crew.flagsOf Crew.raised
  rw [List.foldl_map]
  congr 1
  funext a l
  unfold Crew.flagLane
  rcases Nat.mod_two_eq_zero_or_one l with h | h <;> cases w.tandem <;> simp [h]

/-- A crew whose registers and flags alone have changed, retired. -/
theorem Crew.wentOn_of (w x : Crew) (c : Cur) (r : Done) (hf : ∀ n, x.fibre n = w.fibre n)
    (hx : x = { w with v := x.v, s := x.s, m := x.m, mtag := x.mtag, fflags := x.fflags, fibres := x.fibres })
    (hp : r.pcs = []) (hr : r.restart = false) :
    w.WentOn (x.retired c r) c (fun l f => (fun f : Fibre => if r.swap then f.noLatch else f) (match r.latch.find? (fun e => e.1 = l) with
        | some e => f.latched e.2
        | none => f)) := by
  have hu : x.units = w.units := by rw [hx]
  constructor
  · intro l
    rw [Crew.fibre_retired_congr w x c r l hf hu, Crew.fibre_retired _ _ _ _ hr]
    split
    · rw [Fibre.retired_plain _ _ _ _ _ hp hr]
    · rfl
  · rw [Crew.retired_eq x, Crew.loads_retired _ _ _ hr, hx]; rfl

/-- What a vector result leaves. -/
theorem State.putV_done (s : State) (c : Cur) (k : Bool) (d : BitVec 6) (m : BitVec 32) (x : Nat → Word × FSet) :
    s.VecDone (s.putV c k d ((lanesOf m).map (fun l => (l, x l)))) c k d m (fun l => (x l).1) ((s.cw c).raised m (fun l => (x l).2)) := by
  let w := s.cw c
  let vals : List (Nat × Word) := (lanesOf m).map (fun l => (l, (x l).1))
  let w1 : Crew := { (if k then w else w.writeV d.toNat vals) with fflags := w.fflags ||| w.flagsOf ((lanesOf m).map (fun l => (l, x l))) }
  have e : s.putV c k d ((lanesOf m).map (fun l => (l, x l))) = s.setCrew c.core c.slot (w1.retired c { latch := vals }) := by
    unfold State.putV State.retire
    rw [State.modCrew_modCrew]
    simp only [List.map_map]
    rfl
  have hw : w1 = { w with v := w1.v, fflags := w1.fflags } := by
    show ({ (if k then w else w.writeV d.toNat vals) with fflags := _ } : Crew) = _
    cases k with
    | true => rfl
    | false => simp only [Bool.false_eq_true, if_false]; rw [Crew.writeV_eq]; rfl
  have hf : ∀ n, w1.fibre n = w.fibre n := fun n => by rw [hw]; rfl
  have hgo := Crew.wentOn_of w w1 c { latch := vals } hf (by rw [hw]) rfl rfl
  have hv : (w1.retired c { latch := vals }).v = w1.v := by rw [Crew.retired_eq]
  refine ⟨w1.retired c { latch := vals }, e, ?_, ?_, ?_, ?_, ?_, ?_⟩
  · have : (fun (l : Nat) (f : Fibre) => if m.getLsbD l then f.latched ((x l).1) else f)
        = (fun l f => (fun f : Fibre => if ({ latch := vals } : Done).swap then f.noLatch else f) (match ({ latch := vals } : Done).latch.find? (fun e => e.1 = l) with
        | some e => f.latched e.2
        | none => f)) := by
      funext l f
      show _ = match vals.find? (fun e => e.1 = l) with
        | some e => f.latched e.2
        | none => f
      rw [show vals = (lanesOf m).map (fun l => (l, (x l).1)) from rfl, find_lane (lanesOf m) (fun l => (x l).1) l]
      simp only [mem_lanesOf]
      by_cases hm : m.getLsbD l = true
      · rw [if_pos hm, if_pos hm]
      · rw [if_neg hm, if_neg hm]
    show w.WentOn _ c (fun (l : Nat) (f : Fibre) => if m.getLsbD l then f.latched ((x l).1) else f)
    rw [this]
    exact hgo
  · rw [Crew.retired_eq, hw]
  · rw [Crew.retired_eq, hw]
  · rw [Crew.retired_eq, hw]
  · rw [Crew.retired_eq]
    show w.fflags ||| w.flagsOf _ = _
    rw [Crew.raised_eq]
  · intro l n hl
    have hh : (w1.retired c { latch := vals }).vreg l n = w1.vreg l n := by unfold Crew.vreg; rw [hv]
    rw [hh]
    show Tab.get (if k then w else w.writeV d.toNat vals).v {} (32 * n + l) = _
    cases k with
    | true => simp; rfl
    | false =>
      simp only [Bool.false_eq_true, if_false, true_and]
      have := Crew.vreg_writeV w d.toNat vals l n hl
        (by
          intro e he
          obtain ⟨a, ha, rfl⟩ := List.mem_map.1 he
          exact List.mem_range.1 (List.mem_of_mem_filter ha))
        (by simpa [vals, List.map_map, Function.comp_def] using nodup_lanesOf m)
      show (w.writeV d.toNat vals).vreg l n = _
      rw [this, show vals = (lanesOf m).map (fun l => (l, (x l).1)) from rfl, find_lane (lanesOf m) (fun l => (x l).1) l]
      simp only [mem_lanesOf]
      by_cases hm : m.getLsbD l = true
      · simp only [hm, if_true, true_and]; rfl
      · simp [hm]; rfl

/-- What a vector instruction leaves, for a fragment that may act. -/
theorem State.vec_done {r : Roles} {k : Bool} {g : BitVec 3} {d : BitVec 6} {xs : List Src} {rd : Bool}
    (h : s.VecReady c r k g d xs rd) (f : Crew → Nat → Word × FSet) :
    s.VecDone (s.vec c r k g d xs rd f) c k d (s.act c g) (fun l => (f (s.cw c) l).1)
      ((s.cw c).raised (s.act c g) (fun l => (f (s.cw c) l).2)) := by
  unfold State.vec
  rw [State.gate_ready h, State.reads_ready h]
  exact s.putV_done c k d (s.act c g) (f (s.cw c))

/-- What a uniform result leaves. -/
theorem State.putU_done (s : State) (c : Cur) (k : Bool) (d : BitVec 5) (m : BitVec 32) (x : Word) :
    s.UniDone (s.putU c k d m x {}) c k d m x := by
  let w := s.cw c
  let w1 : Crew := if k then w else w.setSreg d.toNat { val := x }
  let r : Done := { latch := (lanesOf m).map (fun l => (l, x)) }
  have e : s.putU c k d m x {} = s.setCrew c.core c.slot (w1.retired c r) := by
    unfold State.putU State.retire
    rw [State.modCrew_modCrew]
    rfl
  have hw : w1 = { w with s := w1.s } := by
    show (if k then w else w.setSreg d.toNat { val := x }) = _
    cases k <;> rfl
  have hf : ∀ n, w1.fibre n = w.fibre n := fun n => by rw [hw]; rfl
  have hgo := Crew.wentOn_of w w1 c r hf (by rw [hw]) rfl rfl
  refine ⟨w1.retired c r, e, ?_, ?_, ?_, ?_, ?_, ?_⟩
  · have : (fun (l : Nat) (f : Fibre) => if m.getLsbD l then f.latched x else f)
        = (fun l f => (fun f : Fibre => if r.swap then f.noLatch else f) (match r.latch.find? (fun e => e.1 = l) with
        | some e => f.latched e.2
        | none => f)) := by
      funext l f
      show _ = match ((lanesOf m).map (fun l => (l, x))).find? (fun e => e.1 = l) with
        | some e => f.latched e.2
        | none => f
      rw [find_lane (lanesOf m) (fun _ => x) l]
      simp only [mem_lanesOf]
      by_cases hm : m.getLsbD l = true
      · rw [if_pos hm, if_pos hm]
      · rw [if_neg hm, if_neg hm]
    show w.WentOn _ c _
    rw [this]
    exact hgo
  · rw [Crew.retired_eq, hw]
  · rw [Crew.retired_eq, hw]
  · rw [Crew.retired_eq, hw]
  · rw [Crew.retired_eq, hw]
  · intro n
    have hh : (w1.retired c r).sreg n = w1.sreg n := by unfold Crew.sreg; rw [Crew.retired_eq]
    rw [hh]
    show (if k then w else w.setSreg d.toNat { val := x }).sreg n = _
    cases k with
    | true => simp; rfl
    | false => simp only [Bool.false_eq_true, if_false, true_and, Crew.sreg_setSreg]; rfl

/-- What an instruction leaves that retires after a change of flags and of the fragment's fibres. -/
theorem State.retire_done (s : State) (c : Cur) (r : Done) (hp : r.pcs = []) (hr : r.restart = false) (hl : r.latch = []) :
    s.FibreDone (s.retire c r) c (fun _ f => if r.swap then f.noLatch else f) 0 := by
  refine ⟨(s.cw c).retired c r, rfl, ?_, ?_, ?_, ?_, ?_, ?_⟩
  · have := Crew.wentOn_of (s.cw c) (s.cw c) c r (fun _ => rfl) rfl hp hr
    simpa [hl] using this
  all_goals rw [Crew.retired_eq]
  simp

/-- A crew whose fragment's fibres were changed, retired. -/
theorem Crew.wentOn_lanes (w x : Crew) (c : Cur) (r : Done) (g : Nat → Fibre → Fibre)
    (hf : ∀ n, x.fibre n = if c.lanes.getLsbD n then g n (w.fibre n) else w.fibre n)
    (hx : x = { w with v := x.v, s := x.s, m := x.m, mtag := x.mtag, fflags := x.fflags, fibres := x.fibres })
    (hp : r.pcs = []) (hr : r.restart = false) (hl : r.latch = []) (hs : r.swap = false) : w.WentOn (x.retired c r) c g := by
  have hu : x.units = w.units := by rw [hx]
  constructor
  · intro l
    rw [Crew.fibre_retired _ _ _ _ hr, hf, hu]
    by_cases h : c.lanes.getLsbD l = true
    · rw [if_pos h, if_pos h, Fibre.retired_plain _ _ _ _ _ hp hr, hl, hs]
      simp [h]
    · rw [if_neg h, if_neg h]
      simp [h]
  · rw [Crew.retired_eq x, Crew.loads_retired _ _ _ hr, hx]; rfl

/-- Predicate writes lane by lane. -/
theorem Crew.fibre_writeP (w : Crew) (p : BitVec 4) (j : Bool) (ls : List Nat) (b : Nat → Bool) (hd : ls.Nodup) (n : Nat) :
    (w.writeP p j (ls.map (fun l => (l, b l)))).fibre n =
      if n ∈ ls then (w.fibre n).setPred p.toNat (b n && (!j || (w.fibre n).pred p.toNat)) else w.fibre n := by
  unfold Crew.writeP
  rw [List.foldl_map]
  exact Crew.fibre_foldl ls (fun l f => f.setPred p.toNat (b l && (!j || f.pred p.toNat))) w n hd

theorem Crew.writeP_eq (w : Crew) (p : BitVec 4) (j : Bool) (vals : List (Nat × Bool)) :
    w.writeP p j vals = { w with fibres := (w.writeP p j vals).fibres } := by
  unfold Crew.writeP
  induction vals generalizing w with
  | nil => rfl
  | cons e vals ih => rw [List.foldl_cons, ih]; rfl

/-- What a compare leaves, for a fragment that may act. -/
theorem State.cmpOp_done {r : Roles} {p : BitVec 4} {j pr : Bool} {xs : List Src}
    (h : s.Ready c r false (xs.map srcUse) (j || pr) c.lanes (fun _ => xs)) (f : Crew → Nat → Bool × FSet) :
    s.FibreDone (s.cmpOp c r p j xs pr f) c (fun l x => x.setPred p.toNat ((f (s.cw c) l).1 && (!j || x.pred p.toNat)))
      ((s.cw c).raised c.lanes (fun l => (f (s.cw c) l).2)) := by
  unfold State.cmpOp
  rw [State.gate_ready h, State.reads_ready h]
  let w := s.cw c
  let F : FSet := w.flagsOf (((lanesOf c.lanes).map (fun l => (l, f w l))).map (fun x => (x.1, 0, x.2.2)))
  let vals : List (Nat × Bool) := (lanesOf c.lanes).map (fun l => (l, (f w l).1))
  let w1 : Crew := { w with fflags := w.fflags ||| F }
  let w2 : Crew := w1.writeP p j vals
  have e : (s.raise c F).putP c p j (((lanesOf c.lanes).map (fun l => (l, f w l))).map (fun x => (x.1, x.2.1)))
      = s.setCrew c.core c.slot (w2.retired c {}) := by
    unfold State.putP State.raise State.retire
    rw [State.modCrew_modCrew, State.modCrew_modCrew]
    simp only [List.map_map]
    rfl
  have h2 : w2 = { w with fibres := w2.fibres, fflags := w1.fflags } := by
    show w1.writeP p j vals = _
    rw [Crew.writeP_eq]
  have hf : ∀ n, w2.fibre n = if c.lanes.getLsbD n then (w.fibre n).setPred p.toNat ((f w n).1 && (!j || (w.fibre n).pred p.toNat)) else w.fibre n := by
    intro n
    show (w1.writeP p j vals).fibre n = _
    rw [show vals = (lanesOf c.lanes).map (fun l => (l, (f w l).1)) from rfl, Crew.fibre_writeP _ _ _ _ (fun l => (f w l).1) (nodup_lanesOf _)]
    simp only [mem_lanesOf]
    rfl
  refine ⟨w2.retired c {}, e, ?_, ?_, ?_, ?_, ?_, ?_⟩
  · exact Crew.wentOn_lanes w w2 c {} _ hf (by rw [h2]) rfl rfl rfl rfl
  · rw [Crew.retired_eq, h2]
  · rw [Crew.retired_eq, h2]
  · rw [Crew.retired_eq, h2]
  · rw [Crew.retired_eq, h2]
  · rw [Crew.retired_eq, h2]
    show w.fflags ||| F = _
    have : F = w.raised c.lanes (fun l => (f w l).2) := by
      show w.flagsOf _ = _
      rw [List.map_map]
      exact Crew.raised_eq w c.lanes (fun l => ((0 : Word), (f w l).2))
    rw [this]

/-- A predicate write. -/
theorem Fibre.setPred_spec (f : Fibre) (p : BitVec 4) (b : Bool) : f.PredSet (f.setPred p.toNat b) p.toNat b := by
  by_cases h : p.toNat = 0
  · refine ⟨fun _ => by simp [Fibre.setPred, h], fun x => absurd h x, fun x => absurd h x, ?_⟩
    simp [Fibre.setPred, h]
  · have hp : p.toNat < 16 := p.isLt
    refine ⟨fun x => absurd x h, ?_, ?_, ?_⟩
    · intro _ q
      unfold Fibre.pred Fibre.setPred
      simp only [h, if_false]
      by_cases h0 : q = 0
      · subst h0; simp [Ne.symm h]
      · by_cases h16 : q < 16
        · have hone : ((1 : BitVec 16).getLsbD q) = false := by
            rw [show (1 : BitVec 16) = BitVec.ofNat 16 (2 ^ 0) from rfl, BitVec.getLsbD_ofNat, Nat.testBit_two_pow]
            simp [Ne.symm h0]
          have htwo : ((BitVec.ofNat 16 (2 ^ p.toNat)).getLsbD q) = decide (p.toNat = q) := by
            rw [BitVec.getLsbD_ofNat, Nat.testBit_two_pow]; simp [h16]
          generalize BitVec.ofNat 16 (2 ^ p.toNat) = two at htwo
          by_cases hq : q = p.toNat
          · subst hq
            cases b <;> simp only [BitVec.getLsbD_or, BitVec.getLsbD_and, BitVec.getLsbD_not, hone, htwo, if_true] <;> simp [h, h16]
          · have hq' : ¬ p.toNat = q := fun e => hq e.symm
            cases b <;> simp only [BitVec.getLsbD_or, BitVec.getLsbD_and, BitVec.getLsbD_not, hone, htwo, if_true] <;> simp [h0, h16, hq, hq']
        · have hq : q ≠ p.toNat := by omega
          have hge : ∀ x : BitVec 16, x.getLsbD q = false := fun x => BitVec.getLsbD_of_ge x q (by omega)
          simp only [hge, hq, if_false]
    · simp [Fibre.setPred, h]
    · simp [Fibre.setPred, h]

end Sys2Proof.Machine
end

