-- ==== Sys2Proof/Tests/Slice0.lean ====
section
/-! SUPPORT. The model's own tests: ill-formed terms that the checks refuse, words written out from the encoding tables, worked examples of
the spec, and for every statement with premises a state and operands that meet them. -/

open Sys2Proof Sys2Proof.Machine

namespace Sys2Proof.Tests

set_option Elab.async false

/-- The instruction in hand: lane 0 of slot 0 of core 0 stands at it. -/
def hand (i : Instr) : Cur := { core := 0, slot := 0, lanes := 1, pc := placedPc, word := encode i, ins := i }

/-- A machine with one crew of one live fibre and an instruction in hand; `f` says what its crew holds. -/
def machine (i : Instr) (f : Crew → Crew) : State :=
  { ((State.reset.withFetchWord 32 (encode i).toNat).modCrew 0 0 f) with agenda := [], cur := some (hand i) }

def opA : OpA := { b := .v 2, a := .v 1, d := 3, k := false, g := 0 }
def opA1 : OpA1 := { a := .v 1, d := 3, k := false, g := 0 }
def opU : OpU := { b := .s 2, a := .s 1, d := 3, k := false, g := 0 }
def opM : OpM := { off := 0, a := .v 1, d := 4, g := 0 }
def opDA : OpDA := { a := .s 1, d := 3, g := 0 }
def opDU : OpDU := { b := .s 2, a := .s 1, d := 3, g := 0 }
def opJ : OpJ := { b := .v 2, a := .v 1, g := 0 }
def opRt : OpRt := { a := .s 1, d := 3 }

/-- v1 holds 5 and v2 holds 7; s1 holds `a` and s2 holds `b`. -/
def regs (a b : Word) (w : Crew) : Crew :=
  { w with v := [(32, { val := 5 }), (64, { val := 7 })], s := [(1, { val := a }), (2, { val := b })] }

/-- The same in system mode. -/
def sysRegs (a b : Word) (w : Crew) : Crew := { regs a b w with sys := true }

/-- v1 holds an address. -/
def addr (a : Word) (w : Crew) : Crew := { w with v := [(32, { val := a }), (64, { val := 7 })] }

/-- The first bytes of the own scratchpad (R240). -/
def padVa : Word := 0x01FFFFFF00000000

/-! Well-formedness refuses an ill-formed term for each of its checks. -/

theorem wf_smoke :
    (Instr.addD { opA with k := true }).wf = false
    ∧ (Instr.uadd { opU with k := true }).wf = false
    ∧ (Instr.uadd { opU with a := .v 1 }).wf = false
    ∧ (Instr.cvt { sel := 0x28, a := .v 1, d := 2, g := 0 }).wf = false
    ∧ (Instr.permD { opA with a := .s 1 }).wf = false
    ∧ (Instr.vote { pa := 1, p := 2, j := false, mode := 3 }).wf = false
    ∧ (Instr.ldQ { opM with d := 3 }).wf = false
    ∧ (Instr.pref { off := 0, a := .v 1, lvl := 2, g := 0 }).wf = false
    ∧ (Instr.acas { opM with d := 63 }).wf = false
    ∧ (Instr.fence { scope := 5, g := 0 }).wf = false
    ∧ (Instr.cpy { sb := 0, sa := 31, d := 1, g := 0 }).wf = false
    ∧ (Instr.mshape { ty := false, cols := 0, rows := 2, d := 1, g := 0 }).wf = false
    ∧ (Instr.mld { xp := false, stride := 0, a := .lane, d := 1, g := 0 }).wf = false
    ∧ (Instr.mmovv { dir := false, v := 1, j := 6, i := 0, m := 1, g := 0 }).wf = false
    ∧ (Instr.msolc { mode := 3, b := 1, a := 2, d := 3, g := 0 }).wf = false
    ∧ (Instr.midn { ty := false, n := 7, d := 3, g := 0 }).wf = false
    ∧ (Instr.tld { w := 31, t := 0, cv := 0, g := 0 }).wf = false
    ∧ (Instr.tmma { w := 1, t := 0, ad := 48, cv := 0, g := 0 }).wf = false
    ∧ (Instr.csrr { csr := 4, d := 1, g := 0 }).wf = false
    ∧ (Instr.hintMod { en := false, rm := 1, sat := false, cache := 0 }).wf = false := by decide +kernel

/-! Words written out bit by bit from the encoding tables: format, group and function of R94 and R99, operand codes of R96. -/

theorem test_decode_arithmetic :
    decodeWord 0x04044054#32 = .ok (.pand { pb := 2, pa := 1, p := 4, j := false })
    ∧ decodeWord 0x06042106#32 = .ok (.permD { b := .v 3, a := .v 1, d := 2, k := false, g := 1 })
    ∧ decodeWord 0xC81441C6#32 = .ok (.matchD { a := .v 5, d := 4, k := false, g := 1 })
    ∧ decodeWord 0xC8046186#32 = .ok (.redadd { a := .v 1, d := 6, k := false, g := 1 })
    ∧ decodeWord 0xDF0410B7#32 = .ok (.umovh { imm := 0x6F, a := .s 1, d := 1, k := false, g := 0 })
    ∧ decodeWord 0x01579B1F#32 = .ok (.hintImm { p := 0x01579B })
    ∧ decodeWord 0x000000F4#32 = .error .reservedOpcode
    ∧ decodeWord 0x01A00000#32 = .error .reservedOperand := by decide +kernel

theorem test_decode_system :
    decodeWord 0x870840FB#32 = .ok (.ownx { b := .s 3, a := .s 2, d := 4, g := 0 })
    ∧ decodeWord 0x870850DB#32 = .ok (.snapTake { b := .s 3, a := .s 2, d := 5, g := 0 })
    ∧ decodeWord 0xC930609B#32 = .ok (.cwaitBatch { a := .s 12, d := 6, g := 0 })
    ∧ decodeWord 0xC990608B#32 = .ok (.sealBatch { d := 6, g := 0 })
    ∧ decodeWord 0x870800CB#32 = .ok (.notify { b := .s 3, a := .s 2, d := 0, g := 0 })
    ∧ decodeWord 0xC908409E#32 = .ok (.ctxfl { a := .s 2, d := 4, g := 0 })
    ∧ decodeWord 0xC90C50AE#32 = .ok (.haltg { a := .s 3, d := 5, g := 0 })
    ∧ decodeWord 0xC91030EB#32 = .ok (.accg { a := .s 4, d := 3, g := 0 })
    ∧ decodeWord 0x0004300E#32 = .ok (.csrr { csr := 1, d := 3, g := 0 }) := by decide +kernel


theorem test_decode_examples :
    decodeWord 0x06081010#32 = .ok (.addW { b := .v 3, a := .v 2, d := 1, k := false, g := 0 })
    ∧ decodeWord 0x04043003#32 = .ok (.fminD { b := .v 2, a := .v 1, d := 3, k := false, g := 0 })
    ∧ decodeWord 0x040430E5#32 = .ok (.idivD { b := .v 2, a := .v 1, d := 3, g := 0 })
    ∧ decodeWord 0x00002008#32 = .ok (.bra { off := 4, g := 0 })
    ∧ decodeWord 0x110C8069#32 = .ok (.ldD { off := 8, a := .s 3, d := 8, g := 0 })
    ∧ decodeWord 0xFC08502A#32 = .ok (.stW { off := 0x7E, a := .v 2, d := 5, g := 0 })
    ∧ decodeWord 0x050810A9#32 = .ok (.ldaD { scope := 2, a := .s 2, d := 1, g := 0 })
    ∧ decodeWord 0x0108608A#32 = .ok (.aadd { off := 0, a := .s 2, d := 6, g := 0 })
    ∧ decodeWord 0x030860EA#32 = .ok (.acas { off := 1, a := .s 2, d := 6, g := 0 })
    ∧ decodeWord 0x0000208C#32 = .ok (.mchol { a := 0, d := 2, g := 0 })
    ∧ decodeWord 0x001230AC#32 = .ok (.msolc { mode := 0, b := 1, a := 2, d := 3, g := 0 })
    ∧ decodeWord 0x060000DC#32 = .ok (.mflag { clr := false, v := 6, g := 0 })
    ∧ decodeWord 0x92A0008D#32 = .ok (.tckv { w := 9, t := 5, cv := 0, k := false, g := 0 })
    ∧ decodeWord 0x94C220DD#32 = .ok (.dqry { w := 10, t := 6, ad := 4, cv := 2, g := 0 }) := by decide +kernel

/-! Witnesses: a state and operands that meet the premises of each statement, clause by clause. -/

/-- StepRunsDecoded: the turn of the placed crew. -/
theorem witness_turn :
    let s := State.reset.withFetchWord 32 0x701440C1
    let t : State := { s with agenda := [] }
    ∃ f, s.agenda = .issue 0 0 :: [] ∧ (t.crew 0 0).peloton = true ∧ t.crewReady 0 0 = true ∧ t.pick 0 0 = some f
      ∧ (t.crew 0 0).heldWord f = none ∧ t.holdSlot (t.curOf 0 0 f 0) = none ∧ (t.fetch 0 0 f.pc).2 = .word 0x701440C1#32
      ∧ (t.fetch 0 0 f.pc).1.stalled ((t.fetch 0 0 f.pc).1.curOf 0 0 f 0x701440C1#32) = false
      ∧ (match decodeWord 0x701440C1#32 with
        | .ok i => ((t.fetch 0 0 f.pc).1.curOf 0 0 f 0x701440C1#32).unitOk i
        | .error _ => false) = true :=
  ⟨{ lanes := 1, pc := 0x10000, age := 0 }, by decide +kernel⟩

/-- StepRunsEvent. -/
theorem witness_event : ({ State.reset with agenda := [.event .deviceReset {}] } : State).agenda = .event .deviceReset {} :: [] := rfl

/-- ReservedWordFaults: a reserved opcode, a reserved hint payload, and a TRAP whose unit makes its code reserved. -/
theorem witness_reserved :
    let i := Instr.trap { imm := 5, g := 0 }
    let c : Cur := { hand i with pfx := { imm := some 0xFFFFFF } }
    (decodeWord 0x000000F4#32 = .error .reservedOpcode) ∧ decodeWord 0xFFFFFF5F#32 = .error .badHint
    ∧ (decodeWord c.word = .ok i ∧ c.unitOk i = false) ∧ (hand i).unitOk i = true := by decide +kernel

/-- MemoryWrites: a memory with one byte listed. -/
theorem witness_memory : Memory.wf [(7, 3)] = true := by decide

/-- ChecksBeforeEffect: a register out of range, a wrong role, a pending operand, a latch with bad parity, a poisoned source. -/
theorem witness_checks :
    let i := Instr.addD opA
    let c := hand i
    let us : List Use := [.v 1, .v 2, .v 3]
    let s := machine i (regs 0 0)
    let far := machine (.addD { opA with d := 63, a := .s 1, b := .s 2 }) (fun w => { w with vgran := 1 })
    let m := machine (.faddD opA) (fun w => { w with role := .copy })
    let p := machine i (fun w => { w with loads := [{ id := 1, kind := .plain 8 false, d := 1, by_ := 1, lanes := [{ lane := 0, va := 0, place := .die 0, reg := 1 }] }] })
    let l := machine i (fun w => { w with fibres := [(0, { w.fibre 0 with lbad := 1, l0 := some 0 })] })
    let q := machine i (fun w => { w with v := [(32, { val := 0, poison := true })] })
    (s.cur = some c ∧ s.inRange c us = true)
    ∧ far.inRange (hand (.addD { opA with d := 63, a := .s 1, b := .s 2 })) [.s 1, .s 2, .v 63] = false
    ∧ (m.inRange (hand (.faddD opA)) us = true ∧ Roles.vector.allows (m.cw (hand (.faddD opA))).role = false)
    ∧ (p.inRange c us = true ∧ Roles.any.allows (p.cw c).role = true ∧ p.pendIds c false us ≠ [])
    ∧ (l.inRange c [] = true ∧ l.anyParity c 1 (fun _ => [.l 0, .v 2]) = true)
    ∧ (q.pendIds c false us = [] ∧ q.anyParity c 1 (fun _ => [.v 1, .v 2]) = false ∧ q.anyPoison c 1 (fun _ => [.v 1, .v 2]) = true) := by
  decide +kernel

/-- The arithmetic statements: a vector-role crew whose operands are readable. -/
theorem witness_vector :
    (machine (.addD opA) (regs 0 0)).VecReady (hand (.addD opA)) .any false 0 3 [.v 1, .v 2] false
    ∧ (machine (.rotD opA) (regs 0 0)).VecReady (hand (.rotD opA)) .any true 0 0 [.v 1, .v 2] false
    ∧ (machine (.addiD { imm := 5, a := .v 1, d := 3, k := false, g := 0 }) (regs 0 0)).VecReady (hand (.addiD { imm := 5, a := .v 1, d := 3, k := false, g := 0 })) .any
        false 0 3 [.v 1] false
    ∧ (machine (.movi { imm := 5, d := 63, k := false, g := 0 }) (regs 0 0)).VecReady (hand (.movi { imm := 5, d := 63, k := false, g := 0 })) .any false 0 63 [] false
    ∧ (machine (.clzD opA1) (regs 0 0)).VecReady (hand (.clzD opA1)) .any false 0 3 [.v 1] false
    ∧ (machine (.faddD opA) (regs 0 0)).VecReady (hand (.faddD opA)) .vector false 0 3 [.v 1, .v 2] false
    ∧ (machine (.ffmaD opA) (regs 0 0)).VecReady (hand (.ffmaD opA)) .vector false 0 3 [.v 1, .v 2] true
    ∧ (machine (.fabsD opA1) (regs 0 0)).VecReady (hand (.fabsD opA1)) .vector false 0 3 [.v 1] false
    ∧ (machine (.fclass { fmt := 3, a := .v 1, d := 3, k := false, g := 0 }) (regs 0 0)).VecReady
        (hand (.fclass { fmt := 3, a := .v 1, d := 3, k := false, g := 0 })) .vector false 0 3 [.v 1] false
    ∧ (machine (.fdot2H opA) (regs 0 0)).VecReady (hand (.fdot2H opA)) .vector false 0 3 [.v 1, .v 2] true
    ∧ (machine (.redadd opA1) (regs 0 0)).VecReady (hand (.redadd opA1)) .any false 0 3 [.v 1] false := by
  refine ⟨?_, ?_, ?_, ?_, ?_, ?_, ?_, ?_, ?_, ?_, ?_⟩ <;> decide +kernel

/-- FloatSpecialCases and RoundingExactAndOverflow: a NaN, two infinities, an infinity and a zero, a division by zero, a negative radicand,
the two zeros, and the largest finite number. -/
theorem witness_float :
    (fmtD.decode 0x7FF8000000000000).isNan = true
    ∧ fmtD.decode 0x7FF0000000000000 = .inf false ∧ fmtD.decode 0xFFF0000000000000 = .inf true
    ∧ (match fmtD.decode 0 with
      | .fin false q => q.num
      | _ => 1) = 0
    ∧ (match fmtD.decode 0xBFF0000000000000 with
      | .fin true q => q.num
      | _ => 0) ≠ 0
    ∧ ((fmtD.decode 0x8000000000000000).cmp (fmtD.decode 0) = .eq ∧ (fmtD.decode 0x8000000000000000).neg = true ∧ (fmtD.decode 0).neg = false)
    ∧ (fmtD.decode 0x3FF0000000000000).cmp (fmtD.decode 0x4000000000000000) = .lt
    ∧ (match fmtD.decode 0x7FEFFFFFFFFFFFFF with
      | .fin n _ => n
      | _ => true) = false := by decide +kernel

/-- PredicateResults and MasksAndSelections: compares of format C under J, predicates, VTOP, VOTE, SEL and PTOV. -/
theorem witness_predicates :
    let cmp : OpC := { b := .v 2, a := .v 1, p := 3, j := true, cond := .lt }
    (machine (.icmpD cmp) (regs 0 0)).Ready (hand (.icmpD cmp)) .any false [.v 1, .v 2] true 1 (fun _ => [.v 1, .v 2])
    ∧ (machine (.fcmpD cmp) (regs 0 0)).Ready (hand (.fcmpD cmp)) .vector false [.v 1, .v 2] true 1 (fun _ => [.v 1, .v 2])
    ∧ (machine (.pnot { pa := 3, p := 3, j := false }) (regs 0 0)).Ready (hand (.pnot { pa := 3, p := 3, j := false })) .any false [] true 1 (fun _ => [])
    ∧ (machine (.vcmpmH cmp) (regs 0 0)).Ready (hand (.vcmpmH cmp)) .any false [.v 1, .v 2, .v 3] false 1 (fun _ => [.v 1, .v 2, .v 3])
    ∧ (machine (.sel { opA with g := 2 }) (regs 0 0)).Ready (hand (.sel { opA with g := 2 })) .any false [.v 1, .v 2, .v 3] true 1 (fun _ => [.v 2])
    ∧ (machine (.ptov { d := 3, k := false, g := 0 }) (regs 0 0)).Ready (hand (.ptov { d := 3, k := false, g := 0 })) .any false [.v 3] true 1 (fun _ => []) := by
  decide +kernel

/-- SpecialFunctionIssues: room in the queue, and a full one. -/
theorem witness_special :
    let o : Op5 := { b := .v 2, a := .v 1, d := 3, g := 0 }
    let full := (machine (.idivD o) (regs 0 0)).modCore 0 (fun k => { k with sfu := List.replicate 16 { slot := 0, results := [], flags := 0 } })
    let v : OpCvt := { sel := 0x28, a := .v 1, d := 3, g := 0 }
    let q : Op51 := { a := .v 1, d := 3, g := 0 }
    let fill (s : State) : State := s.modCore 0 (fun k => { k with sfu := List.replicate 16 { slot := 0, results := [], flags := 0 } })
    (machine (.idivD o) (regs 0 0)).Ready (hand (.idivD o)) .vector false [.v 1, .v 2, .v 3] false 1 (fun _ => [.v 1, .v 2])
    ∧ ((machine (.idivD o) (regs 0 0)).core 0).sfu.length < 16
    ∧ full.Ready (hand (.idivD o)) .vector false [.v 1, .v 2, .v 3] false 1 (fun _ => [.v 1, .v 2]) ∧ 16 ≤ (full.core 0).sfu.length
    ∧ (machine (.fsqrtD q) (regs 0 0)).Ready (hand (.fsqrtD q)) .vector false [.v 1, .v 3] false 1 (fun _ => [.v 1])
    ∧ (fill (machine (.fsqrtD q) (regs 0 0))).Ready (hand (.fsqrtD q)) .vector false [.v 1, .v 3] false 1 (fun _ => [.v 1])
    ∧ (machine (.cvt v) (regs 0 0)).Ready (hand (.cvt v)) .vector false [.v 1, .v 3] false 1 (fun _ => [.v 1])
    ∧ (fill (machine (.cvt v) (regs 0 0))).Ready (hand (.cvt v)) .vector false [.v 1, .v 3] false 1 (fun _ => [.v 1]) := by decide +kernel

/-- SpecialFunctionCompletes: an empty queue, one entry with and without a parity error, an entry of no lane, a unit in progress. -/
theorem witness_completion (e : Bool) :
    let q : SfuOp := { slot := 0, lanes := 1, results := [(0, 3, { val := 9 })], flags := 1 }
    let st (q : SfuOp) (f : Crew → Crew) : State :=
      { ((machine .hintNop f).modCore 0 (fun k => { k with sfu := [q] })) with ev := { flag := e } }
    ((machine .hintNop id).core (machine .hintNop id).ev.core).sfu = []
    ∧ (((st q id).core (st q id).ev.core).sfu = q :: [] ∧ (st q id).ev.flag = e ∧ ((st q id).crew 0 q.slot).inUnit ([q].map SfuOp.id) = false ∧ q.lanes ≠ 0
      ∧ (q.results.map Prod.fst).Nodup ∧ ∀ x ∈ q.results, x.1 < 32)
    ∧ (((st { q with lanes := 0 } id).core 0).sfu = [{ q with lanes := 0 }] ∧ ((st { q with lanes := 0 } id).crew 0 0).inUnit [0] = false)
    ∧ ((st q (fun w => { w with unit := some { lanes := 1, pc := placedPc, pfx := {} } })).crew 0 q.slot).inUnit ([q].map SfuOp.id) = true := by
  cases e <;> decide +kernel

/-- ExchangeResults: an element that is sound, and one that is poisoned. -/
theorem witness_exchange :
    let o : OpA := { opA with b := .v 3 }
    let i := Instr.permD o
    let good := machine i (fun w => { w with v := [(32, { val := 5 })] })
    let bad := machine i (fun w => { w with v := [(32, { val := 5, poison := true })] })
    good.Ready (hand i) .any true [.v 1, .v 3, .v 3] false 1 (fun _ => [.v 3]) ∧ ((good.cw (hand i)).given 0 0 (.v 1)).poison = false
    ∧ bad.Ready (hand i) .any true [.v 1, .v 3, .v 3] false 1 (fun _ => [.v 3]) ∧ ((bad.cw (hand i)).given 0 0 (.v 1)).poison = true := by decide +kernel

/-- UniformResults: two sources, and UREAD with sound and poisoned elements. -/
theorem witness_uniform :
    let o : OpU := { opU with a := .v 1 }
    (machine (.uadd opU) (regs 1 2)).Ready (hand (.uadd opU)) .any false [.s 1, .s 2, .s 3] false 1 (fun _ => [.s 1, .s 2])
    ∧ (machine (.umovi { imm := 3, d := 31, k := false, g := 0 }) (regs 1 2)).Ready (hand (.umovi { imm := 3, d := 31, k := false, g := 0 })) .any false [.s 31] false 1
        (fun _ => [])
    ∧ (machine (.uread o) (regs 1 2)).Ready (hand (.uread o)) .any true [.v 1, .s 2, .s 3] false 1 (fun _ => [.s 2])
    ∧ (machine (.uadd { opU with g := 1 }) (regs 1 2)).act (hand (.uadd { opU with g := 1 })) 1 = 0 := by decide +kernel

/-- BranchesTaken and BranchFaults: a target that is a code address, one beyond 2^57 and one that is odd. -/
theorem witness_branch :
    let i := Instr.brx opJ
    let b : Instr := .bra { off := 4, g := 0 }
    let good := machine i (fun w => { w with v := [(32, { val := 0x10000 }), (64, { val := 8 })] })
    let far := machine i (fun w => { w with v := [(32, { val := 0x0200000000000000 })] })
    let odd := machine i (regs 0 0)
    let target (s : State) : Word := (s.cw (hand i)).val 0 (.v 1) + (s.cw (hand i)).val 0 (.v 2)
    good.Ready (hand i) .any false [.v 1, .v 2, .none] false 1 (fun _ => [.v 1, .v 2]) ∧ target good = 0x10008
    ∧ good.pairsDiffer (hand i) 1 (fun _ => [0x10008]) = false ∧ (good.cw (hand i)).sys = false
    ∧ (machine b id).Ready (hand b) .any false [.none] false 1 (fun _ => [])
    ∧ far.Ready (hand i) .any false [.v 1, .v 2, .none] false 1 (fun _ => [.v 1, .v 2]) ∧ target far = 0x0200000000000000
    ∧ odd.Ready (hand i) .any false [.v 1, .v 2, .none] false 1 (fun _ => [.v 1, .v 2]) ∧ target odd = 12 + 0
    ∧ (machine (.call { off := 4, g := 0 }) id).Ready (hand (.call { off := 4, g := 0 })) .any false [.v 7] false 1 (fun _ => []) := by decide +kernel


/-- FibresEndAndStart: FEND of a crew's last fibre, and of one of two; FSPAWN into a free slot. -/
theorem witness_fibres :
    let i := Instr.fend { g := 0 }
    let two := machine i (fun w => { w with fibres := [(0, w.fibre 0), (1, w.fibre 0)] })
    let o : OpU := { opU with a := .v 1, b := .s 2 }
    let sp := machine (.fspawn o) (fun w => { regs 0 3 w with v := [(32, { val := 0x10000 })] })
    (machine i id).Ready (hand i) .any false [] false 1 (fun _ => []) ∧ two.Ready (hand i) .any false [] false 1 (fun _ => [])
    ∧ sp.Ready (hand (.fspawn o)) .any false [.v 1, .s 2, .s 3] false 1 (fun _ => [.v 1, .s 2]) ∧ (sp.cw (hand (.fspawn o))).tandem = false
    ∧ (1 : BitVec 32) &&& ~~~(sp.cw (hand (.fspawn o))).liveMask = 0 ∧ (sp.cw (hand (.fspawn o))).val 0 (.v 1) = 0x10000
    ∧ ((sp.cw (hand (.fspawn o))).fibre 3).st ≠ .live := by decide +kernel

/-- SetsOfFibres: an empty set, a first arrival, another PC, another set, the same set; CVSET of a free and of a signed register. -/
theorem witness_sets :
    let i := Instr.syncm { a := .s 1 }
    let c := hand i
    let st (a : Word) (y : Option SyncSet) : State := machine i (fun w => { regs a 0 w with sync := y })
    let v := Instr.cvset { a := .s 1, cv := 0 }
    let cv (n : BitVec 32) : State := (machine v (regs 1 0)).modGroup 0 (fun g => g.setCv 0 { owned := true, set := 1, signed_ := n })
    ((st 0 none).Ready c .any false [.s 1] false 1 (fun _ => [.s 1]) ∧ ((st 0 none).cw c).sync = none)
    ∧ (st 1 none).Ready c .any false [.s 1] false 1 (fun _ => [.s 1])
    ∧ (((st 1 (some { mask := 1, pc := 0 })).cw c).sync = some { mask := 1, pc := 0 } ∧ (0 : BitVec 57) ≠ c.pc)
    ∧ ((st 0 (some { mask := 1, pc := placedPc })).Ready c .any false [.s 1] false 1 (fun _ => [.s 1]) ∧ 1 &&& ((st 0 none).cw c).liveMask ≠ 0)
    ∧ (cv 0).Ready (hand v) .any false [.s 1] false 1 (fun _ => [.s 1]) ∧ (((cv 0).group 0).cv 0).signed_ = 0
    ∧ ((cv 1).cur = some (hand v) ∧ (cv 1).inRange (hand v) [.s 1] = true ∧ (cv 1).pendIds (hand v) false [.s 1] = []
      ∧ (((cv 1).group 0).cv 0).signed_ ≠ 0) := by decide +kernel

/-- The offset of a barrier object past the tiles of the placed group. -/
def objOff : Nat := 13440

/-- A machine whose scratchpad holds a word at `objOff`. -/
def withObj (i : Instr) (f : Crew → Crew) (x : Nat) : State := (machine i f).padWrite 0 objOff (leBytes 8 x)

/-- BarriersMeet: a misaligned address, a foreign one, and objects in the middle of a phase, at its end, and malformed. -/
theorem witness_barriers :
    let i := Instr.bara { a := .s 1, d := 3, k := false }
    let c := hand i
    let a : Word := padVa + 13440
    let st (x : Nat) : State := withObj i (regs a 0) x
    let ok (s : State) (x : Nat) : Prop := s.Ready c .any false [.s 1, .s 3] false 1 (fun _ => [.s 1]) ∧ (s.cw c).fenceWaits 2 = false ∧ (s.cw c).impr = []
      ∧ s.ownPad c (s.uval c (.s 1)).toNat = some objOff ∧ s.touchPad (s.cw c).group objOff 8 = s ∧ s.padRead (s.cw c).group objOff 8 = (leBytes 8 x, false)
    (machine i (regs 4 0)).Ready c .any false [.s 1, .s 3] false 1 (fun _ => [.s 1])
    ∧ ((machine i (regs 8 0)).uval c (.s 1) = 8 ∧ (machine i (regs 8 0)).ownPad c 8 = none)
    ∧ ok (st 3) 3 ∧ ok (st 0x10002) 0x10002 ∧ ok (st 0) 0 ∧ ok (st 0x200000001) 0x200000001 := by
  refine ⟨?_, ?_, ?_, ?_, ?_, ?_⟩ <;> decide +kernel

theorem witness_waits :
    let i := Instr.barw { b := .s 2, a := .s 1 }
    let c := hand i
    let s := withObj i (regs (padVa + 13440) 0) 3
    s.Ready c .any false [.s 1, .s 2] false 1 (fun _ => [.s 1, .s 2]) ∧ s.ownPad c (s.uval c (.s 1)).toNat = some objOff
    ∧ s.touchPad (s.cw c).group objOff 8 = s ∧ s.padRead (s.cw c).group objOff 8 = (leBytes 8 3, false)
    ∧ (machine .gbar id).Ready (hand .gbar) .any false [] false 0 (fun _ => []) ∧ ((machine .gbar id).cw (hand .gbar)).fenceWaits 2 = false
    ∧ ((machine .gbar (fun w => { w with ackCl := 1 })).cw (hand .gbar)).fenceWaits 2 = true := by decide +kernel

/-- RegionsPushAndPop: an empty stack, a full one, one with a region. -/
theorem witness_regions :
    let i := Instr.region { imm := 7 }
    let st (i : Instr) (n : Nat) : State := machine i (fun w => { w with rstack := List.replicate n 1 })
    let ok (i : Instr) (n : Nat) : Prop := (st i n).Ready (hand i) .any false [] false 0 (fun _ => []) ∧ (hand i).lanes = ((st i n).cw (hand i)).liveMask
      ∧ ((st i n).cw (hand i)).halted = false ∧ ((st i n).group 0).haltReq = false ∧ (((st i n).cw (hand i)).fibre 0).pc = placedPc
      ∧ ((st i n).cw (hand i)).rstack.length = n
    ok i 0 ∧ ok i 8 ∧ ok .regend 0 ∧ ok .regend 1
    ∧ (hand i).word.extractLsb' 4 4 = 11#4 ∧ (hand i).word.extractLsb' 25 7 = (7 : BitVec 7) ∧ ((hand i).imm 7).toNat < 65536
    ∧ (hand .regend).word.extractLsb' 4 4 = 12#4 := by
  refine ⟨?_, ?_, ?_, ?_, ?_, ?_, ?_, ?_⟩ <;> decide +kernel

/-- TrapTakesFault, and ExceptionEntry in user and in system mode with a queue that is bad. -/
theorem witness_traps :
    let i := Instr.trap { imm := 5, g := 0 }
    (machine i id).Ready (hand i) .any false [] false 1 (fun _ => [])
    ∧ (FaultInfo.lanes { cause := 15, lanes := 1 } ≠ 0 ∧ ((machine i id).cw (hand i)).sys = false)
    ∧ (machine i id).recordSlot 0 = .bad
    ∧ ((machine i (sysRegs 0 0)).cw (hand i)).sys = true := by decide +kernel

/-- A system-mode crew at a RETT of the record at the placed page, whose first words are `x`, and a crew with a fragment suspended for it. -/
def rettOf (x : Sector) : State :=
  let i := Instr.rett opRt
  (machine i (sysRegs 0x10000 0)).modCore 0 (fun k => { k with
    slots := Tab.put k.slots 1 { placedCrew 0 with fibres := [(0, { st := .live, wait := .suspended, record := 0x10000, resumeAt := 0 })] }
    l1 := [{ lsec := 0, tag := 0, sec := x, owner := 0, attr := 0 }] })

/-- ReturnFromTrap: user mode; system mode with an own store to the record, with no such fragment, and with one whose record is poisoned, asks
for its end, or lets it go on. -/
theorem witness_rett :
    let i := Instr.rett opRt
    let held (x : Sector) (pois kill : Bool) : Prop :=
      let s := rettOf x
      s.Ready (hand i) .any false [.s 1, .s 3] false 1 (fun _ => [.s 1]) ∧ (s.cw (hand i)).sys = true ∧ (s.core 0).stq = []
      ∧ s.rettTarget (s.crewCtx 0 0) 0x10000 = some (0, 1, 1) ∧ s.coreXlate 0 (s.crewCtx 0 0) 0x10000 = some { laddr := 0, attr := 0, x := true, r := true }
      ∧ (s.loadBytes 0 0 0 0 24 0 true true).2.2 = pois ∧ ((s.loadBytes 0 0 0 0 24 0 true true).2.1.getD 2 0).getLsbD 6 = kill
    let own := (machine i (sysRegs 64 0)).modCore 0 (fun k => { k with
      stq := [{ slot := 0, crewLid := 0, lsec := 0, tag := 0, ctx := 0, data := 0, mask := 1, addr := 64 }] })
    (machine i (regs 64 0)).Ready (hand i) .any false [.s 1, .s 3] false 1 (fun _ => [.s 1]) ∧ ((machine i (regs 64 0)).cw (hand i)).sys = false
    ∧ (machine i (sysRegs 64 0)).Ready (hand i) .any false [.s 1, .s 3] false 1 (fun _ => [.s 1]) ∧ ((machine i (sysRegs 64 0)).core 0).stq = []
    ∧ (machine i (sysRegs 64 0)).rettTarget 0 64 = none ∧ ((machine i (sysRegs 64 0)).returnFrom 0 0 64).2.2 = false
    ∧ (own.Ready (hand i) .any false [.s 1, .s 3] false 1 (fun _ => [.s 1])
      ∧ (own.core 0).stq.filter (fun q => q.slot = 0 && decide (64 / 32 ≤ q.addr / 32) && decide (q.addr / 32 ≤ (64 + 127) / 32)) ≠ [])
    ∧ held { poison := 1 } true false ∧ held { data := 0x400000 } false true ∧ held {} false false := by
  refine ⟨?_, ?_, ?_, ?_, ?_, ?_, ?_, ?_, ?_, ?_⟩ <;> decide +kernel

/-- RegisterGrow: a value out of range, one that fits, one that does not, and a shrink behind an older grow. -/
theorem witness_regg :
    let i := Instr.regg opRt
    (machine i (regs 9 0)).Ready (hand i) .any false [.s 1, .s 3] false 1 (fun _ => [.s 1])
    ∧ (machine i (regs 1 0)).Ready (hand i) .any false [.s 1, .s 3] false 1 (fun _ => [.s 1]) ∧ ((machine i (regs 1 0)).core 0).grows = []
    ∧ ((machine i (regs 1 0)).setVgran 0 0 1).isSome = true
    ∧ (({ (machine i (regs 8 0)).modCrew 0 0 (fun w => { w with vgran := 1 }) with
        groups := [(0, { placedGroup with partw := 0x00010100, vgr := [] }), (1, { sg0 := 3, vgr := List.range 1024 })] } : State).setVgran 0 0 8).isSome = false
    ∧ (let s := (machine i (regs 2 0)).modCore 0 (fun k => { k with grows := [{ slot := 3, lanes := 1, acc := false, want := 8 }] })
       s.Ready (hand i) .any false [.s 1, .s 3] false 1 (fun _ => [.s 1]) ∧ 2 ≤ (s.cw (hand i)).vgran
       ∧ ∀ r ∈ (s.core 0).grows, ¬(r.slot = 0 ∧ r.acc = false ∧ r.lanes = 1)) := by
  decide +kernel

/-- LoadsIssue and LoadOwnScratchpad: an address in the own scratchpad, and one that is no address. -/
theorem witness_loads :
    let i := Instr.ldD opM
    let c := hand i
    let s := machine i (addr padVa)
    let far := machine i (addr 0x0200000000000000)
    s.Ready c .any false [.v 1, .v 4] false 1 (fun _ => [.v 1]) ∧ s.act c 0 = 1 ∧ effAddr ((s.cw c).val 0 (.v 1)) 0 8 = padVa
    ∧ (match s.placeOf c .load padVa.toNat 8 true with
      | .ok p => decide (p = .pad 0 0)
      | .error _ => false) = true
    ∧ regionOf padVa.toNat = .local_ 0 ∧ (s.padRead 0 0 8).2 = false
    ∧ s.mustFollow c .load (placedLanes 1 (fun _ => padVa) (fun _ => .pad 0 0)) 8 = [] ∧ (s.cw c).heldBy = none
    ∧ (Tab.find s.groups 0).isSome = true ∧ (s.core (s.group 0).core).armed = false
    ∧ far.Ready c .any false [.v 1, .v 4] false 1 (fun _ => [.v 1])
    ∧ (match far.placeOf c .load 0x0200000000000000 8 true with
      | .ok _ => false
      | .error _ => true) = true := by decide +kernel

theorem witness_uniform_load :
    let i := Instr.lduD { off := 0, a := .s 1, d := 3, g := 0 }
    let c := hand i
    let s := machine i (regs padVa 0)
    s.Ready c .any false [.s 1, .s 3] false 1 (fun _ => [.s 1])
    ∧ (match s.placeOf c .load padVa.toNat 8 false with
      | .ok p => decide (p = .pad 0 0)
      | .error _ => false) = true
    ∧ s.mustFollow c .load [{ lane := 0, va := padVa.toNat, place := .pad 0 0 }] 8 = [] ∧ (s.cw c).heldBy = none
    ∧ (machine (.lduD { off := 0, a := .s 1, d := 3, g := 1 }) (regs 0 0)).act (hand (.lduD { off := 0, a := .s 1, d := 3, g := 1 })) 1 = 0
    ∧ (machine (.ldaD { scope := 1, a := .v 1, d := 4, g := 0 }) (addr padVa)).Ready (hand (.ldaD { scope := 1, a := .v 1, d := 4, g := 0 })) .any false [.v 1, .v 4]
      false 1 (fun _ => [.v 1]) := by decide +kernel

/-- StoresIssue and StoreOwnScratchpad, STQ among them. -/
theorem witness_stores :
    let i := Instr.stD opM
    let c := hand i
    let s := machine i (addr padVa)
    let st : List LaneStore := [{ at_ := { lane := 0, va := padVa.toNat, place := .pad 0 0 }, data := leBytes 8 0, regaddr := 0 }]
    s.Ready c .any false [.v 1, .v 4] false 1 (fun _ => [.v 1, .v 4]) ∧ s.pairsDiffer c 1 (fun _ => [padVa, 0]) = false
    ∧ (match s.placeOf c .store padVa.toNat 8 true with
      | .ok p => decide (p = .pad 0 0)
      | .error _ => false) = true
    ∧ s.storeGrains c { lane := 0, va := padVa, res := .ok (.pad 0 0) } 8 = []
    ∧ s.mustFollow c .store (placedLanes 1 (fun _ => padVa) (fun _ => .pad 0 0)) 8 = [] ∧ s.writeBlocked st = none
    ∧ (s.cw c).ackCl + (storeCounts st).1 ≤ 65535 ∧ (s.cw c).ackSy + (storeCounts st).2 ≤ 4095 ∧ (s.cw c).tandem = false
    ∧ (machine (.stQ opM) (addr padVa)).Ready (hand (.stQ opM)) .any false [.v 1, .v 4, .v 5] false 1 (fun _ => [.v 1, .v 4, .v 5]) := by
  refine ⟨?_, ?_, ?_, ?_, ?_, ?_, ?_, ?_, ?_, ?_⟩ <;> decide +kernel

theorem witness_uniform_store :
    let i := Instr.stuD { off := 0, a := .s 1, d := 2, g := 0 }
    let r := Instr.stlD { scope := 1, a := .v 1, d := 4, g := 0 }
    (machine i (regs padVa 3)).Ready (hand i) .any false [.s 1, .s 2] false 1 (fun _ => [.s 1, .s 2])
    ∧ (machine r (addr padVa)).Ready (hand r) .any false [.v 1, .v 4] false 0 (fun _ => []) ∧ ((machine r (addr padVa)).cw (hand r)).fenceWaits 2 = false
    ∧ ((machine r (fun w => { addr padVa w with ackCl := 1 })).cw (hand r)).fenceWaits 2 = true
    ∧ (let s := machine r (addr padVa)
       s.Ready (hand r) .any false [.v 1, .v 4] false 1 (fun _ => [.v 1, .v 4]) ∧ (s.cw (hand r)).impr = []
       ∧ (match s.placeOf (hand r) .store padVa.toNat 8 false with
        | .ok p => decide (p = .pad 0 0)
        | .error _ => false) = true
       ∧ s.mustFollow (hand r) .store (placedLanes 1 (fun _ => padVa) (fun _ => .pad 0 0)) 8 = []) := by
  refine ⟨?_, ?_, ?_, ?_, ?_⟩ <;> decide +kernel

/-- AtomicsIssue and AtomicOwnScratchpad: an own word, and a counter that is full. -/
theorem witness_atomics :
    let i := Instr.aadd opM
    let c := hand i
    let s := machine i (addr (padVa + 13440))
    s.Ready c .any false [.v 1, .v 4] false 1 (fun _ => [.v 1, .v 4]) ∧ s.act c 0 = BitVec.ofNat 32 (2 ^ 0)
    ∧ (match s.placeOf c .atomic (padVa + 13440).toNat 8 false with
      | .ok p => decide (p = .pad 0 13440)
      | .error _ => false) = true
    ∧ regionOf (padVa + 13440).toNat = .local_ 13440 ∧ (s.padRead 0 13440 8).2 = false
    ∧ (s.modGroup 0 (fun g => { g with tiles := 0 })).mustFollow c .atomic [{ lane := 0, va := (padVa + 13440).toNat, place := .pad 0 13440 }] 8 = []
    ∧ ((s.modGroup 0 (fun g => { g with tiles := 0 })).group 0).tiles = 0 ∧ ((s.cw c).tandem = false ∧ (s.core 0).armed = false)
    ∧ 65535 < ((machine i (fun w => { addr padVa w with ackCl := 65535 })).cw c).ackCl + 1
    ∧ (machine (.acas { opM with d := 62 }) (addr padVa)).Ready (hand (.acas { opM with d := 62 })) .any false [.v 1, .v 62, .v 63] false 1
        (fun _ => [.v 1, .v 62, .v 63]) := by
  refine ⟨?_, ?_, ?_, ?_, ?_, ?_, ?_, ?_, ?_, ?_⟩ <;> decide +kernel

/-- OrderingInstructions: fences that pass and that wait, acquires, a release. -/
theorem witness_ordering :
    let f := Instr.fence { scope := 4, g := 0 }
    let a := Instr.acquire { g := 0 }
    let r := Instr.release { g := 0 }
    let ld : PLoad := { id := 1, kind := .plain 8 false, d := 9, by_ := 1, lanes := [] }
    (machine f id).Ready (hand f) .any false [] false 1 (fun _ => []) ∧ ((machine f id).cw (hand f)).loads = [] ∧ ((machine f id).cw (hand f)).ackSy = 0
    ∧ ((machine f (fun w => { w with ackSy := 1 })).cw (hand f)).ackSy ≠ 0
    ∧ (machine a id).Ready (hand a) .any false [] false 1 (fun _ => []) ∧ (machine a id).act (hand a) 0 ≠ 0 ∧ ((machine a id).cw (hand a)).heldBy = none
    ∧ ((machine a (fun w => { w with loads := [ld] })).cw (hand a)).loads ≠ [] ∧ ((machine a (fun w => { w with ackDv := 1 })).cw (hand a)).ackDv ≠ 0
    ∧ (machine r id).Ready (hand r) .any false [] false 1 (fun _ => []) ∧ (((machine r id).cw (hand r)).fibre 0).wait = .none
    ∧ (machine (.acquire { g := 1 }) id).act (hand (.acquire { g := 1 })) 1 = 0 := by decide +kernel

/-- CsrInstructions: an open register, a privileged one in both modes, FFLAGS with results pending. -/
theorem witness_csr :
    let i := Instr.csrw { csr := 0, d := 1, g := 0 }
    let c := hand i
    let busy := (machine i id).modCore 0 (fun k => { k with sfu := [{ slot := 0, results := [], flags := 1 }] })
    (machine i id).Ready c .any false [.s 1] false 1 (fun _ => [.s 1]) ∧ (machine i id).flagsPending c = false ∧ busy.flagsPending c = true
    ∧ (machine (.csrw { csr := 0x1000, d := 1, g := 0 }) (sysRegs 0 0)).Ready (hand (.csrw { csr := 0x1000, d := 1, g := 0 })) .any false [.s 1] false 1 (fun _ => [.s 1])
    ∧ ((machine i id).cw c).sys = false ∧ ((machine i (sysRegs 0 0)).cw c).sys = true
    ∧ (let bad := machine (.csrw { csr := 0x1000, d := 1, g := 0 }) (fun w => { w with s := [(1, { val := 0, poison := true })] })
       bad.Ready (hand (.csrw { csr := 0x1000, d := 1, g := 0 })) .any false [.s 1] false 1 (fun _ => [])
       ∧ (bad.cw (hand (.csrw { csr := 0x1000, d := 1, g := 0 }))).sys = false) := by decide +kernel

/-- HintsBuildTheUnit: outside a sequence, and inside one. -/
theorem witness_hints :
    ((machine .hintNop id).cw (hand .hintNop)).unit = none
    ∧ ((machine .hintNop (fun w => { w with unit := some { lanes := 1, pc := placedPc, pfx := { imm := some 1 } } })).cw (hand .hintNop)).unit ≠ none := by
  decide +kernel

/-- CountersReadAndControl: selectors of each kind, and a control operation of each class. -/
theorem witness_counters :
    let i := Instr.cntrd { a := .s 1, d := 3, k := false, g := 0 }
    let e := Instr.cntctlEvsel opU
    let ok (a : Word) : Prop := (machine i (regs a 0)).Ready (hand i) .any false [.s 1, .s 3] false 1 (fun _ => [.s 1]) ∧ (machine i (regs a 0)).uval (hand i) (.s 1) = a
    ok 0x19 ∧ ok 0x17 ∧ ok 0x29 ∧ ok 0x1A
    ∧ ((machine i (regs 0x10 0)).cw (hand i)).progs = [] ∧ ((machine i (fun w => { w with progs := [(0, 1)] })).cw (hand i)).progs ≠ []
    ∧ (machine e (regs 0x100 10)).Ready (hand e) .any false [.s 1, .s 2, .s 3] false 1 (fun _ => [.s 1, .s 2])
    ∧ (machine e (sysRegs 0x704 0)).Ready (hand e) .any false [.s 1, .s 2, .s 3] false 1 (fun _ => [.s 1, .s 2])
    ∧ (machine e (sysRegs 0x704 0)).uval (hand e) (.s 1) = 0x704 := by
  refine ⟨?_, ?_, ?_, ?_, ?_, ?_, ?_, ?_, ?_⟩ <;> decide +kernel

/-- DebugInstructions: a breakpoint whose context stops and one whose does not; a PROG of each kind of selector. -/
theorem witness_debug :
    let b := Instr.bkpt { a := .s 1, g := 0 }
    let p := Instr.prog { b := .s 2, a := .s 1, g := 0 }
    (machine b (regs 1 0)).Ready (hand b) .any false [.s 1] false 1 (fun _ => [.s 1]) ∧ ((machine b (regs 1 0)).ctx 0).dstop = false
    ∧ (((machine b (regs 1 0)).modCtx 0 (fun x => { x with dstop := true })).ctx 0).dstop = true
    ∧ (machine p (regs 7 1)).Ready (hand p) .any false [.s 1, .s 2] false 1 (fun _ => [.s 1, .s 2]) ∧ (machine p (regs 8 1)).uval (hand p) (.s 1) = 8
    ∧ ((machine b (regs 1 0)).cw (hand b)).trmask.getLsbD 2 = false := by decide +kernel

/-- SystemInstructions: user mode, and system mode with a group that is there, one that is not, and one that has stopped. -/
theorem witness_system :
    let h := Instr.haltg opDA
    let x := Instr.ctxfl opDA
    let g := Instr.accg opDA
    (machine h (regs 0 0)).Ready (hand h) .any false [.s 1, .s 3] false 1 (fun _ => [.s 1]) ∧ ((machine h (regs 0 0)).cw (hand h)).sys = false
    ∧ (machine h (sysRegs 0 0)).Ready (hand h) .any false [.s 1, .s 3] false 1 (fun _ => [.s 1]) ∧ (machine h (sysRegs 0 0)).groupOfSeq 0 = some 0
    ∧ (machine h (sysRegs 7 0)).groupOfSeq 7 = none ∧ (machine h (sysRegs 0 0)).groupStopped 0 = false ∧ (machine h (sysRegs 0 0)).groupHalted 0 = false
    ∧ (machine x (sysRegs 0 0)).Ready (hand x) .any false [.s 1, .s 3] false 1 (fun _ => [.s 1]) ∧ (machine x (sysRegs 0 0)).flushIds 0 0 = []
    ∧ ((machine g (regs 48 0)).Ready (hand g) .any false [.s 1, .s 3] false 1 (fun _ => [.s 1])
      ∧ (machine g (regs 0 0)).accNamed 0 0 0 = false
      ∧ ((machine g (regs 0 0)).modCore 0 (fun k => { k with arr := [{ slot := 0, cv := 0, signers := 1, word := 0, pc := 0, cycles := 1, accs := [0] }] })).accNamed
          0 0 0 = true
      ∧ ((machine g (regs 1 0)).setAccs 0 1).isSome = true) := by
  refine ⟨?_, ?_, ?_, ?_, ?_, ?_, ?_, ?_, ?_, ?_⟩ <;> decide +kernel

/-- s8 to s10 hold the operands of a copy. -/
def cpRegs (a b n : Word) (w : Crew) : Crew := { w with s := [(8, { val := a }), (9, { val := b }), (10, { val := n })] }
def opCp : OpCp := { sb := 10, sa := 8, d := 5, g := 0 }

/-- A ring of two slots of 64 bytes at `objOff`, free or with one slot filled. -/
def ringWords (free filled : Nat) : List Byte := leBytes 8 (0x3800 + 64 * 2 ^ 24 + 2 * 2 ^ 40) ++ leBytes 8 (free * 2 ^ 16 + filled * 2 ^ 32)

/-- CopiesIssue: a plain copy, one into a ring, a full queue, a reserved control word, a known peer. -/
theorem witness_copies :
    let i := Instr.cpy opCp
    let c := hand i
    let s := machine i (cpRegs 0 0 64)
    let full := s.modCore 0 (fun k => { k with copies := List.replicate 64 { id := 1, slot := 0, group := 0, batch := 0, kind := .ship 0 0, ctx := 0, tag := 0, lid := 0, total := 1 } })
    let ring := (machine i (cpRegs 0 (padVa + 13440) (0x1000000 + 64))).padWrite 0 objOff (ringWords 2 0)
    let g := Instr.rget opCp
    s.QueueReady c .copy 0 (cpUses opCp) (cpSrcs opCp) ∧ (s.core 0).queued < 64 ∧ (s.uval c (.s 10)).toNat = 64
    ∧ full.QueueReady c .copy 0 (cpUses opCp) (cpSrcs opCp) ∧ 64 ≤ (full.core 0).queued
    ∧ ring.QueueReady c .copy 0 (cpUses opCp) (cpSrcs opCp)
    ∧ ring.RingIs c objOff ring { base := 0x3800, slotsz := 64, nslot := 2, put := 0, pph := 0, take := 0, tph := 0, free := 2, infl := 0, filled := 0 }
    ∧ (machine i (cpRegs 0 0 0x4000000)).QueueReady c .copy 0 (cpUses opCp) (cpSrcs opCp)
    ∧ ({ machine g (cpRegs 0 0 0x100000040) with peers := [(1, {})] } : State).QueueReady (hand g) .any 0 (cpUses opCp) (cpSrcs opCp)
    ∧ Tab.find ({ machine g (cpRegs 0 0 0x100000040) with peers := [(1, {})] } : State).peers 1 ≠ none := by
  refine ⟨?_, ?_, ?_, ?_, ?_, ?_, ?_, ?_, ?_, ?_⟩ <;> first | decide +kernel | (unfold State.RingIs; decide +kernel)

/-- BatchesRingsAndMessages: a seal, a wait for a batch ahead and for one that is sealed, a ring with a slot filled. -/
theorem witness_batches :
    let e := Instr.sealBatch { d := 5, g := 0 }
    let i := Instr.cwaitBatch opDA
    let c := hand i
    let st (a : Word) (bs : List Batch) : State := machine i (fun w => { regs a 0 w with batches := bs })
    let ring := (machine i (regs (0x4000000000000000 + 13440) 0)).padWrite 0 objOff (ringWords 0 1)
    let n := Instr.notify opDU
    (machine e id).QueueReady (hand e) .any 0 [.s 5] []
    ∧ (st 0 []).QueueReady c .any 0 [.s 1, .s 3] [.s 1] ∧ (0 + 65536 - ((st 0 []).cw c).lastBatch.toNat) % 65536 = 1
    ∧ (st 0xFFFF [{ no := 0xFFFF, sealed_ := true, left := 1 }]).QueueReady c .any 0 [.s 1, .s 3] [.s 1]
    ∧ ((st 0xFFFF [{ no := 0xFFFF, sealed_ := true, left := 1 }]).cw c).batches.find? (fun b => b.no = 0xFFFF && b.sealed_) = some { no := 0xFFFF, sealed_ := true, left := 1 }
    ∧ ring.QueueReady c .any 0 [.s 1, .s 3] [.s 1]
    ∧ ring.RingIs c objOff ring { base := 0x3800, slotsz := 64, nslot := 2, put := 0, pph := 0, take := 0, tph := 0, free := 0, infl := 0, filled := 1 }
    ∧ ((machine n (regs 0 0)).QueueReady (hand n) .any 0 [.s 1, .s 2, .s 3] [.s 1, .s 2]
      ∧ ((machine n (fun w => { regs 0 0 w with ackSy := 4095 })).cw (hand n)).ackSy = 4095
      ∧ (machine (.notify { opDU with g := 1 }) (regs 0 0)).act (hand (.notify { opDU with g := 1 })) 1 = 0)
    ∧ (Tab.get ({ machine n (regs 0 0) with eqs := [(0, { en := true })] } : State).eqs {} 0).en = true := by
  refine ⟨?_, ?_, ?_, ?_, ?_, ?_, ?_, ?_, ?_⟩ <;> first | decide +kernel | (unfold State.RingIs; decide +kernel)

theorem witness_rput :
    let i := Instr.rput opCp
    let s : State := { machine i (cpRegs padVa 0 0x100000008) with peers := [(1, { ports := [0] })] }
    s.QueueReady (hand i) .any 0 (cpUses opCp) (cpSrcs opCp) ∧ Tab.find s.peers 1 ≠ none ∧ s.rangeFault (hand i) padVa.toNat 8 = none
    ∧ s.peerState 1 = 0 ∧ (s.cw (hand i)).ackSy < 4095 ∧ s.rputWaits (hand i) = none
    ∧ (s.modCrew 0 0 (fun w => { w with heldBy := some (0, 0, []) })).rputWaits (hand i) = some (.flush 0 0 [])
    ∧ (({ s with peers := [(1, {})] } : State).peerState 1 = 2
      ∧ ({ s with ports := [(0, { st := .recovering 0 })] } : State).peerState 1 = 1 ∧ ((s.cw (hand i)).fibre 0).wait = .none)
    ∧ (match (s.copyRead (hand i) padVa.toNat 8).2 with
      | .ok bs => decide (bs.length = 8)
      | .error _ => false) = true := by decide +kernel

/-- SnapshotsAndOwnership: a SNAP in both modes, one of a slot in use, OWNX of one grain and of a count out of range. -/
theorem witness_snapshots :
    let i := Instr.snapTake opDU
    let c := hand i
    let o := Instr.ownx opDU
    (machine i (regs 0 0)).Ready c .any false [.s 1, .s 2, .s 3] false 1 (fun _ => [.s 1, .s 2]) ∧ ((machine i (regs 0 0)).cw c).sys = false
    ∧ (machine i (sysRegs 0 0)).Ready c .any false [.s 1, .s 2, .s 3] false 1 (fun _ => [.s 1, .s 2]) ∧ ((machine i (sysRegs 0 0)).core 0).queued < 64
    ∧ ((machine i (sysRegs 0 0)).snap 0).valid = false ∧ (({ machine i (sysRegs 1 0) with snaps := [(0, { valid := true })] } : State).snap 0).valid = true
    ∧ (let s : State := { machine i (sysRegs 0x003 1) with peers := [(1, {})], snaps := [(0, { valid := true })] }
       s.Ready c .any false [.s 1, .s 2, .s 3] false 1 (fun _ => [.s 1, .s 2]) ∧ (s.uval c (.s 2)).toNat = 1
       ∧ Tab.find s.peers 1 ≠ none ∧ (s.snap 0).ship = false ∧ (s.core 0).queued < 64)
    ∧ (machine o (regs 0x10000 1)).Ready (hand o) .any false [.s 1, .s 2, .s 3] false 1 (fun _ => [.s 1, .s 2])
    ∧ (((machine o (regs 0x10000 1)).cw (hand o)).fibre 0).wait = .none ∧ (machine o (regs 0x10000 65)).uval (hand o) (.s 2) = 65 := by
  refine ⟨?_, ?_, ?_, ?_, ?_, ?_, ?_, ?_, ?_, ?_⟩ <;> decide +kernel

/-- The lane matrices: m1 is 1×1 of FP64 with the element 4.0 in lane 0, m0 is unshaped. -/
def mats (w : Crew) : Crew :=
  { w with mtag := [(32, { tag := mkTag 1 1 true })], m := [((32 * 1) * 36, { val := 0x4010000000000000 })], v := [(32, { val := padVa })] }

/-- LaneMatrixResults, FactorisationsAndSolves, LaneMatrixMemory: shaped and unshaped operands. -/
theorem witness_lane :
    let i := Instr.mmul { tb := false, ta := false, b := 1, a := 1, d := 0, g := 0 }
    let h := Instr.mchol { a := 1, d := 0, g := 0 }
    let d := Instr.mld { xp := false, stride := 0, a := .v 1, d := 1, g := 0 }
    (machine i mats).Ready (hand i) .vector false [.m 0, .m 1, .m 1] false 1 (fun _ => [])
    ∧ ((machine i mats).cw (hand i)).mtagOf 1 0 = { tag := mkTag 1 1 true }
    ∧ (((machine i mats).cw (hand i)).mview 1 0).r = 1 ∧ (((machine i mats).cw (hand i)).mview 0 0).r = 0
    ∧ (machine h mats).Ready (hand h) .vector false [.m 0, .m 1] false 1 (fun _ => [])
    ∧ (((machine h mats).cw (hand h)).mel 1 0 0).poison = false
    ∧ (machine d mats).Ready (hand d) .vector false [.m 1, .v 1] false 1 (fun _ => [.v 1])
    ∧ (machine d mats).ownPad (hand d) padVa.toNat = some 0 ∧ ((machine d mats).core 0).armed = false
    ∧ pickFault ((machine d mats).mlFaults (hand d) { xp := false, stride := 0, a := .v 1, d := 1, g := 0 } 1 false) = none := by
  refine ⟨?_, ?_, ?_, ?_, ?_, ?_, ?_, ?_, ?_, ?_⟩ <;> decide +kernel

/-- ArraySignatures and ArrayOperations: a set that the fibre completes, one it does not, and a register of another crew. -/
theorem witness_array :
    let o : OpTl := { w := 1, ad := 0, cv := 0, g := 0 }
    let i := Instr.aclr o
    let c := hand i
    let st (f : CvReg → CvReg) : State := (machine i (regs 1 0)).modGroup 0 (fun g => g.setCv 0 (f (g.cv 0)))
    let s := st id
    (s.cur = some c ∧ s.inRange c [.s 1, .acc 0] = true ∧ Roles.matrix.allows (s.cw c).role = true ∧ s.pendIds c false [.s 1, .acc 0] = [])
    ∧ (((s.group 0).cv 0).owned = true ∧ ((s.group 0).cv 0).owner = (s.cw c).no ∧ ((s.group 0).cv 0).set = 1)
    ∧ ((st (fun r => { r with set := 3 })).group 0).cv 0 = { owned := true, set := 3 }
    ∧ ((st (fun r => { r with owned := false })).group 0).cv 0 = { set := 1 }
    ∧ (s.group 0).accPlaces.length = 1 ∧ (((s.cw c).sreg 1).poison = false ∧ ((s.cw c).sreg 1).val = 1)
    ∧ (s.tile c 0).sumBad = false := by
  refine ⟨?_, ?_, ?_, ?_, ?_, ?_, ?_⟩ <;> decide +kernel

/-- The placed machine. -/
def still : State := machine .hintNop id

/-- One copy in core 0. -/
def copied (x : Copy) : State := still.modCore 0 (fun k => { k with copies := [x] })
def copy1 : Copy := { id := 1, slot := 0, group := 0, batch := 0, kind := .cpy 0 0 64 none false, ctx := 0, tag := 0, lid := 0, total := 64 }

/-- CoreEvents: each condition in a small machine. -/
theorem witness_core_events :
    let other := still.modCore 0 (fun k => { k with slots := Tab.put k.slots 1 { (placedCrew 0) with peloton := false } })
    let load (p : Place) : State := still.modCrew 0 0 (fun w => { w with loads := [{ id := 1, kind := .plain 8 false, d := 1, lanes := [{ lane := 0, va := 0, place := p }] }] })
    ({ other with cycle := 96 } : State).rotateOut 0 = some 0
    ∧ (((still.modCore 0 (fun k => { k with handlers := [{ slot := 0, record := 64, index := 0, info := 0, group := 0, ctx := 0 }] })).crew? 0 32 = none)
      ∧ (still.ctx 0).tvec = 0 ∧ ((still.modCtx 0 (fun x => { x with tvec := 0x20000 })).ctx 0).tvec ≠ 0)
    ∧ (((load (.die 0)).crew 0 0).loads.length = 1 ∧ ((load (.peer 1 0)).crew 0 0).loads.map PLoad.peers = [[1]]
      ∧ ({ load (.peer 1 0) with peers := [(1, { ports := [0] })] } : State).peerState 1 = 0)
    ∧ ((copied copy1).core 0).copies.find? (fun y => !y.started) = some copy1
    ∧ ((copied { copy1 with started := true }).core 0).copies.filter (fun y => y.started && y.fail.isNone && decide (y.done < y.total)) = [{ copy1 with started := true }]
    ∧ ((copied { copy1 with started := true, done := 64 }).core 0).copyOver = some { copy1 with started := true, done := 64 }
    ∧ ({ copied { copy1 with started := true, since := some 0 } with cycle := 1048576 } : State).copyLate 0 = some { copy1 with started := true, since := some 0 }
    ∧ ((still.modCrew 0 0 (fun w => { w with progs := [(7, 1)] })).crew 0 0).progs = [(7, 1)]
    ∧ (still.modCrew 0 0 (fun w => { w with wdog := 2 ^ 32 })).crew? 0 0 = some ((still.modCrew 0 0 (fun w => { w with wdog := 2 ^ 32 })).crew 0 0)
    ∧ ((still.modCrew 0 0 (fun w => { w with frozen := some 0 })).crew 0 0).frozen = some 0 := by
  refine ⟨?_, ?_, ?_, ?_, ?_, ?_, ?_, ?_, ?_, ?_⟩ <;> decide +kernel

theorem witness_core_limits :
    let late (i : Instr) (x : Wait) : State :=
      { machine i (fun w => { w with fibres := [(0, { w.fibre 0 with wait := x, word := encode i })] }) with cycle := 2 ^ 31 }
    let grow (v : Nat) : State := still.modCore 0 (fun k => { k with grows := [{ slot := 0, lanes := 1, acc := false, want := v }], blocked := some 0 })
    let o := Instr.ownx opDU
    let h := Instr.haltg opDA
    ((late o (.ownx 0)).lateLanes 0 0 Wait.ownxSince = 1 ∧ decodeWord ((late o (.ownx 0)).curAt 0 0 1).word = .ok o)
    ∧ ((late h (.halt 0 0)).lateLanes 0 0 Wait.haltSince = 1 ∧ decodeWord ((late h (.halt 0 0)).curAt 0 0 1).word = .ok h)
    ∧ ((grow 1).firstGrow 0 = some { slot := 0, lanes := 1, acc := false, want := 1 } ∧ ((grow 1).grantOf 0 { slot := 0, lanes := 1, acc := false, want := 1 }).isSome = true)
    ∧ ((grow 8).lastGrow 0 = some { slot := 0, lanes := 1, acc := false, want := 8 } ∧ ((grow 8).core 0).blocked = some 0)
    ∧ (((still.modCore 0 (fun k => { k with samplePeriod := 10, samples := [(0, 0x10000, 0, 1, false)] })).core 0).samples = [(0, 0x10000, 0, 1, false)]
      ∧ (still.crew? 0 0).isSome = true)
    ∧ ({ still with trial := { active := true, endAt := some 0 } } : State).trial.endAt = some 0 := by
  refine ⟨?_, ?_, ?_, ?_, ?_, ?_⟩ <;> decide +kernel
/-- HomeEvents: what waits in a cluster, at a home, on the crossbar, for a peer. -/
theorem witness_home_events :
    let rel (ls : List Update) : Rel := { id := 1, tag := 0, seq := 1, core := 0, slot := 0, left := ls }
    let upd : Update := { lsec := 3, cluster := 0, tag := 0, ctx := 0, pos := 32 }
    let atom (p : Place) : PAtom := { id := 1, seq := 0, lane := 0, op := 8, addr := 0, place := p, size := 8, a := 1, b := 0, d := 4 }
    let atoms (a : PAtom) : State := still.modCrew 0 0 (fun w => { w with atoms := [a] })
    let rem (b : Bool) : RemReq := { slot := 0, target := 0, tgroup := 0, off := 0, data := [1], acked := b }
    let out : PeerReq := { id := 1, peer := 1, core := 0, slot := 0, lid := 0, addr := 0, data := [] }
    ((still.page 0).valid = true ∧ (still.page 1).valid = false)
    ∧ ((still.modCluster 0 (fun c => { c with rels := [rel [upd]] })).cluster 0).rels.find? (fun r => !r.left.isEmpty) = some (rel [upd])
    ∧ (({ still with tilesUp := 3 } : State).tilesUp.getLsbD 1 = true ∧ (still.page 0).home ≠ 1 ∧ (still.page 0).moving = false)
    ∧ ((still.modCluster 0 (fun c => { c with claims := [{ grain := 1, tag := 0, core := 0, slot := 0 }] })).cluster 0).claims.find? (fun r => r.outcome = 0)
      = some { grain := 1, tag := 0, core := 0, slot := 0 }
    ∧ ((atoms (atom (.mem 0 0 false))).crew 0 0).atoms.find? (fun a => a.answer.isNone && !a.moved) = some (atom (.mem 0 0 false))
    ∧ (((atoms (atom (.pad 0 0))).crew 0 0).atoms.find? (fun a => a.answer.isNone && !a.moved) = some (atom (.pad 0 0)) ∧ still.padRefusal 0 0 8 = none
      ∧ still.padRefusal 1 0 8 ≠ none)
    ∧ ((atoms { atom (.pad 0 0) with answer := some ({}, 0) }).crew 0 0).atoms.find? (fun a => a.answer.isSome) = some { atom (.pad 0 0) with answer := some ({}, 0) }
    ∧ ((atoms { atom (.pad 0 0) with moved := true }).crew 0 0).atoms.find? (fun a => a.moved) = some { atom (.pad 0 0) with moved := true }
    ∧ (((still.modCore 0 (fun k => { k with remq := [rem false] })).core 0).remq.find? (fun r => !r.acked) = some (rem false)
      ∧ ((still.modCore 0 (fun k => { k with remq := [rem true] })).core 0).remq.find? (fun r => r.acked) = some (rem true))
    ∧ (({ still with peerOut := [out], peers := [(1, { ports := [0] })] } : State).peerState 1 = 0
      ∧ ({ still with peerOut := [out] } : State).peerState 1 = 2) := by
  refine ⟨?_, ?_, ?_, ?_, ?_, ?_, ?_, ?_, ?_, ?_⟩ <;> decide +kernel

/-- LogEvents: stores to accept, a hold, a dredge to start and one that has drained, a page of the host, a replica, staging tags. -/
theorem witness_log_events :
    let sec : StoreReq := { slot := 0, crewLid := 0, lsec := 0, tag := 0, ctx := 0, data := 0, mask := 1 }
    let held : State := still.modCluster 0 (fun c => { c with held := some 0, gather := [{ grain := 0, tag := 0, ctx := 0, sectors := [] }] })
    let stage (x : Staging) : State := { still with stagingT := [(1, x)] }
    ((still.modCore 0 (fun k => { k with stq := [sec] })).core 0).stq = [sec]
    ∧ ((still.cluster 0).held = none ∧ (held.cluster 0).held = some 0 ∧ (held.appendBlock 0).isSome = true)
    ∧ (({ held with ticks := 1000000 * 144403552893600 } : State).timeNs = 1000000 ∧ held.pressure = false)
    ∧ ((still.dredges = [] ∧ still.pickDredge 0 = none)
      ∧ (({ still with segs := [(5, { st := .sealed_ })] } : State).pickDredge 0 = some 5 ∧ still.masks = [])
      ∧ ({ still with dredges := [{ stack := 0, seg := 5, drained := true }] } : State).dredges.find? (fun d => d.stack = 0 && d.drained)
        = some { stack := 0, seg := 5, drained := true })
    ∧ (({ still with pages := [(0, { valid := true, host := true, hbase := 2 })] } : State).page 0).host = true
    ∧ (({ still with replica := some 1, outflow := [.block 1], peers := [(1, { ports := [0] })] } : State).peerState 1 = 0)
    ∧ ((stage (.committed 0)).staging 1 ≠ .free ∧ (stage .free).staging 1 = .free ∧ (stage (.running 0)).staging 1 = .running 0)
    ∧ (Tab.get still.lanesUsed 0 0 < 4 ∧ ({ still with segs := [(0, { st := .open_, next := 2 })] } : State).scrubbed 512 = true) := by
  refine ⟨?_, ?_, ?_, ?_, ?_, ?_, ?_, ?_⟩ <;> decide +kernel

/-- LaunchAndPreemptionEvents: a gate that is closed, an admission, records on their way, doorbells in range and out of it, the stages of a pre-emption. -/
theorem witness_launch :
    let rec_ (k : Nat) : EvRecord := { queue := 0, kind := k, crew := some (0, 0), node := some 0 }
    let node (p : NodePhase) : State :=
      { still with nodes := [(0, { lid := 0, ctx := 0, phase := p })], lqs := [(0, { en := true })], ctxs := [(0, { valid := true })] }
    let stage (n : Nat) : State := still.modCtx 0 (fun x => { x with stage := n, d1 := 5, d2 := 9 })
    (State.reset.phase ≠ 3 ∧ State.reset.phase ≠ 4 ∧ still.phase = 4 ∧ still.unseen = [] ∧ still.nextNode = none ∧ (node (.ready 0)).nextNode = some { lid := 0, ctx := 0, phase := .ready 0 })
    ∧ still.admission = none
    ∧ (still.modGroup 0 (fun g => { g with prologue := true })).prologues = [0]
    ∧ ((node .publishing).nodes.map Prod.snd).find? (node .publishing).nodePublished = some { lid := 0, ctx := 0, phase := .publishing }
    ∧ ((node .running).nodes.map Prod.snd).find? (node .running).nodeOver = some { lid := 0, ctx := 0, phase := .running }
    ∧ (({ still with eqs := [(0, { en := true, base := 0x20000, log2n := 4 })], evout := [rec_ 1] } : State).nextRecord 1 = some (rec_ 1)
      ∧ ({ still with eqs := [(0, { en := true, base := 0x20000, log2n := 4 })], evout := [rec_ 2] } : State).nextRecord 2 = some (rec_ 2))
    ∧ (Tab.get ({ still with eqs := [(0, { deferred := true })] } : State).eqs {} 0).deferred = true
    ∧ (State.reset.reachable = false ∧ still.reachable = true)
    ∧ (((stage 1).ctx 0).stage = 1 ∧ ((stage 2).ctx 0).stage = 2 ∧ (stage 1).timeNs = 0 ∧ ({ stage 1 with ticks := 9 * 144403552893600 } : State).timeNs = 9)
    ∧ (still.canStop 0 0 = false ∧ still.toSave = []) := by
  refine ⟨?_, ?_, ?_, ?_, ?_, ?_, ?_, ?_, ?_, ?_⟩ <;> decide +kernel

/-- StartAndLinkEvents: the phases of the start, a port in each state, a peer's store that is granted and one that is not. -/
theorem witness_start :
    let ports (p : PortState) : State := { still with ports := [(0, { st := p })] }
    (State.reset.phase = 0 ∧ State.reset.powered = true ∧ State.reset.kept.bootImage = none)
    ∧ (({ State.reset with phase := 2, capacity := some 1 } : State).capacity ≠ none ∧ ({ State.reset with phase := 2 } : State).capacity = none)
    ∧ (State.reset.selfTest / 2 ^ 7 % 2 = 0 ∧ ({ State.reset with phase := 3, selfTest := 255 } : State).selfTest = 255)
    ∧ (({ still with tilesUp := 1, tjmax := 1840 } : State).tilesUp ≠ 0 ∧ 1840 ≤ ({ still with tjmax := 1840 } : State).tjmax.toInt ∧ still.tjmax.toInt < 1840)
    ∧ (((ports .up).port 0).st = .up ∧ ((ports .failed).port 0).st = .failed ∧ ((ports (.recovering 0)).port 0).st = .recovering 0)
    ∧ still.granted 1 0 8 true = false
    ∧ (let g : State := { still with peers := [(1, { granted := [{ base := 0, len := 65536, write := true }] })] }
       g.granted 1 0 8 true = true ∧ (g.page 0).valid = true ∧ g.grainTaken 0 = false)
    ∧ still.peerLate = none
    ∧ Tab.find ({ still with peers := [(1, {})] } : State).peers 1 = some {} := by
  refine ⟨?_, ?_, ?_, ?_, ?_, ?_, ?_, ?_, ?_⟩ <;> decide +kernel

/-- MailboxCommands: a free mailbox in PHASE 4, one that is taken, one that cannot be reached. -/
theorem witness_mailbox :
    still.MailReady 4 ∧ ({ still with phase := 1 } : State).MailReady 1 ∧ ({ still with cstate := 1 } : State).cstate = 1 ∧ State.reset.reachable = false
    ∧ ({ still with phase := 2 } : State).phase < 3 ∧ ((still.ctx 0).valid = false ∧ ((still.modCtx 0 (fun x => { x with valid := true })).ctx 0).valid = true)
    ∧ (still.mappedAt 0 1 = none ∧ still.leafOk 7 = true ∧ still.leafOk 0 = false)
    ∧ (({ still with busy := some (.resume 0) } : State).busy = some (.resume 0) ∧ still.busy = none)
    ∧ 0 < still.cap := by decide +kernel

/-- HomeEvents and LogEvents, the clauses of what waits: a page whose home moves, an atomic left behind by its crew, a copy's remote write that is
refused, a class that a channel serves next, a descriptor that is read. -/
theorem witness_events_that_wait :
    let atom : PAtom := { id := 1, seq := 0, lane := 0, op := 8, addr := 0, place := .mem 0 0 false, size := 8, a := 1, b := 0, d := 4 }
    let o : Orphan := { core := 0, slot := 0, lid := 0, atom := atom }
    let moves : State := { still with pages := [(0, { valid := true, moving := true })], orphans := [o] }
    let x : Chan := { owed := [(3, 100)], last := 2 }
    ((moves.page 0).moving = true ∧ moves.orphans.find? (fun o => o.core = 0 && o.slot = 0) = some o
      ∧ ({ moves with orphans := [] } : State).orphans.find? (fun o => o.core = 0 && o.slot = 0) = none)
    ∧ ((still.modCrew 0 0 (fun w => { w with atoms := [atom] })).crew 0 0).nextAtom = some atom
    ∧ (still.padRefusal 1 0 8 ≠ none ∧ ({ slot := 0, target := 0, tgroup := 1, off := 0, data := [1], copyId := some 3 } : RemReq).copyId = some 3)
    ∧ (x.next 0x0C = some 3 ∧ ({ last := 2, reads := [7], due := 1 } : Chan).next 0x0E = some 1 ∧ ({} : Chan).next 0 = none)
    ∧ ((still.descriptor 1 0).isSome = true ∧ still.descriptor 1 64 = none) := by
  refine ⟨?_, ?_, ?_, ?_, ?_⟩ <;> decide +kernel

/-- LaunchAndPreemptionEvents and StartAndLinkEvents: a unit that is admitted and one that must wait, a crew that stops, an interrupt held off, a
partner that is not the peer's. -/
theorem witness_steps_that_act :
    let u : PendGroup := { lid := 0, count := 1 }
    let pend : State := { still with pending := [u] }
    let stops : State := (still.modCtx 0 (fun x => { x with valid := true, stage := 2 }))
    pend.units = [u]
    ∧ stops.canStop 0 0 = true
    ∧ (Tab.get ({ still with els := [(0, { deferred := true })] } : State).els {} 0).deferred = true
    ∧ (({ still with ports := [(0, { partner := some 7 })], peers := [(1, { serial := 8, ports := [0] })] } : State).peers.any
        (fun r => r.2.ports.contains 0 && decide (r.2.serial ≠ 7))) = true := by
  refine ⟨?_, ?_, ?_, ?_⟩ <;> decide +kernel

/-- BranchFaults: a branch that would split a system-mode crew, and one whose pair disagrees in tandem mode. -/
theorem witness_branch_modes :
    let i := Instr.brx opJ
    let c : Cur := { hand i with lanes := 3 }
    let st (sys tandem : Bool) : State := { machine i (fun w => { w with
        sys := sys, tandem := tandem, fibres := [(0, w.fibre 0), (1, w.fibre 0)], v := [(32, { val := 0x10000 }), (33, { val := 0x10004 })] }) with cur := some c }
    let to_ (s : State) (l : Nat) : Word := (s.cw c).val l (.v 1) + (s.cw c).val l (.v 2)
    (st true false).Ready c .any false [.v 1, .v 2, .none] false 3 (fun _ => [.v 1, .v 2]) ∧ ((st true false).cw c).sys = true
    ∧ to_ (st true false) 0 = 0x10000 ∧ to_ (st true false) 1 = 0x10004
    ∧ (st false true).Ready c .any false [.v 1, .v 2, .none] false 3 (fun _ => [.v 1, .v 2]) ∧ ((st false true).cw c).sys = false
    ∧ (st false true).pairsDiffer c 3 (fun l => [to_ (st false true) l]) = true := by decide +kernel

/-- FibresEndAndStart: an FSPAWN of a tandem crew, whose fibres live by pairs. -/
theorem witness_spawn_tandem :
    let o : OpU := { opU with a := .v 1, b := .s 2 }
    let i := Instr.fspawn o
    let c : Cur := { hand i with lanes := 3 }
    let s : State := { machine i (fun w => { regs 0 3 w with
        tandem := true, fibres := [(0, w.fibre 0), (1, w.fibre 0)], v := [(32, { val := 0x10000 }), (33, { val := 0x10000 })] }) with cur := some c }
    s.Ready c .any false [.v 1, .s 2, .s 3] false 3 (fun _ => [.v 1, .s 2]) ∧ (s.cw c).tandem = true ∧ c.lanes &&& ~~~(s.cw c).liveMask = 0
    ∧ (∀ v, v < 16 → (((s.cw c).fibre (2 * v)).st = .live ↔ ((s.cw c).fibre (2 * v + 1)).st = .live))
    ∧ ((s.cw c).val 0 (.v 1)).toNat = 0x10000 ∧ ((s.cw c).val 1 (.v 1)).toNat = 0x10000 ∧ (s.cw c).primaries 3 = 1 := by decide +kernel

/-- The instruction in hand of a handler crew, whose registers `f` says. -/
def handler (i : Instr) (f : Crew → Crew) : State :=
  { (machine i id).modCore 0 (fun k => { k with slots := Tab.put k.slots 32 (f { placedCrew 0 with sys := true }) }) with cur := some { hand i with slot := 32 } }

/-- SetsOfFibres and RegisterGrow: a CVSET and a REGG of a handler crew. -/
theorem witness_handler :
    let v := Instr.cvset { a := .s 1, cv := 0 }
    let r := Instr.regg opRt
    let c (i : Instr) : Cur := { hand i with slot := 32 }
    ((handler v (regs 1 0)).cur = some (c v) ∧ (handler v (regs 1 0)).inRange (c v) [.s 1] = true ∧ (handler v (regs 1 0)).pendIds (c v) false [.s 1] = [])
    ∧ (handler r (regs 1 0)).Ready (c r) .any false [.s 1, .s 3] false 1 (fun _ => [.s 1]) ∧ (c r).slot = 32
    ∧ (handler r (regs 2 0)).Ready (c r) .any false [.s 1, .s 3] false 1 (fun _ => [.s 1]) := by
  refine ⟨?_, ?_, ?_, ?_⟩ <;> decide +kernel

/-- LoadsIssue and LoadOwnScratchpad: an LD.Q; an LDNC.D that meets a store of its crew which still waits, and one that meets none. -/
theorem witness_load_forms :
    let q := Instr.ldQ opM
    let n := Instr.ldncD opM
    let ps : List PLane := placedLanes 1 (fun _ => 64) (fun _ => .mem 64 0 false)
    let s := machine n (addr 64)
    let st := s.modCore 0 (fun k => { k with stq := [{ slot := 0, crewLid := 0, lsec := 2, tag := 0, ctx := 0, data := 0, mask := 1, addr := 64, seq := 9 }] })
    (machine q (addr padVa)).Ready (hand q) .any false [.v 1, .v 4, .v 5] false 1 (fun _ => [.v 1])
    ∧ (match (machine q (addr padVa)).placeOf (hand q) .load padVa.toNat 16 true with
      | .ok p => decide (p = .pad 0 0)
      | .error _ => false) = true
    ∧ s.Ready (hand n) .any false [.v 1, .v 4] false 1 (fun _ => [.v 1]) ∧ s.loadFollow (hand n) .nocache ps = []
    ∧ st.Ready (hand n) .any false [.v 1, .v 4] false 1 (fun _ => [.v 1]) ∧ st.loadFollow (hand n) .nocache ps ≠ [] := by
  refine ⟨?_, ?_, ?_, ?_, ?_, ?_⟩ <;> decide +kernel

/-- StoresIssue and StoreOwnScratchpad, STU.D among them; AtomicOwnScratchpad for AADDF.S. -/
theorem witness_store_forms :
    let i := Instr.stuD { off := 0, a := .s 1, d := 2, g := 0 }
    let a := Instr.aaddfS opM
    let q : PLane := { lane := 0, va := padVa.toNat, place := .pad 0 0 }
    let s := machine i (regs padVa 3)
    let t := (machine a (addr (padVa + 13440))).modGroup 0 (fun g => { g with tiles := 0 })
    (s.pairsDiffer (hand i) 1 (fun _ => []) = false ∧ s.storeMoves (hand i) [{ at_ := q, data := leBytes 8 3, regaddr := 0 }] = []
      ∧ s.mixedFollow (hand i) [q] 8 = [] ∧ s.mustFollow (hand i) .store [q] 8 = [] ∧ (s.cw (hand i)).tandem = false)
    ∧ (match s.placeOf (hand i) .store padVa.toNat 8 false with
      | .ok p => decide (p = .pad 0 0)
      | .error _ => false) = true
    ∧ (t.Ready (hand a) .any false [.v 1, .v 4] false 1 (fun _ => [.v 1, .v 4])
      ∧ t.mustFollow (hand a) .atomic [{ lane := 0, va := (padVa + 13440).toNat, place := .pad 0 13440 }] 4 = [] ∧ (t.core 0).armed = false)
    ∧ (match t.placeOf (hand a) .atomic (padVa + 13440).toNat 4 false with
      | .ok p => decide (p = .pad 0 13440)
      | .error _ => false) = true := by
  refine ⟨?_, ?_, ?_, ?_⟩ <;> decide +kernel

/-- A trap whose context has a record queue of one slot at 0x11000, mapped to the placed page. -/
def queued : State :=
  { (machine (.trap { imm := 5, g := 0 }) id).modCtx 0 (fun x => { x with tvec := 0x20000, frptr := 0x11000 }) with
    tables := [(0, 0x4001), (2048, 0x8001), (4096, 0xC001), (6145, 7)] }

/-- ExceptionEntry: a record that is written, and a queue whose slot still holds a suspended fragment's record. -/
theorem witness_record_queue :
    let full := queued.devWrite 0 0x11040 (leBytes 8 (2 ^ 19))
    let at_ (s : State) : RecordSlot := ((s.rewind 0 0 1 false).touchRecord 0).recordSlot 0
    (queued.cw (hand (.trap { imm := 5, g := 0 }))).sys = false ∧ at_ queued = .at_ 0x11040 0 ∧ at_ full = .full
    ∧ (queued.crew 0 0).trmask.getLsbD 11 = false := by decide +kernel

/-- LaneMatrixMemory: an MST of a shaped matrix whose element lies in the own scratchpad. -/
theorem witness_matrix_store :
    let o : OpMl := { xp := false, stride := 0, a := .v 1, d := 1, g := 0 }
    let i := Instr.mst o
    let s := machine i mats
    let w := s.cw (hand i)
    s.Ready (hand i) .vector false [.m 1, .v 1] false 1 (fun _ => [.v 1]) ∧ pickFault (s.mlFaults (hand i) o 1 false) = none
    ∧ s.ownPad (hand i) padVa.toNat = some 0 ∧ ((w.mel 1 0 0).poison = false ∧ s.tagBlocked 0 0 8 = false)
    ∧ s.pairsDiffer (hand i) 1 (fun l => (cells (w.mview 1 l).r (w.mview 1 l).c).flatMap (fun e => [w.val l o.a, (w.mel 1 l (6 * e.1 + e.2)).val])) = false
    ∧ s.mustFollow (hand i) .store (s.mlPlaces (hand i) o (w.primaries 1)) 8 = [] := by
  refine ⟨?_, ?_, ?_, ?_, ?_, ?_⟩ <;> decide +kernel

/-- ArrayOperations: a complete set whose operation issues, one with no fibre active, and an operation that completes. -/
theorem witness_array_issue :
    let i := Instr.aclr { w := 1, ad := 0, cv := 0, g := 0 }
    let k := Instr.aclr { w := 1, ad := 0, cv := 0, g := 1 }
    let st (i : Instr) : State := (machine i (fun w => { regs 1 0 w with fibres := [(0, { w.fibre 0 with wait := .conv 0 })] })).modGroup 0
      (fun g => g.setCv 0 { owned := true, set := 1, signed_ := 1, word := encode i, pc := placedPc })
    let q : ArrOp := { slot := 0, cv := 0, signers := 1, word := encode i, pc := placedPc, cycles := 1 }
    let c : Cur := { (st i).curAt 0 0 (((st i).crew 0 0).waiting (fun x => x = .conv 0)) with pc := placedPc, word := encode i }
    ((((st i).core 0).slots.filter (fun e => e.2.group = 0 && e.1 < 32 && e.2.no = 0)).map Prod.fst = [0] ∧ ((st i).core 0).arr = []
      ∧ ((st i).crew 0 0).active c.lanes ((encode i).extractLsb' 8 3) ≠ 0 ∧ decodeWord (encode i) = .ok i
      ∧ (((st i).arrayOp { c with ins := i } 0 i).2.map ArrOp.fault) = some none)
    ∧ (((st k).crew 0 0).active ((st k).curAt 0 0 (((st k).crew 0 0).waiting (fun x => x = .conv 0))).lanes ((encode k).extractLsb' 8 3) = 0)
    ∧ (((st i).modCore 0 (fun x => { x with arr := [q] })).core 0).arr = [q] := by
  refine ⟨?_, ?_, ?_⟩ <;> decide +kernel

/-- CoreEvents: a handler whose record the device reads, a grow that ends with its fragment waiting and one with none, a load whose home moves. -/
theorem witness_core_more :
    let i := Instr.regg opRt
    let r : GrowReq := { slot := 0, lanes := 1, acc := false, want := 1, d := 3 }
    let waits (x : Wait) : State := (machine i (fun w => { w with fibres := [(0, { w.fibre 0 with wait := x, word := encode i })] })).modCore 0
      (fun k => { k with grows := [r] })
    let ld : PLoad := { id := 1, kind := .plain 8 false, d := 1, lanes := [{ lane := 0, va := 0, place := .mem 0 0 false }] }
    let moves : State := { still.modCrew 0 0 (fun w => { w with loads := [ld] }) with pages := [(0, { valid := true, moving := true })] }
    ((queued.devRead 0 0x11040 2).isSome = true ∧ still.devRead 0 0x11040 2 = none)
    ∧ (((waits .grow).crew 0 0).waiting (fun x => x = .grow) &&& r.lanes = 1 ∧ decodeWord ((waits .grow).curAt 0 0 1).word = .ok i
      ∧ ((waits .none).crew 0 0).waiting (fun x => x = .grow) &&& r.lanes = 0)
    ∧ (moves.loadMoves 0 0 ld = true ∧ still.loadMoves 0 0 ld = false)
    ∧ ((still.modCore 0 (fun k => { k with copies := [{ copy1 with started := true }] })).core 0).copies.filter (fun x => x.started && x.fail.isNone) ≠ [] := by
  refine ⟨?_, ?_, ?_, ?_⟩ <;> decide +kernel

/-- HomeEvents: an update whose page moves and one whose page is gone; a page whose home can move and one that moves; what an orphan finds; an
answer of a crew in tandem mode. -/
theorem witness_home_more :
    let upd : Update := { lsec := 3, cluster := 0, tag := 0, ctx := 0, pos := 32 }
    let page (p : PageRec) : State := { still with pages := [(0, p)], tilesUp := 3 }
    let atom : PAtom := { id := 1, seq := 0, lane := 0, op := 8, addr := 0, place := .mem 0 0 false, size := 8, a := 1, b := 0, d := 4 }
    let ans : PAtom := { atom with answer := some ({ val := 9 }, 0) }
    ((page { valid := true, moving := true }).page (upd.lsec / 2048)).moving = true ∧ ((page {}).page (upd.lsec / 2048)).valid = false
    ∧ (((page { valid := true }).page 0).home ≠ 1 ∧ (page {}).tilesUp.getLsbD 1 = true)
    ∧ ((still.atomicHome 0 0 atom 0).isSome = true ∧ (still.page 0).moving = false)
    ∧ (still.modCrew 0 0 (fun w => { w with tandem := true, atoms := [ans] })).crew 0 0 = { placedCrew (encode .hintNop) with tandem := true, atoms := [ans] }
    ∧ ({ still with freeTabs := [(16384, 16384)] } : State).freeTabs ≠ []
    ∧ ({ still with root := { addr := 16384, gen := 0 } } : State).root.addr = 16384 := by
  refine ⟨?_, ?_, ?_, ?_, ?_, ?_, ?_⟩ <;> decide +kernel

/-- LogEvents: a page of host memory and the line that a fetch brings, a word that fails, a stale entry that waits to be written, a channel's reads. -/
theorem witness_log_more :
    let h : State := { still with pages := [(2, { valid := true, host := true, hbase := 2 })] }
    let bad : State := { still with hostErr := [(16384, true)] }
    let full (d : Bool) : GatherEntry := { grain := 0, tag := 0, ctx := 0, sectors := [], due := d }
    ((h.page 2).valid = true ∧ (h.page 2).host = true ∧ 0x20000 / 128 * 128 / 65536 = (h.page 2).hbase ∧ h.l2Find 0 (.host 0x20000) = none)
    ∧ (bad.hostBad 131072 8 = true ∧ still.hostBad 131072 8 = false)
    ∧ (([full false, full true].find? (fun g => g.isDue)) = some (full true) ∧ (full false).isDue = false)
    ∧ (({ reads := [7, 8], due := 1, last := 2 } : Chan).next 0 = some 1 ∧ ({ owed := [(3, 100), (2, 5)] } : Chan).next 0x0C = some 2) := by
  refine ⟨?_, ?_, ?_, ?_⟩ <;> decide +kernel

/-- A flit with its sequence number 0, acknowledging none that is kept. -/
def flit0 : List Byte := flitOf 0 4095 0 2 []

/-- The CRC that a flit carries is that of the bytes before it. -/
theorem flit0_crc : (crc64 (flit0.take 248)).toNat = fieldAt flit0 248 8 := by
  have h : ∀ x : BitVec 64, leNat (leBytes 8 x.toNat) = x.toNat := by
    intro x
    have := x.isLt
    simp only [leBytes, leNat, BitVec.toNat_ofNat]
    omega
  obtain ⟨b, hb, hn⟩ : ∃ b : List Byte, flit0 = b ++ leBytes 8 (crc64 b).toNat ∧ b.length = 248 := ⟨_, rfl, by decide +kernel⟩
  have hl : ∀ x, (leBytes 8 x).length = 8 := fun _ => rfl
  rw [hb, List.take_left' hn, fieldAt, List.drop_left' hn, List.take_of_length_le (Nat.le_of_eq (hl _)), h]

/-- StartAndLinkEvents: a flit that is in order and one that is not, a replay from the first missing number, a grant, a replica that waits for a
block and one that has it, an image that the floor refuses. -/
theorem witness_link_more :
    let granted : State := { still with peers := [(1, { granted := [{ base := 0, len := 65536, write := true }] })] }
    let st (q : PeerStore) : State := { granted with peerIn := [q] }
    let q : PeerStore := { peer := 1, addr := 0, data := [1], since := 0 }
    let c : ReplicaCommit := { time := 3, set := [(5, 32)] }
    (flit0.length = 256 ∧ fieldAt flit0 0 8 % 4096 = ({} : Port).rxSeq)
    ∧ (flitSeq (flitOf 3 0 0 0 []) = 3 ∧ ({ replay := [flit0] } : Port).acked 0 = {})
    ∧ (granted.granted 1 0 8 false = true ∧ (granted.page 0).valid = true ∧ granted.moving 0 = false ∧ granted.grainTaken 0 = false)
    ∧ ((st q).peerReady = some q ∧ granted.peerReady = none)
    ∧ ((Tab.find ({ waiting := [c] } : Replica).blocks 2).isSome = false ∧ (Tab.find ({ blocks := [(2, [])], waiting := [c] } : Replica).blocks 2).isSome = true)
    ∧ imageOk 0 [] = false := by
  refine ⟨?_, ?_, ?_, ?_, ?_, ?_⟩ <;> decide +kernel

/-- MailboxCommands: a command buffer whose header names a command and one that names none; a context to set; peers, partners of a barrier, a mesh. -/
theorem witness_mailbox_more :
    let cmd (h : Nat) : State := { still with cmdbuf := still.cmdbuf.writeBytes 0 (leBytes 8 h ++ leBytes 8 2 ++ leBytes 8 1) }
    let call (h : Nat) : Bool := ((cmd h).mailCall (h % 65536) ((cmd h).cmdbuf.readBytes 8 16)).isSome
    let ws : List (Nat × Nat × Nat) := [(0, 1, 1)]
    let ps : List (Nat × Nat) := [(1, 2)]
    (call (1 + 16 * 65536) = true ∧ call 0x77 = false ∧ leNat ((cmd (1 + 16 * 65536)).cmdbuf.readBytes 0 8) = 1 + 16 * 65536)
    ∧ ((still.ctx 0).valid = false ∧ 0 < still.tableBytes ∧ still.openNodes 0 = true)
    ∧ (Tab.find ({ still with peers := [(1, {})] } : State).peers 1 = some {} ∧ ws.flatMap (fun w => [w.1, w.2.1, w.2.2]) = [0, 1, 1]
      ∧ ps.flatMap (fun p => [p.1, p.2]) = [1, 2] ∧ 0 * 65536 + 1 * 65536 ≤ still.cap)
    ∧ (still.freeSnap ≠ none ∧ still.readCheckpoint 0 0 = none) := by
  refine ⟨?_, ?_, ?_, ?_⟩ <;> decide +kernel

/-! Worked examples of the spec, one step each. -/

/-- What a step leaves of the crew. -/
def after (i : Instr) (s : State) : Crew :=
  match exec i s with
  | .next t => t.crew 0 0
  | .fault _ => {}
  | .refused _ => {}

/-- The crew of the example of R174: lane 4 has ended, p1 is 0 in lane 1, v1 = 100 + L. -/
def r174 (i : Instr) : State :=
  let f (p : BitVec 16) : Fibre := { st := .live, pc := placedPc, restart := placedPc - 4, preds := p }
  let s := machine i (fun w => { w with
    fibres := [(0, f 3), (1, f 1), (2, f 3), (3, f 3), (4, { f 1 with st := .exited }), (5, f 3)]
    v := (List.range 6).map (fun l => (32 + l, { val := 100 + BitVec.ofNat 64 l }))
      ++ [(96, { val := 1 }), (98, { val := 4 }), (99, { val := 7 }), (101, { val := 3 })]
      ++ [(160, { val := 9 }), (161, { val := 9 }), (162, { val := 7 }), (163, { val := 9 }), (165, { val := 7 })] })
  { s with cur := some { hand i with lanes := 0x2F } }

/-- R174: the PERM of the example. -/
theorem test_perm :
    let i := Instr.permD { b := .v 3, a := .v 1, d := 2, k := false, g := 1 }
    let w := after i (r174 i)
    (w.vreg 0 2).val = 101 ∧ (w.vreg 1 2).val = 0 ∧ (w.vreg 2 2).val = 0 ∧ (w.vreg 3 2).val = 0 ∧ (w.vreg 5 2).val = 103 := by decide +kernel

/-- R174: the MATCH of the example. -/
theorem test_match :
    let i := Instr.matchD { a := .v 5, d := 4, k := false, g := 1 }
    let w := after i (r174 i)
    (w.vreg 0 4).val = 9 ∧ (w.vreg 2 4).val = 0x24 ∧ (w.vreg 3 4).val = 9 ∧ (w.vreg 5 4).val = 0x24 := by decide +kernel

/-- R174: the REDADD of the example. -/
theorem test_redadd :
    let i := Instr.redadd { a := .v 1, d := 6, k := false, g := 1 }
    let w := after i (r174 i)
    (w.vreg 0 6).val = 410 ∧ (w.vreg 1 6).val = 0 ∧ (w.vreg 5 6).val = 410 := by decide +kernel

/-- R176: the last line of the example, with its HINT.IMM. -/
theorem test_umovh :
    let o : OpUI := { imm := 0x6F, a := .s 1, d := 1, k := false, g := 0 }
    let s := machine (.umovh o) (regs 0x0000000123456789 0)
    ((after (.umovh o) { s with cur := some { hand (.umovh o) with pfx := { imm := some 0x01579B } } }).sreg 1).val = 0x0123456789ABCDEF := by decide +kernel

/-- R192: CSRW of FRM gives the previous mode. -/
theorem test_csrw :
    let i := Instr.csrw { csr := 1, d := 3, g := 0 }
    let w := after i (machine i (fun w => { w with frm := 2, s := [(3, { val := 1 })] }))
    w.frm = 1 ∧ (w.sreg 3).val = 2 := by decide +kernel

/-- R168: the quotient of −2^63 by −1, and by 0, as queued. -/
theorem test_idiv :
    let o : Op5 := { b := .ones, a := .v 1, d := 3, g := 0 }
    (match exec (.idivD o) (machine (.idivD o) (addr 0x8000000000000000)) with
    | .next t => (t.core 0).sfu.map SfuOp.results
    | .fault _ => []
    | .refused _ => []) = [[(0, 3, { val := 0x8000000000000000 })]] := by decide +kernel

/-- FP64 encodings of small integers, written out. -/
def fp (n : Nat) : Word :=
  match n with
  | 1 => 0x3FF0000000000000
  | 2 => 0x4000000000000000
  | 3 => 0x4008000000000000
  | 4 => 0x4010000000000000
  | 7 => 0x401C000000000000
  | 8 => 0x4020000000000000
  | 10 => 0x4024000000000000
  | 19 => 0x4033000000000000
  | 21 => 0x4035000000000000
  | 30 => 0x403E000000000000
  | _ => 0

/-- A matrix of `c` columns in lane 0, row by row. -/
def mat (k c : Nat) (es : List Nat) : Tab Elem :=
  ((List.range es.length).map (fun n => (mkey k 0 (6 * (n / c) + n % c), ({ val := fp (es.getD n 0) } : Elem)))).filter (fun e => e.2.val ≠ 0)

/-- The example of R207, lane 0 or lane 1, with the register that the last instruction wrote before. -/
def solve (i : Instr) (k c : Nat) (es bs : List Nat) : State :=
  machine i (fun w => { w with mregs := 4, mtag := [(32 * k, { tag := mkTag 3 c true }), (32 * (k + 1), { tag := mkTag 3 1 true })], m := mat k c es ++ mat (k + 1) 1 bs })

/-- R202: the factor of the example, in both lanes. -/
theorem test_mchol :
    let i := Instr.mchol { a := 0, d := 2, g := 0 }
    let at_ (w : Crew) : List Word := [(0, 0), (1, 0), (1, 1), (2, 0), (2, 1), (2, 2)].map (fun p => (w.mel 2 0 (6 * p.1 + p.2)).val)
    let a := after i (solve i 0 3 [4, 2, 2, 2, 10, 7, 2, 7, 21] [])
    let b := after i (solve i 0 3 [4, 2, 2, 2, 1, 1, 2, 1, 5] [])
    (at_ a = [fp 2, fp 1, fp 3, fp 1, fp 2, fp 4] ∧ (a.fibre 0).mflags = 0 ∧ a.fflags = 0)
    ∧ (at_ b = [fp 2, fp 1, 0, fp 1, 0, 0] ∧ (b.fibre 0).mflags = mfNPP) := by decide +kernel

/-- R203: the solution of the example, in both lanes. -/
theorem test_msolc :
    let i := Instr.msolc { mode := 0, b := 1, a := 0, d := 3, g := 0 }
    let at_ (w : Crew) : List Word := [0, 1, 2].map (fun r => (w.mel 3 0 (6 * r)).val)
    let a := after i (solve i 0 3 [2, 0, 0, 1, 3, 0, 1, 2, 4] [8, 19, 30])
    let b := after i (solve i 0 3 [2, 0, 0, 1, 0, 0, 1, 0, 0] [8, 4, 8])
    at_ a = [fp 1, fp 1, fp 1] ∧ at_ b = [0x7FF8000000000000, 0x7FF8000000000000, 0x7FF8000000000000] ∧ (b.fibre 0).mflags = 9 := by decide +kernel

end Sys2Proof.Tests
end

/-! Statements of the family 00_scope: the bytes of a memory, whose addresses R5 takes as the order of a multi-byte value. -/

section
namespace Sys2Proof.Machine

/-- Settles O7: a write of a list of bytes is a chain of writes of one byte, so both facts are inductions over the list. -/
theorem memoryWrites : Obligations.MemoryWrites := by
  unfold Obligations.MemoryWrites
  intro m a bs hwf
  exact ⟨Memory.wf_writeBytes m a bs hwf, fun n => Memory.read_writeBytes m a n bs⟩

end Sys2Proof.Machine
end

/-! Statements of the family 01_execution_model. The checks of an issue, one lemma for each of their outcomes, and the instructions whose
meaning is the checks and one shared operation (R17, R28, R91, R121, R133, R146, R189, R371). -/

section
namespace Sys2Proof.Machine

/-- Settles O16: the predicate word is rewritten bit by bit. -/
theorem predicateWrites : Obligations.PredicateWrites := by
  unfold Obligations.PredicateWrites
  exact fun f p b => ⟨rfl, f.setPred_spec p b⟩

section Checks
variable {s : State} {c : Cur} {r : Roles} {all : Bool} {us : List Use}

theorem State.gate_outOfRange (h : s.inRange c us = false) (k : State) : s.gate c r all us k = s.takeFault c (faultOf 9 0) := by
  simp [State.gate, h]

theorem State.gate_wrongRole (h : s.inRange c us = true) (hr : r.allows (s.cw c).role = false) (k : State) :
    s.gate c r all us k = s.takeFault c (faultOf 5 0) := by
  simp [State.gate, h, hr]

theorem State.gate_pending (h : s.inRange c us = true) (hr : r.allows (s.cw c).role = true) (hp : s.pendIds c all us ≠ []) (k : State) :
    s.gate c r all us k = s.hold c (.operands (s.pendIds c all us)) := by
  simp only [State.gate, h, hr, Bool.not_true, Bool.false_eq_true, if_false]

theorem State.gate_passes (h : s.inRange c us = true) (hr : r.allows (s.cw c).role = true) (hp : s.pendIds c all us = []) (k : State) :
    s.gate c r all us k = k := by
  simp [State.gate, h, hr, hp]

variable {pr : Bool} {m : BitVec 32} {xs : Nat → List Src}

theorem State.reads_parity (h : s.anyParity c m xs = true) (k : State) : s.reads c pr m xs k = s.replay c := by
  simp [State.reads, h]

theorem State.reads_poison (h : s.anyParity c m xs = false) (hp : (pr && s.predPoison c) = true ∨ s.anyPoison c m xs = true) (k : State) :
    s.reads c pr m xs k = s.consume c := by
  rw [State.reads, if_neg (by simp [h]), if_pos (by simpa using hp)]

end Checks

/-- The checks of a vector instruction in their order, whatever it computes. -/
theorem State.vec_checks (s : State) (c : Cur) (r : Roles) (k : Bool) (g : BitVec 3) (d : BitVec 6) (xs : List Src)
    (f : Crew → Nat → Word × FSet) :
    let us := xs.map srcUse ++ [useD k d]
    let t := s.vec c r k g d xs false f
    (s.inRange c us = false → t = s.takeFault c (faultOf 9 0))
    ∧ (s.inRange c us = true → r.allows (s.cw c).role = false → t = s.takeFault c (faultOf 5 0))
    ∧ (s.inRange c us = true → r.allows (s.cw c).role = true → s.pendIds c false us ≠ [] → t = s.hold c (.operands (s.pendIds c false us)))
    ∧ (s.inRange c us = true → r.allows (s.cw c).role = true → s.pendIds c false us = [] →
        s.anyParity c (s.act c g) (fun _ => xs) = true → t = s.replay c)
    ∧ (s.inRange c us = true → r.allows (s.cw c).role = true → s.pendIds c false us = [] →
        s.anyParity c (s.act c g) (fun _ => xs) = false →
        (g ≠ 0 ∧ s.predPoison c = true ∨ s.anyPoison c (s.act c g) (fun _ => xs) = true) → t = s.consume c) := by
  unfold State.vec
  simp only [Bool.false_eq_true, if_false]
  refine ⟨fun h => State.gate_outOfRange h _, fun h hr => State.gate_wrongRole h hr _, fun h hr hp => State.gate_pending h hr hp _, ?_, ?_⟩
  · intro h hr hp hb
    rw [State.gate_passes h hr hp, State.reads_parity hb]
  · intro h hr hp hb hx
    rw [State.gate_passes h hr hp, State.reads_poison hb (by simpa using hx)]

/-- Every integer instruction of format A is one operation of elements (R148, R149). -/
theorem exec_intRule {m : OpA → Instr} {R : Bool → Word → Word → Word → Prop} (h : (m, R) ∈ intRules) :
    ∃ f, ∀ o s, exec (m o) s = s.intA o f := by
  simp only [intRules, List.mem_cons, List.not_mem_nil, or_false] at h
  rcases h with h | h | h | h | h | h | h | h | h | h | h | h | h | h | h | h | h | h | h | h | h | h | h | h | h | h | h | h <;>
    (cases h; unfold exec; exact ⟨_, fun _ _ => rfl⟩)

/-- Every floating instruction of format A over elements of A and B is one operation of its format (R152, R153). -/
theorem exec_fpRule {m : OpA → Instr} {R : Fmt × (RMode → Nat → Nat → Nat × FSet)} (h : (m, R) ∈ fpRules) :
    ∀ o s, exec (m o) s = s.fpA o R.1 R.2 := by
  simp only [fpRules, List.mem_cons, List.not_mem_nil, or_false] at h
  rcases h with h | h | h | h | h | h | h | h | h | h | h | h | h | h | h | h | h | h | h <;>
    (cases h; unfold exec; exact fun _ _ => rfl)

/-- Settles O8: an integer and a floating instruction of format A are both a vector instruction, whose checks come in one order. -/
theorem checksBeforeEffect : Obligations.ChecksBeforeEffect := by
  unfold Obligations.ChecksBeforeEffect
  intro m r hm o s c hc
  have key : ∃ f, exec (m o) s = .next (s.vec c r o.k o.g (c.dst o.d) [c.srcA o.a, c.srcB o.b] false f) := by
    rcases hm with ⟨⟨R, hR⟩, rfl⟩ | ⟨⟨R, hR⟩, rfl⟩
    · obtain ⟨f, hf⟩ := exec_intRule hR
      exact ⟨_, (hf o s).trans (State.run_cur hc _)⟩
    · exact ⟨_, (exec_fpRule hR o s).trans (State.run_cur hc _)⟩
  obtain ⟨f, hf⟩ := key
  simpa only [hf, Host.Outcome.next.injEq] using s.vec_checks c r o.k o.g (c.dst o.d) [c.srcA o.a, c.srcB o.b] f

/-- Settles O30: TRAP is its checks, a retirement, and a fault of the active lanes. -/
theorem trapTakesFault : Obligations.TrapTakesFault := by
  unfold Obligations.TrapTakesFault
  intro o s c h
  refine (State.run_cur h.1 _).trans ?_
  simp only [State.gate_ready h, State.reads_ready h, BitVec.toNat_setWidth]

/-- An issue slot that is not held, whose word is fetched and does not stall, comes to the decoded word. -/
theorem State.prepare_word {s u : State} {core sl : Nat} {f : Frag} {x : BitVec 32} (hp : (s.crew core sl).peloton = true)
    (hr : s.crewReady core sl = true) (hf : s.pick core sl = some f) (hw : (s.crew core sl).heldWord f = none)
    (hs : s.holdSlot (s.curOf core sl f 0) = none) (hx : s.fetch core sl f.pc = (u, .word x))
    (hst : u.stalled (u.curOf core sl f x) = false) :
    s.prepare core sl = (u.beginIssue (u.curOf core sl f x)).decoded (u.curOf core sl f x) := by
  unfold State.prepare
  simp only [hp, hr, hf, hw, hs, hx, hst, Bool.not_true, Bool.or_self, Bool.false_eq_true, if_false]

theorem State.word_curOf (s : State) (core sl : Nat) (f : Frag) (x : BitVec 32) : (s.curOf core sl f x).word = x := by
  unfold State.curOf
  simp only
  split <;> rfl

/-- A word that decodes to an instruction that its unit suits is put in hand. -/
theorem State.decoded_run {s : State} {c : Cur} {i : Instr} (h : decodeWord c.word = .ok i) (hu : c.unitOk i = true) :
    s.decoded c = .run { s.touchSources { c with ins := i } (s.selectForm { c with ins := i }) with cur := some { c with ins := i } }
      (s.selectForm { c with ins := i }) := by
  simp [State.decoded, h, hu]

/-- Settles O3: the turn is the issue of a crew, and each part of the issue has its equation. -/
theorem stepRunsDecoded : Obligations.StepRunsDecoded := by
  unfold Obligations.StepRunsDecoded
  intro s core sl rest f u x i ha hp hr hf hw hs hx hst hd hu
  have hn : s.nextTurn = (.issue core sl, { s with agenda := rest }) := by simp [State.nextTurn, ha]
  have hd' : decodeWord (u.curOf core sl f x).word = .ok i := by rw [State.word_curOf, hd]
  simp only [step, hn, State.take, State.prepare_word hp hr hf hw hs hx hst, State.decoded_run hd' hu]

end Sys2Proof.Machine
end

/-! Group 5 (R161 to R168): the issue queues the results and flags, and the completion writes them. -/

section
namespace Sys2Proof.Machine

/-- A change of a core that keeps its slots keeps every crew. -/
theorem State.crew?_modCore {s : State} {k : Nat} {f : Core → Core} (hf : (f (s.core k)).slots = (s.core k).slots) (n t : Nat) :
    (s.modCore k f).crew? n t = s.crew? n t := by
  unfold State.crew?
  rw [State.core_modCore]
  split
  · rename_i h; rw [hf, h]
  · rfl

theorem State.crew_modCore {s : State} {k : Nat} {f : Core → Core} (hf : (f (s.core k)).slots = (s.core k).slots) (n t : Nat) :
    (s.modCore k f).crew n t = s.crew n t := by
  unfold State.crew
  rw [State.crew?_modCore hf]

/-- What the issue of a group-5 instruction comes to, for a fragment that may act. -/
theorem State.sfuOp_done {s : State} {c : Cur} {g : BitVec 3} {d : BitVec 6} {xs : List Src} {rd : Bool}
    (h : s.Ready c .vector false (xs.map srcUse ++ [.v d.toNat]) (g ≠ 0) (s.act c g) (fun _ => if rd then xs ++ [.v d] else xs))
    (f : Crew → Nat → Word × FSet) :
    ((s.core c.core).sfu.length < 16 → s.SfuQueued (s.sfuOp c g d xs rd f) c d (s.act c g) (fun l => (f (s.cw c) l).1)
      ((s.cw c).raised (s.act c g) (fun l => (f (s.cw c) l).2)))
    ∧ (16 ≤ (s.core c.core).sfu.length → s.sfuOp c g d xs rd f = s.hold c .sfuFull) := by
  unfold State.sfuOp
  rw [State.gate_ready h, State.reads_ready h]
  constructor
  · intro hn
    rw [if_neg (by omega)]
    simp only [Crew.raised_eq, List.map_map]
    refine ⟨_, State.retire_eq _ _ _, ?_, ?_, ?_, ?_, ?_, ?_⟩
    · rw [State.crew_modCore rfl]
      exact Crew.wentOn_of (s.cw c) (s.cw c) c { swap := true } (fun _ => rfl) rfl rfl rfl
    all_goals (rw [State.crew_modCore rfl, Crew.retired_eq]; rfl)
  · exact fun hn => if_pos hn

/-- The elements of a packed floating result, and the flags of all of them (R65, R143). -/
theorem packF_els (f : Fmt) (g : Nat → Nat × FSet) :
    FpEls f g (packF f.width ((List.range (64 / f.width)).map g)).1 (packF f.width ((List.range (64 / f.width)).map g)).2 := by
  constructor
  · intro k hk
    simp only [packF]
    rw [el_packEls _ _ _ (by simpa using Nat.mul_div_le 64 f.width), List.getD_eq_getElem _ _ (by simpa using hk)]
    simp
  · simp [packF, orFlags, List.foldl_map]

theorem idiv_eq (a b : Word) : idiv a b = if b = 0 then BitVec.allOnes 64 else a.sdiv b := by
  unfold idiv
  split
  · rfl
  · apply BitVec.eq_of_toInt_eq
    rw [BitVec.toInt_ofInt, BitVec.toInt_sdiv]

theorem idivu_eq (a b : Word) : idivu a b = if b = 0 then BitVec.allOnes 64 else a / b := by
  unfold idivu
  split
  · rfl
  · apply BitVec.eq_of_toNat_eq
    rw [BitVec.toNat_udiv, BitVec.toNat_ofNat, Nat.mod_eq_of_lt (lt_of_le_of_lt (Nat.div_le_self _ _) a.isLt)]

/-- Every group-5 instruction of two sources is one operation on the values of its sources (R164 to R168). -/
theorem exec_sfu2Rule {p : (Op5 → Instr) × Bool × (RMode → Word → Word → Word → Word × FSet)} (h : p ∈ sfu2Rules) (o : Op5) (s : State) :
    exec (p.1 o) s = s.sfu2 o p.2.1 p.2.2 := by
  simp only [sfu2Rules, List.mem_cons, List.not_mem_nil, or_false, ← idiv_eq, ← idivu_eq] at h
  rcases h with h | h | h | h | h | h <;> (subst h; unfold exec; rfl)

/-- Every group-5 instruction of one source is one operation of its format on the elements (R166, R167). -/
theorem exec_sfu1Rule {p : (Op51 → Instr) × Fmt × (RMode → Nat → Nat × FSet)} (h : p ∈ sfu1Rules) (o : Op51) (s : State) :
    exec (p.1 o) s = s.sfu1 o p.2.1 p.2.2 := by
  simp only [sfu1Rules, List.mem_cons, List.not_mem_nil, or_false] at h
  rcases h with h | h | h | h | h | h | h | h | h <;> (subst h; unfold exec; rfl)

/-- Settles O19: every instruction of the group is the queueing of one operation's results. -/
theorem specialFunctionIssues : Obligations.SpecialFunctionIssues := by
  unfold Obligations.SpecialFunctionIssues
  refine ⟨?_, ?_, ?_⟩
  · intro o s c h
    have he : exec (.cvt o) s = .next _ := State.run_cur h.1 _
    obtain ⟨hq, hf⟩ := State.sfuOp_done (xs := [o.a]) (rd := false) h (fun w l => cvtWord o.sel (s.rmode c) (w.val l o.a))
    exact ⟨fun hn => ⟨_, he, hq hn⟩, fun hn => he.trans (congrArg _ (hf hn))⟩
  · intro p hp o s c h
    have he := (exec_sfu2Rule hp o s).trans (State.run_cur h.1 _)
    obtain ⟨hq, hf⟩ := State.sfuOp_done (xs := [c.srcA o.a, c.srcB o.b]) (rd := p.2.1) h
      (fun w l => p.2.2 (s.rmode c) (w.val l (c.srcA o.a)) (w.val l (c.srcB o.b)) (w.val l (.v (c.dst o.d))))
    exact ⟨fun hn => ⟨_, he, hq hn⟩, fun hn => he.trans (congrArg _ (hf hn))⟩
  · intro p hp o s c h
    have he := (exec_sfu1Rule hp o s).trans (State.run_cur h.1 _)
    obtain ⟨hq, hf⟩ := State.sfuOp_done (xs := [c.srcA o.a]) (rd := false) h
      (fun w l => fpEls p.2.1 (fun x _ => p.2.2 (s.rmode c) x) (w.val l (c.srcA o.a)) 0)
    refine ⟨fun hn => ⟨_, _, _, he, hq hn, fun l _ => ?_⟩, fun hn => he.trans (congrArg _ (hf hn))⟩
    simpa only [fpEls, lmt_eq_el] using
      packF_els p.2.1 (fun k => p.2.2 (s.rmode c) (el p.2.1.width k ((s.cw c).val l (c.srcA o.a))).toNat)

/-- Writing vector registers changes nothing else of a crew. -/
theorem Crew.setVregs_eq (rs : List (Nat × Nat × Elem)) (w : Crew) :
    rs.foldl (fun w r => w.setVreg r.1 r.2.1 r.2.2) w = { w with v := (rs.foldl (fun w r => w.setVreg r.1 r.2.1 r.2.2) w).v } := by
  induction rs generalizing w with
  | nil => rfl
  | cons r rs ih => rw [List.foldl_cons, ih]; rfl

/-- The registers after one register of each of some lanes is written. -/
theorem Crew.vreg_setVregs (rs : List (Nat × Nat × Elem)) (w : Crew) (l n : Nat) (hl : l < 32) (hv : ∀ e ∈ rs, e.1 < 32)
    (hd : (rs.map Prod.fst).Nodup) :
    (rs.foldl (fun w r => w.setVreg r.1 r.2.1 r.2.2) w).vreg l n =
      match rs.find? (fun e => e.1 = l) with
      | some e => if n = e.2.1 then e.2.2 else w.vreg l n
      | none => w.vreg l n := by
  induction rs generalizing w with
  | nil => rfl
  | cons e rs ih =>
    obtain ⟨he, hd⟩ := List.nodup_cons.1 hd
    have h1 : e.1 < 32 := hv e List.mem_cons_self
    rw [List.foldl_cons, ih _ (fun x hx => hv x (List.mem_cons_of_mem _ hx)) hd]
    by_cases h : e.1 = l
    · subst h
      have hn : rs.find? (fun x => decide (x.1 = e.1)) = none :=
        List.find?_eq_none.2 (fun x hx hc => he (List.mem_map.2 ⟨x, hx, by simpa using hc⟩))
      simp [hn, Crew.vreg_setVreg _ _ _ _ _ _ h1 h1]
    · rw [List.find?_cons_of_neg (by simpa using h)]
      simp [Crew.vreg_setVreg _ _ _ _ _ _ h1 hl, Ne.symm h]

/-- Settles O20: the head of the queue decides, by the branches of the completion. -/
theorem specialFunctionCompletes : Obligations.SpecialFunctionCompletes := by
  unfold Obligations.SpecialFunctionCompletes
  have key : ∀ s, exec .specialFunctionComplete s = execSpecialFunctionComplete s := fun _ => rfl
  simp only [key, execSpecialFunctionComplete]
  refine ⟨fun s h => by simp only [h], ?_⟩
  intro s q rest h
  simp only [h]
  refine ⟨fun hf hs => ?_, fun hf hs hq => ?_, fun hd hv => ⟨fun hf hs hq => ?_, fun hf => ?_⟩⟩
  · rw [hf, hs]; rfl
  · simp only [hf, hs, hq, State.modCore_ev, Bool.and_false, Bool.false_eq_true, if_false, if_true]
  · simp only [hf, hs, hq, State.modCore_ev, Bool.and_false, Bool.false_eq_true, if_false, if_true]
    rfl
  · simp only [hf, State.modCore_ev, Bool.false_and, Bool.false_eq_true, if_false]
    refine ⟨_, rfl, ?_, fun l n hl => ?_⟩
    · rw [State.crew_modCore rfl]
      dsimp only
      rw [Crew.setVregs_eq]
    · rw [State.crew_modCore rfl]
      exact Crew.vreg_setVregs q.results (s.crew s.ev.core q.slot) l n hl hv hd

end Sys2Proof.Machine
end

/-! Groups 6 and 7 (R169 to R176): the exchanges between lanes, and the uniform instructions. -/

section
namespace Sys2Proof.Machine

theorem Crew.raised_zero (w : Crew) (m : BitVec 32) : w.raised m (fun _ => 0) = 0 := by
  have h : (fun (a : FSet) (l : Nat) => if w.tandem && l % 2 = 1 then a else a ||| 0) = fun a _ => a := by
    funext a l
    simp
  unfold Crew.raised
  rw [h]
  exact List.foldl_fixed _

/-- An exchange of a fragment that may act: a poisoned element among those read is consumed, else the results stand in D. -/
theorem State.xchg_done {s : State} {c : Cur} {k : Bool} {g : BitVec 3} {d : BitVec 6} {a b : Src}
    (h : s.Ready c .any true [srcUse a, srcUse b, useD k d] (g ≠ 0) (s.act c g) (fun _ => [b]))
    (src : Crew → Nat → List Nat) (f : Crew → Nat → (Nat → Word) → Word) :
    let bad : Prop := ∃ l, (s.act c g).getLsbD l = true ∧ ∃ v ∈ src (s.cw c) l, ((s.cw c).given l v a).poison = true
    (bad → s.xchg c k g d a b src f = s.consume c)
    ∧ (¬ bad → s.VecDone (s.xchg c k g d a b src f) c k d (s.act c g) (fun l => f (s.cw c) l (fun v => ((s.cw c).given l v a).val)) 0) := by
  intro bad
  have hb : (lanesOf (s.act c g)).any (fun l => (src (s.cw c) l).any (fun v => ((s.cw c).given l v a).poison)) = true ↔ bad := by
    simp only [List.any_eq_true, mem_lanesOf, bad]
  unfold State.xchg
  rw [State.gate_ready h, State.reads_ready h]
  refine ⟨fun hh => if_pos (hb.2 hh), fun hh => ?_⟩
  have hn := mt hb.1 hh
  simp only [Crew.given] at hn
  simp only [if_neg hn]
  have := s.putV_done c k d (s.act c g) (fun l => (f (s.cw c) l (fun v => ((s.cw c).given l v a).val), 0))
  rwa [Crew.raised_zero] at this

/-- PERM's result has the element of A that each element of B names (R170). -/
theorem el_perm (z : Nat) (ix : Nat → Nat) (e : Nat) (rd : Nat → Word) (k : Nat) (hk : k < 64 / z) :
    el z k (packEls z ((List.range (64 / z)).map (fun k => lmt z (ix k % e) (rd (ix k / e))))) = el z (ix k % e) (rd (ix k / e)) := by
  rw [el_packEls _ _ _ (by simpa using Nat.mul_div_le 64 z), List.getD_eq_getElem _ _ (by simpa using hk)]
  simp [lmt_eq_el]

/-- The result of a PERM with elements of width `z` among `n` lanes, from B and the lanes' values of A (R170). -/
def permWord (z _ n : Nat) (b : Word) (rd : Nat → Word) : Word :=
  packEls z ((List.range (64 / z)).map (fun k =>
    lmt z (lmt z k b % (n * (64 / z)) % (64 / z)) (rd (lmt z k b % (n * (64 / z)) / (64 / z)))))

/-- The result of ROTX.H in visible lane `v` of `n`, from B and the lanes' values of A (R171). -/
def rotxWord (v n : Nat) (b : Word) (rd : Nat → Word) : Word :=
  packEls 16 ((List.range 4).map (fun k =>
    lmt 16 ((4 * v + k + b.toNat % (4 * n)) % (4 * n) % 4) (rd ((4 * v + k + b.toNat % (4 * n)) % (4 * n) / 4))))

/-- Every exchange reads the lanes that its rule names and computes what its rule says (R170, R171). -/
theorem exec_xchgRule {p : (OpA → Instr) × (Nat → Nat → Word → List Nat) × (Nat → Nat → Word → (Nat → Word) → Word → Prop)}
    (h : p ∈ xchgRules) :
    ∃ f : Nat → Nat → Word → (Nat → Word) → Word,
      (∀ o s, exec (p.1 o) s = s.run (fun c => s.xchg c o.k o.g (c.dst o.d) (c.srcA o.a) (c.srcB o.b)
        (fun w l => p.2.1 (w.visible l) w.nl (w.val l (c.srcB o.b))) (fun w l rd => f (w.visible l) w.nl (w.val l (c.srcB o.b)) rd)))
      ∧ ∀ v n b rd, p.2.2 v n b rd (f v n b rd) := by
  simp only [xchgRules, List.mem_cons, List.not_mem_nil, or_false, ← lmt_eq_el] at h
  rcases h with h | h | h | h | h | h | h <;> subst h <;> unfold exec
  · exact ⟨permWord 64, fun _ _ => rfl, fun _ n b rd k hk => el_perm 64 (fun k => lmt 64 k b % (n * (64 / 64))) _ rd k hk⟩
  · exact ⟨permWord 32, fun _ _ => rfl, fun _ n b rd k hk => el_perm 32 (fun k => lmt 32 k b % (n * (64 / 32))) _ rd k hk⟩
  · exact ⟨permWord 16, fun _ _ => rfl, fun _ n b rd k hk => el_perm 16 (fun k => lmt 16 k b % (n * (64 / 16))) _ rd k hk⟩
  · exact ⟨permWord 8, fun _ _ => rfl, fun _ n b rd k hk => el_perm 8 (fun k => lmt 8 k b % (n * (64 / 8))) _ rd k hk⟩
  · exact ⟨fun _ n b rd => rd (b.toNat % n), fun _ _ => rfl, fun _ _ _ _ => rfl⟩
  · exact ⟨fun v _ b rd => rd (8 * (v / 8) + b.toNat % 8), fun _ _ => rfl, fun _ _ _ _ => rfl⟩
  · exact ⟨rotxWord, fun _ _ => rfl, fun v n b rd k hk => el_perm 16 (fun k => (4 * v + k + b.toNat % (4 * n)) % (4 * n)) 4 rd k hk⟩

/-- Settles O21: the exchange of a rule, whose poison and result are the shared operation's. -/
theorem exchangeResults : Obligations.ExchangeResults := by
  unfold Obligations.ExchangeResults
  intro p hp o s c h w bad
  obtain ⟨f, he, hf⟩ := exec_xchgRule hp
  obtain ⟨hbad, hgood⟩ := State.xchg_done h (fun w l => p.2.1 (w.visible l) w.nl (w.val l (c.srcB o.b)))
    (fun w l rd => f (w.visible l) w.nl (w.val l (c.srcB o.b)) rd)
  have hx := (he o s).trans (State.run_cur h.1 _)
  exact ⟨fun hb => hx.trans (congrArg _ (hbad hb)), fun hb => ⟨_, _, hx, hgood hb, fun l _ => hf _ _ _ _⟩⟩

/-- What a uniform instruction does once its checks have passed: it passes where no fibre is active, else it leaves its result (R175). -/
theorem State.uni_done {s : State} {c : Cur} {k : Bool} {g : BitVec 3} {d : BitVec 5} {xs : List Src}
    (h : s.Ready c .any false (xs.map srcUse ++ [useU k d]) (g ≠ 0) (s.act c g) (fun _ => xs)) (f : (Src → Word) → Word) :
    if s.act c g = 0 then s.FibreDone (s.uni c k g d xs f) c (fun _ f => f) 0
    else s.UniDone (s.uni c k g d xs f) c k d (s.act c g) (f (fun x => s.uval c x)) := by
  unfold State.uni
  rw [State.gate_ready h, State.reads_ready h]
  split
  · exact s.retire_done c {} rfl rfl rfl
  · exact s.putU_done c k d _ _

/-- Every uniform instruction of two sources is one operation on their values (R176). -/
theorem exec_uniRule {p : (OpU → Instr) × (Word → Word → Word)} (h : p ∈ uniRules) (o : OpU) (s : State) :
    exec (p.1 o) s = s.uniA o p.2 := by
  have hsh : ∀ b : Word, (b.setWidth 6).toNat = b.toNat % 64 := fun b => by simp
  simp only [uniRules, List.mem_cons, List.not_mem_nil, or_false, BitVec.shiftLeft_eq', BitVec.ushiftRight_eq', BitVec.sshiftRight_eq',
    hsh] at h
  rcases h with h | h | h | h | h | h | h | h | h | h | h <;> (subst h; unfold exec; rfl)

/-- UMOVH's result: the low 40 bits of A above 24 bits of the immediate (R176). -/
theorem umovh_word (a x : Word) : (a <<< 24) ||| (x.setWidth 24).setWidth 64 = (a.setWidth 40 ++ x.setWidth 24 : BitVec 64) := by
  apply BitVec.eq_of_getLsbD_eq
  intro i hi
  refine Eq.trans ?_ (BitVec.getLsbD_append (x := a.setWidth 40) (y := x.setWidth 24) (i := i)).symm
  by_cases h : i < 24
  · simp [h, hi]
  · simp [h, hi, show i - 24 < 40 by omega, BitVec.getLsbD_eq_getElem (show i - 24 < 64 by omega)]

/-- Settles O23: a uniform instruction acts once; UREAD's own checks are its branches. -/
theorem uniformResults : Obligations.UniformResults := by
  unfold Obligations.UniformResults
  refine ⟨?_, ?_, ?_, ?_⟩
  · intro p hp o s c h
    exact ⟨_, (exec_uniRule hp o s).trans (State.run_cur h.1 _), State.uni_done (xs := [c.srcA o.a, c.srcB o.b]) h _⟩
  · intro o s c h
    refine ⟨⟨_, State.run_cur h.1 _, State.uni_done (xs := [o.a]) h _⟩, ?_⟩
    rw [← umovh_word]
    exact ⟨_, State.run_cur h.1 _, State.uni_done (xs := [o.a]) h _⟩
  · intro o s c h
    exact ⟨_, State.run_cur h.1 _, State.uni_done (xs := []) h _⟩
  · intro o s c h w v a b
    have he : exec (.uread o) s = .next (if s.act c o.g = 0 then s.retire c {}
        else if a.poison || (w.tandem && b.poison) then s.consume c
        else if w.tandem && a.val ≠ b.val then s.mismatch c
        else s.putU c o.k (c.dst o.d) (s.act c o.g) a.val {}) := by
      refine (State.run_cur h.1 _).trans ?_
      rw [State.gate_ready h, State.reads_ready h]
      rfl
    refine ⟨fun ha hb => ⟨_, he, ?_⟩, fun hm hp => he.trans ?_, fun hm ha ht hb hne => he.trans ?_⟩
    · split
      · exact s.retire_done c {} rfl rfl rfl
      · rw [if_neg, if_neg]
        · exact s.putU_done c _ _ _ _
        · cases ht : w.tandem with
          | false => simp
          | true => simp [(hb ht).2]
        · cases ht : w.tandem with
          | false => simp [ha]
          | true => simp [ha, (hb ht).1]
    · rw [if_neg hm, if_pos (by simpa using hp)]
    · rw [if_neg hm, if_neg (by simp [ha, hb]), if_pos (by simp [ht, hne])]

end Sys2Proof.Machine
end

/-! Branches (R24, R26, R48, R179): the checks before a fibre moves, and where the fibres go. -/

section
namespace Sys2Proof.Machine

/-- A list has two different entries. -/
theorem two_le_eraseDups_iff {α : Type} [BEq α] [LawfulBEq α] (xs : List α) :
    2 ≤ xs.eraseDups.length ↔ ∃ x ∈ xs, ∃ y ∈ xs, x ≠ y := by
  cases xs with
  | nil => simp
  | cons a xs =>
    have hlen : 2 ≤ (a :: xs).eraseDups.length ↔ xs.filter (fun b => !b == a) ≠ [] := by
      rw [List.eraseDups_cons]
      cases hf : xs.filter (fun b => !b == a) with
      | nil => simp
      | cons b ys => simp [List.eraseDups_cons]
    rw [hlen, ne_eq, List.filter_eq_nil_iff]
    constructor
    · intro h
      push Not at h
      obtain ⟨b, hb, hne⟩ := h
      exact ⟨b, List.mem_cons_of_mem _ hb, a, List.mem_cons_self, by simpa using hne⟩
    · rintro ⟨x, hx, y, hy, hne⟩ h
      have hall : ∀ z ∈ a :: xs, z = a := by
        intro z hz
        rcases List.mem_cons.1 hz with rfl | hz
        · rfl
        · simpa using h z hz
      exact hne ((hall x hx).trans (hall y hy).symm)

/-- Two lanes of a mask differ in a value. -/
theorem two_le_lanes_iff {α : Type} [BEq α] [LawfulBEq α] (m : BitVec 32) (f : Nat → α) :
    2 ≤ ((lanesOf m).map f).eraseDups.length ↔ ∃ l k, m.getLsbD l = true ∧ m.getLsbD k = true ∧ f l ≠ f k := by
  rw [two_le_eraseDups_iff]
  simp only [List.mem_map, mem_lanesOf]
  constructor
  · rintro ⟨_, ⟨l, hl, rfl⟩, _, ⟨k, hk, rfl⟩, h⟩
    exact ⟨l, k, hl, hk, h⟩
  · rintro ⟨l, k, hl, hk, h⟩
    exact ⟨_, ⟨l, hl, rfl⟩, _, ⟨k, hk, rfl⟩, h⟩

/-- BRA's target is PC + 4 × OFF21 (R179). -/
theorem Cur.rel_eq (c : Cur) (off : BitVec 21) : c.rel off = c.pc.setWidth 64 + 4 * off.signExtend 64 := by
  unfold Cur.rel
  congr 1
  apply BitVec.eq_of_toNat_eq
  simp [Nat.shiftLeft_eq, BitVec.toNat_mul, Nat.mul_comm]

/-- The lanes of a list whose target is at or above 2^57. -/
def farLanes (ls : List Nat) (f : Nat → Word) : List Nat := ls.filter (fun l => decide (2 ^ 57 ≤ (f l).toNat))

/-- The lanes of a list whose target is below 2^57 and not a multiple of 4. -/
def oddLanes (ls : List Nat) (f : Nat → Word) : List Nat :=
  ls.filter (fun l => decide ((f l).toNat < 2 ^ 57) && decide ((f l).toNat % 4 ≠ 0))

/-- The faults of code addresses, lane by lane. -/
theorem codeFaults_cons (l : Nat) (x : Word) (ts : List (Nat × Word)) :
    codeFaults ((l, x) :: ts) = (if 2 ^ 57 ≤ x.toNat then [lanesFault 2 1 l x] else if x.toNat % 4 ≠ 0 then [lanesFault 4 1 l x] else [])
      ++ codeFaults ts := by
  unfold codeFaults
  rw [List.filterMap_cons]
  by_cases h : 2 ^ 57 ≤ x.toNat
  · simp only [if_pos h]; rfl
  · by_cases h4 : x.toNat % 4 ≠ 0
    · simp only [if_neg h, if_pos h4]; rfl
    · simp only [if_neg h, if_neg h4]; rfl

theorem codeFaults_far (ls : List Nat) (f : Nat → Word) :
    (codeFaults (ls.map (fun l => (l, f l)))).filter (fun e => e.2.cause = 2) = (farLanes ls f).map (fun l => lanesFault 2 1 l (f l)) := by
  induction ls with
  | nil => rfl
  | cons l ls ih =>
    rw [List.map_cons, codeFaults_cons, List.filter_append, ih]
    by_cases h : 2 ^ 57 ≤ (f l).toNat
    · simp [-Nat.reducePow, farLanes, h, lanesFault]
    · by_cases h4 : (f l).toNat % 4 = 0 <;> simp [-Nat.reducePow, farLanes, h, h4, lanesFault]

theorem codeFaults_odd (ls : List Nat) (f : Nat → Word) :
    (codeFaults (ls.map (fun l => (l, f l)))).filter (fun e => e.2.cause = 4) = (oddLanes ls f).map (fun l => lanesFault 4 1 l (f l)) := by
  induction ls with
  | nil => rfl
  | cons l ls ih =>
    rw [List.map_cons, codeFaults_cons, List.filter_append, ih]
    by_cases h : 2 ^ 57 ≤ (f l).toNat
    · simp [-Nat.reducePow, oddLanes, h, Nat.not_lt.2 h, lanesFault]
    · by_cases h4 : (f l).toNat % 4 = 0
      · simp [-Nat.reducePow, oddLanes, h, h4]
      · simp [-Nat.reducePow, oddLanes, h, h4, lanesFault, Nat.lt_of_not_le h]

theorem codeFaults_cause (ts : List (Nat × Word)) : ∀ e ∈ codeFaults ts, e.2.cause = 2 ∨ e.2.cause = 4 := by
  intro e he
  obtain ⟨t, -, ht⟩ := List.mem_filterMap.1 he
  split at ht
  · cases ht; exact Or.inl rfl
  · split at ht
    · cases ht; exact Or.inr rfl
    · cases ht

theorem codeFaults_nil {ls : List Nat} {f : Nat → Word} (h : ∀ l ∈ ls, (f l).toNat < 2 ^ 57 ∧ (f l).toNat % 4 = 0) :
    codeFaults (ls.map (fun l => (l, f l))) = [] := by
  apply List.filterMap_eq_nil_iff.2
  intro t ht
  obtain ⟨l, hl, rfl⟩ := List.mem_map.1 ht
  obtain ⟨h1, h2⟩ := h l hl
  simp [-Nat.reducePow, Nat.not_le.2 h1, h2]

/-- The best cause of a list of faults is one of least rank. -/
theorem bestCause_eq {fs : List (Nat × FaultInfo)} {b k : Nat} (hb : causeRank k ≤ causeRank b)
    (hr : ∀ e ∈ fs, causeRank k ≤ causeRank e.2.cause) (he : causeRank b = causeRank k → b = k)
    (hu : ∀ e ∈ fs, causeRank e.2.cause = causeRank k → e.2.cause = k) (hm : b = k ∨ ∃ e ∈ fs, e.2.cause = k) :
    fs.foldl (fun b e => if causeRank e.2.cause < causeRank b then e.2.cause else b) b = k := by
  induction fs generalizing b with
  | nil => simpa using hm
  | cons e fs ih =>
    have hke := hr e List.mem_cons_self
    have hue := hu e List.mem_cons_self
    rw [List.foldl_cons]
    refine ih ?_ (fun x hx => hr x (List.mem_cons_of_mem _ hx)) ?_ (fun x hx => hu x (List.mem_cons_of_mem _ hx)) ?_
    · split <;> assumption
    · split <;> assumption
    · rcases hm with rfl | ⟨x, hx, hxk⟩
      · exact Or.inl (if_neg (by omega))
      · rcases List.mem_cons.1 hx with rfl | hx
        · split
          · exact Or.inl hxk
          · rename_i hlt
            rw [hxk] at hlt
            exact Or.inl (he (by omega))
        · exact Or.inr ⟨x, hx, hxk⟩

/-- The fault that is picked: the cause of least rank, the lanes that have it, and the first lane's fault where lanes rise (R297). -/
theorem pickFault_eq {fs : List (Nat × FaultInfo)} {k : Nat} {e : Nat × FaultInfo} {es : List (Nat × FaultInfo)}
    (hr : ∀ e ∈ fs, causeRank k ≤ causeRank e.2.cause) (hu : ∀ e ∈ fs, causeRank e.2.cause = causeRank k → e.2.cause = k)
    (hf : fs.filter (fun e => e.2.cause = k) = e :: es) (hl : ∀ x ∈ es, e.1 ≤ x.1) :
    pickFault fs = some { e.2 with lanes := maskOf ((e :: es).map Prod.fst), other := fs.any (fun e => e.2.cause ≠ k) } := by
  have hek : e ∈ fs ∧ e.2.cause = k := by
    have : e ∈ fs.filter (fun e => e.2.cause = k) := by rw [hf]; exact List.mem_cons_self
    simpa using List.mem_filter.1 this
  have hlow : es.foldl (fun a b => if b.1 < a.1 then b else a) e = e := by
    clear hf
    induction es with
    | nil => rfl
    | cons x es ih =>
      rw [List.foldl_cons, if_neg (Nat.not_lt.2 (hl x List.mem_cons_self))]
      exact ih (fun y hy => hl y (List.mem_cons_of_mem _ hy))
  cases fs with
  | nil => cases hek.1
  | cons f rest =>
    have hbest : rest.foldl (fun b e => if causeRank e.2.cause < causeRank b then e.2.cause else b) f.2.cause = k := by
      refine bestCause_eq (hr f List.mem_cons_self) (fun x hx => hr x (List.mem_cons_of_mem _ hx)) (hu f List.mem_cons_self)
        (fun x hx => hu x (List.mem_cons_of_mem _ hx)) ?_
      rcases List.mem_cons.1 hek.1 with h | h
      · exact Or.inl (h ▸ hek.2)
      · exact Or.inr ⟨e, h, hek.2⟩
    simp only [pickFault, hbest, hf, hlow]

/-- The lanes of a mask rise. -/
theorem sorted_lanesOf (m : BitVec 32) : (lanesOf m).Pairwise (· < ·) := List.Pairwise.filter _ List.pairwise_lt_range

/-- The code-address fault that is picked: that of a lane at or above 2^57 where there is one, else of one that is not a multiple of 4
(R179, R297). -/
theorem pickFault_codeFaults (ls : List Nat) (hs : ls.Pairwise (· < ·)) (f : Nat → Word) :
    (farLanes ls f ≠ [] → pickFault (codeFaults (ls.map (fun l => (l, f l)))) = some
      { cause := 2, sub := 1, lanes := maskOf (farLanes ls f), addr := (f ((farLanes ls f).headD 0)).toNat, other := !(oddLanes ls f).isEmpty })
    ∧ (farLanes ls f = [] → oddLanes ls f ≠ [] → pickFault (codeFaults (ls.map (fun l => (l, f l)))) = some
      { cause := 4, sub := 1, lanes := maskOf (oddLanes ls f), addr := (f ((oddLanes ls f).headD 0)).toNat, other := false }) := by
  have hc := codeFaults_cause (ls.map (fun l => (l, f l)))
  constructor
  · intro hne
    obtain ⟨l, ls', hl⟩ := List.exists_cons_of_ne_nil hne
    have hp : (l :: ls').Pairwise (· < ·) := hl ▸ hs.filter _
    have hf := codeFaults_far ls f
    rw [hl, List.map_cons] at hf
    rw [pickFault_eq (k := 2) (by intro e he; rcases hc e he with h | h <;> simp [h, causeRank])
      (by intro e he; rcases hc e he with h | h <;> simp [h, causeRank]) hf
      (by
        intro x hx
        obtain ⟨k, hk, rfl⟩ := List.mem_map.1 hx
        exact Nat.le_of_lt (List.rel_of_pairwise_cons hp hk))]
    have ho : (codeFaults (ls.map (fun l => (l, f l)))).any (fun e => e.2.cause ≠ 2) = !(oddLanes ls f).isEmpty := by
      have := codeFaults_odd ls f
      rw [Bool.eq_iff_iff]
      simp only [List.any_eq_true, Bool.not_eq_true', List.isEmpty_eq_false_iff]
      rw [ne_eq, ← not_congr (List.map_eq_nil_iff (f := fun l => lanesFault 4 1 l (f l))), ← this, List.filter_eq_nil_iff]
      push Not
      refine exists_congr (fun e => and_congr_right (fun he => ?_))
      rcases hc e he with h | h <;> simp [h]
    rw [ho]
    simp [hl, lanesFault, Function.comp_def]
  · intro h0 hne
    obtain ⟨l, ls', hl⟩ := List.exists_cons_of_ne_nil hne
    have hp : (l :: ls').Pairwise (· < ·) := hl ▸ hs.filter _
    have hf := codeFaults_odd ls f
    rw [hl, List.map_cons] at hf
    have h4 : ∀ e ∈ codeFaults (ls.map (fun l => (l, f l))), e.2.cause = 4 := by
      intro e he
      refine (hc e he).resolve_left (fun h2 => ?_)
      have := codeFaults_far ls f
      rw [h0, List.map_nil, List.filter_eq_nil_iff] at this
      exact this e he (by simpa using h2)
    rw [pickFault_eq (k := 4) (by intro e he; simp [h4 e he]) (by intro e he; simp [h4 e he]) hf
      (by
        intro x hx
        obtain ⟨k, hk, rfl⟩ := List.mem_map.1 hx
        exact Nat.le_of_lt (List.rel_of_pairwise_cons hp hk))]
    have ho : (codeFaults (ls.map (fun l => (l, f l)))).any (fun e => e.2.cause ≠ 4) = false := by
      rw [List.any_eq_false]
      intro e he
      simp [h4 e he]
    rw [ho]
    simp [hl, lanesFault, Function.comp_def]

/-- A branch would split a system-mode crew (R26, R179). -/
def State.Strays (s : State) (c : Cur) (m : BitVec 32) (f : Nat → Word) : Prop :=
  (s.cw c).sys = true ∧ (m ≠ 0 ∧ m ≠ c.lanes ∨ ∃ l k, c.lanes.getLsbD l = true ∧ c.lanes.getLsbD k = true ∧ f l ≠ f k)

theorem State.strays_iff (s : State) (c : Cur) (m : BitVec 32) (f : Nat → Word) :
    ((s.cw c).sys && ((m ≠ 0 && m ≠ c.lanes) || decide (((lanesOf c.lanes).map f).eraseDups.length ≥ 2))) = true ↔ s.Strays c m f := by
  unfold State.Strays
  rw [← two_le_lanes_iff]
  simp

section Branch
variable {s : State} {c : Cur} {g : BitVec 3} {xs : List Src} {link : Bool} {kind : Nat} {target : Crew → Nat → Word}

/-- A branch that does not pass its checks (R26, R48, R179, R297). -/
theorem State.branch_faults
    (h : s.Ready c .any false (xs.map srcUse ++ [if link then .v 7 else .none]) (g ≠ 0) (s.act c g) (fun _ => xs)) :
    let f := target (s.cw c)
    let m := s.act c g
    (s.Strays c m f → s.branch c g xs link kind target = s.takeFault c (faultOf 8 0))
    ∧ (¬ s.Strays c m f → s.pairsDiffer c m (fun l => [f l]) = true → s.branch c g xs link kind target = s.mismatch c)
    ∧ (¬ s.Strays c m f → s.pairsDiffer c m (fun l => [f l]) = false →
      ∀ q, pickFault (codeFaults ((lanesOf m).map (fun l => (l, f l)))) = some q → s.branch c g xs link kind target = s.takeFault c q) := by
  intro f m
  unfold State.branch
  rw [State.gate_ready h, State.reads_ready h]
  refine ⟨fun hs => if_pos ((s.strays_iff c m f).2 hs), fun hs hp => ?_, fun hs hp q hq => ?_⟩
  · refine (if_neg (mt (s.strays_iff c m f).1 hs)).trans (if_pos hp)
  · refine (if_neg (mt (s.strays_iff c m f).1 hs)).trans ((if_neg (by rw [hp]; exact Bool.false_ne_true)).trans ?_)
    simp only [m, f] at hq
    simp only [hq]

/-- Where a fibre of the fragment goes. -/
def Cur.goes (c : Cur) (m : BitVec 32) (f : Nat → Word) (l : Nat) : BitVec 57 :=
  if m.getLsbD l then (f l).setWidth 57 else c.nextPc

/-- The retirement of a branch. -/
def branchDone (m : BitVec 32) (f : Nat → Word) : Done := { pcs := (lanesOf m).map (fun l => (l, (f l).setWidth 57)) }

/-- The crew of a branch before the retirement: CALL has written v7 (R179). -/
def State.linked (s : State) (c : Cur) (m : BitVec 32) (link : Bool) : Crew :=
  if link then (s.cw c).writeV 7 ((lanesOf m).map (fun l => (l, (c.pc + 4).setWidth 64))) else s.cw c

/-- A branch that passes its checks retires with its targets, and is traced where a fibre is active. -/
theorem State.branch_goes
    (h : s.Ready c .any false (xs.map srcUse ++ [if link then .v 7 else .none]) (g ≠ 0) (s.act c g) (fun _ => xs)) :
    let f := target (s.cw c)
    let m := s.act c g
    let t := s.setCrew c.core c.slot ((s.linked c m link).retired c (branchDone m f))
    ¬ s.Strays c m f → s.pairsDiffer c m (fun l => [f l]) = false → (∀ l, m.getLsbD l = true → (f l).toNat < 2 ^ 57 ∧ (f l).toNat % 4 = 0) →
      s.branch c g xs link kind target = if m = 0 then t else t.traceOn c kind (f (lowestLane m)).toNat 0 := by
  intro f m t hs hp hc
  have ht : t = State.retire (if link then
      s.modCrew c.core c.slot (fun w => w.writeV 7 ((lanesOf m).map (fun l => (l, (c.pc + 4).setWidth 64)))) else s) c (branchDone m f) := by
    cases link with
    | true =>
      rw [if_pos rfl]
      exact (State.modCrew_modCrew s c.core c.slot _ (fun w => w.retired c (branchDone m f))).symm
    | false => rfl
  unfold State.branch
  rw [State.gate_ready h, State.reads_ready h]
  refine (if_neg (mt (s.strays_iff c m f).1 hs)).trans ((if_neg (by rw [hp]; exact Bool.false_ne_true)).trans ?_)
  have hn : pickFault (codeFaults ((lanesOf m).map (fun l => (l, f l)))) = none := by
    rw [codeFaults_nil (fun l hl => hc l ((mem_lanesOf m l).1 hl))]
    rfl
  simp only [m, f] at hn
  simp only [hn, List.map_map, ht]
  rfl

end Branch

theorem State.linked_eq (s : State) (c : Cur) (m : BitVec 32) (link : Bool) :
    s.linked c m link = { s.cw c with v := (s.linked c m link).v } := by
  unfold State.linked
  cases link with
  | true => exact Crew.writeV_eq _ _ _
  | false => rfl

theorem State.vreg_linked (s : State) (c : Cur) (m : BitVec 32) (link : Bool) (l n : Nat) (hl : l < 32) :
    (s.linked c m link).vreg l n =
      if link = true ∧ m.getLsbD l = true ∧ n = ((s.cw c).fibre l).wbase.toNat + 7 then { val := (c.pc + 4).setWidth 64 } else (s.cw c).vreg l n := by
  unfold State.linked
  cases link with
  | false => simp
  | true =>
    rw [if_pos rfl, Crew.vreg_writeV _ _ _ _ _ hl
      (by
        intro e he
        obtain ⟨a, ha, rfl⟩ := List.mem_map.1 he
        exact List.mem_range.1 (List.mem_of_mem_filter ha))
      (by simpa [List.map_map, Function.comp_def] using nodup_lanesOf m), find_lane]
    simp only [mem_lanesOf]
    by_cases hm : m.getLsbD l = true <;> simp [hm]

theorem Cur.target_branch (c : Cur) (m : BitVec 32) (f : Nat → Word) (l : Nat) :
    c.target (branchDone m f) l = c.goes m f l := by
  unfold Cur.target branchDone Cur.goes
  rw [find_lane (lanesOf m) (fun l => (f l).setWidth 57) l]
  simp only [mem_lanesOf]
  by_cases h : m.getLsbD l = true <;> simp [h, Cur.nextPc]

theorem Cur.splits_branch (c : Cur) (m : BitVec 32) (f : Nat → Word) :
    c.splits (branchDone m f) = true ↔ ∃ l k, c.lanes.getLsbD l = true ∧ c.lanes.getLsbD k = true ∧ c.goes m f l ≠ c.goes m f k := by
  have e : c.target (branchDone m f) = c.goes m f := funext (c.target_branch m f)
  unfold Cur.splits
  rw [e, decide_eq_true_iff, two_le_lanes_iff]

/-- A fibre after a retirement without a latch and without a swap point. -/
theorem Fibre.retired_go (f : Fibre) (c : Cur) (r : Done) (u l : Nat) (hl : r.latch = []) (hs : r.swap = false) (hr : r.restart = false) :
    f.retired c r u l = { f.after c u (c.target r l) with parent := if c.splits r then BitVec.ofNat 5 (lowestLane c.lanes) else f.parent } := by
  simp [Fibre.retired, hl, hs, hr, Fibre.after]

/-- A crew whose vector registers alone have changed, retired with its restart point kept. -/
theorem Crew.retired_of_v {w x : Crew} (hx : x = { w with v := x.v }) (c : Cur) (r : Done) (hr : r.restart = false) :
    x.retired c r = { w with
      fibres := (x.retired c r).fibres, v := (x.retired c r).v, reti := w.reti + popMask c.lanes, wdog := 0, unit := w.unitApart c.lanes
      lastPc := c.pc } := by
  obtain ⟨v, rfl⟩ : ∃ v, x = { w with v := v } := ⟨_, hx⟩
  rw [Crew.retired_eq, Crew.loads_retired _ _ _ hr]
  rfl

/-- What a branch leaves once its checks have passed: the fields, the fibres and the parents of the crew (R24, R179). -/
theorem State.branch_leaves (s : State) (c : Cur) (m : BitVec 32) (link : Bool) (f : Nat → Word) :
    let w := s.cw c
    let w' := (s.linked c m link).retired c (branchDone m f)
    w' = { w with fibres := w'.fibres, v := w'.v, reti := w.reti + popMask c.lanes, wdog := 0, unit := w.unitApart c.lanes, lastPc := c.pc }
    ∧ (∀ l, c.lanes.getLsbD l = false → w'.fibre l = w.fibre l)
    ∧ (∀ l, c.lanes.getLsbD l = true → w'.fibre l = { (w.fibre l).after c w.units (c.goes m f l) with parent := (w'.fibre l).parent })
    ∧ ((∀ l k, c.lanes.getLsbD l = true → c.lanes.getLsbD k = true → c.goes m f l = c.goes m f k) →
        ∀ l, (w'.fibre l).parent = (w.fibre l).parent)
    ∧ ((∃ l k, c.lanes.getLsbD l = true ∧ c.lanes.getLsbD k = true ∧ c.goes m f l ≠ c.goes m f k) →
        ∀ l, c.lanes.getLsbD l = true → (w'.fibre l).parent = BitVec.ofNat 5 (lowestLane c.lanes))
    ∧ ∀ l n, l < 32 → w'.vreg l n =
        if link = true ∧ m.getLsbD l = true ∧ n = (w.fibre l).wbase.toNat + 7 then { val := (c.pc + 4).setWidth 64 } else w.vreg l n := by
  intro w w'
  have hx := s.linked_eq c m link
  have hfib : ∀ l, w'.fibre l = if c.lanes.getLsbD l then
      { (w.fibre l).after c w.units (c.goes m f l) with
        parent := if c.splits (branchDone m f) then BitVec.ofNat 5 (lowestLane c.lanes) else (w.fibre l).parent } else w.fibre l := by
    intro l
    have h1 : (s.linked c m link).fibre l = w.fibre l := by rw [hx]; rfl
    have h2 : (s.linked c m link).units = w.units := by rw [hx]
    rw [Crew.fibre_retired _ _ _ _ rfl, h1, h2, Fibre.retired_go _ _ _ _ _ rfl rfl rfl, c.target_branch]
  refine ⟨?_, fun l hl => ?_, fun l hl => ?_, fun hsame l => ?_, fun hd l hl => ?_, fun l n hl => ?_⟩
  · exact Crew.retired_of_v hx c _ rfl
  · rw [hfib, hl]; rfl
  · rw [hfib, hl]; rfl
  · have : c.splits (branchDone m f) = false := by
      rw [← Bool.not_eq_true, c.splits_branch]
      rintro ⟨i, j, hi, hj, hne⟩
      exact hne (hsame i j hi hj)
    rw [hfib, this]
    split <;> rfl
  · rw [hfib, (c.splits_branch m f).2 hd, hl]; rfl
  · have hv : w'.vreg l n = (s.linked c m link).vreg l n := by
      show Tab.get (Crew.retired _ _ _).v _ _ = _
      rw [Crew.retired_eq]
      rfl
    rw [hv, s.vreg_linked c m link l n hl]

/-- Settles O24: the four branches are one operation, and a branch whose checks pass retires with its targets. -/
theorem branchesTaken : Obligations.BranchesTaken := by
  unfold Obligations.BranchesTaken
  intro rows
  have key : ∀ (i : Instr) (g : BitVec 3) (xs : List Src) (link : Bool) (kind : Nat) (target : Cur → Crew → Nat → Word),
      (∀ s, exec i s = s.run (fun c => s.branch c g xs link kind (target c))) → rows [(i, g, xs, link, kind, target)] := by
    intro i g xs link kind target he p hp s c
    obtain rfl := List.mem_singleton.1 hp
    intro h w m tgt go hc hsys hpair
    refine ⟨_, ((he s).trans (State.run_cur h.1 _)).trans (congrArg _ (State.branch_goes h ?_ hpair hc)),
      s.branch_leaves c m link (target c w)⟩
    rintro ⟨hs, h1 | ⟨l, k, hl, hk, hne⟩⟩
    · rcases (hsys hs).1 with h0 | h0
      · exact h1.1 h0
      · exact h1.2 h0
    · exact hne ((hsys hs).2 l k hl hk)
  have pair : ∀ p q, rows [p] → rows [q] → rows [p, q] := by
    intro p q hp hq r hr
    rcases List.mem_cons.1 hr with rfl | hr
    · exact hp _ List.mem_cons_self
    · exact hq _ hr
  refine ⟨fun o => pair _ _ (key _ _ _ _ _ _ fun s => ?_) (key _ _ _ _ _ _ fun s => ?_),
    fun o => pair _ _ (key _ _ _ _ _ _ fun s => ?_) (key _ _ _ _ _ _ fun s => ?_)⟩
  · simp only [← Cur.rel_eq]; unfold exec; rfl
  · simp only [← Cur.rel_eq]; unfold exec; rfl
  · unfold exec; rfl
  · unfold exec; rfl

/-- Settles O25: the four branches are one operation, whose checks come before any fibre moves. -/
theorem branchFaults : Obligations.BranchFaults := by
  unfold Obligations.BranchFaults
  intro faults
  have key : ∀ (i : Instr) (g : BitVec 3) (xs : List Src) (link : Bool) (kind : Nat) (target : Cur → Crew → Nat → Word),
      (∀ s, exec i s = s.run (fun c => s.branch c g xs link kind (target c))) → faults i g xs link (fun s c => target c (s.cw c)) := by
    intro i g xs link kind target he s c h w m to_ strays far odd
    have hx := (he s).trans (State.run_cur h.1 _)
    obtain ⟨h1, h2, h3⟩ := State.branch_faults (kind := kind) (target := target c) h
    obtain ⟨hf, ho⟩ := pickFault_codeFaults (lanesOf m) (sorted_lanesOf m) to_
    exact ⟨fun hs => hx.trans (congrArg _ (h1 hs)), fun hs hp => hx.trans (congrArg _ (h2 hs hp)),
      fun hs hp => ⟨fun hfar => hx.trans (congrArg _ (h3 hs hp _ (hf hfar))),
        fun hfar hodd => hx.trans (congrArg _ (h3 hs hp _ (ho hfar hodd)))⟩⟩
  refine ⟨fun o i hi => ?_, fun o => ⟨key _ _ _ _ 7 (fun c _ _ => _) fun s => ?_, key _ _ _ _ 8 (fun c _ _ => _) fun s => ?_⟩⟩
  · simp only [List.mem_cons, List.not_mem_nil, or_false] at hi
    rcases hi with rfl | rfl
    · exact key _ _ _ _ 7 (fun _ w l => w.val l o.a + w.val l o.b) (fun s => by unfold exec; rfl)
    · exact key _ _ _ _ 9 (fun _ w l => w.val l o.a + w.val l o.b) (fun s => by unfold exec; rfl)
  · simp only [← Cur.rel_eq]; unfold exec; rfl
  · simp only [← Cur.rel_eq]; unfold exec; rfl

end Sys2Proof.Machine
end

/-! FEND (R16, R20, R25, R181, R402): what lanes leave behind that exit. -/

section
namespace Sys2Proof.Machine

/-- A fibre with retirements of others added to its own (R402). -/
def Fibre.richer (f : Fibre) (n : Nat) : Fibre := { f with since := f.since + n, life := f.life + n }

@[simp] theorem Fibre.richer_zero (f : Fibre) : f.richer 0 = f := rfl

theorem Fibre.richer_richer (f : Fibre) (a b : Nat) : (f.richer a).richer b = f.richer (a + b) := by
  simp [Fibre.richer, Nat.add_assoc]

@[simp] theorem Fibre.richer_st (f : Fibre) (n : Nat) : (f.richer n).st = f.st := rfl
@[simp] theorem Fibre.richer_spawner (f : Fibre) (n : Nat) : (f.richer n).spawner = f.spawner := rfl

@[simp] theorem Fibre.settled_st (f : Fibre) (m : BitVec 32) : (f.settled m).st = f.st := by
  unfold Fibre.settled
  split
  · split <;> rfl
  · rfl

/-- The retirements that a lane gains when the lanes of a mask exit (R402). -/
def Crew.gain (w : Crew) (m : BitVec 32) (l : Nat) : Nat :=
  (((lanesOf m).filter (fun k => w.ancestor m 32 k = some l)).map (fun k => (w.fibre k).life)).sum

/-- One lane's retirements added to those of the fibre that a rewind would end it with. -/
def Crew.creditOne (w : Crew) (m : BitVec 32) (x : Crew) (l : Nat) : Crew :=
  match w.ancestor m 32 l with
  | some p => x.modFibre p (fun f => f.richer (w.fibre l).life)
  | none => x

theorem Crew.credit_foldl (w : Crew) (m : BitVec 32) : w.credit m = (lanesOf m).foldl (w.creditOne m) w := rfl

theorem Crew.creditOne_eq (w : Crew) (m : BitVec 32) (x : Crew) (l : Nat) :
    w.creditOne m x l = { x with fibres := (w.creditOne m x l).fibres } := by
  unfold Crew.creditOne
  split <;> rfl

theorem Crew.fibre_creditOne (w : Crew) (m : BitVec 32) (x : Crew) (l n : Nat) :
    (w.creditOne m x l).fibre n = (x.fibre n).richer (if w.ancestor m 32 l = some n then (w.fibre l).life else 0) := by
  unfold Crew.creditOne
  split
  · rename_i p hp
    rw [Crew.fibre_modFibre, hp]
    by_cases h : n = p
    · subst h; simp
    · simp [h, Ne.symm h]
  · rename_i hp
    simp [hp]

/-- Crediting changes the counts of retirements of the fibres and nothing else of a crew. -/
theorem Crew.credit_eq (w : Crew) (m : BitVec 32) : w.credit m = { w with fibres := (w.credit m).fibres } := by
  rw [Crew.credit_foldl]
  suffices h : ∀ (ls : List Nat) (x : Crew), ls.foldl (w.creditOne m) x = { x with fibres := (ls.foldl (w.creditOne m) x).fibres } from h _ _
  intro ls
  induction ls with
  | nil => exact fun _ => rfl
  | cons l ls ih => intro x; rw [List.foldl_cons, ih, Crew.creditOne_eq]

theorem Crew.fibre_credit (w : Crew) (m : BitVec 32) (n : Nat) : (w.credit m).fibre n = (w.fibre n).richer (w.gain m n) := by
  rw [Crew.credit_foldl]
  suffices h : ∀ (ls : List Nat) (x : Crew), (ls.foldl (w.creditOne m) x).fibre n
      = (x.fibre n).richer ((ls.filter (fun k => w.ancestor m 32 k = some n)).map (fun k => (w.fibre k).life)).sum from h _ _
  intro ls
  induction ls with
  | nil => exact fun _ => rfl
  | cons l ls ih =>
    intro x
    rw [List.foldl_cons, ih, Crew.fibre_creditOne, Fibre.richer_richer]
    by_cases hl : w.ancestor m 32 l = some n <;> simp [hl]

/-- A fibre that has exited (R16). -/
def Fibre.gone (f : Fibre) : Fibre := { f.noLatch with st := .exited, wait := .none, pfx := {}, rep := 0, spawner := none }

/-- A crew after lanes have exited, apart from what the rest of the machine keeps of them (R16, R20, R25). -/
def Crew.without (w : Crew) (m : BitVec 32) : Crew :=
  { ((w.credit m).modLanes m (fun _ f => f.gone)).settle m with
    sync := match (w.credit m).sync with
      | some y => some { y with mask := y.mask &&& ~~~m }
      | none => none
    unit := match (w.credit m).unit with
      | some u => if u.lanes &&& ~~~m = 0 then none else some { u with lanes := u.lanes &&& ~~~m }
      | none => none
    loads := (w.credit m).loads.map (fun p => p.passed m) }

theorem Crew.fibre_settle (w : Crew) (m : BitVec 32) (l : Nat) : (w.settle m).fibre l = (w.fibre l).settled m := by
  unfold Crew.fibre Crew.settle
  exact Tab.get_mapVals _ _ _ rfl l

theorem Crew.fibre_without (w : Crew) (m : BitVec 32) (l : Nat) :
    (w.without m).fibre l = (if m.getLsbD l then ((w.fibre l).richer (w.gain m l)).gone else (w.fibre l).richer (w.gain m l)).settled m := by
  show (((w.credit m).modLanes m (fun _ f => f.gone)).settle m).fibre l = _
  rw [Crew.fibre_settle, Crew.fibre_modLanes, Crew.fibre_credit]

/-- The exit of lanes changes of a crew its fibres, its pending SYNCM, its unit and its loads. -/
theorem Crew.without_eq (w : Crew) (m : BitVec 32) :
    w.without m = { w with fibres := (w.without m).fibres, sync := (w.without m).sync, unit := (w.without m).unit, loads := (w.without m).loads } := by
  unfold Crew.without Crew.settle
  rw [Crew.modLanes_eq, Crew.credit_eq]

/-- The traps and special-function entries of exiting lanes (R374, R161). -/
def State.forgetLanes (s : State) (core sl : Nat) (m : BitVec 32) : State :=
  if (s.core core).traps.any (fun t => t.slot = sl) || (s.core core).sfu.any (fun q => q.slot = sl) then
    s.modCore core (fun k => { k with
      traps := (mapIf (fun t : TrapReq => t.slot = sl) (fun t => { t with lanes := t.lanes &&& ~~~m }) k.traps).filter (fun t => t.lanes ≠ 0)
      sfu := mapIf (fun q : SfuOp => q.slot = sl) (fun q => { q with lanes := q.lanes &&& ~~~m }) k.sfu })
  else s

/-- The participation sets that exiting lanes of a crew leave (R32). -/
def State.unsetLanes (s : State) (w : Crew) (sl : Nat) (m : BitVec 32) : State :=
  if sl < 32 then
    s.modGroup w.group (fun g => { g with cvs := Tab.mapVals {} (fun r : CvReg =>
      if r.owned && r.owner = w.no then { r with set := r.set &&& ~~~m, signed_ := r.signed_ &&& ~~~m } else r) g.cvs })
  else s

theorem State.exitLanes_eq (s : State) (core sl : Nat) (m : BitVec 32) :
    s.exitLanes core sl m
      = ((s.setCrew core sl ((s.crew core sl).without m)).forgetLanes core sl m).unsetLanes ((s.crew core sl).credit m) sl m := rfl

theorem State.crew?_forgetLanes (s : State) (core sl : Nat) (m : BitVec 32) (n t : Nat) :
    (s.forgetLanes core sl m).crew? n t = s.crew? n t := by
  unfold State.forgetLanes
  split
  · rw [State.crew?_modCore rfl]
  · rfl

theorem State.crew?_unsetLanes (s : State) (w : Crew) (sl : Nat) (m : BitVec 32) (n t : Nat) :
    (s.unsetLanes w sl m).crew? n t = s.crew? n t := by
  unfold State.unsetLanes
  split <;> rfl

/-- When lanes exit, one crew changes. -/
theorem State.crew?_exitLanes (s : State) (core sl : Nat) (m : BitVec 32) (n t : Nat) :
    (s.exitLanes core sl m).crew? n t = if n = core ∧ t = sl then some ((s.crew core sl).without m) else s.crew? n t := by
  rw [State.exitLanes_eq, State.crew?_unsetLanes, State.crew?_forgetLanes, State.crew?_setCrew]

theorem State.crew_exitLanes (s : State) (core sl : Nat) (m : BitVec 32) :
    (s.exitLanes core sl m).crew core sl = (s.crew core sl).without m := by
  simp [State.crew, State.crew?_exitLanes]

/-- A crew with a live fibre does not end. -/
theorem State.reapCrew_live {s : State} {core sl : Nat} (h : (s.crew core sl).liveMask ≠ 0) : s.reapCrew core sl = s := by
  unfold State.crew at h
  unfold State.reapCrew
  split
  · rfl
  · rename_i w hw
    rw [hw] at h
    exact if_neg h

/-- A crew that is no handler ends with its last live fibre (R16). -/
theorem State.reapCrew_last {s : State} {core sl : Nat} {w : Crew} (hw : s.crew? core sl = some w) (h : w.liveMask = 0) (hs : sl ≠ 32) :
    s.reapCrew core sl = s.endCrew core sl := by
  simp [State.reapCrew, hw, h, hs]

/-- The nearest spawner depends on the spawners alone. -/
theorem Crew.ancestor_congr {w x : Crew} (h : ∀ l, (x.fibre l).spawner = (w.fibre l).spawner) (m : BitVec 32) (n l : Nat) :
    x.ancestor m n l = w.ancestor m n l := by
  induction n generalizing l with
  | zero => rfl
  | succ n ih =>
    unfold Crew.ancestor
    rw [h l]
    split
    · rfl
    · rw [ih]

/-- A fibre of the fragment after a plain retirement. -/
theorem Crew.fibre_retired_bare (w : Crew) (c : Cur) (l : Nat) :
    (w.retired c {}).fibre l = if c.lanes.getLsbD l then (w.fibre l).after c w.units c.nextPc else w.fibre l := by
  rw [Crew.fibre_retired _ _ _ _ rfl, Fibre.retired_plain _ _ _ _ _ rfl rfl]
  rfl

/-- The retirements gained after the exiting lanes, all of the fragment, have retired one more instruction. -/
theorem Crew.gain_retired (w : Crew) (c : Cur) {m : BitVec 32} (hm : ∀ l, m.getLsbD l = true → c.lanes.getLsbD l = true) (l : Nat) :
    (w.retired c {}).gain m l = (((lanesOf m).filter (fun k => w.ancestor m 32 k = some l)).map (fun k => (w.fibre k).life + 1)).sum := by
  have ha : ∀ k, (w.retired c {}).ancestor m 32 k = w.ancestor m 32 k := by
    refine fun k => Crew.ancestor_congr (fun n => ?_) m 32 k
    rw [Crew.fibre_retired_bare]
    split <;> rfl
  unfold Crew.gain
  simp only [ha]
  congr 1
  refine List.map_congr_left (fun k hk => ?_)
  rw [Crew.fibre_retired_bare, if_pos (hm k ((mem_lanesOf m k).1 (List.mem_filter.1 hk).1))]
  rfl

theorem Crew.active_sub (w : Crew) (m : BitVec 32) (g : BitVec 3) (l : Nat) (h : (w.active m g).getLsbD l = true) : m.getLsbD l = true := by
  unfold Crew.active at h
  rw [BitVec.getLsbD_and, Bool.and_eq_true] at h
  exact h.1

/-- The lanes that FEND ends: the active ones, in tandem mode by pairs (R47, R181). -/
def State.ending (s : State) (c : Cur) (g : BitVec 3) : BitVec 32 :=
  if (s.cw c).tandem then (s.cw c).physMask ((s.cw c).visMask (s.act c g)) &&& c.lanes else s.act c g

theorem State.ending_sub (s : State) (c : Cur) (g : BitVec 3) (l : Nat) (h : (s.ending c g).getLsbD l = true) : c.lanes.getLsbD l = true := by
  unfold State.ending at h
  split at h
  · rw [BitVec.getLsbD_and, Bool.and_eq_true] at h
    exact h.2
  · exact Crew.active_sub _ _ _ _ h

/-- FEND: the retirement, the exit of the lanes, and the end of the crew with its last fibre (R16, R181). -/
theorem fend_leaves (o : OpG) (s : State) (c : Cur) (h : s.Ready c .any false [] (o.g ≠ 0) (s.act c o.g) (fun _ => [])) :
    let w := s.cw c
    let m := s.ending c o.g
    let u := (s.retire c {}).exitLanes c.core c.slot m
    exec (.fend o) s = .next (u.reapCrew c.core c.slot) ∧ u.crew c.core c.slot = (w.retired c {}).without m := by
  intro w m u
  constructor
  · refine (State.run_cur h.1 _).trans ?_
    rw [State.gate_ready h, State.reads_ready h]
    rfl
  · exact (State.crew_exitLanes _ _ _ _).trans (congrArg (fun x => Crew.without x m) (State.crew_modCrew_same _ _ _ _))

/-- The first part of O26: FEND. -/
theorem fend_spec (o : OpG) (s : State) (c : Cur) (h : s.Ready c .any false [] (o.g ≠ 0) (s.act c o.g) (fun _ => [])) :
    let w := s.cw c
    let m := if w.tandem then w.physMask (w.visMask (s.act c o.g)) &&& c.lanes else s.act c o.g
    let gain (l : Nat) : Nat := (((lanesOf m).filter (fun k => w.ancestor m 32 k = some l)).map (fun k => (w.fibre k).life + 1)).sum
    let richer (l : Nat) (f : Fibre) : Fibre := { f with since := f.since + gain l, life := f.life + gain l }
    ∃ u : State, exec (.fend o) s = .next (u.reapCrew c.core c.slot)
      ∧ (∀ l, m.getLsbD l = true → ((u.crew c.core c.slot).fibre l).st = .exited)
      ∧ (∀ l, m.getLsbD l = false → c.lanes.getLsbD l = true →
          (u.crew c.core c.slot).fibre l = (richer l ((w.fibre l).after c w.units c.nextPc)).settled m)
      ∧ (∀ l, m.getLsbD l = false → c.lanes.getLsbD l = false → (u.crew c.core c.slot).fibre l = (richer l (w.fibre l)).settled m)
      ∧ (u.crew c.core c.slot).v = w.v ∧ (u.crew c.core c.slot).s = w.s
      ∧ ((u.crew c.core c.slot).liveMask ≠ 0 → u.reapCrew c.core c.slot = u)
      ∧ ((u.crew c.core c.slot).liveMask = 0 → c.slot ≠ 32 → u.reapCrew c.core c.slot = u.endCrew c.core c.slot) := by
  intro w m gain richer
  obtain ⟨he, hu⟩ := fend_leaves o s c h
  change ((s.retire c {}).exitLanes c.core c.slot m).crew c.core c.slot = (w.retired c {}).without m at hu
  have hg : ∀ l, (w.retired c {}).gain m l = gain l := w.gain_retired c (s.ending_sub c o.g)
  refine ⟨(s.retire c {}).exitLanes c.core c.slot m, he, ?_, ?_, ?_, ?_, ?_, State.reapCrew_live, fun hl hs => State.reapCrew_last (w := (w.retired c {}).without m) ?_ ?_ hs⟩
  · intro l hl
    rw [hu, Crew.fibre_without, if_pos hl]
    simp [Fibre.gone]
  · intro l hm hl
    rw [hu, Crew.fibre_without, if_neg (by rw [hm]; exact Bool.false_ne_true), Crew.fibre_retired_bare,
      if_pos hl]
    exact congrArg (fun n => (Fibre.richer _ n).settled m) (hg l)
  · intro l hm hl
    rw [hu, Crew.fibre_without, if_neg (by rw [hm]; exact Bool.false_ne_true), Crew.fibre_retired_bare,
      if_neg (by rw [hl]; exact Bool.false_ne_true)]
    exact congrArg (fun n => (Fibre.richer _ n).settled m) (hg l)
  · rw [hu, Crew.without_eq, Crew.retired_eq]
  · rw [hu, Crew.without_eq, Crew.retired_eq]
  · rw [State.crew?_exitLanes, if_pos ⟨rfl, rfl⟩]
    exact congrArg (fun x => some (Crew.without x m)) (State.crew_modCrew_same _ _ _ _)
  · rwa [hu] at hl

end Sys2Proof.Machine
end

/-! FSPAWN (R19, R47, R180): which requests succeed, the fibres they make, and the mask that is given. -/

section
namespace Sys2Proof.Machine

theorem getLsbD_bit (i j : Nat) : (BitVec.ofNat 32 (2 ^ i)).getLsbD j = decide (i = j ∧ j < 32) := by
  rw [BitVec.getLsbD_ofNat, Nat.testBit_two_pow]
  by_cases h : i = j <;> by_cases hj : j < 32 <;> simp [h, hj]

/-- The bits of a mask of lanes. -/
theorem getLsbD_maskOf (ls : List Nat) (i : Nat) : (maskOf ls).getLsbD i = decide (i ∈ ls ∧ i < 32) := by
  suffices h : ∀ (ls : List Nat) (m : BitVec 32),
      (ls.foldl (fun m l => m ||| BitVec.ofNat 32 (2 ^ l)) m).getLsbD i = (m.getLsbD i || decide (i ∈ ls ∧ i < 32)) by
    exact (h ls 0).trans (by simp)
  intro ls
  induction ls with
  | nil => simp
  | cons l ls ih =>
    intro m
    rw [List.foldl_cons, ih, BitVec.getLsbD_or, getLsbD_bit]
    by_cases h : l = i <;> by_cases hi : i < 32 <;> simp [h, hi, eq_comm (a := i)]

/-- The sum of the powers of distinct lanes is their mask. -/
theorem sum_bits_eq_maskOf (ls : List Nat) (hd : ls.Nodup) (hl : ∀ l ∈ ls, l < 32) :
    BitVec.ofNat 64 (ls.foldl (fun a l => a + 2 ^ l) 0) = (maskOf ls).setWidth 64 := by
  induction ls using List.reverseRecOn with
  | nil => rfl
  | append_singleton ls l ih =>
    obtain ⟨hd, -, hnot⟩ := List.nodup_append.1 hd
    have hl32 : l < 32 := hl l (by simp)
    have ih := ih hd (fun x hx => hl x (by simp [hx]))
    have hz : (maskOf ls).setWidth 64 &&& BitVec.ofNat 64 (2 ^ l) = 0#64 := by
      apply BitVec.eq_of_getLsbD_eq
      intro i _
      simp only [BitVec.getLsbD_and, BitVec.getLsbD_setWidth, getLsbD_maskOf, BitVec.getLsbD_ofNat, Nat.testBit_two_pow]
      by_cases h : l = i
      · subst h
        have : l ∉ ls := fun hx => hnot l hx l (by simp) rfl
        simp [this]
      · simp [h]
    rw [List.foldl_concat, BitVec.ofNat_add, ih, BitVec.add_eq_or_of_and_eq_zero _ _ hz]
    apply BitVec.eq_of_getLsbD_eq
    intro i hi
    simp only [BitVec.getLsbD_or, BitVec.getLsbD_setWidth, getLsbD_maskOf, BitVec.getLsbD_ofNat, Nat.testBit_two_pow]
    by_cases h : l = i
    · subst h; simp [hi, hl32]
    · simp [h, eq_comm (a := i)]

/-- Whether a slot, in visible numbers, is free for a new fibre (R180). -/
def Crew.slotFree (w : Crew) (t : Nat) : Bool :=
  !(w.sys || decide (w.nl ≤ t) || (w.fibre (if w.tandem then 2 * t else t)).live)

/-- One request of an FSPAWN. -/
def Crew.request (w : Crew) (slot : Nat → Nat) (acc : List (Nat × Nat)) (l : Nat) : List (Nat × Nat) :=
  if w.slotFree (slot l) && !acc.any (fun e => e.2 = slot l) then acc ++ [(l, slot l)] else acc

theorem Crew.spawns_foldl (w : Crew) (ls : List Nat) (slot : Nat → Nat) : w.spawns ls slot = ls.foldl (w.request slot) [] := by
  unfold Crew.spawns
  congr 1
  funext acc l
  unfold Crew.request Crew.slotFree
  dsimp only
  generalize (w.sys || decide (w.nl ≤ slot l) || (w.fibre (if w.tandem = true then 2 * slot l else slot l)).live) = x
  cases x <;> cases acc.any (fun e => decide (e.2 = slot l)) <;> rfl

theorem Crew.mem_request (w : Crew) (slot : Nat → Nat) (acc : List (Nat × Nat)) (a l t : Nat) :
    (l, t) ∈ w.request slot acc a ↔ (l, t) ∈ acc
      ∨ w.slotFree (slot a) = true ∧ ¬ acc.any (fun e => e.2 = slot a) = true ∧ l = a ∧ t = slot a := by
  unfold Crew.request
  cases w.slotFree (slot a) <;> cases acc.any (fun e => e.2 = slot a) <;> simp

theorem Crew.spawns_concat (w : Crew) (ls : List Nat) (slot : Nat → Nat) (l : Nat) :
    w.spawns (ls ++ [l]) slot = w.request slot (w.spawns ls slot) l := by
  rw [Crew.spawns_foldl, Crew.spawns_foldl, List.foldl_concat]

/-- Where a free slot is asked for, some request of it succeeds. -/
theorem Crew.spawns_serve (w : Crew) (ls : List Nat) (slot : Nat → Nat) (k : Nat) (hk : k ∈ ls) (hf : w.slotFree (slot k) = true) :
    ∃ e ∈ w.spawns ls slot, e.2 = slot k := by
  induction ls using List.reverseRecOn with
  | nil => cases hk
  | append_singleton ls l ih =>
    rw [Crew.spawns_concat]
    unfold Crew.request
    split
    · rcases List.mem_append.1 hk with hk | hk
      · obtain ⟨e, he, h⟩ := ih hk
        exact ⟨e, List.mem_append_left _ he, h⟩
      · obtain rfl := List.mem_singleton.1 hk
        exact ⟨_, List.mem_append_right _ (List.mem_singleton.2 rfl), rfl⟩
    · rename_i hn
      rcases List.mem_append.1 hk with hk | hk
      · exact ih hk
      · obtain rfl := List.mem_singleton.1 hk
        simpa [hf] using hn

/-- The requests that succeed: the first for each free slot (R180). -/
theorem Crew.mem_spawns (w : Crew) (ls : List Nat) (slot : Nat → Nat) (hs : ls.Pairwise (· < ·)) (l t : Nat) :
    (l, t) ∈ w.spawns ls slot ↔ l ∈ ls ∧ t = slot l ∧ w.slotFree (slot l) = true ∧ ∀ k ∈ ls, k < l → slot k ≠ slot l := by
  induction ls using List.reverseRecOn generalizing l t with
  | nil => simp [Crew.spawns]
  | append_singleton ls a ih =>
    obtain ⟨hs', -, hlt⟩ := List.pairwise_append.1 hs
    have hlt : ∀ k ∈ ls, k < a := fun k hk => hlt k hk a (List.mem_singleton.2 rfl)
    have ih := ih hs'
    have hserved : w.slotFree (slot a) = true → ((w.spawns ls slot).any (fun e => e.2 = slot a) = true ↔ ∃ k ∈ ls, slot k = slot a) := by
      intro hf
      rw [List.any_eq_true]
      constructor
      · rintro ⟨⟨k, t⟩, he, ht⟩
        obtain ⟨hk, rfl, -⟩ := (ih k t).1 he
        exact ⟨k, hk, by simpa using ht⟩
      · rintro ⟨k, hk, h⟩
        obtain ⟨e, he, ht⟩ := w.spawns_serve ls slot k hk (h ▸ hf)
        exact ⟨e, he, by simp [ht, h]⟩
    rw [Crew.spawns_concat, Crew.mem_request, ih]
    by_cases hla : l = a
    · subst hla
      have hno : l ∉ ls := fun h => Nat.lt_irrefl _ (hlt l h)
      constructor
      · rintro (⟨h, -⟩ | ⟨hf, hn, -, rfl⟩)
        · exact absurd h hno
        · refine ⟨by simp, rfl, hf, fun k hk hkl hs => ?_⟩
          rcases List.mem_append.1 hk with hk | hk
          · exact hn ((hserved hf).2 ⟨k, hk, hs⟩)
          · exact Nat.lt_irrefl _ (List.mem_singleton.1 hk ▸ hkl)
      · rintro ⟨-, rfl, hf, hfirst⟩
        refine Or.inr ⟨hf, fun h => ?_, rfl, rfl⟩
        obtain ⟨k, hk, hs⟩ := (hserved hf).1 h
        exact hfirst k (List.mem_append_left _ hk) (hlt k hk) hs
    · constructor
      · rintro (⟨h, ht, hf, hfirst⟩ | ⟨-, -, h, -⟩)
        · refine ⟨List.mem_append_left _ h, ht, hf, fun k hk hkl => ?_⟩
          rcases List.mem_append.1 hk with hk | hk
          · exact hfirst k hk hkl
          · have := hlt l h
            rw [List.mem_singleton.1 hk] at hkl
            omega
        · exact absurd h hla
      · rintro ⟨h, ht, hf, hfirst⟩
        rcases List.mem_append.1 h with h | h
        · exact Or.inl ⟨h, ht, hf, fun k hk => hfirst k (List.mem_append_left _ hk)⟩
        · exact absurd (List.mem_singleton.1 h) hla

/-- The requests that succeed are in the order of their lanes, and no two are for one slot. -/
theorem Crew.spawns_lanes (w : Crew) (ls : List Nat) (slot : Nat → Nat) : ((w.spawns ls slot).map Prod.fst).Sublist ls := by
  induction ls using List.reverseRecOn with
  | nil => exact List.Sublist.slnil
  | append_singleton ls a ih =>
    rw [Crew.spawns_concat]
    unfold Crew.request
    split
    · rw [List.map_append]
      exact ih.append (List.Sublist.refl _)
    · exact ih.trans (List.sublist_append_left _ _)

theorem Crew.spawns_slots (w : Crew) (ls : List Nat) (slot : Nat → Nat) : ((w.spawns ls slot).map Prod.snd).Nodup := by
  induction ls using List.reverseRecOn with
  | nil => exact List.nodup_nil
  | append_singleton ls a ih =>
    rw [Crew.spawns_concat]
    unfold Crew.request
    split
    · rename_i h
      rw [List.map_append]
      refine List.nodup_append.2 ⟨ih, List.nodup_singleton _, ?_⟩
      rintro x hx y hy rfl
      obtain ⟨e, he, rfl⟩ := List.mem_map.1 hx
      have hno : (w.spawns ls slot).any (fun e => e.2 = slot a) = false := by
        simpa only [Bool.and_eq_true, Bool.not_eq_true'] using (Bool.and_eq_true _ _ ▸ h : _ ∧ (!_) = true).2
      exact absurd (List.any_eq_false.1 hno e he) (by simpa using hy)
    · exact ih

/-- The slots and spawners of the fibres of one request: one fibre, in tandem mode a pair (R47). -/
def births (tandem : Bool) (e : Nat × Nat) : List (Nat × Nat) :=
  if tandem then [(2 * e.2, e.1), (2 * e.2 + 1, e.1 + 1)] else [(e.2, e.1)]

/-- A fibre made in a slot by a request with a PC in `a` and a window in `b` (R19, R180). -/
def Crew.born (w : Crew) (c : Cur) (a b : Src) (lane : Nat) (x : Nat × Nat) : Fibre :=
  (w.fibre x.1).spawned ((w.val lane a).setWidth 57) ((w.val lane b).extractLsb' 5 6) (lowestLane c.lanes) x.2 w.units

/-- The fibres of one request of an FSPAWN (R180). -/
def Crew.bear (c : Cur) (a b : Src) (w : Crew) (e : Nat × Nat) : Crew :=
  let kid (x : Crew) (p by_ : Nat) : Crew :=
    x.modFibre p (fun f => f.spawned ((w.val e.1 a).setWidth 57) ((w.val e.1 b).extractLsb' 5 6) (lowestLane c.lanes) by_ x.units)
  if w.tandem then kid (kid w (2 * e.2) e.1) (2 * e.2 + 1) (e.1 + 1) else kid w e.2 e.1

theorem Crew.bear_eq (c : Cur) (a b : Src) (w : Crew) (e : Nat × Nat) : w.bear c a b e = { w with fibres := (w.bear c a b e).fibres } := by
  unfold Crew.bear
  simp only
  split <;> rfl

theorem Crew.fibre_bear_other {c : Cur} {a b : Src} {w : Crew} {e : Nat × Nat} {n : Nat} (h : ∀ x ∈ births w.tandem e, x.1 ≠ n) :
    (w.bear c a b e).fibre n = w.fibre n := by
  unfold Crew.bear births at *
  cases ht : w.tandem
  · simp only [ht, Bool.false_eq_true, if_false, List.mem_singleton, forall_eq] at h ⊢
    rw [Crew.fibre_modFibre, if_neg (Ne.symm h)]
  · simp only [ht, if_true, List.mem_cons, List.not_mem_nil, or_false, forall_eq_or_imp, forall_eq] at h ⊢
    rw [Crew.fibre_modFibre, if_neg (Ne.symm h.2), Crew.fibre_modFibre, if_neg (Ne.symm h.1)]

theorem Crew.fibre_bear {c : Cur} {a b : Src} {w : Crew} {e x : Nat × Nat} (h : x ∈ births w.tandem e) :
    (w.bear c a b e).fibre x.1 = w.born c a b e.1 x := by
  unfold Crew.bear births at *
  cases ht : w.tandem
  · simp only [ht, Bool.false_eq_true, if_false, List.mem_singleton] at h ⊢
    subst h
    rw [Crew.fibre_modFibre, if_pos rfl]
    rfl
  · simp only [ht, if_true, List.mem_cons, List.not_mem_nil, or_false] at h ⊢
    rcases h with rfl | rfl
    · rw [Crew.fibre_modFibre, if_neg (by simp), Crew.fibre_modFibre, if_pos rfl]
      rfl
    · rw [Crew.fibre_modFibre, if_pos rfl, Crew.fibre_modFibre, if_neg (by simp)]
      rfl

theorem births_disjoint {td : Bool} {e f x y : Nat × Nat} (h : e.2 ≠ f.2) (hx : x ∈ births td e) (hy : y ∈ births td f) : x.1 ≠ y.1 := by
  unfold births at hx hy
  cases td
  · simp only [Bool.false_eq_true, if_false, List.mem_singleton] at hx hy
    subst hx hy
    exact h
  · simp only [if_true, List.mem_cons, List.not_mem_nil, or_false] at hx hy
    rcases hx with rfl | rfl <;> rcases hy with rfl | rfl <;> simp only <;> omega

/-- What a lane reads depends on its fibre, and on what the crew's fibres do not hold. -/
theorem Crew.val_fibres {w : Crew} {t : Tab Fibre} {l : Nat} (h : ({ w with fibres := t } : Crew).fibre l = w.fibre l) (x : Src) :
    ({ w with fibres := t } : Crew).val l x = w.val l x := by
  unfold Crew.val Crew.rd
  cases x <;> simp only [h] <;> rfl

/-- Two changes of a crew's fibres are one. -/
theorem Crew.fibres_trans {w x y : Crew} (hx : x = { w with fibres := x.fibres }) (hy : y = { x with fibres := y.fibres }) :
    y = { w with fibres := y.fibres } := by
  obtain ⟨t, rfl⟩ : ∃ t, x = { w with fibres := t } := ⟨_, hx⟩
  exact hy

/-- What the requests of an FSPAWN make, each for a slot of its own and from a lane whose fibre is not made: the fibres, and nothing else of
the crew. -/
theorem Crew.bear_all (c : Cur) (a b : Src) (ok : List (Nat × Nat)) (w : Crew) (hd : (ok.map Prod.snd).Nodup)
    (hsrc : ∀ e ∈ ok, ∀ f ∈ ok, ∀ x ∈ births w.tandem f, x.1 ≠ e.1) :
    let w' := ok.foldl (Crew.bear c a b) w
    w' = { w with fibres := w'.fibres }
    ∧ (∀ n, (∀ e ∈ ok, ∀ x ∈ births w.tandem e, x.1 ≠ n) → w'.fibre n = w.fibre n)
    ∧ ∀ e ∈ ok, ∀ x ∈ births w.tandem e, w'.fibre x.1 = w.born c a b e.1 x := by
  induction ok generalizing w with
  | nil => exact ⟨rfl, fun _ _ => rfl, by simp⟩
  | cons e ok ih =>
    intro w'
    obtain ⟨hne, hd⟩ := List.nodup_cons.1 hd
    have heq := Crew.bear_eq c a b w e
    have htd : (w.bear c a b e).tandem = w.tandem := by rw [heq]
    obtain ⟨h1, h2, h3⟩ := ih (w.bear c a b e) hd
      (fun f hf g hg x hx => hsrc f (List.mem_cons_of_mem _ hf) g (List.mem_cons_of_mem _ hg) x (htd ▸ hx))
    rw [htd] at h2 h3
    have hne' : ∀ f ∈ ok, e.2 ≠ f.2 := fun f hf h => hne (List.mem_map.2 ⟨f, hf, h.symm⟩)
    refine ⟨?_, fun n hn => ?_, fun f hf x hx => ?_⟩
    · exact Crew.fibres_trans heq h1
    · show (ok.foldl (Crew.bear c a b) (w.bear c a b e)).fibre n = _
      rw [h2 n (fun f hf => hn f (List.mem_cons_of_mem _ hf)), Crew.fibre_bear_other (hn e List.mem_cons_self)]
    · show (ok.foldl (Crew.bear c a b) (w.bear c a b e)).fibre x.1 = _
      rcases List.mem_cons.1 hf with rfl | hf
      · rw [h2 x.1 (fun g hg y hy => (births_disjoint (hne' g hg) hx hy).symm), Crew.fibre_bear hx]
      · have hval : ∀ y, (w.bear c a b e).val f.1 y = w.val f.1 y := by
          have hfib : (w.bear c a b e).fibre f.1 = w.fibre f.1 :=
            Crew.fibre_bear_other (hsrc f (List.mem_cons_of_mem _ hf) e List.mem_cons_self)
          intro y
          rw [heq] at hfib ⊢
          exact Crew.val_fibres hfib y
        rw [h3 f hf x hx]
        unfold Crew.born
        rw [hval, hval, Crew.fibre_bear_other (fun y hy => births_disjoint (hne' f hf) hy hx)]
        congr 1
        rw [heq]

end Sys2Proof.Machine
end

/-! FSPAWN as an instruction, and the statement of FEND and FSPAWN (R19, R47, R180). -/

section
namespace Sys2Proof.Machine

theorem Fibre.live_iff (f : Fibre) : f.live = true ↔ f.st = .live := by simp [Fibre.live]

theorem Fibre.not_live_iff (f : Fibre) : f.live = false ↔ f.st ≠ .live := by simp [Fibre.live]

theorem Crew.getLsbD_lanesWhere (w : Crew) (p : Fibre → Bool) (l : Nat) : (w.lanesWhere p).getLsbD l = decide (l < 32 ∧ p (w.fibre l) = true) := by
  unfold Crew.lanesWhere
  rw [getLsbD_maskOf]
  simp only [List.mem_filter, List.mem_range]
  congr 1
  apply propext
  tauto

theorem lt_of_getLsbD {m : BitVec 32} {l : Nat} (h : m.getLsbD l = true) : l < 32 :=
  List.mem_range.1 (List.mem_of_mem_filter ((mem_lanesOf m l).2 h))

/-- The lanes of a fragment of live fibres are live. -/
theorem Crew.live_of_lane {w : Crew} {m : BitVec 32} (h : m &&& ~~~w.liveMask = 0) {l : Nat} (hl : m.getLsbD l = true) :
    (w.fibre l).live = true := by
  have hb : (m &&& ~~~w.liveMask).getLsbD l = false := by rw [h]; simp
  rw [BitVec.getLsbD_and, hl, BitVec.getLsbD_not, Crew.liveMask, Crew.getLsbD_lanesWhere] at hb
  simpa [lt_of_getLsbD hl] using hb

theorem getLsbD_even (l : Nat) : (0x55555555#32).getLsbD l = decide (l < 32 ∧ l % 2 = 0) := by
  by_cases h : l < 32
  · have : ∀ i : Fin 32, (0x55555555#32).getLsbD i = decide (i.val < 32 ∧ i.val % 2 = 0) := by decide
    exact this ⟨l, h⟩
  · rw [BitVec.getLsbD_of_ge _ _ (by omega)]
    simp [h]

theorem Crew.getLsbD_primaries (w : Crew) (m : BitVec 32) (l : Nat) :
    (w.primaries m).getLsbD l = (m.getLsbD l && (!w.tandem || decide (l % 2 = 0))) := by
  unfold Crew.primaries
  cases w.tandem with
  | false => simp
  | true =>
    rw [if_pos rfl, BitVec.getLsbD_and, getLsbD_even]
    by_cases h : l < 32
    · simp [h]
    · simp [BitVec.getLsbD_of_ge m l (by omega)]

section Spawn
variable {o : OpU} {s : State} {c : Cur}

/-- The slot that a lane asks for (R180). -/
def Crew.slotOf (w : Crew) (b : Src) (l : Nat) : Nat := (w.val l b).toNat % 32

/-- The requests of an FSPAWN that succeed. -/
def State.spawned (s : State) (c : Cur) (o : OpU) : List (Nat × Nat) :=
  (s.cw c).spawns (lanesOf ((s.cw c).primaries (s.act c o.g))) ((s.cw c).slotOf o.b)

/-- The mask that an FSPAWN gives: the visible lanes whose requests succeed. -/
def State.spawnMask (s : State) (c : Cur) (o : OpU) : BitVec 32 := maskOf ((s.spawned c o).map (fun e => (s.cw c).visible e.1))

theorem State.mem_spawned (l t : Nat) :
    (l, t) ∈ s.spawned c o ↔ ((s.cw c).primaries (s.act c o.g)).getLsbD l = true ∧ t = (s.cw c).slotOf o.b l
      ∧ (s.cw c).slotFree ((s.cw c).slotOf o.b l) = true
      ∧ ∀ k, ((s.cw c).primaries (s.act c o.g)).getLsbD k = true → k < l → (s.cw c).slotOf o.b k ≠ (s.cw c).slotOf o.b l := by
  unfold State.spawned
  rw [Crew.mem_spawns _ _ _ (sorted_lanesOf _)]
  simp only [mem_lanesOf]

/-- A lane of a successful request is a primary one, and active. -/
theorem State.spawned_lane {e : Nat × Nat} (he : e ∈ s.spawned c o) :
    (s.act c o.g).getLsbD e.1 = true ∧ ((s.cw c).tandem = true → e.1 % 2 = 0) := by
  have h := ((State.mem_spawned e.1 e.2).1 he).1
  rw [Crew.getLsbD_primaries] at h
  cases ht : (s.cw c).tandem <;> simp_all

theorem State.spawnMask_bits : BitVec.ofNat 64 ((s.spawned c o).foldl (fun a e => a + 2 ^ ((s.cw c).visible e.1)) 0) = (s.spawnMask c o).setWidth 64 := by
  have hlane : ∀ e ∈ s.spawned c o, e.1 < 32 := fun e he => lt_of_getLsbD (State.spawned_lane he).1
  have hnd : ((s.spawned c o).map Prod.fst).Nodup := (Crew.spawns_lanes _ _ _).nodup (nodup_lanesOf _)
  have := sum_bits_eq_maskOf ((s.spawned c o).map (fun e => (s.cw c).visible e.1))
    (by
      rw [show (fun e : Nat × Nat => (s.cw c).visible e.1) = (s.cw c).visible ∘ Prod.fst from rfl, ← List.map_map]
      refine List.Nodup.map_on ?_ hnd
      intro x hx y hy hxy
      obtain ⟨e, he, rfl⟩ := List.mem_map.1 hx
      obtain ⟨f, hf, rfl⟩ := List.mem_map.1 hy
      unfold Crew.visible at hxy
      split at hxy
      · have h1 := (State.spawned_lane he).2 ‹_›
        have h2 := (State.spawned_lane hf).2 ‹_›
        omega
      · exact hxy)
    (by
      intro v hv
      obtain ⟨e, he, rfl⟩ := List.mem_map.1 hv
      have := hlane e he
      simp only [Crew.visible]
      split <;> omega)
  rw [List.foldl_map] at this
  exact this

theorem State.getLsbD_spawnMask (v : Nat) : (s.spawnMask c o).getLsbD v = true ↔ ∃ e ∈ s.spawned c o, (s.cw c).visible e.1 = v := by
  unfold State.spawnMask
  rw [getLsbD_maskOf, decide_eq_true_iff, List.mem_map]
  constructor
  · exact fun h => h.1
  · rintro ⟨e, he, rfl⟩
    refine ⟨⟨e, he, rfl⟩, ?_⟩
    have := lt_of_getLsbD (State.spawned_lane he).1
    unfold Crew.visible
    split <;> omega

/-- The fibres that an FSPAWN makes were not live. -/
theorem State.spawned_free (hp : (s.cw c).tandem = true → ∀ v, v < 16 → (((s.cw c).fibre (2 * v)).st = .live ↔ ((s.cw c).fibre (2 * v + 1)).st = .live))
    {e x : Nat × Nat} (he : e ∈ s.spawned c o) (hx : x ∈ births (s.cw c).tandem e) : ((s.cw c).fibre x.1).live = false := by
  obtain ⟨-, ht, hf, -⟩ := (State.mem_spawned e.1 e.2).1 he
  rw [← ht] at hf
  unfold Crew.slotFree Crew.nl at hf
  unfold births at hx
  cases htd : (s.cw c).tandem
  · simp only [htd, Bool.false_eq_true, if_false, List.mem_singleton] at hx hf
    subst hx
    simpa using (show _ ∧ _ by simpa using hf).2
  · simp only [htd, if_true, List.mem_cons, List.not_mem_nil, or_false] at hx hf
    have hf : ((s.cw c).sys = false ∧ e.2 < 16) ∧ ((s.cw c).fibre (2 * e.2)).live = false := by simpa using hf
    rcases hx with rfl | rfl
    · exact hf.2
    · rw [Fibre.not_live_iff]
      exact mt (hp htd e.2 hf.1.2).2 ((Fibre.not_live_iff _).1 hf.2)

/-- What an FSPAWN leaves: the fibres made, the mask in D and in the latches, and the fragment past the instruction (R19, R180). -/
theorem fspawn_leaves (h : s.Ready c .any false [srcUse o.a, srcUse o.b, useU o.k o.d] (o.g ≠ 0) (s.act c o.g) (fun _ => [o.a, o.b]))
    (hp : (s.cw c).tandem = true → ∀ v, v < 16 → (((s.cw c).fibre (2 * v)).st = .live ↔ ((s.cw c).fibre (2 * v + 1)).st = .live))
    (hlive : c.lanes &&& ~~~(s.cw c).liveMask = 0)
    (hcode : ∀ l, (s.act c o.g).getLsbD l = true → ((s.cw c).val l o.a).toNat < 2 ^ 57 ∧ ((s.cw c).val l o.a).toNat % 4 = 0) :
    let w := s.cw c
    ∃ w', exec (.fspawn o) s = .next (s.setCrew c.core c.slot w') ∧ w'.v = w.v
      ∧ (∀ n, w'.sreg n = if o.k = false ∧ n = o.d.toNat then { val := (s.spawnMask c o).setWidth 64 } else w.sreg n)
      ∧ (∀ e ∈ s.spawned c o, ∀ x ∈ births w.tandem e, w'.fibre x.1 = w.born c o.a o.b e.1 x)
      ∧ (∀ l, c.lanes.getLsbD l = true → w'.fibre l =
          ((if (s.act c o.g).getLsbD l then (w.fibre l).latched ((s.spawnMask c o).setWidth 64) else w.fibre l).after c w.units c.nextPc))
      ∧ ∀ l, c.lanes.getLsbD l = false → (∀ e ∈ s.spawned c o, ∀ x ∈ births w.tandem e, x.1 ≠ l) → w'.fibre l = w.fibre l := by
  intro w
  let y := (s.spawned c o).foldl (Crew.bear c o.a o.b) w
  have hborn : ∀ {e x : Nat × Nat} {l : Nat}, e ∈ s.spawned c o → x ∈ births w.tandem e → c.lanes.getLsbD l = true → x.1 ≠ l := by
    intro e x l he hx hl hxl
    have h1 := State.spawned_free hp he hx
    rw [hxl, Crew.live_of_lane hlive hl] at h1
    exact Bool.noConfusion h1
  obtain ⟨hy, hother, hmade⟩ := Crew.bear_all c o.a o.b (s.spawned c o) w (Crew.spawns_slots _ _ _)
    (fun e he f hf x hx => hborn hf hx (Crew.active_sub _ _ _ _ (State.spawned_lane he).1))
  have hn : pickFault (codeFaults ((lanesOf (s.act c o.g)).map (fun l => (l, w.val l o.a)))) = none := by
    rw [codeFaults_nil (fun l hl => hcode l ((mem_lanesOf _ l).1 hl))]
    rfl
  have he : exec (.fspawn o) s = .next ((s.setCrew c.core c.slot y).putU c o.k o.d (s.act c o.g) ((s.spawnMask c o).setWidth 64) {}) := by
    refine (State.run_cur h.1 _).trans ?_
    rw [State.gate_ready h, State.reads_ready h]
    simp only [w] at hn
    simp only [hn, ← State.spawnMask_bits]
    rfl
  obtain ⟨w', ht, ⟨hlanes, -⟩, hv, -, -, -, hs⟩ := (s.setCrew c.core c.slot y).putU_done c o.k o.d (s.act c o.g) ((s.spawnMask c o).setWidth 64)
  have hcw : (s.setCrew c.core c.slot y).cw c = y := State.crew_setCrew_same _ _ _ _
  rw [hcw] at hlanes hv hs
  rw [State.setCrew_setCrew] at ht
  have hyv : y.v = w.v := by rw [show y = _ from hy]
  have hys : y.s = w.s := by rw [show y = _ from hy]
  have hyu : y.units = w.units := by rw [show y = _ from hy]
  refine ⟨w', he.trans (congrArg _ ht), hv.trans hyv, fun n => ?_, fun e he x hx => ?_, fun l hl => ?_, fun l hl hne => ?_⟩
  · rw [hs, Crew.sreg, hys]
    rfl
  · have hnl : c.lanes.getLsbD x.1 = false := by
      rw [← Bool.not_eq_true]
      exact fun hl => hborn he hx hl rfl
    rw [hlanes, hnl]
    exact hmade e he x hx
  · have hfy : y.fibre l = w.fibre l := hother l (fun e he x hx => hborn he hx hl)
    rw [hlanes, if_pos hl, hfy, hyu]
  · rw [hlanes, hl]
    exact hother l hne

end Spawn

/-- FSPAWN in tandem mode: a pair for each request (R47). -/
theorem fspawn_tandem (o : OpU) (s : State) (c : Cur)
    (h : s.Ready c .any false [srcUse o.a, srcUse o.b, useU o.k o.d] (o.g ≠ 0) (s.act c o.g) (fun _ => [o.a, o.b]))
    (htd : (s.cw c).tandem = true) (hlive : c.lanes &&& ~~~(s.cw c).liveMask = 0)
    (hp : ∀ v, v < 16 → (((s.cw c).fibre (2 * v)).st = .live ↔ ((s.cw c).fibre (2 * v + 1)).st = .live))
    (hcode : ∀ l, (s.act c o.g).getLsbD l = true → ((s.cw c).val l o.a).toNat < 2 ^ 57 ∧ ((s.cw c).val l o.a).toNat % 4 = 0) :
    let w := s.cw c
    let asks (v : Nat) : Prop := v < 16 ∧ (w.primaries (s.act c o.g)).getLsbD (2 * v) = true
    let slot (v : Nat) : Nat := (w.val (2 * v) o.b).toNat % 32
    ∃ (t : State) (w' : Crew) (r : BitVec 32), exec (.fspawn o) s = .next t ∧ t = s.setCrew c.core c.slot w' ∧ w'.v = w.v
      ∧ (∀ v, r.getLsbD v = true ↔ asks v ∧ w.sys = false ∧ slot v < 16 ∧ (w.fibre (2 * slot v)).st ≠ .live
          ∧ ∀ k, k < v → asks k → slot k ≠ slot v)
      ∧ (∀ n, w'.sreg n = if o.k = false ∧ n = o.d.toNat then { val := r.setWidth 64 } else w.sreg n)
      ∧ (∀ v j, r.getLsbD v = true → j < 2 → w'.fibre (2 * slot v + j) =
          { st := .live, pc := (w.val (2 * v) o.a).setWidth 57, wbase := (w.val (2 * v) o.b).extractLsb' 5 6
            restart := (w.val (2 * v) o.a).setWidth 57 - 4, parent := BitVec.ofNat 5 (lowestLane c.lanes)
            spawner := some (BitVec.ofNat 5 (2 * v + j)), readyAt := w.units, mflags := (w.fibre (2 * slot v + j)).mflags : Fibre })
      ∧ (∀ l, c.lanes.getLsbD l = true → w'.fibre l =
          ((if (s.act c o.g).getLsbD l then (w.fibre l).latched (r.setWidth 64) else w.fibre l).after c w.units c.nextPc))
      ∧ ∀ l, c.lanes.getLsbD l = false → (∀ v j, r.getLsbD v = true → j < 2 → 2 * slot v + j ≠ l) → w'.fibre l = w.fibre l := by
  intro w asks slot
  obtain ⟨w', he, hv, hs, hmade, hlanes, hother⟩ := fspawn_leaves h (fun _ => hp) hlive hcode
  have hbit : ∀ v, (s.spawnMask c o).getLsbD v = true ↔ (2 * v, slot v) ∈ s.spawned c o := by
    intro v
    rw [State.getLsbD_spawnMask]
    constructor
    · rintro ⟨⟨l, t⟩, hm, rfl⟩
      have heven := (State.spawned_lane hm).2 htd
      have hl : 2 * w.visible l = l := by unfold Crew.visible; rw [if_pos htd]; omega
      rw [hl, show slot (w.visible l) = t by rw [((State.mem_spawned l t).1 hm).2.1]; simp only [slot, hl]; rfl]
      exact hm
    · intro hm
      exact ⟨_, hm, by simp only [Crew.visible]; rw [if_pos htd]; omega⟩
  have hbirth : ∀ v j, j < 2 → (2 * slot v + j, 2 * v + j) ∈ births w.tandem (2 * v, slot v) := by
    intro v j hj
    rw [show w.tandem = true from htd]
    obtain rfl | rfl : j = 0 ∨ j = 1 := by omega
    · exact List.mem_cons_self
    · exact List.mem_cons_of_mem _ List.mem_cons_self
  refine ⟨_, w', s.spawnMask c o, he, rfl, hv, fun v => ?_, hs, fun v j hr hj => ?_, hlanes, fun l hl hne => hother l hl ?_⟩
  · rw [hbit, State.mem_spawned]
    have hfree : w.slotFree (slot v) = true ↔ w.sys = false ∧ slot v < 16 ∧ (w.fibre (2 * slot v)).st ≠ .live := by
      unfold Crew.slotFree Crew.nl
      rw [show w.tandem = true from htd, ← Fibre.not_live_iff]
      simp [and_assoc]
    change _ ∧ _ ∧ w.slotFree (slot v) = true ∧ _ ↔ _
    rw [hfree]
    constructor
    · rintro ⟨ha, -, ⟨hsys, hlt, hst⟩, hfirst⟩
      have hv16 : v < 16 := by have := lt_of_getLsbD ha; omega
      exact ⟨⟨hv16, ha⟩, hsys, hlt, hst, fun k hk hak => hfirst (2 * k) hak.2 (by omega)⟩
    · rintro ⟨⟨hv16, ha⟩, hsys, hlt, hst, hfirst⟩
      refine ⟨ha, rfl, ⟨hsys, hlt, hst⟩, fun k hk hkv => ?_⟩
      have heven : k % 2 = 0 := by
        rw [Crew.getLsbD_primaries, show (s.cw c).tandem = true from htd] at hk
        simpa using (show _ ∧ _ by simpa using hk).2
      obtain ⟨i, rfl⟩ : ∃ i, k = 2 * i := ⟨k / 2, by omega⟩
      exact hfirst i (by omega) ⟨by omega, hk⟩
  · rw [hmade _ ((hbit v).1 hr) _ (hbirth v j hj)]
    rfl
  · rintro ⟨l', t⟩ hm x hx rfl
    have hl' := (State.spawned_lane hm).2 htd
    obtain ⟨v, rfl⟩ : ∃ v, l' = 2 * v := ⟨l' / 2, by simp only at hl'; omega⟩
    obtain rfl : t = slot v := ((State.mem_spawned _ t).1 hm).2.1
    rw [htd] at hx
    simp only [births, if_true, List.mem_cons, List.not_mem_nil, or_false] at hx
    rcases hx with rfl | rfl
    · exact hne v 0 ((hbit v).2 hm) (by omega) rfl
    · exact hne v 1 ((hbit v).2 hm) (by omega) rfl

/-- FSPAWN outside tandem mode: one fibre for each request. -/
theorem fspawn_single (o : OpU) (s : State) (c : Cur)
    (h : s.Ready c .any false [srcUse o.a, srcUse o.b, useU o.k o.d] (o.g ≠ 0) (s.act c o.g) (fun _ => [o.a, o.b]))
    (htd : (s.cw c).tandem = false) (hlive : c.lanes &&& ~~~(s.cw c).liveMask = 0)
    (hcode : ∀ l, (s.act c o.g).getLsbD l = true → ((s.cw c).val l o.a).toNat < 2 ^ 57 ∧ ((s.cw c).val l o.a).toNat % 4 = 0) :
    let w := s.cw c
    let slot (l : Nat) : Nat := (w.val l o.b).toNat % 32
    ∃ (t : State) (w' : Crew) (r : BitVec 32), exec (.fspawn o) s = .next t ∧ t = s.setCrew c.core c.slot w' ∧ w'.v = w.v
      ∧ (∀ l, r.getLsbD l = true ↔ (s.act c o.g).getLsbD l = true ∧ w.sys = false ∧ (w.fibre (slot l)).st ≠ .live
          ∧ ∀ k, k < l → (s.act c o.g).getLsbD k = true → slot k ≠ slot l)
      ∧ (∀ n, w'.sreg n = if o.k = false ∧ n = o.d.toNat then { val := r.setWidth 64 } else w.sreg n)
      ∧ (∀ l, r.getLsbD l = true → w'.fibre (slot l) =
          { st := .live, pc := (w.val l o.a).setWidth 57, wbase := (w.val l o.b).extractLsb' 5 6, restart := (w.val l o.a).setWidth 57 - 4
            parent := BitVec.ofNat 5 (lowestLane c.lanes), spawner := some (BitVec.ofNat 5 l), readyAt := w.units
            mflags := (w.fibre (slot l)).mflags : Fibre })
      ∧ (∀ l, c.lanes.getLsbD l = true → w'.fibre l =
          ((if (s.act c o.g).getLsbD l then (w.fibre l).latched (r.setWidth 64) else w.fibre l).after c w.units c.nextPc))
      ∧ ∀ l, c.lanes.getLsbD l = false → (∀ k, r.getLsbD k = true → slot k ≠ l) → w'.fibre l = w.fibre l := by
  intro w slot
  obtain ⟨w', he, hv, hs, hmade, hlanes, hother⟩ := fspawn_leaves h (fun ht => by rw [htd] at ht; exact Bool.noConfusion ht) hlive hcode
  have hvis : ∀ l, w.visible l = l := fun l => by unfold Crew.visible; rw [htd]; rfl
  have hbit : ∀ l, (s.spawnMask c o).getLsbD l = true ↔ (l, slot l) ∈ s.spawned c o := by
    intro l
    rw [State.getLsbD_spawnMask]
    constructor
    · rintro ⟨⟨k, t⟩, hm, hk⟩
      rw [hvis] at hk
      simp only at hk
      subst hk
      rw [show slot k = t from (((State.mem_spawned k t).1 hm).2.1).symm]
      exact hm
    · exact fun hm => ⟨_, hm, hvis l⟩
  have hbirth : ∀ e, births w.tandem e = [(e.2, e.1)] := fun e => by unfold births; rw [htd]; rfl
  refine ⟨_, w', s.spawnMask c o, he, rfl, hv, fun l => ?_, hs, fun l hr => ?_, hlanes, fun l hl hne => hother l hl ?_⟩
  · rw [hbit, State.mem_spawned]
    have hfree : w.slotFree (slot l) = true ↔ w.sys = false ∧ (w.fibre (slot l)).st ≠ .live := by
      have : slot l < 32 := Nat.mod_lt _ (by decide)
      unfold Crew.slotFree Crew.nl
      rw [show w.tandem = false from htd, ← Fibre.not_live_iff]
      simp [this]
    have hprim : w.primaries (s.act c o.g) = s.act c o.g := by unfold Crew.primaries; rw [htd]; rfl
    change (w.primaries (s.act c o.g)).getLsbD l = true ∧ _ ∧ w.slotFree (slot l) = true ∧ (∀ k, (w.primaries (s.act c o.g)).getLsbD k = true → _) ↔ _
    rw [hfree, hprim]
    constructor
    · rintro ⟨ha, -, ⟨hsys, hst⟩, hfirst⟩
      exact ⟨ha, hsys, hst, fun k hk hak => hfirst k hak hk⟩
    · rintro ⟨ha, hsys, hst, hfirst⟩
      exact ⟨ha, rfl, ⟨hsys, hst⟩, fun k hk hkl => hfirst k hkl hk⟩
  · rw [hmade _ ((hbit l).1 hr) (slot l, l) (by rw [hbirth]; exact List.mem_cons_self)]
    rfl
  · rintro ⟨k, t⟩ hm x hx rfl
    obtain rfl : t = slot k := ((State.mem_spawned _ t).1 hm).2.1
    rw [hbirth, List.mem_singleton] at hx
    subst hx
    exact hne k ((hbit k).2 hm) rfl

/-- Settles O26: FEND retires and its lanes exit; FSPAWN makes the fibres of the first request for each free slot. -/
theorem fibresEndAndStart : Obligations.FibresEndAndStart := by
  unfold Obligations.FibresEndAndStart
  exact ⟨fend_spec, fspawn_tandem, fspawn_single⟩

end Sys2Proof.Machine
end

/-! The meetings of a crew's fibres: SYNCM, CVSET, REGION and REGEND (R25, R30, R40 to R42, R182, R183, R188). -/

section
namespace Sys2Proof.Machine

/-- Lanes none of which lies outside a mask are in the mask. -/
theorem and_eq_left_of_and_not_eq_zero {a m : BitVec 32} (h : a &&& ~~~m = 0) : a &&& m = a := by
  apply BitVec.eq_of_getLsbD_eq
  intro i hi
  have hb := congrArg (fun x : BitVec 32 => x.getLsbD i) h
  simp only [BitVec.getLsbD_and, BitVec.getLsbD_not, hi, decide_true, Bool.true_and, BitVec.ofNat_eq_ofNat, BitVec.getLsbD_zero] at hb
  rw [BitVec.getLsbD_and]
  cases ha : a.getLsbD i with
  | false => rfl
  | true => rw [ha, Bool.true_and] at hb; simpa using hb

/-- SYNCM where no wait is pending and its set is empty, or its set fits the one that is pending, or starts it (R25, R182). -/
theorem syncm_spec (o : OpS1) (s : State) (c : Cur) (h : s.Ready c .any false [srcUse o.a] false c.lanes (fun _ => [o.a])) :
    let w := s.cw c
    let m := w.physMask ((s.uval c o.a).setWidth 32) &&& w.liveMask
    (w.sync = none → m = 0 → ∃ t, exec (.syncm o) s = .next t ∧ s.FibreDone t c (fun _ f => f.noLatch) 0)
    ∧ (w.sync = none → c.lanes &&& ~~~m = 0 → c.lanes ≠ 0 →
        exec (.syncm o) s = .next (((s.setCrew c.core c.slot { w with sync := some { mask := m, pc := c.pc } }).hold c .syncm).trySync c.core c.slot))
    ∧ (∀ y, w.sync = some y → y.pc ≠ c.pc → ∃ f, f.cause = 11 ∧ f.sub = 1 ∧ exec (.syncm o) s = .next (s.takeFault c f))
    ∧ (∀ y, w.sync = some y → y.pc = c.pc → y.mask &&& w.liveMask ≠ m → ∃ f, f.cause = 11 ∧ f.sub = 0 ∧ exec (.syncm o) s = .next (s.takeFault c f))
    ∧ (∀ y, w.sync = some y → y.pc = c.pc → y.mask &&& w.liveMask = m → c.lanes &&& ~~~m = 0 → c.lanes ≠ 0 →
        exec (.syncm o) s = .next ((s.hold c .syncm).trySync c.core c.slot)) := by
  intro w m
  have hx : exec (.syncm o) s = execSyncm o s := rfl
  unfold execSyncm at hx
  rw [State.run_cur h.1, State.gate_ready h, State.reads_ready h] at hx
  have hm0 : c.lanes &&& ~~~m = 0 → c.lanes ≠ 0 → m ≠ 0 := fun h0 hne he => hne (by
    rw [← and_eq_left_of_and_not_eq_zero h0, he]; simp)
  refine ⟨fun hs hm => ?_, fun hs h0 hne => ?_, fun y hs hp => ?_, fun y hs hp hm => ?_, fun y hs hp hm h0 hne => ?_⟩
  · simp only [w] at hs
    simp only [m, w] at hm
    simp only [hs, hm, if_true] at hx
    exact ⟨_, hx, s.retire_done c { swap := true } rfl rfl rfl⟩
  · have hin := and_eq_left_of_and_not_eq_zero h0
    have hm := hm0 h0 hne
    simp only [w] at hs
    simp only [m, w] at hm hin h0
    simp only [hs, hm, if_false, hin, h0, hne, if_true, decide_true, Bool.true_or] at hx
    exact hx
  · simp only [w] at hs
    simp only [hs, hp, ne_eq, not_false_eq_true, if_true] at hx
    exact ⟨_, rfl, rfl, hx⟩
  · simp only [w] at hs
    simp only [m, w] at hm
    simp only [hs, hp, hm, ne_eq, not_false_eq_true, not_true_eq_false, if_false, if_true] at hx
    exact ⟨_, rfl, rfl, hx⟩
  · have hin := and_eq_left_of_and_not_eq_zero h0
    simp only [w] at hs
    simp only [m, w] at hm hin h0
    simp only [hs, hp, hm, ne_eq, not_true_eq_false, if_false, hin, h0, hne, if_true, decide_true, Bool.true_or] at hx
    exact hx

/-- CVSET's checks of the convergence register come before its operand (R183, R371, R376). -/
theorem cvset_faults (o : OpCv) (s : State) (c : Cur) (hc : s.cur = some c) (hr : s.inRange c [srcUse o.a] = true)
    (hp : s.pendIds c false [srcUse o.a] = []) :
    (c.slot ≠ 32 → ((s.group (s.cw c).group).cv o.cv.toNat).signed_ ≠ 0 → exec (.cvset o) s = .next (s.takeFault c (faultOf 10 1)))
    ∧ (c.slot = 32 → exec (.cvset o) s = .next (s.takeFault c (faultOf 10 2))) := by
  have hx : exec (.cvset o) s = execCvset o s := rfl
  unfold execCvset at hx
  rw [State.run_cur hc, State.gate_passes hr rfl hp] at hx
  constructor
  · intro h32 hs
    simpa only [h32, hs, if_false, ne_eq, not_false_eq_true, if_true] using hx
  · intro h32
    simpa only [h32, if_true] using hx

/-- CVSET of a register that no fibre has signed (R30, R183). -/
theorem cvset_binds (o : OpCv) (s : State) (c : Cur) (h : s.Ready c .any false [srcUse o.a] false c.lanes (fun _ => [o.a])) (h32 : c.slot ≠ 32)
    (hs : ((s.group (s.cw c).group).cv o.cv.toNat).signed_ = 0) :
    exec (.cvset o) s = .next ((s.modGroup (s.cw c).group (fun g => g.setCv o.cv.toNat
          { owned := true, owner := (s.cw c).no
            set := (s.cw c).primaries ((s.cw c).physMask ((s.uval c o.a).setWidth 32)) &&& (s.cw c).liveMask })).setCrew c.core c.slot
        ((s.cw c).retired c {})) := by
  have hx : exec (.cvset o) s = execCvset o s := rfl
  unfold execCvset at hx
  rw [State.run_cur h.1, State.gate_ready h] at hx
  simp only [h32, hs, if_false, ne_eq, not_true_eq_false] at hx
  rwa [State.reads_ready h] at hx

/-- Settles O27, by the branches of SYNCM and CVSET behind their checks. -/
theorem setsOfFibres : Obligations.SetsOfFibres := by
  unfold Obligations.SetsOfFibres
  refine ⟨syncm_spec, fun o s c hc hr hp => cvset_faults o s c hc hr hp, fun o s c h h32 => ?_⟩
  intro w r hs
  refine ⟨w.retired c {}, cvset_binds o s c h h32 hs, ?_, ?_, ?_, ?_⟩
  · simpa using Crew.wentOn_of w w c {} (fun _ => rfl) rfl rfl rfl
  all_goals rw [Crew.retired_eq]

/-- The crew of a fragment that is held. -/
theorem State.crew_hold (s : State) (c : Cur) (wt : Wait) :
    (s.hold c wt).crew c.core c.slot =
      { (s.cw c).modLanes c.lanes (fun _ f => { f with wait := wt, word := c.word, pfx := c.pfx }) with
        unit := if wt.beforeIssue then (s.cw c).unit else (s.cw c).unitApart c.lanes } := State.crew_modCrew_same _ _ _ _

/-- Holding a fragment changes its fibres and the unit of its crew. -/
theorem State.crew_hold_eq (s : State) (c : Cur) (wt : Wait) :
    (s.hold c wt).crew c.core c.slot =
      { s.cw c with fibres := ((s.hold c wt).crew c.core c.slot).fibres, unit := ((s.hold c wt).crew c.core c.slot).unit } := by
  rw [State.crew_hold, Crew.modLanes_eq]

theorem State.rstack_hold (s : State) (c : Cur) (wt : Wait) : ((s.hold c wt).crew c.core c.slot).rstack = (s.cw c).rstack := by
  rw [State.crew_hold_eq]

theorem State.fibre_hold (s : State) (c : Cur) (wt : Wait) (l : Nat) :
    ((s.hold c wt).crew c.core c.slot).fibre l =
      if c.lanes.getLsbD l then { (s.cw c).fibre l with wait := wt, word := c.word, pfx := c.pfx } else (s.cw c).fibre l := by
  rw [State.crew_hold]
  exact Crew.fibre_modLanes _ _ _ _

/-- The lowest lane of a mask that is not empty is in it. -/
theorem getLsbD_lowestLane {m : BitVec 32} (h : m ≠ 0) : m.getLsbD (lowestLane m) = true := by
  rw [← mem_lanesOf]
  cases he : lanesOf m with
  | cons a as => simp [lowestLane, he]
  | nil =>
    refine absurd (BitVec.eq_of_getLsbD_eq fun i hi => ?_) h
    rw [BitVec.ofNat_eq_ofNat, BitVec.getLsbD_zero, ← Bool.not_eq_true, ← mem_lanesOf, he]
    exact List.not_mem_nil

/-- The live lanes of a crew that holds some of them for a reason, when no fibre waits elsewhere. -/
theorem State.liveMask_hold (s : State) (c : Cur) (wt : Wait) : ((s.hold c wt).crew c.core c.slot).liveMask = (s.cw c).liveMask := by
  apply BitVec.eq_of_getLsbD_eq
  intro l _
  simp only [Crew.liveMask, Crew.getLsbD_lanesWhere, State.fibre_hold]
  cases c.lanes.getLsbD l <;> rfl

/-- The instruction in hand when the whole crew has met at a REGION or REGEND. -/
def Cur.met (c : Cur) : Cur := { core := c.core, slot := c.slot, lanes := c.lanes, pc := c.pc, word := c.word, ins := .hintNop, pfx := c.pfx }

section Region
variable {s : State} {c : Cur}

/-- A crew all of whose live fibres arrive at a REGION or REGEND together executes it at once (R41). -/
theorem State.tryRegion_meets (hl : c.lanes = (s.cw c).liveMask) (h0 : c.lanes ≠ 0) (hh : (s.cw c).halted = false)
    (hr : (s.group (s.cw c).group).haltReq = false) (hp : ∀ l, c.lanes.getLsbD l = true → ((s.cw c).fibre l).pc = c.pc) :
    (s.hold c .region).tryRegion c.core c.slot = (s.hold c .region).doRegion c.met := by
  have hm : ((s.hold c .region).crew c.core c.slot).waiting (fun x => x = .region) = c.lanes := by
    apply BitVec.eq_of_getLsbD_eq
    intro l hl32
    rw [Crew.waiting, Crew.getLsbD_lanesWhere, State.fibre_hold]
    cases hc : c.lanes.getLsbD l with
    | true =>
      have hlive := hc
      rw [hl, Crew.liveMask, Crew.getLsbD_lanesWhere] at hlive
      simpa [Fibre.live, hl32] using hlive
    | false =>
      have hdead := hc
      rw [hl, Crew.liveMask, Crew.getLsbD_lanesWhere] at hdead
      simp_all
  have hpc : ((s.hold c .region).crew c.core c.slot).onePc c.lanes = true := by
    unfold Crew.onePc
    rw [List.all_eq_true]
    intro l hml
    have hlow := getLsbD_lowestLane h0
    have hcl := (mem_lanesOf _ _).1 hml
    simp only [State.fibre_hold, hlow, hcl, if_true, hp l hcl, hp _ hlow, beq_self_eq_true]
  have hcur : (s.hold c .region).curAt c.core c.slot c.lanes = c.met := by
    have hlow := getLsbD_lowestLane h0
    unfold State.curAt
    simp only [State.fibre_hold, hlow, if_true, hp _ hlow, Cur.met]
  have hgrp : ((s.hold c .region).group ((s.hold c .region).crew c.core c.slot).group).haltReq = false := by
    rw [State.crew_hold_eq]; exact hr
  have hhalt : ((s.hold c .region).crew c.core c.slot).halted = false := by rw [State.crew_hold_eq]; exact hh
  have hlv : ((s.hold c .region).crew c.core c.slot).liveMask = c.lanes := (s.liveMask_hold c .region).trans hl.symm
  unfold State.tryRegion
  simp only [hm, hlv, h0, hhalt, hpc, hgrp, hcur, ne_eq, not_true_eq_false, decide_false, Bool.or_self, Bool.false_eq_true, if_false,
    Bool.not_true, Bool.and_false]

/-- What a region instruction leaves of its crew: the stack given, and every fibre of the fragment behind it. -/
structure State.Went (s t : State) (c : Cur) (st : List (BitVec 16)) : Prop where
  stack : (t.crew c.core c.slot).rstack = st
  reti : (t.crew c.core c.slot).reti = (s.cw c).reti + popMask c.lanes
  lanes : ∀ l, c.lanes.getLsbD l = true → ((t.crew c.core c.slot).fibre l).pc = c.pc + 4 ∧ ((t.crew c.core c.slot).fibre l).restart = c.pc
    ∧ ((t.crew c.core c.slot).fibre l).wait = .none

theorem Fibre.settled_place (f : Fibre) (m : BitVec 32) :
    (f.settled m).pc = f.pc ∧ (f.settled m).restart = f.restart ∧ (f.settled m).wait = f.wait := by
  unfold Fibre.settled
  split
  · split <;> exact ⟨rfl, rfl, rfl⟩
  · exact ⟨rfl, rfl, rfl⟩

/-- The region stack changed and the instruction retired with its restart point there. -/
theorem State.went_of (hrep : c.pfx.rep = none) (st : List (BitVec 16)) :
    s.Went (((s.hold c .region).modCrew c.core c.slot (fun w => { w with rstack := st })).retire c.met { swap := true, restart := true }) c st := by
  have hlast : c.met.last = true := by simp [Cur.last, Cur.met, Pfx.count, hrep]
  have hcrew : (((s.hold c .region).modCrew c.core c.slot (fun w => { w with rstack := st })).retire c.met
      { swap := true, restart := true }).crew c.core c.slot =
        ({ (s.hold c .region).crew c.core c.slot with rstack := st } : Crew).retired c.met { swap := true, restart := true } := by
    exact (State.crew_modCrew_same _ _ _ _).trans
      (congrArg (fun w : Crew => w.retired c.met { swap := true, restart := true }) (State.crew_modCrew_same _ _ _ _))
  refine ⟨?_, ?_, fun l hl => ?_⟩
  · rw [hcrew, Crew.retired_eq]
  · rw [hcrew, Crew.retired_eq, State.crew_hold_eq]; rfl
  · rw [hcrew, Crew.fibre_retired_restart _ _ _ _ rfl]
    obtain ⟨hpc, hre, hwt⟩ := Fibre.settled_place (if c.met.lanes.getLsbD l then
      (({ (s.hold c .region).crew c.core c.slot with rstack := st } : Crew).fibre l).retired c.met { swap := true, restart := true }
        ({ (s.hold c .region).crew c.core c.slot with rstack := st } : Crew).units l
      else ({ (s.hold c .region).crew c.core c.slot with rstack := st } : Crew).fibre l) c.met.lanes
    have hml : c.met.lanes.getLsbD l = true := hl
    rw [hpc, hre, hwt, hml]
    refine ⟨?_, ?_, rfl⟩
    · simp [Fibre.retired, Cur.target, hlast]; rfl
    · simp [Fibre.retired]; rfl

end Region

/-- The low half-word of an immediate operand extended by an IMM word, or without one where it is not negative. -/
theorem Cur.imm_half (c : Cur) (i : BitVec 7) (h : (c.imm i).toNat < 65536) : (c.imm i).setWidth 16 =
    match c.pfx.imm with
    | some p => (p ++ i : BitVec 31).setWidth 16
    | none => i.setWidth 16 := by
  unfold Cur.imm at *
  cases hp : c.pfx.imm with
  | some p =>
    simp only
    apply BitVec.eq_of_getLsbD_eq
    intro k hk
    simp only [BitVec.getLsbD_setWidth, BitVec.getLsbD_signExtend]
    simp [hk, show k < 64 by omega, show k < 31 by omega]
  | none =>
    rw [hp] at h
    simp only at h ⊢
    have hall : ∀ i : BitVec 7, (i.signExtend 64).toNat < 65536 → (i.signExtend 64).setWidth 16 = i.setWidth 16 := by decide
    exact hall i h

/-- The identifier that a REGION pushes (R188). -/
def Cur.regionId (c : Cur) : BitVec 16 := match c.pfx.imm with
  | some p => (p ++ c.word.extractLsb' 25 7 : BitVec 31).setWidth 16
  | none => (c.word.extractLsb' 25 7).setWidth 16

/-- REGION where the stack has room (R40). -/
theorem State.doRegion_push {s : State} {c : Cur} (hw : (c.word.extractLsb' 4 4).toNat = 11) (hlen : ¬ 8 ≤ (s.crew c.core c.slot).rstack.length) :
    s.doRegion c = ((s.modCrew c.core c.slot (fun w => { w with rstack := c.regionId :: (s.crew c.core c.slot).rstack })).retire c
      { swap := true, restart := true }).traceOn c 10 c.regionId.toNat 0 := by
  unfold State.doRegion
  simp only [hw, if_true, if_neg hlen]
  rfl

section RegionSteps
variable {s : State} {c : Cur} (h : s.Ready c .any false [] false 0 (fun _ => [])) (hl : c.lanes = (s.cw c).liveMask) (h0 : c.lanes ≠ 0)
  (hh : (s.cw c).halted = false) (hr : (s.group (s.cw c).group).haltReq = false)
  (hp : ∀ l, c.lanes.getLsbD l = true → ((s.cw c).fibre l).pc = c.pc)
include h hl h0 hh hr hp

theorem region_meets (o : OpRg) : exec (.region o) s = .next ((s.hold c .region).doRegion c.met) := by
  have hx : exec (.region o) s = execRegion o s := rfl
  rw [hx, execRegion, State.run_cur h.1, State.gate_ready h, State.tryRegion_meets hl h0 hh hr hp]

theorem regend_meets : exec .regend s = .next ((s.hold c .region).doRegion c.met) := by
  have hx : exec .regend s = execRegend s := rfl
  rw [hx, execRegend, State.run_cur h.1, State.gate_ready h, State.tryRegion_meets hl h0 hh hr hp]

/-- REGION pushes its identifier, or faults where the stack is full (R40, R188). -/
theorem region_pushes (hrep : c.pfx.rep = none) (o : OpRg) (hw : c.word.extractLsb' 4 4 = 11#4) (hi : c.word.extractLsb' 25 7 = o.imm)
    (hb : (c.imm o.imm).toNat < 65536) :
    ((s.cw c).rstack.length < 8 → ∃ u : State, exec (.region o) s = .next (u.traceOn c.met 10 ((c.imm o.imm).setWidth 16).toNat 0)
        ∧ s.Went u c ((c.imm o.imm).setWidth 16 :: (s.cw c).rstack))
    ∧ (8 ≤ (s.cw c).rstack.length → exec (.region o) s = .next ((s.hold c .region).takeFault c.met (faultOf 12 1))) := by
  have hst : ((s.hold c .region).crew c.met.core c.met.slot).rstack = (s.cw c).rstack :=
    s.rstack_hold c .region
  have hfn : (c.met.word.extractLsb' 4 4).toNat = 11 := by rw [show c.met.word = c.word from rfl, hw]; rfl
  have him : c.met.word.extractLsb' 25 7 = o.imm := hi
  rw [region_meets h hl h0 hh hr hp]
  constructor
  · intro hlen
    have hid : c.met.regionId = (c.imm o.imm).setWidth 16 := by
      unfold Cur.regionId
      rw [him]
      exact (c.imm_half o.imm hb).symm
    rw [State.doRegion_push hfn (by rw [hst]; omega), hid, hst]
    exact ⟨_, rfl, s.went_of hrep ((c.imm o.imm).setWidth 16 :: (s.cw c).rstack)⟩
  · intro hlen
    unfold State.doRegion
    simp only [hst, hfn, if_true, if_pos hlen]

/-- REGEND pops a region, or faults where there is none (R40, R188). -/
theorem regend_pops (hrep : c.pfx.rep = none) (hw : c.word.extractLsb' 4 4 = 12#4) :
    (∀ x st, (s.cw c).rstack = x :: st → ∃ u : State, exec .regend s = .next (u.traceOn c.met 10 x.toNat 1) ∧ s.Went u c st)
    ∧ ((s.cw c).rstack = [] → exec .regend s = .next ((s.hold c .region).takeFault c.met (faultOf 12 2))) := by
  have hst : ((s.hold c .region).crew c.met.core c.met.slot).rstack = (s.cw c).rstack :=
    s.rstack_hold c .region
  have hfn : ¬ (c.met.word.extractLsb' 4 4).toNat = 11 := by rw [show c.met.word = c.word from rfl, hw]; decide
  rw [regend_meets h hl h0 hh hr hp]
  unfold State.doRegion
  simp only [hst, hfn, if_false]
  constructor
  · intro x st hx
    rw [hx]
    exact ⟨_, rfl, State.went_of hrep st⟩
  · intro hx
    rw [hx]

end RegionSteps

/-- Settles O29: the crew meets at once, and the region stack is pushed or popped, or its end is found. -/
theorem regionsPushAndPop : Obligations.RegionsPushAndPop := by
  unfold Obligations.RegionsPushAndPop
  intro s c h _ w hl h0 hh hr hp hrep k went
  have hwent : ∀ {u st}, s.Went u c st → went u st := fun hu => ⟨hu.stack, hu.reti, hu.lanes⟩
  refine ⟨fun o hw hi hb => ?_, fun hw => ?_⟩
  · obtain ⟨hpush, hfull⟩ := region_pushes h hl h0 hh hr hp hrep o hw hi hb
    refine ⟨fun hlen => ?_, hfull⟩
    obtain ⟨u, hu, hgo⟩ := hpush hlen
    rw [c.imm_half o.imm hb] at hgo
    refine ⟨u, hu, fun hn => ?_, fun x hx => ?_⟩
    · rw [hn] at hgo; exact hwent hgo
    · rw [hx] at hgo; exact hwent hgo
  · obtain ⟨hpop, hempty⟩ := regend_pops h hl h0 hh hr hp hrep hw
    refine ⟨fun x st hx => ?_, hempty⟩
    obtain ⟨u, hu, hgo⟩ := hpop x st hx
    exact ⟨u, hu, hwent hgo⟩

end Sys2Proof.Machine
end

/-! Device writes leave the contexts: every operation of the log, the index and the tables on their way (R250 to R256, R350, R351, R456). -/

section
namespace Sys2Proof.Machine

/-- A fold of steps each of which leaves the contexts. -/
theorem State.foldl_ctxs {α : Type} {f : State → α → State} (hf : ∀ s a, (f s a).ctxs = s.ctxs) (xs : List α) (s : State) :
    (xs.foldl f s).ctxs = s.ctxs := by
  induction xs generalizing s with
  | nil => rfl
  | cons x xs ih => rw [List.foldl_cons, ih, hf]

theorem State.each_ctxs {α : Type} {f : State → α → State} (hf : ∀ s a, (f s a).ctxs = s.ctxs) (s : State) (xs : List α) :
    (s.each xs f).ctxs = s.ctxs := State.foldl_ctxs hf xs s

/-- A fold that may fail, of steps each of which leaves the contexts. -/
theorem optEach_ctxs {α : Type} {f : State → α → Option State} (hf : ∀ s a t, f s a = some t → t.ctxs = s.ctxs) {xs : List α} {s t : State}
    (h : optEach s xs f = some t) : t.ctxs = s.ctxs := by
  unfold optEach at h
  induction xs generalizing s with
  | nil => cases h; rfl
  | cons x xs ih =>
    rw [List.foldl_cons, Option.bind_some] at h
    cases hx : f s x with
    | some u => rw [hx] at h; rw [ih h, hf _ _ _ hx]
    | none =>
      rw [hx] at h
      have hn : ∀ ys : List α, ys.foldl (fun (a : Option State) y => a.bind (fun s => f s y)) none = none := fun ys => by
        induction ys with
        | nil => rfl
        | cons y ys ihy => exact ihy
      rw [hn] at h
      cases h

@[simp] theorem State.setHbmSector_ctxs (s : State) (pa : Nat) (x : Sector) : (s.setHbmSector pa x).ctxs = s.ctxs := rfl
@[simp] theorem State.setSummary_ctxs (s : State) (b n : Nat) : (s.setSummary b n).ctxs = s.ctxs := rfl
@[simp] theorem State.modSeg_ctxs (s : State) (g : Nat) (f : Seg → Seg) : (s.modSeg g f).ctxs = s.ctxs := rfl
@[simp] theorem State.openSeg_ctxs (s : State) (g n : Nat) : (s.openSeg g n).ctxs = s.ctxs := rfl
@[simp] theorem State.failSector_ctxs (s : State) (pa : Nat) : (s.failSector pa).ctxs = s.ctxs := rfl
@[simp] theorem State.flipHbm_ctxs (s : State) (w b : Nat) : (s.flipHbm w b).ctxs = s.ctxs := rfl
@[simp] theorem State.moveUpdate_ctxs (s : State) (u v : Update) : (s.moveUpdate u v).ctxs = s.ctxs := rfl

@[simp] theorem State.shipLater_ctxs (s : State) (xs : List OutItem) : (s.shipLater xs).ctxs = s.ctxs := by
  unfold State.shipLater
  split <;> rfl

/-- The summary, live mask and segment of a data block that is written (R250 to R253). -/
theorem State.summarise_ctxs (s : State) (b sum g : Nat) (m : Tab (BitVec 16)) (f : Seg → Seg) (xs : List OutItem) :
    ((({ (s.setSummary b sum) with masks := m } : State).modSeg g f).shipLater xs).ctxs = s.ctxs := State.shipLater_ctxs _ _

theorem State.eachSector_ctxs (s : State) (g : Nat → Nat) (xs : Tab Sector) :
    (s.each xs (fun s e => s.setHbmSector (g e.1) e.2)).ctxs = s.ctxs := by
  unfold State.each
  induction xs generalizing s with
  | nil => rfl
  | cons x xs ih =>
    rw [List.foldl_cons, ih]
    exact State.setHbmSector_ctxs _ _ _

@[simp] theorem State.writeBlock_ctxs (s : State) (b lg : Nat) (xs : Tab Sector) (a d : Bool) (n : Nat) :
    (s.writeBlock b lg xs a d n).ctxs = s.ctxs :=
  (State.summarise_ctxs _ _ _ _ _ _ _).trans (s.eachSector_ctxs (fun i => posAddr (16 * b + i)) xs)

@[simp] theorem State.takeBlock_ctxs (s : State) (g : Nat) : (s.takeBlock g).2.ctxs = s.ctxs := by
  unfold State.takeBlock
  simp only
  split <;> rfl

@[simp] theorem State.unref_ctxs (s : State) (p : Nat) : (s.unref p).ctxs = s.ctxs := by
  unfold State.unref
  simp only
  split
  · rfl
  · split <;> rfl

@[simp] theorem State.unrefSrc_ctxs (s : State) (x : SecSrc) : (s.unrefSrc x).ctxs = s.ctxs := by
  cases x with
  | log p => exact s.unref_ctxs p
  | comp b o => exact State.foldl_ctxs (fun _ _ => State.unref_ctxs _ _) _ s
  | zero => rfl
  | host a => rfl
  | lost => rfl

@[simp] theorem State.unstage_ctxs (s : State) (u : Update) : (s.unstage u).ctxs = s.ctxs := by
  unfold State.unstage
  simp only
  split <;> rfl

@[simp] theorem State.allocTable_ctxs (s : State) (n : Nat) : (s.allocTable n).2.ctxs = s.ctxs := by
  unfold State.allocTable
  split <;> rfl

@[simp] theorem State.cowRoot_ctxs (s : State) : s.cowRoot.ctxs = s.ctxs := by
  unfold State.cowRoot
  split
  · rfl
  · exact s.allocTable_ctxs _

@[simp] theorem State.cowBlock_ctxs (s : State) (lpn : Nat) : (s.cowBlock lpn).ctxs = s.ctxs := by
  unfold State.cowBlock
  simp only
  split
  · rfl
  · exact (State.allocTable_ctxs _ _).trans s.cowRoot_ctxs

@[simp] theorem State.modPage_ctxs (s : State) (lpn : Nat) (f : PageRec → PageRec) : (s.modPage lpn f).ctxs = s.ctxs := s.cowBlock_ctxs lpn

@[simp] theorem State.cowPage_ctxs (s : State) (lpn : Nat) : (s.cowPage lpn).ctxs = s.ctxs := by
  unfold State.cowPage
  simp only
  split
  · rfl
  · exact (State.modPage_ctxs _ lpn (fun p => { p with gen := s.gen, gtab := (s.allocTable gtabBytes).1 / 4096 })).trans (s.allocTable_ctxs _)

/-- A data block for the record writer or a stack takes a place of a segment, which may be opened for it. -/
theorem State.recordBlock_ctxs {s t : State} {b : Nat} (h : s.recordBlock = some (b, t)) : t.ctxs = s.ctxs := by
  unfold State.recordBlock at h
  simp only at h
  split at h
  · cases h; exact s.takeBlock_ctxs _
  · split at h
    · cases h
    · split at h
      · cases h
      · cases h; exact State.takeBlock_ctxs _ _

theorem State.stackBlock_ctxs {s t : State} {k b : Nat} (h : s.stackBlock k = some (b, t)) : t.ctxs = s.ctxs := by
  unfold State.stackBlock at h
  split at h
  · cases h; exact s.takeBlock_ctxs _
  · split at h
    · cases h
    · cases h; exact State.takeBlock_ctxs _ _

/-- What the armed injection of one core does to a sector that is read (R132). -/
def injectHbm (a : Nat) (r : State × List ErrRec) (c : Nat) : State × List ErrRec :=
  let k := r.1.core c
  let w := k.injAddr.toNat / 8
  let s := r.1.setCore c k.fired
  match k.injKind with
  | 0 => (s.flipHbm w k.injBit, r.2)
  | 1 => (s.failSector a, r.2 ++ [{ injRec 0 2 c (8 * w) with unit := hbmUnit a }])
  | _ => ({ s with hbm := flipBit s.hbm w k.injBit }, r.2)

theorem injectHbm_ctxs (a : Nat) (r : State × List ErrRec) (c : Nat) : (injectHbm a r c).1.ctxs = r.1.ctxs := by
  unfold injectHbm
  simp only
  split <;> rfl

theorem foldl_injectHbm_ctxs (a : Nat) (cs : List Nat) (r : State × List ErrRec) : (cs.foldl (injectHbm a) r).1.ctxs = r.1.ctxs := by
  induction cs generalizing r with
  | nil => rfl
  | cons c cs ih => exact (ih _).trans (injectHbm_ctxs a r c)

@[simp] theorem State.fireHbm_ctxs (s : State) (p : Nat) : (s.fireHbm p).1.ctxs = s.ctxs := by
  have hr := foldl_injectHbm_ctxs (posAddr p) (s.armedAt 0 (fun _ k => k.injAddr.toNat / 32 = posAddr p / 32)) (s, [])
  unfold State.fireHbm
  simp only
  split
  · exact hr
  · exact hr
  · exact hr

theorem State.consolidate_ctxs {s t : State} {lg : Nat} (h : s.consolidate lg = some t) : t.ctxs = s.ctxs := by
  unfold State.consolidate at h
  simp only at h
  split at h
  · cases h
  next hb =>
    cases h
    rw [State.foldl_ctxs (fun _ _ => State.unrefSrc_ctxs _ _), State.writeBlock_ctxs, State.stackBlock_ctxs hb]
    exact State.each_ctxs (f := fun (u : State) (e : Nat × Nat) => { (u.fireHbm e.2).1 with errDue := (u.fireHbm e.2).1.errDue ++ (u.fireHbm e.2).2 })
      (fun u e => u.fireHbm_ctxs e.2) s _

theorem State.setCommitted_ctxs {s t : State} {lsec p : Nat} (h : s.setCommitted lsec p = some t) : t.ctxs = s.ctxs := by
  unfold State.setCommitted at h
  simp only at h
  split at h
  · cases h; exact (State.unrefSrc_ctxs _ _).trans (s.cowPage_ctxs _)
  · split at h
    · cases h
    next hc =>
      split at h
      · cases h; exact (State.unrefSrc_ctxs _ _).trans ((State.consolidate_ctxs hc).trans (s.cowPage_ctxs _))
      · cases h

theorem State.rewriteUpdate_ctxs {s t : State} {u : Update} {q : HeldWrite} (h : s.rewriteUpdate u q = some t) : t.ctxs = s.ctxs := by
  unfold State.rewriteUpdate at h
  split at h
  · cases h; rfl
  · split at h
    · cases h
    next hb => cases h; simp only [State.unref_ctxs, State.unstage_ctxs, State.moveUpdate_ctxs, State.writeBlock_ctxs, State.recordBlock_ctxs hb]

theorem State.devGrain_ctxs {s t : State} {lg : Nat} {ps : List HeldWrite} {more : List Update} (h : s.devGrain lg ps more = some t) :
    t.ctxs = s.ctxs := by
  unfold State.devGrain at h
  split at h
  · cases h
  next hb =>
    simp only at h
    obtain ⟨u, hu, ht⟩ := Option.bind_eq_some_iff.1 h
    rw [optEach_ctxs (fun _ _ _ hx => optEach_ctxs (fun _ _ _ hy => State.rewriteUpdate_ctxs hy) hx) ht,
      optEach_ctxs (fun _ _ _ hx => State.setCommitted_ctxs hx) hu, State.writeBlock_ctxs, State.recordBlock_ctxs hb]

theorem State.devTogether_ctxs {s t : State} {ps : List HeldWrite} {more : List Update} (h : s.devTogether ps more = some t) :
    t.ctxs = s.ctxs := by
  unfold State.devTogether at h
  split at h
  · cases h
  · exact optEach_ctxs (fun _ _ _ hx => State.devGrain_ctxs hx) h

@[simp] theorem State.devPieces_ctxs (s : State) (ps : List HeldWrite) (more : List Update) : (s.devPieces ps more).ctxs = s.ctxs := by
  unfold State.devPieces
  simp only
  split
  · rfl
  · cases h : s.devTogether ps more with
    | none => rfl
    | some t => exact State.devTogether_ctxs h

@[simp] theorem State.devWriteL_ctxs (s : State) (a : Nat) (bs : List Byte) : (s.devWriteL a bs).ctxs = s.ctxs :=
  State.each_ctxs (fun _ _ => State.devPieces_ctxs _ _ _) s _

@[simp] theorem State.devWrite_ctxs (s : State) (ctx va : Nat) (bs : List Byte) : (s.devWrite ctx va bs).ctxs = s.ctxs := by
  unfold State.devWrite
  split
  · generalize List.foldl _ _ _ = ps
    induction ps with
    | nil => rfl
    | cons p ps ih =>
      rw [List.foldr_cons]
      split
      · rw [State.devWriteL_ctxs, ih]
      · exact ih
  · rfl

end Sys2Proof.Machine
end

/-! Taking an exception: the rewind of a fragment, its record and its suspension (R20, R44, R374 to R377). -/

section
namespace Sys2Proof.Machine

section Rewind
variable (s : State) (core sl : Nat) (all : BitVec 32) (retry : Bool)

/-- The machine once the fibres that rewound lanes spawned have ended (R20, R44). -/
def State.bereft : State :=
  if (s.crew core sl).spawnedBy all = 0 then s.modCrew core sl (fun w => w.dropLoads (all ||| (s.crew core sl).spawnedBy all))
  else (s.modCrew core sl (fun w => w.dropLoads (all ||| (s.crew core sl).spawnedBy all))).exitLanes core sl ((s.crew core sl).spawnedBy all)

/-- A fibre that is rewound to its restart point (R44). -/
def Fibre.rewound (f : Fibre) (units : Nat) (retry : Bool) : Fibre :=
  { f.noLatch with
    pc := f.restart + 4, rep := 0, pfx := {}, word := 0, wait := if f.wait.isTrap then f.wait else .none, since := 0, readyAt := units
    retry := f.retry || retry }

theorem Fibre.rewound_pc (f : Fibre) (units : Nat) (retry : Bool) : (f.rewound units retry).pc = f.restart + 4 := rfl

theorem State.fibre_bereft (l : Nat) :
    (((s.bereft core sl all).crew core sl).fibre l).restart = ((s.crew core sl).fibre l).restart
    ∧ (((s.crew core sl).spawnedBy all).getLsbD l = true → (((s.bereft core sl all).crew core sl).fibre l).st = .exited) := by
  unfold State.bereft
  split
  next h0 =>
    rw [State.crew_modCrew_same, h0]
    exact ⟨rfl, fun hl => by simp at hl⟩
  · rw [State.crew_exitLanes, State.crew_modCrew_same, Crew.fibre_without]
    have hsame : ((s.crew core sl).dropLoads (all ||| (s.crew core sl).spawnedBy all)).fibre l = (s.crew core sl).fibre l := rfl
    rw [hsame]
    refine ⟨?_, fun hl => ?_⟩
    · rw [(Fibre.settled_place _ _).2.1]
      split <;> rfl
    · rw [Fibre.settled_st, if_pos hl]
      rfl

/-- The pending grows of rewound lanes are gone (R191). -/
def State.ungrown : State :=
  if (s.core core).grows.any (fun r => r.slot = sl && r.lanes &&& all ≠ 0) then
    s.modCore core (fun k => { k with grows := k.grows.filter (fun r => !(r.slot = sl && r.lanes &&& all ≠ 0)) }) else s

/-- A crew whose lanes `m` of a fragment are rewound (R44, R402). -/
def Crew.setBack (w : Crew) (m : BitVec 32) : Crew :=
  let x := w.modLanes m (fun _ f => f.rewound w.units retry)
  { (x.countEv 6 1) with
    reti := x.reti - ((lanesOf m).map (fun l => (w.fibre l).since)).sum
    unit := x.unitApart all }

/-- The signatures of rewound lanes of a crew are gone (R217). -/
def State.unsigned (w : Crew) (m : BitVec 32) : State :=
  if sl < 32 then
    s.modGroup w.group (fun g => { g with cvs := Tab.mapVals {} (fun r : CvReg =>
      if r.owned && r.owner = w.no then { r with signed_ := r.signed_ &&& ~~~m } else r) g.cvs })
  else s

theorem State.rewind_eq : s.rewind core sl all retry =
    (((s.bereft core sl all).ungrown core sl all).setCrew core sl
        ((((s.bereft core sl all).ungrown core sl all).crew core sl).setBack all retry (all &&& ~~~((s.crew core sl).spawnedBy all)))).unsigned
      sl ((((s.bereft core sl all).ungrown core sl all).crew core sl).setBack all retry (all &&& ~~~((s.crew core sl).spawnedBy all)))
      (all &&& ~~~((s.crew core sl).spawnedBy all)) := rfl

theorem State.crew_unsigned (w : Crew) (m : BitVec 32) (k n : Nat) : (s.unsigned sl w m).crew k n = s.crew k n := by
  unfold State.unsigned
  split <;> rfl

theorem State.crew_ungrown (k n : Nat) : (s.ungrown core sl all).crew k n = s.crew k n := by
  unfold State.ungrown
  split
  · exact State.crew_modCore rfl k n
  · rfl

/-- The fibres of a crew after a rewind. -/
theorem State.fibre_rewind (l : Nat) :
    ((s.rewind core sl all retry).crew core sl).fibre l =
      if (all &&& ~~~((s.crew core sl).spawnedBy all)).getLsbD l
      then (((s.bereft core sl all).crew core sl).fibre l).rewound ((s.bereft core sl all).crew core sl).units retry
      else ((s.bereft core sl all).crew core sl).fibre l := by
  rw [State.rewind_eq, State.crew_unsigned, State.crew_setCrew_same, State.crew_ungrown]
  exact Crew.fibre_modLanes _ _ _ _

end Rewind

/-- The trap of a fragment in user mode (R375). -/
def State.trapOf (s : State) (c : Cur) (f : FaultInfo) : TrapReq :=
  { slot := c.slot, lanes := c.lanes &&& ~~~((s.cw c).spawnedBy c.lanes), frag := lowestLane c.lanes, prio := c.pfx.level, info := f, pc := c.pc
    word := c.word, rep := c.rep, parent := ((s.cw c).fibre (lowestLane c.lanes)).parent, sibs := (s.cw c).sibs c.lanes }

/-- The machine whose trapping fragment is rewound and suspended (R375). -/
def State.trapped (s : State) (c : Cur) : State :=
  (s.rewind c.core c.slot c.lanes false).modCrew c.core c.slot
    (fun w => w.modLanes (c.lanes &&& ~~~((s.cw c).spawnedBy c.lanes)) (fun _ g => { g with wait := .suspended }))

/-- The fault that a record gives, with the convergence register of a group-13 word (R372). -/
def Cur.named (c : Cur) (f : FaultInfo) : FaultInfo := { f with cv := if f.cause = 8 then f.cv else c.cvNo }

section Trap
variable {s : State} {c : Cur} {f : FaultInfo}

theorem State.takeFault_sys (h0 : f.lanes ≠ 0) (h6 : f.cause ≠ 6) (hs : (s.cw c).sys = true) :
    s.takeFault c f = s.failTrap c.core c.slot { c.named f with lanes := (s.cw c).visMask (c.named f).lanes } { s.faultCtx c with handler := true } := by
  have hs' : (s.crew c.core c.slot).sys = true := hs
  unfold State.takeFault
  simp only [if_neg h0, if_neg h6, hs', if_true]
  rfl

theorem State.takeFault_user (h0 : f.lanes ≠ 0) (h6 : f.cause ≠ 6) (hs : (s.cw c).sys = false) :
    s.takeFault c f = (s.trapped c).writeTrap c.core (s.trapOf c (c.named f)) := by
  have hs' : ¬ (s.crew c.core c.slot).sys = true := by rw [show (s.crew c.core c.slot).sys = false from hs]; decide
  unfold State.takeFault
  simp only [if_neg h0, if_neg h6, if_neg hs']
  rfl

/-- What the fibres of a trapping fragment and those that it spawned are left as (R20, R375). -/
theorem State.fibre_trapped (l : Nat) :
    (((s.cw c).spawnedBy c.lanes).getLsbD l = true → (((s.trapped c).crew c.core c.slot).fibre l).st = .exited)
    ∧ ((c.lanes &&& ~~~((s.cw c).spawnedBy c.lanes)).getLsbD l = true → (((s.trapped c).crew c.core c.slot).fibre l).wait = .suspended
      ∧ (((s.trapped c).crew c.core c.slot).fibre l).pc = ((s.cw c).fibre l).restart + 4
      ∧ (((s.trapped c).crew c.core c.slot).fibre l).l0 = none) := by
  obtain ⟨hre, hex⟩ := State.fibre_bereft s c.core c.slot c.lanes l
  unfold State.trapped
  rw [State.crew_modCrew_same, Crew.fibre_modLanes, State.fibre_rewind]
  have hw : s.cw c = s.crew c.core c.slot := rfl
  rw [hw]
  constructor
  · intro hk
    have hn : (c.lanes &&& ~~~((s.crew c.core c.slot).spawnedBy c.lanes)).getLsbD l = false := by
      rw [BitVec.getLsbD_and, BitVec.getLsbD_not, hk]; simp
    rw [hn, if_neg Bool.false_ne_true, if_neg Bool.false_ne_true]
    exact hex hk
  · intro hm
    rw [hm, if_pos rfl, if_pos rfl]
    dsimp only
    rw [Fibre.rewound_pc, hre]
    exact ⟨rfl, rfl, rfl⟩

end Trap

section Record
variable {s : State} {core : Nat} {t : TrapReq}

/-- The state whose record queue a trap has read (R374). -/
def State.recordRead (s : State) (core : Nat) (t : TrapReq) : State := s.touchRecord (s.crewCtx core t.slot)

/-- The context's part of the record that a trap writes (R379). -/
def State.trapRecord (s : State) (core : Nat) (t : TrapReq) : RecordCtx :=
  let w := s.crew core t.slot
  { s.recordCtx core t.slot with
    pc := t.pc, word := t.word, rep := t.rep, parent := t.parent.toNat, sibs := w.visMask t.sibs, frag := w.visible t.frag
    resume := (w.fibre (lowestLane t.lanes)).restart + 4, state := 1 }

/-- The fault of a trap by the visible lanes (R379). -/
def Crew.seen (w : Crew) (f : FaultInfo) : FaultInfo := { f with lanes := w.visMask f.lanes }

theorem State.writeTrap_full (h : (s.recordRead core t).recordSlot (s.crewCtx core t.slot) = .full) :
    s.writeTrap core t = ((s.recordRead core t).modCrew core t.slot (fun w => w.modLanes t.lanes (fun _ f => { f with wait := .recordSlot }))).modCore core
      (fun k => { k with traps := k.traps ++ [t] }) := by
  unfold State.recordRead at h
  unfold State.writeTrap
  simp only [h]
  rfl

theorem State.writeTrap_bad (h : (s.recordRead core t).recordSlot (s.crewCtx core t.slot) = .bad) :
    s.writeTrap core t = (s.recordRead core t).failTrap core t.slot (((s.recordRead core t).crew core t.slot).seen t.info)
      { (s.recordRead core t).trapRecord core t with unh := true, state := 0 } := by
  unfold State.recordRead at h
  unfold State.writeTrap
  simp only [h]
  rfl

/-- The machine whose trap has its record, before the handler is queued (R374, R375). -/
def State.recorded (u : State) (core ctx a i : Nat) (t : TrapReq) : State :=
  (((u.devWrite ctx a (recordBytes ((u.crew core t.slot).seen t.info) (u.trapRecord core t))).devWrite ctx ((u.ctx ctx).frptr.toNat + 8)
      (leBytes 4 ((i + 1) % 2 ^ 32))).dropRecord core ctx a).modCrew core t.slot (fun w => w.modLanes t.lanes (fun _ f =>
    { f with wait := .suspended, record := a, recNo := i, resumeAt := ((u.crew core t.slot).fibre (lowestLane t.lanes)).restart + 4 }))

theorem State.ctx_devWrite (s : State) (n va : Nat) (bs : List Byte) (k : Nat) : (s.devWrite n va bs).ctx k = s.ctx k := by
  unfold State.ctx
  rw [State.devWrite_ctxs]

theorem State.writeTrap_at {a i : Nat} (h : (s.recordRead core t).recordSlot (s.crewCtx core t.slot) = .at_ a i)
    (ht : ((s.recordRead core t).crew core t.slot).trmask.getLsbD 11 = false) :
    s.writeTrap core t = ((s.recordRead core t).recorded core (s.crewCtx core t.slot) a i t).modCore core (fun k => { k with handlers := k.handlers ++
      [{ slot := t.slot, record := a, index := i
         info := ((s.recordRead core t).recorded core (s.crewCtx core t.slot) a i t).crewinfo core t.slot
         group := ((s.recordRead core t).crew core t.slot).group, ctx := s.crewCtx core t.slot }] }) := by
  unfold State.recordRead at h ht
  unfold State.writeTrap
  simp only [h, ht, State.ctx_devWrite, Bool.false_eq_true, if_false]
  rfl

end Record

/-- Settles O31, by the rewind's effect on the fibres and the three answers of the record queue. -/
theorem exceptionEntry : Obligations.ExceptionEntry := by
  unfold Obligations.ExceptionEntry
  intro s c f0 h0 h6 w f rest t p ctx u res fv
  refine ⟨fun hs => ⟨_, rfl, rfl, rfl, State.takeFault_sys h0 h6 hs⟩, fun hs => ?_⟩
  have hx : s.takeFault c f0 = (s.trapped c).writeTrap c.core (s.trapOf c (c.named f0)) := State.takeFault_user h0 h6 hs
  refine ⟨fun l hl => (State.fibre_trapped l).1 hl, fun l hl => (State.fibre_trapped l).2 hl, fun hq => ?_, fun hq => ?_, fun a i hq => ?_⟩
  · rw [hx]
    exact State.writeTrap_full hq
  · refine ⟨_, ?_, hx.trans (State.writeTrap_bad hq)⟩
    rfl
  · refine ⟨u.trapRecord c.core t, u.recorded c.core ctx a i t, rfl, rfl, rfl, rfl, rfl, rfl, fun ht => ?_⟩
    rw [hx]
    exact State.writeTrap_at hq ht

end Sys2Proof.Machine
end

/-! Stores whose lanes all have a place and their claims (R294 to R297, R306 to R308). -/

section
namespace Sys2Proof.Machine

section Placed
variable {s : State} {c : Cur} {m : BitVec 32} {ea : Nat → Word} {pl : Nat → Place} {n : Nat} {plain : Bool} {acc : Acc}

/-- The accesses of lanes that all have a place. -/
theorem State.laneAccs_placed (hp : ∀ l, m.getLsbD l = true → s.placeOf c acc (ea l).toNat n plain = .ok (pl l)) :
    s.laneAccs c acc m ea n plain = (lanesOf m).map (fun l => { lane := l, va := ea l, res := .ok (pl l) }) := by
  unfold State.laneAccs
  refine List.map_congr_left fun l hl => ?_
  rw [hp l ((mem_lanesOf m l).1 hl)]

theorem accFaults_placed (ls : List Nat) :
    accFaults (ls.map (fun l => { lane := l, va := ea l, res := .ok (pl l) })) = [] := by
  unfold accFaults
  rw [List.filterMap_map]
  exact List.filterMap_eq_nil_iff.2 fun l _ => rfl

theorem accLanes_placed (m : BitVec 32) (ea : Nat → Word) (pl : Nat → Place) :
    accLanes ((lanesOf m).map (fun l => { lane := l, va := ea l, res := .ok (pl l) })) = placedLanes m ea pl := by
  unfold accLanes placedLanes
  rw [List.filterMap_map]
  exact congrFun List.filterMap_eq_map (lanesOf m)

/-- The machine whose fragment has no claim that it waits for (R281). -/
def State.claimless (s : State) (c : Cur) : State :=
  s.modCluster (clusterOf c.core) (fun q => { q with claims := q.claims.filter (fun r => !(r.core = c.core && r.slot = c.slot && !r.retry)) })

/-- Accesses that all have a place and their claims find no fault (R281, R297). -/
theorem State.withClaims_held {ls : List Nat} (k : State → List (Nat × FaultInfo) → State)
    (h : ∀ l ∈ ls, ∀ q ∈ s.storeGrains c { lane := l, va := ea l, res := .ok (pl l) } n,
      s.claimHeld (clusterOf c.core) q.1 (s.crewTag c.core c.slot) = true) :
    s.withClaims c (ls.map (fun l => { lane := l, va := ea l, res := .ok (pl l) })) n k = k (s.claimless c) [] := by
  have hneed : ((((ls.map (fun l => ({ lane := l, va := ea l, res := .ok (pl l) } : LaneAcc))).flatMap
      (fun x => s.storeGrains c x n)).map Prod.fst).eraseDups).filter (fun g => !s.claimHeld (clusterOf c.core) g (s.crewTag c.core c.slot)) = [] := by
    rw [List.filter_eq_nil_iff]
    intro g hg
    obtain ⟨q, hq, rfl⟩ := List.mem_map.1 (List.mem_eraseDups.1 hg)
    obtain ⟨x, hx, hqx⟩ := List.mem_flatMap.1 hq
    obtain ⟨l, hl, rfl⟩ := List.mem_map.1 hx
    simp [h l hl q hqx]
  unfold State.withClaims
  simp only [hneed, List.all_nil, if_true, accFaults_placed, List.find?_nil]
  refine congrArg (k (s.claimless c)) (List.filterMap_eq_nil_iff.2 fun x _ => ?_)
  rw [List.find?_eq_none.2 (fun g _ => by simp)]

/-- The stores of some lanes that have a place. -/
def State.placedStores (s : State) (c : Cur) (m : BitVec 32) (ea : Nat → Word) (pl : Nat → Place) (data : Nat → List Byte) : List LaneStore :=
  (lanesOf m).map (fun l => { at_ := { lane := l, va := (ea l).toNat, place := pl l }, data := data l, regaddr := ((s.cw c).fibre l).restart.toNat })

/-- What a store that nothing holds back does (R306, R401). -/
def State.stored (s : State) (c : Cur) (ps : List PLane) (n : Nat) (st : List LaneStore) : State :=
  ((((s.claimless c).tlbFills c ps).countBanks c ps n).doStores c.core c.slot st).retire c {}

theorem State.storeLanes_placed {data : Nat → List Byte} {fl : BitVec 32}
    (hp : ∀ l, m.getLsbD l = true → s.placeOf c .store (ea l).toNat n plain = .ok (pl l)
      ∧ ∀ q ∈ s.storeGrains c { lane := l, va := ea l, res := .ok (pl l) } n, s.claimHeld (clusterOf c.core) q.1 (s.crewTag c.core c.slot) = true)
    (hf : s.mustFollow c .store (placedLanes m ea pl) n = []) (hw : s.writeBlocked (s.placedStores c m ea pl data) = none)
    (hm : s.storeMoves c (s.placedStores c m ea pl data) = []) (hx : s.mixedFollow c (placedLanes m ea pl) n = [])
    (hcl : (s.cw c).ackCl + (storeCounts (s.placedStores c m ea pl data)).1 ≤ 65535)
    (hsy : (s.cw c).ackSy + (storeCounts (s.placedStores c m ea pl data)).2 ≤ 4095) :
    s.storeLanes c (s.laneAccs c .store m ea n plain) n data fl = s.stored c (placedLanes m ea pl) n (s.placedStores c m ea pl data) := by
  have hst : (placedLanes m ea pl).map (fun p => ({ at_ := p, data := data p.lane, regaddr := (((s.claimless c).cw c).fibre p.lane).restart.toNat } : LaneStore))
      = s.placedStores c m ea pl data := by
    unfold placedLanes State.placedStores
    rw [List.map_map]
    rfl
  have hw' : (s.claimless c).writeBlocked (s.placedStores c m ea pl data) = none := hw
  have hm' : (s.claimless c).storeMoves c (s.placedStores c m ea pl data) = [] := hm
  have hx' : (s.claimless c).mixedFollow c (placedLanes m ea pl) n = [] := hx
  have hroom : ¬ (65535 < ((s.claimless c).cw c).ackCl + (storeCounts (s.placedStores c m ea pl data)).1
      ∨ 4095 < ((s.claimless c).cw c).ackSy + (storeCounts (s.placedStores c m ea pl data)).2) := by
    show ¬ (65535 < (s.cw c).ackCl + _ ∨ 4095 < (s.cw c).ackSy + _)
    omega
  unfold State.storeLanes State.ordered
  rw [State.laneAccs_placed (fun l hl => (hp l hl).1), accLanes_placed, hf,
    State.withClaims_held _ (fun l hl => (hp l ((mem_lanesOf m l).1 hl)).2)]
  simp only [pickFault, hst, hw', hm', hx', Bool.or_eq_true, decide_eq_true_eq, if_neg hroom]
  rfl

end Placed

/-- Lanes that read no poison. -/
theorem State.poisonLanes_zero {s : State} {c : Cur} {m : BitVec 32} {xs : Nat → List Src} (h : s.anyPoison c m xs = false) :
    s.poisonLanes c m xs = 0 := by
  unfold State.poisonLanes
  have hn : (lanesOf m).filter (fun l => (xs l).any (fun x => ((s.cw c).rd l x).poison)) = [] := by
    rw [List.filter_eq_nil_iff]
    exact fun l hl => List.any_eq_false.1 h l hl
  rw [hn]
  rfl

section Vector
variable {s : State} {c : Cur} {r : Roles} {us : List Use} {m : BitVec 32} {xs : Nat → List Src} {pr : Bool}

/-- The operands of a store of a fragment that may act are read without a check that fails. -/
theorem State.readsStore_ready (h : s.Ready c r false us pr m xs) (accs : BitVec 32 → List LaneAcc) (n : Nat) (k : State) :
    s.readsStore c pr m xs accs n k = k := by
  unfold State.readsStore
  rw [State.poisonLanes_zero h.2.2.2.2.2.2, if_pos (by simp), State.reads_ready h]

/-- A vector store of a fragment that may act, its pairs agreeing (R48, R306). -/
theorem State.vstore_ready {g : BitVec 3} {a : Src} {off : Word} {d : BitVec 6} {n : Nat} {plain : Bool}
    (h : s.Ready c .any false (srcUse a :: .v d.toNat :: (if n = 16 then [.v (d.toNat + 1)] else [])) (g ≠ 0) (s.act c g)
      (fun _ => a :: (if n = 16 then [.v d, .v (d + 1)] else [.v d])))
    (hp : s.pairsDiffer c (s.act c g) (fun l => ((s.cw c).val l a + off) ::
      (if n = 16 then [.v d, .v (d + 1)] else [.v d] : List Src).map ((s.cw c).val l)) = false) :
    s.vstore c g a off d n plain = s.storeLanes c (s.laneAccs c .store ((s.cw c).primaries (s.act c g)) (fun l => (s.cw c).val l a + off) n plain) n
      (fun l => if n = 16 then leBytes 8 ((s.cw c).val l (.v d)).toNat ++ leBytes 8 ((s.cw c).val l (.v (d + 1))).toNat
        else leBytes n ((s.cw c).val l (.v d)).toNat) 0 := by
  unfold State.vstore
  simp only
  rw [State.gate_ready h, State.readsStore_ready h, if_neg (by rw [hp]; exact Bool.false_ne_true)]
  congr 1
  funext l
  split
  · simp
  · rfl

end Vector

/-- The plain stores by their size (R306). -/
theorem exec_storeRule {p : (OpM → Instr) × Nat}
    (hp : p ∈ ([(.stB, 1), (.stH, 2), (.stW, 4), (.stD, 8), (.stQ, 16)] : List ((OpM → Instr) × Nat))) (o : OpM) (s : State) :
    exec (p.1 o) s = s.run (fun c => s.vstore c o.g (c.srcA o.a) (offM o.off p.2) (c.dst o.d) p.2 true) := by
  simp only [List.mem_cons, List.not_mem_nil, or_false] at hp
  rcases hp with rfl | rfl | rfl | rfl | rfl
  · rfl
  · rfl
  · rfl
  · rfl
  · rfl

section Single
variable {s : State} {c : Cur}

/-- One lane alone is not performed together with another (R269). -/
theorem State.mixedFollow_one (p : PLane) (n : Nat) : s.mixedFollow c [p] n = [] := by
  have hn : s.mixedLane c.core p n [p] = false := by
    unfold State.mixedLane
    cases p.place with
    | pad g off => cases hi : p.inPlace <;> simp [hi]
    | mem l a x => rfl
    | die off => rfl
    | peer q a => rfl
  unfold State.mixedFollow
  simp [hn]

theorem lanesOf_maskOf_one {l : Nat} (h : l < 32) : lanesOf (maskOf [l]) = [l] := by
  have hall : ∀ l : Fin 32, lanesOf (maskOf [l.val]) = [l.val] := by decide
  exact hall ⟨l, h⟩

/-- STU.D of a fragment that may act and whose pairs agree (R307). -/
theorem exec_stuD {o : OpMU} (h : s.Ready c .any false [srcUse (c.srcA o.a), .s (c.dst o.d).toNat] (o.g ≠ 0) (s.act c o.g)
      (fun _ => [c.srcA o.a, .s (c.dst o.d)])) (hd : s.pairsDiffer c (s.act c o.g) (fun _ => []) = false) :
    exec (.stuD o) s = .next (if s.act c o.g = 0 then s.retire c {}
      else s.storeLanes c (s.laneAccs c .store (maskOf [lowestLane (s.act c o.g)]) (fun _ => s.uval c (c.srcA o.a) + offM o.off 8) 8 false) 8
        (fun _ => leBytes 8 ((s.cw c).sreg (c.dst o.d).toNat).val.toNat) (s.act c o.g)) := by
  have hx : exec (.stuD o) s = execStuD o s := rfl
  rw [hx, execStuD, State.run_cur h.1]
  simp only
  rw [State.gate_ready h, State.reads_ready h, if_neg (by rw [hd]; exact Bool.false_ne_true)]

/-- STL.D before its store (R308). -/
theorem exec_stlD {o : OpMS} {pr : Bool} {m : BitVec 32} {xs : Nat → List Src}
    (h : s.Ready c .any false [srcUse (c.srcA o.a), .v (c.dst o.d).toNat] pr m xs) :
    (s.act c o.g ≠ 0 → (s.cw c).fenceWaits (o.scope.toNat + 1) = true → exec (.stlD o) s = .next (s.hold c (.fence (o.scope.toNat + 1))))
    ∧ (s.act c o.g = 0 ∨ (s.cw c).fenceWaits (o.scope.toNat + 1) = false ∧ (o.scope = 0 ∨ (s.cw c).impr = []) →
      exec (.stlD o) s = .next (s.vstore c o.g (c.srcA o.a) 0 (c.dst o.d) 8 false)) := by
  have hx : exec (.stlD o) s = execStlD o s := rfl
  rw [hx, execStlD, State.run_cur h.1]
  simp only
  rw [State.gate_ready h]
  have hc : s.crew c.core c.slot = s.cw c := rfl
  constructor
  · intro h0 hw
    rw [if_neg h0, State.fenced, hc, if_pos hw]
  · rintro (h0 | ⟨hw, hd⟩)
    · rw [if_pos h0]
    · have hgo : (if o.scope.toNat = 0 then s.vstore c o.g (c.srcA o.a) 0 (c.dst o.d) 8 false
          else s.deliver c (s.vstore c o.g (c.srcA o.a) 0 (c.dst o.d) 8 false)) = s.vstore c o.g (c.srcA o.a) 0 (c.dst o.d) 8 false := by
        rcases hd with hs | hi
        · rw [hs]; rfl
        · rw [State.deliver, hc, hi]; exact ite_self _
      simp only [hgo, State.fenced, hc, hw, Bool.false_eq_true, if_false, ite_self]

end Single

/-- Settles O36, by the checks that pass and the lanes that all have a place and their claims. -/
theorem storesIssue : Obligations.StoresIssue := by
  unfold Obligations.StoresIssue
  refine ⟨?_, ?_, ?_⟩
  · intro p hp o s c pl a d m n ea bytes ds st h hd hpl hf hw hm hx hcl hsy
    refine ⟨_, rfl, ?_⟩
    have hgo : s.vstore c o.g a (offM o.off n) d n true = s.stored c (placedLanes m ea pl) n st :=
      (State.vstore_ready h hd).trans (State.storeLanes_placed hpl hf hw hm hx hcl hsy)
    rw [exec_storeRule hp, State.run_cur h.1]
    exact congrArg _ hgo
  · intro o s c pl a d m ea q st h hd
    rw [exec_stuD h hd]
    refine ⟨fun h0 => ?_, fun h0 hpl hcl hf hw hm hcl' hsy => ⟨_, rfl, ?_⟩⟩
    · rw [if_pos h0]
      exact ⟨_, rfl, s.retire_done c {} rfl rfl rfl⟩
    · have hl : lanesOf (maskOf [lowestLane m]) = [lowestLane m] := lanesOf_maskOf_one (lt_of_getLsbD (getLsbD_lowestLane h0))
      have hq : placedLanes (maskOf [lowestLane m]) (fun _ => ea) (fun _ => pl) = [q] := by unfold placedLanes; rw [hl]; rfl
      have hst : s.placedStores c (maskOf [lowestLane m]) (fun _ => ea) (fun _ => pl) (fun _ => leBytes 8 ((s.cw c).sreg d.toNat).val.toNat) = st := by
        unfold State.placedStores
        rw [hl]
        rfl
      have hone : ∀ l, (maskOf [lowestLane m]).getLsbD l = true → l = lowestLane m := fun l hm => by
        rw [← mem_lanesOf, hl] at hm
        exact List.mem_singleton.1 hm
      rw [if_neg h0]
      refine congrArg _ ((State.storeLanes_placed (pl := fun _ => pl) (ea := fun _ => ea) (fun l hl => ⟨hpl, ?_⟩) (by rw [hq]; exact hf) (by rw [hst]; exact hw)
        (by rw [hst]; exact hm) (by rw [hq]; exact State.mixedFollow_one _ _) (by rw [hst]; exact hcl') (by rw [hst]; exact hsy)).trans ?_)
      · rw [hone l hl]
        exact hcl
      · rw [hq, hst]
        rfl
  · intro o s c a d h0
    obtain ⟨hwait, hgo⟩ := exec_stlD (o := o) h0
    refine ⟨hwait, hgo, ?_⟩
    intro pl m ea st h hgo' hd hpl hf hw hm hx hcl hsy
    refine ⟨_, rfl, ?_⟩
    have hz : (fun l => (s.cw c).val l a + 0) = ea := by
      funext l
      exact BitVec.add_zero _
    have hready := State.vstore_ready (plain := false) (off := 0) (n := 8) (g := o.g) (a := a) (d := d) h
      (by rw [show (fun l => ((s.cw c).val l a + 0) :: _) = fun l => [ea l, (s.cw c).val l (.v d)] from by
            funext l; rw [← hz]; rfl]
          exact hd)
    rw [hz] at hready
    rw [hgo hgo']
    exact congrArg _ (hready.trans (State.storeLanes_placed hpl hf hw hm hx hcl hsy))

end Sys2Proof.Machine
end

/-! Writes of scratchpad bytes: what they leave of the pool, the checksums of tiles, and the rest of the machine (R85, R239, R243, R260). -/

section
namespace Sys2Proof.Machine

theorem length_leBytes (n v : Nat) : (leBytes n v).length = n := by
  induction n generalizing v with
  | zero => rfl
  | succ n ih => exact congrArg (· + 1) (ih _)

/-- A fold of steps none of which changes a byte. -/
theorem foldl_read {α : Type} {f : Memory → α → Memory} {x : Nat} (ls : List α) (hf : ∀ a ∈ ls, ∀ m, (f m a).read x = m.read x) (m : Memory) :
    (ls.foldl f m).read x = m.read x := by
  induction ls generalizing m with
  | nil => rfl
  | cons a ls ih => rw [List.foldl_cons, ih (fun b hb => hf b (List.mem_cons_of_mem _ hb)), hf a List.mem_cons_self]

theorem read_addSum (p : Tab Bool) (m : Memory) (a : Nat) (d : Int) {x : Nat} (h : x < a ∨ a + 4 ≤ x) : (addSum p m a d).read x = m.read x := by
  unfold addSum
  split
  · rfl
  · rw [Memory.read_writeBytes, length_leBytes, if_neg (by omega)]

/-- A slot's checksums lie in bytes 4096 to 4351 of it (R85, R124). -/
theorem read_slotDelta (p : Tab Bool) (old new : Memory) (base z lo hi : Nat) (hz : 0 < z) {x : Nat} (h : x < base + 4096 ∨ base + 4352 ≤ x) :
    (slotDelta p old new base z lo hi).read x = new.read x := by
  unfold slotDelta
  simp only
  refine foldl_read _ (fun i hi' m => ?_) new
  have htop : ((if hi < 1024 * z then hi else 1024 * z) + z - 1) / z ≤ 1024 := by
    rw [Nat.div_le_iff_le_mul hz]
    split <;> omega
  have he : lo / z + i < 1024 := by
    have := List.mem_range.1 hi'
    omega
  split
  · rfl
  · rw [read_addSum _ _ _ _ (by omega), read_addSum _ _ _ _ (by omega)]

theorem length_sramFill (p : Tab Bool) (a : Nat) (bs : List Byte) : (sramFill p a bs).length = bs.length := by
  simp [sramFill]

/-- A byte outside those written and outside the checksums of the slots. -/
theorem read_slotsWrite (p : Tab Bool) (m : Memory) (base n : Nat) (z : Nat → Nat) (off : Nat) (bs : List Byte) (hz : ∀ k, 0 < z k) {x : Nat}
    (h : x < base + off ∨ base + off + bs.length ≤ x) (hs : ∀ k, k < n → x < base + 4480 * k + 4096 ∨ base + 4480 * k + 4352 ≤ x) :
    (slotsWrite p m base 4480 n z off bs).read x = m.read x := by
  unfold slotsWrite
  simp only
  rw [foldl_read, Memory.read_writeBytes, length_sramFill, if_neg (by omega)]
  intro i _ acc
  split
  next hk =>
    have := hs _ hk
    exact read_slotDelta _ _ _ _ _ _ _ (hz _) (by omega)
  · rfl

/-- Storage without slots has no checksums. -/
theorem slotsWrite_zero (p : Tab Bool) (m : Memory) (base size : Nat) (z : Nat → Nat) (off : Nat) (bs : List Byte) :
    slotsWrite p m base size 0 z off bs = m.writeBytes (base + off) (sramFill p (base + off) bs) := by
  unfold slotsWrite
  simp only
  generalize List.range _ = ls
  generalize m.writeBytes _ _ = m'
  induction ls with
  | nil => rfl
  | cons i ls ih => simp

theorem tileZ_pos (f : Nat) : 0 < tileZ f := by
  unfold tileZ
  split
  · decide
  · split <;> decide

/-- A write of bytes poisons no word. -/
theorem get_sramClean (p : Tab Bool) (a n w : Nat) (h : Tab.get p false w = false) : Tab.get (sramClean p a n) false w = false := by
  unfold sramClean
  generalize wordsOf a n = ws
  induction ws generalizing p with
  | nil => exact h
  | cons v ws ih =>
    rw [List.foldl_cons]
    refine ih _ ?_
    split
    · rw [Tab.get_set]
      split
      · rfl
      · exact h
    · exact h

theorem getD_sramFill (p : Tab Bool) (a : Nat) (bs : List Byte) {i : Nat} (hi : i < bs.length) (hp : Tab.get p false ((a + i) / 8) = false) :
    (sramFill p a bs).getD i 0 = bs.getD i 0 := by
  unfold sramFill
  rw [List.getD_eq_getElem?_getD, List.getD_eq_getElem?_getD]
  simp [hi, hp]

/-- Writes of bytes into a group's partition, one after the other. -/
def State.padWrites (s : State) (g : Nat) (ws : List (Nat × List Byte)) : State := ws.foldl (fun s e => s.padWrite g e.1 e.2) s

/-- What writes into a group's partition leave: the pool of one core, its poison and its barrier tags apart, everything. -/
structure State.PadOnly (s t : State) (g : Nat) : Prop where
  rest : t = { s with cores := t.cores }
  slots : ∀ j, (t.core j).slots = (s.core j).slots
  die : ∀ j, (t.core j).die = (s.core j).die
  pool : ∀ j, j ≠ (s.group g).core → (t.core j).pool = (s.core j).pool
  clean : ∀ w, Tab.get (s.core (s.group g).core).poolPoison false w = false → Tab.get (t.core (s.group g).core).poolPoison false w = false

section Writes
variable {s t : State} {g : Nat}

theorem State.PadOnly.group (h : s.PadOnly t g) (k : Nat) : t.group k = s.group k := by
  obtain ⟨cs, rfl⟩ : ∃ cs, t = { s with cores := cs } := ⟨_, h.rest⟩
  rfl

theorem State.PadOnly.crew (h : s.PadOnly t g) (k sl : Nat) : t.crew k sl = s.crew k sl := by
  unfold State.crew State.crew?
  rw [h.slots]

theorem State.PadOnly.memories (h : s.PadOnly t g) : t.hbm = s.hbm ∧ t.host = s.host := by
  obtain ⟨cs, rfl⟩ : ∃ cs, t = { s with cores := cs } := ⟨_, h.rest⟩
  exact ⟨rfl, rfl⟩

theorem State.PadOnly.trans {u : State} (h : s.PadOnly t g) (h' : t.PadOnly u g) : s.PadOnly u g where
  rest := by
    obtain ⟨cs, rfl⟩ : ∃ cs, t = { s with cores := cs } := ⟨_, h.rest⟩
    exact h'.rest
  slots j := (h'.slots j).trans (h.slots j)
  die j := (h'.die j).trans (h.die j)
  pool j hj := (h'.pool j (by rw [h.group]; exact hj)).trans (h.pool j hj)
  clean w hw := by
    have := h'.clean w
    rw [h.group] at this
    exact this (h.clean w hw)

theorem State.PadOnly.refl (s : State) (g : Nat) : s.PadOnly s g := ⟨rfl, fun _ => rfl, fun _ => rfl, fun _ _ => rfl, fun _ h => h⟩

theorem State.core_padWrite (s : State) (g off : Nat) (bs : List Byte) (j : Nat) :
    (s.padWrite g off bs).core j = if j = (s.group g).core then
      { s.core j with
        pool := slotsWrite (s.core j).poolPoison (s.core j).pool (s.group g).padBase 4480 (s.group g).tiles
          (fun t => tileZ (descFmt ((s.group g).desc t))) off bs
        poolPoison := sramClean (s.core j).poolPoison ((s.group g).padBase + off) bs.length
        btags := (wordsOf ((s.group g).padBase + off) bs.length).foldl (fun t w => Tab.set t false w false) (s.core j).btags }
      else s.core j := by
  unfold State.padWrite
  rw [State.core_modCore]
  split
  next h => subst h; rfl
  · rfl

theorem State.padOnly_padWrite (s : State) (g off : Nat) (bs : List Byte) : s.PadOnly (s.padWrite g off bs) g where
  rest := rfl
  slots j := by rw [State.core_padWrite]; split <;> rfl
  die j := by rw [State.core_padWrite]; split <;> rfl
  pool j hj := by rw [State.core_padWrite, if_neg hj]
  clean w hw := by rw [State.core_padWrite, if_pos rfl]; exact get_sramClean _ _ _ _ hw

theorem State.padOnly_padWrites (s : State) (g : Nat) (ws : List (Nat × List Byte)) : s.PadOnly (s.padWrites g ws) g := by
  induction ws generalizing s with
  | nil => exact State.PadOnly.refl s g
  | cons e ws ih => exact (s.padOnly_padWrite g e.1 e.2).trans (ih _)

/-- A byte of the pool that no write names, outside the checksums of the group's tiles (R243). -/
theorem State.read_padWrites (s : State) (g : Nat) (ws : List (Nat × List Byte)) {x : Nat}
    (h : ∀ e ∈ ws, x < (s.group g).padBase + e.1 ∨ (s.group g).padBase + e.1 + e.2.length ≤ x)
    (hs : ∀ k, k < (s.group g).tiles → x < (s.group g).padBase + 4480 * k + 4096 ∨ (s.group g).padBase + 4480 * k + 4352 ≤ x) :
    ((s.padWrites g ws).core (s.group g).core).pool.read x = (s.core (s.group g).core).pool.read x := by
  induction ws generalizing s with
  | nil => rfl
  | cons e ws ih =>
    have hg := (s.padOnly_padWrite g e.1 e.2).group g
    have := ih (s.padWrite g e.1 e.2) (by rw [hg]; exact fun e' he => h e' (List.mem_cons_of_mem _ he)) (by rw [hg]; exact hs)
    rw [hg] at this
    refine this.trans ?_
    rw [State.core_padWrite, if_pos rfl]
    dsimp only
    exact read_slotsWrite _ _ _ _ _ _ _ (fun _ => tileZ_pos _) (h e List.mem_cons_self) hs

/-- The bytes of a write after which no other names them, in a group without tiles, where the word is not poisoned (R260). -/
theorem State.read_padWrites_last (s : State) (g : Nat) (ws vs : List (Nat × List Byte)) (e : Nat × List Byte) {b : Nat} (ht : (s.group g).tiles = 0)
    (hb : b < e.2.length) (hp : Tab.get (s.core (s.group g).core).poolPoison false (((s.group g).padBase + e.1 + b) / 8) = false)
    (hv : ∀ e' ∈ vs, e.1 + b < e'.1 ∨ e'.1 + e'.2.length ≤ e.1 + b) :
    ((s.padWrites g (ws ++ e :: vs)).core (s.group g).core).pool.read ((s.group g).padBase + e.1 + b) = e.2.getD b 0 := by
  have hw := s.padOnly_padWrites g ws
  have he := hw.trans ((s.padWrites g ws).padOnly_padWrite g e.1 e.2)
  have hsplit : s.padWrites g (ws ++ e :: vs) = ((s.padWrites g ws).padWrite g e.1 e.2).padWrites g vs := by
    unfold State.padWrites
    rw [List.foldl_append, List.foldl_cons]
  have hlast := ((s.padWrites g ws).padWrite g e.1 e.2).read_padWrites g vs (x := (s.group g).padBase + e.1 + b)
    (fun e' h' => by have := hv e' h'; rw [he.group]; omega) (fun k hk => by rw [he.group, ht] at hk; omega)
  rw [he.group] at hlast
  rw [hsplit, hlast]
  have hc := State.core_padWrite (s.padWrites g ws) g e.1 e.2 (s.group g).core
  rw [hw.group, if_pos rfl, ht, slotsWrite_zero] at hc
  rw [hc]
  dsimp only
  rw [Memory.read_writeBytes, length_sramFill, if_pos (by omega), show (s.group g).padBase + e.1 + b - ((s.group g).padBase + e.1) = b by omega]
  exact getD_sramFill _ _ _ hb (hw.clean _ hp)

end Writes

end Sys2Proof.Machine
end

/-! MLD and MST: the elements of lane matrices in the scratchpad (R196, R199, R243). -/

section
namespace Sys2Proof.Machine

theorem Crew.mel_setMel (w : Crew) (k l q k' l' q' : Nat) (e : Elem) (hl : l < 32) (hq : q < 36) (hl' : l' < 32) (hq' : q' < 36) :
    (w.setMel k l q e).mel k' l' q' = if k' = k ∧ l' = l ∧ q' = q then e else w.mel k' l' q' := by
  have hkey : mkey k' l' q' = mkey k l q ↔ k' = k ∧ l' = l ∧ q' = q := by
    unfold mkey
    omega
  unfold Crew.mel Crew.setMel
  rw [Tab.get_set]
  simp only [hkey]

/-- Elements of one lane of a lane-matrix register, written in turn. -/
def Crew.setMels (w : Crew) (k l : Nat) (es : List (Nat × Elem)) : Crew := es.foldl (fun w e => w.setMel k l e.1 e.2) w

theorem Crew.setMels_eq (w : Crew) (k l : Nat) (es : List (Nat × Elem)) : w.setMels k l es = { w with m := (w.setMels k l es).m } := by
  unfold Crew.setMels
  induction es generalizing w with
  | nil => rfl
  | cons e es ih => exact ih _

/-- Another register, another lane. -/
theorem Crew.mel_setMels_other (w : Crew) {k l k' l' q : Nat} {es : List (Nat × Elem)} (hes : ∀ e ∈ es, e.1 < 36) (hl : l < 32) (hl' : l' < 32)
    (hq : q < 36) (h : ¬ (k' = k ∧ l' = l)) : (w.setMels k l es).mel k' l' q = w.mel k' l' q := by
  unfold Crew.setMels
  induction es generalizing w with
  | nil => rfl
  | cons e es ih =>
    rw [List.foldl_cons, ih _ (fun e' he => hes e' (List.mem_cons_of_mem _ he)),
      Crew.mel_setMel _ _ _ _ _ _ _ _ hl (hes e List.mem_cons_self) hl' hq, if_neg (fun hh => h ⟨hh.1, hh.2.1⟩)]

/-- A position that is written holds what all writes of it agree on. -/
theorem Crew.mel_setMels (w : Crew) {k l q : Nat} {v : Elem} {es : List (Nat × Elem)} (hes : ∀ e ∈ es, e.1 < 36) (hl : l < 32) (hq : q < 36)
    (hv : ∀ e ∈ es, e.1 = q → e.2 = v) : (w.setMels k l es).mel k l q = if q ∈ es.map Prod.fst then v else w.mel k l q := by
  unfold Crew.setMels
  induction es generalizing w with
  | nil => simp
  | cons e es ih =>
    rw [List.foldl_cons, ih _ (fun e' he => hes e' (List.mem_cons_of_mem _ he)) (fun e' he => hv e' (List.mem_cons_of_mem _ he)),
      Crew.mel_setMel _ _ _ _ _ _ _ _ hl (hes e List.mem_cons_self) hl hq]
    by_cases hq' : q = e.1
    · simp [hq', hv e List.mem_cons_self hq'.symm]
    · simp only [List.map_cons, List.mem_cons, hq', and_false, if_false, false_or]

theorem mem_cells (r c : Nat) (e : Nat × Nat) : e ∈ cells r c ↔ e.1 < r ∧ e.2 < c := by
  obtain ⟨i, j⟩ := e
  simp [cells]

section Addresses
variable {s : State} {c : Cur} {o : OpMl} {m : BitVec 32}

/-- The step of a row, or of a column (R199). -/
def Crew.mlStep (w : Crew) (o : OpMl) (l : Nat) : Nat :=
  if o.stride = 0 then (if o.xp then (w.mview o.d l).r else (w.mview o.d l).c) else o.stride.toNat

/-- The address of element (i, j) of MD in a lane (R199). -/
def Crew.mlEa (w : Crew) (o : OpMl) (l i j : Nat) : Word :=
  w.val l o.a + BitVec.ofNat 64 (w.mz o.d l * (if o.xp then j * w.mlStep o l + i else i * w.mlStep o l + j))

theorem Crew.mlAddrs_eq (w : Crew) (o : OpMl) (l : Nat) :
    w.mlAddrs o l = (cells (w.mview o.d l).r (w.mview o.d l).c).map (fun e => (6 * e.1 + e.2, w.mlEa o l e.1 e.2)) := rfl

/-- Elements that are aligned, lie in the partition and, for a store, are not blocked, have no fault (R199, R244). -/
theorem State.mlFaults_nil {st : Bool} {off : Nat → Nat → Nat → Nat}
    (h : ∀ l i j, m.getLsbD l = true → i < ((s.cw c).mview o.d l).r ∧ j < ((s.cw c).mview o.d l).c →
      ((s.cw c).mlEa o l i j).toNat % (s.cw c).mz o.d l = 0 ∧ s.ownPad c ((s.cw c).mlEa o l i j).toNat = some (off l i j))
    (hb : st = true → ∀ l i j, m.getLsbD l = true → i < ((s.cw c).mview o.d l).r ∧ j < ((s.cw c).mview o.d l).c →
      s.tagBlocked (s.cw c).group (off l i j) ((s.cw c).mz o.d l) = false) :
    s.mlFaults c o m st = [] := by
  unfold State.mlFaults
  refine List.flatMap_eq_nil_iff.2 fun l hl => List.filterMap_eq_nil_iff.2 fun e he => ?_
  rw [Crew.mlAddrs_eq] at he
  obtain ⟨⟨i, j⟩, hc, rfl⟩ := List.mem_map.1 he
  have hl' := (mem_lanesOf m l).1 hl
  have hij := (mem_cells _ _ _).1 hc
  obtain ⟨ha, hp⟩ := h l i j hl' hij
  simp only [ha, hp, ne_eq, not_true_eq_false, if_false]
  cases st with
  | false => rfl
  | true => rw [hb rfl l i j hl' hij]; rfl

/-- The machine with an event counter of bank conflicts advanced (R242, R403). -/
theorem State.countBanks_ev (s : State) (c : Cur) (ps : List PLane) (n : Nat) :
    ∃ ev, (s.countBanks c ps n).cw c = { s.cw c with ev := ev }
      ∧ ∀ f, (s.countBanks c ps n).modCrew c.core c.slot f = s.setCrew c.core c.slot (f { s.cw c with ev := ev }) := by
  unfold State.countBanks
  split
  · exact ⟨(s.cw c).ev, rfl, fun f => rfl⟩
  next k _ =>
    refine ⟨((s.cw c).countEv 4 (k + 1)).ev, State.crew_modCrew_same _ _ _ _, fun f => ?_⟩
    rw [State.modCrew_modCrew]
    rfl

theorem State.eachBanks_ev (s : State) (c : Cur) (qs : List Nat) (ps : Nat → List PLane) (n : Nat) :
    ∃ ev, (s.each qs (fun s q => s.countBanks c (ps q) n)).cw c = { s.cw c with ev := ev }
      ∧ ∀ f, (s.each qs (fun s q => s.countBanks c (ps q) n)).modCrew c.core c.slot f = s.setCrew c.core c.slot (f { s.cw c with ev := ev }) := by
  unfold State.each
  induction qs generalizing s with
  | nil => exact ⟨(s.cw c).ev, rfl, fun f => rfl⟩
  | cons q qs ih =>
    rw [List.foldl_cons]
    obtain ⟨ev, hc, hm⟩ := s.countBanks_ev c (ps q) n
    obtain ⟨ev', hc', hm'⟩ := ih (s.countBanks c (ps q) n)
    refine ⟨ev', by rw [hc', hc], fun f => ?_⟩
    have := hm (fun _ => f { s.cw c with ev := ev' })
    rw [hm', hc]
    exact this

theorem State.countMatBanks_ev (s : State) (c : Cur) (o : OpMl) (m : BitVec 32) :
    (s.countMatBanks c o m).cw c = { s.cw c with ev := ((s.countMatBanks c o m).cw c).ev }
      ∧ ∀ f, (s.countMatBanks c o m).modCrew c.core c.slot f
        = s.setCrew c.core c.slot (f { s.cw c with ev := ((s.countMatBanks c o m).cw c).ev }) := by
  obtain ⟨ev, hc, hm⟩ := s.eachBanks_ev c (List.range 36) (fun q => (lanesOf m).filterMap (fun l => (((s.cw c).mlAddrs o l).find? (fun e => e.1 = q)).map
    (fun e => ({ lane := l, va := e.2.toNat, place := .pad (s.cw c).group ((s.ownPad c e.2.toNat).getD 0) } : PLane)))) 4
  have hev : ((s.countMatBanks c o m).cw c).ev = ev := congrArg Crew.ev hc
  rw [hev]
  exact ⟨hc, hm⟩

/-- A write of a crew changes the slots of a core. -/
theorem State.slots_setCrew (s : State) (k sl n : Nat) (w : Crew) : ∃ ws, (s.setCrew k sl w).core n = { s.core n with slots := ws } := by
  rw [State.core_setCrew]
  split
  next h => subst h; exact ⟨_, rfl⟩
  · exact ⟨_, rfl⟩

/-- The state after the fragment's crew alone has changed reads the scratchpad as before. -/
theorem State.ownPad_setCrew {x : Crew} (hx : x.group = (s.cw c).group) (a : Nat) : (s.setCrew c.core c.slot x).ownPad c a = s.ownPad c a := by
  have hg : ((s.setCrew c.core c.slot x).cw c).group = (s.cw c).group := (congrArg Crew.group (State.crew_setCrew_same _ _ _ _)).trans hx
  unfold State.ownPad
  rw [hg]
  rfl

theorem State.touchPad_setCrew {x : Crew} {g : Nat} (ha : (s.core (s.group g).core).armed = false) (off n : Nat) :
    (s.setCrew c.core c.slot x).touchPad g off n = s.setCrew c.core c.slot x := by
  have harm : ((s.setCrew c.core c.slot x).core (s.group g).core).armed = false := by
    obtain ⟨ws, hk⟩ := s.slots_setCrew c.core c.slot (s.group g).core x
    rw [hk]
    exact ha
  unfold State.touchPad State.touchPool State.touch
  have hg : (s.setCrew c.core c.slot x).group g = s.group g := rfl
  rw [hg]
  simp only [harm, Bool.false_and, Bool.false_eq_true, if_false]

theorem State.padRead_setCrew {x : Crew} (g off n : Nat) : (s.setCrew c.core c.slot x).padRead g off n = s.padRead g off n := by
  have hg : (s.setCrew c.core c.slot x).group g = s.group g := rfl
  unfold State.padRead
  rw [hg]
  obtain ⟨ws, hk⟩ := s.slots_setCrew c.core c.slot (s.group g).core x
  simp only [hk]

/-- The element of a lane matrix that some bytes of the scratchpad give (R199, R260). -/
def State.padElem (s : State) (g off n : Nat) : Elem := { val := BitVec.ofNat 64 (leNat (s.padRead g off n).1), poison := (s.padRead g off n).2 }

/-- MLD's loads of one lane (R199). -/
theorem State.mldLane {x : Crew} (hx : x.group = (s.cw c).group) (ha : (s.core (s.group (s.cw c).group).core).armed = false)
    (k l z : Nat) (es : List (Nat × Word)) :
    (s.setCrew c.core c.slot x).each es (fun s' e =>
      let off := (s'.ownPad c e.2.toNat).getD 0
      let s' := s'.touchPad (s.cw c).group off z
      let r := s'.padRead (s.cw c).group off z
      s'.modCrew c.core c.slot (fun w => w.setMel k l e.1 { val := BitVec.ofNat 64 (leNat r.1), poison := r.2 }))
    = s.setCrew c.core c.slot (x.setMels k l (es.map (fun e => (e.1, s.padElem (s.cw c).group ((s.ownPad c e.2.toNat).getD 0) z)))) := by
  unfold State.each Crew.setMels
  induction es generalizing x with
  | nil => rfl
  | cons e es ih =>
    rw [List.foldl_cons, List.map_cons, List.foldl_cons]
    simp only [State.ownPad_setCrew hx, State.touchPad_setCrew ha, State.padRead_setCrew, State.setCrew_modCrew]
    exact ih (x := x.setMel k l e.1 _) hx

/-- MLD's effect on the crew in one lane (R199). -/
def State.mldCrew (s : State) (c : Cur) (o : OpMl) (x : Crew) (l : Nat) : Crew :=
  if ((s.cw c).mview o.d l).r = 0 then x
  else (x.setMels o.d.toNat l ((List.range 36).map (fun q => (q, {})))).setMels o.d.toNat l (((s.cw c).mlAddrs o l).map (fun e =>
    (e.1, s.padElem (s.cw c).group ((s.ownPad c e.2.toNat).getD 0) ((s.cw c).mz o.d l))))

theorem State.mldCrew_eq (x : Crew) (l : Nat) : s.mldCrew c o x l = { x with m := (s.mldCrew c o x l).m } := by
  unfold State.mldCrew
  split
  · rfl
  · rw [Crew.setMels_eq, Crew.setMels_eq x]

theorem State.mldCrews_eq (ls : List Nat) (x : Crew) : ls.foldl (s.mldCrew c o) x = { x with m := (ls.foldl (s.mldCrew c o) x).m } := by
  induction ls generalizing x with
  | nil => rfl
  | cons l ls ih =>
    rw [List.foldl_cons, ih]
    obtain ⟨t, ht⟩ : ∃ t, s.mldCrew c o x l = { x with m := t } := ⟨_, s.mldCrew_eq x l⟩
    rw [ht]

/-- MLD's loads of all lanes (R199). -/
theorem State.mldLanes {x : Crew} (hx : x.group = (s.cw c).group) (ha : (s.core (s.group (s.cw c).group).core).armed = false) (ls : List Nat) :
    (s.setCrew c.core c.slot x).each ls (fun s' l =>
      if ((s.cw c).mview o.d l).r = 0 then s'
      else (s'.modCrew c.core c.slot (fun w => (List.range 36).foldl (fun (w : Crew) q => w.setMel o.d.toNat l q {}) w)).each ((s.cw c).mlAddrs o l)
        (fun s' e =>
          let off := (s'.ownPad c e.2.toNat).getD 0
          let s' := s'.touchPad (s.cw c).group off ((s.cw c).mz o.d l)
          let r := s'.padRead (s.cw c).group off ((s.cw c).mz o.d l)
          s'.modCrew c.core c.slot (fun w => w.setMel o.d.toNat l e.1 { val := BitVec.ofNat 64 (leNat r.1), poison := r.2 })))
    = s.setCrew c.core c.slot (ls.foldl (s.mldCrew c o) x) := by
  unfold State.each
  induction ls generalizing x with
  | nil => rfl
  | cons l ls ih =>
    rw [List.foldl_cons, List.foldl_cons]
    have hg : (s.mldCrew c o x l).group = (s.cw c).group := by rw [s.mldCrew_eq x l]; exact hx
    refine Eq.trans (congrArg (fun u => ls.foldl _ u) ?_) (ih hg)
    unfold State.mldCrew
    split
    · rfl
    · have hclear : (List.range 36).foldl (fun (w : Crew) q => w.setMel o.d.toNat l q {}) x
          = x.setMels o.d.toNat l ((List.range 36).map (fun q => (q, {}))) := by
        unfold Crew.setMels
        rw [List.foldl_map]
      rw [State.setCrew_modCrew, hclear]
      exact State.mldLane (by rw [Crew.setMels_eq]; exact hx) ha _ _ _ _

/-- The elements of MD in one lane after an MLD: those of its shape from the scratchpad, the others clear (R199). -/
theorem State.mel_mldCrew {off : Nat → Nat → Nat → Nat} {l : Nat} (hr : ((s.cw c).mview o.d l).r ≤ 6) (hc : ((s.cw c).mview o.d l).c ≤ 6)
    (h : ∀ i j, i < ((s.cw c).mview o.d l).r ∧ j < ((s.cw c).mview o.d l).c → s.ownPad c ((s.cw c).mlEa o l i j).toNat = some (off l i j))
    (x : Crew) (n l' q : Nat) (hl : l < 32) (hl' : l' < 32) (hq : q < 36) :
    (s.mldCrew c o x l).mel n l' q = if l' = l ∧ n = o.d.toNat ∧ ((s.cw c).mview o.d l).r ≠ 0 then
        (if q / 6 < ((s.cw c).mview o.d l).r ∧ q % 6 < ((s.cw c).mview o.d l).c then
          s.padElem (s.cw c).group (off l (q / 6) (q % 6)) ((s.cw c).mz o.d l) else {})
      else x.mel n l' q := by
  have hall : ∀ e ∈ (List.range 36).map (fun q => ((q, {}) : Nat × Elem)), e.1 < 36 := fun e he => by
    obtain ⟨p, hp, rfl⟩ := List.mem_map.1 he
    exact List.mem_range.1 hp
  have hpos : ∀ e ∈ ((s.cw c).mlAddrs o l).map (fun e =>
      ((e.1, s.padElem (s.cw c).group ((s.ownPad c e.2.toNat).getD 0) ((s.cw c).mz o.d l)) : Nat × Elem)),
      ∃ i j, i < ((s.cw c).mview o.d l).r ∧ j < ((s.cw c).mview o.d l).c ∧ e.1 = 6 * i + j
        ∧ e.2 = s.padElem (s.cw c).group (off l i j) ((s.cw c).mz o.d l) := fun e he => by
    obtain ⟨a, ha, rfl⟩ := List.mem_map.1 he
    rw [Crew.mlAddrs_eq] at ha
    obtain ⟨⟨i, j⟩, hij, rfl⟩ := List.mem_map.1 ha
    obtain ⟨hi, hj⟩ := (mem_cells _ _ _).1 hij
    exact ⟨i, j, hi, hj, rfl, by rw [h i j ⟨hi, hj⟩]; rfl⟩
  unfold State.mldCrew
  by_cases hr0 : ((s.cw c).mview o.d l).r = 0
  · rw [if_pos hr0, if_neg (fun hh => hh.2.2 hr0)]
  rw [if_neg hr0]
  have hlt : ∀ e ∈ ((s.cw c).mlAddrs o l).map (fun e =>
      ((e.1, s.padElem (s.cw c).group ((s.ownPad c e.2.toNat).getD 0) ((s.cw c).mz o.d l)) : Nat × Elem)), e.1 < 36 := fun e he => by
    obtain ⟨i, j, hi, hj, he1, -⟩ := hpos e he
    omega
  by_cases hk : n = o.d.toNat ∧ l' = l
  · obtain ⟨rfl, rfl⟩ := hk
    rw [Crew.mel_setMels (v := s.padElem (s.cw c).group (off l' (q / 6) (q % 6)) ((s.cw c).mz o.d l')) _ hlt hl hq ?_,
      Crew.mel_setMels (v := {}) _ hall hl hq ?_]
    · have hin : q ∈ (((s.cw c).mlAddrs o l').map (fun e =>
          ((e.1, s.padElem (s.cw c).group ((s.ownPad c e.2.toNat).getD 0) ((s.cw c).mz o.d l')) : Nat × Elem))).map Prod.fst
            ↔ q / 6 < ((s.cw c).mview o.d l').r ∧ q % 6 < ((s.cw c).mview o.d l').c := by
        rw [Crew.mlAddrs_eq]
        simp only [List.map_map, List.mem_map, mem_cells, Function.comp]
        constructor
        · rintro ⟨e, ⟨h1, h2⟩, he⟩
          omega
        · intro hij
          exact ⟨(q / 6, q % 6), hij, by omega⟩
      have h36 : q ∈ ((List.range 36).map (fun q => ((q, {}) : Nat × Elem))).map Prod.fst := by
        simp only [List.map_map, List.mem_map, List.mem_range, Function.comp]
        exact ⟨q, hq, rfl⟩
      simp only [hin, h36, if_true, ne_eq, hr0, not_false_eq_true, and_self]
    · intro e he _
      obtain ⟨p, _, rfl⟩ := List.mem_map.1 he
      rfl
    · intro e he heq
      obtain ⟨i, j, hi, hj, he1, he2⟩ := hpos e he
      rw [he2, show i = q / 6 by omega, show j = q % 6 by omega]
  · rw [Crew.mel_setMels_other _ hlt hl hl' hq hk, Crew.mel_setMels_other _ hall hl hl' hq hk, if_neg (fun hh => hk ⟨hh.2.1, hh.1⟩)]

end Addresses

end Sys2Proof.Machine
end

/-! MLD and MST as instructions, and their statement (R48, R196, R199, R242 to R244). -/

section
namespace Sys2Proof.Machine

section Load
variable {o : OpMl} {s : State} {c : Cur}

/-- An unshaped lane of a mask has SHP set (R196). -/
def Crew.shpOf (w : Crew) (o : OpMl) (m : BitVec 32) (l : Nat) (f : Fibre) : Fibre :=
  if m.getLsbD l = true ∧ (w.mview o.d l).r = 0 then { f with mflags := f.mflags ||| mfSHP } else f

theorem Crew.shpLanes_eq (w : Crew) (k : BitVec 4) (m : BitVec 32) : w.shpLanes k m = { w with fibres := (w.shpLanes k m).fibres } :=
  Crew.modLanes_eq _ _ _

theorem Crew.fibre_shpLanes (w : Crew) (m : BitVec 32) (l : Nat) : (w.shpLanes o.d m).fibre l = w.shpOf o m l (w.fibre l) := by
  unfold Crew.shpLanes Crew.shpOf
  rw [Crew.fibre_modLanes]
  have hm : (m &&& w.lanesWhere (fun _ => true)).getLsbD l = m.getLsbD l := by
    rw [BitVec.getLsbD_and, Crew.getLsbD_lanesWhere]
    cases h : m.getLsbD l with
    | false => rfl
    | true => simp [lt_of_getLsbD h]
  rw [hm]
  cases m.getLsbD l <;> simp

/-- No tag of MD is bad in the active lanes. -/
theorem Crew.tags_good {w : Crew} {m : BitVec 32} (h : ∀ l, m.getLsbD l = true → (w.mtagOf o.d.toNat l).bad = false) :
    (lanesOf m).any (fun l => (w.mtagOf o.d.toNat l).bad) = false :=
  List.any_eq_false.2 fun l hl => by rw [h l ((mem_lanesOf m l).1 hl)]; exact Bool.false_ne_true

theorem exec_mld_fault (h : s.Ready c .vector false [.m o.d.toNat, srcUse o.a] (o.g ≠ 0) (s.act c o.g) (fun _ => [o.a]))
    (hb : ∀ l, (s.act c o.g).getLsbD l = true → ((s.cw c).mtagOf o.d.toNat l).bad = false) {f : FaultInfo}
    (hf : pickFault (s.mlFaults c o (s.act c o.g) false) = some f) : exec (.mld o) s = .next (s.takeFault c f) := by
  have hx : exec (.mld o) s = execMld o s := rfl
  rw [hx, execMld, State.run_cur h.1, State.gate_ready h, State.reads_ready h]
  simp only [Crew.tags_good hb, Bool.false_eq_true, if_false, hf]

/-- The fragment's crew with other event counters (R242, R403). -/
def State.banked (s : State) (c : Cur) (e : Tab Nat) : Crew := { s.cw c with ev := e }

/-- The crew that an MLD leaves before it retires: bank conflicts counted, SHP set, elements read. -/
def State.mldDone (s : State) (c : Cur) (o : OpMl) (e : Tab Nat) : Crew :=
  (lanesOf (s.act c o.g)).foldl (s.mldCrew c o)
    ((s.banked c e).shpLanes o.d (s.act c o.g))

theorem exec_mld (h : s.Ready c .vector false [.m o.d.toNat, srcUse o.a] (o.g ≠ 0) (s.act c o.g) (fun _ => [o.a]))
    (hb : ∀ l, (s.act c o.g).getLsbD l = true → ((s.cw c).mtagOf o.d.toNat l).bad = false)
    (hf : s.mlFaults c o (s.act c o.g) false = []) (ha : (s.core (s.group (s.cw c).group).core).armed = false)
    (ho : s.mustFollow c .load (s.mlPlaces c o (s.act c o.g)) 8 = []) (hh : (s.cw c).heldBy = none) :
    exec (.mld o) s = .next (s.setCrew c.core c.slot ((s.mldDone c o ((s.countMatBanks c o (s.act c o.g)).cw c).ev).retired c {})) := by
  have hx : exec (.mld o) s = execMld o s := rfl
  rw [hx, execMld, State.run_cur h.1, State.gate_ready h, State.reads_ready h]
  have hload : (if (Acc.load == Acc.load) = true then (s.cw c).heldBy else none) = none := by rw [hh]; exact ite_self _
  simp only [Crew.tags_good hb, Bool.false_eq_true, if_false, hf, pickFault, State.ordered, ho, hload, (s.countMatBanks_ev c o _).2]
  rw [State.mldLanes (by rw [Crew.shpLanes_eq]) ha, State.retire_eq, State.crew_setCrew_same, State.setCrew_setCrew]
  rfl

theorem State.mldDone_eq (s : State) (c : Cur) (o : OpMl) (e : Tab Nat) :
    s.mldDone c o e = { (s.banked c e) with
      m := (s.mldDone c o e).m, fibres := (s.mldDone c o e).fibres } := by
  unfold State.mldDone
  rw [s.mldCrews_eq, Crew.shpLanes_eq]

theorem State.fibre_mldDone (s : State) (c : Cur) (o : OpMl) (e : Tab Nat) (l : Nat) :
    (s.mldDone c o e).fibre l = (s.banked c e).shpOf o (s.act c o.g) l ((s.banked c e).fibre l) := by
  unfold State.mldDone
  rw [s.mldCrews_eq]
  exact Crew.fibre_shpLanes _ _ _

/-- The lane matrices after an MLD (R199). -/
theorem State.mel_mldDone {off : Nat → Nat → Nat → Nat}
    (hs : ∀ l, (s.act c o.g).getLsbD l = true → ((s.cw c).mview o.d l).r ≤ 6 ∧ ((s.cw c).mview o.d l).c ≤ 6)
    (h : ∀ l i j, (s.act c o.g).getLsbD l = true → i < ((s.cw c).mview o.d l).r ∧ j < ((s.cw c).mview o.d l).c →
      s.ownPad c ((s.cw c).mlEa o l i j).toNat = some (off l i j))
    (e : Tab Nat) (n l q : Nat) (hl : l < 32) (hq : q < 36) :
    (s.mldDone c o e).mel n l q = if (s.act c o.g).getLsbD l = true ∧ n = o.d.toNat ∧ ((s.cw c).mview o.d l).r ≠ 0 then
        (if q / 6 < ((s.cw c).mview o.d l).r ∧ q % 6 < ((s.cw c).mview o.d l).c then
          s.padElem (s.cw c).group (off l (q / 6) (q % 6)) ((s.cw c).mz o.d l) else {})
      else (s.cw c).mel n l q := by
  have hfold : ∀ (ls : List Nat) (x : Crew), (∀ a ∈ ls, (s.act c o.g).getLsbD a = true) → ls.Nodup →
      (ls.foldl (s.mldCrew c o) x).mel n l q = if l ∈ ls ∧ n = o.d.toNat ∧ ((s.cw c).mview o.d l).r ≠ 0 then
        (if q / 6 < ((s.cw c).mview o.d l).r ∧ q % 6 < ((s.cw c).mview o.d l).c then
          s.padElem (s.cw c).group (off l (q / 6) (q % 6)) ((s.cw c).mz o.d l) else {}) else x.mel n l q := by
    intro ls
    induction ls with
    | nil => exact fun x _ _ => by simp
    | cons a ls ih =>
      intro x hm hn
      have ham := hm a List.mem_cons_self
      rw [List.foldl_cons, ih _ (fun b hb => hm b (List.mem_cons_of_mem _ hb)) (List.nodup_cons.1 hn).2,
        State.mel_mldCrew (hs a ham).1 (hs a ham).2 (fun i j => h a i j ham) x n l q (lt_of_getLsbD ham) hl hq]
      by_cases hla : l = a
      · subst hla
        simp [(List.nodup_cons.1 hn).1]
      · simp [hla]
  have hshp : ((s.banked c e).shpLanes o.d (s.act c o.g)).mel n l q = (s.cw c).mel n l q := by
    rw [Crew.shpLanes_eq]
    unfold Crew.mel
    rfl
  unfold State.mldDone
  rw [hfold _ _ (fun a ha => (mem_lanesOf _ _).1 ha) (nodup_lanesOf _), hshp]
  simp only [mem_lanesOf]

end Load

section Store
variable {o : OpMl} {s : State} {c : Cur}

/-- The elements that an MST stores: lane, row, column (R48, R199). -/
def State.mstCells (s : State) (c : Cur) (o : OpMl) : List (Nat × Nat × Nat) :=
  (lanesOf ((s.cw c).primaries (s.act c o.g))).flatMap (fun l => (cells ((s.cw c).mview o.d l).r ((s.cw c).mview o.d l).c).map (fun e => (l, e)))

theorem State.mem_mstCells (l i j : Nat) : (l, i, j) ∈ s.mstCells c o ↔
    ((s.cw c).primaries (s.act c o.g)).getLsbD l = true ∧ i < ((s.cw c).mview o.d l).r ∧ j < ((s.cw c).mview o.d l).c := by
  simp [State.mstCells, mem_lanesOf, mem_cells]

theorem nodup_cells (r c : Nat) : (cells r c).Nodup := by
  unfold cells
  rw [List.nodup_flatMap]
  refine ⟨fun i _ => List.nodup_range.map (fun a b h => by simpa using h), ?_⟩
  refine (List.nodup_range (n := r)).pairwise_of_forall_ne fun i _ j _ hij => ?_
  intro e hi hj
  obtain ⟨a, _, rfl⟩ := List.mem_map.1 hi
  obtain ⟨b, _, hb⟩ := List.mem_map.1 hj
  exact hij (congrArg Prod.fst hb).symm

theorem State.nodup_mstCells : (s.mstCells c o).Nodup := by
  unfold State.mstCells
  rw [List.nodup_flatMap]
  refine ⟨fun l _ => (nodup_cells _ _).map (fun a b h => by simpa using h), ?_⟩
  refine (nodup_lanesOf _).pairwise_of_forall_ne fun i _ j _ hij => ?_
  intro e hi hj
  obtain ⟨a, _, rfl⟩ := List.mem_map.1 hi
  obtain ⟨b, _, hb⟩ := List.mem_map.1 hj
  exact hij (congrArg Prod.fst hb).symm

/-- The bytes of an element that an MST stores. -/
def State.mstBytes (s : State) (c : Cur) (o : OpMl) (e : Nat × Nat × Nat) : List Byte :=
  leBytes ((s.cw c).mz o.d e.1) ((s.cw c).mel o.d.toNat e.1 (6 * e.2.1 + e.2.2)).val.toNat

/-- The writes of an MST, by the offsets of its elements. -/
def State.mstWrites (s : State) (c : Cur) (o : OpMl) (off : Nat → Nat → Nat → Nat) : List (Nat × List Byte) :=
  (s.mstCells c o).map (fun e => (off e.1 e.2.1 e.2.2, s.mstBytes c o e))

/-- Where an address lies depends on the groups and the fragment's crew alone. -/
theorem State.PadOnly.ownPad {u v : State} {g : Nat} (h : u.PadOnly v g) (a : Nat) : v.ownPad c a = u.ownPad c a := by
  have hc : v.cw c = u.cw c := h.crew _ _
  unfold State.ownPad
  rw [hc, h.group]

theorem State.mstLanes {off : Nat → Nat → Nat → Nat} (x : Crew) (hx : x.group = (s.cw c).group)
    (h : ∀ l i j, (l, i, j) ∈ s.mstCells c o → s.ownPad c ((s.cw c).mlEa o l i j).toNat = some (off l i j)) :
    (s.setCrew c.core c.slot x).each (lanesOf ((s.cw c).primaries (s.act c o.g))) (fun u l => u.each ((s.cw c).mlAddrs o l) (fun u e =>
      u.padWrite (s.cw c).group ((u.ownPad c e.2.toNat).getD 0) (leBytes ((s.cw c).mz o.d l) ((s.cw c).mel o.d.toNat l e.1).val.toNat)))
    = (s.setCrew c.core c.slot x).padWrites (s.cw c).group (s.mstWrites c o off) := by
  have hflat : ∀ u : State, u.each (lanesOf ((s.cw c).primaries (s.act c o.g))) (fun u l => u.each ((s.cw c).mlAddrs o l) (fun u e =>
      u.padWrite (s.cw c).group ((u.ownPad c e.2.toNat).getD 0) (leBytes ((s.cw c).mz o.d l) ((s.cw c).mel o.d.toNat l e.1).val.toNat)))
      = (s.mstCells c o).foldl (fun u e => u.padWrite (s.cw c).group ((u.ownPad c ((s.cw c).mlEa o e.1 e.2.1 e.2.2).toNat).getD 0) (s.mstBytes c o e)) u := by
    intro u
    unfold State.each State.mstCells
    rw [List.foldl_flatMap]
    congr 1
    funext v l
    rw [Crew.mlAddrs_eq, List.foldl_map, List.foldl_map]
    rfl
  have hgo : ∀ (es : List (Nat × Nat × Nat)) (u : State), (∀ e ∈ es, e ∈ s.mstCells c o) → (s.setCrew c.core c.slot x).PadOnly u (s.cw c).group →
      es.foldl (fun u e => u.padWrite (s.cw c).group ((u.ownPad c ((s.cw c).mlEa o e.1 e.2.1 e.2.2).toNat).getD 0) (s.mstBytes c o e)) u
        = u.padWrites (s.cw c).group (es.map (fun e => (off e.1 e.2.1 e.2.2, s.mstBytes c o e))) := by
    intro es
    induction es with
    | nil => exact fun u _ _ => rfl
    | cons e es ih =>
      intro u hes hu
      have hat : u.ownPad c ((s.cw c).mlEa o e.1 e.2.1 e.2.2).toNat = some (off e.1 e.2.1 e.2.2) := by
        rw [hu.ownPad, State.ownPad_setCrew hx]
        exact h _ _ _ (hes e List.mem_cons_self)
      rw [List.foldl_cons, hat, ih _ (fun b hb => hes b (List.mem_cons_of_mem _ hb)) (hu.trans (u.padOnly_padWrite _ _ _))]
      rfl
  rw [hflat]
  exact hgo _ _ (fun e he => he) (State.PadOnly.refl _ _)

/-- The crew that an MST leaves before it retires: bank conflicts counted, SHP set. -/
def State.mstCrew (s : State) (c : Cur) (o : OpMl) (e : Tab Nat) : Crew :=
  (s.banked c e).shpLanes o.d (s.act c o.g)

theorem exec_mst {off : Nat → Nat → Nat → Nat} (h : s.Ready c .vector false [.m o.d.toNat, srcUse o.a] (o.g ≠ 0) (s.act c o.g) (fun _ => [o.a]))
    (hb : (lanesOf (s.act c o.g)).any (fun l => ((s.cw c).mtagOf o.d.toNat l).bad
      || ((s.cw c).mlAddrs o l).any (fun e => ((s.cw c).mel o.d.toNat l e.1).poison)) = false)
    (hd : s.pairsDiffer c (s.act c o.g) (fun l => ((s.cw c).mlAddrs o l).flatMap (fun e => [e.2, ((s.cw c).mel o.d.toNat l e.1).val])) = false)
    (hf : s.mlFaults c o (s.act c o.g) true = [])
    (ho : s.mustFollow c .store (s.mlPlaces c o ((s.cw c).primaries (s.act c o.g))) 8 = [])
    (hp : ∀ l i j, (l, i, j) ∈ s.mstCells c o → s.ownPad c ((s.cw c).mlEa o l i j).toNat = some (off l i j)) :
    exec (.mst o) s = .next (((s.setCrew c.core c.slot (s.mstCrew c o ((s.countMatBanks c o ((s.cw c).primaries (s.act c o.g))).cw c).ev)).padWrites (s.cw c).group
      (s.mstWrites c o off)).retire c {}) := by
  have hx : exec (.mst o) s = execMst o s := rfl
  rw [hx, execMst, State.run_cur h.1, State.gate_ready h, State.reads_ready h]
  have hstore : (if (Acc.store == Acc.load) = true then (s.cw c).heldBy else none) = none := rfl
  simp only [hb, hd, Bool.false_eq_true, if_false, hf, pickFault, State.ordered, ho, hstore, (s.countMatBanks_ev c o _).2]
  rw [State.mstLanes _ (by rw [Crew.shpLanes_eq]) hp]
  rfl

end Store

section Statement
variable {o : OpMl} {s : State} {c : Cur}

/-- SHP stands in lanes of the fragment alone. -/
theorem Crew.shpOf_lanes (w : Crew) (c : Cur) (m : BitVec 32) (hm : ∀ l, m.getLsbD l = true → c.lanes.getLsbD l = true) (l : Nat) :
    w.shpOf o m l (w.fibre l) = if c.lanes.getLsbD l then w.shpOf o m l (w.fibre l) else w.fibre l := by
  split
  · rfl
  next hc =>
    unfold Crew.shpOf
    rw [if_neg (fun h => hc (hm l h.1))]

/-- The fragment goes on after an MLD or MST whose crew has SHP set where MD is unshaped. -/
theorem Crew.wentOn_shp {w x : Crew} {m : BitVec 32} (hm : ∀ l, m.getLsbD l = true → c.lanes.getLsbD l = true)
    (hf : ∀ l, x.fibre l = w.shpOf o m l (w.fibre l))
    (hx : x = { w with m := x.m, fibres := x.fibres }) : w.WentOn (x.retired c {}) c (w.shpOf o m) := by
  refine Crew.wentOn_lanes w x c {} (w.shpOf o m) (fun n => (hf n).trans (w.shpOf_lanes c m hm n)) ?_ rfl rfl rfl rfl
  obtain ⟨t, u, rfl⟩ : ∃ t u, x = { w with m := t, fibres := u } := ⟨_, _, hx⟩
  rfl

/-- The registers of a crew of which only lane matrices and fibres have changed, retired. -/
theorem Crew.retired_regs {w x : Crew} (hx : x = { w with m := x.m, fibres := x.fibres }) (c : Cur) :
    (x.retired c {}).v = w.v ∧ (x.retired c {}).s = w.s ∧ (x.retired c {}).mtag = w.mtag ∧ (x.retired c {}).fflags = w.fflags
      ∧ (x.retired c {}).m = x.m := by
  obtain ⟨t, u, rfl⟩ : ∃ t u, x = { w with m := t, fibres := u } := ⟨_, _, hx⟩
  rw [Crew.retired_eq]
  exact ⟨rfl, rfl, rfl, rfl, rfl⟩

/-- What a write of a crew and a retirement leave of a core. -/
theorem State.core_retire (s : State) (c : Cur) (r : Done) (j : Nat) :
    ((s.retire c r).core j).die = (s.core j).die ∧ ((s.retire c r).core j).pool = (s.core j).pool := by
  rw [State.retire_eq]
  obtain ⟨ws, hk⟩ := s.slots_setCrew c.core c.slot j ((s.crew c.core c.slot).retired c r)
  rw [hk]
  exact ⟨rfl, rfl⟩

section Bytes
variable {off : Nat → Nat → Nat → Nat} {e : Tab Nat}

/-- The machine after an MST. -/
def State.mstDone (s : State) (c : Cur) (o : OpMl) (e : Tab Nat) (off : Nat → Nat → Nat → Nat) : State :=
  ((s.setCrew c.core c.slot (s.mstCrew c o e)).padWrites (s.cw c).group (s.mstWrites c o off)).retire c {}

theorem State.mst_padOnly (s : State) (c : Cur) (o : OpMl) (e : Tab Nat) (off : Nat → Nat → Nat → Nat) :
    (s.setCrew c.core c.slot (s.mstCrew c o e)).PadOnly
      ((s.setCrew c.core c.slot (s.mstCrew c o e)).padWrites (s.cw c).group (s.mstWrites c o off)) (s.cw c).group := State.padOnly_padWrites _ _ _

/-- MST leaves HBM, host memory, the operand dies, and the scratchpads of other cores. -/
theorem State.mstDone_frame : (s.mstDone c o e off).hbm = s.hbm ∧ (s.mstDone c o e off).host = s.host
    ∧ (∀ j, ((s.mstDone c o e off).core j).die = (s.core j).die)
    ∧ ∀ j, j ≠ (s.group (s.cw c).group).core → ((s.mstDone c o e off).core j).pool = (s.core j).pool := by
  have hv := s.mst_padOnly c o e off
  refine ⟨hv.memories.1, hv.memories.2, fun j => ?_, fun j hj => ?_⟩
  · obtain ⟨ws, hk⟩ := s.slots_setCrew c.core c.slot j (s.mstCrew c o e)
    unfold State.mstDone
    rw [(State.core_retire _ _ _ _).1, hv.die, hk]
  · obtain ⟨ws, hk⟩ := s.slots_setCrew c.core c.slot j (s.mstCrew c o e)
    unfold State.mstDone
    rw [(State.core_retire _ _ _ _).2, hv.pool j hj, hk]

theorem State.mstWrites_length {x : Nat × List Byte} (he : x ∈ s.mstWrites c o off) :
    ∃ l i j, (l, i, j) ∈ s.mstCells c o ∧ x = (off l i j, s.mstBytes c o (l, i, j)) ∧ x.2.length = (s.cw c).mz o.d l := by
  obtain ⟨⟨l, i, j⟩, hm, rfl⟩ := List.mem_map.1 he
  exact ⟨l, i, j, hm, rfl, length_leBytes _ _⟩

/-- A byte that no element of an MST takes, outside the checksums of the group's tiles (R243). -/
theorem State.mstDone_other {x : Nat}
    (h : ∀ l i j, (l, i, j) ∈ s.mstCells c o → x < (s.group (s.cw c).group).padBase + off l i j
      ∨ (s.group (s.cw c).group).padBase + off l i j + (s.cw c).mz o.d l ≤ x)
    (ht : ∀ i, i < (s.group (s.cw c).group).tiles → x < (s.group (s.cw c).group).padBase + 4480 * i + 4096
      ∨ (s.group (s.cw c).group).padBase + 4480 * i + 4352 ≤ x) :
    ((s.mstDone c o e off).core (s.group (s.cw c).group).core).pool.read x = (s.core (s.group (s.cw c).group).core).pool.read x := by
  have hg : (s.setCrew c.core c.slot (s.mstCrew c o e)).group (s.cw c).group = s.group (s.cw c).group := rfl
  have hr := State.read_padWrites (s.setCrew c.core c.slot (s.mstCrew c o e)) (s.cw c).group (s.mstWrites c o off) (x := x)
    (fun e he => by
      obtain ⟨l, i, j, hm, rfl, hlen⟩ := State.mstWrites_length he
      rw [hlen]
      exact h l i j hm) ht
  obtain ⟨ws, hk⟩ := s.slots_setCrew c.core c.slot (s.group (s.cw c).group).core (s.mstCrew c o e)
  rw [hg, hk] at hr
  unfold State.mstDone
  rw [(State.core_retire _ _ _ _).2]
  exact hr

/-- The bytes of an element of an MST that no other element takes, in a group without tiles (R199, R260). -/
theorem State.mstDone_bytes {l i j b : Nat} (ht : (s.group (s.cw c).group).tiles = 0) (hm : (l, i, j) ∈ s.mstCells c o)
    (hb : b < (s.cw c).mz o.d l)
    (hd : ∀ l' i' j', (l', i', j') ∈ s.mstCells c o → (l', i', j') ≠ (l, i, j) →
      off l i j + b < off l' i' j' ∨ off l' i' j' + (s.cw c).mz o.d l' ≤ off l i j + b)
    (hp : Tab.get (s.core (s.group (s.cw c).group).core).poolPoison false (((s.group (s.cw c).group).padBase + off l i j + b) / 8) = false) :
    ((s.mstDone c o e off).core (s.group (s.cw c).group).core).pool.read ((s.group (s.cw c).group).padBase + off l i j + b)
      = (s.mstBytes c o (l, i, j)).getD b 0 := by
  have hg : (s.setCrew c.core c.slot (s.mstCrew c o e)).group (s.cw c).group = s.group (s.cw c).group := rfl
  obtain ⟨as, bs, hs⟩ := List.append_of_mem hm
  have hn : (l, i, j) ∉ bs := by
    have := State.nodup_mstCells (s := s) (c := c) (o := o)
    rw [hs] at this
    exact (List.nodup_cons.1 (List.nodup_append.1 this).2.1).1
  have hw : s.mstWrites c o off = as.map (fun e => (off e.1 e.2.1 e.2.2, s.mstBytes c o e)) ++ (off l i j, s.mstBytes c o (l, i, j))
      :: bs.map (fun e => (off e.1 e.2.1 e.2.2, s.mstBytes c o e)) := by
    unfold State.mstWrites
    rw [hs, List.map_append, List.map_cons]
  obtain ⟨ws, hk⟩ := s.slots_setCrew c.core c.slot (s.group (s.cw c).group).core (s.mstCrew c o e)
  have hr := State.read_padWrites_last (s.setCrew c.core c.slot (s.mstCrew c o e)) (s.cw c).group
    (as.map (fun e => (off e.1 e.2.1 e.2.2, s.mstBytes c o e))) (bs.map (fun e => (off e.1 e.2.1 e.2.2, s.mstBytes c o e)))
    (off l i j, s.mstBytes c o (l, i, j)) (b := b) ht (by rw [State.mstBytes, length_leBytes]; exact hb) (by rw [hg, hk]; exact hp)
    (fun e' he' => by
      obtain ⟨⟨l', i', j'⟩, hm', rfl⟩ := List.mem_map.1 he'
      dsimp only
      rw [State.mstBytes, length_leBytes]
      refine hd l' i' j' (by rw [hs]; exact List.mem_append_right _ (List.mem_cons_of_mem _ hm')) (fun h => hn ?_)
      rw [← h]
      exact hm')
  rw [hg, ← hw] at hr
  unfold State.mstDone
  rw [(State.core_retire _ _ _ _).2]
  exact hr

/-- The crew after an MST (R39, R196). -/
theorem State.mstDone_crew : (s.mstDone c o e off).cw c = (s.mstCrew c o e).retired c {} := by
  have hv : ((s.setCrew c.core c.slot (s.mstCrew c o e)).padWrites (s.cw c).group (s.mstWrites c o off)).crew c.core c.slot = s.mstCrew c o e :=
    ((s.mst_padOnly c o e off).crew _ _).trans (State.crew_setCrew_same _ _ _ _)
  unfold State.mstDone
  rw [State.retire_eq, hv]
  exact State.crew_setCrew_same _ _ _ _

theorem State.mstCrew_eq (s : State) (c : Cur) (o : OpMl) (e : Tab Nat) : s.mstCrew c o e =
    { (s.banked c e) with fibres := (s.mstCrew c o e).fibres } :=
  Crew.shpLanes_eq _ _ _

end Bytes

/-- Settles O52, by the crew that MLD builds lane by lane, and by MST's writes of bytes one after the other. -/
theorem laneMatrixMemory : Obligations.LaneMatrixMemory := by
  unfold Obligations.LaneMatrixMemory
  intro o s c off w m X z st ea g k base shp el h htag
  have hm : ∀ l, m.getLsbD l = true → c.lanes.getLsbD l = true := Crew.active_sub _ _ _
  have hbad : ∀ l, m.getLsbD l = true → (w.mtagOf o.d.toNat l).bad = false := fun l hl => (htag l hl).1
  refine ⟨fun f hf => exec_mld_fault h hbad hf, fun hat => ⟨fun ha ho hh => ?_, fun hok hd ho => ?_⟩⟩
  · have hex := exec_mld h hbad (State.mlFaults_nil (off := off) hat (fun hf => absurd hf Bool.false_ne_true)) ha ho hh
    generalize ((s.countMatBanks c o m).cw c).ev = e at hex ⊢
    have hx := s.mldDone_eq c o e
    obtain ⟨hv, hs, hmt, hff, hmm⟩ := Crew.retired_regs hx c
    refine ⟨_, hex, Crew.wentOn_shp (w := s.banked c e) hm (s.fibre_mldDone c o e) hx, hv, hs, hmt, hff, fun n l q _ hl hq => ?_⟩
    have hmel : ((s.mldDone c o e).retired c {}).mel n l q = (s.mldDone c o e).mel n l q := by unfold Crew.mel; rw [hmm]
    rw [hmel, State.mel_mldDone (off := off) (fun l hl => (htag l hl).2) (fun l i j hl hij => (hat l i j hl hij).2) e n l q hl hq]
    rfl
  · have hcells : ∀ l i j, (l, i, j) ∈ s.mstCells c o ↔ (w.primaries m).getLsbD l = true ∧ el l i j := fun l i j => State.mem_mstCells l i j
    have hprim : ∀ l, (w.primaries m).getLsbD l = true → m.getLsbD l = true := fun l hl => by
      rw [Crew.getLsbD_primaries] at hl
      exact (Bool.and_eq_true _ _ ▸ hl).1
    have hnone : s.mlFaults c o m true = [] :=
      State.mlFaults_nil (off := off) hat (fun _ l i j hl hij => (hok l i j hl hij).2)
    have hread : (lanesOf m).any (fun l => (w.mtagOf o.d.toNat l).bad || (w.mlAddrs o l).any (fun e => (w.mel o.d.toNat l e.1).poison)) = false := by
      refine List.any_eq_false.2 fun l hl => ?_
      have hl' := (mem_lanesOf m l).1 hl
      rw [hbad l hl', Bool.false_or, Bool.not_eq_true, List.any_eq_false]
      intro e he
      rw [Crew.mlAddrs_eq] at he
      obtain ⟨⟨i, j⟩, hij, rfl⟩ := List.mem_map.1 he
      rw [(hok l i j hl' ((mem_cells _ _ _).1 hij)).1]
      exact Bool.false_ne_true
    have hpair : s.pairsDiffer c m (fun l => (w.mlAddrs o l).flatMap (fun e => [e.2, (w.mel o.d.toNat l e.1).val])) = false := by
      rw [← hd]
      congr 1
      funext l
      rw [Crew.mlAddrs_eq, List.flatMap_map]
      rfl
    have hex := exec_mst h hread hpair hnone ho (off := off) (fun l i j hij => by
      obtain ⟨hl, hij⟩ := (hcells l i j).1 hij
      exact (hat l i j (hprim l hl) hij).2)
    generalize ((s.countMatBanks c o (w.primaries m)).cw c).ev = e at hex
    obtain ⟨hhbm, hhost, hdie, hpool⟩ := State.mstDone_frame (s := s) (c := c) (o := o) (off := off) (e := e)
    have hx : s.mstCrew c o e = { s.banked c e with m := (s.mstCrew c o e).m, fibres := (s.mstCrew c o e).fibres } := by
      obtain ⟨t, ht⟩ : ∃ t, s.mstCrew c o e = { s.banked c e with fibres := t } := ⟨_, s.mstCrew_eq c o e⟩
      rw [ht]
    have hm' : (s.mstCrew c o e).m = w.m := by rw [s.mstCrew_eq]; rfl
    obtain ⟨hv, hs, hmt, hff, hmm⟩ := Crew.retired_regs hx c
    have hgo := Crew.wentOn_shp (c := c) (w := s.banked c e) hm (fun l => Crew.fibre_shpLanes _ _ _) hx
    refine ⟨s.mstDone c o e off, hex, hhbm, hhost, hdie, hpool, fun x hx ht => ?_, fun ht l i j b hpr hb hdis hpo => ?_, ?_, ?_, ?_, ?_, ?_, fun l => ?_⟩
    · exact State.mstDone_other (fun l i j hij => hx l i j ((hcells l i j).1 hij)) ht
    · exact State.mstDone_bytes ht ((hcells l i j).2 hpr) hb (fun l' i' j' hij => hdis l' i' j' ((hcells l' i' j').1 hij)) hpo
    all_goals rw [State.mstDone_crew]
    · exact hv
    · exact hs
    · exact hmm.trans hm'
    · exact hmt
    · exact hff
    · exact hgo.lanes l

end Statement

end Sys2Proof.Machine
end

/-! Group 13 signs its convergence register (R30 to R32, R212). -/

section
namespace Sys2Proof.Machine

/-- A group without the one that is written. -/
theorem State.group_modGroup_same (s : State) (g : Nat) (f : Group → Group) : (s.modGroup g f).group g = f (s.group g) := by
  have hf : Tab.find (s.modGroup g f).groups g = some (f (s.group g)) := Tab.find_put_same _ _ _
  rw [State.group, hf]
  rfl

theorem Group.cv_setCv_same (g : Group) (n : Nat) (r : CvReg) : (g.setCv n r).cv n = r := Tab.get_set_same _ _ _ _

section Sign
variable {s : State} {c : Cur} {cv g : BitVec 3} {us : List Use}

/-- The convergence register that a fragment signs (R31). -/
def State.signReg (s : State) (c : Cur) (cv : BitVec 3) : CvReg := (s.group (s.cw c).group).cv cv.toNat

/-- The register with the fragment's signature (R31, R212). -/
def State.signed (s : State) (c : Cur) (cv : BitVec 3) : CvReg :=
  { s.signReg c cv with
    signed_ := (s.signReg c cv).signed_ ||| (s.cw c).primaries c.lanes, word := c.word, pc := c.pc
    pfx := if (s.signReg c cv).signed_ = 0 then c.pfx else (s.signReg c cv).pfx }

/-- The machine whose fragment has signed and waits (R31). -/
def State.awaiting (s : State) (c : Cur) (cv : BitVec 3) : State :=
  (s.modGroup (s.cw c).group (fun q => q.setCv cv.toNat (s.signed c cv))).hold c (.conv cv.toNat)

/-- The register of the crew's own gang that the crew owns (R30). -/
def State.ownsReg (s : State) (c : Cur) (cv : BitVec 3) : Prop :=
  c.slot ≠ 32 ∧ (s.signReg c cv).owned = true ∧ (s.signReg c cv).owner = (s.cw c).no

theorem State.reg_awaiting : ((s.awaiting c cv).group (s.cw c).group).cv cv.toNat = s.signed c cv := by
  have hg : (s.awaiting c cv).group (s.cw c).group = (s.group (s.cw c).group).setCv cv.toNat (s.signed c cv) :=
    State.group_modGroup_same s (s.cw c).group (fun q => q.setCv cv.toNat (s.signed c cv))
  rw [hg, Group.cv_setCv_same]

/-- A set that is not complete leaves the machine as it is (R31, R32). -/
theorem State.tryConv_incomplete {core k n : Nat} (h : ((s.group k).cv n).signed_ ≠ ((s.group k).cv n).set) : s.tryConv core k n = s := by
  unfold State.tryConv
  simp only
  split
  · rfl
  · simp [h]

/-- The convergence register's checks come in their order before the signature (R30 to R32, R212). -/
theorem State.sign_spec (hr : s.inRange c us = true) (hw : Roles.matrix.allows (s.cw c).role = true) (hp : s.pendIds c false us = [])
    (hg : (g ≠ 0 && s.predPoison c) = false) :
    let P := (s.cw c).primaries c.lanes
    let r := s.signReg c cv
    let bad (sub : Nat) : State := s.takeFault c { cause := 10, sub := sub, cv := cv.toNat }
    (¬ s.ownsReg c cv → s.sign c cv g us = bad 2)
    ∧ (s.ownsReg c cv → r.set = 0 → s.sign c cv g us = bad 4)
    ∧ (s.ownsReg c cv → r.set ≠ 0 → P &&& ~~~r.set ≠ 0 → s.sign c cv g us = bad 2)
    ∧ (s.ownsReg c cv → r.set ≠ 0 → P &&& ~~~r.set = 0 → r.signed_ ≠ 0 → r.word ≠ c.word ∨ r.pc ≠ c.pc → s.sign c cv g us = bad 3)
    ∧ (s.ownsReg c cv → r.set ≠ 0 → P &&& ~~~r.set = 0 → r.signed_ = 0 ∨ r.word = c.word ∧ r.pc = c.pc →
        s.sign c cv g us = (s.awaiting c cv).tryConv c.core (s.cw c).group cv.toNat) := by
  intro P r bad
  have hgate : s.sign c cv g us = if c.slot = 32 || !r.owned || r.owner ≠ (s.cw c).no then bad 2
      else if r.set = 0 then bad 4
      else if P &&& ~~~r.set ≠ 0 then bad 2
      else if r.signed_ ≠ 0 && (r.word ≠ c.word || r.pc ≠ c.pc) then bad 3
      else (s.awaiting c cv).tryConv c.core (s.cw c).group cv.toNat := by
    have hreads : ∀ k, s.reads c (g ≠ 0) c.lanes (fun _ => []) k = k := fun k => by
      have hpar : s.anyParity c c.lanes (fun _ => []) = false := List.any_eq_false.2 fun l _ => Bool.false_ne_true
      have hpoi : s.anyPoison c c.lanes (fun _ => []) = false := List.any_eq_false.2 fun l _ => Bool.false_ne_true
      unfold State.reads
      rw [hpar, hpoi, hg]
      rfl
    unfold State.sign
    rw [State.gate_passes hr hw hp]
    simp only [hreads]
    rfl
  have hown : s.ownsReg c cv ↔ (c.slot = 32 || !r.owned || r.owner ≠ (s.cw c).no) = false := by
    unfold State.ownsReg
    simp [r, and_assoc]
  refine ⟨fun h => ?_, fun h h0 => ?_, fun h h0 hs => ?_, fun h h0 hs hn hd => ?_, fun h h0 hs hd => ?_⟩
  · rw [hgate, if_pos (by rw [hown, Bool.not_eq_false] at h; exact h)]
  · rw [hgate, hown.1 h, if_neg Bool.false_ne_true, if_pos h0]
  · rw [hgate, hown.1 h, if_neg Bool.false_ne_true, if_neg h0, if_pos hs]
  · rw [hgate, hown.1 h, if_neg Bool.false_ne_true, if_neg h0, if_neg (not_not_intro hs), if_pos (by rw [Bool.and_eq_true]; exact ⟨decide_eq_true hn, by simpa using hd⟩)]
  · rw [hgate, hown.1 h, if_neg Bool.false_ne_true, if_neg h0, if_neg (not_not_intro hs), if_neg]
    rcases hd with hd | ⟨h1, h2⟩
    · simp [hd]
    · simp [h1, h2]

/-- What the signing of an instruction comes to, where its meaning is to sign. -/
theorem exec_signs {i : Instr} (he : exec i s = s.run (fun c => s.sign c cv g us)) (hc : s.cur = some c) (hr : s.inRange c us = true)
    (hw : Roles.matrix.allows (s.cw c).role = true) (hp : s.pendIds c false us = []) (hg : (g ≠ 0 && s.predPoison c) = false) :
    let n := cv.toNat
    let r := (s.group (s.cw c).group).cv n
    let bad (sub : Nat) : Host.Outcome State Fault Refusal := .next (s.takeFault c { cause := 10, sub := sub, cv := n })
    let mine : Prop := c.slot ≠ 32 ∧ r.owned = true ∧ r.owner = (s.cw c).no
    let P := (s.cw c).primaries c.lanes
    (¬ mine → exec i s = bad 2)
    ∧ (mine → r.set = 0 → exec i s = bad 4)
    ∧ (mine → r.set ≠ 0 → P &&& ~~~r.set ≠ 0 → exec i s = bad 2)
    ∧ (mine → r.set ≠ 0 → P &&& ~~~r.set = 0 → r.signed_ ≠ 0 → r.word ≠ c.word ∨ r.pc ≠ c.pc → exec i s = bad 3)
    ∧ (mine → r.set ≠ 0 → P &&& ~~~r.set = 0 → r.signed_ = 0 ∨ r.word = c.word ∧ r.pc = c.pc →
      let u := (s.modGroup (s.cw c).group (fun q => q.setCv n { r with signed_ := r.signed_ ||| P, word := c.word, pc := c.pc,
                                                                       pfx := if r.signed_ = 0 then c.pfx else r.pfx })).hold c (.conv n)
      ((r.signed_ ||| P ≠ r.set → exec i s = .next u) ∧ (r.signed_ ||| P = r.set → exec i s = .next (u.tryConv c.core (s.cw c).group n)))) := by
  intro n r bad mine P
  obtain ⟨h2, h4, h2', h3, hgo⟩ := State.sign_spec (cv := cv) hr hw hp hg
  rw [he, State.run_cur hc]
  refine ⟨fun h => congrArg _ (h2 h), fun h h0 => congrArg _ (h4 h h0), fun h h0 hs => congrArg _ (h2' h h0 hs),
    fun h h0 hs hn hd => congrArg _ (h3 h h0 hs hn hd), fun h h0 hs hd => ⟨fun hne => ?_, fun _ => congrArg _ (hgo h h0 hs hd)⟩⟩
  rw [hgo h h0 hs hd, State.tryConv_incomplete (by rw [State.reg_awaiting]; exact hne)]
  rfl

end Sign

/-- Settles O53: every instruction of group 13 signs, and the signature's checks are the same. -/
theorem arraySignatures : Obligations.ArraySignatures := by
  unfold Obligations.ArraySignatures
  intro s c w signs
  have hs : ∀ {i : Instr} {cv g : BitVec 3} {us : List Use}, exec i s = s.run (fun c => s.sign c cv g us) → signs i cv g us :=
    fun he hc hr hw hp hg => exec_signs he hc hr hw hp hg
  refine ⟨fun o => ⟨?_, ?_⟩, fun o => ?_, fun o => hs rfl, fun o => ⟨?_, hs rfl⟩, fun o => hs rfl, fun o => hs rfl, fun o => hs rfl⟩
  · intro i hi
    rcases List.mem_cons.1 hi with rfl | hi
    · exact hs rfl
    · rw [List.mem_singleton.1 hi]
      exact hs rfl
  · intro i hi
    rcases List.mem_cons.1 hi with rfl | hi
    · exact hs rfl
    rcases List.mem_cons.1 hi with rfl | hi
    · exact hs rfl
    · rw [List.mem_singleton.1 hi]
      exact hs rfl
  · intro i hi
    rcases List.mem_cons.1 hi with rfl | hi
    · exact hs rfl
    · rw [List.mem_singleton.1 hi]
      exact hs rfl
  · intro i hi
    simp only [List.mem_cons, List.not_mem_nil, or_false] at hi
    rcases hi with rfl | rfl | rfl | rfl
    · exact hs rfl
    · exact hs rfl
    · exact hs rfl
    · exact hs rfl

end Sys2Proof.Machine
end

/-! The operations of the array and their completion (R31, R212, R213, R217, R221 to R237). -/

section
namespace Sys2Proof.Machine

section Operations
variable {s : State} {c : Cur} {cv : Nat}

/-- A core without an armed injection reads without effect (R132). -/
theorem State.touch_unarmed {core : Nat} (h : (s.core core).armed = false) (level a n : Nat) (flip mark : State → Nat → State) :
    s.touch core level a n flip mark = s := by
  unfold State.touch
  simp [h]

theorem State.touchPad_unarmed {g : Nat} (h : (s.core (s.group g).core).armed = false) (off n : Nat) : s.touchPad g off n = s := by
  unfold State.touchPad State.touchPool
  rw [State.touch_unarmed h]

theorem State.touchDie_unarmed {core : Nat} (h : (s.core core).armed = false) (a n : Nat) : s.touchDie core a n = s := by
  unfold State.touchDie
  rw [State.touch_unarmed h]

theorem State.touchTile_unarmed {g : Nat} (h : (s.core (s.group g).core).armed = false) (t : Nat) : s.touchSlot (.tile g t) = s := by
  unfold State.touchSlot
  simp only [State.touchPad_unarmed h, ite_self]

theorem State.touchWslot_unarmed {core : Nat} (h : (s.core core).armed = false) (i : Nat) : s.touchSlot (.slot core i) = s := by
  unfold State.touchSlot
  simp only [State.touchDie_unarmed h, ite_self]

theorem State.withW_poison {w : BitVec 5} (h : ((s.cw c).sreg w.toNat).poison = true) (k : Nat → ArrRet) : s.withW c cv w k = s.arrConsumed c cv := by
  unfold State.withW
  simp [h]

theorem State.withW_clean {w : BitVec 5} (h : ((s.cw c).sreg w.toNat).poison = false) (k : Nat → ArrRet) :
    s.withW c cv w k = k ((s.cw c).sreg w.toNat).val.toNat := by
  unfold State.withW
  simp [h]

/-- A poisoned operand of a binding is consumed (R212). -/
theorem opWd_poison {o : OpTw} (h : ((s.cw c).sreg o.w.toNat).poison = true) :
    s.opWload c cv o = s.arrConsumed c cv ∧ s.opDload c cv o = s.arrConsumed c cv := ⟨State.withW_poison h _, State.withW_poison h _⟩

/-- A poisoned operand of a product, a query or a reduction is consumed (R212). -/
theorem opTa_poison {o : OpTa} (h : ((s.cw c).sreg o.w.toNat).poison = true) :
    (∀ sp, s.opProduct c cv o sp = s.arrConsumed c cv) ∧ s.opDqry c cv o = s.arrConsumed c cv
      ∧ s.opDcent c cv o = s.arrConsumed c cv ∧ s.opDfin c cv o = s.arrConsumed c cv :=
  ⟨fun _ => State.withW_poison h _, State.withW_poison h _, State.withW_poison h _, State.withW_poison h _⟩

/-- The array serves a group, or none (R209, R226). -/
theorem State.serves_iff (core g : Nat) : s.serves core g = true ↔ (s.core core).served = none ∨ (s.core core).served = some g := by
  unfold State.serves
  cases (s.core core).served with
  | none => simp
  | some h => simp

/-- A change of a group's bindings, and of the planes where they serve the group (R209, R224). -/
def State.bound (s : State) (c : Cur) (f : Group → Group) (h : Core → Core) : State :=
  (if (s.core c.core).served = none ∨ (s.core c.core).served = some (c.grp s) then s.modCore c.core (fun k => { h k with served := some (c.grp s) })
    else s).modGroup (c.grp s) f

theorem State.bind_eq (f : Group → Group) (h : Core → Core) : s.bind c.core (c.grp s) f h = s.bound c f h := by
  unfold State.bind State.bound
  simp only [State.serves_iff]

/-- The slots that WLOAD's operand may name (R224). -/
theorem opWload_range {o : OpTw} (hp : ((s.cw c).sreg o.w.toNat).poison = false)
    (hx : 256 ≤ ((s.cw c).sreg o.w.toNat).val.toNat ∨ 128 < ((s.cw c).sreg o.w.toNat).val.toNat ∨ 95 < ((s.cw c).sreg o.w.toNat).val.toNat % 128) :
    s.opWload c cv o = s.aop c cv 1 := by
  unfold State.opWload
  rw [State.withW_clean hp]
  generalize ((s.cw c).sreg o.w.toNat).val.toNat = x at hx ⊢
  simp only
  rw [if_pos]
  simp only [Bool.or_eq_true, Bool.and_eq_true, decide_eq_true_eq]
  omega

/-- WLOAD of the empty plane (R224). -/
theorem opWload_empty {o : OpTw} (hp : ((s.cw c).sreg o.w.toNat).poison = false) (hx : ((s.cw c).sreg o.w.toNat).val.toNat = 128) :
    s.opWload c cv o = (s.bound c (fun r => { r with shadow := .empty }) (fun k => { k with shadowCells := {} }), some (arrOp c cv 32)) := by
  unfold State.opWload
  rw [State.withW_clean hp, hx]
  simp only [State.bind_eq]
  rfl

/-- WLOAD's binding of a slot to the shadow plane (R224). -/
def State.bindShadow (c : Cur) (x : Nat) (s : State) (d : Nat) : State :=
  s.bound c (fun g => { g with shadow := .weights x (d % 16) (d / 16 % 2 = 1) (d / 32 % 2 = 1) ((s.core c.core).slotImg x 4352 4800) })
    (fun q => { q with shadowCells := q.slotImg x 0 4096 })

/-- WLOAD of a slot, once its word is in range (R224). -/
theorem opWload_slot {o : OpTw} {x : Nat} (hp : ((s.cw c).sreg o.w.toNat).poison = false) (hx : ((s.cw c).sreg o.w.toNat).val.toNat = x) (h95 : x ≤ 95) :
    s.opWload c cv o = s.bindSlot c cv x (fun d => fmtSuits (d % 16) (d / 16 % 2 = 1)) (State.bindShadow c x) := by
  unfold State.opWload
  rw [State.withW_clean hp, hx]
  have h1 : x % 128 = x := Nat.mod_eq_of_lt (by omega)
  have h2 : x / 128 % 2 ≠ 1 := by omega
  simp only [h1, h2, decide_false, Bool.false_and, Bool.or_false, Bool.or_eq_true, decide_eq_true_eq, if_false]
  rw [if_neg (by omega)]
  simp only [State.bind_eq]
  rfl

/-- The formats that suit a weight slot (R224). -/
theorem fmtSuits_iff (f : Nat) (b : Bool) :
    fmtSuits f b = true ↔ f = 1 ∨ f = 2 ∧ b = true ∨ (f = 3 ∨ f = 4 ∨ f = 5) ∧ ¬ b = true := by
  unfold fmtSuits
  by_cases h2 : f = 2
  · simp [h2]
  · simp only [h2, if_false, Bool.and_eq_true, decide_eq_true_eq, Bool.or_eq_true, Bool.not_eq_true', false_and, false_or]
    cases b
    · simp only [or_true, and_true, Bool.false_eq_true, not_false_eq_true]
      omega
    · simp only [Bool.true_eq_false, or_false, and_false, not_true_eq_false, and_iff_right_iff_imp]
      omega

/-- A slot about to be bound, by its descriptor and its verification, on a core without an armed injection (R224). -/
theorem State.bindSlot_eq {k d : Nat} (ha : (s.core c.core).armed = false) (hd : s.slotDescOf c k = some d) (suits : Nat → Bool)
    (f : State → Nat → State) :
    s.bindSlot c cv k suits f = if suits d = false then s.aop c cv 2
      else if (s.wslot c k).passes = false then s.arrFault c cv (sumFault true 0 k)
      else (f s d, some { arrOp c cv 32 with
        consumed := (s.wslot c k).sumBad || (s.wslot c k).scaleBad || (d / 32 % 2 = 1 && (s.wslot c k).bad 4544 256) }) := by
  unfold State.bindSlot
  simp only [hd, State.touchWslot_unarmed ha, Bool.not_eq_true']

/-- WLOAD of a slot whose sums are not poisoned, by its format and its verification (R224). -/
theorem opWload_verifies {o : OpTw} {x d : Nat} (hp : ((s.cw c).sreg o.w.toNat).poison = false) (hx : ((s.cw c).sreg o.w.toNat).val.toNat = x)
    (h95 : x ≤ 95) (hd : s.slotDescOf c x = some d) (ha : (s.core c.core).armed = false) :
    let F := d % 16
    let scaled := d / 16 % 2 = 1
    (F = 1 ∨ F = 2 ∧ scaled ∨ (F = 3 ∨ F = 4 ∨ F = 5) ∧ ¬ scaled → (s.wslot c x).sumBad = false →
      ((s.wslot c x).classify.cls ≠ 0 → s.opWload c cv o = s.arrFault c cv (sumFault true 0 x))
      ∧ ((s.wslot c x).classify.cls = 0 → (s.wslot c x).scaleBad = true → ∃ u, s.opWload c cv o = (u, some { arrOp c cv 32 with consumed := true }))
      ∧ ((s.wslot c x).classify.cls = 0 → (s.wslot c x).scaleBad = false → d / 32 % 2 = 0 →
        s.opWload c cv o = (s.bindShadow c x d, some (arrOp c cv 32))))
    ∧ (F = 0 ∨ 5 < F ∨ F = 2 ∧ ¬ scaled ∨ (F = 3 ∨ F = 4 ∨ F = 5) ∧ scaled → s.opWload c cv o = s.aop c cv 2) := by
  intro F scaled
  rw [opWload_slot hp hx h95, State.bindSlot_eq ha hd]
  have hsuits := fmtSuits_iff F scaled
  simp only [decide_eq_true_eq] at hsuits
  refine ⟨fun hF hs => ?_, fun hF => ?_⟩
  · have hgo : fmtSuits (d % 16) (d / 16 % 2 = 1) = true := hsuits.2 hF
    simp only [hgo, Bool.true_eq_false, if_false, SlotV.passes, hs, Bool.false_or, decide_eq_false_iff_not]
    refine ⟨fun hc => if_pos hc, fun hc hb => ⟨_, (if_neg (not_not_intro hc)).trans (by rw [hb, Bool.true_or])⟩, fun hc hb hsp => ?_⟩
    refine (if_neg (not_not_intro hc)).trans ?_
    rw [hb, hsp]
    rfl
  · rw [if_pos]
    rw [← Bool.not_eq_true, hsuits]
    omega

/-- DLOAD's operand out of range (R233). -/
theorem opDload_range {o : OpTw} {x : Nat} (hp : ((s.cw c).sreg o.w.toNat).poison = false) (hx : ((s.cw c).sreg o.w.toNat).val.toNat = x)
    (h : 2 ^ 32 ≤ x ∨ x / 2 ^ 15 % 2 = 1 ∨ 95 < x % 128 ∨ x / 512 % 64 = 0 ∨ 32 < x / 512 % 64) : s.opDload c cv o = s.aop c cv 1 := by
  unfold State.opDload
  rw [State.withW_clean hp, hx]
  simp only
  rw [if_pos]
  simp only [Bool.or_eq_true, decide_eq_true_eq]
  omega

/-- Rows out of range, and a plane that holds no weights, of a product (R227, R228). -/
theorem opProduct_checks {o : OpTa} {m : Nat} {sp : Bool} (hp : ((s.cw c).sreg o.w.toNat).poison = false)
    (hm : ((s.cw c).sreg o.w.toNat).val.toNat = m) :
    (m = 0 ∨ 32 < m → s.opProduct c cv o sp = s.aop c cv 1)
    ∧ (1 ≤ m → m ≤ 32 → (s.group (c.grp s)).active = .empty → s.opProduct c cv o sp = s.aop c cv 4) := by
  unfold State.opProduct
  rw [State.withW_clean hp, hm]
  simp only
  refine ⟨fun h => ?_, fun h1 h2 he => ?_⟩
  · rw [if_pos]
    simp only [Bool.or_eq_true, decide_eq_true_eq]
    omega
  · rw [if_neg, he]
    simp only [Bool.or_eq_true, decide_eq_true_eq]
    omega

/-- Rows out of range, and a plane that holds no codes, of a query (R234). -/
theorem opDqry_checks {o : OpTa} {m : Nat} (hp : ((s.cw c).sreg o.w.toNat).poison = false) (hm : ((s.cw c).sreg o.w.toNat).val.toNat = m) :
    (m = 0 ∨ 32 < m → s.opDqry c cv o = s.aop c cv 1)
    ∧ (1 ≤ m → m ≤ 32 → (s.group (c.grp s)).active = .empty → s.opDqry c cv o = s.aop c cv 4) := by
  unfold State.opDqry
  rw [State.withW_clean hp, hm]
  simp only
  refine ⟨fun h => ?_, fun h1 h2 he => ?_⟩
  · rw [if_pos]
    simp only [Bool.or_eq_true, decide_eq_true_eq]
    omega
  · rw [if_neg, he]
    simp only [Bool.or_eq_true, decide_eq_true_eq]
    omega

theorem opDfin_range {o : OpTa} {m : Nat} (hp : ((s.cw c).sreg o.w.toNat).poison = false) (hm : ((s.cw c).sreg o.w.toNat).val.toNat = m)
    (h : 2 ≤ m) : s.opDfin c cv o = s.aop c cv 1 := by
  unfold State.opDfin
  rw [State.withW_clean hp, hm]
  simp only
  rw [if_pos h]

theorem opDcent_range {o : OpTa} {m : Nat} (hp : ((s.cw c).sreg o.w.toNat).poison = false) (hm : ((s.cw c).sreg o.w.toNat).val.toNat = m)
    (h : 2 ^ 32 ≤ m ∨ m / 64 % 1024 ≠ 0 ∨ (s.group (c.grp s)).accPlaces.length ≤ m % 64) : s.opDcent c cv o = s.aop c cv 1 := by
  unfold State.opDcent
  rw [State.withW_clean hp, hm]
  simp only
  rw [if_pos]
  simpa only [Bool.or_eq_true, decide_eq_true_eq, or_assoc] using h

/-- An entry of a filtered table. -/
theorem Tab.get_filter_key {α : Type} (t : Tab α) (d : α) (p : Nat → Bool) (k : Nat) :
    Tab.get (t.filter (fun e => p e.1)) d k = if p k then Tab.get t d k else d := by
  induction t with
  | nil => exact (ite_self d).symm
  | cons e t ih =>
    obtain ⟨j, v⟩ := e
    by_cases hj : j = k
    · subst hj
      cases hp : p j with
      | true => rw [List.filter_cons_of_pos (by exact hp), if_pos rfl]; exact (if_pos rfl).trans (if_pos rfl).symm
      | false => rw [List.filter_cons_of_neg (by rw [hp]; exact Bool.false_ne_true), ih, hp]; rfl
    · have hget : Tab.get ((j, v) :: t) d k = Tab.get t d k := if_neg hj
      rw [hget]
      cases hp : p j with
      | true => rw [List.filter_cons_of_pos (by exact hp), ← ih]; exact if_neg hj
      | false => rw [List.filter_cons_of_neg (by rw [hp]; exact Bool.false_ne_true), ih]

/-- The elements of cleared accumulators, and of the others (R230). -/
theorem Group.acc_clearAccs (r : Group) (a n b i j : Nat) (hi : i < 32) (hj : j < 32) :
    (r.clearAccs a n).acc b i j = if a ≤ b ∧ b < a + n then {} else r.acc b i j := by
  unfold Group.acc Group.clearAccs
  dsimp only
  rw [Tab.get_filter_key r.accs {} (fun x => !(decide (1024 * a ≤ x) && decide (x < 1024 * (a + n)))) (1024 * b + 32 * i + j)]
  by_cases h : a ≤ b ∧ b < a + n
  · rw [if_pos h, if_neg]
    simp only [Bool.not_eq_true', Bool.and_eq_false_iff, decide_eq_false_iff_not]
    omega
  · rw [if_neg h, if_pos]
    simp only [Bool.not_eq_true', Bool.and_eq_false_iff, decide_eq_false_iff_not]
    omega

/-- ACLR, by its count and the accumulators that the group has (R230). -/
theorem opAclr_spec {o : OpTl} {n : Nat} (hp : ((s.cw c).sreg o.w.toNat).poison = false) (hn : ((s.cw c).sreg o.w.toNat).val.toNat = n) :
    (n = 0 ∨ 48 < n → s.opAclr c cv o = s.aop c cv 1)
    ∧ (1 ≤ n → n ≤ 48 → (s.group (c.grp s)).accPlaces.length < o.ad.toNat + n → s.opAclr c cv o = s.aop c cv 6)
    ∧ (1 ≤ n → n ≤ 48 → o.ad.toNat + n ≤ (s.group (c.grp s)).accPlaces.length →
        s.opAclr c cv o = (s.modGroup (c.grp s) (fun g => g.clearAccs o.ad.toNat n), some (arrOp c cv (2 * n)))) := by
  unfold State.opAclr
  rw [State.withW_clean hp, hn]
  refine ⟨fun h => ?_, fun h1 h2 hl => ?_, fun h1 h2 hl => ?_⟩
  · rw [if_pos]
    simp only [Bool.or_eq_true, decide_eq_true_eq]
    omega
  · rw [if_neg, if_pos hl]
    simp only [Bool.or_eq_true, decide_eq_true_eq]
    omega
  · rw [if_neg, if_neg (by omega)]
    simp only [Bool.or_eq_true, decide_eq_true_eq]
    omega

/-- TCKV of a tile whose sums are not poisoned, on cores without an armed injection (R222). -/
theorem opTckv_clean {o : OpTtk} (ha : (s.core (s.group (c.grp s)).core).armed = false) (hs : (s.tile c o.t.toNat).sumBad = false) :
    s.opTckv c cv o = (s, some { arrOp c cv 24 with
      report := some (o.w.toNat, BitVec.ofNat 64 ((s.tile c o.t.toNat).classify.cls + (s.tile c o.t.toNat).classify.row * 2 ^ 3
        + (s.tile c o.t.toNat).classify.col * 2 ^ 8))
      fault := if o.k = true ∧ (s.tile c o.t.toNat).classify.cls ≠ 0 then some { sumFault false o.t.toNat 0 with cv := cv } else none }) := by
  unfold State.opTckv
  simp only [State.touchTile_unarmed ha, hs, Bool.not_false, Bool.and_true, Bool.and_eq_true, decide_eq_true_eq]
  split
  · rfl
  · rfl

end Operations

section Issue
variable {s : State} {core g cv sl : Nat} {rest : List Nat}

/-- The signers of a complete set in hand (R31). -/
def State.signers (s : State) (core g cv sl : Nat) : Cur :=
  { (s.curAt core sl ((s.crew core sl).waiting (fun x => x = .conv cv))) with
    pc := ((s.group g).cv cv).pc, word := ((s.group g).cv cv).word, pfx := ((s.group g).cv cv).pfx }

section Complete
variable (hsl : ((s.core core).slots.filter (fun e => e.2.group = g && e.1 < 32 && e.2.no = ((s.group g).cv cv).owner)).map Prod.fst = sl :: rest)
  (hown : ((s.group g).cv cv).owned = true) (hsig : ((s.group g).cv cv).signed_ ≠ 0)
  (hset : ((s.group g).cv cv).signed_ = ((s.group g).cv cv).set) (hbusy : ∀ q ∈ (s.core core).arr, ¬(q.slot = sl ∧ q.cv = cv))
include hsl hown hsig hset hbusy

/-- A complete set whose fibres are all inactive is skipped (R31). -/
theorem State.tryConv_skips (hact : (s.crew core sl).active (s.signers core g cv sl).lanes (((s.group g).cv cv).word.extractLsb' 8 3) = 0) :
    s.tryConv core g cv = (s.unsign g cv).retire (s.signers core g cv sl) { swap := true } := by
  have hfree : (s.core core).arr.any (fun q => q.slot = sl && q.cv = cv) = false :=
    List.any_eq_false.2 fun q hq => by simpa using hbusy q hq
  unfold State.tryConv
  simp only [hsl, hown, hfree, ← hset, hsig, Bool.not_true, decide_false, ne_eq, not_true_eq_false, Bool.or_self, Bool.false_eq_true, if_false]
  exact if_pos hact

/-- A complete set with an active fibre issues its operation (R31, R226). -/
theorem State.tryConv_issues (hact : (s.crew core sl).active (s.signers core g cv sl).lanes (((s.group g).cv cv).word.extractLsb' 8 3) ≠ 0)
    {i : Instr} (hi : decodeWord ((s.group g).cv cv).word = .ok i) (ht : ∀ o, i ≠ .tld o ∧ i ≠ .tst o) {u : State} {q : ArrOp}
    (ha : s.arrayOp { s.signers core g cv sl with ins := i } cv i = (u, some q)) (hf : ∀ f, q.fault = some f → f.cause ≠ 0) :
    s.tryConv core g cv = u.newId.2.modCore core (fun k => { k with
      arr := k.arr ++ [{ q with id := u.nextId, accs := s.namedAccs { s.signers core g cv sl with ins := i } i }]
      served := if q.fault = none ∧ k.served ≠ none ∧ k.served ≠ some g then some noGroup else k.served }) := by
  have hfree : (s.core core).arr.any (fun q => q.slot = sl && q.cv = cv) = false :=
    List.any_eq_false.2 fun q hq => by simpa using hbusy q hq
  have hcause : q.fault.any (fun f => f.cause == 0) = false := by
    cases hq : q.fault with
    | none => rfl
    | some f => simpa using hf f hq
  have htensor : (match (generalizing := false) i with
      | .tld _ => true
      | .tst _ => true
      | _ => false) = false := by
    clear ha hi hf hact
    revert ht
    split
    · exact fun ht => absurd rfl (ht _).1
    · exact fun ht => absurd rfl (ht _).2
    · exact fun _ => rfl
  have hact' : ¬ (s.crew core sl).active ((s.crew core sl).waiting (fun x => x = .conv cv)) (wordGuard ((s.group g).cv cv).word) = 0 := hact
  unfold State.signers at ha
  unfold State.tryConv
  simp only [hsl, hown, hfree, ← hset, hsig, Bool.not_true, decide_false, ne_eq, not_true_eq_false, Bool.or_self, Bool.false_eq_true, if_false]
  rw [if_neg hact']
  simp only [hi, ha, hcause, Bool.false_eq_true, if_false]
  refine (if_neg fun hx => Bool.false_ne_true (htensor.symm.trans (Bool.and_eq_true_iff.1 hx).1)).trans ?_
  have hserved : ∀ k : Core, (q.fault.isNone && k.served.isSome && k.served ≠ some g) = true ↔ q.fault = none ∧ k.served ≠ none ∧ k.served ≠ some g :=
    fun k => by
      rw [Bool.and_eq_true, Bool.and_eq_true, Option.isNone_iff_eq_none, Option.isSome_iff_ne_none, decide_eq_true_eq, and_assoc]
  simp only [hserved]
  rfl

end Complete
end Issue

section Completion
variable {s : State} {q : ArrOp} {rest : List ArrOp}

/-- The signers of an operation that completes (R212). -/
def State.doers (s : State) (k : Nat) (q : ArrOp) : Cur :=
  { (s.curAt k q.slot ((s.crew k q.slot).waiting (fun x => x = .conv q.cv))) with pc := q.pc, word := q.word }

/-- The machine with the register of an operation free again, its report written and its cycles counted (R31, R212, R217). -/
def State.reported (s : State) (k : Nat) (q : ArrOp) (rest : List ArrOp) : State :=
  (match q.report with
    | some r => ((s.modCore k (fun x => { x with arr := rest })).unsign (s.crew k q.slot).group q.cv).modCrew k q.slot
        (fun w => w.setSreg r.1 { val := if q.consumed then BitVec.allOnes 64 else r.2, poison := q.consumed })
    | none => (s.modCore k (fun x => { x with arr := rest })).unsign (s.crew k q.slot).group q.cv).modCrew k q.slot (fun w => w.countEv 8 q.cycles)

/-- An operation completes: its flags are raised where it has an effect, and its signers go on, are rewound, or take its fault (R213, R217). -/
theorem State.arrDone_eq (h : (s.core s.ev.core).arr = q :: rest) :
    exec .arrayOperationComplete s = .next
      (let v := s.reported s.ev.core q rest
       let v := if q.fault.isNone || q.consumed then v.modCrew s.ev.core q.slot (fun w => { w with fflags := w.fflags ||| q.flags }) else v
       if q.consumed then v.consume (s.doers s.ev.core q)
       else match q.fault with
         | some f => v.takeFault (s.doers s.ev.core q) f
         | none => v.retire (s.doers s.ev.core q) { swap := true }) := by
  have hx : exec .arrayOperationComplete s = execArrayOperationComplete s := rfl
  have herase : (s.core s.ev.core).arr.erase q = rest := by rw [h, List.erase_cons_head]
  have hmod : s.modCore s.ev.core (fun k => { k with arr := k.arr.erase q }) = s.modCore s.ev.core (fun k => { k with arr := rest }) := by
    unfold State.modCore
    dsimp only
    rw [herase]
  rw [hx, execArrayOperationComplete, h]
  simp only
  unfold State.arrDone
  rw [hmod]
  rfl

/-- What an operation that has an effect and no fault leaves (R212). -/
theorem State.completes (v : State) (c : Cur) (fl : FSet) :
    v.FibreDone ((v.modCrew c.core c.slot (fun w => { w with fflags := w.fflags ||| fl })).retire c { swap := true }) c (fun _ f => f.noLatch) fl := by
  let x : Crew := { v.cw c with fflags := (v.cw c).fflags ||| fl }
  refine ⟨x.retired c { swap := true }, ?_, ?_, ?_, ?_, ?_, ?_, ?_⟩
  · exact State.modCrew_modCrew _ _ _ _ _
  · simpa using Crew.wentOn_of (v.cw c) x c { swap := true } (fun _ => rfl) rfl rfl rfl
  all_goals rw [Crew.retired_eq]

end Completion

/-- Settles O54, by the equations of the operations, of the set that is complete, and of the completion. -/
theorem arrayOperations : Obligations.ArrayOperations := by
  unfold Obligations.ArrayOperations
  refine ⟨?_, ?_, ?_⟩
  · intro s c cv g W op fault bad bound
    refine ⟨fun o => ?_, fun o hp i hi => ?_, fun o hp i hi => ?_, ?_, ?_, ?_, ?_⟩
    · exact congrArg (fun t : State => (t, some (arrOp c cv 1))) (State.bind_eq _ _)
    · obtain ⟨hwload, hdload⟩ := opWd_poison (s := s) (c := c) (cv := cv) hp
      simp only [List.mem_cons, List.not_mem_nil, or_false] at hi
      rcases hi with rfl | rfl
      · exact hwload
      · exact hdload
    · obtain ⟨hprod, hqry, hcent, hfin⟩ := opTa_poison (s := s) (c := c) (cv := cv) hp
      simp only [List.mem_cons, List.not_mem_nil, or_false] at hi
      rcases hi with rfl | rfl | rfl | rfl | rfl
      · exact hprod false
      · exact hprod true
      · exact hqry
      · exact hcent
      · exact hfin
    · intro o hp x
      exact ⟨fun hx => opWload_range hp hx, fun hx => opWload_empty hp hx, fun d hx hd ha => opWload_verifies hp rfl hx hd ha,
        fun hx => opDload_range hp rfl hx⟩
    · intro o hp m act
      refine ⟨fun i hi hm => ?_, fun h1 h2 he i hi => ?_, fun hm => opDfin_range hp rfl hm, fun hm => opDcent_range hp rfl hm⟩
      · simp only [List.mem_cons, List.not_mem_nil, or_false] at hi
        rcases hi with rfl | rfl | rfl
        · exact (opProduct_checks hp rfl).1 hm
        · exact (opProduct_checks hp rfl).1 hm
        · exact (opDqry_checks hp rfl).1 hm
      · simp only [List.mem_cons, List.not_mem_nil, or_false] at hi
        rcases hi with rfl | rfl | rfl
        · exact (opProduct_checks hp rfl).2 h1 h2 he
        · exact (opProduct_checks hp rfl).2 h1 h2 he
        · exact (opDqry_checks hp rfl).2 h1 h2 he
    · intro o hp n a
      obtain ⟨hbad, hshort, hgo⟩ := opAclr_spec (s := s) (c := c) (cv := cv) hp rfl
      exact ⟨hbad, hshort, fun h1 h2 hl => ⟨fun r => r.clearAccs a n, hgo h1 h2 hl, fun r => ⟨rfl, fun b i j => Group.acc_clearAccs r a n b i j⟩⟩⟩
    · intro o _ ha v x hs
      exact opTckv_clean ha hs
  · intro s core g cv sl rest c i r hsl hown hsig hset hbusy hc
    subst hc
    exact ⟨State.tryConv_skips hsl hown hsig hset hbusy, fun hact hi ht u q ha hf => State.tryConv_issues hsl hown hsig hset hbusy hact hi ht ha hf⟩
  · intro s q rest h k m c u v
    rw [State.arrDone_eq h]
    refine ⟨fun hc => ?_, fun f hc hf => ?_, fun hc hf => ?_⟩
    · simp only [hc, Bool.or_true, if_true]
      rfl
    · simp only [hc, hf, Option.isNone_some, Bool.or_false, Bool.false_eq_true, if_false]
      rfl
    · simp only [hc, hf, Option.isNone_none, Bool.or_false, Bool.false_eq_true, if_false, if_true]
      exact ⟨_, rfl, v.completes c q.flags⟩

end Sys2Proof.Machine
end

/-! The steps of a core beside its issues: the peloton, handlers, loads, copies, time limits, grows, counters and traces
(R36, R135, R136, R300, R333, R357, R376, R393, R405 to R414). -/

section
namespace Sys2Proof.Machine

section Peloton
variable {s : State}

/-- A fold that keeps its choice or takes the key of the entry at hand ends with the key of an entry. -/
theorem foldl_choice {α : Type} {f : Option Nat → α → Option Nat} {key : α → Nat}
    (hf : ∀ b e, f b e = b ∨ f b e = some (key e)) {x : Nat} (l : List α) (b : Option Nat) (h : l.foldl f b = some x) :
    b = some x ∨ ∃ e ∈ l, key e = x := by
  induction l generalizing b with
  | nil => exact .inl h
  | cons e l ih =>
    rcases ih (f b e) h with hb | ⟨e', he', hk⟩
    · rcases hf b e with h0 | h1
      · exact .inl (h0 ▸ hb)
      · exact .inr ⟨e, List.mem_cons_self, Option.some.inj (h1 ▸ hb)⟩
    · exact .inr ⟨e', List.mem_cons_of_mem _ he', hk⟩

/-- The crew that rotation displaces is of the peloton, outside a unit, and has stayed its 96 cycles (R36). -/
theorem State.rotateOut_some {core x : Nat} (h : s.rotateOut core = some x) :
    x < 32 ∧ ∃ v, (x, v) ∈ (s.core core).slots ∧ v.peloton = true ∧ v.unit = none ∧ v.since + 96 ≤ s.cycle := by
  unfold State.rotateOut at h
  split at h
  · cases h
  · obtain hn | ⟨⟨y, v⟩, he, rfl⟩ := foldl_choice (key := Prod.fst) (fun b e => by
      cases b with
      | none => exact .inr rfl
      | some y => dsimp only; split <;> simp) _ _ h
    · cases hn
    · simp only [List.mem_filter, Bool.and_eq_true, decide_eq_true_eq, Option.isNone_iff_eq_none] at he
      obtain ⟨hmem, ⟨⟨hp, hlt⟩, hu⟩, hsince⟩ := he
      exact ⟨hlt, v, hmem, hp, hu, hsince⟩

/-- The crew that enters the peloton is a ready one of the grupetto (R330). -/
theorem State.nextIn_some {core y : Nat} (h : s.nextIn core = some y) :
    y < 32 ∧ s.crewReady core y = true ∧ ∃ v, (y, v) ∈ (s.core core).slots ∧ v.peloton = false := by
  obtain hn | ⟨⟨x, v⟩, he, rfl⟩ := foldl_choice (key := Prod.fst) (fun b e => by
    cases b with
    | none => exact .inr rfl
    | some y => dsimp only; split <;> simp) _ _ h
  · cases hn
  · simp only [List.mem_filter, Bool.and_eq_true, decide_eq_true_eq, Bool.not_eq_true'] at he
    obtain ⟨hmem, ⟨hp, hlt⟩, hready⟩ := he
    exact ⟨hlt, hready, v, hmem, hp⟩

theorem exec_rotation_none (h : s.rotateOut s.ev.core = none) : exec .rotation s = .next s := by
  have hx : exec .rotation s = execRotation s := rfl
  rw [hx, execRotation, h]

theorem exec_rotation_some {x y : Nat} (hx : s.rotateOut s.ev.core = some x) (hy : s.nextIn s.ev.core = some y) :
    exec .rotation s = .next ((s.modCrew s.ev.core x (fun v => { (v.countEv 3 1) with peloton := false, since := s.cycle })).modCrew
      s.ev.core y (fun v => { v with peloton := true, since := s.cycle + 16 })) := by
  have h : exec .rotation s = execRotation s := rfl
  rw [h, execRotation, hx]
  simp only [State.exchange, hy]
  rfl

end Peloton

section Handlers
variable {s : State} {h : HandlerReq} {rest : List HandlerReq}

theorem exec_handlerStart_waits (hw : s.crew? s.ev.core 32 ≠ none ∨ s.heldWrites ≠ [] ∨ (s.core s.ev.core).handlers = []) :
    exec .handlerStart s = .next s := by
  have hx : exec .handlerStart s = execHandlerStart s := rfl
  rw [hx]
  unfold execHandlerStart
  dsimp only
  split
  · rfl
  next hfree =>
    simp only [Bool.or_eq_true, not_or, Bool.not_eq_true, Option.isSome_eq_false_iff, Option.isNone_iff_eq_none,
      Bool.not_eq_false', List.isEmpty_iff] at hfree
    obtain ⟨hcrew, hheld⟩ := hfree
    have hh : (s.core s.ev.core).handlers = [] := by
      rcases hw with h1 | h2 | h3
      · exact absurd hcrew h1
      · exact absurd hheld h2
      · exact h3
    rw [hh]

/-- The oldest queued handler starts, or fails the node where its vector has been cleared (R376, R377). -/
theorem exec_handlerStart (hc : s.crew? s.ev.core 32 = none) (hw : s.heldWrites = [])
    (hh : (s.core s.ev.core).handlers = h :: rest) :
    exec .handlerStart s = .next (
      let v := s.modCore s.ev.core (fun k => { k with handlers := rest })
      let u := v.devTouch h.ctx h.record 2
      if (s.ctx h.ctx).tvec = 0 then
        u.failTrap s.ev.core h.slot ((u.devRead h.ctx h.record 2).elim (faultOf 18 0) (fun b => faultOf (b.getD 0 0).toNat (b.getD 1 0).toNat))
          { u.recordCtx s.ev.core h.slot with unh := true }
      else (v.dropRecord s.ev.core h.ctx h.record).setCrew s.ev.core 32 (handlerCrew v s.ev.core h)) := by
  have hx : exec .handlerStart s = execHandlerStart s := rfl
  rw [hx]
  unfold execHandlerStart
  simp only [hc, hw, hh, Option.isSome_none, List.isEmpty_nil, Bool.not_true, Bool.or_false, Bool.false_eq_true, if_false]
  by_cases ht : (s.ctx h.ctx).tvec = 0
  · rw [if_pos ht]
    refine (if_pos ht).trans ?_
    cases State.devRead _ _ _ _ <;> rfl
  · rw [if_neg ht]
    exact if_neg ht

theorem Tab.get_lanes {α : Type} (d f : α) {l : Nat} (h : l < 32) : Tab.get ((List.range 32).map (fun l => (l, f))) d l = f := by
  have hm : ∀ ls : List Nat, l ∈ ls → Tab.get (ls.map (fun l => (l, f))) d l = f := by
    intro ls
    induction ls with
    | nil => simp
    | cons j ls ih =>
      intro hl
      simp only [List.map_cons, Tab.get]
      split
      · rfl
      · exact ih ((List.mem_cons.mp hl).resolve_left (fun e => ‹¬ j = l› e.symm))
  exact hm _ (List.mem_range.mpr h)

theorem handlerCrew_sreg (core n : Nat) (hn : n < 3) : (handlerCrew s core h).sreg n
    = if n = 0 then { val := BitVec.ofNat 64 h.record } else if n = 1 then { val := h.info } else { val := BitVec.ofNat 64 h.index } := by
  unfold Crew.sreg handlerCrew
  dsimp only
  rw [Tab.get_set, Tab.get_set, Tab.get_set]
  obtain rfl | rfl | rfl : n = 0 ∨ n = 1 ∨ n = 2 := by omega
  all_goals rfl

theorem handlerCrew_fibre (core : Nat) {l : Nat} (hl : l < 32) : (handlerCrew s core h).fibre l
    = { st := .live, pc := (s.ctx h.ctx).tvec.setWidth 57, restart := (s.ctx h.ctx).tvec.setWidth 57 - 4 } := by
  unfold Crew.fibre handlerCrew
  dsimp only
  rw [Tab.get_lanes _ _ hl]

end Handlers

section Loads
variable {s : State} {q : PLoad} {rest : List PLoad}

theorem exec_loadDataReturn_none (h : (s.crew s.ev.core s.ev.slot).loads = []) : exec .loadDataReturn s = .next s := by
  have hx : exec .loadDataReturn s = execLoadDataReturn s := rfl
  rw [hx, execLoadDataReturn, h]

theorem PLoad.any_place (q : PLoad) : (q.lanes.any fun x => match x.place with
      | .peer _ _ => false
      | .mem _ _ _ => true
      | .pad _ _ => true
      | .die _ => true) = true ↔ ∃ x ∈ q.lanes, ∀ n a, x.place ≠ .peer n a := by
  rw [List.any_eq_true]
  refine exists_congr fun x => and_congr_right fun _ => ?_
  cases x.place <;> simp

/-- The places of this device come first (R300); a home that moves is waited for (R352). -/
theorem exec_loadDataReturn_here (h : (s.crew s.ev.core s.ev.slot).loads = q :: rest) (hl : ∃ x ∈ q.lanes, ∀ n a, x.place ≠ .peer n a) :
    exec .loadDataReturn s = .next (if s.loadMoves s.ev.core s.ev.slot q = true then s else s.performLoad s.ev.core s.ev.slot q) := by
  have hx : exec .loadDataReturn s = execLoadDataReturn s := rfl
  rw [hx, execLoadDataReturn, h]
  exact if_pos (q.any_place.mpr hl)

/-- What peers hold waits for an answer (R438). -/
theorem exec_loadDataReturn_peers (h : (s.crew s.ev.core s.ev.slot).loads = q :: rest)
    (hl : ¬ ∃ x ∈ q.lanes, ∀ n a, x.place ≠ .peer n a) :
    exec .loadDataReturn s = .next ((q.peers.find? (fun p => s.peerState p ≠ 1)).elim s (fun p =>
      if s.ev.flag = true ∨ s.peerState p = 2 then s.poisonLoad s.ev.core s.ev.slot q p else s.peerLoad s.ev.core s.ev.slot q p)) := by
  have hx : exec .loadDataReturn s = execLoadDataReturn s := rfl
  rw [hx, execLoadDataReturn, h]
  refine (if_neg (fun hh => hl (q.any_place.mp hh))).trans ?_
  cases List.find? _ _ with
  | none => rfl
  | some p => simp only [Bool.or_eq_true, decide_eq_true_eq, Option.elim_some]

end Loads

section Copies
variable {s : State} {x : Copy}

theorem exec_copyStart_none (h : 16 ≤ ((s.core s.ev.core).copies.filter (fun y => y.started)).length
    ∨ (s.core s.ev.core).copies.find? (fun y => !y.started) = none) : exec .copyStart s = .next s := by
  have hx : exec .copyStart s = execCopyStart s := rfl
  have hn : (s.core s.ev.core).copyNext = none := by
    unfold Core.copyNext
    rcases h with h | h
    · exact if_neg (Nat.not_lt.mpr h)
    · rw [h, ite_self]
  rw [hx, execCopyStart, hn]

theorem exec_copyStart_some (hl : ((s.core s.ev.core).copies.filter (fun y => y.started)).length < 16)
    (h : (s.core s.ev.core).copies.find? (fun y => !y.started) = some x) : exec .copyStart s = .next (s.startCopy s.ev.core x) := by
  have hx : exec .copyStart s = execCopyStart s := rfl
  have hn : (s.core s.ev.core).copyNext = some x := (if_pos hl).trans h
  rw [hx, execCopyStart, hn]

theorem exec_copyPiece_none (h : (s.core s.ev.core).copyLive[s.ev.idx]? = none) : exec .copyPiece s = .next s := by
  have hx : exec .copyPiece s = execCopyPiece s := rfl
  rw [hx, execCopyPiece, h]

theorem exec_copyPiece_some (h : (s.core s.ev.core).copyLive[s.ev.idx]? = some x) :
    exec .copyPiece s = .next (s.copyPiece s.ev.core x) := by
  have hx : exec .copyPiece s = execCopyPiece s := rfl
  rw [hx, execCopyPiece, h]

theorem State.copyPiece_waits {core : Nat} (h : s.copyWaits core x = true) : s.copyPiece core x = s := by
  unfold State.copyPiece
  rw [if_pos h]

theorem exec_copyComplete_none (h : (s.core s.ev.core).copyOver = none) : exec .copyComplete s = .next s := by
  have hx : exec .copyComplete s = execCopyComplete s := rfl
  rw [hx, execCopyComplete, h]

theorem exec_copyComplete_some (h : (s.core s.ev.core).copyOver = some x) : exec .copyComplete s = .next (s.endCopy s.ev.core x) := by
  have hx : exec .copyComplete s = execCopyComplete s := rfl
  rw [hx, execCopyComplete, h]

/-- A copy at its end has no write on its way, and has failed or moved every piece (R333). -/
theorem Core.copyOver_some {k : Core} (h : k.copyOver = some x) :
    x.started = true ∧ x.out = 0 ∧ (x.fail ≠ none ∨ x.total ≤ x.done) := by
  have hp := List.find?_some h
  simpa only [Bool.and_eq_true, decide_eq_true_eq, Bool.or_eq_true, Option.isSome_iff_ne_none, and_assoc] using hp

theorem exec_copyClaimTimeout_none (h : s.copyLate s.ev.core = none) : exec .copyClaimTimeout s = .next s := by
  have hx : exec .copyClaimTimeout s = execCopyClaimTimeout s := rfl
  rw [hx]
  unfold execCopyClaimTimeout
  simp only [h]

/-- A copy is late once its claim has been asked for 1,048,576 cycles (R333). -/
theorem State.copyLate_some {core : Nat} (h : s.copyLate core = some x) : ∃ t, x.since = some t ∧ t + 1048576 ≤ s.cycle := by
  have hp := List.find?_some h
  cases hs : x.since with
  | none => simp [hs] at hp
  | some t =>
    rw [hs, Bool.and_eq_true] at hp
    exact ⟨t, rfl, of_decide_eq_true hp.2⟩

theorem exec_copyClaimTimeout_some (h : s.copyLate s.ev.core = some x) :
    ∃ t, exec .copyClaimTimeout s = .next t ∧
      (t = s.failCopy s.ev.core x.id { cause := 3, addr := x.claimAddr } false
        ∨ t = (s.failCopy s.ev.core x.id { cause := 3, addr := x.claimAddr } false).modCluster (clusterOf s.ev.core)
          (fun q => { q with claims := q.claims.filter (fun r => !(r.core = s.ev.core && r.slot = engineSlot)) })) := by
  have hx : exec .copyClaimTimeout s = execCopyClaimTimeout s := rfl
  rw [hx]
  unfold execCopyClaimTimeout
  simp only [h]
  split
  · exact ⟨_, rfl, .inl rfl⟩
  · exact ⟨_, rfl, .inr rfl⟩

end Copies

section Limits
variable {s : State}

/-- What a swap point's uniform result leaves (R38, R39). -/
theorem State.putU_swap (s : State) (c : Cur) (d : BitVec 5) (m : BitVec 32) (x : Word) :
    s.StatusDone (s.putU c false d m x { swap := true }) c d x := by
  let w := s.cw c
  let w1 : Crew := w.setSreg d.toNat { val := x }
  let r : Done := { swap := true, latch := (lanesOf m).map (fun l => (l, x)) }
  have e : s.putU c false d m x { swap := true } = s.setCrew c.core c.slot (w1.retired c r) := by
    unfold State.putU State.retire
    rw [State.modCrew_modCrew]
    rfl
  have hgo := Crew.wentOn_of w w1 c r (fun _ => rfl) rfl rfl rfl
  have hf : (fun (l : Nat) (f : Fibre) => (fun f : Fibre => if r.swap then f.noLatch else f) (match r.latch.find? (fun e => e.1 = l) with
        | some e => f.latched e.2
        | none => f)) = fun _ f => f.noLatch := by
    funext l f
    cases r.latch.find? (fun e => e.1 = l) <;> rfl
  refine ⟨w1.retired c r, e, hf ▸ hgo, ?_, ?_, ?_, ?_, fun n => ?_⟩
  all_goals rw [Crew.retired_eq]
  · rfl
  · rfl
  · rfl
  · rfl
  · exact Crew.sreg_setSreg w d.toNat n { val := x }

theorem exec_ownxTimeout_none (h : s.lateLanes s.ev.core s.ev.slot Wait.ownxSince = 0) : exec .ownxTimeout s = .next s := by
  have hx : exec .ownxTimeout s = execOwnxTimeout s := rfl
  rw [hx]
  exact if_pos h

theorem exec_ownxTimeout {m : BitVec 32} {o : OpDU} (hm : s.lateLanes s.ev.core s.ev.slot Wait.ownxSince = m) (h : m ≠ 0)
    (hd : decodeWord (s.curAt s.ev.core s.ev.slot m).word = .ok (.ownx o)) :
    exec .ownxTimeout s = .next (s.ownxGo (s.curAt s.ev.core s.ev.slot m) o) := by
  have hx : exec .ownxTimeout s = execOwnxTimeout s := rfl
  rw [hx]
  unfold execOwnxTimeout
  simp only [hm, hd, if_neg h]

theorem exec_haltgTimeout_none (h : s.lateLanes s.ev.core s.ev.slot Wait.haltSince = 0) : exec .haltgTimeout s = .next s := by
  have hx : exec .haltgTimeout s = execHaltgTimeout s := rfl
  rw [hx]
  exact if_pos h

theorem exec_haltgTimeout {m : BitVec 32} {o : OpDA} (hm : s.lateLanes s.ev.core s.ev.slot Wait.haltSince = m) (h : m ≠ 0)
    (hd : decodeWord (s.curAt s.ev.core s.ev.slot m).word = .ok (.haltg o)) :
    exec .haltgTimeout s = .next (s.status (s.curAt s.ev.core s.ev.slot m) o.d (s.act (s.curAt s.ev.core s.ev.slot m) o.g) 3) := by
  have hx : exec .haltgTimeout s = execHaltgTimeout s := rfl
  rw [hx]
  unfold execHaltgTimeout
  simp only [hm, hd, if_neg h]

end Limits

section Grows
variable {s : State} {r : GrowReq}

theorem exec_growGrant_none (h : s.firstGrow s.ev.core = none ∨ ∃ r, s.firstGrow s.ev.core = some r ∧ s.grantOf s.ev.core r = none) :
    exec .growGrant s = .next s := by
  have hx : exec .growGrant s = execGrowGrant s := rfl
  rw [hx]
  unfold execGrowGrant
  rcases h with h | ⟨r, h, hg⟩
  · simp only [h]
  · simp only [h, hg]

theorem exec_growGrant_some {t : State} (h : s.firstGrow s.ev.core = some r) (hg : s.grantOf s.ev.core r = some t) :
    exec .growGrant s = .next (t.finishGrow s.ev.core r 0) := by
  have hx : exec .growGrant s = execGrowGrant s := rfl
  rw [hx]
  unfold execGrowGrant
  simp only [h, hg]

theorem exec_growDeadlockBreak_none (h : (s.core s.ev.core).blocked = none ∨ s.lastGrow s.ev.core = none) :
    exec .growDeadlockBreak s = .next s := by
  have hx : exec .growDeadlockBreak s = execGrowDeadlockBreak s := rfl
  rw [hx]
  unfold execGrowDeadlockBreak
  rcases h with h | h
  · simp only [h]
  · cases hb : (s.core s.ev.core).blocked <;> simp only [hb, h]

theorem exec_growDeadlockBreak_some {t : Nat} (hb : (s.core s.ev.core).blocked = some t) (h : s.lastGrow s.ev.core = some r) :
    exec .growDeadlockBreak s = .next (if t + 1024 ≤ s.cycle then s.finishGrow s.ev.core r 1 else s) := by
  have hx : exec .growDeadlockBreak s = execGrowDeadlockBreak s := rfl
  rw [hx]
  unfold execGrowDeadlockBreak
  simp only [hb, h, blockedLimit]
  exact (apply_ite Host.Outcome.next _ _ _).symm

/-- A request leaves its queue, and the REGG or ACCG that waits for it ends with the status (R135). -/
theorem State.finishGrow_spec {u : State} {m : BitVec 32} (core st : Nat)
    (hu : s.modCore core (fun k => { k with grows := k.grows.erase r }) = u)
    (hm : (u.crew core r.slot).waiting (fun x => x = .grow) &&& r.lanes = m) :
    (m = 0 → s.finishGrow core r st = u)
    ∧ (∀ o, m ≠ 0 → decodeWord (u.curAt core r.slot m).word = .ok (.regg o) →
      s.finishGrow core r st = u.putU (u.curAt core r.slot m) false r.d m (BitVec.ofNat 64 st) { swap := true })
    ∧ ∀ o, m ≠ 0 → decodeWord (u.curAt core r.slot m).word = .ok (.accg o) →
      s.finishGrow core r st = u.putU (u.curAt core r.slot m) false r.d (u.act (u.curAt core r.slot m) o.g) (BitVec.ofNat 64 st)
        { swap := true } := by
  unfold State.finishGrow
  simp only [hu, hm]
  refine ⟨fun h => if_pos h, fun o h hd => ?_, fun o h hd => ?_⟩
  · simp only [if_neg h, hd]
  · simp only [if_neg h, hd]

end Grows

section Counters
variable {s : State}

theorem exec_progApply_none (h : (s.crew s.ev.core s.ev.slot).progs = []) : exec .progApply s = .next s := by
  have hx : exec .progApply s = execProgApply s := rfl
  rw [hx]
  unfold execProgApply
  simp only [h]

/-- The oldest increment of a crew is added to its context's counter (R405). -/
theorem exec_progApply_some {core sl : Nat} {p : Nat × Word} {rest : List (Nat × Word)} (hc : s.ev.core = core) (hs : s.ev.slot = sl)
    (h : (s.crew core sl).progs = p :: rest) :
    exec .progApply s = .next ((s.modCtx (s.crewCtx core sl) (fun x => { x with
      prog := Tab.set x.prog 0 p.1 (Tab.get x.prog 0 p.1 + p.2) })).modCrew core sl (fun w => { w with progs := rest })) := by
  have hx : exec .progApply s = execProgApply s := rfl
  rw [hx]
  unfold execProgApply
  simp only [hc, hs, h]

theorem Ctx.get_prog_add (x : Ctx) (k : Nat) (n : Word) (j : Nat) :
    Tab.get (Tab.set x.prog 0 k (Tab.get x.prog 0 k + n)) 0 j = Tab.get x.prog 0 j + (if j = k then n else 0) := by
  rw [Tab.get_set]
  split
  · subst j; rfl
  · simp

theorem exec_sampleTick_none (h : (s.core s.ev.core).samples = []) : exec .sampleTick s = .next s := by
  have hx : exec .sampleTick s = execSampleTick s := rfl
  rw [hx]
  unfold execSampleTick
  simp only [h]

/-- A sample of a crew that has ended since leaves no record (R411, R413). -/
theorem exec_sampleTick_some {x pc iss : Nat} {lanes : BitVec 32} {long : Bool} {rest : List (Nat × Nat × Nat × BitVec 32 × Bool)}
    (h : (s.core s.ev.core).samples = (x, pc, iss, lanes, long) :: rest) :
    exec .sampleTick s = .next (
      let u := s.modCore s.ev.core (fun k => { k with samples := rest })
      if s.crew? s.ev.core x = none then u else u.trace s.ev.core x 4 (BitVec.ofNat 57 pc) iss lanes (if long = true then 1 else 0) 0) := by
  have hx : exec .sampleTick s = execSampleTick s := rfl
  rw [hx]
  unfold execSampleTick
  simp only [h]
  rw [State.crew?_modCore rfl]
  cases hc : s.crew? s.ev.core x with
  | none => rfl
  | some w => rfl

theorem exec_trialEnd (t : Nat) (h : s.trial.endAt = some t) :
    exec .trialEnd s = .next (if s.trial.active = true ∧ t ≤ s.cycle
      then { s with trial := { s.trial with active := false, endAt := none } } else s) := by
  have hx : exec .trialEnd s = execTrialEnd s := rfl
  rw [hx]
  unfold execTrialEnd
  simp only [h, Bool.and_eq_true, decide_eq_true_eq]
  exact (apply_ite Host.Outcome.next _ _ _).symm

theorem exec_trialEnd_none (h : s.trial.endAt = none) : exec .trialEnd s = .next s := by
  have hx : exec .trialEnd s = execTrialEnd s := rfl
  rw [hx]
  unfold execTrialEnd
  simp only [h]

/-- A crew without a retirement for 2^32 cycles is hung (R409). -/
theorem exec_watchdogHang {core sl : Nat} {w : Crew} (hc : s.ev.core = core) (hs : s.ev.slot = sl) (hw : s.crew core sl = w) :
    exec .watchdogHang s = .next (if (s.crew? core sl).isSome = true ∧ 2 ^ 32 ≤ w.wdog
      then (s.nodeEvent (s.crewLid core sl) { cause := 16, detail := 0x10000, lanes := w.visMask w.liveMask }
        { s.recordCtx core sl with handler := w.sys, rb := true, pc := w.lastPc }).failNode (s.crewLid core sl) 2
      else s) := by
  have hx : exec .watchdogHang s = execWatchdogHang s := rfl
  rw [hx]
  unfold execWatchdogHang
  simp only [hc, hs, hw, Bool.and_eq_true, decide_eq_true_eq]
  exact (apply_ite Host.Outcome.next _ _ _).symm

theorem exec_peerUnavailable_none (h : (s.crew s.ev.core s.ev.slot).frozen = none) : exec .peerUnavailable s = .next s := by
  have hx : exec .peerUnavailable s = execPeerUnavailable s := rfl
  rw [hx]
  unfold execPeerUnavailable
  simp only [h]

/-- A freeze lasts 2 s (R407, R408). -/
theorem exec_peerUnavailable_early {t : Nat} (h : (s.crew s.ev.core s.ev.slot).frozen = some t) (ht : s.timeNs < t + 2000000000) :
    exec .peerUnavailable s = .next s := by
  have hx : exec .peerUnavailable s = execPeerUnavailable s := rfl
  rw [hx]
  unfold execPeerUnavailable
  simp only [h]
  exact if_neg (Nat.not_le.mpr ht)

theorem exec_peerUnavailable {core sl t : Nat} (hc : s.ev.core = core) (hs : s.ev.slot = sl)
    (h : (s.crew core sl).frozen = some t) (ht : t + 2000000000 ≤ s.timeNs) :
    exec .peerUnavailable s = .next
      ((((s.peersWaited core sl).filter (fun p => s.peerState p = 1)).foldl (fun u p => u.peerGone core sl p) s).modCrew core sl
        (fun w => w.modLanes w.liveMask (fun _ f => match f.wait with
          | .peer p _ => { f with wait := .peer p 0 }
          | _ => f))) := by
  have hx : exec .peerUnavailable s = execPeerUnavailable s := rfl
  rw [hx]
  unfold execPeerUnavailable
  simp only [hc, hs, h]
  exact if_pos ht

end Counters

/-- Settles O55, by an equation for each event and each of its conditions. -/
theorem coreEvents : Obligations.CoreEvents := by
  unfold Obligations.CoreEvents
  intro s core sl k w
  refine ⟨exec_rotation_none, fun x y hx hy => ⟨State.rotateOut_some hx, State.nextIn_some hy, exec_rotation_some hx hy⟩,
    exec_handlerStart_waits, ?_, exec_loadDataReturn_none, ?_, exec_copyStart_none, fun x => exec_copyStart_some, exec_copyPiece_none,
    fun x hx => ⟨exec_copyPiece_some hx, fun hw => (exec_copyPiece_some hx).trans (congrArg _ (State.copyPiece_waits hw))⟩,
    exec_copyComplete_none, fun x hx => ?_, exec_copyClaimTimeout_none,
    fun x hx => ⟨State.copyLate_some hx, exec_copyClaimTimeout_some hx⟩, ⟨exec_ownxTimeout_none, fun o => exec_ownxTimeout rfl⟩,
    ⟨exec_haltgTimeout_none, fun o hm hd => ⟨_, exec_haltgTimeout rfl hm hd, s.putU_swap _ _ _ _⟩⟩, exec_growGrant_none,
    fun r t => exec_growGrant_some, exec_growDeadlockBreak_none, fun r t hb hr => ?_, fun r st => State.finishGrow_spec core st rfl rfl,
    exec_progApply_none, fun p rest hp => ?_, exec_sampleTick_none, fun x pc iss lanes long rest hx => ?_, ?_, fun t ha he ht => ?_,
    fun hc hw => ?_, fun hw => ?_, ?_, fun t => exec_peerUnavailable rfl rfl⟩
  · intro h rest hc hw hh
    have hx := exec_handlerStart hc hw hh
    refine ⟨fun b ht hb => ?_, fun ht hb => ?_, fun ht => ?_⟩
    · rw [hx, if_pos ht, hb]
      rfl
    · rw [hx, if_pos ht, hb]
      rfl
    · rw [if_neg ht] at hx
      refine ⟨_, hx, ?_⟩
      rw [State.crew_setCrew_same]
      exact ⟨rfl, rfl, rfl, rfl, rfl, rfl, rfl, handlerCrew_sreg core 0 (by decide), handlerCrew_sreg core 1 (by decide),
        handlerCrew_sreg core 2 (by decide), fun l hl => handlerCrew_fibre core hl⟩
  · intro q rest hq
    refine ⟨fun hl hm => ?_, fun hl hm => ?_, fun hl hp => ?_, fun hl p hp => ?_⟩
    · rw [exec_loadDataReturn_here hq hl, if_neg (Bool.eq_false_iff.mp hm)]
    · rw [exec_loadDataReturn_here hq hl, if_pos hm]
    · rw [exec_loadDataReturn_peers hq hl, List.find?_eq_none.mpr (by simpa using hp)]
      rfl
    · rw [exec_loadDataReturn_peers hq hl, hp]
      rfl
  · obtain ⟨hs, ho, hf⟩ := Core.copyOver_some hx
    exact ⟨hs, ho, hf, exec_copyComplete_some hx⟩
  · have hx := exec_growDeadlockBreak_some hb hr
    exact ⟨fun ht => hx.trans (by rw [if_pos ht]), fun ht => hx.trans (by rw [if_neg (Nat.not_le.mpr ht)])⟩
  · refine ⟨_, exec_progApply_some rfl rfl hp, State.crew_modCrew_same _ _ _ _, fun j => ?_⟩
    exact (congrArg (Tab.get · 0 j) (congrArg Ctx.prog (Tab.get_set_same _ _ _ _))).trans (Ctx.get_prog_add _ _ _ _)
  · have hs := exec_sampleTick_some hx
    exact ⟨fun hc => hs.trans (by rw [if_pos hc]), fun hc => hs.trans (by rw [if_neg (Option.isSome_iff_ne_none.mp hc)])⟩
  · rintro (ha | he | ⟨t, he, ht⟩)
    · cases he : s.trial.endAt with
      | none => exact exec_trialEnd_none he
      | some t => rw [exec_trialEnd t he, if_neg (by simp [ha])]
    · exact exec_trialEnd_none he
    · rw [exec_trialEnd t he, if_neg (fun h => Nat.not_le.mpr ht h.2)]
  · rw [exec_trialEnd t he, if_pos ⟨ha, ht⟩]
  · rw [exec_watchdogHang rfl rfl rfl, if_pos ⟨hc, hw⟩]
  · have hn : ¬((s.crew? core sl).isSome = true ∧ 2 ^ 32 ≤ w.wdog) := by
      rintro ⟨hc, hd⟩
      rcases hw with h | h
      · simp [h] at hc
      · exact Nat.not_le.mpr h hd
    exact (exec_watchdogHang rfl rfl rfl).trans (congrArg _ (if_neg hn))
  · rintro (h | ⟨t, h, ht⟩)
    · exact exec_peerUnavailable_none h
    · exact exec_peerUnavailable_early h ht

end Sys2Proof.Machine
end

/-! The dispatcher, the admitter, the prologue, and the records that report nodes (R51 to R53, R266, R325 to R329, R341, R342). -/

section
namespace Sys2Proof.Machine

section Launch
variable {s : State}

theorem State.freeTag_ne_zero {g : Nat} (h : s.freeTag = some g) : g ≠ 0 := by
  obtain ⟨x, _, rfl⟩ := List.mem_map.mp (List.mem_of_find?_eq_some h)
  exact Nat.succ_ne_zero x

/-- The staging tag that a dispatched node gets: none is 0 (R266, R355). -/
def State.tagFor (s : State) (n : Node) : Nat := if (LRec.read n.recd).staged then s.freeTag.getD 0 else 0

/-- A node as it is dispatched with a staging tag (R325). -/
def Node.dispatched (n : Node) (r : LRec) (t : Nat) : Node :=
  { n with phase := .running, stag := t, left := r.count * (if r.gangw = 0 then 1 else r.gangw), ended := 0, clusters := [], cores := [] }

theorem State.dispatch_eq (s : State) (n : Node) :
    s.dispatch n = { s with
      stagingT := if s.tagFor n = 0 then s.stagingT else Tab.set s.stagingT .free (s.tagFor n) (.running n.lid)
      nodes := Tab.put s.nodes n.lid ((s.node n.lid).dispatched (LRec.read n.recd) (s.tagFor n))
      pending := s.pending ++ [{ lid := n.lid, count := (LRec.read n.recd).count }] } := by
  have hs : (if s.tagFor n = 0 then s else ({ s with stagingT := Tab.set s.stagingT .free (s.tagFor n) (.running n.lid) } : State))
      = ({ s with stagingT := if s.tagFor n = 0 then s.stagingT else Tab.set s.stagingT .free (s.tagFor n) (.running n.lid) } : State) := by
    split <;> rfl
  exact congrArg (fun u : State => ({ u.modNode n.lid (Node.dispatched · (LRec.read n.recd) (s.tagFor n)) with
    pending := u.pending ++ [{ lid := n.lid, count := (LRec.read n.recd).count }] } : State)) hs

theorem State.node_dispatch (s : State) (n : Node) (l : Nat) :
    (s.dispatch n).node l = if l = n.lid then (s.node n.lid).dispatched (LRec.read n.recd) (s.tagFor n) else s.node l := by
  rw [State.dispatch_eq]
  unfold State.node
  dsimp only
  split
  · subst l; rw [Tab.find_put_same]; rfl
  · rw [Tab.find_put_other _ _ ‹_›]

/-- A node that is dispatched without a staging tag (R325). -/
theorem State.dispatch_unstaged {n : Node} (h : (LRec.read n.recd).staged = false) :
    ((s.dispatch n).node n.lid).stag = 0 ∧ (s.dispatch n).stagingT = s.stagingT := by
  have ht : s.tagFor n = 0 := if_neg (Bool.eq_false_iff.mp h)
  rw [State.node_dispatch, if_pos rfl, State.dispatch_eq, ht]
  exact ⟨rfl, rfl⟩

/-- A staged node takes the least free staging tag (R266, R355). -/
theorem State.dispatch_staged {n : Node} {g : Nat} (h : (LRec.read n.recd).staged = true) (hg : s.freeTag = some g) :
    ((s.dispatch n).node n.lid).stag = g ∧ (s.dispatch n).staging g = .running n.lid := by
  have ht : s.tagFor n = g := (if_pos h).trans (by rw [hg]; rfl)
  rw [State.node_dispatch, if_pos rfl, State.dispatch_eq, ht]
  refine ⟨rfl, ?_⟩
  unfold State.staging
  dsimp only
  rw [if_neg (State.freeTag_ne_zero hg), Tab.get_set_same]

theorem State.dispatch_frame (s : State) (n : Node) :
    (s.dispatch n).pending = s.pending ++ [{ lid := n.lid, count := (LRec.read n.recd).count }]
    ∧ ((s.dispatch n).node n.lid).phase = .running ∧ ∀ l, l ≠ n.lid → (s.dispatch n).node l = s.node l := by
  refine ⟨?_, ?_, fun l hl => ?_⟩
  · rw [State.dispatch_eq]
  · rw [State.node_dispatch, if_pos rfl]
    rfl
  · rw [State.node_dispatch, if_neg hl]

theorem exec_nodeDispatch_waits (h3 : s.phase ≠ 3) (h4 : s.phase ≠ 4) : exec .nodeDispatch s = .next s := by
  have hx : exec .nodeDispatch s = execNodeDispatch s := rfl
  rw [hx]
  exact if_pos (by simp [h3, h4])

/-- The entries examined, and those without open predecessors made ready (R325). -/
def State.examined (s : State) : State :=
  let u := s.unseen.foldl (fun u l => if (Tab.find u.nodes l).isNone then u.examine l else u) s
  (u.spans.filter u.nowReady).foldl (fun u l => u.modNode l (fun n => { n with phase := .ready u.timeNs, readySince := u.timeNs })) u

theorem exec_nodeDispatch (h : s.phase = 3 ∨ s.phase = 4) :
    exec .nodeDispatch s = .next (s.examined.nextNode.elim s.examined s.examined.dispatch) := by
  have hx : exec .nodeDispatch s = execNodeDispatch s := rfl
  rw [hx]
  refine (if_neg (by simp; omega)).trans ?_
  show (match s.examined.nextNode with
    | none => Host.Outcome.next s.examined
    | some n => Host.Outcome.next (s.examined.dispatch n)) = _
  cases s.examined.nextNode <;> rfl

theorem State.examined_settled (hu : s.unseen = []) (hr : ∀ l ∈ s.spans, s.nowReady l = false) : s.examined = s := by
  unfold State.examined
  rw [hu]
  dsimp only [List.foldl_nil]
  rw [List.filter_eq_nil_iff.mpr fun l hl => Bool.eq_false_iff.mp (hr l hl), List.foldl_nil]

theorem State.admission_admits {h : PendGroup} {rest : List PendGroup} {t : State} (hu : s.units = h :: rest)
    (ht : s.tryUnit h [] = some t) : s.admission = some { t with marked := [], markHead := none } := by
  unfold State.admission
  rw [hu]
  dsimp only
  rw [ht]

/-- A head that fits nowhere gets its marks once; later units go around them (R329). -/
theorem State.admission_waits {h : PendGroup} {rest : List PendGroup} (hu : s.units = h :: rest) (ht : s.tryUnit h [] = none) :
    (s.marksFor h = [] → s.markFor h ≠ [] → s.admission = some { s with marked := s.markFor h, markHead := some h })
    ∧ (s.marksFor h ≠ [] ∨ s.markFor h = [] → s.admission = rest.findSome? (fun u => s.tryUnit u (s.marksFor h))) := by
  unfold State.admission
  rw [hu]
  dsimp only
  rw [ht]
  refine ⟨fun h1 h2 => if_pos (by simp [h1, h2]), fun h0 => if_neg fun hh => ?_⟩
  simp only [Bool.and_eq_true, List.isEmpty_iff, Bool.not_eq_true', List.isEmpty_eq_false_iff] at hh
  obtain ⟨hm, hn⟩ := hh
  rcases h0 with h1 | h2
  · exact h1 hm
  · exact hn h2

theorem exec_groupAdmission (s : State) : exec .groupAdmission s = .next (s.admission.getD s) := rfl

theorem State.admission_none (h : s.units = []) : s.admission = none := by
  unfold State.admission
  rw [h]

/-- The bindings of the first group that waits for them; a table off its alignment faults before the first (R328). -/
theorem exec_prologue {g : Nat} {rest : List Nat} {l : LRec} {u : State} (h : s.prologues = g :: rest)
    (hl : LRec.read (s.node (s.group g).node).recd = l) (hu : s.modGroup g (fun r => { r with prologue := false }) = u) :
    exec .prologue s = .next (if l.xform % 32 ≠ 0 then u.prologueFault g { cause := 4, sub := 1, addr := l.xform }
      else
        let t := u.runBindings g (s.group g).gnum l.xform 0 l.xcount
        t.2.elim t.1 (t.1.prologueFault g)) := by
  have hx : exec .prologue s = execPrologue s := rfl
  rw [hx]
  unfold execPrologue
  simp only [h, hl, hu]
  split
  · rfl
  · cases (u.runBindings g (s.group g).gnum l.xform 0 l.xcount).2 <;> rfl

theorem exec_prologue_none (h : s.prologues = []) : exec .prologue s = .next s := by
  have hx : exec .prologue s = execPrologue s := rfl
  rw [hx]
  unfold execPrologue
  simp only [h]

end Launch

section Records
variable {s : State}

theorem exec_nodeRetirement_published {n : Node} (h : (s.nodes.map Prod.snd).find? s.nodePublished = some n) :
    exec .nodeRetirement s
      = .next ((((s.nodeCommit n).decrementSuccs n.succs).modClusters (fun c => { c with rels := c.rels.filter (fun r => r.node ≠ some n.lid) })).reportNode
          n.lid (if n.imprecise then 3 else 0)) := by
  have hx : exec .nodeRetirement s = execNodeRetirement s := rfl
  rw [hx, execNodeRetirement, h]

theorem exec_nodeRetirement_over {n : Node} (h : (s.nodes.map Prod.snd).find? s.nodePublished = none)
    (ho : (s.nodes.map Prod.snd).find? s.nodeOver = some n) :
    exec .nodeRetirement s
      = .next (((n.clusters.filter (fun k => s.unpublished k n.stag n.lid)).foldl
          (fun u k => (u.beginRelease k n.stag (8 * k) 33 (some n.lid)).1) s).modNode n.lid (fun n => { n with phase := .publishing })) := by
  have hx : exec .nodeRetirement s = execNodeRetirement s := rfl
  rw [hx, execNodeRetirement, h]
  dsimp only
  rw [ho]
  rfl

theorem exec_nodeRetirement_none (h : (s.nodes.map Prod.snd).find? s.nodePublished = none)
    (ho : (s.nodes.map Prod.snd).find? s.nodeOver = none) : exec .nodeRetirement s = .next s := by
  have hx : exec .nodeRetirement s = execNodeRetirement s := rfl
  rw [hx, execNodeRetirement, h]
  dsimp only
  rw [ho]

theorem exec_completionRecord_none (h : s.nextRecord 1 = none) : exec .completionRecord s = .next s := by
  have hx : exec .completionRecord s = execCompletionRecord s := rfl
  rw [hx, execCompletionRecord, h]

theorem exec_completionRecord {r : EvRecord} (h : s.nextRecord 1 = some r) :
    exec .completionRecord s = .next (
      let u := ({ s with evout := s.evout.erase r } : State).putEvent r
      r.node.elim u (fun l => (u.modNode l (fun n => { n with phase := .completed })).advanceHead (l / 2 ^ 32) 65536)) := by
  have hx : exec .completionRecord s = execCompletionRecord s := rfl
  rw [hx, execCompletionRecord, h]
  dsimp only
  cases r.node <;> rfl

theorem exec_notifyRecord_none (h : s.nextRecord 2 = none) : exec .notifyRecord s = .next s := by
  have hx : exec .notifyRecord s = execNotifyRecord s := rfl
  rw [hx, execNotifyRecord, h]

/-- The record is written; a crew of the node that still stands there has its NOTIFY acknowledged (R342, R401). -/
theorem exec_notifyRecord {r : EvRecord} {u : State} (h : s.nextRecord 2 = some r)
    (hu : ({ s with evout := s.evout.erase r } : State).putEvent r = u) :
    (∀ c l, r.crew = some c ∧ r.node = some l ∧ (u.crew? c.1 c.2).isSome = true ∧ u.crewLid c.1 c.2 = l →
      exec .notifyRecord s = .next (u.modCrew c.1 c.2 (fun w => { w with ackSy := w.ackSy - 1 })))
    ∧ ((∀ c l, ¬(r.crew = some c ∧ r.node = some l ∧ (u.crew? c.1 c.2).isSome = true ∧ u.crewLid c.1 c.2 = l)) →
      exec .notifyRecord s = .next u) := by
  have hx : exec .notifyRecord s = execNotifyRecord s := rfl
  rw [hx]
  unfold execNotifyRecord
  simp only [h, hu]
  constructor
  · rintro c l ⟨hc, hn, hs, hl⟩
    simp only [hc, hn, hs, hl, decide_true, Bool.and_self, if_true]
  · intro hno
    cases hc : r.crew with
    | none => rfl
    | some c =>
      cases hn : r.node with
      | none => rfl
      | some l =>
        refine if_neg fun hh => hno c l ⟨hc, hn, ?_⟩
        simpa only [Bool.and_eq_true, decide_eq_true_eq] using hh

/-- A message is due when it is deferred and its holdoff has passed (R341). -/
theorem State.msixDue_iff (d : EQueue) :
    s.msixDue d = true ↔ d.deferred = true ∧ ∀ t, d.sentAt = some t → t + 64 * d.holdoff ≤ s.timeNs := by
  unfold State.msixDue
  cases d.sentAt <;> simp

theorem exec_msixHoldoffExpiry_queue (h : s.ev.kind ≠ 1) :
    exec .msixHoldoffExpiry s = .next (
      let b : EQueue := Tab.get s.eqs {} s.ev.queue
      if s.msixDue b = true
      then { s with msix := s.msix ++ [b.vec], eqs := Tab.set s.eqs {} s.ev.queue { b with sentAt := some s.timeNs, deferred := false } }
      else s) := by
  have hx : exec .msixHoldoffExpiry s = execMsixHoldoffExpiry s := rfl
  rw [hx]
  exact (if_neg h).trans (apply_ite Host.Outcome.next _ _ _).symm

theorem exec_msixHoldoffExpiry_log (h : s.ev.kind = 1) :
    exec .msixHoldoffExpiry s = .next (
      let d : EQueue := Tab.get s.els {} s.ev.queue
      if s.msixDue d = true
      then { s with msix := s.msix ++ [d.vec], els := Tab.set s.els {} s.ev.queue { d with sentAt := some s.timeNs, deferred := false } }
      else s) := by
  have hx : exec .msixHoldoffExpiry s = execMsixHoldoffExpiry s := rfl
  rw [hx]
  exact (if_pos h).trans (apply_ite Host.Outcome.next _ _ _).symm

end Records

end Sys2Proof.Machine
end

/-! Doorbells and register writes, the stages of a pre-emption and saves (R322, R341, R382 to R386, R422). -/

section
namespace Sys2Proof.Machine

section Doors
variable {s : State} {q v : Nat}

theorem exec_lqdoor (s : State) : exec .lqdoor s
    = .next (if s.reachable = true ∧ s.ev.queue < 64 then s.lqDoor s.ev.queue (s.ev.value % 2 ^ 32) else s) := by
  have hx : exec .lqdoor s = execLqdoor s := rfl
  rw [hx]
  unfold execLqdoor
  simp only [Bool.and_eq_true, decide_eq_true_eq]

theorem exec_eqdoor (s : State) : exec .eqdoor s
    = .next (if s.reachable = true ∧ s.ev.queue < 64 then s.eqDoor s.ev.queue (s.ev.value % 2 ^ 32) else s) := by
  have hx : exec .eqdoor s = execEqdoor s := rfl
  rw [hx]
  unfold execEqdoor
  simp only [Bool.and_eq_true, decide_eq_true_eq]

theorem exec_eldoor (s : State) : exec .eldoor s
    = .next (if s.reachable = true ∧ s.ev.queue < 10 then s.elDoor s.ev.queue (s.ev.value % 2 ^ 32) else s) := by
  have hx : exec .eldoor s = execEldoor s := rfl
  rw [hx]
  unfold execEldoor
  simp only [Bool.and_eq_true, decide_eq_true_eq]

/-- The nodes once a doorbell has submitted some entries anew: those that had completed are forgotten, an entry skipped before its
doorbell apart (R322, R327). -/
def resubmitted (fresh : Nat → Bool) (nodes : Tab Node) : Tab Node :=
  (nodes.filter (fun e : Nat × Node => !(fresh e.1 && e.2.phase == NodePhase.completed && !e.2.early))).map (fun e : Nat × Node =>
    if fresh e.1 then (e.1, { e.2 with early := false }) else e)

theorem mem_resubmitted (fresh : Nat → Bool) (nodes : Tab Node) (l : Nat) (n : Node) :
    (l, n) ∈ resubmitted fresh nodes ↔ (¬ fresh l = true ∧ (l, n) ∈ nodes)
      ∨ fresh l = true ∧ ∃ n0, (l, n0) ∈ nodes ∧ (n0.phase ≠ .completed ∨ n0.early = true) ∧ n = { n0 with early := false } := by
  unfold resubmitted
  simp only [List.mem_map, List.mem_filter, Prod.exists]
  constructor
  · rintro ⟨k, n0, ⟨hmem, hkeep⟩, he⟩
    cases hf : fresh k with
    | false =>
      rw [hf, if_neg Bool.false_ne_true] at he
      cases he
      exact .inl ⟨by simp [hf], hmem⟩
    | true =>
      rw [hf, if_pos rfl] at he
      rw [hf] at hkeep
      cases he
      refine .inr ⟨hf, n0, hmem, ?_, rfl⟩
      by_cases hp : n0.phase = .completed
      · exact .inr (by simpa [hp] using hkeep)
      · exact .inl hp
  · rintro (⟨hf, hmem⟩ | ⟨hf, n0, hmem, hkeep, rfl⟩)
    · exact ⟨l, n, ⟨hmem, by simp [hf]⟩, if_neg hf⟩
    · refine ⟨l, n0, ⟨hmem, ?_⟩, if_pos hf⟩
      rcases hkeep with hp | he
      · simp [hp]
      · simp [he]

/-- Whether a launch identifier is one of the `grown` entries from TAIL on (R322). -/
def freshEntry (q tail grown l : Nat) : Bool := l / 2 ^ 32 = q && decide ((l % 2 ^ 32 + 2 ^ 32 - tail) % 2 ^ 32 < grown)

theorem freshEntry_iff (q tail grown l : Nat) :
    freshEntry q tail grown l = true ↔ l / 2 ^ 32 = q ∧ (l % 2 ^ 32 + 2 ^ 32 - tail) % 2 ^ 32 < grown := by
  unfold freshEntry
  rw [Bool.and_eq_true, decide_eq_true_eq, decide_eq_true_eq]

theorem State.lqDoor_overrun (h : 2 ^ (Tab.get s.lqs ({} : LQueue) q).log2n < (v + 2 ^ 32 - (Tab.get s.lqs ({} : LQueue) q).head) % 2 ^ 32) :
    s.lqDoor q v = s.overrun (0x10000 + 8 * q) := by
  unfold State.lqDoor
  dsimp only
  rw [if_pos h]

/-- A launch queue's doorbell within the ring sets TAIL; one that does not submit more than the ring holds submits its entries (R322). -/
theorem State.lqDoor_within {d : LQueue} {grown : Nat} (hd : Tab.get s.lqs {} q = d) (hg : (v + 2 ^ 32 - d.tail) % 2 ^ 32 = grown)
    (h : (v + 2 ^ 32 - d.head) % 2 ^ 32 ≤ 2 ^ d.log2n) :
    (2 ^ d.log2n < grown → s.lqDoor q v = { s with lqs := Tab.set s.lqs {} q { d with tail := v } })
    ∧ (grown ≤ 2 ^ d.log2n → s.lqDoor q v = ({ s with
        lqs := Tab.set s.lqs {} q { d with tail := v }
        nodes := resubmitted (freshEntry q d.tail grown) s.nodes } : State).advanceHead
          q 65536) := by
  unfold State.lqDoor
  dsimp only
  rw [hd, hg, if_neg (Nat.not_lt.mpr h)]
  exact ⟨fun hl => if_neg (Nat.not_le.mpr hl), fun hl => if_pos hl⟩

theorem EQueue.headTo_some (d : EQueue) (h : ¬ (d.tail + 2 ^ 32 - d.head) % 2 ^ 32 < (v + 2 ^ 32 - d.head) % 2 ^ 32) :
    d.headTo v = some { d with head := v } := by
  unfold EQueue.headTo
  rw [if_pos (Nat.not_lt.mp h)]

theorem EQueue.headTo_none (d : EQueue) (h : (d.tail + 2 ^ 32 - d.head) % 2 ^ 32 < (v + 2 ^ 32 - d.head) % 2 ^ 32) :
    d.headTo v = none := by
  unfold EQueue.headTo
  rw [if_neg (Nat.not_le.mpr h)]

/- The definitions of the two doorbells are put in as functions: the kernel would else evaluate the match on `EQueue.headTo`, and 2^32
with it, to compare the unfolded term with the folded one. -/

theorem State.eqDoor_some {d : EQueue} (h : EQueue.headTo (Tab.get s.eqs {} q) v = some d) :
    s.eqDoor q v = { s with eqs := Tab.set s.eqs {} q d } := by
  generalize hF : State.eqDoor = F
  delta State.eqDoor at hF
  subst hF
  beta_reduce
  rw [h]

theorem State.eqDoor_none (h : EQueue.headTo (Tab.get s.eqs {} q) v = none) : s.eqDoor q v = s.overrun (0x10400 + 8 * q) := by
  generalize hF : State.eqDoor = F
  delta State.eqDoor at hF
  subst hF
  beta_reduce
  rw [h]

theorem State.elDoor_some {d : EQueue} (h : EQueue.headTo (Tab.get s.els {} q) v = some d) :
    s.elDoor q v = { s with els := Tab.set s.els {} q d } := by
  generalize hF : State.elDoor = F
  delta State.elDoor at hF
  subst hF
  beta_reduce
  rw [h]

theorem State.elDoor_none (h : EQueue.headTo (Tab.get s.els {} q) v = none) : s.elDoor q v = s.overrun (0x10800 + 8 * q) := by
  generalize hF : State.elDoor = F
  delta State.elDoor at hF
  subst hF
  beta_reduce
  rw [h]

/-- The doorbells of a kind stand 8 bytes apart (R422). -/
theorem door_iff {base n a len : Nat} (hb : base % 8 = 0) :
    (decide (base ≤ a) && decide (a < base + 8 * n) && a % 8 = 0 && decide (4 ≤ len)) = true ↔ 4 ≤ len ∧ ∃ i, i < n ∧ a = base + 8 * i := by
  simp only [Bool.and_eq_true, decide_eq_true_eq]
  constructor
  · rintro ⟨⟨⟨h1, h2⟩, h3⟩, h4⟩
    exact ⟨h4, (a - base) / 8, by omega, by omega⟩
  · rintro ⟨h4, i, hi, rfl⟩
    exact ⟨⟨⟨by omega, by omega⟩, by omega⟩, h4⟩

/-- A register write by what stands at its offset (R422). -/
theorem exec_registerWrite {a x : Nat} (hr : s.reachable = true) (ha : s.ev.addr = a) (hx : leNat (s.ev.bytes.take 4) = x) :
    exec .registerWrite s =
      (if 0x1000 ≤ a ∧ a < 0x2000 then .next { s with cmdbuf := s.cmdbuf.writeBytes (a - 0x1000) (s.ev.bytes.take (0x2000 - a)) }
      else if a = 0x18 ∧ 4 ≤ s.ev.bytes.length then s.rung x
      else if 4 ≤ s.ev.bytes.length ∧ ∃ i, i < 64 ∧ a = 0x10000 + 8 * i then .next (s.lqDoor ((a - 0x10000) / 8) x)
      else if 4 ≤ s.ev.bytes.length ∧ ∃ i, i < 64 ∧ a = 0x10400 + 8 * i then .next (s.eqDoor ((a - 0x10400) / 8) x)
      else if 4 ≤ s.ev.bytes.length ∧ ∃ i, i < 10 ∧ a = 0x10800 + 8 * i then .next (s.elDoor ((a - 0x10800) / 8) x)
      else .next s) := by
  have h : exec .registerWrite s = execRegisterWrite s := rfl
  rw [h]
  unfold execRegisterWrite
  simp only [hr, ha, hx, door_iff (base := 0x10000) (by decide), door_iff (base := 0x10400) (by decide),
    door_iff (base := 0x10800) (by decide), Bool.and_eq_true, decide_eq_true_eq, Bool.not_true, Bool.false_eq_true, if_false]

theorem exec_registerWrite_unreachable (hr : s.reachable = false) : exec .registerWrite s = .next s := by
  have h : exec .registerWrite s = execRegisterWrite s := rfl
  rw [h]
  unfold execRegisterWrite
  simp only [hr, Bool.not_false, if_true]

/-- The bytes of a write to the command buffer that lie within it. -/
theorem read_cmdbuf (m : Memory) (bs : List Byte) {a : Nat} (h1 : 0x1000 ≤ a) (h2 : a < 0x2000) (j : Nat) :
    (m.writeBytes (a - 0x1000) (bs.take (0x2000 - a))).read j
      = if a - 0x1000 ≤ j ∧ j < a - 0x1000 + bs.length ∧ j < 0x1000 then bs.getD (j - (a - 0x1000)) 0 else m.read j := by
  rw [Memory.read_writeBytes, List.length_take]
  by_cases hj : a - 0x1000 ≤ j ∧ j < a - 0x1000 + bs.length ∧ j < 0x1000
  · rw [if_pos hj, if_pos (by omega), List.getD_eq_getElem?_getD, List.getElem?_take_of_lt (by omega), ← List.getD_eq_getElem?_getD]
  · rw [if_neg hj, if_neg (by omega)]

end Doors

section Stops
variable {s : State}

theorem exec_preemptRegionStop (s : State) :
    exec .preemptRegionStop s = .next (if (s.ctx s.ev.ctx).stage = 1 ∧ (s.ctx s.ev.ctx).d1 ≤ s.timeNs
      then s.modCtx s.ev.ctx (fun x => { x with stage := 2 }) else s) := by
  have hx : exec .preemptRegionStop s = execPreemptRegionStop s := rfl
  rw [hx]
  unfold execPreemptRegionStop
  simp only [Bool.and_eq_true, decide_eq_true_eq]
  exact (apply_ite Host.Outcome.next _ _ _).symm

theorem exec_forcedReset (s : State) :
    exec .forcedReset s = .next (if ((s.ctx s.ev.ctx).stage = 1 ∨ (s.ctx s.ev.ctx).stage = 2) ∧ (s.ctx s.ev.ctx).d2 ≤ s.timeNs
      then s.killCtx s.ev.ctx 1 else s) := by
  have hx : exec .forcedReset s = execForcedReset s := rfl
  rw [hx]
  unfold execForcedReset
  simp only [Bool.and_eq_true, Bool.or_eq_true, decide_eq_true_eq]
  exact (apply_ite Host.Outcome.next _ _ _).symm

theorem exec_crewStop_none (h : s.canStop s.ev.core s.ev.slot = false) : exec .crewStop s = .next s := by
  have hx : exec .crewStop s = execCrewStop s := rfl
  rw [hx]
  exact if_neg (Bool.eq_false_iff.mp h)

/-- A crew stops: rewound, its requests to the allocator withdrawn (R383). -/
theorem exec_crewStop {core sl : Nat} {w : Crew} (hc : s.ev.core = core) (hs : s.ev.slot = sl) (hw : s.crew core sl = w)
    (h : s.canStop core sl = true) :
    exec .crewStop s = .next (
      let u := (s.rewind core sl w.liveMask false).modCrew core sl (fun w => { w with stopped := true, peloton := false, sync := none })
      let v := (u.modCore core (fun k => { k with grows := k.grows.filter (fun r => r.slot ≠ sl) })).modCluster (clusterOf core)
        (fun c => { c with claims := c.claims.filter (fun r => !(r.core = core && r.slot = sl)) })
      v.modGroup w.group (fun g => { g with stopTime := v.timeNs })) := by
  have hx : exec .crewStop s = execCrewStop s := rfl
  rw [hx]
  unfold execCrewStop
  simp only [hc, hs, hw]
  exact if_pos h

theorem exec_groupSave_cons {g : Nat} {rest : List Nat} (h : s.toSave = g :: rest) : exec .groupSave s = .next (s.saveGang g) := by
  have hx : exec .groupSave s = execGroupSave s := rfl
  rw [hx, execGroupSave, h]

theorem exec_groupSave_nil (h : s.toSave = []) : exec .groupSave s = .next s := by
  have hx : exec .groupSave s = execGroupSave s := rfl
  rw [hx, execGroupSave, h]

end Stops

/-- Settles O58, by an equation for each event and each of its conditions. -/
theorem launchAndPreemptionEvents : Obligations.LaunchAndPreemptionEvents := by
  unfold Obligations.LaunchAndPreemptionEvents
  intro s e q v
  refine ⟨exec_nodeDispatch_waits, fun n hp hu hr hn => ?_, ?_, fun h => ?_, ?_, exec_prologue_none, ?_,
    fun n => exec_nodeRetirement_published, fun n => exec_nodeRetirement_over, exec_nodeRetirement_none, exec_completionRecord_none,
    fun r h hn => ?_, fun r l h hn => ?_, exec_notifyRecord_none, fun r h => exec_notifyRecord h rfl, ?_, ?_, ?_, ?_, ?_, ?_, ?_, ?_,
    exec_crewStop_none, exec_crewStop rfl rfl rfl, fun g rest => exec_groupSave_cons, exec_groupSave_nil⟩
  · obtain ⟨hpend, hphase, hothers⟩ := s.dispatch_frame n
    have hx := exec_nodeDispatch hp
    rw [State.examined_settled hu hr, hn] at hx
    exact ⟨_, hx, hpend, hphase, hothers, State.dispatch_unstaged, fun g hs hg => State.dispatch_staged hs hg⟩
  · intro u1 u2 hp
    have hx := exec_nodeDispatch hp
    refine ⟨fun hn => ?_, fun n hn => ?_⟩
    · rw [hx, show s.examined.nextNode = none from hn]
      rfl
    · rw [hx, show s.examined.nextNode = some n from hn]
      rfl
  · rw [exec_groupAdmission, State.admission_none h]
    rfl
  · intro h rest hu marks
    refine ⟨fun t ht => ?_, fun ht => ⟨fun h1 h2 => ?_, fun h0 => ?_⟩⟩
    · rw [exec_groupAdmission, State.admission_admits hu ht]
      rfl
    · rw [exec_groupAdmission, (State.admission_waits hu ht).1 h1 h2]
      rfl
    · rw [exec_groupAdmission, (State.admission_waits hu ht).2 h0]
      rfl
  · intro g rest hp l u
    have hx := exec_prologue hp (l := l) rfl (u := u) rfl
    refine ⟨fun h => hx.trans (by rw [if_pos h]), fun t f h hr => ?_⟩
    rw [hx, if_neg (not_not_intro h), hr]
    cases f <;> rfl
  · rw [exec_completionRecord h, hn]
    rfl
  · rw [exec_completionRecord h, hn]
    rfl
  · intro due b d
    refine ⟨fun hk hd => ?_, fun hk hd => ?_, fun hk hd => ?_, fun hk hd => ?_⟩
    · rw [exec_msixHoldoffExpiry_queue hk]
      exact congrArg _ (if_neg fun h => hd ((State.msixDue_iff b).mp h))
    · refine ⟨_, (exec_msixHoldoffExpiry_queue hk).trans (congrArg _ (if_pos ((State.msixDue_iff b).mpr hd))), rfl, fun j => ?_⟩
      exact Tab.get_set _ _ _ _ _
    · rw [exec_msixHoldoffExpiry_log hk]
      exact congrArg _ (if_neg fun h => hd ((State.msixDue_iff d).mp h))
    · refine ⟨_, (exec_msixHoldoffExpiry_log hk).trans (congrArg _ (if_pos ((State.msixDue_iff d).mpr hd))), rfl, fun j => ?_⟩
      exact Tab.get_set _ _ _ _ _
  · intro hr i hi
    have hn : ¬ s.reachable = true := Bool.eq_false_iff.mp hr
    simp only [List.mem_cons, List.not_mem_nil, or_false] at hi
    rcases hi with rfl | rfl | rfl | rfl
    · rw [exec_lqdoor, if_neg fun h => hn h.1]
    · rw [exec_eqdoor, if_neg fun h => hn h.1]
    · rw [exec_eldoor, if_neg fun h => hn h.1]
    · exact exec_registerWrite_unreachable hr
  · intro hq
    exact ⟨(exec_lqdoor s).trans (by rw [if_neg fun h => Nat.not_lt.mpr hq h.2]),
      (exec_eqdoor s).trans (by rw [if_neg fun h => Nat.not_lt.mpr hq h.2])⟩
  · intro hq
    exact (exec_eldoor s).trans (by rw [if_neg fun h => Nat.not_lt.mpr hq h.2])
  · intro hr hq d b grown fresh late
    have hl : exec .lqdoor s = .next (s.lqDoor q v) := (exec_lqdoor s).trans (by rw [if_pos ⟨hr, hq⟩])
    have he : exec .eqdoor s = .next (s.eqDoor q v) := (exec_eqdoor s).trans (by rw [if_pos ⟨hr, hq⟩])
    refine ⟨fun h => ?_, fun h => ?_, fun h => ?_, fun h => ?_⟩
    · obtain ⟨hover, hin⟩ := State.lqDoor_within (s := s) (q := q) (v := v) (d := d) (grown := grown) rfl rfl h
      let lqs1 : Tab LQueue := Tab.set s.lqs {} q { d with tail := v }
      have hget : ∀ j, Tab.get lqs1 {} j = if j = q then { d with tail := v } else Tab.get s.lqs {} j := fun j => Tab.get_set _ _ _ _ _
      by_cases hg : 2 ^ d.log2n < grown
      · exact ⟨{ s with lqs := lqs1 }, hget, fun _ => ⟨rfl, hl.trans (congrArg _ (hover hg))⟩, fun hg' => absurd hg (Nat.not_lt.mpr hg')⟩
      · refine ⟨{ s with lqs := lqs1, nodes := resubmitted (freshEntry q d.tail grown) s.nodes }, hget, fun hg' => absurd hg' hg, fun hg' =>
          ⟨rfl, hl.trans (congrArg _ (hin hg')), fun l n => ?_⟩⟩
        rw [mem_resubmitted, freshEntry_iff]
    · rw [hl, State.lqDoor_overrun h]
    · refine ⟨_, he.trans (congrArg _ (State.eqDoor_some (EQueue.headTo_some b h))), rfl, fun j => ?_⟩
      exact Tab.get_set _ _ _ _ _
    · rw [he, State.eqDoor_none (EQueue.headTo_none b h)]
  · intro hr hq b late
    have he : exec .eldoor s = .next (s.elDoor q v) := (exec_eldoor s).trans (by rw [if_pos ⟨hr, hq⟩])
    refine ⟨fun h => ?_, fun h => ?_⟩
    · refine ⟨_, he.trans (congrArg _ (State.elDoor_some (EQueue.headTo_some b h))), rfl, fun j => ?_⟩
      exact Tab.get_set _ _ _ _ _
    · rw [he, State.elDoor_none (EQueue.headTo_none b h)]
  · intro hr a x door
    have hx := exec_registerWrite (a := a) (x := x) hr rfl rfl
    refine ⟨fun h1 h2 => ?_, fun h1 h2 => ?_, fun h => ?_, fun h => ?_, fun h => ?_, fun h1 h2 h3 h4 h5 => ?_⟩
    · rw [if_pos ⟨h1, h2⟩] at hx
      exact ⟨_, hx, rfl, read_cmdbuf s.cmdbuf s.ev.bytes h1 h2⟩
    · rw [hx, if_neg (by omega), if_pos ⟨h1, h2⟩]
    · obtain ⟨i, hi, ha⟩ := h.2
      rw [hx, if_neg (by omega), if_neg (by omega), if_pos h]
    · obtain ⟨i, hi, ha⟩ := h.2
      rw [hx, if_neg (by omega), if_neg (by omega), if_neg fun ⟨_, j, hj, hj'⟩ => by omega, if_pos h]
    · obtain ⟨i, hi, ha⟩ := h.2
      rw [hx, if_neg (by omega), if_neg (by omega), if_neg fun ⟨_, j, hj, hj'⟩ => by omega, if_neg fun ⟨_, j, hj, hj'⟩ => by omega, if_pos h]
    · rw [hx, if_neg (by omega), if_neg h2, if_neg h3, if_neg h4, if_neg h5]
  · intro x
    refine ⟨fun h1 h2 => ?_, fun h => ?_, fun h1 h2 => ?_, fun h => ?_⟩
    · exact (exec_preemptRegionStop s).trans (congrArg _ (if_pos ⟨h1, h2⟩))
    · exact (exec_preemptRegionStop s).trans (congrArg _ (if_neg fun hh => h.elim (fun h => h hh.1) (fun h => Nat.not_le.mpr h hh.2)))
    · exact (exec_forcedReset s).trans (congrArg _ (if_pos ⟨h1, h2⟩))
    · exact (exec_forcedReset s).trans (congrArg _ (if_neg fun hh =>
        h.elim (fun h => hh.1.elim h.1 h.2) (fun h => Nat.not_le.mpr h hh.2)))

end Sys2Proof.Machine
end

/-! Groups 2 and 3 (R60, R65, R143, R152 to R155): the floating operations of every element, its sign, its class and the dot products. -/

section
namespace Sys2Proof.Machine

/-- FFMA and FNMA are one operation of their format (R152, R153). -/
theorem exec_fmaRule {p : (OpA → Instr) × Fmt × Bool} (h : p ∈ fmaRules) (o : OpA) (s : State) : exec (p.1 o) s = s.fpD o p.2.1 p.2.2 := by
  simp only [fmaRules, List.mem_cons, List.not_mem_nil, or_false] at h
  rcases h with rfl | rfl | rfl | rfl | rfl | rfl <;> rfl

/-- Settles O12: each instruction is one vector operation, whose elements and flags are those of the packed result. -/
theorem floatResults : Obligations.FloatResults := by
  unfold Obligations.FloatResults
  constructor
  · intro p hp o s c h
    have hx := (exec_fpRule hp o s).trans (State.run_cur h.1 _)
    refine ⟨_, _, _, hx, State.vec_done h _, fun l _ => ?_⟩
    simpa only [fpEls, lmt_eq_el] using packF_els p.2.1 (fun k => p.2.2 (s.rmode c)
      (lmt p.2.1.width k ((s.cw c).val l (c.srcA o.a))) (lmt p.2.1.width k ((s.cw c).val l (c.srcB o.b))))
  · intro p hp o s c h
    have hx := (exec_fmaRule hp o s).trans (State.run_cur h.1 _)
    refine ⟨_, _, _, hx, State.vec_done h _, fun l _ => ?_⟩
    simpa only [lmt_eq_el] using packF_els p.2.1 (fun k => p.2.1.fma (s.rmode c) p.2.2
      (lmt p.2.1.width k ((s.cw c).val l (c.srcA o.a))) (lmt p.2.1.width k ((s.cw c).val l (c.srcB o.b)))
      (lmt p.2.1.width k ((s.cw c).val l (.v (c.dst o.d)))))

/-- What a vector instruction leaves that raises no flag, for a fragment that may act. -/
theorem State.vec_done_unflagged {s : State} {c : Cur} {r : Roles} {k : Bool} {g : BitVec 3} {d : BitVec 6} {xs : List Src} {rd : Bool}
    (h : s.VecReady c r k g d xs rd) (f : Crew → Nat → Word) :
    s.VecDone (s.vec c r k g d xs rd (fun w l => (f w l, 0))) c k d (s.act c g) (fun l => f (s.cw c) l) 0 := by
  have := State.vec_done h (fun w l => (f w l, 0))
  rwa [Crew.raised_zero] at this

/-- The elements of a packed result without flags (R143). -/
theorem packEls_els (f : Fmt) (g : Nat → Nat) :
    FpEls f (fun k => (g k, 0)) (packEls f.width ((List.range (64 / f.width)).map g)) 0 := by
  have h := packF_els f (fun k => (g k, 0))
  exact ⟨by simpa only [packF, List.map_map, Function.comp_def] using h.1, by simp⟩

/-- Bit `b` of a value is bit `b % w` of element `b / w`. -/
theorem getLsbD_eq_el {w : Nat} (hw : 0 < w) (x : Word) (b : Nat) : x.getLsbD b = (el w (b / w) x).getLsbD (b % w) := by
  rw [el, BitVec.getLsbD_extractLsb', Nat.div_add_mod, decide_eq_true (Nat.mod_lt b hw), Bool.true_and]

/-- What a sign operation on encodings of width `w` does: the highest bit is inverted, or cleared, and every other bit is kept. -/
def SignOp (w : Nat) (inv : Bool) (g : Nat → Nat) : Prop :=
  ∀ x j, j < w → (g x).testBit j = if j = w - 1 then inv && !x.testBit j else x.testBit j

theorem Fmt.width_eq (f : Fmt) : f.width = f.ebits + f.fbits + 1 := by
  rw [Fmt.width, Nat.add_assoc, Nat.add_comm]

theorem Fmt.absBits_signOp (f : Fmt) : SignOp f.width false f.absBits := by
  rw [f.width_eq]
  intro x j hj
  rw [Fmt.absBits, Fmt.signBit, Nat.testBit_mod_two_pow, Nat.add_sub_cancel]
  by_cases h : j = f.ebits + f.fbits
  · simp [h]
  · rw [if_neg h, decide_eq_true (by omega), Bool.true_and]

theorem Fmt.negBits_signOp (f : Fmt) : SignOp f.width true f.negBits := by
  rw [f.width_eq]
  intro x j hj
  rw [Fmt.negBits, Fmt.signBit, Nat.add_sub_cancel]
  generalize f.ebits + f.fbits = n at *
  have hbit : x.testBit n = decide (x / 2 ^ n % 2 = 1) := Nat.testBit_eq_decide_div_mod_eq
  split
  case isTrue h =>
    rw [Nat.testBit_mod_two_pow]
    by_cases hn : j = n
    · simp [hn, hbit, h]
    · rw [if_neg hn, decide_eq_true (by omega), Bool.true_and]
  case isFalse h =>
    rw [Nat.add_comm]
    by_cases hn : j = n
    · subst hn
      simp [Nat.testBit_two_pow_add_eq]
    · rw [if_neg hn, Nat.testBit_two_pow_add_gt (by omega)]

/-- A sign operation on every element: bit by bit, the highest bit of each element and the others. -/
theorem SignOp.getLsbD_packEls {w : Nat} {inv : Bool} {g : Nat → Nat} (hg : SignOp w inv g) (hw : 0 < w) (hd : w ∣ 64) (x : Word) {b : Nat}
    (hb : b < 64) : (packEls w ((List.range (64 / w)).map (fun k => g (lmt w k x)))).getLsbD b =
      if b % w = w - 1 then inv && !x.getLsbD b else x.getLsbD b := by
  have hlt := Nat.mod_lt b hw
  have hk : b / w < 64 / w := Nat.div_lt_div_of_lt_of_dvd hd hb
  rw [getLsbD_eq_el hw, getLsbD_eq_el hw x, el_packEls _ _ _ (by simpa using Nat.mul_div_le 64 w),
    List.getD_eq_getElem _ _ (by simpa using hk), BitVec.getLsbD_ofNat, decide_eq_true hlt, Bool.true_and]
  simpa [lmt_eq_el, BitVec.testBit_toNat] using hg (lmt w (b / w) x) (b % w) hlt

/-- FABS and FNEG are a sign operation on every element of their format (R153). -/
theorem exec_signRule {p : (OpA1 → Instr) × Nat × Bool}
    (h : p ∈ ([(.fabsD, 64, false), (.fabsS, 32, false), (.fnegD, 64, true), (.fnegS, 32, true)] : List ((OpA1 → Instr) × Nat × Bool))) :
    ∃ f g, f.width = p.2.1 ∧ 0 < f.width ∧ f.width ∣ 64 ∧ SignOp f.width p.2.2 g ∧ ∀ o s, exec (p.1 o) s = s.fpSign o f g := by
  simp only [List.mem_cons, List.not_mem_nil, or_false] at h
  rcases h with rfl | rfl | rfl | rfl
  · exact ⟨fmtD, _, rfl, by decide, by decide, fmtD.absBits_signOp, fun _ _ => rfl⟩
  · exact ⟨fmtS, _, rfl, by decide, by decide, fmtS.absBits_signOp, fun _ _ => rfl⟩
  · exact ⟨fmtD, _, rfl, by decide, by decide, fmtD.negBits_signOp, fun _ _ => rfl⟩
  · exact ⟨fmtS, _, rfl, by decide, by decide, fmtS.negBits_signOp, fun _ _ => rfl⟩

/-- FCLASS gives the class of every element of the format that FMT names (R154). -/
theorem exec_fclass (o : OpCls) (s : State) :
    ∃ f : Fmt, exec (.fclass o) s = s.run (fun c => s.vec c .vector o.k o.g o.d [o.a] false (fun w l =>
        (packEls f.width ((List.range (64 / f.width)).map (fun k => f.fclass (lmt f.width k (w.val l o.a)))), 0)))
      ∧ ∀ q ∈ [(0, fmtD), (1, fmtS), (2, fmtH), (3, fmtB)], o.fmt.toNat = q.1 → f = q.2 := by
  refine ⟨_, rfl, fun q hq h => ?_⟩
  simp only [List.mem_cons, List.not_mem_nil, or_false] at hq
  rcases hq with rfl | rfl | rfl | rfl <;> (rw [h]; rfl)

/-- FDOT2 is one operation on A, B and D (R155). -/
theorem exec_dotRule {p : (OpA → Instr) × Fmt} (h : p ∈ ([(.fdot2H, fmtH), (.fdot2B, fmtB)] : List ((OpA → Instr) × Fmt))) (o : OpA) (s : State) :
    exec (p.1 o) s = s.fpDot o p.2 := by
  simp only [List.mem_cons, List.not_mem_nil, or_false] at h
  rcases h with rfl | rfl <;> rfl

/-- Settles O13: each instruction is one vector operation, and a sign operation is known by the bits of an encoding. -/
theorem floatMoves : Obligations.FloatMoves := by
  unfold Obligations.FloatMoves
  refine ⟨?_, ?_, ?_⟩
  · intro p hp o s c h
    obtain ⟨f, g, hfw, hw, hd, hg, he⟩ := exec_signRule hp
    have hx := (he o s).trans (State.run_cur h.1 _)
    refine ⟨_, _, hx, State.vec_done_unflagged h _, fun l _ b hb => ?_⟩
    rw [← hfw]
    exact hg.getLsbD_packEls hw hd _ hb
  · intro o s c h
    obtain ⟨f, he, hf⟩ := exec_fclass o s
    refine ⟨_, _, he.trans (State.run_cur h.1 _), State.vec_done_unflagged h _, fun l _ q hq ho => ?_⟩
    rw [← hf q hq ho]
    simpa only [lmt_eq_el] using packEls_els f (fun k => f.fclass (lmt f.width k ((s.cw c).val l o.a)))
  · intro p hp o s c h
    have hx := (exec_dotRule hp o s).trans (State.run_cur h.1 _)
    exact ⟨_, hx, State.vec_done h (fun w l => fdot2 p.2 (s.rmode c) (w.val l (c.srcA o.a)) (w.val l (c.srcB o.b)) (w.val l (.v (c.dst o.d))))⟩

end Sys2Proof.Machine
end

/-! The special cases of the floating operations (R60, R62, R63): NaNs, infinities and zeros, and the lesser and the greater of two numbers. -/

section
namespace Sys2Proof.Machine

theorem snanFlag_eq (x y : FVal) : snanFlag x y = flagIf ([x, y].any FVal.isSnan) flagNV := by
  simp [snanFlag, flagIf]

theorem FVal.mulTerm_nan {x y : FVal} (h : x.isNan = true ∨ y.isNan = true) : (x.mulTerm y).2 = false := by
  cases x <;> cases y <;> simp_all [FVal.mulTerm, FVal.isNan]

section SpecialCases
variable {f : Fmt} {m : RMode} {a b : Nat}

/-- A sum with a NaN among its operands, and no product of a zero and an infinity. -/
theorem Fmt.sumRound_nan {ops ts : List FVal} (h : ops.any FVal.isNan = true) :
    f.sumRound m ops ts false = (f.nanBits, flagIf (ops.any FVal.isSnan) flagNV) := by
  simp [Fmt.sumRound, h]

theorem Fmt.fdiv_nan (h : (f.decode a).isNan = true ∨ (f.decode b).isNan = true) :
    f.fdiv m a b = (f.nanBits, snanFlag (f.decode a) (f.decode b)) := by
  unfold Fmt.fdiv
  generalize f.decode a = x at *
  generalize f.decode b = y at *
  cases x with
  | nan => rfl
  | inf | fin =>
    cases y with
    | nan => rfl
    | inf | fin => simp [FVal.isNan] at h

/-- A NaN operand: the canonical NaN, and NV for a signalling one (R60). -/
theorem Fmt.arith_nan (h : (f.decode a).isNan = true ∨ (f.decode b).isNan = true) :
    let nv := snanFlag (f.decode a) (f.decode b)
    f.fadd m a b = (f.nanBits, nv) ∧ f.fsub m a b = (f.nanBits, nv) ∧ f.fmul m a b = (f.nanBits, nv) ∧ f.fdiv m a b = (f.nanBits, nv) := by
  have hany : [f.decode a, f.decode b].any FVal.isNan = true := by simpa using h
  refine ⟨?_, ?_, ?_, Fmt.fdiv_nan h⟩
  · rw [snanFlag_eq]
    exact Fmt.sumRound_nan hany
  · rw [snanFlag_eq]
    exact Fmt.sumRound_nan hany
  · rw [snanFlag_eq, Fmt.fmul, FVal.mulTerm_nan h]
    exact Fmt.sumRound_nan hany

/-- Two infinite operands (R62). -/
theorem Fmt.arith_inf {n k : Bool} (ha : f.decode a = .inf n) (hb : f.decode b = .inf k) :
    f.fadd m a b = (if n = k then (f.encInf n, 0) else (f.nanBits, flagNV))
    ∧ f.fsub m a b = (if n = k then (f.nanBits, flagNV) else (f.encInf n, 0))
    ∧ f.fmul m a b = (f.encInf (n != k), 0) ∧ f.fdiv m a b = (f.nanBits, flagNV) := by
  refine ⟨?_, ?_, ?_, by simp only [Fmt.fdiv, ha, hb]⟩
  · rw [Fmt.fadd, ha, hb]
    cases n <;> cases k <;> rfl
  · rw [Fmt.fsub, ha, hb]
    cases n <;> cases k <;> rfl
  · rw [Fmt.fmul, ha, hb]
    cases n <;> cases k <;> rfl

/-- An infinity times a zero (R62). -/
theorem Fmt.fmul_inf_zero {n k : Bool} {q : Rat2} (ha : f.decode a = .inf n) (hb : f.decode b = .fin k q) (hq : q.num = 0) :
    f.fmul m a b = (f.nanBits, flagNV) := by
  have hz : q.isZero = true := decide_eq_true hq
  simp [Fmt.fmul, ha, hb, FVal.mulTerm, hz, Fmt.sumRound, flagIf]

/-- A division of a finite number by a zero (R62). -/
theorem Fmt.fdiv_zero {n k : Bool} {p q : Rat2} (ha : f.decode a = .fin n p) (hb : f.decode b = .fin k q) (hq : q.num = 0) :
    f.fdiv m a b = if p.num = 0 then (f.nanBits, flagNV) else (f.encInf (n != k), flagDZ) := by
  simp [Fmt.fdiv, ha, hb, Rat2.isZero, hq, FVal.neg]

/-- The square root of a negative number (R62). -/
theorem Fmt.fsqrt_negative {p : Rat2} (ha : f.decode a = .fin true p) (hp : p.num ≠ 0) : f.fsqrt m a = (f.nanBits, flagNV) := by
  simp [Fmt.fsqrt, ha, Rat2.isZero, hp]

/-- FMIN and FMAX of two NaNs (R63). -/
theorem Fmt.fminmax_nans (ha : (f.decode a).isNan = true) (hb : (f.decode b).isNan = true) (x : Bool) :
    f.fminmax x a b = (f.nanBits, snanFlag (f.decode a) (f.decode b)) := by
  simp [Fmt.fminmax, ha, hb, snanFlag, flagIf]

theorem Fmt.fminmax_nan_left (ha : (f.decode a).isNan = true) (hb : (f.decode b).isNan = false) (x : Bool) :
    f.fminmax x a b = (b, snanFlag (f.decode a) (f.decode b)) := by
  simp [Fmt.fminmax, ha, hb, snanFlag, flagIf]

theorem Fmt.fminmax_nan_right (ha : (f.decode a).isNan = false) (hb : (f.decode b).isNan = true) (x : Bool) :
    f.fminmax x a b = (a, snanFlag (f.decode a) (f.decode b)) := by
  simp [Fmt.fminmax, ha, hb, snanFlag, flagIf]

/-- The order of R63: less in the comparison, or −0 against +0. -/
def FVal.below (x y : FVal) : Bool := x.cmp y == .lt || (x.cmp y == .eq && x.neg && !y.neg)

theorem FVal.below_fin (n k : Bool) (p q : Rat2) : (FVal.fin n p).below (.fin k q)
    = ((FVal.fin n p).real.lt (FVal.fin k q).real || ((FVal.fin n p).real.beqVal (FVal.fin k q).real && n && !k)) := by
  simp only [FVal.below, FVal.cmp, FVal.neg]
  by_cases hl : (FVal.fin n p).real.lt (FVal.fin k q).real = true
  · simp [hl]
  · by_cases he : (FVal.fin n p).real.beqVal (FVal.fin k q).real = true <;> simp [hl, he]

theorem snanFlag_numbers {x y : FVal} (hx : x.isNan = false) (hy : y.isNan = false) : snanFlag x y = 0 := by
  cases x <;> cases y <;> simp_all [snanFlag, FVal.isNan, FVal.isSnan]

/-- FMIN and FMAX of two numbers take the lesser and the greater in the order of R63. -/
theorem Fmt.fminmax_numbers (ha : (f.decode a).isNan = false) (hb : (f.decode b).isNan = false) (x : Bool) :
    f.fminmax x a b = (if x = (f.decode a).below (f.decode b) then b else a, 0) := by
  have hnv : flagIf ((f.decode a).isSnan || (f.decode b).isSnan) flagNV = 0 := snanFlag_numbers ha hb
  unfold Fmt.fminmax
  simp only [hnv, ha, hb]
  generalize f.decode a = u at *
  generalize f.decode b = v at *
  cases u with
  | nan => simp [FVal.isNan] at ha
  | inf n =>
    cases v with
    | nan => simp [FVal.isNan] at hb
    | inf k => cases n <;> cases k <;> cases x <;> rfl
    | fin k q => cases n <;> cases x <;> rfl
  | fin n p =>
    cases v with
    | nan => simp [FVal.isNan] at hb
    | inf k => cases k <;> cases x <;> rfl
    | fin k q =>
      simp only [FVal.neg, ← FVal.below_fin]
      cases (FVal.fin n p).below (FVal.fin k q) <;> cases x <;> simp

/-- Two numbers of which the first is below: FMIN gives it and FMAX the other. -/
theorem Fmt.fminmax_below (ha : (f.decode a).isNan = false) (hb : (f.decode b).isNan = false)
    (h : (f.decode a).below (f.decode b) = true) : f.fminmax false a b = (a, 0) ∧ f.fminmax true a b = (b, 0) := by
  simp [Fmt.fminmax_numbers ha hb, h]

theorem Fmt.fminmax_not_below (ha : (f.decode a).isNan = false) (hb : (f.decode b).isNan = false)
    (h : (f.decode a).below (f.decode b) = false) : f.fminmax false a b = (b, 0) ∧ f.fminmax true a b = (a, 0) := by
  simp [Fmt.fminmax_numbers ha hb, h]

end SpecialCases

/-- Settles O14: the cases of each operation; for two numbers, whether the first is below the second decides FMIN and FMAX. -/
theorem floatSpecialCases : Obligations.FloatSpecialCases := by
  unfold Obligations.FloatSpecialCases
  intro f _ m a b
  refine ⟨Fmt.arith_nan, fun n k => Fmt.arith_inf, fun n k q => Fmt.fmul_inf_zero, fun n k p q => Fmt.fdiv_zero, fun p => Fmt.fsqrt_negative,
    Fmt.fminmax_nans, fun ha hb => ⟨fun h => ?_, fun h => ?_, fun _ _ k => ?_⟩, Fmt.fminmax_nan_left, Fmt.fminmax_nan_right⟩
  · have hbelow : (f.decode a).below (f.decode b) = true := by simpa [FVal.below, and_assoc] using h
    exact Fmt.fminmax_below ha hb hbelow
  · have hbelow : (f.decode a).below (f.decode b) = false := by
      rcases h with h | ⟨h, hn, -⟩
      · simp [FVal.below, h]
      · simp [FVal.below, h, hn]
    exact Fmt.fminmax_not_below ha hb hbelow
  · rw [Fmt.fminmax_numbers ha hb]
    split
    · exact Or.inr rfl
    · exact Or.inl rfl

end Sys2Proof.Machine
end

/-! The control and status registers (R64, R66, R89, R126 to R132, R192, R193): the instructions, and the fields of each register. -/

section
namespace Sys2Proof.Machine

section Ready
variable {s : State} {c : Cur} {r : Roles} {all pr : Bool} {us : List Use} {m : BitVec 32} {xs : Nat → List Src}

/-- A fragment that may act may act where it reads no source. -/
theorem State.ready_noSources (h : s.Ready c r all us pr m xs) : s.Ready c r all us pr m (fun _ => []) := by
  obtain ⟨hc, hr, hw, hp, -, hpr, -⟩ := h
  exact ⟨hc, hr, hw, hp, by simp [State.anyParity], hpr, by simp [State.anyPoison]⟩

/-- A fragment that may act may act where it reads no predicate. -/
theorem State.ready_noPredicate (h : s.Ready c r all us pr m xs) : s.Ready c r all us false m xs := by
  obtain ⟨hc, hr, hw, hp, hpar, -, hpoi⟩ := h
  exact ⟨hc, hr, hw, hp, hpar, rfl, hpoi⟩

end Ready

/-- Every CSR instruction is one operation (R192). -/
theorem exec_csrRule {p : (OpCsr → Instr) × Bool × (Word → Word → Option (Word × Word))} (h : p ∈ csrRules) (o : OpCsr) (s : State) :
    exec (p.1 o) s = s.csr o p.2.1 p.2.2 := by
  simp only [csrRules, List.mem_cons, List.not_mem_nil, or_false] at h
  rcases h with rfl | rfl | rfl | rfl <;> rfl

section Instructions
variable {s : State} {c : Cur} {o : OpCsr} {rd : Bool} {f : Word → Word → Option (Word × Word)}

section Begins
variable (h : s.Ready c .any false [.s o.d.toNat] (o.g ≠ 0) (s.act c o.g) (fun _ => []))
include h

/-- With no fibre active the instruction passes. -/
theorem State.csr_inactive (hm : s.act c o.g = 0) : s.csr o rd f = .next (s.retire c {}) := by
  refine (State.run_cur h.1 _).trans (congrArg _ ?_)
  rw [State.gate_ready h, State.reads_ready h]
  exact if_pos hm

/-- A privileged register in user mode faults before sD is read (R193). -/
theorem State.csr_privileged (hm : s.act c o.g ≠ 0) (hn : 0x1000 ≤ o.csr.toNat) (hu : (s.cw c).sys = false) :
    s.csr o rd f = .next (s.takeFault c { cause := 2, sub := 10, addr := o.csr.toNat }) := by
  refine (State.run_cur h.1 _).trans (congrArg _ ?_)
  rw [State.gate_ready h, State.reads_ready h]
  exact (if_neg hm).trans (if_pos (by simp [hn, hu]))

end Begins

section Acts
variable (h : s.Ready c .any false [.s o.d.toNat] (o.g ≠ 0) (s.act c o.g) (fun _ => if rd then [.s o.d] else [])) (hm : s.act c o.g ≠ 0)
include h hm

/-- FFLAGS is waited for while results that set flags are pending (R66). -/
theorem State.csr_waits (hn : o.csr.toNat = 0) (hf : s.flagsPending c = true) : s.csr o rd f = .next (s.hold c .flags) := by
  have h0 := State.ready_noSources h
  have hcsr : o.csr = 0 := BitVec.eq_of_toNat_eq hn
  refine (State.run_cur h.1 _).trans (congrArg _ ?_)
  rw [State.gate_ready h0, State.reads_ready h0]
  exact (if_neg hm).trans ((if_neg (by simp [hn])).trans ((State.reads_ready (State.ready_noPredicate h) _).trans (if_pos (by simp [hcsr, hf]))))

/-- A CSR instruction that may act: the register is written, where `f` gives a write, and sD gets the old value (R192). -/
theorem State.csr_acts (hp : o.csr.toNat < 0x1000 ∨ (s.cw c).sys = true) (hf : o.csr.toNat ≠ 0 ∨ s.flagsPending c = false) :
    s.csr o rd f = .next (((f (s.csrRead c o.csr.toNat) ((s.cw c).sreg o.d.toNat).val).elim s
      (fun x => s.csrWrite c o.csr.toNat x.1 x.2)).putU c false o.d (s.act c o.g) (s.csrRead c o.csr.toNat) {}) := by
  have h0 := State.ready_noSources h
  have hpriv : ¬ (decide (0x1000 ≤ o.csr.toNat) && !(s.cw c).sys) = true := by
    rcases hp with hp | hp
    · simp [hp]
    · simp [hp]
  have hflags : ¬ (decide (o.csr = 0) && s.flagsPending c) = true := by
    rcases hf with hf | hf
    · have hcsr : o.csr ≠ 0 := fun e => hf (by rw [e]; rfl)
      exact fun e => hcsr (of_decide_eq_true (Bool.and_eq_true_iff.1 e).1)
    · simp [hf]
  refine (State.run_cur h.1 _).trans (congrArg _ ?_)
  rw [State.gate_ready h0, State.reads_ready h0]
  refine (if_neg hm).trans ((if_neg hpriv).trans ((State.reads_ready (State.ready_noPredicate h) _).trans ((if_neg hflags).trans ?_)))
  have hval : s.uval c (.s o.d) = ((s.cw c).sreg o.d.toNat).val := rfl
  dsimp only
  rw [hval]
  cases f (s.csrRead c o.csr.toNat) ((s.cw c).sreg o.d.toNat).val <;> rfl

end Acts
end Instructions

/-- Settles O41: one operation for the four instructions, and its outcomes in the order of its checks. -/
theorem csrInstructions : Obligations.CsrInstructions := by
  unfold Obligations.CsrInstructions
  intro p hp o s c n old
  rw [exec_csrRule hp]
  refine ⟨fun h => ⟨fun hm => ⟨_, State.csr_inactive h hm, s.retire_done c {} rfl rfl rfl⟩, fun hm hn hu => State.csr_privileged h hm hn hu⟩,
    fun h hm => ⟨fun hn hf => State.csr_waits h hm hn hf, fun hs hf => (State.csr_acts h hm hs hf).trans ?_⟩⟩
  cases p.2.2 old ((s.cw c).sreg o.d.toNat).val <;> rfl

/-- A fibre without the matrix flags of a mask. -/
def Fibre.clearMflags (b : BitVec 4) (f : Fibre) : Fibre := { f with mflags := f.mflags &&& ~~~b }

/-- The crew after a write of MSTAT: the flags written as 1 cleared in every fibre, and the two trap enables (R129). -/
def Crew.writeMstat (w : Crew) (x w1c : Word) : Crew :=
  { w.modLanes (BitVec.allOnes 32) (fun _ f => f.clearMflags (w1c.setWidth 4)) with tnpp := x.getLsbD 8, tzp := x.getLsbD 9 }

theorem State.csrWrite_mstat (s : State) (c : Cur) (x w1c : Word) :
    s.csrWrite c 0x003 x w1c = s.setCrew c.core c.slot ((s.cw c).writeMstat x w1c) := rfl

theorem Crew.writeMstat_eq (w : Crew) (x w1c : Word) :
    w.writeMstat x w1c = { w with fibres := (w.writeMstat x w1c).fibres, tnpp := x.getLsbD 8, tzp := x.getLsbD 9 } := by
  unfold Crew.writeMstat
  rw [Crew.modLanes_eq]

theorem Crew.fibre_writeMstat (w : Crew) (x w1c : Word) {l : Nat} (hl : l < 32) :
    (w.writeMstat x w1c).fibre l = (w.fibre l).clearMflags (w1c.setWidth 4) := by
  have hfibres : (w.writeMstat x w1c).fibres = (w.modLanes (BitVec.allOnes 32) (fun _ f => f.clearMflags (w1c.setWidth 4))).fibres := by
    rw [Crew.writeMstat]
  have h := w.fibre_modLanes (BitVec.allOnes 32) (fun _ f => f.clearMflags (w1c.setWidth 4)) l
  rw [if_pos ((BitVec.getLsbD_allOnes).trans (decide_eq_true hl))] at h
  rw [← h, Crew.fibre, Crew.fibre, hfibres]

/-- CKTOL reads its two fields (R89). -/
theorem Crew.cktol_toNat (w : Crew) : w.cktol.toNat = w.tbf.toNat + 256 * w.tf32.toNat := by
  have h1 : w.tbf.toNat < 64 := w.tbf.isLt
  have h2 : w.tf32.toNat < 64 := w.tf32.isLt
  rw [Crew.cktol, BitVec.toNat_ofNat, Nat.mod_eq_of_lt (by omega)]

/-- A write of a read-only register changes nothing (R126, R128, R130). -/
theorem State.csrWrite_readOnly (s : State) (c : Cur) (x w1c : Word) : ∀ n ∈ [0x010, 0x011, 0x012, 0x013, 0x014], s.csrWrite c n x w1c = s := by
  intro n hn
  simp only [List.mem_cons, List.not_mem_nil, or_false] at hn
  rcases hn with rfl | rfl | rfl | rfl | rfl <;> rfl

/-- Settles O42: a register's number selects its own arm of the read and of the write. -/
theorem csrFields : Obligations.CsrFields := by
  unfold Obligations.CsrFields
  intro s c x w1c w ctx
  exact ⟨rfl, rfl, rfl, ⟨_, s.csrWrite_mstat c x w1c, w.writeMstat_eq x w1c, fun _ => w.fibre_writeMstat x w1c⟩, rfl, rfl,
    s.csrWrite_readOnly c x w1c, rfl, rfl, w.cktol_toNat, rfl, rfl⟩

end Sys2Proof.Machine
end

/-! Statements of the family 03_encoding_and_assembly: words and their instructions, words that are no instruction, and the hints (R91 to
R110). -/

section
namespace Sys2Proof.Laws.Encoding

/-- Settles O1: the decoder runs on each word. -/
theorem decodeOfSpecWords : Obligations.DecodeOfSpecWords := by
  unfold Obligations.DecodeOfSpecWords
  exact ⟨rfl, rfl, rfl, rfl, rfl, rfl, rfl, rfl, rfl, rfl, rfl⟩

/-- The rows one by one, each by its own lemma, in the order of the constructors. -/
theorem decode_encode (i : Instr) : Statement i :=
  Instr.rec (motive := Statement)
    -- group 0
    addD addW addH addB subD subW subH subB mulD mulW mulhD mulhuD andD orD xorD andn
    -- group 1
    addsH subsH addusB subusB minH maxH minW maxW shlD shrD sarD rotD addiD addiW movi clzD ctzD popcD brevD bswapD clzW popcW sextW zextW
    sextH sextB
    -- group 2
    faddD faddS faddH faddB fsubD fsubS fsubH fsubB fmulD fmulS fmulH fmulB ffmaD ffmaS ffmaH ffmaB
    -- group 3
    fminD fminS fminH fmaxD fmaxS fmaxH fnmaD fnmaS fabsD fabsS fnegD fnegS fclass fdot2H fdot2B fscaleD
    -- group 4
    icmpD icmpW fcmpD fcmpS icmpiD pand por pxor pnot sel ptov vtop vcmpmH vcmpmB fcmpmH
    -- group 5
    cvt cvtq deq fdivD fdivS fsqrtD fsqrtS frcpS frsqS fexp2S flog2S fsinpS fcospS ftanhS idivD idivuD
    -- group 6
    permD permW permH permB bcast rotxH ballot vote redadd redmin redmax scanadd matchD matchS subperm lanemask
    -- group 7
    uadd usub umul uand uor uxor ushl ushr usar uaddi umovi umovh ucmp umin umax uread
    -- group 8
    bra brx call ret fspawn fend syncm cvset bara barw region trap rett regg
    -- group 9
    ldB ldBs ldH ldHs ldW ldWs ldD ldQ lduD lduW ldaD ldncD pref
    -- group 10
    stB stH stW stD stQ stuD stlD aadd amin amax aand aor axch acas aaddfS
    -- group 11
    fence release acquire ifence rfence cpy cpyq cpyt sealBatch cwaitBatch rput rget notify snapTake accg ownx
    -- group 12
    mshape mld mst mmovv mmul mmac madd mtrn mchol mlu msolc msoll mscal mflag midn mmv
    -- group 13
    tld tst wload wswap tmma tmmas aclr acvt tckv tckfix tckset tcopy dload dqry dcent dfin
    -- group 14
    csrr csrw csrs csrc cntrd cntctlEvsel bkpt trace prog ctxfl haltg resumeg
    -- group 15
    hintImm hintRep hintSched hintMod hintPrio
    -- the barriers, the later rows of shared words, and the hints without a payload
    gbar regend cwaitTake cwaitFree snapDrop snapRollback snapShip cntctlTrmask cntctlPclr cntctlSample cntctlTrlo cntctlTrhi cntctlTrstart
    cntctlTrstop cntctlEclr cntctlDstop hintNop reservedHint
    -- the rows without a word
    rotation handlerStart arrayOperationComplete specialFunctionComplete loadDataReturn hostFetch appenderAccept appendHoldRelease
    logPressureEvent dredgeStart dredgeDrainComplete indexLookup indexUpdate fold grainEntryWriteback tableFree homeMove claimRequest
    commitWrite atomicApply atomicAnswer atomicMovedReissue remoteAccessPerform remoteAck impreciseFaultArrival copyStart copyPiece
    copyComplete copyClaimTimeout ownxTimeout growGrant growDeadlockBreak nodeDispatch groupAdmission prologue nodeRetirement
    completionRecord notifyRecord stagingTagFree msixHoldoffExpiry lqdoor eqdoor eldoor registerWrite scrub hbmBeatRetry hbmRefresh
    channelGrant outflowShip watchdogHang peerUnavailable progApply sampleTick trialEnd haltgTimeout preemptRegionStop crewStop forcedReset
    groupSave deviceReset safePhaseReached hbmTrainingComplete initialiseTimeout logInitialised tileSelfTest attestationSigned
    thermalThrottle thermalShutdown flitReceive linkTraining portFail peerAccess peerStoreRefuse peerWindowRefresh crossDeviceBarrierArrival
    readErrorLog firmwareUpdate initialiseCmd readAttestation queueDescriptor contextSet mapPage unmap protect pageAllocate pageFree
    migrateHostPage scrubRates preempt resume kill checkpoint reload meshAndShards debugCtl peers crossDeviceBarrier cdoor supplyOff
    recalibration atomicTagSetExpiry
    i

/-- Settles O2, by the rows of the instruction table. -/
theorem decodeEncodeAgree : Obligations.DecodeEncodeAgree := by
  unfold Obligations.DecodeEncodeAgree
  exact decode_encode

end Sys2Proof.Laws.Encoding
end

section
namespace Sys2Proof.Machine

/-- Only a REGION and a TRAP have a code that their unit can make reserved (R188, R189). -/
theorem Cur.codeOk_iff (c : Cur) (i : Instr) : c.codeOk i = true ↔
    (∀ o, i = .region o → (c.imm o.imm).toNat < 65536) ∧ ∀ o, i = .trap o → (c.imm o.imm).toNat < 65536 := by
  unfold Cur.codeOk
  split
  case h_1 => simp
  case h_2 => simp
  case h_3 hregion htrap => exact iff_of_true rfl ⟨fun o h => absurd h (hregion o), fun o h => absurd h (htrap o)⟩

/-- A hint suits every unit; any other instruction suits a sound one whose prefixes apply to it (R101, R104). -/
theorem Cur.unitOk_iff (c : Cur) (i : Instr) : c.unitOk i = true ↔
    isHint i = true ∨ c.pfx.bad = false ∧ prefixOk c.pfx i = true ∧ c.codeOk i = true := by
  simp [Cur.unitOk, and_assoc]

/-- A word that decodes to nothing (R101). -/
theorem State.decoded_error {s : State} {c : Cur} {e : DecodeErr} (h : decodeWord c.word = .error e) :
    s.decoded c = if e = .badHint then .done (s.joinHint c (fun p => { p with bad := true })) else .done (s.takeFault c (faultOf 8 0)) := by
  rw [State.decoded, h]
  cases e <;> rfl

/-- A word that decodes to an instruction that its unit does not suit (R101). -/
theorem State.decoded_unsuited {s : State} {c : Cur} {i : Instr} (h : decodeWord c.word = .ok i) (hu : c.unitOk i = false) :
    s.decoded c = .done (s.takeFault c (faultOf 8 0)) := by
  simp [State.decoded, h, hu]

/-- Settles O5: each answer of the decoder has its equation, and a unit's check is a conjunction. -/
theorem reservedWordFaults : Obligations.ReservedWordFaults := by
  unfold Obligations.ReservedWordFaults
  refine ⟨fun s c e h => State.decoded_error h, fun s c i h => ⟨State.decoded_unsuited h, ?_⟩⟩
  rw [Cur.unitOk_iff, Cur.codeOk_iff]

/-- A hint that joins a unit changes the program counters of its fragment and the crew's unit. -/
theorem Crew.pass_joined (w : Crew) (c : Cur) (p : Pfx) :
    w.Joined { w.pass c with unit := some { lanes := c.lanes, pc := c.pc + 4, pfx := p } } c p where
  lanes l := w.fibre_modLanes c.lanes _ l
  rest := by
    conv_lhs => rw [Crew.pass, Crew.modLanes_eq]
    rfl

/-- A hint that joins applies its change to the unit in progress, or to an empty one (R103). -/
theorem State.joinHint_joined (s : State) (c : Cur) (f : Pfx → Pfx) :
    ∃ w', s.joinHint c f = s.setCrew c.core c.slot w' ∧ (s.cw c).Joined w' c (f (s.cw c).open_) :=
  ⟨_, rfl, (s.cw c).pass_joined c _⟩

section Hints
variable {s : State} {c : Cur}

/-- An outcome that is a join leaves the unit joined. -/
theorem State.next_joined {x : Host.Outcome State Fault Refusal} {f : Pfx → Pfx} (h : x = .next (s.joinHint c f)) :
    ∃ w', x = .next (s.setCrew c.core c.slot w') ∧ (s.cw c).Joined w' c (f (s.cw c).open_) := by
  obtain ⟨w', hs, hj⟩ := s.joinHint_joined c f
  exact ⟨w', h.trans (congrArg _ hs), hj⟩

/-- A meaning that is a join of the fragment in hand leaves its unit joined. -/
theorem State.run_joined (hc : s.cur = some c) (f : Pfx → Pfx) :
    ∃ w', s.run (fun c => s.joinHint c f) = .next (s.setCrew c.core c.slot w') ∧ (s.cw c).Joined w' c (f (s.cw c).open_) :=
  State.next_joined (State.run_cur hc _)

/-- A SCHED joins, and with its yield bit discards the latches of its fragment (R38, R108). -/
theorem State.exec_hintSched (hc : s.cur = some c) (o : OpHSched) :
    let t := s.joinHint c (fun p => { p with sched := some o, schedAt := s.cycle, bad := p.bad || p.sched.isSome })
    exec (.hintSched o) s =
      .next (if o.yld then t.modCrew c.core c.slot (fun w => w.modLanes c.lanes (fun _ f => f.noLatch)) else t) := State.run_cur hc _

/-- A SCHED that does not yield is a join (R108). -/
theorem State.hintSched_stays (hc : s.cur = some c) {o : OpHSched} (hy : o.yld = false) : exec (.hintSched o) s =
    .next (s.joinHint c (fun p => { p with sched := some o, schedAt := s.cycle, bad := p.bad || p.sched.isSome })) := by
  rw [State.exec_hintSched hc, if_neg (by simp [hy])]

/-- A SCHED that yields is a join whose fragment then discards its latches (R38, R108). -/
theorem State.hintSched_yields (hc : s.cur = some c) {o : OpHSched} (hy : o.yld = true) :
    ∃ v w', exec (.hintSched o) s = .next (s.setCrew c.core c.slot w')
      ∧ (s.cw c).Joined v c { (s.cw c).open_ with
          sched := some o, schedAt := s.cycle, bad := (s.cw c).open_.bad || (s.cw c).open_.sched.isSome }
      ∧ w' = { v with fibres := w'.fibres }
      ∧ ∀ l, w'.fibre l = if c.lanes.getLsbD l then (v.fibre l).noLatch else v.fibre l := by
  obtain ⟨v, hs, hj⟩ := s.joinHint_joined c (fun p => { p with sched := some o, schedAt := s.cycle, bad := p.bad || p.sched.isSome })
  refine ⟨v, v.modLanes c.lanes (fun _ f => f.noLatch), ?_, hj, v.modLanes_eq _ _, v.fibre_modLanes _ _⟩
  rw [State.exec_hintSched hc, if_pos hy, hs, State.setCrew_modCrew]

/-- A reserved hint is a NOP (R102). -/
theorem exec_nop (hc : s.cur = some c) {i : Instr} (hi : i ∈ [Instr.hintNop, .reservedHint]) : exec i s = .next (s.nopHint c) := by
  simp only [List.mem_cons, List.not_mem_nil, or_false] at hi
  rcases hi with rfl | rfl
  · exact State.run_cur hc _
  · exact State.run_cur hc _

/-- A NOP inside a sequence joins it, and as its fifth makes it illegal (R105). -/
theorem State.nopHint_inside (h : (s.cw c).unit ≠ none) :
    s.nopHint c = s.joinHint c (fun p => { p with nops := p.nops + 1, bad := p.bad || decide (4 ≤ p.nops) }) := by
  obtain ⟨u, hu⟩ := Option.ne_none_iff_exists'.1 h
  rw [State.nopHint, hu]

/-- A NOP outside a sequence only steps over its word (R105). -/
theorem State.nopHint_outside (h : (s.cw c).unit = none) :
    ∃ w', s.nopHint c = s.setCrew c.core c.slot w' ∧ (s.cw c).Stepped w' c := by
  refine ⟨(s.cw c).modLanes c.lanes (fun _ f => { f with pc := c.pc + 4, readyAt := (s.cw c).units }), ?_,
    fun l => (s.cw c).fibre_modLanes _ _ l, (s.cw c).modLanes_eq _ _⟩
  rw [State.nopHint, h]
  rfl

end Hints

/-- Settles O43: every hint is a join of its own change to the unit, but for a SCHED that yields and a NOP outside a sequence. -/
theorem hintsBuildTheUnit : Obligations.HintsBuildTheUnit := by
  unfold Obligations.HintsBuildTheUnit
  refine ⟨fun s c hc => ⟨?imm, ?rep, ?stays, fun o hy => State.hintSched_yields hc hy, ?mod, ?prio, ?inside⟩, ?outside⟩
  case imm => exact fun o => State.run_joined hc _
  case rep => exact fun o => State.run_joined hc _
  case stays => exact fun o hy => State.next_joined (State.hintSched_stays hc hy)
  case mod => exact fun o => State.run_joined hc _
  case prio => exact fun o => State.run_joined hc _
  case inside => exact fun hu i hi => State.next_joined ((exec_nop hc hi).trans (congrArg _ (State.nopHint_inside hu)))
  case outside =>
    intro s c hc hu i hi
    obtain ⟨w', hs, hw⟩ := State.nopHint_outside hu
    exact ⟨w', (exec_nop hc hi).trans (congrArg _ hs), hw⟩

end Sys2Proof.Machine
end

/-! Statements of the family 04_registers: the sizes of the storage that REGG and ACCG ask for, and the system instructions (R120, R125,
R135, R191, R232, R391 to R394). -/

section
namespace Sys2Proof.Machine

/-- An instruction of which every check passes acts, whichever its uses and lanes are (R371). -/
theorem State.run_ready {s : State} {c : Cur} {r : Roles} {all pr : Bool} {us : Cur → List Use} {m : Cur → BitVec 32} {xs : Nat → List Src}
    (h : s.Ready c r all (us c) pr (m c) xs) (k : Cur → State) :
    s.run (fun c => s.gate c r all (us c) (s.reads c pr (m c) xs (k c))) = .next (k c) := by
  rw [State.run_cur h.1, State.gate_ready h, State.reads_ready h]

/-- The request that a REGG or ACCG of the fragment in hand makes (R135). -/
def Cur.growReq (c : Cur) (acc : Bool) (want : Nat) (d : BitVec 5) : GrowReq :=
  { slot := c.slot, lanes := c.lanes, acc := acc, want := want, d := d }

/-- What a crew's REGG, or a group's ACCG, would change (R135). -/
def State.storageHeld (s : State) (c : Cur) (acc : Bool) : Nat :=
  if acc then (s.group (s.cw c).group).accPlaces.length else (s.cw c).vgran

section Ask
variable {s : State} {c : Cur} {acc : Bool} {want : Nat} {d : BitVec 5}

/-- A request is a grow when it asks for more than there is (R135). -/
theorem State.isGrow_growReq : s.isGrow c.core (c.growReq acc want d) = decide (s.storageHeld c acc < want) := rfl

/-- A request that nothing makes wait: no grow waits on its core, or it is no grow and its fragment has none in the queue (R135). -/
theorem State.askGrow_decides
    (h : (s.core c.core).grows = [] ∨ want ≤ s.storageHeld c acc
      ∧ ∀ r ∈ (s.core c.core).grows, ¬(r.slot = c.slot ∧ r.acc = acc ∧ r.lanes = c.lanes)) :
    s.askGrow c acc want d = ((s.grantOf c.core (c.growReq acc want d)).map (fun u => (u, some 0))).getD
      (s.modCore c.core (fun k => { k with grows := k.grows ++ [c.growReq acc want d] }), none) := by
  have hown : (s.core c.core).grows.find? (fun r => r.slot = c.slot && r.acc = acc && r.lanes = c.lanes) = none := by
    rcases h with h | ⟨-, h⟩
    · rw [h]; rfl
    · exact List.find?_eq_none.2 (fun r hr => by simpa [and_assoc] using h r hr)
  have hfree : (!s.isGrow c.core (c.growReq acc want d)
      || (s.core c.core).grows.all (fun x => s.growBefore c.core (c.growReq acc want d) x)) = true := by
    rcases h with h | ⟨h, -⟩
    · simp [h]
    · simp [State.isGrow_growReq, h]
  unfold State.askGrow
  rw [hown]
  dsimp only
  rw [← Cur.growReq, hfree, if_pos rfl]
  cases s.grantOf c.core (c.growReq acc want d) <;> rfl

end Ask

/-- A crew has the VGRAN that it was given (R191). -/
theorem State.vgran_setVgran {s u : State} {core sl v : Nat} (h : s.setVgran core sl v = some u) : (u.crew core sl).vgran = v := by
  unfold State.setVgran at h
  dsimp only at h
  split at h
  · cases h
  · cases h
    rw [State.crew_modCore rfl, State.crew_modCrew_same]

theorem exec_regg (o : OpRt) (s : State) : exec (.regg o) s = execRegg o s := rfl

section Regg
variable {s : State} {c : Cur} {o : OpRt} {v : Nat}
variable (h : s.Ready c .any false [srcUse o.a, .s o.d.toNat] false c.lanes (fun _ => [o.a])) (hv : (s.uval c o.a).toNat = v)
include h hv

/-- A value that is no size of a register file (R191). -/
theorem exec_regg_invalid (hr : v < 1 ∨ 8 < v) : exec (.regg o) s = .next (s.putU c false o.d c.lanes 2 { swap := true }) := by
  subst hv
  rw [exec_regg, execRegg, State.run_ready h]
  exact congrArg _ (if_pos (by simpa using hr))

/-- The handler crew has one granule for good (log 8). -/
theorem exec_regg_handler (h1 : 1 ≤ v) (h8 : v ≤ 8) (hs : c.slot = 32) :
    exec (.regg o) s = .next (s.putU c false o.d c.lanes (if v = 1 then 0 else 1) { swap := true }) := by
  subst hv
  have hn : ¬ (decide ((s.uval c o.a).toNat < 1) || decide (8 < (s.uval c o.a).toNat)) = true := by
    simp only [Bool.or_eq_true, decide_eq_true_eq]; omega
  rw [exec_regg, execRegg, State.run_ready h]
  refine congrArg _ ((if_neg hn).trans ((if_pos hs).trans ?_))
  split <;> rfl

/-- Any other crew makes a request, which answers or waits (R135, R191). -/
theorem exec_regg_asks {t : State} {x : Option Nat} (h1 : 1 ≤ v) (h8 : v ≤ 8) (hs : c.slot ≠ 32) (hk : s.askGrow c false v o.d = (t, x)) :
    exec (.regg o) s = .next (x.elim (t.hold c .grow) (fun st => t.putU c false o.d c.lanes (BitVec.ofNat 64 st) { swap := true })) := by
  subst hv
  have hn : ¬ (decide ((s.uval c o.a).toNat < 1) || decide (8 < (s.uval c o.a).toNat)) = true := by
    simp only [Bool.or_eq_true, decide_eq_true_eq]; omega
  rw [exec_regg, execRegg, State.run_ready h]
  refine congrArg _ ((if_neg hn).trans ((if_neg hs).trans ?_))
  rw [hk]
  cases x <;> rfl

end Regg

/-- Settles O33: the request of a crew is decided at once where nothing makes it wait, by whether its grant fits. -/
theorem registerGrow : Obligations.RegisterGrow := by
  unfold Obligations.RegisterGrow
  intro o s c h v
  refine ⟨exec_regg_invalid h rfl, exec_regg_handler h rfl, fun h1 h8 hs hq => ?_⟩
  have hgrant : s.grantOf c.core (c.growReq false v o.d) = s.setVgran c.core c.slot v := rfl
  have hask := State.askGrow_decides (acc := false) (d := o.d) hq
  rw [hgrant] at hask
  refine ⟨fun u hu => ⟨?granted, State.vgran_setVgran hu⟩, fun hu => ?waits⟩
  case granted => exact exec_regg_asks (x := some 0) h rfl h1 h8 hs (by rw [hask, hu]; rfl)
  case waits => exact exec_regg_asks (x := none) h rfl h1 h8 hs (by rw [hask, hu]; rfl)

section System
variable {s : State} {c : Cur} {o : OpDA} {a : Nat}

theorem exec_ctxfl (o : OpDA) (s : State) : exec (.ctxfl o) s = execCtxfl o s := rfl

theorem exec_haltg (o : OpDA) (s : State) : exec (.haltg o) s = execHaltg o s := rfl

theorem exec_resumeg (o : OpDA) (s : State) : exec (.resumeg o) s = execResumeg o s := rfl

/-- The instructions that only system mode may issue (R391). -/
theorem exec_system {m : OpDA → Instr} (h : m ∈ [Instr.ctxfl, .haltg, .resumeg]) (o : OpDA) (s : State) :
    ∃ k, exec (m o) s = s.system o k := by
  simp only [List.mem_cons, List.not_mem_nil, or_false] at h
  rcases h with rfl | rfl | rfl
  · exact ⟨_, exec_ctxfl o s⟩
  · exact ⟨_, exec_haltg o s⟩
  · exact ⟨_, exec_resumeg o s⟩

section Checks
variable (h : s.Ready c .any false [srcUse o.a, .s o.d.toNat] (o.g ≠ 0) (s.act c o.g) (fun _ => [o.a]))
include h

theorem State.system_inactive (k : Cur → Nat → State) (hm : s.act c o.g = 0) : s.system o k = .next (s.retire c { swap := true }) := by
  rw [State.system, State.run_ready h]
  exact congrArg _ (if_pos hm)

theorem State.system_user (k : Cur → Nat → State) (hm : s.act c o.g ≠ 0) (hu : (s.cw c).sys = false) :
    s.system o k = .next (s.takeFault c (faultOf 2 10)) := by
  rw [State.system, State.run_ready h]
  exact congrArg _ ((if_neg hm).trans (if_pos (by simp [hu])))

theorem State.system_acts (k : Cur → Nat → State) (hm : s.act c o.g ≠ 0) (hs : (s.cw c).sys = true) (ha : (s.uval c o.a).toNat = a) :
    s.system o k = .next (k c a) := by
  rw [State.system, State.run_ready h]
  exact congrArg _ ((if_neg hm).trans ((if_neg (by simp [hs])).trans (by rw [ha])))

end Checks

section Acts
variable (h : s.Ready c .any false [srcUse o.a, .s o.d.toNat] (o.g ≠ 0) (s.act c o.g) (fun _ => [o.a]))
  (hm : s.act c o.g ≠ 0) (hs : (s.cw c).sys = true) (ha : (s.uval c o.a).toNat = a)
include h hm hs ha

/-- A core and context tag that no CTXFL takes (R392). -/
theorem exec_ctxfl_invalid (hn : 2 ^ 27 ≤ a) : exec (.ctxfl o) s = .next (s.status c o.d (s.act c o.g) 5) := by
  rw [exec_ctxfl, execCtxfl, State.system_acts h _ hm hs ha]
  exact congrArg _ (if_pos hn)

/-- A CTXFL that issues waits for what is on its way, and invalidates when there is nothing (R392). -/
theorem exec_ctxfl_issues {ids : List Nat} (hn : a < 2 ^ 27) (hw : ((s.cw c).fibre (lowestLane c.lanes)).wait = .none)
    (hi : s.flushIds (a / 65536) (a % 65536) = ids) :
    exec (.ctxfl o) s = .next (if ids = [] then (s.ctxInvalidate (a / 65536) (a % 65536)).status c o.d (s.act c o.g) 0
      else s.hold c (.flush (a / 65536) (a % 65536) ids)) := by
  rw [exec_ctxfl, execCtxfl, State.system_acts h _ hm hs ha]
  refine congrArg _ ((if_neg (Nat.not_le.2 hn)).trans ?_)
  simp only [hw, hi, List.isEmpty_iff]

/-- HALTG and RESUMEG refuse a value that is no launch sequence number, one of no resident group, and a group of another context
(R393, R394). -/
theorem exec_haltResume_refuses {i : OpDA → Instr} (hi : i ∈ [Instr.haltg, .resumeg]) :
    (2 ^ 32 ≤ a → exec (i o) s = .next (s.status c o.d (s.act c o.g) 5))
    ∧ (a < 2 ^ 32 → s.groupOfSeq a = none → exec (i o) s = .next (s.status c o.d (s.act c o.g) 1))
    ∧ ∀ g, a < 2 ^ 32 → s.groupOfSeq a = some g → (s.node (s.group g).node).ctx ≠ s.crewCtx c.core c.slot →
      exec (i o) s = .next (s.status c o.d (s.act c o.g) 2) := by
  simp only [List.mem_cons, List.not_mem_nil, or_false] at hi
  rcases hi with rfl | rfl
  on_goal 1 => rw [exec_haltg, execHaltg]
  on_goal 2 => rw [exec_resumeg, execResumeg]
  all_goals
    rw [State.system_acts h _ hm hs ha]
    refine ⟨fun hn => congrArg _ (if_pos hn), fun hn hg => congrArg _ ((if_neg (Nat.not_le.2 hn)).trans ?_),
      fun g hn hg hx => congrArg _ ((if_neg (Nat.not_le.2 hn)).trans ?_)⟩
    · rw [hg]
    · rw [hg]
      exact if_pos hx

section Group
variable {g : Nat} (hn : a < 2 ^ 32) (hg : s.groupOfSeq a = some g) (hx : (s.node (s.group g).node).ctx = s.crewCtx c.core c.slot)
include hn hg hx

/-- A group that a pre-emption has stopped is not halted (R393). -/
theorem exec_haltg_stopped (hst : s.groupStopped g = true) : exec (.haltg o) s = .next (s.status c o.d (s.act c o.g) 6) := by
  rw [exec_haltg, execHaltg, State.system_acts h _ hm hs ha]
  refine congrArg _ ((if_neg (Nat.not_le.2 hn)).trans ?_)
  rw [hg]
  exact (if_neg (not_not.2 hx)).trans (if_pos hst)

/-- A HALTG that issues: the group may be halted already; else its halt is asked for, and is complete at once or waited for (R393). -/
theorem exec_haltg_issues {u : State} (hst : s.groupStopped g = false) (hw : ((s.cw c).fibre (lowestLane c.lanes)).wait = .none)
    (hu : s.debugStop g = u) :
    exec (.haltg o) s = .next (if s.groupHalted g = true then s.status c o.d (s.act c o.g) 4
      else if u.groupHalted g = true then u.status c o.d (s.act c o.g) 0 else u.hold c (.halt a s.cycle)) := by
  rw [exec_haltg, execHaltg, State.system_acts h _ hm hs ha]
  refine congrArg _ ((if_neg (Nat.not_le.2 hn)).trans ?_)
  subst hu
  simp only [hg, hw]
  refine (if_neg (not_not.2 hx)).trans ((if_neg (by simp [hst])).trans ?_)
  simp only [Bool.not_false, Bool.true_and, Bool.false_eq_true, if_false]
  rfl

/-- A RESUMEG finds no halt that is complete (R394). -/
theorem exec_resumeg_running (hd : s.groupHalted g = false) : exec (.resumeg o) s = .next (s.status c o.d (s.act c o.g) 4) := by
  rw [exec_resumeg, execResumeg, State.system_acts h _ hm hs ha]
  refine congrArg _ ((if_neg (Nat.not_le.2 hn)).trans ?_)
  rw [hg]
  exact (if_neg (not_not.2 hx)).trans (if_pos (by simp [hd]))

/-- A RESUMEG lets the crews of a halted group go, each from the REGION or REGEND at which it stopped (R394). -/
theorem exec_resumeg_halted (hd : s.groupHalted g = true) :
    exec (.resumeg o) s = .next (((s.modGroup g (fun r => { r with haltReq := false })).each (s.groupSlots g)
      (fun x sl => (x.modCrew (s.group g).core sl (fun w => { w with halted := false })).tryRegion (s.group g).core sl)).status
        c o.d (s.act c o.g) 0) := by
  rw [exec_resumeg, execResumeg, State.system_acts h _ hm hs ha]
  refine congrArg _ ((if_neg (Nat.not_le.2 hn)).trans ?_)
  rw [hg]
  exact (if_neg (not_not.2 hx)).trans (if_neg (by simp [hd]))

end Group
end Acts

theorem exec_accg (o : OpDA) (s : State) : exec (.accg o) s = execAccg o s := rfl

section Accg
variable (h : s.Ready c .any false [srcUse o.a, .s o.d.toNat] (o.g ≠ 0) (s.act c o.g) (fun _ => [o.a]))
include h

theorem exec_accg_inactive (hm : s.act c o.g = 0) : exec (.accg o) s = .next (s.retire c { swap := true }) := by
  rw [exec_accg, execAccg, State.run_ready h]
  exact congrArg _ (if_pos hm)

variable (hm : s.act c o.g ≠ 0) (ha : (s.uval c o.a).toNat = a)
include hm ha

/-- A group has at most 48 accumulators (R125). -/
theorem exec_accg_invalid (hn : 48 < a) : exec (.accg o) s = .next (s.status c o.d (s.act c o.g) 2) := by
  subst ha
  rw [exec_accg, execAccg, State.run_ready h]
  exact congrArg _ ((if_neg hm).trans (if_pos hn))

/-- ACCG waits for the array operations that name an accumulator beyond the count (R232). -/
theorem exec_accg_named (hn : a ≤ 48) (hb : s.accNamed c.core (s.cw c).group a = true) : exec (.accg o) s = .next (s.hold c (.array a)) := by
  subst ha
  rw [exec_accg, execAccg, State.run_ready h]
  exact congrArg _ ((if_neg hm).trans ((if_neg (Nat.not_lt.2 hn)).trans (if_pos hb)))

/-- Any other ACCG makes a request, which answers or waits (R135). -/
theorem exec_accg_asks {t : State} {x : Option Nat} (hn : a ≤ 48) (hb : s.accNamed c.core (s.cw c).group a = false)
    (hk : s.askGrow c true a o.d = (t, x)) :
    exec (.accg o) s = .next (x.elim (t.hold c .grow) (t.status c o.d (s.act c o.g))) := by
  subst ha
  rw [exec_accg, execAccg, State.run_ready h]
  refine congrArg _ ((if_neg hm).trans ((if_neg (Nat.not_lt.2 hn)).trans ((if_neg (by simp [hb])).trans ?_)))
  rw [hk]
  cases x <;> rfl

end Accg
end System

/-- Settles O46: the checks that the instructions share, and the outcomes of each in the order of its own. -/
theorem systemInstructions : Obligations.SystemInstructions := by
  unfold Obligations.SystemInstructions
  refine ⟨?checks, ?acts, ?accg⟩
  case checks =>
    intro m hi o s c h
    obtain ⟨k, hk⟩ := exec_system hi o s
    rw [hk]
    exact ⟨fun hm => ⟨_, State.system_inactive h k hm, s.retire_done c { swap := true } rfl rfl rfl⟩, State.system_user h k⟩
  case acts =>
    intro o s c h hm hs a done wt
    refine ⟨exec_ctxfl_invalid h hm hs rfl, fun hn hw hi => ?clear, fun hn hw hi => ?waits,
      fun i hi => exec_haltResume_refuses h hm hs rfl hi, fun g hn hg hx => ?group⟩
    case clear => exact (exec_ctxfl_issues h hm hs rfl hn hw rfl).trans (congrArg _ (if_pos hi))
    case waits => exact (exec_ctxfl_issues h hm hs rfl hn hw rfl).trans (congrArg _ (if_neg hi))
    case group =>
      intro u
      have hissue (hst : s.groupStopped g = false) (hw : wt = .none) := exec_haltg_issues h hm hs rfl hn hg hx hst hw (u := u) rfl
      refine ⟨exec_haltg_stopped h hm hs rfl hn hg hx, fun hst hw hd => ?_, fun hst hw hd hu => ?_, fun hst hw hd hu => ?_,
        exec_resumeg_running h hm hs rfl hn hg hx, exec_resumeg_halted h hm hs rfl hn hg hx⟩
      · rw [hissue hst hw, if_pos hd]
      · rw [hissue hst hw, if_neg (by simp [hd]), if_pos hu]
      · rw [hissue hst hw, if_neg (by simp [hd]), if_neg (by simp [hu])]
  case accg =>
    intro o s c h n
    refine ⟨fun hm => ⟨_, exec_accg_inactive h hm, s.retire_done c { swap := true } rfl rfl rfl⟩, fun hm => exec_accg_invalid h hm rfl,
      fun hm => exec_accg_named h hm rfl, fun hm hn hb => ?asks, fun hm hn hb hq u hu => ?granted⟩
    case asks =>
      obtain ⟨⟨t, x⟩, hk⟩ : ∃ p, s.askGrow c true n o.d = p := ⟨_, rfl⟩
      rw [exec_accg_asks h hm rfl hn hb hk, hk]
      cases x <;> rfl
    case granted =>
      have hgrant : s.grantOf c.core (c.growReq true n o.d) = s.setAccs (s.cw c).group n := rfl
      refine exec_accg_asks (x := some 0) h hm rfl hn hb ?_
      rw [State.askGrow_decides hq, hgrant, hu]
      rfl

end Sys2Proof.Machine
end

/-! Groups 0 and 1 (R97, R109, R143, R148 to R151): the integer operations element by element, the immediates, and the operations of BITU. -/

section
namespace Sys2Proof.Machine

/-- Signed arithmetic on every element, wrapping as `wrap` does or clamped (R109, R148). -/
theorem arith_els {w : Nat} (hw : 0 < w) {f : Int → Int → Int} {wrap : BitVec w → BitVec w → BitVec w}
    (h : ∀ x y, BitVec.ofInt w (f x.toInt y.toInt) = wrap x y) (t : Bool) (a b : Word) : Els w (orClamp w t wrap f) a b (arith w f t a b) := by
  intro k hk
  rw [el_arith w hw f t a b k hk, h]
  rfl

/-- Saturating arithmetic clamps in every mode (R149). -/
theorem arith_saturates {w : Nat} (hw : 0 < w) (f : Int → Int → Int) (a b : Word) :
    Els w (fun x y => clampS w (f x.toInt y.toInt)) a b (arith w f true a b) := fun k hk => by
  rw [el_arith w hw f true a b k hk, if_pos rfl]

theorem ofInt_toInt_add {w : Nat} (x y : BitVec w) : BitVec.ofInt w (x.toInt + y.toInt) = x + y := by simp [BitVec.ofInt_add]

theorem ofInt_toInt_sub {w : Nat} (x y : BitVec w) : BitVec.ofInt w (x.toInt - y.toInt) = x - y := by
  apply BitVec.eq_of_toInt_eq
  rw [BitVec.toInt_ofInt, BitVec.toInt_sub]

theorem ofInt_toInt_mul {w : Nat} (x y : BitVec w) : BitVec.ofInt w (x.toInt * y.toInt) = x * y := by simp [BitVec.ofInt_mul]

/-- A map of elements by their numbers is a map of the elements (R143). -/
theorem mapEls_els {w : Nat} {f : Nat → Nat → Nat} {g : BitVec w → BitVec w → BitVec w}
    (h : ∀ x y : BitVec w, BitVec.ofNat w (f x.toNat y.toNat) = g x y) (a b : Word) : Els w g a b (mapEls w f a b) := fun k hk => by
  rw [el_mapEls w f a b k hk, h]

/-- The lesser or the greater of two elements, by a signed comparison of the one with the other (R149). -/
theorem ofNat_pick_sgn {w : Nat} (hw : 0 < w) (x y u v : BitVec w) :
    BitVec.ofNat w (if sgn w x.toNat < sgn w y.toNat then u.toNat else v.toNat) = if x.slt y then u else v := by
  rw [sgn_toNat x hw, sgn_toNat y hw]
  by_cases h : x.toInt < y.toInt
  · simp [BitVec.slt, h]
  · simp [BitVec.slt, h]

/-- The sum of bytes, at most 255 (R149). -/
theorem addus_els (a b : Word) : Els 8 (fun x y => BitVec.ofNat 8 (min 255 (x.toNat + y.toNat))) a b
    (mapEls 8 (fun x y => if 255 < x + y then 255 else x + y) a b) := by
  refine mapEls_els (fun x y => ?_) a b
  congr 1
  split <;> omega

/-- The lesser of signed elements (R149). -/
theorem min_els {w : Nat} (hw : 0 < w) (a b : Word) : Els w (fun x y => if y.slt x then y else x) a b
    (mapEls w (fun x y => if sgn w y < sgn w x then y else x) a b) := by
  refine mapEls_els (fun x y => ?_) a b
  exact ofNat_pick_sgn hw y x y x

/-- The greater of signed elements (R149). -/
theorem max_els {w : Nat} (hw : 0 < w) (a b : Word) : Els w (fun x y => if x.slt y then y else x) a b
    (mapEls w (fun x y => if sgn w x < sgn w y then y else x) a b) := by
  refine mapEls_els (fun x y => ?_) a b
  exact ofNat_pick_sgn hw x y y x

/-- The high half of a signed product (R148). -/
theorem mulh_word (a b : Word) :
    ((a.signExtend 128 * b.signExtend 128) >>> 64).setWidth 64 = BitVec.ofInt 64 (a.toInt * b.toInt / 2 ^ 64) := by
  have hm : a.signExtend 128 * b.signExtend 128 = BitVec.ofInt 128 (a.toInt * b.toInt) := by
    rw [BitVec.ofInt_mul]
    rfl
  rw [hm]
  generalize a.toInt * b.toInt = x
  apply BitVec.eq_of_toNat_eq
  rw [BitVec.toNat_setWidth, BitVec.toNat_ushiftRight, BitVec.toNat_ofInt, BitVec.toNat_ofInt, Nat.shiftRight_eq_div_pow]
  norm_num
  omega

/-- The high half of an unsigned product (R148). -/
theorem mulhu_word (a b : Word) :
    ((a.setWidth 128 * b.setWidth 128) >>> 64).setWidth 64 = BitVec.ofNat 64 (a.toNat * b.toNat / 2 ^ 64) := by
  have ha : a.toNat < 2 ^ 128 := lt_trans a.isLt (by norm_num)
  have hb : b.toNat < 2 ^ 128 := lt_trans b.isLt (by norm_num)
  have h : a.toNat * b.toNat < 2 ^ 128 := calc
    a.toNat * b.toNat < 2 ^ 64 * 2 ^ 64 := Nat.mul_lt_mul'' a.isLt b.isLt
    _ = 2 ^ 128 := by norm_num
  apply BitVec.eq_of_toNat_eq
  rw [BitVec.toNat_setWidth, BitVec.toNat_ushiftRight, BitVec.toNat_mul, BitVec.toNat_setWidth, BitVec.toNat_setWidth,
    Nat.mod_eq_of_lt ha, Nat.mod_eq_of_lt hb, Nat.mod_eq_of_lt h, BitVec.toNat_ofNat, Nat.shiftRight_eq_div_pow]

/-- A rotation moves every bit by the count, around the end (R149). -/
theorem getLsbD_rotateLeft_add (a : Word) (n i : Nat) (hn : n < 64) (hi : i < 64) :
    (a.rotateLeft n).getLsbD ((i + n) % 64) = a.getLsbD i := by
  rw [BitVec.getLsbD_rotateLeft, Nat.mod_eq_of_lt hn]
  by_cases h : i + n < 64
  · simp [Nat.mod_eq_of_lt h, h]
  · have he : (i + n) % 64 = i + n - 64 := by omega
    simp only [he, show i + n - 64 < n by omega, decide_true, cond_true]
    congr 1
    omega

theorem getLsbD_and_not {w : Nat} (a b : BitVec w) (i : Nat) : (a &&& ~~~b).getLsbD i = (a.getLsbD i && !b.getLsbD i) := by
  rw [BitVec.getLsbD_and, BitVec.getLsbD_not]
  by_cases h : i < w
  · simp [h]
  · simp [h, a.getLsbD_of_ge i (by omega)]

/-- Every integer instruction of format A is one operation of elements, which satisfies its rule (R148, R149). -/
theorem exec_intRule_spec {p : (OpA → Instr) × (Bool → Word → Word → Word → Prop)} (h : p ∈ intRules) :
    ∃ f, (∀ o s, exec (p.1 o) s = s.intA o f) ∧ ∀ t a b, p.2 t a b (f t a b) := by
  simp only [intRules, List.mem_cons, List.not_mem_nil, or_false] at h
  rcases h with rfl | rfl | rfl | rfl | rfl | rfl | rfl | rfl | rfl | rfl | rfl | rfl | rfl | rfl | rfl | rfl | rfl | rfl | rfl | rfl | rfl |
    rfl | rfl | rfl | rfl | rfl | rfl | rfl <;> unfold exec
  · exact ⟨_, fun _ _ => rfl, arith_els (by decide) ofInt_toInt_add⟩
  · exact ⟨_, fun _ _ => rfl, arith_els (by decide) ofInt_toInt_add⟩
  · exact ⟨_, fun _ _ => rfl, arith_els (by decide) ofInt_toInt_add⟩
  · exact ⟨_, fun _ _ => rfl, arith_els (by decide) ofInt_toInt_add⟩
  · exact ⟨_, fun _ _ => rfl, arith_els (by decide) ofInt_toInt_sub⟩
  · exact ⟨_, fun _ _ => rfl, arith_els (by decide) ofInt_toInt_sub⟩
  · exact ⟨_, fun _ _ => rfl, arith_els (by decide) ofInt_toInt_sub⟩
  · exact ⟨_, fun _ _ => rfl, arith_els (by decide) ofInt_toInt_sub⟩
  · exact ⟨_, fun _ _ => rfl, arith_els (by decide) ofInt_toInt_mul⟩
  · exact ⟨_, fun _ _ => rfl, arith_els (by decide) ofInt_toInt_mul⟩
  · exact ⟨_, fun _ _ => rfl, fun _ => mulh_word⟩
  · exact ⟨_, fun _ _ => rfl, fun _ => mulhu_word⟩
  · exact ⟨_, fun _ _ => rfl, fun _ _ _ _ => BitVec.getLsbD_and⟩
  · exact ⟨_, fun _ _ => rfl, fun _ _ _ _ => BitVec.getLsbD_or⟩
  · exact ⟨_, fun _ _ => rfl, fun _ _ _ _ => BitVec.getLsbD_xor⟩
  · exact ⟨_, fun _ _ => rfl, fun _ => getLsbD_and_not⟩
  · exact ⟨_, fun _ _ => rfl, fun _ => arith_saturates (by decide) (· + ·)⟩
  · exact ⟨_, fun _ _ => rfl, fun _ => arith_saturates (by decide) (· - ·)⟩
  · exact ⟨_, fun _ _ => rfl, fun _ => addus_els⟩
  · exact ⟨_, fun _ _ => rfl, fun _ => mapEls_els fun _ _ => rfl⟩
  · exact ⟨_, fun _ _ => rfl, fun _ => min_els (by decide)⟩
  · exact ⟨_, fun _ _ => rfl, fun _ => max_els (by decide)⟩
  · exact ⟨_, fun _ _ => rfl, fun _ => min_els (by decide)⟩
  · exact ⟨_, fun _ _ => rfl, fun _ => max_els (by decide)⟩
  · exact ⟨_, fun _ _ => rfl, fun _ a b => by simp⟩
  · exact ⟨_, fun _ _ => rfl, fun _ a b => by simp⟩
  · exact ⟨_, fun _ _ => rfl, fun _ a b => by simp⟩
  · exact ⟨_, fun _ _ => rfl, fun _ a b i hi => by
      simpa using getLsbD_rotateLeft_add a (b.toNat % 64) i (Nat.mod_lt _ (by decide)) hi⟩

/-- Settles O9: each instruction is one vector operation, whose result satisfies its rule in every lane. -/
theorem integerResults : Obligations.IntegerResults := by
  unfold Obligations.IntegerResults
  intro p hp o s c h
  obtain ⟨f, he, hf⟩ := exec_intRule_spec hp
  exact ⟨_, _, (he o s).trans (State.run_cur h.1 _), State.vec_done_unflagged h _, fun l _ => hf _ _ _⟩

theorem el_full (x : Word) : el 64 0 x = x := by simp [el]

theorem el_zero (w : Nat) (x : Word) : el w 0 x = x.setWidth w := by
  apply BitVec.eq_of_getLsbD_eq
  intro i hi
  simp [el, hi]

/-- The low bits of a value as a signed number. -/
theorem sgn_word {w : Nat} (hw : 0 < w) (x : Word) : sgn w x.toNat = (x.setWidth w).toInt := by
  rw [← sgn_toNat _ hw, BitVec.toNat_setWidth]
  unfold sgn
  rw [Nat.mod_mod]

/-- The sum with an immediate, of all 64 bits (R150). -/
theorem addi_word (t : Bool) (a x : Word) : arith 64 (· + ·) t a x = if t then clampS 64 (a.toInt + x.toInt) else a + x := by
  have h := arith_els (w := 64) (by decide) ofInt_toInt_add t a x 0 (by decide)
  rwa [el_full, el_full, el_full] at h

/-- The sum of the low word with an immediate, clamped in its exact value (R150). -/
theorem addi_half (t : Bool) (a x : Word) :
    BitVec.ofInt 32 (if t then clampInt 32 false (sgn 32 a.toNat + x.toInt) else sgn 32 a.toNat + x.toInt) =
      if t then clampS 32 ((a.setWidth 32).toInt + x.toInt) else a.setWidth 32 + x.setWidth 32 := by
  rw [sgn_word (by decide)]
  cases t with
  | true => exact clampInt_eq 32 _
  | false =>
    have hx : BitVec.ofInt 32 x.toInt = x.setWidth 32 := by
      apply BitVec.eq_of_toInt_eq
      rw [BitVec.toInt_ofInt, BitVec.toInt_setWidth, BitVec.toInt_eq_toNat_bmod, Int.bmod_bmod_of_dvd (by decide)]
    rw [if_neg Bool.false_ne_true, if_neg Bool.false_ne_true, BitVec.ofInt_add, BitVec.ofInt_toInt, hx]

/-- A word of MOVI's opcode whose A field is not that of the zero source decodes to nothing (R150). -/
theorem decodeWord_movi {w : BitVec 32} (hg : w.extractLsb' 0 4 = 1#4) (hf : w.extractLsb' 4 4 = 14#4) (ha : w.extractLsb' 18 7 ≠ 100#7) :
    decodeWord w = .error .nonzeroReserved := by
  have hu : OpMov.unpack w = .error .nonzeroReserved := if_neg (by simpa using ha)
  have hr : decodeRaw w = .error .nonzeroReserved := by
    simp only [decodeRaw, hg, hf]
    exact congrArg (Except.map Instr.movi) hu
  rw [decodeWord, hr]

/-- Settles O10: the immediate is an operand of one vector operation; the decoder's check of A refuses the other words of MOVI. -/
theorem immediateResults : Obligations.ImmediateResults := by
  unfold Obligations.ImmediateResults
  refine ⟨fun o s c h => ⟨⟨_, State.run_cur h.1 _, ?_⟩, ⟨_, State.run_cur h.1 _, ?_⟩⟩, fun o s c h => ?_, fun w hg hf ha => ?_⟩
  · simpa only [addi_word] using State.vec_done_unflagged h (fun w l => arith 64 (· + ·) c.sat (w.val l o.a) (c.imm o.imm))
  · simpa only [addi_half] using State.vec_done_unflagged h (fun w l => (BitVec.ofInt 32
      (if c.sat then clampInt 32 false (sgn 32 (w.val l o.a).toNat + (c.imm o.imm).toInt)
        else sgn 32 (w.val l o.a).toNat + (c.imm o.imm).toInt)).signExtend 64)
  · exact ⟨_, State.run_cur h.1 _, State.vec_done_unflagged (xs := []) h (fun _ _ => c.imm o.imm)⟩
  · exact ⟨_, decodeWord_movi hg hf ha⟩

/-- The length of the part of a list before the first entry that satisfies `q`. -/
theorem length_takeWhile_not {α : Type} (q : α → Bool) (xs : List α) : (xs.takeWhile (fun a => !q a)).length = xs.findIdx q := by
  rw [List.takeWhile_eq_take_findIdx_not, List.length_take, min_eq_left (by simpa using List.findIdx_le_length)]
  simp

theorem toNat_ofNat_le {n : Nat} (h : n ≤ 64) : (BitVec.ofNat 64 n).toNat = n := by
  rw [BitVec.toNat_ofNat, Nat.mod_eq_of_lt (by omega)]

/-- The bits of the low `n` are looked through from the highest down (R151). -/
theorem clzN_leading {n : Nat} (hn : n ≤ 64) (x : Word) : Leading n x (clzN n x).toNat := by
  let bits := (List.range n).reverse
  have hlen : bits.length = n := by simp [bits]
  have hle : bits.findIdx (fun i => x.getLsbD i) ≤ n := List.findIdx_le_length.trans_eq hlen
  have hget : ∀ k (hk : k < bits.length), bits[k] = n - 1 - k := fun k hk => by simp [bits, List.getElem_reverse]
  have hz : (clzN n x).toNat = bits.findIdx (fun i => x.getLsbD i) := by
    rw [clzN, length_takeWhile_not, toNat_ofNat_le (hle.trans hn)]
  rw [hz]
  refine ⟨hle, fun i hi hin => ?_, fun hlt => ?_⟩
  · have hb := List.not_of_lt_findIdx (p := fun i => x.getLsbD i) (xs := bits) (i := n - 1 - i) (by omega)
    rwa [hget, show n - 1 - (n - 1 - i) = i by omega] at hb
  · have hb := List.findIdx_getElem (p := fun i => x.getLsbD i) (xs := bits) (w := by omega)
    rwa [hget, Nat.sub_right_comm] at hb

/-- The bits are looked through from the lowest up (R151). -/
theorem ctzW_trailing (x : Word) : (ctzW x).toNat ≤ 64 ∧ (∀ i, i < (ctzW x).toNat → x.getLsbD i = false)
    ∧ ((ctzW x).toNat < 64 → x.getLsbD (ctzW x).toNat = true) := by
  have hlen : (List.range 64).length = 64 := List.length_range
  have hle : (List.range 64).findIdx (fun i => x.getLsbD i) ≤ 64 := List.findIdx_le_length.trans_eq hlen
  have hz : (ctzW x).toNat = (List.range 64).findIdx (fun i => x.getLsbD i) := by
    rw [ctzW, length_takeWhile_not, toNat_ofNat_le hle]
  rw [hz]
  refine ⟨hle, fun i hi => ?_, fun hlt => ?_⟩
  · have hb := List.not_of_lt_findIdx (p := fun i => x.getLsbD i) (xs := List.range 64) hi
    rwa [List.getElem_range] at hb
  · have hb := List.findIdx_getElem (p := fun i => x.getLsbD i) (xs := List.range 64) (w := by omega)
    rwa [List.getElem_range] at hb

/-- A count of some of at most 64 bits fits its word (R151). -/
theorem popN_ones {n : Nat} (hn : n ≤ 64) (x : Word) : (popN n x).toNat = ones n x := by
  have h : ones n x ≤ n := (List.length_filter_le _ _).trans_eq List.length_range
  exact toNat_ofNat_le (h.trans hn)

/-- The lowest `n` bits of a value, each at the place that mirrors its own. -/
def mirrored (x : Word) (n : Nat) : Word :=
  BitVec.ofNat 64 ((List.range n).foldl (fun a i => if x.getLsbD i then a + 2 ^ (63 - i) else a) 0)

theorem getLsbD_two_pow {w : Nat} (k j : Nat) (hj : j < w) : (BitVec.ofNat w (2 ^ k)).getLsbD j = decide (k = j) := by
  rw [BitVec.getLsbD_ofNat, Nat.testBit_two_pow, decide_eq_true hj, Bool.true_and]

/-- The sum of the mirrored bits has no carry, so its bits are they (R151). -/
theorem getLsbD_mirrored (x : Word) (n j : Nat) (hn : n ≤ 64) (hj : j < 64) :
    (mirrored x n).getLsbD j = (decide (63 - j < n) && x.getLsbD (63 - j)) := by
  induction n generalizing j with
  | zero => simp [mirrored]
  | succ n ih =>
    have hstep : mirrored x (n + 1) = if x.getLsbD n then mirrored x n + BitVec.ofNat 64 (2 ^ (63 - n)) else mirrored x n := by
      unfold mirrored
      rw [List.range_succ, List.foldl_append, List.foldl_cons, List.foldl_nil]
      split
      · rw [BitVec.ofNat_add]
      · rfl
    rw [hstep]
    cases hx : x.getLsbD n with
    | false =>
      rw [if_neg Bool.false_ne_true, ih j (by omega) hj]
      by_cases h : 63 - j = n
      · simp [h, hx]
      · simp [show (63 - j < n + 1) ↔ (63 - j < n) by omega]
    | true =>
      have hz : mirrored x n &&& BitVec.ofNat 64 (2 ^ (63 - n)) = 0#64 := by
        apply BitVec.eq_of_getLsbD_eq
        intro i hi
        rw [BitVec.getLsbD_and, ih i (by omega) hi, getLsbD_two_pow _ _ hi, BitVec.getLsbD_zero]
        by_cases h : 63 - n = i
        · simp [show ¬ 63 - i < n by omega]
        · simp [h]
      rw [if_pos rfl, BitVec.add_eq_or_of_and_eq_zero _ _ hz, BitVec.getLsbD_or, ih j (by omega) hj, getLsbD_two_pow _ _ hj]
      by_cases h : 63 - n = j
      · simp [h, show 63 - j = n by omega, hx]
      · simp [h, show (63 - j < n + 1) ↔ (63 - j < n) by omega]

/-- BREV.D exchanges bit `i` with bit `63 - i` (R151). -/
theorem brevW_bits (x : Word) (i : Nat) (hi : i < 64) : (brevW x).getLsbD (63 - i) = x.getLsbD i := by
  refine (getLsbD_mirrored x 64 (63 - i) le_rfl (by omega)).trans ?_
  rw [show 63 - (63 - i) = i by omega, decide_eq_true hi, Bool.true_and]

/-- BSWAP.D exchanges byte `i` with byte `7 - i` (R151). -/
theorem bswapW_bytes (x : Word) (i : Nat) (hi : i < 8) : el 8 (7 - i) (bswapW x) = el 8 i x := by
  have hlen : ((List.range 8).map (fun i => lmt 8 i x)).reverse.length = 8 := by simp
  rw [bswapW, el_packEls _ _ _ (by rw [hlen]), List.getD_eq_getElem _ _ (by omega), List.getElem_reverse, List.getElem_map,
    List.getElem_range, lmt_eq_el]
  simp [show 7 - (7 - i) = i by omega]

/-- The low bits of a value extended by their sign (R151). -/
theorem sext_toInt {w : Nat} (hw : w ≤ 64) (x : Word) : ((x.setWidth w).signExtend 64).toInt = (el w 0 x).toInt := by
  rw [el_zero, BitVec.toInt_signExtend_of_le hw]

/-- The low bits of a value extended by zeros (R151). -/
theorem zext_toNat {w : Nat} (hw : w ≤ 64) (x : Word) : ((x.setWidth w).setWidth 64).toNat = (el w 0 x).toNat := by
  rw [el_zero, BitVec.toNat_setWidth_of_le hw]

/-- Every operation of BITU satisfies its rule (R151). -/
theorem exec_bituRule {p : (OpA1 → Instr) × (Word → Word → Prop)} (h : p ∈ bituRules) :
    ∃ f, (∀ o s, exec (p.1 o) s = s.bitu o f) ∧ ∀ a, p.2 a (f a) := by
  simp only [bituRules, List.mem_cons, List.not_mem_nil, or_false] at h
  rcases h with rfl | rfl | rfl | rfl | rfl | rfl | rfl | rfl | rfl | rfl | rfl <;> unfold exec
  · exact ⟨_, fun _ _ => rfl, clzN_leading le_rfl⟩
  · exact ⟨_, fun _ _ => rfl, ctzW_trailing⟩
  · exact ⟨_, fun _ _ => rfl, popN_ones le_rfl⟩
  · exact ⟨_, fun _ _ => rfl, brevW_bits⟩
  · exact ⟨_, fun _ _ => rfl, bswapW_bytes⟩
  · exact ⟨_, fun _ _ => rfl, clzN_leading (by decide)⟩
  · exact ⟨_, fun _ _ => rfl, popN_ones (by decide)⟩
  · exact ⟨_, fun _ _ => rfl, sext_toInt (by decide)⟩
  · exact ⟨_, fun _ _ => rfl, zext_toNat (by decide)⟩
  · exact ⟨_, fun _ _ => rfl, sext_toInt (by decide)⟩
  · exact ⟨_, fun _ _ => rfl, sext_toInt (by decide)⟩

/-- Settles O11: each operation is one vector operation, whose result satisfies its rule in every lane. -/
theorem bituResults : Obligations.BituResults := by
  unfold Obligations.BituResults
  intro p hp o s c h
  obtain ⟨f, he, hf⟩ := exec_bituRule hp
  exact ⟨_, _, (he o s).trans (State.run_cur h.1 _), State.vec_done_unflagged h _, fun l _ => hf _⟩

end Sys2Proof.Machine
end

/-! Group 4 (R156 to R160, R172, R177): conditions, compares, predicate operations, votes, mask compares and selections. -/

section
namespace Sys2Proof.Machine

/-- The condition of two integers by their numbers is the condition of them as elements (R156). -/
theorem intCond_toNat {w : Nat} (hw : 0 < w) (k : Cond) (x y : BitVec w) :
    intCond w k x.toNat y.toNat = condOfInts k (x == y) (x.slt y) (x.ult y) := by
  have hne : x.toInt ≤ y.toInt ↔ x.toInt < y.toInt ∨ x = y := by rw [le_iff_lt_or_eq, BitVec.toInt_inj]
  have hneu : x.toNat ≤ y.toNat ↔ x.toNat < y.toNat ∨ x = y := by rw [le_iff_lt_or_eq, BitVec.toNat_inj]
  unfold intCond condOfInts BitVec.slt BitVec.ult
  rw [sgn_toNat x hw, sgn_toNat y hw]
  cases k with
  | eq => simp [BitVec.toNat_inj, beq_eq_decide]
  | ne => simp [BitVec.toNat_inj, beq_eq_decide]
  | lt => rfl
  | le => simp [hne, beq_eq_decide]
  | ltu => rfl
  | leu => simp [hneu, beq_eq_decide]
  | unord => rfl
  | ord => rfl

theorem condInt_word (k : Cond) (a b : Word) : intCond 64 k a.toNat b.toNat = condInt 64 k a b := by
  rw [intCond_toNat (by decide), condInt, el_full, el_full]

theorem condInt_low {w : Nat} (hw : 0 < w) (k : Cond) (a b : Word) : intCond w k (lmt w 0 a) (lmt w 0 b) = condInt w k a b := by
  rw [lmt_eq_el, lmt_eq_el, intCond_toNat hw, condInt]

/-- A floating compare: the condition by how the values compare, and the flag of a signalling NaN (R156). -/
theorem fpCompare_eq (f : Fmt) (k : Cond) (a b : Nat) :
    fpCompare f k a b = (condFp k (f.decode a) (f.decode b), snanFlag (f.decode a) (f.decode b)) := by
  have h : fpCond k ((f.decode a).cmp (f.decode b)) = condFp k (f.decode a) (f.decode b) := by
    unfold condFp
    cases k <;> cases (f.decode a).cmp (f.decode b) <;> rfl
  rw [← h]
  rfl

/-- An integer compare is one condition of R156 on the low bits of A and B (R157). -/
theorem State.cmpInt_eq {w : Nat} (hw : 0 < w) (s : State) (o : OpC) : s.cmpInt o w =
    s.run (fun c => s.cmpOp c .any o.p o.j [o.a, o.b] false (fun x l => (condInt w o.cond (x.val l o.a) (x.val l o.b), 0))) := by
  simp only [State.cmpInt, condInt_low hw]

/-- A floating compare is one condition of R156 on element 0 of A and B (R157). -/
theorem State.cmpFp_eq (f : Fmt) (s : State) (o : OpC) : s.cmpFp o f =
    s.run (fun c => s.cmpOp c .vector o.p o.j [o.a, o.b] false (fun x l =>
      (condFp o.cond (f.decode (lmt f.width 0 (x.val l o.a))) (f.decode (lmt f.width 0 (x.val l o.b)))
      , snanFlag (f.decode (lmt f.width 0 (x.val l o.a))) (f.decode (lmt f.width 0 (x.val l o.b)))))) := by
  simp only [State.cmpFp, fpCompare_eq]

theorem lmt_fmtD (x : Word) : lmt fmtD.width 0 x = x.toNat := by
  rw [show fmtD.width = 64 from rfl, lmt_eq_el, el_full]

theorem lmt_fmtS (x : Word) : lmt fmtS.width 0 x = (el 32 0 x).toNat := lmt_eq_el 32 0 x

/-- Every compare into predicates is one condition on the values of A and B (R157, R177). -/
theorem exec_cmpRule {p : (OpC → Instr) × Roles × (Cond → Word → Word → Bool × FSet)} (h : p ∈ cmpRules) (o : OpC) (s : State) :
    exec (p.1 o) s = s.run (fun c => s.cmpOp c p.2.1 o.p o.j [o.a, o.b] false (fun w l => p.2.2 o.cond (w.val l o.a) (w.val l o.b))) := by
  simp only [cmpRules, List.mem_cons, List.not_mem_nil, or_false] at h
  rcases h with rfl | rfl | rfl | rfl | rfl
  · exact (show exec (.icmpD o) s = s.cmpInt o 64 from rfl).trans (State.cmpInt_eq (by decide) s o)
  · exact (show exec (.icmpW o) s = s.cmpInt o 32 from rfl).trans (State.cmpInt_eq (by decide) s o)
  · exact (show exec (.ucmp o) s = execUcmp o s from rfl).trans (by simp only [execUcmp, condInt_word])
  · refine (show exec (.fcmpD o) s = s.cmpFp o fmtD from rfl).trans ((State.cmpFp_eq fmtD s o).trans ?_)
    simp only [lmt_fmtD]
  · refine (show exec (.fcmpS o) s = s.cmpFp o fmtS from rfl).trans ((State.cmpFp_eq fmtS s o).trans ?_)
    simp only [lmt_fmtS]

/-- Every operation on two predicates is one operation on their values (R158). -/
theorem exec_predRule {p : (OpP → Instr) × (Bool → Bool → Bool)} (h : p ∈ predRules) (o : OpP) (s : State) :
    exec (p.1 o) s = s.predOp o p.2 := by
  simp only [predRules, List.mem_cons, List.not_mem_nil, or_false] at h
  rcases h with rfl | rfl | rfl <;> rfl

/-- What a compare without flags leaves, for a fragment that may act. -/
theorem State.cmpOp_done_unflagged {s : State} {c : Cur} {r : Roles} {p : BitVec 4} {j pr : Bool} {xs : List Src}
    (h : s.Ready c r false (xs.map srcUse) (j || pr) c.lanes (fun _ => xs)) (f : Crew → Nat → Bool) :
    s.FibreDone (s.cmpOp c r p j xs pr (fun w l => (f w l, 0))) c
      (fun l x => x.setPred p.toNat (f (s.cw c) l && (!j || x.pred p.toNat))) 0 := by
  have := State.cmpOp_done h (p := p) (fun w l => (f w l, 0))
  rwa [Crew.raised_zero] at this

/-- What an instruction does to the fibres of a fragment may be said of the fibres as they stood. -/
theorem State.FibreDone.congr {s t : State} {c : Cur} {g g' : Nat → Fibre → Fibre} {fl : FSet} (h : s.FibreDone t c g fl)
    (hg : ∀ l, g l ((s.cw c).fibre l) = g' l ((s.cw c).fibre l)) : s.FibreDone t c g' fl := by
  obtain ⟨w', ht, hgo, hregs⟩ := h
  exact ⟨w', ht, ⟨fun l => by rw [hgo.lanes, hg], hgo.rest⟩, hregs⟩

/-- Whether the predicates of a vote's peers give its condition, by its mode (R172). -/
def voteHolds (mode : Nat) (ps : List Bool) : Bool :=
  match mode with
  | 0 => ps.all id
  | 1 => ps.any id
  | _ => ps.all id || !ps.any id

/-- VOTE is a predicate operation on the predicates of the lane's peers (R172). -/
theorem exec_vote (o : OpVote) (s : State) : exec (.vote o) s = s.run (fun c => s.cmpOp c .any o.p o.j [] true
    (fun w l => (voteHolds o.mode.toNat ((w.peers l c.lanes).map (fun q => (w.fibre q).pred o.pa.toNat)), 0))) := rfl

/-- All of them, one of them, or all of them alike (R172). -/
theorem voteHolds_iff (mode : Nat) (p : Nat → Bool) (ls : List Nat) : voteHolds mode (ls.map p) = true ↔
    if mode = 0 then ∀ q ∈ ls, p q = true
    else if mode = 1 then ¬ ∀ q ∈ ls, p q = false
    else (∀ q ∈ ls, p q = true) ∨ ∀ q ∈ ls, p q = false := by
  unfold voteHolds
  split
  · simp
  · simp
  · rename_i h0 h1
    simp [show mode ≠ 0 from h0, show mode ≠ 1 from h1]

/-- Settles O17: every instruction is one compare, whose predicates and flags are the shared operation's. -/
theorem predicateResults : Obligations.PredicateResults := by
  unfold Obligations.PredicateResults
  refine ⟨rfl, ?cmp, ?imm, ?pred, ?pnot, ?vtop, ?vote⟩
  case cmp =>
    intro p hp o s c h
    exact ⟨_, (exec_cmpRule hp o s).trans (State.run_cur h.1 _), State.cmpOp_done (pr := false) (xs := [o.a, o.b]) (by simpa using h) _⟩
  case imm =>
    intro o s c h
    have := State.cmpOp_done_unflagged (p := o.p) (pr := false) (xs := [o.a]) (by simpa using h)
      (fun w l => intCond 64 o.cond (w.val l o.a).toNat (c.imm o.imm).toNat)
    exact ⟨_, State.run_cur h.1 _, by simpa only [condInt_word] using this⟩
  case pred =>
    intro p hp o s c h
    have := State.cmpOp_done_unflagged (p := o.p) (j := o.j) (pr := true) (xs := []) (by simpa using h)
      (fun w l => p.2 ((w.fibre l).pred o.pa.toNat) ((w.fibre l).pred o.pb.toNat))
    exact ⟨_, (exec_predRule hp o s).trans (State.run_cur h.1 _), this.congr fun _ => rfl⟩
  case pnot =>
    intro o s c h
    have := State.cmpOp_done_unflagged (p := o.p) (j := o.j) (pr := true) (xs := []) (by simpa using h)
      (fun w l => !(w.fibre l).pred o.pa.toNat)
    exact ⟨_, State.run_cur h.1 _, this.congr fun _ => rfl⟩
  case vtop =>
    intro o s c h
    have := State.cmpOp_done_unflagged (p := o.p) (pr := false) (xs := [o.a, o.b]) (by simpa using h)
      (fun w l => (w.val l o.a).getLsbD ((w.val l o.b).toNat % 64))
    exact ⟨_, State.run_cur h.1 _, by simpa using this⟩
  case vote =>
    intro o s c h
    refine ⟨_, _, (exec_vote o s).trans (State.run_cur h.1 _), State.cmpOp_done_unflagged (pr := true) (xs := []) (by simpa using h)
      (fun w l => voteHolds o.mode.toNat ((w.peers l c.lanes).map (fun q => (w.fibre q).pred o.pa.toNat))), fun l _ => ?_⟩
    exact voteHolds_iff o.mode.toNat (fun q => ((s.cw c).fibre q).pred o.pa.toNat) ((s.cw c).peers l c.lanes)

/-- The mask of a compare of elements: all ones where it holds and zeros elsewhere (R160). -/
def maskWord (z : Nat) (f : Nat → Nat → Bool × FSet) (a b : Word) : Word :=
  packEls z (((List.range (64 / z)).map (fun k => f (lmt z k a) (lmt z k b))).map (fun e => if e.1 then 2 ^ z - 1 else 0))

theorem el_maskWord {z k : Nat} (hk : k < 64 / z) (f : Nat → Nat → Bool × FSet) (a b : Word) :
    el z k (maskWord z f a b) = if (f (el z k a).toNat (el z k b).toNat).1 then BitVec.allOnes z else 0 := by
  rw [maskWord, el_packEls _ _ _ (by simpa using Nat.mul_div_le 64 z), List.getD_eq_getElem _ _ (by simpa using hk), List.getElem_map,
    List.getElem_map, List.getElem_range, lmt_eq_el, lmt_eq_el]
  split
  · apply BitVec.eq_of_toNat_eq
    rw [BitVec.toNat_ofNat, BitVec.toNat_allOnes, Nat.mod_eq_of_lt (Nat.sub_one_lt (Nat.two_pow_pos z).ne')]
  · rfl

theorem el_and (z k : Nat) (x y : Word) : el z k (x &&& y) = el z k x &&& el z k y := BitVec.extractLsb'_and

/-- The mask, or its AND with the prior register (R160). -/
theorem el_masked {z k : Nat} (hk : k < 64 / z) (f : Nat → Nat → Bool × FSet) (a b d : Word) (j : Bool) :
    el z k (if j then maskWord z f a b &&& d else maskWord z f a b) =
      if (f (el z k a).toNat (el z k b).toNat).1 then (if j then el z k d else BitVec.allOnes z) else 0 := by
  cases j with
  | false => exact el_maskWord hk f a b
  | true =>
    rw [if_pos rfl, el_and, el_maskWord hk]
    split
    · exact BitVec.allOnes_and
    · exact BitVec.zero_and

/-- The registers after a value is written in every lane of a mask. -/
theorem Crew.vreg_writeV_lanes (w : Crew) (d : Nat) (m : BitVec 32) (x : Nat → Word) {l : Nat} (n : Nat) (hl : l < 32) :
    (w.writeV d ((lanesOf m).map (fun l => (l, x l)))).vreg l n =
      if m.getLsbD l = true ∧ n = (w.fibre l).wbase.toNat + d then { val := x l } else w.vreg l n := by
  have hlt : ∀ e ∈ (lanesOf m).map (fun l => (l, x l)), e.1 < 32 := fun e he => by
    obtain ⟨a, ha, rfl⟩ := List.mem_map.1 he
    exact List.mem_range.1 (List.mem_of_mem_filter ha)
  have hnd : (((lanesOf m).map (fun l => (l, x l))).map Prod.fst).Nodup := by
    simpa [List.map_map, Function.comp_def] using nodup_lanesOf m
  rw [Crew.vreg_writeV w d _ l n hl hlt hnd, find_lane (lanesOf m) x l]
  simp only [mem_lanesOf]
  by_cases hm : m.getLsbD l = true
  · simp only [hm, if_true, true_and]
  · simp [hm]

/-- A vector result that enters no latch: the register, the flags, and retirement (R160). -/
def State.putMask (s : State) (c : Cur) (d : BitVec 6) (rs : List (Nat × Word × FSet)) : State :=
  (s.modCrew c.core c.slot (fun w => { w.writeV d.toNat (rs.map (fun r => (r.1, r.2.1))) with
    fflags := w.fflags ||| w.flagsOf rs })).retire c {}

/-- What a vector result leaves that enters no latch. -/
theorem State.putMask_done (s : State) (c : Cur) (d : BitVec 6) (m : BitVec 32) (x : Nat → Word × FSet) :
    ∃ w', s.putMask c d ((lanesOf m).map (fun l => (l, x l))) = s.setCrew c.core c.slot w' ∧ (s.cw c).WentOn w' c (fun _ f => f)
      ∧ w'.s = (s.cw c).s ∧ w'.m = (s.cw c).m ∧ w'.mtag = (s.cw c).mtag
      ∧ w'.fflags = (s.cw c).fflags ||| (s.cw c).raised m (fun l => (x l).2)
      ∧ ∀ l n, l < 32 → w'.vreg l n =
        if m.getLsbD l = true ∧ n = ((s.cw c).fibre l).wbase.toNat + d.toNat then { val := (x l).1 } else (s.cw c).vreg l n := by
  let w := s.cw c
  let vals : List (Nat × Word) := (lanesOf m).map (fun l => (l, (x l).1))
  let w1 : Crew := { w.writeV d.toNat vals with fflags := w.fflags ||| w.raised m (fun l => (x l).2) }
  have ht : s.putMask c d ((lanesOf m).map (fun l => (l, x l))) = s.setCrew c.core c.slot (w1.retired c {}) := by
    unfold State.putMask State.retire
    rw [State.modCrew_modCrew]
    simp only [List.map_map, Crew.raised_eq]
    rfl
  have hw : w1 = { w with v := w1.v, fflags := w1.fflags } := by
    show ({ w.writeV d.toNat vals with fflags := _ } : Crew) = _
    rw [Crew.writeV_eq]
  have hf : ∀ n, w1.fibre n = w.fibre n := fun n => by rw [hw]; rfl
  refine ⟨w1.retired c {}, ht, ?_, ?_, ?_, ?_, ?_, fun l n hl => ?_⟩
  · simpa using Crew.wentOn_of w w1 c {} hf (by rw [hw]) rfl rfl
  · rw [Crew.retired_eq, hw]
  · rw [Crew.retired_eq, hw]
  · rw [Crew.retired_eq, hw]
  · rw [Crew.retired_eq]
  · have hh : (w1.retired c {}).vreg l n = (w.writeV d.toNat vals).vreg l n := by unfold Crew.vreg; rw [Crew.retired_eq]
    rw [hh]
    exact w.vreg_writeV_lanes d.toNat m (fun l => (x l).1) n hl

/-- The result and the flags of a mask compare in a lane: the mask, or its AND with D under J, and the flags of all elements (R160). -/
def Crew.maskLane (w : Crew) (o : OpC) (z : Nat) (f : Nat → Nat → Bool × FSet) (l : Nat) : Word × FSet :=
  let mask := maskWord z f (w.val l o.a) (w.val l o.b)
  (if o.j then mask &&& w.val l (.v (o.p.setWidth 6)) else mask
  , orFlags (((List.range (64 / z)).map (fun k => f (lmt z k (w.val l o.a)) (lmt z k (w.val l o.b)))).map Prod.snd))

/-- A mask compare depends on its condition of elements alone. -/
theorem State.maskCmp_congr (s : State) (o : OpC) (r : Roles) {z : Nat} {f g : Nat → Nat → Bool × FSet}
    (h : ∀ x y : BitVec z, f x.toNat y.toNat = g x.toNat y.toNat) : s.maskCmp o r z f = s.maskCmp o r z g := by
  simp only [State.maskCmp, lmt_eq_el, h]

/-- The destination of a mask compare stands in the four low bits of D's field (R160). -/
theorem toNat_maskDst (o : OpC) : (o.p.setWidth 6 : BitVec 6).toNat = o.p.toNat := BitVec.toNat_setWidth_of_le (by decide)

/-- A mask compare of a fragment that may act gives its result in every lane of the fragment (R160). -/
theorem State.maskCmp_ready {s : State} {c : Cur} {r : Roles} {o : OpC}
    (h : s.Ready c r false [srcUse o.a, srcUse o.b, .v o.p.toNat] false c.lanes
      (fun _ => if o.j then [o.a, o.b, .v (o.p.setWidth 6)] else [o.a, o.b])) (z : Nat) (f : Nat → Nat → Bool × FSet) :
    s.maskCmp o r z f = .next (s.putMask c (o.p.setWidth 6) ((lanesOf c.lanes).map (fun l => (l, (s.cw c).maskLane o z f l)))) := by
  rw [← toNat_maskDst] at h
  unfold State.maskCmp
  rw [State.run_cur h.1, State.gate_ready h, State.reads_ready h]
  rfl

theorem Crew.maskLane_flags (w : Crew) (o : OpC) (z : Nat) (f : Nat → Nat → Bool × FSet) (l : Nat) : (w.maskLane o z f l).2 =
    (List.range (64 / z)).foldl (fun u k => u ||| (f (el z k (w.val l o.a)).toNat (el z k (w.val l o.b)).toNat).2) 0 := by
  simp [Crew.maskLane, orFlags, List.foldl_map, lmt_eq_el]

/-- The condition of two elements is that of two words that hold them (R156). -/
theorem condInt_ofNat {z : Nat} (hz : 0 < z) (h64 : z ≤ 64) (k : Cond) (x y : BitVec z) :
    intCond z k x.toNat y.toNat = condInt z k (BitVec.ofNat 64 x.toNat) (BitVec.ofNat 64 y.toNat) := by
  have he (x : BitVec z) : el z 0 (BitVec.ofNat 64 x.toNat) = x := by
    rw [el_zero, BitVec.ofNat_toNat, BitVec.setWidth_setWidth_of_le _ h64, BitVec.setWidth_eq]
  rw [intCond_toNat hz, condInt, he, he]

/-- Every mask compare is one condition on elements (R160). -/
theorem exec_maskRule {p : (OpC → Instr) × Roles × Nat × (Cond → Nat → Nat → Bool × FSet)} (h : p ∈ maskRules) (o : OpC) (s : State) :
    exec (p.1 o) s = s.maskCmp o p.2.1 p.2.2.1 (p.2.2.2 o.cond) := by
  simp only [maskRules, List.mem_cons, List.not_mem_nil, or_false] at h
  rcases h with rfl | rfl | rfl
  · exact (show exec (.vcmpmH o) s = s.maskCmp o .any 16 (fun a b => (intCond 16 o.cond a b, 0)) from rfl).trans
      (s.maskCmp_congr o .any fun x y => by rw [condInt_ofNat (by decide) (by decide)])
  · exact (show exec (.vcmpmB o) s = s.maskCmp o .any 8 (fun a b => (intCond 8 o.cond a b, 0)) from rfl).trans
      (s.maskCmp_congr o .any fun x y => by rw [condInt_ofNat (by decide) (by decide)])
  · exact (show exec (.fcmpmH o) s = s.maskCmp o .vector 16 (fpCompare fmtH o.cond) from rfl).trans
      (s.maskCmp_congr o .vector fun x y => fpCompare_eq fmtH o.cond _ _)

/-- The predicate word, its bit 0 reading 1 (R159). -/
theorem getLsbD_predWord (f : Fibre) (q : Nat) : ((f.preds ||| 1).setWidth 64 : Word).getLsbD q = (decide (q < 16) && f.pred q) := by
  have h1 : (1 : BitVec 16).getLsbD q = decide (q = 0) := by simp [BitVec.getLsbD_one]
  rw [BitVec.getLsbD_setWidth, BitVec.getLsbD_or, h1, Fibre.pred]
  by_cases h : q < 16
  · simp [h, show q < 64 by omega, Bool.or_comm]
  · simp [h, show q ≠ 0 by omega, f.preds.getLsbD_of_ge q (by omega)]

/-- What a vector result without flags leaves. -/
theorem State.putV_done_unflagged (s : State) (c : Cur) (k : Bool) (d : BitVec 6) (m : BitVec 32) (x : Nat → Word) :
    s.VecDone (s.putV c k d ((lanesOf m).map (fun l => (l, x l, 0)))) c k d m x 0 := by
  have := s.putV_done c k d m (fun l => (x l, 0))
  rwa [Crew.raised_zero] at this

/-- Settles O18: a mask compare writes D without a latch; SEL and PTOV are vector results. -/
theorem masksAndSelections : Obligations.MasksAndSelections := by
  unfold Obligations.MasksAndSelections
  refine ⟨fun p hp o s c h => ?mask, fun o s c => ?sel, fun o s c h => ?ptov⟩
  case mask =>
    have hx := (exec_maskRule hp o s).trans (State.maskCmp_ready h _ _)
    obtain ⟨w', ht, hgo, hs, hm, hmt, hfl, hv⟩ := s.putMask_done c (o.p.setWidth 6) c.lanes ((s.cw c).maskLane o p.2.2.1 (p.2.2.2 o.cond))
    refine ⟨_, w', hx, ht, hgo, hs, hm, hmt, ?_, fun l n hl => ?_⟩
    · rw [hfl]
      simp only [Crew.maskLane_flags]
    · rw [hv l n hl, toNat_maskDst]
      split
      · exact ⟨rfl, fun k hk => el_masked hk _ _ _ _ _⟩
      · rfl
  case sel =>
    intro pick h
    have hx : exec (.sel o) s = .next (s.putV c o.k o.d ((lanesOf c.lanes).map (fun l => (l, (s.cw c).val l (pick l), 0)))) := by
      refine (State.run_cur h.1 _).trans ?_
      rw [State.gate_ready h, State.reads_ready h]
    exact ⟨_, hx, s.putV_done_unflagged c o.k o.d c.lanes (fun l => (s.cw c).val l (pick l))⟩
  case ptov =>
    have hx : exec (.ptov o) s = .next (s.putV c o.k o.d
        ((lanesOf (s.act c o.g)).map (fun l => (l, (((s.cw c).fibre l).preds ||| 1).setWidth 64, 0)))) := by
      refine (State.run_cur h.1 _).trans ?_
      rw [State.gate_ready h, State.reads_ready h]
    exact ⟨_, _, hx, s.putV_done_unflagged c o.k o.d (s.act c o.g) (fun l => (((s.cw c).fibre l).preds ||| 1).setWidth 64),
      fun l _ => getLsbD_predWord ((s.cw c).fibre l)⟩

end Sys2Proof.Machine
end

/-! Group 6 over the active lanes (R47, R172 to R174): ballots, reductions, scans and matches, and the masks of lanes. -/

section
namespace Sys2Proof.Machine

/-- A word of group 6 whose instruction takes no B, and whose B is not 100, decodes to nothing (R101). -/
theorem decodeWord_noSourceB {w : BitVec 32} (hg : w.extractLsb' 0 4 = 6#4)
    (hf : w.extractLsb' 4 4 ∈ [6#4, 8#4, 9#4, 10#4, 11#4, 12#4, 13#4, 15#4]) (hb : w.extractLsb' 25 7 ≠ 100#7) :
    decodeWord w = .error .nonzeroReserved := by
  have hu : OpA1.unpack w 100#7 = .error .nonzeroReserved := if_neg (by simpa using hb)
  have hr : decodeRaw w = .error .nonzeroReserved := by
    simp only [decodeRaw, hg]
    show decodeG6 _ w = _
    simp only [List.mem_cons, List.not_mem_nil, or_false] at hf
    rcases hf with hf | hf | hf | hf | hf | hf | hf | hf <;> (rw [hf]; exact congrArg (Except.map _) hu)
  rw [decodeWord, hr]

theorem Crew.peers_eq_others (w : Crew) (l : Nat) (m : BitVec 32) : w.peers l m = w.others m l := by
  simp [Crew.peers, Crew.others, beq_eq_decide]

theorem Crew.terms_eq (w : Crew) (m : BitVec 32) (a : Src) (l : Nat) : w.terms m a l = (w.others m l).map (fun q => (q, w.val q a)) := by
  rw [Crew.terms, Crew.peers_eq_others]

theorem Crew.mem_others_self (w : Crew) {m : BitVec 32} {l : Nat} (h : m.getLsbD l = true) : l ∈ w.others m l := by
  simp [Crew.others, mem_lanesOf, h]

theorem Crew.lt_of_mem_others {w : Crew} {m : BitVec 32} {l q : Nat} (h : q ∈ w.others m l) : q < 32 :=
  lt_of_getLsbD ((mem_lanesOf m q).1 (List.mem_of_mem_filter h))

theorem Crew.visible_lt (w : Crew) {l : Nat} (h : l < 32) : w.visible l < 32 := by
  unfold Crew.visible
  split <;> omega

/-- The bits of the visible lanes of some lanes (R172). -/
theorem Crew.visBits_maskOf (w : Crew) {ls : List Nat} (h : ∀ q ∈ ls, q < 32) (p : Nat → Bool) : w.MaskOf ls p (w.visBits (ls.filter p)) := by
  intro v
  rw [Crew.visBits, BitVec.getLsbD_setWidth, getLsbD_maskOf, Bool.and_eq_true, decide_eq_true_iff, decide_eq_true_iff, List.mem_map]
  constructor
  · rintro ⟨-, ⟨q, hq, rfl⟩, -⟩
    obtain ⟨hq, hp⟩ := List.mem_filter.1 hq
    exact ⟨q, hq, rfl, hp⟩
  · rintro ⟨q, hq, rfl, hp⟩
    have hv := w.visible_lt (h q hq)
    exact ⟨by omega, ⟨q, List.mem_filter.2 ⟨hq, hp⟩, rfl⟩, hv⟩

/-- The lanes with a value that satisfies `p`, picked from the terms of a reduction. -/
theorem Crew.terms_lanes (w : Crew) (m : BitVec 32) (a : Src) (l : Nat) (p : Word → Bool) :
    ((w.terms m a l).filter (fun e => p e.2)).map Prod.fst = (w.others m l).filter (fun q => p (w.val q a)) := by
  rw [Crew.terms_eq, List.filter_map, List.map_map]
  exact List.map_id _

/-- A ballot of the lanes that exchange with a lane (R47, R172, R174). -/
theorem Crew.ballot_maskOf (w : Crew) (m : BitVec 32) (a : Src) (l : Nat) (p : Word → Bool) :
    w.MaskOf (w.others m l) (fun q => p (w.val q a)) (w.visBits (((w.terms m a l).filter (fun e => p e.2)).map Prod.fst)) := by
  rw [Crew.terms_lanes]
  exact w.visBits_maskOf (fun q hq => Crew.lt_of_mem_others hq) _

/-- The mask of the lanes with a lane's key (R174). -/
theorem Crew.matchMask_maskOf {κ : Type} [DecidableEq κ] (w : Crew) (m : BitVec 32) (a : Src) (l : Nat) {key : Word → Word} {z : Word → κ}
    (h : ∀ x y, key x = key y ↔ z x = z y) :
    w.MaskOf (w.others m l) (fun q => z (w.val q a) == z (w.val l a)) (w.matchMask m a l key) := by
  have hm := w.ballot_maskOf m a l (fun x => decide (key x = key (w.val l a)))
  simpa only [Crew.matchMask, h, beq_eq_decide] using hm

/-- Adding up term by term is the sum of all of them (R173). -/
theorem foldl_add_eq_sum (es : List (Nat × Word)) (x : Word) : es.foldl (fun x e => x + e.2) x = x + (es.map Prod.snd).sum := by
  induction es generalizing x with
  | nil => simp
  | cons e es ih => rw [List.foldl_cons, ih, List.map_cons, List.sum_cons, BitVec.add_assoc]

/-- Taking each term that comes below the one that is held leaves the least of all of them. -/
theorem foldl_least (key : Word → Int) (es : List (Nat × Word)) (x : Word) :
    let r := es.foldl (fun x e => if key e.2 < key x then e.2 else x) x
    (r = x ∨ ∃ e ∈ es, r = e.2) ∧ key r ≤ key x ∧ ∀ e ∈ es, key r ≤ key e.2 := by
  induction es generalizing x with
  | nil => simp
  | cons e es ih =>
    obtain ⟨hmem, hle, hall⟩ := ih (if key e.2 < key x then e.2 else x)
    simp only [List.foldl_cons]
    generalize es.foldl (fun x e => if key e.2 < key x then e.2 else x) (if key e.2 < key x then e.2 else x) = r at *
    have hx : key r ≤ key x := by
      split at hle <;> omega
    have he : key r ≤ key e.2 := by
      split at hle <;> omega
    refine ⟨?_, hx, fun f hf => ?_⟩
    · rcases hmem with hr | ⟨f, hf, hr⟩
      · split at hr
        · exact .inr ⟨e, List.mem_cons_self, hr⟩
        · exact .inl hr
      · exact .inr ⟨f, List.mem_cons_of_mem _ hf, hr⟩
    · rcases List.mem_cons.1 hf with rfl | hf
      · exact he
      · exact hall f hf

/-- A reduction that keeps the least value gives one of the lane's terms that no other is below (R173). -/
theorem Crew.least_term (w : Crew) {m : BitVec 32} (a : Src) {l : Nat} (hl : m.getLsbD l = true) (key : Word → Int) :
    let r := (w.terms m a l).foldl (fun x e => if key e.2 < key x then e.2 else x) (w.val l a)
    (∃ q ∈ w.others m l, r = w.val q a) ∧ ∀ q ∈ w.others m l, key r ≤ key (w.val q a) := by
  obtain ⟨hmem, -, hall⟩ := foldl_least key (w.terms m a l) (w.val l a)
  rw [Crew.terms_eq] at *
  refine ⟨?_, fun q hq => hall _ (List.mem_map_of_mem hq)⟩
  rcases hmem with hr | ⟨e, he, hr⟩
  · exact ⟨l, w.mem_others_self hl, hr⟩
  · obtain ⟨q, hq, rfl⟩ := List.mem_map.1 he
    exact ⟨q, hq, hr⟩

/-- REDMIN's result (R173). -/
theorem Crew.redmin_spec (w : Crew) {m : BitVec 32} (a : Src) {l : Nat} (hl : m.getLsbD l = true) :
    let r := (w.terms m a l).foldl (fun x e => if e.2.slt x then e.2 else x) (w.val l a)
    (∃ q ∈ w.others m l, r = w.val q a) ∧ ∀ q ∈ w.others m l, r.toInt ≤ (w.val q a).toInt := by
  simpa only [BitVec.slt, decide_eq_true_iff] using w.least_term a hl BitVec.toInt

/-- REDMAX's result: the greatest value is the one with the least negation (R173). -/
theorem Crew.redmax_spec (w : Crew) {m : BitVec 32} (a : Src) {l : Nat} (hl : m.getLsbD l = true) :
    let r := (w.terms m a l).foldl (fun x e => if x.slt e.2 then e.2 else x) (w.val l a)
    (∃ q ∈ w.others m l, r = w.val q a) ∧ ∀ q ∈ w.others m l, (w.val q a).toInt ≤ r.toInt := by
  simpa only [BitVec.slt, decide_eq_true_iff, Int.neg_lt_neg_iff, Int.neg_le_neg_iff] using w.least_term a hl (fun x => -x.toInt)

/-- REDADD's result (R173). -/
theorem Crew.redadd_spec (w : Crew) (m : BitVec 32) (a : Src) (l : Nat) :
    (w.terms m a l).foldl (fun x e => x + e.2) 0 = ((w.others m l).map (fun q => w.val q a)).sum := by
  rw [foldl_add_eq_sum, Crew.terms_eq, List.map_map]
  exact BitVec.zero_add _

/-- SCANADD's result: the terms of the lanes at a lane and below it (R173). -/
theorem Crew.scanadd_spec (w : Crew) (m : BitVec 32) (a : Src) (l : Nat) :
    ((w.terms m a l).filter (fun e => decide (e.1 ≤ l))).foldl (fun x e => x + e.2) 0 =
      (((w.others m l).filter (fun q => decide (q ≤ l))).map (fun q => w.val q a)).sum := by
  rw [foldl_add_eq_sum, Crew.terms_eq, List.filter_map, List.map_map]
  exact BitVec.zero_add _

/-- The key of MATCH.S as the rule has it: the low word, with -0 as 0 (R174). -/
def keyS (x : Word) : BitVec 32 := if el 32 0 x = 0x80000000#32 then 0 else el 32 0 x

theorem matchKeyS_eq (x : Word) : matchKeyS x = (keyS x).setWidth 64 := by
  have hz : (el 32 0 x).toNat = 2 ^ 31 ↔ el 32 0 x = 0x80000000#32 := by rw [← BitVec.toNat_inj]; rfl
  unfold matchKeyS keyS
  rw [lmt_eq_el]
  simp only [hz]
  split
  · rfl
  · rw [BitVec.ofNat_toNat]

theorem matchKeyS_inj (x y : Word) : matchKeyS x = matchKeyS y ↔ keyS x = keyS y := by
  rw [matchKeyS_eq, matchKeyS_eq, ← BitVec.toNat_inj, BitVec.toNat_setWidth_of_le (by decide), BitVec.toNat_setWidth_of_le (by decide),
    BitVec.toNat_inj]

/-- Every reduction satisfies its rule in every active lane (R172 to R174). -/
theorem exec_redRule {p : (OpA1 → Instr) × (Crew → List Nat → (Nat → Word) → Nat → Word → Prop)} (h : p ∈ redRules) :
    ∃ f : Crew → BitVec 32 → Src → Nat → Word, (∀ o s, exec (p.1 o) s = s.reduce o f)
      ∧ ∀ w m a l, m.getLsbD l = true → p.2 w (w.others m l) (fun q => w.val q a) l (f w m a l) := by
  simp only [redRules, List.mem_cons, List.not_mem_nil, or_false] at h
  rcases h with rfl | rfl | rfl | rfl | rfl | rfl | rfl <;> unfold exec
  case inl =>
    refine ⟨_, fun _ _ => rfl, fun w m a l _ => ?_⟩
    simpa only [bne, beq_eq_decide, ne_eq, decide_not] using w.ballot_maskOf m a l (fun x => x != 0)
  case inr.inl => exact ⟨_, fun _ _ => rfl, fun w m a l _ => w.redadd_spec m a l⟩
  case inr.inr.inl => exact ⟨_, fun _ _ => rfl, fun w m a l hl => w.redmin_spec a hl⟩
  case inr.inr.inr.inl => exact ⟨_, fun _ _ => rfl, fun w m a l hl => w.redmax_spec a hl⟩
  case inr.inr.inr.inr.inl => exact ⟨_, fun _ _ => rfl, fun w m a l _ => w.scanadd_spec m a l⟩
  case inr.inr.inr.inr.inr.inl => exact ⟨_, fun _ _ => rfl, fun w m a l _ => w.matchMask_maskOf m a l (fun _ _ => Iff.rfl)⟩
  case inr.inr.inr.inr.inr.inr => exact ⟨_, fun _ _ => rfl, fun w m a l _ => w.matchMask_maskOf m a l matchKeyS_inj⟩

/-- The word of a LANEMASK with selector `n` in lane `l`, from the lanes of the fragment and the active ones (R172). -/
def Crew.laneMask (w : Crew) (m act : BitVec 32) (l n : Nat) : Word :=
  match n with
  | 0 => BitVec.ofNat 64 (2 ^ w.visible l)
  | 1 => BitVec.ofNat 64 (2 ^ w.visible l - 1)
  | 2 => BitVec.ofNat 64 (2 ^ (w.visible l + 1) - 1)
  | 3 => w.visBits (w.peers l w.liveMask)
  | 4 => w.visBits (w.peers l m)
  | 5 => w.visBits (w.peers l act)
  | _ => 0

theorem exec_lanemask (o : OpA1) (s : State) : exec (.lanemask o) s = s.run (fun c =>
    s.vec c .any o.k o.g (c.dst o.d) [c.srcA o.a] false
      (fun w l => (w.laneMask c.lanes (s.act c o.g) l ((w.val l (c.srcA o.a)).toNat % 8), 0))) := rfl

/-- The bits below one of a word (R172). -/
theorem getLsbD_two_pow_sub_one {n : Nat} (hn : n ≤ 64) (b : Nat) : (BitVec.ofNat 64 (2 ^ n - 1)).getLsbD b = decide (b < n) := by
  rw [BitVec.getLsbD_ofNat, Nat.testBit_two_pow_sub_one]
  by_cases h : b < n
  · simp [h, show b < 64 by omega]
  · simp [h]

/-- The mask of the lanes that exchange with a lane (R47, R172). -/
theorem Crew.peers_maskOf (w : Crew) (m : BitVec 32) (l : Nat) : w.MaskOf (w.others m l) (fun _ => true) (w.visBits (w.peers l m)) := by
  have h := w.visBits_maskOf (ls := w.others m l) (fun q hq => Crew.lt_of_mem_others hq) (fun _ => true)
  rwa [List.filter_true, ← Crew.peers_eq_others] at h

/-- LANEMASK by its selectors (R172). -/
theorem Crew.laneMask_spec (w : Crew) (m act : BitVec 32) {l : Nat} (hl : l < 32) (n : Nat) :
    let v := w.visible l
    let x := w.laneMask m act l n
    (n = 0 → ∀ b, x.getLsbD b = decide (b = v)) ∧ (n = 1 → ∀ b, x.getLsbD b = decide (b < v)) ∧ (n = 2 → ∀ b, x.getLsbD b = decide (b ≤ v))
    ∧ (n = 3 → w.MaskOf (w.others w.liveMask l) (fun _ => true) x) ∧ (n = 4 → w.MaskOf (w.others m l) (fun _ => true) x)
    ∧ (n = 5 → w.MaskOf (w.others act l) (fun _ => true) x) ∧ (6 ≤ n → x = 0) := by
  intro v x
  have hv : v < 32 := w.visible_lt hl
  refine ⟨?_, ?_, ?_, ?_, ?_, ?_, fun hn => ?_⟩
  · rintro rfl b
    show (BitVec.ofNat 64 (2 ^ v)).getLsbD b = _
    rw [BitVec.getLsbD_ofNat, Nat.testBit_two_pow]
    by_cases h : b = v
    · simp [h, show v < 64 by omega]
    · simp [h, Ne.symm h]
  · rintro rfl b
    exact getLsbD_two_pow_sub_one (by omega) b
  · rintro rfl b
    refine (getLsbD_two_pow_sub_one (by omega) b).trans ?_
    exact decide_eq_decide.2 Nat.lt_succ_iff
  · rintro rfl
    exact w.peers_maskOf w.liveMask l
  · rintro rfl
    exact w.peers_maskOf m l
  · rintro rfl
    exact w.peers_maskOf act l
  · obtain ⟨k, rfl⟩ := Nat.exists_eq_add_of_le' hn
    rfl

/-- Settles O22: the decoder checks B; each instruction is one vector operation on the lanes that exchange with a lane. -/
theorem reductionResults : Obligations.ReductionResults := by
  unfold Obligations.ReductionResults
  refine ⟨fun w hg hf hb => ⟨_, decodeWord_noSourceB hg hf hb⟩, fun p hp o s c h => ?_, fun o s c h => ?_⟩
  · obtain ⟨f, he, hf⟩ := exec_redRule hp
    exact ⟨_, _, (he o s).trans (State.run_cur h.1 _), State.vec_done_unflagged h _, fun l hl => hf _ _ _ _ hl⟩
  · refine ⟨_, _, (exec_lanemask o s).trans (State.run_cur h.1 _), State.vec_done_unflagged h _, fun l _ h32 => ?_⟩
    intro w v n
    have hn : n = (w.val l (c.srcA o.a)).toNat % 8 := BitVec.toNat_setWidth _ _
    rw [hn]
    exact w.laneMask_spec c.lanes (s.act c o.g) h32 _

end Sys2Proof.Machine
end

/-! Barrier objects (R184 to R187, R244, R280): the checks of an object, its arrivals and waits, and the arrival of a crew at GBAR. -/

section
namespace Sys2Proof.Machine

/-- A number is read back from its bytes. -/
theorem leNat_leBytes (n v : Nat) (h : v < 256 ^ n) : leNat (leBytes n v) = v := by
  induction n generalizing v with
  | zero => exact (Nat.lt_one_iff.1 h).symm
  | succ n ih =>
    rw [leBytes, leNat, ih _ (Nat.div_lt_of_lt_mul (by rwa [← Nat.pow_succ']))]
    simp [Nat.mod_add_div]

section Waits
variable {s : State} {c : Cur} {scope : Nat}

theorem State.fenced_waits (h : (s.cw c).fenceWaits scope = true) (k : State) : s.fenced c scope k = s.hold c (.fence scope) := if_pos h

theorem State.fenced_passes (h : (s.cw c).fenceWaits scope = false) (k : State) : s.fenced c scope k = k := by
  rw [State.fenced, if_neg]
  exact ne_true_of_eq_false h

theorem State.deliver_nothing (h : (s.cw c).impr = []) (k : State) : s.deliver c k = k := by
  simp only [State.cw] at h
  rw [State.deliver, h]

end Waits

section Objects
variable {s : State} {c : Cur} {off x : Nat}

theorem State.withObject_misaligned {a : Word} (h : a.toNat % 8 ≠ 0) (k : Nat → State) :
    s.withObject c a k = s.takeFault c { cause := 4, sub := 1, addr := a.toNat } := if_pos h

theorem State.withObject_foreign {a : Word} (h : a.toNat % 8 = 0) (ho : s.ownPad c a.toNat = none) (k : Nat → State) :
    s.withObject c a k = s.takeFault c { cause := 2, sub := 6, addr := a.toNat } := by
  rw [State.withObject, if_neg (by simpa using h), ho]

theorem State.withObject_own {a : Word} (h : a.toNat % 8 = 0) (ho : s.ownPad c a.toNat = some off) (k : Nat → State) :
    s.withObject c a k = k off := by
  rw [State.withObject, if_neg (by simpa using h), ho]

/-- An object word that reads without error or poison is the number in it. -/
theorem State.objectWord_sound (ht : s.touchPad (s.cw c).group off 8 = s) (hr : s.padRead (s.cw c).group off 8 = (leBytes 8 x, false))
    (hx : x < 2 ^ 64) (k : State → Nat → State) : s.objectWord c off k = k s x := by
  unfold State.objectWord
  simp only [ht, hr, leNat_leBytes 8 x hx, Bool.false_eq_true, if_false]

theorem State.cw_setTag (s : State) (c : Cur) (g off : Nat) : (s.setTag g off).cw c = s.cw c := State.crew_modCore rfl _ _

end Objects

/-- An object is well formed when it has no bit above PHASE, and fewer arrivals than its COUNT (R184, R185). -/
theorem barOk_iff (w : Nat) : barOk w = true ↔ w < 2 ^ 33 ∧ w % 65536 ≠ 0 ∧ w / 65536 % 65536 < w % 65536 := by
  simp [barOk, and_assoc]

/-- An arrival that is not the last of its phase (R185). -/
theorem barArrive_counts {w : Nat} (h : w / 65536 % 65536 + 1 < w % 65536) :
    barArrive w = w % 65536 + 65536 * (w / 65536 % 65536 + 1) + 2 ^ 32 * (w / 2 ^ 32 % 2) := by
  unfold barArrive
  rw [if_neg (by omega)]
  ring

/-- The last arrival of a phase starts the next (R185). -/
theorem barArrive_completes {w : Nat} (h : w / 65536 % 65536 + 1 = w % 65536) :
    barArrive w = w % 65536 + 2 ^ 32 * (1 - w / 2 ^ 32 % 2) := by
  unfold barArrive
  rw [if_pos h, Nat.mul_comm]

/-- What BARA does at the object word `w` of its partition: the checks of the word, the arrival, its result and its comparison point
(R185, R415). -/
def State.barArrival (s : State) (c : Cur) (k : Bool) (d : BitVec 5) (off w : Nat) : State :=
  if !barOk w then s.takeFault c { cause := 13, sub := 1 }
  else
    let g := (s.cw c).group
    let t := s.padObject g off (barArrive w)
    let u := (if barArrive w / 2 ^ 32 = w / 2 ^ 32 then t else t.releaseBarw g off).putU c k d c.lanes (BitVec.ofNat 64 (w / 2 ^ 32 % 2))
      { restart := true }
    u.comparePoint c.core c.slot 1 (u.crew c.core c.slot).reti c.lanes (!decide (c.lanes = (s.cw c).liveMask)) c.pfx.level

/-- A BARA that may act and waits for nothing checks its object and arrives (R185, R280, R320). -/
theorem exec_bara_ready {o : OpBar} {s : State} {c : Cur} (h : s.Ready c .any false [srcUse o.a, useU o.k o.d] false c.lanes (fun _ => [o.a]))
    (hf : (s.cw c).fenceWaits 2 = false) (hi : (s.cw c).impr = []) :
    exec (.bara o) s = .next (s.withObject c (s.uval c o.a) (fun off => s.objectWord c off (fun u w => u.barArrival c o.k o.d off w))) := by
  have hx : exec (.bara o) s = execBara o s := rfl
  unfold execBara at hx
  rw [State.run_cur h.1, State.gate_ready h, State.reads_ready h, State.fenced_passes hf, State.deliver_nothing hi] at hx
  exact hx

section Arrival
variable (s : State) (c : Cur) (k : Bool) (d : BitVec 5) (off : Nat) {w : Nat}

theorem State.barArrival_malformed (h : 2 ^ 33 ≤ w ∨ w % 65536 = 0 ∨ w % 65536 ≤ w / 65536 % 65536) :
    s.barArrival c k d off w = s.takeFault c { cause := 13, sub := 1 } := by
  have hb : barOk w = false := by
    rw [← Bool.not_eq_true, barOk_iff]
    omega
  rw [State.barArrival, hb]
  rfl

/-- An arrival that leaves the phase as it was releases no waiter (R185). -/
theorem State.barArrival_counts (hw : w < 2 ^ 33) (h : w / 65536 % 65536 + 1 < w % 65536) :
    let v := (s.padObject (s.cw c).group off (w % 65536 + 65536 * (w / 65536 % 65536 + 1) + 2 ^ 32 * (w / 2 ^ 32 % 2))).putU c k d c.lanes
      (BitVec.ofNat 64 (w / 2 ^ 32 % 2)) { restart := true }
    s.barArrival c k d off w =
      v.comparePoint c.core c.slot 1 (v.crew c.core c.slot).reti c.lanes (!decide (c.lanes = (s.cw c).liveMask)) c.pfx.level := by
  have hb : barOk w = true := (barOk_iff w).2 ⟨hw, by omega, by omega⟩
  have hphase : (w % 65536 + 65536 * (w / 65536 % 65536 + 1) + 2 ^ 32 * (w / 2 ^ 32 % 2)) / 2 ^ 32 = w / 2 ^ 32 := by omega
  unfold State.barArrival
  simp only [hb, barArrive_counts h, hphase, Bool.not_true, Bool.false_eq_true, if_false, if_true]

/-- An arrival that moves the phase on releases the waiters of the object (R185, R186). -/
theorem State.barArrival_completes (hw : w < 2 ^ 33) (h : w / 65536 % 65536 + 1 = w % 65536) :
    let g := (s.cw c).group
    let v := ((s.padObject g off (w % 65536 + 2 ^ 32 * (1 - w / 2 ^ 32 % 2))).releaseBarw g off).putU c k d c.lanes
      (BitVec.ofNat 64 (w / 2 ^ 32 % 2)) { restart := true }
    s.barArrival c k d off w =
      v.comparePoint c.core c.slot 1 (v.crew c.core c.slot).reti c.lanes (!decide (c.lanes = (s.cw c).liveMask)) c.pfx.level := by
  have hb : barOk w = true := (barOk_iff w).2 ⟨hw, by omega, by omega⟩
  have hphase : ¬ (w % 65536 + 2 ^ 32 * (1 - w / 2 ^ 32 % 2)) / 2 ^ 32 = w / 2 ^ 32 := by
    have hp : w / 2 ^ 32 = 0 ∨ w / 2 ^ 32 = 1 := by omega
    rcases hp with hp | hp <;> (rw [hp]; omega)
  unfold State.barArrival
  simp only [hb, barArrive_completes h, hphase, Bool.not_true, Bool.false_eq_true, if_false]

end Arrival

/-- A BARW that may act, at a well-formed object of its partition: it waits while the phase is the one that B names (R186). -/
theorem exec_barw_ready {o : OpS2} {s : State} {c : Cur} {off x : Nat}
    (h : s.Ready c .any false [srcUse o.a, srcUse o.b] false c.lanes (fun _ => [o.a, o.b])) (ha : (s.uval c o.a).toNat % 8 = 0)
    (ho : s.ownPad c (s.uval c o.a).toNat = some off) (ht : s.touchPad (s.cw c).group off 8 = s)
    (hr : s.padRead (s.cw c).group off 8 = (leBytes 8 x, false)) (hx : x < 2 ^ 33) (hc : x / 65536 % 65536 < x % 65536) :
    let u := s.setTag (s.cw c).group off
    exec (.barw o) s = .next (if decide (x / 2 ^ 32 % 2 = 1) = (s.uval c o.b).getLsbD 0
      then u.hold c (.barw off ((s.uval c o.b).getLsbD 0)) else u.retire c { swap := true }) := by
  have hb : barOk x = true := (barOk_iff x).2 ⟨hx, by omega, hc⟩
  have hu : (s.setTag (s.cw c).group off).uval c o.b = s.uval c o.b := by rw [State.uval, State.cw_setTag]; rfl
  have he : exec (.barw o) s = execBarw o s := rfl
  unfold execBarw at he
  rw [State.run_cur h.1, State.gate_ready h, State.reads_ready h, State.withObject_own ha ho, State.objectWord_sound ht hr (by omega)] at he
  simp only [hb, hu, Bool.not_true, Bool.false_eq_true, if_false] at he
  refine he.trans (congrArg _ (if_congr ?_ rfl rfl))
  rw [eq_iff_iff, Bool.eq_iff_iff (a := decide _), decide_eq_true_iff]

/-- Settles O28: BARA is the arrival at an object that passes its checks, BARW and GBAR the waits behind theirs. -/
theorem barriersMeet : Obligations.BarriersMeet := by
  unfold Obligations.BarriersMeet
  refine ⟨fun o s c off x h hf hi => ⟨fun ha => ?misaligned, fun ha ho => ?foreign, fun ha ho ht hr hx => ?own⟩,
    fun o s c off x h ha ho ht hr hx hc => ?barw, fun s c h hi => ?gbar⟩
  case misaligned => rw [exec_bara_ready h hf hi, State.withObject_misaligned ha]
  case foreign => rw [exec_bara_ready h hf hi, State.withObject_foreign ha ho]
  case own =>
    have he : exec (.bara o) s = .next (s.barArrival c o.k o.d off x) := by
      rw [exec_bara_ready h hf hi, State.withObject_own ha ho, State.objectWord_sound ht hr hx]
    exact ⟨fun hbad => he.trans (congrArg _ (s.barArrival_malformed c o.k o.d off hbad)),
      fun hw hn => he.trans (congrArg _ (s.barArrival_counts c o.k o.d off hw hn)),
      fun hw hn => he.trans (congrArg _ (s.barArrival_completes c o.k o.d off hw hn))⟩
  case barw =>
    have he := exec_barw_ready h ha ho ht hr hx hc
    intro phase u
    refine ⟨fun hp => he.trans ?_, fun hp => he.trans ?_⟩
    · rw [if_pos hp, ← hp]
    · rw [if_neg hp]
  case gbar =>
    have he : exec .gbar s = .next (s.fenced c 2 (s.deliver c ((s.hold c .gbar).tryGbar (s.cw c).group))) :=
      (State.run_cur h.1 _).trans (congrArg _ (State.gate_ready h _))
    exact ⟨fun hw => by rw [he, State.fenced_waits hw], fun hw => by rw [he, State.fenced_passes hw, State.deliver_nothing hi]⟩

end Sys2Proof.Machine
end

/-! RETT (R190, R377, R378): its checks, the wait for its own stores, and the return that a record names. -/

section
namespace Sys2Proof.Machine

/-- The stores of the issuing crew to the sectors of a record that its core still holds (R190). -/
def State.recordStores (s : State) (c : Cur) (a : Nat) : List StoreReq :=
  (s.core c.core).stq.filter (fun q => q.slot = c.slot && decide (a / 32 ≤ q.addr / 32) && decide (q.addr / 32 ≤ (a + 127) / 32))

/-- What RETT does with the return that it asked for: the poison is consumed, else the status is given (R133, R190). -/
def State.handBack (c : Cur) (d : BitVec 5) (r : State × Nat × Bool) : State :=
  if r.2.2 then r.1.consume c else r.1.putU c false d c.lanes (BitVec.ofNat 64 r.2.1) { swap := true }

section Rett
variable {o : OpRt} {s : State} {c : Cur} (h : s.Ready c .any false [srcUse o.a, .s o.d.toNat] false c.lanes (fun _ => [o.a]))
include h

theorem exec_rett_user (hs : (s.cw c).sys = false) : exec (.rett o) s = .next (s.takeFault c { cause := 2, sub := 10 }) := by
  have hx : exec (.rett o) s = execRett o s := rfl
  rw [hx, execRett, State.run_cur h.1, State.gate_ready h, if_pos (by simp [hs])]

/-- RETT in system mode, once its permission is checked (R190). -/
theorem exec_rett_system (hs : (s.cw c).sys = true) : exec (.rett o) s = .next
    (if !(s.recordStores c (s.uval c o.a).toNat).isEmpty then s.hold c (.accepted (s.uval c o.a).toNat)
     else State.handBack c o.d (s.returnFrom c.core c.slot (s.uval c o.a).toNat)) := by
  have hx : exec (.rett o) s = execRett o s := rfl
  rw [hx, execRett, State.run_cur h.1, State.gate_ready h, if_neg (by simp [hs]), State.reads_ready h]
  rfl

theorem exec_rett_waits (hs : (s.cw c).sys = true) (hm : s.recordStores c (s.uval c o.a).toNat ≠ []) :
    exec (.rett o) s = .next (s.hold c (.accepted (s.uval c o.a).toNat)) := by
  rw [exec_rett_system h hs, if_pos (by simpa using hm)]

theorem exec_rett_returns (hs : (s.cw c).sys = true) (hm : s.recordStores c (s.uval c o.a).toNat = []) :
    exec (.rett o) s = .next (State.handBack c o.d (s.returnFrom c.core c.slot (s.uval c o.a).toNat)) := by
  rw [exec_rett_system h hs, if_neg (by simp [hm])]

end Rett

theorem State.handBack_sound {r : State × Nat × Bool} (h : r.2.2 = false) (c : Cur) (d : BitVec 5) :
    State.handBack c d r = r.1.putU c false d c.lanes (BitVec.ofNat 64 r.2.1) { swap := true } := by
  rw [State.handBack, if_neg (by simp [h])]

/-- A fibre that goes on from its trap: after its restart point, or at the record's RESUME where that was changed (R190). -/
def Fibre.wentBack (f : Fibre) (kept : Bool) (resume : BitVec 57) (units : Nat) : Fibre :=
  { f.noLatch with
    pc := if kept then f.restart + 4 else resume
    wait := .none, record := 0, recNo := 0, resumeAt := 0, rep := 0, pfx := {}, word := 0, readyAt := units }

section Return
variable {s : State} {core sl a : Nat}

theorem State.returnFrom_unnamed (h : s.rettTarget (s.crewCtx core sl) a = none) : s.returnFrom core sl a = (s, 1, false) := by
  simp only [State.returnFrom, h]

variable {k t : Nat} {m : BitVec 32}

/-- The return from a record that names a fragment and can be read (R190, R378). -/
theorem State.returnFrom_named {x : Xlate} (h : s.rettTarget (s.crewCtx core sl) a = some (k, t, m))
    (hx : s.coreXlate core (s.crewCtx core sl) a = some x) :
    let q := s.loadBytes core (s.crewCtx core sl) (s.crewTag core sl) x.laddr 24 x.attr x.x true
    let u := q.1.setResumed core (s.crewCtx core sl) a
    let resume : BitVec 57 := BitVec.ofNat 57 (leNat (q.2.1.drop 16))
    s.returnFrom core sl a = if q.2.2 then (q.1, 0, true)
      else if (q.2.1.getD 2 0).getLsbD 6 then ((u.exitLanes k t m).reapCrew k t, 0, false)
      else (u.modCrew k t (fun w => w.modLanes m (fun _ f =>
        f.wentBack (decide (resume = ((q.1.crew k t).fibre (lowestLane m)).resumeAt)) resume w.units)), 0, false) := by
  intro q u resume
  simp only [State.returnFrom, h, hx, Fibre.wentBack, decide_eq_true_iff]
  rfl

end Return

/-- Settles O32: RETT hands back the return of its record, behind its permission and the wait for its stores. -/
theorem returnFromTrap : Obligations.ReturnFromTrap := by
  unfold Obligations.ReturnFromTrap
  intro o s c h a mine
  refine ⟨exec_rett_user h, exec_rett_waits h, fun hs hm ht => ?none, fun hs hm hp => ?status, fun k sl m x hs hm ht hx => ?named⟩
  case none =>
    rw [exec_rett_returns h hs hm, State.returnFrom_unnamed ht]
    rfl
  case status => rw [exec_rett_returns h hs hm, State.handBack_sound hp]
  case named =>
    intro q u resume
    have he := exec_rett_returns h hs hm
    rw [State.returnFrom_named ht hx] at he
    refine ⟨fun hq => ?_, fun hq hk => ?_, fun hq hk => ?_⟩
    · rw [he, if_pos hq]
      rfl
    · rw [he, if_neg (ne_true_of_eq_false hq), if_pos hk]
      rfl
    · rw [if_neg (ne_true_of_eq_false hq), if_neg (ne_true_of_eq_false hk)] at he
      refine ⟨_, he, _, rfl, Crew.modLanes_eq _ _ _, fun l hl => ?_, fun l hl => ?_⟩
      · rw [Crew.fibre_modLanes, if_neg (by simp [hl])]
      · rw [Crew.fibre_modLanes, if_pos hl]
        refine ⟨rfl, rfl, rfl, ?_⟩
        simp only [Fibre.wentBack, decide_eq_true_iff]
        rfl

end Sys2Proof.Machine
end

/-! Group 12: what an instruction leaves of its lanes (R133, R194, R207). -/

section
namespace Sys2Proof.Machine

/-- What a crew holds in a lane that a lane-matrix instruction may write: its fibre, vector register `n`, and the tag and element `q` of lane
matrix `k` (R123, R194). -/
structure LaneAt where
  fibre : Fibre
  vreg : Elem
  mtag : MTag
  mel : Elem

def Crew.laneAt (w : Crew) (n k q l : Nat) : LaneAt := { fibre := w.fibre l, vreg := w.vreg l n, mtag := w.mtagOf k l, mel := w.mel k l q }

/-- A vector register after a lane's result, by its number in the lane (R120, R194). -/
def LRes.vregTo (x : LRes) (base : BitVec 6) (n : Nat) (e : Elem) : Elem :=
  match x.vec with
  | some p => if n = base.toNat + p.1.toNat then { val := p.2 } else e
  | none => e

/-- The tag of MD after a lane's result. -/
def LRes.tagTo (x : LRes) (t : MTag) : MTag :=
  match x.mat with
  | some p => { tag := p.1 }
  | none => t

/-- Element `q` of MD after a lane's result matrix. -/
def LRes.matTo (x : LRes) (q : Nat) (e : Elem) : Elem :=
  match x.mat with
  | some p => { val := BitVec.ofNat 64 (elAt p.2 q) }
  | none => e

/-- Element `q` of MD after a lane's result: the one position that is written, else that of the matrix that is written. -/
def LRes.elemTo (x : LRes) (q : Nat) (e : Elem) : Elem :=
  match x.one with
  | some p => if q = p.1 then { val := BitVec.ofNat 64 p.2 } else x.matTo q e
  | none => x.matTo q e

/-- The matrix flags after a lane's result (R206, R207). -/
def LRes.flagsTo (x : LRes) (f : Fibre) : Fibre := { f with mflags := (f.mflags ||| x.mf) &&& ~~~x.clr }

/-- A lane after its result. -/
def LRes.onLane (x : LRes) (d n k q : Nat) (a : LaneAt) : LaneAt :=
  { fibre := x.flagsTo a.fibre, vreg := x.vregTo a.fibre.wbase n a.vreg
    mtag := if k = d then x.tagTo a.mtag else a.mtag, mel := if k = d then x.elemTo q a.mel else a.mel }

section Parts
variable (w : Crew) (d l : Nat)

/-- All positions of MD written in one lane (R194). -/
def Crew.putAll (es : List (Nat × Nat)) : Crew :=
  (List.range 36).foldl (fun (w : Crew) q => w.setMel d l q { val := BitVec.ofNat 64 (elAt es q) }) w

/-- A lane's result matrix written into MD. -/
def Crew.putMat (m : Option (BitVec 8 × List (Nat × Nat))) : Crew :=
  match m with
  | some m => (w.putAll d l m.2).setMtag d l m.1
  | none => w

/-- One position of MD written. -/
def Crew.putOne (p : Option (Nat × Nat)) : Crew :=
  match p with
  | some p => w.setMel d l p.1 { val := BitVec.ofNat 64 p.2 }
  | none => w

/-- A vector register of the lane written. -/
def Crew.putVec (p : Option (BitVec 6 × Word)) : Crew :=
  match p with
  | some p => w.setVreg l ((w.fibre l).wbase.toNat + p.1.toNat) { val := p.2 }
  | none => w

theorem Crew.putAll_eq (es : List (Nat × Nat)) :
    w.putAll d l es = w.setMels d l ((List.range 36).map (fun q => (q, { val := BitVec.ofNat 64 (elAt es q) }))) := by
  unfold Crew.putAll Crew.setMels
  rw [List.foldl_map]

theorem Crew.putAll_frame (es : List (Nat × Nat)) : ∃ t, w.putAll d l es = { w with m := t } :=
  ⟨_, (w.putAll_eq d l es).trans (Crew.setMels_eq _ _ _ _)⟩

theorem Crew.putLane_eq (x : LRes) : w.putLane d l x = (((w.putMat d l x.mat).putOne d l x.one).putVec l x.vec).modFibre l x.flagsTo := by
  obtain ⟨mat, one, vec, mf, clr, ff, rd, vr⟩ := x
  cases mat <;> cases one <;> cases vec <;> rfl

theorem Crew.putMat_eq (m : Option (BitVec 8 × List (Nat × Nat))) :
    w.putMat d l m = { w with m := (w.putMat d l m).m, mtag := (w.putMat d l m).mtag } := by
  cases m with
  | none => rfl
  | some m =>
    obtain ⟨t, ht⟩ := w.putAll_frame d l m.2
    unfold Crew.putMat Crew.setMtag
    simp only [ht]

theorem Crew.putOne_eq (p : Option (Nat × Nat)) : w.putOne d l p = { w with m := (w.putOne d l p).m } := by cases p <;> rfl

theorem Crew.putVec_eq (p : Option (BitVec 6 × Word)) : w.putVec l p = { w with v := (w.putVec l p).v } := by cases p <;> rfl

variable {w d l} {n k q b : Nat}

theorem Crew.mtagOf_setMtag (hl : l < 32) (hb : b < 32) (t : BitVec 8) :
    (w.setMtag d l t).mtagOf k b = if k = d ∧ b = l then { tag := t } else w.mtagOf k b := by
  have hkey : 32 * k + b = 32 * d + l ↔ k = d ∧ b = l := by omega
  unfold Crew.mtagOf Crew.setMtag
  rw [Tab.get_set]
  simp only [hkey]

/-- The tag of a lane after its result matrix. -/
theorem Crew.mtagOf_putMat (hl : l < 32) (hb : b < 32) (x : LRes) :
    (w.putMat d l x.mat).mtagOf k b = if k = d ∧ b = l then x.tagTo (w.mtagOf k b) else w.mtagOf k b := by
  unfold Crew.putMat LRes.tagTo
  cases x.mat with
  | none => exact (ite_self _).symm
  | some m =>
    obtain ⟨t, ht⟩ := w.putAll_frame d l m.2
    simp only [Crew.mtagOf_setMtag hl hb, ht]
    rfl

/-- Every position of MD in its lane after all are written. -/
theorem Crew.mel_putAll (hl : l < 32) (hb : b < 32) (hq : q < 36) (es : List (Nat × Nat)) :
    (w.putAll d l es).mel k b q = if k = d ∧ b = l then { val := BitVec.ofNat 64 (elAt es q) } else w.mel k b q := by
  have hes : ∀ e ∈ (List.range 36).map (fun q => ((q, { val := BitVec.ofNat 64 (elAt es q) }) : Nat × Elem)), e.1 < 36 := fun e he => by
    obtain ⟨p, hp, rfl⟩ := List.mem_map.1 he
    exact List.mem_range.1 hp
  rw [Crew.putAll_eq]
  split
  next h =>
    obtain ⟨rfl, rfl⟩ := h
    rw [Crew.mel_setMels (v := { val := BitVec.ofNat 64 (elAt es q) }) _ hes hl hq, if_pos (by simpa using hq)]
    intro e he heq
    obtain ⟨p, _, rfl⟩ := List.mem_map.1 he
    rw [← heq]
  next h => exact Crew.mel_setMels_other _ hes hl hb hq h

/-- An element of a lane after its result. -/
theorem Crew.mel_putOne (hl : l < 32) (hb : b < 32) (hq : q < 36) (x : LRes) (hx : ∀ p, x.one = some p → p.1 < 36) :
    ((w.putMat d l x.mat).putOne d l x.one).mel k b q = if k = d ∧ b = l then x.elemTo q (w.mel k b q) else w.mel k b q := by
  have hmat : (w.putMat d l x.mat).mel k b q = if k = d ∧ b = l then x.matTo q (w.mel k b q) else w.mel k b q := by
    unfold Crew.putMat LRes.matTo
    cases x.mat with
    | none => exact (ite_self _).symm
    | some m =>
      have hset : ∀ (u : Crew) (t : BitVec 8), (u.setMtag d l t).mel k b q = u.mel k b q := fun _ _ => rfl
      simp only [hset, Crew.mel_putAll hl hb hq]
  generalize w.putMat d l x.mat = u at hmat
  unfold LRes.elemTo Crew.putOne
  cases ho : x.one with
  | none => exact hmat
  | some p =>
    simp only [Crew.mel_setMel _ _ _ _ _ _ _ _ hl (hx p ho) hb hq, hmat]
    by_cases h : k = d ∧ b = l
    · simp only [h, and_self, true_and, if_true]
    · rw [if_neg h, if_neg h, if_neg (fun hh => h ⟨hh.1, hh.2.1⟩)]

/-- A vector register of a lane after its result. -/
theorem Crew.vreg_putVec (hl : l < 32) (hb : b < 32) (x : LRes) :
    (w.putVec l x.vec).vreg b n = if b = l then x.vregTo (w.fibre b).wbase n (w.vreg b n) else w.vreg b n := by
  unfold Crew.putVec LRes.vregTo
  cases x.vec with
  | none => exact (ite_self _).symm
  | some p =>
    simp only [Crew.vreg_setVreg _ _ _ _ _ _ hl hb]
    by_cases h : b = l
    · simp [h]
    · simp [h]

/-- The fibres after a lane's result. -/
theorem Crew.fibre_putLane (x : LRes) : (w.putLane d l x).fibre b = if b = l then x.flagsTo (w.fibre b) else w.fibre b := by
  have hfib : (((w.putMat d l x.mat).putOne d l x.one).putVec l x.vec).fibre = w.fibre := by
    rw [Crew.putVec_eq, Crew.putOne_eq, Crew.putMat_eq]
    rfl
  rw [Crew.putLane_eq, Crew.fibre_modFibre, hfib]
  split
  next h => rw [h]
  · rfl

/-- A result changes what its own lane holds, and nothing in another lane (R194). -/
theorem Crew.laneAt_putLane (hl : l < 32) (hb : b < 32) (hq : q < 36) (x : LRes) (hx : ∀ p, x.one = some p → p.1 < 36) :
    (w.putLane d l x).laneAt n k q b = if b = l then x.onLane d n k q (w.laneAt n k q b) else w.laneAt n k q b := by
  have h2 : (w.putLane d l x).vreg b n = if b = l then x.vregTo (w.fibre b).wbase n (w.vreg b n) else w.vreg b n := by
    have hv : (w.putLane d l x).vreg b n = (((w.putMat d l x.mat).putOne d l x.one).putVec l x.vec).vreg b n := by rw [Crew.putLane_eq]; rfl
    rw [hv, Crew.vreg_putVec hl hb, Crew.putOne_eq, Crew.putMat_eq]
    rfl
  have h3 : (w.putLane d l x).mtagOf k b = if k = d ∧ b = l then x.tagTo (w.mtagOf k b) else w.mtagOf k b := by
    have ht : (w.putLane d l x).mtagOf k b = (w.putMat d l x.mat).mtagOf k b := by
      rw [Crew.putLane_eq, Crew.putVec_eq, Crew.putOne_eq]
      rfl
    rw [ht, Crew.mtagOf_putMat hl hb]
  have h4 : (w.putLane d l x).mel k b q = if k = d ∧ b = l then x.elemTo q (w.mel k b q) else w.mel k b q := by
    have he : (w.putLane d l x).mel k b q = ((w.putMat d l x.mat).putOne d l x.one).mel k b q := by
      rw [Crew.putLane_eq, Crew.putVec_eq]
      rfl
    rw [he, Crew.mel_putOne hl hb hq x hx]
  unfold Crew.laneAt LRes.onLane
  rw [Crew.fibre_putLane, h2, h3, h4]
  by_cases h : b = l <;> simp [h]

end Parts

/-- A loop over distinct lanes whose steps change what they hold of one lane in that lane's step alone. -/
theorem foldl_own_lane {σ β : Type} {step : σ → Nat → σ} {view : σ → β} {F : β → β} {l : Nat} {ls : List Nat} (hn : ls.Nodup)
    (hs : ∀ a ∈ ls, ∀ u, view (step u a) = if l = a then F (view u) else view u) (u : σ) :
    view (ls.foldl step u) = if l ∈ ls then F (view u) else view u := by
  induction ls generalizing u with
  | nil => simp
  | cons a ls ih =>
    rw [List.foldl_cons, ih (List.nodup_cons.1 hn).2 (fun b hb => hs b (List.mem_cons_of_mem _ hb)), hs a List.mem_cons_self]
    by_cases h : l = a
    · subst h
      simp [(List.nodup_cons.1 hn).1]
    · simp [h]

section Lanes
variable {s : State} {c : Cur} {d : Nat} {m : BitVec 32} {x : Nat → LRes}

/-- The results of all lanes of a mask written (R194). -/
def Crew.putLanes (w : Crew) (d : Nat) (m : BitVec 32) (x : Nat → LRes) : Crew := (lanesOf m).foldl (fun w l => w.putLane d l (x l)) w

theorem Crew.putLanes_eq (w : Crew) (d : Nat) (m : BitVec 32) (x : Nat → LRes) : w.putLanes d m x = { w with
    v := (w.putLanes d m x).v, m := (w.putLanes d m x).m, mtag := (w.putLanes d m x).mtag, fibres := (w.putLanes d m x).fibres } := by
  unfold Crew.putLanes
  induction lanesOf m generalizing w with
  | nil => rfl
  | cons l ls ih =>
    have hl : w.putLane d l (x l) = { w with v := (w.putLane d l (x l)).v, m := (w.putLane d l (x l)).m, mtag := (w.putLane d l (x l)).mtag
                                             fibres := (w.putLane d l (x l)).fibres } := by
      rw [Crew.putLane_eq, Crew.putVec_eq, Crew.putOne_eq, Crew.putMat_eq]
      rfl
    obtain ⟨v, e, t, f, hw⟩ : ∃ v e t f, w.putLane d l (x l) = { w with v := v, m := e, mtag := t, fibres := f } := ⟨_, _, _, _, hl⟩
    rw [List.foldl_cons, ih, hw]

/-- What every lane holds after the results of all lanes (R194). -/
theorem Crew.laneAt_putLanes (w : Crew) {n k q l : Nat} (hl : l < 32) (hq : q < 36)
    (hx : ∀ l, m.getLsbD l = true → ∀ p, (x l).one = some p → p.1 < 36) :
    (w.putLanes d m x).laneAt n k q l = if m.getLsbD l then (x l).onLane d n k q (w.laneAt n k q l) else w.laneAt n k q l := by
  have h := foldl_own_lane (step := fun (w : Crew) a => w.putLane d a (x a)) (view := fun w => w.laneAt n k q l) (l := l)
    (F := (x l).onLane d n k q) (nodup_lanesOf m) (fun a ha u => by
      have ha' := (mem_lanesOf m a).1 ha
      rw [Crew.laneAt_putLane (lt_of_getLsbD ha') hl hq (x a) (hx a ha')]
      by_cases h : l = a
      · simp only [h]
      · simp only [h, if_false]) w
  simpa only [mem_lanesOf, Crew.putLanes] using h

theorem Crew.fibre_putLanes (w : Crew) (l : Nat) :
    (w.putLanes d m x).fibre l = if m.getLsbD l then (x l).flagsTo (w.fibre l) else w.fibre l := by
  have h := foldl_own_lane (step := fun (w : Crew) a => w.putLane d a (x a)) (view := fun w => w.fibre l) (l := l)
    (F := (x l).flagsTo) (nodup_lanesOf m) (fun a _ u => by
      rw [Crew.fibre_putLane]
      by_cases h : l = a
      · simp only [h]
      · simp only [h, if_false]) w
  simpa only [mem_lanesOf, Crew.putLanes] using h

/-- The crew that a lane-matrix instruction leaves before it retires: the results of its lanes, and their FFLAGS (R65, R194). -/
def State.laneCrew (s : State) (c : Cur) (d : Nat) (m : BitVec 32) (x : Nat → LRes) : Crew :=
  { (s.cw c).putLanes d m x with fflags := (s.cw c).fflags ||| (s.cw c).raised m (fun l => (x l).ff) }

theorem State.laneCrew_eq (s : State) (c : Cur) (d : Nat) (m : BitVec 32) (x : Nat → LRes) : s.laneCrew c d m x = { s.cw c with
    v := (s.laneCrew c d m x).v, m := (s.laneCrew c d m x).m, mtag := (s.laneCrew c d m x).mtag, fflags := (s.laneCrew c d m x).fflags
    fibres := (s.laneCrew c d m x).fibres } := by
  unfold State.laneCrew
  rw [Crew.putLanes_eq]

/-- A lane-matrix instruction that retires leaves the results of its lanes (R194). -/
theorem State.laneCrew_done (hm : ∀ l, m.getLsbD l = true → c.lanes.getLsbD l = true)
    (hx : ∀ l, m.getLsbD l = true → ∀ p, (x l).one = some p → p.1 < 36) :
    s.LaneDone (s.setCrew c.core c.slot ((s.laneCrew c d m x).retired c {})) c d m x := by
  have hat : ∀ n k q l, l < 32 → q < 36 → (s.laneCrew c d m x).laneAt n k q l
      = if m.getLsbD l then (x l).onLane d n k q ((s.cw c).laneAt n k q l) else (s.cw c).laneAt n k q l := fun n k q l hl hq =>
    Crew.laneAt_putLanes (s.cw c) hl hq hx
  have hfib : ∀ l, (s.laneCrew c d m x).fibre l = if m.getLsbD l then (x l).flagsTo ((s.cw c).fibre l) else (s.cw c).fibre l :=
    fun l => (s.cw c).fibre_putLanes l
  have hgo : (s.cw c).WentOn ((s.laneCrew c d m x).retired c {}) c (fun l f => if m.getLsbD l then (x l).flagsTo f else f) := by
    refine Crew.wentOn_lanes (s.cw c) _ c {} _ (fun l => ?_) ?_ rfl rfl rfl rfl
    · rw [hfib]
      by_cases h : m.getLsbD l = true
      · simp [h, hm l h]
      · simp [h]
    · obtain ⟨v, e, t, fl, f, h⟩ : ∃ v e t fl f, s.laneCrew c d m x = { s.cw c with v := v, m := e, mtag := t, fflags := fl, fibres := f } :=
        ⟨_, _, _, _, _, s.laneCrew_eq c d m x⟩
      rw [h]
  obtain ⟨hs, hff⟩ : ((s.laneCrew c d m x).retired c {}).s = (s.cw c).s
      ∧ ((s.laneCrew c d m x).retired c {}).fflags = (s.cw c).fflags ||| (s.cw c).raised m (fun l => (x l).ff) := by
    rw [Crew.retired_eq, State.laneCrew_eq]
    exact ⟨rfl, rfl⟩
  have hkeep : ∀ n k q l, ((s.laneCrew c d m x).retired c {}).vreg l n = ((s.laneCrew c d m x).laneAt n k q l).vreg
      ∧ ((s.laneCrew c d m x).retired c {}).mtagOf k l = ((s.laneCrew c d m x).laneAt n k q l).mtag
      ∧ ((s.laneCrew c d m x).retired c {}).mel k l q = ((s.laneCrew c d m x).laneAt n k q l).mel := fun n k q l => by
    rw [Crew.retired_eq]
    exact ⟨rfl, rfl, rfl⟩
  refine ⟨_, rfl, hgo, hs, hff, fun l n hl => ?_, fun k l _ hl => ⟨?_, fun q hq => ?_⟩⟩
  · rw [(hkeep n 0 0 l).1, hat n 0 0 l hl (by decide)]
    cases hl' : m.getLsbD l with
    | false => rfl
    | true => rfl
  · rw [(hkeep 0 k 0 l).2.1, hat 0 k 0 l hl (by decide)]
    cases m.getLsbD l with
    | false => simp only [Bool.false_eq_true, false_and, if_false]; rfl
    | true =>
      by_cases h : k = d
      · simp only [h, true_and, if_true, LRes.onLane]; rfl
      · simp only [h, and_false, if_false, if_true, LRes.onLane]; rfl
  · rw [(hkeep 0 k q l).2.2, hat 0 k q l hl hq]
    cases m.getLsbD l with
    | false => simp only [Bool.false_eq_true, false_and, if_false]; rfl
    | true =>
      by_cases h : k = d
      · simp only [h, true_and, if_true, LRes.onLane]; rfl
      · simp only [h, and_false, if_false, if_true, LRes.onLane]; rfl

end Lanes

section Acts
variable {s : State} {c : Cur} {g : BitVec 3} {us : List Use} {tags : List (BitVec 4)} {vs : List Src}

/-- A lane's result reads no matrix and no vector register but those named, and writes at most a position of MD (R133, R194). -/
structure LRes.Within (x : LRes) (tags : List (BitVec 4)) (vs : List Src) : Prop where
  rd : ∀ p ∈ x.rd, ∃ k ∈ tags, p.1 = k.toNat ∧ p.2 < 49
  vr : ∀ v ∈ x.vr, Src.v v ∈ vs
  one : ∀ p, x.one = some p → p.1 < 36

/-- A fragment that may act may act when it reads less. -/
theorem State.Ready.fewer {r : Roles} {all pr : Bool} {m : BitVec 32} {xs ys : Nat → List Src} (h : s.Ready c r all us pr m xs)
    (hy : ∀ l, m.getLsbD l = true → ∀ y ∈ ys l, y ∈ xs l) : s.Ready c r all us pr m ys := by
  obtain ⟨hc, hr, hw, hp, hpar, hpred, hpoi⟩ := h
  have hle : ∀ bad : Nat → Src → Bool, (lanesOf m).any (fun l => (xs l).any (bad l)) = false →
      (lanesOf m).any (fun l => (ys l).any (bad l)) = false := fun bad hb =>
    List.any_eq_false.2 fun l hl => by
      have hl' := List.any_eq_false.1 hb l hl
      rw [Bool.not_eq_true, List.any_eq_false] at hl' ⊢
      exact fun y hy' => hl' y (hy l ((mem_lanesOf m l).1 hl) y hy')
  exact ⟨hc, hr, hw, hp, hle _ hpar, hpred, hle _ hpoi⟩

section Results
variable (m : BitVec 32) (x : Nat → LRes)

/-- The lanes whose results would set a matrix flag that traps (R207). -/
def trapLanes (on : Bool) (b : BitVec 4) : BitVec 32 := if on then maskOf ((lanesOf m).filter (fun l => (x l).mf &&& b ≠ 0)) else 0

variable {m x}

theorem trapLanes_none {on : Bool} {b : BitVec 4} (h : on = false ∨ maskOf ((lanesOf m).filter (fun l => (x l).mf &&& b ≠ 0)) = 0) :
    trapLanes m x on b = 0 := by
  unfold trapLanes
  rcases h with h | h
  · simp [h]
  · rw [h, ite_self]

variable (m x)

theorem trapLanes_eq (on : Bool) (b : BitVec 4) :
    (if on then maskOf ((((lanesOf m).map (fun l => (l, x l))).filter (fun e => e.2.mf &&& b ≠ 0)).map Prod.fst) else 0) = trapLanes m x on b := by
  rw [trapLanes, List.filter_map, List.map_map]
  congr 2
  exact List.map_id _

/-- The result that is found for a lane. -/
theorem find_laneResult (l : Nat) :
    ((((lanesOf m).map (fun l => (l, x l))).find? (fun e => e.1 = l)).map Prod.snd).getD {} = if m.getLsbD l then x l else {} := by
  rw [find_lane (lanesOf m) x l]
  simp only [mem_lanesOf]
  split <;> rfl

theorem foldl_laneResults (w : Crew) (d : Nat) :
    ((lanesOf m).map (fun l => (l, x l))).foldl (fun w e => w.putLane d e.1 e.2) w = w.putLanes d m x := List.foldl_map

theorem Crew.flagsOf_laneResults (w : Crew) :
    w.flagsOf (((lanesOf m).map (fun l => (l, x l))).map (fun e => (e.1, 0, e.2.ff))) = w.raised m (fun l => (x l).ff) := by
  rw [List.map_map]
  exact w.raised_eq m (fun l => (0, (x l).ff))

theorem Crew.raised_putLanes (w : Crew) (d : Nat) (fl : Nat → FSet) : (w.putLanes d m x).raised m fl = w.raised m fl := by
  rw [Crew.putLanes_eq]
  rfl

theorem Crew.fflags_putLanes (w : Crew) (d : Nat) : (w.putLanes d m x).fflags = w.fflags := by
  rw [Crew.putLanes_eq]

variable {m x}

/-- Sound operands: no tag, position or register that the lanes' results read is bad (R133). -/
theorem laneResults_sound {w : Crew} (hs : ∀ l, m.getLsbD l = true → ∀ k ∈ tags,
      (w.mtagOf k.toNat l).bad = false ∧ ∀ q, q < 49 → (w.mel k.toNat l q).poison = false)
    (hw : ∀ l, m.getLsbD l = true → (x l).Within tags vs) :
    ((lanesOf m).map (fun l => (l, x l))).any (fun e => tags.any (fun k => (w.mtagOf k.toNat e.1).bad)
      || e.2.rd.any (fun p => (w.mel p.1 e.1 p.2).poison)) = false := by
  refine List.any_eq_false.2 fun e he => ?_
  obtain ⟨l, hl, rfl⟩ := List.mem_map.1 he
  have hl' := (mem_lanesOf _ l).1 hl
  rw [Bool.or_eq_true, not_or]
  refine ⟨fun ht => ?_, fun hp => ?_⟩
  · obtain ⟨k, hk, hb⟩ := List.any_eq_true.1 ht
    exact Bool.false_ne_true ((hs l hl' k hk).1.symm.trans hb)
  · obtain ⟨p, hp, hb⟩ := List.any_eq_true.1 hp
    obtain ⟨k, hk, hpk, hq⟩ := (hw l hl').rd p hp
    rw [hpk, (hs l hl' k hk).2 _ hq] at hb
    exact Bool.false_ne_true hb

end Results

/-- A group-12 instruction that may act: its arithmetic trap, or the results of its lanes (R194, R207). -/
theorem State.laneMat_ready {d : Nat} {f : Crew → RMode → Nat → LRes} {x : Nat → LRes} (h : s.LaneReady c g us tags vs)
    (hx : f (s.cw c) (RMode.ofCode (s.cw c).frm.toNat) = x) (hw : ∀ l, (s.act c g).getLsbD l = true → (x l).Within tags vs) :
    s.laneMat g d us tags f = .next
      (if trapLanes (s.act c g) x (s.cw c).tnpp mfNPP ≠ 0 then
        s.takeFault c { cause := 7, sub := 1, lanes := trapLanes (s.act c g) x (s.cw c).tnpp mfNPP }
      else if trapLanes (s.act c g) x (s.cw c).tzp mfZP ≠ 0 then
        s.takeFault c { cause := 7, sub := 2, lanes := trapLanes (s.act c g) x (s.cw c).tzp mfZP }
      else s.setCrew c.core c.slot ((s.laneCrew c d (s.act c g) x).retired c {})) := by
  obtain ⟨h, hs⟩ := h
  have hready := State.Ready.fewer (ys := fun l => (if (s.act c g).getLsbD l then x l else {}).vr.map Src.v) h (fun l hl y hy => by
    rw [if_pos hl] at hy
    obtain ⟨v, hv, rfl⟩ := List.mem_map.1 hy
    exact (hw l hl).vr v hv)
  unfold State.laneMat
  rw [State.run_cur h.1, State.gate_ready h]
  simp only [hx, find_laneResult, trapLanes_eq, foldl_laneResults, laneResults_sound hs hw, Bool.false_eq_true, if_false]
  rw [State.reads_ready hready, State.retire_eq, State.crew_modCrew_same, State.modCrew, State.setCrew_setCrew]
  simp only [Crew.flagsOf_laneResults, Crew.raised_putLanes, Crew.fflags_putLanes]
  rfl

/-- What a group-12 instruction that may act comes to, lane by lane (R194, R207). -/
theorem State.laneMat_acts {i : Instr} {d : BitVec 4} {f : Crew → RMode → Nat → LRes}
    (he : exec i s = s.laneMat g d.toNat us tags f) (h : s.LaneReady c g us tags vs)
    (hw : ∀ l, (f (s.cw c) (RMode.ofCode (s.cw c).frm.toNat) l).Within tags vs) :
    s.LaneActs c d.toNat (s.act c g) (f (s.cw c) (RMode.ofCode (s.cw c).frm.toNat)) (exec i s) := by
  rw [he, State.laneMat_ready h rfl (fun l _ => hw l)]
  refine ⟨fun hn hz => ?_, fun ht hn => ?_, fun hn ht hz => ?_⟩
  · rw [trapLanes_none hn, trapLanes_none hz, if_neg (not_not_intro rfl), if_neg (not_not_intro rfl)]
    exact ⟨_, rfl, State.laneCrew_done (fun l hl => Crew.active_sub _ _ _ l hl) (fun l _ => (hw l).one)⟩
  · rw [ht]
    exact congrArg _ (if_pos hn)
  · rw [trapLanes_none hn, ht, if_neg (not_not_intro rfl)]
    exact congrArg _ (if_pos hz)

end Acts

end Sys2Proof.Machine
end

/-! Lane matrices: shapes, moves, products, sums and the transpose, element by element (R133, R194 to R198, R200, R201, R207). -/

section
namespace Sys2Proof.Machine

section Elements

/-- The encoding of a listed position that no other entry names. -/
theorem elAt_map_of_mem {α : Type} {ls : List α} {key v : α → Nat} {a : α} (ha : a ∈ ls) (hk : ∀ e ∈ ls, key e = key a → e = a) :
    elAt (ls.map (fun e => (key e, v e))) (key a) = v a := by
  unfold elAt
  induction ls with
  | nil => exact absurd ha List.not_mem_nil
  | cons b ls ih =>
    rw [List.map_cons, List.find?_cons]
    by_cases hb : key b = key a
    · rw [hk b List.mem_cons_self hb]
      simp
    · simp only [hb, decide_false]
      refine ih ?_ (fun e he => hk e (List.mem_cons_of_mem _ he))
      exact (List.mem_cons.1 ha).resolve_left (fun h => hb (h ▸ rfl))

theorem elAt_map_of_unlisted {α : Type} {ls : List α} {key v : α → Nat} {q : Nat} (hq : ∀ e ∈ ls, key e ≠ q) :
    elAt (ls.map (fun e => (key e, v e))) q = 0 := by
  have hn : (ls.map (fun e => (key e, v e))).find? (fun e => e.1 = q) = none := by
    rw [List.find?_eq_none]
    intro e he
    obtain ⟨b, hb, rfl⟩ := List.mem_map.1 he
    simpa using hq b hb
  unfold elAt
  rw [hn]
  rfl

/-- Row by row, a position within a shape of at most six columns names one cell. -/
theorem cell_unique {i j i' j' : Nat} (hj : j < 6) (hj' : j' < 6) (h : 6 * i + j = 6 * i' + j') : i = i' ∧ j = j' := by omega

variable {r c : Nat} {ty : Bool} {e : Nat → Nat → Nat} {mf : BitVec 4} {v : Option (BitVec 6 × Word)}

theorem LRes.Gives.congr {x : LRes} {e' : Nat → Nat → Nat} (h : x.Gives r c ty e mf v) (he : ∀ i j, i < r → j < c → e i j = e' i j) :
    x.Gives r c ty e' mf v := by
  obtain ⟨hone, hclr, hmf, hvec, es, hmat, hel⟩ := h
  refine ⟨hone, hclr, hmf, hvec, es, hmat, fun hr hc i j hi hj => (hel hr hc i j hi hj).trans ?_⟩
  split
  next h => exact he i j h.1 h.2
  · rfl

/-- The flags, the vector register and what is read go with a matrix as they are. -/
theorem LRes.Gives.withFlags {x : LRes} (h : x.Gives r c ty e mf v) (mf' : BitVec 4) (v' : Option (BitVec 6 × Word)) (ff : FSet) (vr : List (BitVec 6)) :
    LRes.Gives { x with mf := mf', vec := v', ff := ff, vr := vr } r c ty e mf' v' := by
  obtain ⟨hone, hclr, -, -, hmat⟩ := h
  exact ⟨hone, hclr, rfl, rfl, hmat⟩

/-- A result made element by element writes its elements. -/
theorem lresOf_gives (r c : Nat) (ty : Bool) (rd : List (Nat × Nat)) (f : Nat → Nat → Nat × FSet) :
    (lresOf r c ty rd f).Gives r c ty (fun i j => (f i j).1) 0 none := by
  refine ⟨rfl, rfl, rfl, rfl, _, rfl, fun hr hc i j hi hj => ?_⟩
  rw [List.map_map]
  by_cases h : i < r ∧ j < c
  · rw [if_pos h]
    refine elAt_map_of_mem (key := fun e : Nat × Nat => 6 * e.1 + e.2) (v := fun e => (f e.1 e.2).1) (a := (i, j)) ((mem_cells _ _ _).2 h) ?_
    intro a ha hk
    obtain ⟨h1, h2⟩ := cell_unique (by have := ((mem_cells _ _ _).1 ha).2; omega) hj hk
    exact Prod.ext h1 h2
  · rw [if_neg h]
    refine elAt_map_of_unlisted (key := fun e : Nat × Nat => 6 * e.1 + e.2) (v := fun e => (f e.1 e.2).1) fun a ha hk => h ?_
    have ha' := (mem_cells _ _ _).1 ha
    obtain ⟨h1, h2⟩ := cell_unique (by omega) hj hk
    exact ⟨h1 ▸ ha'.1, h2 ▸ ha'.2⟩

@[simp] theorem lresOf_rd (r c : Nat) (ty : Bool) (rd : List (Nat × Nat)) (f : Nat → Nat → Nat × FSet) : (lresOf r c ty rd f).rd = rd := rfl

theorem lresOf_ff (r c : Nat) (ty : Bool) (rd : List (Nat × Nat)) (f : Nat → Nat → Nat × FSet) :
    (lresOf r c ty rd f).ff = (cells r c).foldl (fun a p => a ||| (f p.1 p.2).2) 0 := by
  simp only [lresOf, orFlags, List.map_map, List.foldl_map]
  rfl

/-- A result made of roundings is a matrix of roundings (R197). -/
theorem lresOf_rounds {rd : List (Nat × Nat)} {f g : Nat → Nat → Nat × FSet} (hg : ∀ i j, i < r → j < c → f i j = g i j) :
    (lresOf r c ty rd f).Rounds r c ty g := by
  refine ⟨(lresOf_gives r c ty rd f).congr fun i j hi hj => congrArg Prod.fst (hg i j hi hj), ?_⟩
  refine (lresOf_ff r c ty rd f).trans (List.foldl_ext _ _ _ fun a p hp => ?_)
  obtain ⟨hi, hj⟩ := (mem_cells _ _ _).1 hp
  rw [hg p.1 p.2 hi hj]

theorem LRes.Rounds.reading {x : LRes} {g : Nat → Nat → Nat × FSet} (h : x.Rounds r c ty g) (vr : List (BitVec 6)) :
    LRes.Rounds { x with vr := vr } r c ty g := h

/-- Results whose elements raise no flag raise none. -/
theorem lresOf_ff_zero (r c : Nat) (ty : Bool) (rd : List (Nat × Nat)) (f : Nat → Nat → Nat) :
    (lresOf r c ty rd (fun i j => (f i j, 0))).ff = 0 := by
  rw [lresOf_ff]
  exact (List.foldl_ext _ _ _ fun a _ _ => BitVec.or_zero).trans (List.foldl_fixed _)

end Elements

section Reads
variable {w : Crew} {k : BitVec 4} {l : Nat} {tags : List (BitVec 4)} {vs : List Src} {p : Nat × Nat}

/-- The positions of a matrix are those of its register. -/
theorem Crew.mem_all (hk : k ∈ tags) (hp : p ∈ (w.mview k l).all) : ∃ k ∈ tags, p.1 = k.toNat ∧ p.2 < 49 := by
  obtain ⟨e, he, rfl⟩ := List.mem_map.1 hp
  obtain ⟨hi, hj⟩ := (mem_cells _ _ _).1 he
  have hr : (w.mview k l).r < 8 := Nat.mod_lt _ (by decide)
  have hc : (w.mview k l).c < 8 := Nat.mod_lt _ (by decide)
  exact ⟨k, hk, rfl, by dsimp only; omega⟩

theorem Crew.mem_lower (hk : k ∈ tags) (hp : p ∈ (w.mview k l).lower) : ∃ k ∈ tags, p.1 = k.toNat ∧ p.2 < 49 := by
  obtain ⟨e, he, rfl⟩ := List.mem_map.1 hp
  exact Crew.mem_all hk (List.mem_map.2 ⟨e, List.mem_of_mem_filter he, rfl⟩)

/-- A result that reads matrices of the named registers and the named sources reads nothing else (R133). -/
theorem LRes.within_views {x : LRes} (h : ∀ p ∈ x.rd, ∃ k ∈ tags, p ∈ (w.mview k l).all) (hv : ∀ v ∈ x.vr, Src.v v ∈ vs) (hone : x.one = none) :
    x.Within tags vs :=
  ⟨fun p hp => by
    obtain ⟨k, hk, hp⟩ := h p hp
    exact Crew.mem_all hk hp, hv, fun p hp => by rw [hone] at hp; exact nomatch hp⟩

theorem LRes.within_shp {vr : List (BitVec 6)} (hv : ∀ v ∈ vr, Src.v v ∈ vs) : LRes.Within { LRes.shp with vr := vr } tags vs :=
  ⟨fun _ hp => absurd hp List.not_mem_nil, hv, fun _ h => nomatch h⟩

theorem LRes.isShp_shp {vr : List (BitVec 6)} : LRes.IsShp { LRes.shp with vr := vr } := ⟨rfl, rfl, rfl, rfl, rfl, rfl⟩

theorem LRes.within_ite {C : Prop} [Decidable C] {x y : LRes} (hx : x.Within tags vs) (hy : y.Within tags vs) :
    (if C then x else y).Within tags vs := by
  split
  · exact hx
  · exact hy

theorem LRes.isShp_ite {C : Prop} [Decidable C] {x : LRes} (h : C) : (if C then LRes.shp else x).IsShp := by
  rw [if_pos h]
  exact LRes.isShp_shp

/-- A lane sets SHP or has its matrix of roundings (R196). -/
theorem LRes.rounds_or_shp {C D : Prop} [Decidable C] [Decidable D] {x : LRes} {r c : Nat} {ty : Bool} {e : Nat → Nat → Nat × FSet} (hD : D ↔ C)
    (hx : x.Rounds r c ty e) : if C then (if D then LRes.shp else x).IsShp else (if D then LRes.shp else x).Rounds r c ty e := by
  by_cases hC : C
  · rw [if_pos hC]
    exact LRes.isShp_ite (hD.2 hC)
  · rw [if_neg hC, if_neg (mt hD.1 hC)]
    exact hx

end Reads

/-- The scalar of a vector register, read as a TYPE (R200, R201). -/
theorem scalar_eq (ty : Bool) (x : Word) : x.toNat % 2 ^ (mfmt ty).width = if ty then x.toNat else (el 32 0 x).toNat := by
  cases ty with
  | false => exact lmt_fmtS x ▸ by simp [lmt, mfmt]
  | true => exact Nat.mod_eq_of_lt x.isLt

/-- The encoding of 1.0 (R59, R198). -/
theorem one_eq (ty : Bool) : (mfmt ty).bias * 2 ^ (mfmt ty).fbits = if ty then 0x3FF0000000000000 else 0x3F800000 := by
  cases ty <;> decide

/-- Settles O50: every instruction is a result of each lane, written lane by lane. -/
theorem laneMatrixResults : Obligations.LaneMatrixResults := by
  unfold Obligations.LaneMatrixResults
  intro s c w R X acts
  have nord : ∀ {tags : List (BitVec 4)}, ∀ p ∈ ([] : List (Nat × Nat)), ∃ k ∈ tags, p.1 = k.toNat ∧ p.2 < 49 :=
    fun _ hp => absurd hp List.not_mem_nil
  have novr : ∀ {vs : List Src}, ∀ v ∈ ([] : List (BitVec 6)), Src.v v ∈ vs := fun _ hv => absurd hv List.not_mem_nil
  have vof : ∀ k : BitVec 6, ∀ v ∈ [k], Src.v v ∈ [Src.v k] := fun k v hv => List.mem_singleton.1 hv ▸ List.mem_singleton_self _
  refine ⟨fun o h => ?mshape, fun o h => ?midn, fun o hi hj h => ?mmovv, fun o h => ?mflag, fun o h => ?mtrn, fun o h => ?madd,
    fun o h => ?mscal, fun o h => ?mmul, fun o h => ?mmac, fun o h => ?mmv⟩
  case mshape =>
    refine ⟨_, State.laneMat_acts (show exec (.mshape o) s = execMshape o s from rfl) h (fun l => ⟨nord, novr, fun _ hp => nomatch hp⟩), fun l _ => ⟨?_, rfl⟩⟩
    exact ⟨rfl, rfl, rfl, rfl, [], rfl, fun _ _ i j _ _ => (ite_self _).symm⟩
  case midn =>
    refine ⟨_, State.laneMat_acts (show exec (.midn o) s = execMidn o s from rfl) h (fun l => ⟨nord, novr, fun _ hp => nomatch hp⟩), fun l _ => ⟨?_, lresOf_ff_zero _ _ _ _ _⟩⟩
    refine (lresOf_gives _ _ _ _ _).congr fun i j _ _ => ?_
    rw [one_eq]
  case mmovv =>
    refine ⟨_, State.laneMat_acts (show exec (.mmovv o) s = execMmovv o s from rfl) h (fun l => ?_), fun l _ => ite_prop_iff_and.2 ⟨fun hs => ?_, fun hs => ?_⟩⟩
    · refine LRes.within_ite (LRes.within_shp novr) (LRes.within_ite ⟨?_, novr, fun _ hp => nomatch hp⟩ ⟨nord, vof o.v, ?_⟩)
      · intro p hp
        rw [List.mem_singleton.1 hp]
        exact ⟨o.m, List.mem_singleton_self _, rfl, by dsimp only; omega⟩
      · intro p hp
        cases hp
        dsimp only
        omega
    · exact LRes.isShp_ite (by simpa [or_assoc] using hs)
    · dsimp only
      rw [if_neg (by simpa [or_assoc] using hs)]
      cases hd : o.dir with
      | true => exact ⟨rfl, rfl, rfl, rfl, rfl, rfl⟩
      | false => exact ⟨rfl, rfl, rfl, rfl, rfl, congrArg some (congrArg _ (scalar_eq _ _))⟩
  case mflag =>
    exact ⟨_, State.laneMat_acts (d := 0) (show exec (.mflag o) s = execMflag o s from rfl) h (fun l => ⟨nord, novr, fun _ hp => nomatch hp⟩), fun l _ => ⟨rfl, rfl, rfl, rfl, rfl, rfl⟩⟩
  case mtrn =>
    refine ⟨_, State.laneMat_acts (show exec (.mtrn o) s = execMtrn o s from rfl) h (fun l => ?_), fun l _ => ite_prop_iff_and.2 ⟨fun hs => ?_, fun hs => ?_⟩⟩
    · exact LRes.within_ite (LRes.within_shp novr) (LRes.within_views (fun p hp => ⟨o.a, List.mem_singleton_self _, hp⟩) novr rfl)
    · exact LRes.isShp_ite (by simpa [or_assoc] using hs)
    · dsimp only
      rw [if_neg (by simpa [or_assoc] using hs)]
      exact ⟨lresOf_gives _ _ _ _ _, lresOf_ff_zero _ _ _ _ _⟩
  case madd =>
    refine ⟨_, State.laneMat_acts (show exec (.madd o) s = execMadd o s from rfl) h (fun l => ?_), fun l _ => ?_⟩
    · exact LRes.within_ite (LRes.within_shp novr) (LRes.within_views (w := w) (l := l) (fun p hp => by simpa using hp) novr rfl)
    · exact LRes.rounds_or_shp (by simp [or_assoc, X, w]) (lresOf_rounds fun _ _ _ _ => rfl)
  case mscal =>
    refine ⟨_, State.laneMat_acts (show exec (.mscal o) s = execMscal o s from rfl) h (fun l => ?_), fun l _ => ?_⟩
    · exact LRes.within_ite (LRes.within_shp novr) (LRes.within_views (fun p hp => ⟨o.a, List.mem_singleton_self _, hp⟩) (vof o.v) rfl)
    · exact LRes.rounds_or_shp Iff.rfl (LRes.Rounds.reading (lresOf_rounds fun _ _ _ _ => by rw [scalar_eq]) _)
  case mmul =>
    refine ⟨_, State.laneMat_acts (show exec (.mmul o) s = execMmul o s from rfl) h (fun l => ?_), fun l _ => ?_⟩
    · exact LRes.within_ite (LRes.within_shp novr) (LRes.within_views (w := w) (l := l) (fun p hp => by simpa using hp) novr rfl)
    · exact LRes.rounds_or_shp (by simp [or_assoc, X, w]) (lresOf_rounds fun _ _ _ _ => rfl)
  case mmac =>
    refine ⟨_, State.laneMat_acts (show exec (.mmac o) s = execMmac o s from rfl) h (fun l => ?_), fun l _ => ?_⟩
    · exact LRes.within_ite (LRes.within_shp novr) (LRes.within_views (w := w) (l := l) (fun p hp => by simpa [or_assoc] using hp) novr rfl)
    · exact LRes.rounds_or_shp (by simp [or_assoc, X, w]) (lresOf_rounds fun _ _ _ _ => rfl)
  case mmv =>
    refine ⟨_, State.laneMat_acts (show exec (.mmv o) s = execMmv o s from rfl) h (fun l => ?_), fun l _ => ?_⟩
    · refine LRes.within_ite (LRes.within_shp novr) (LRes.within_views (w := w) (l := l) (fun p hp => ?_) novr rfl)
      cases ha : o.acc with
      | true => simpa [ha, or_assoc] using hp
      | false => simpa [ha] using hp
    · refine ⟨fun hs => ?_, fun ha hb hty hd => ⟨fun hcol hq hdim => ?_, fun hcol hrow hq hdim => ?_⟩⟩
      · exact LRes.isShp_ite (by simpa [or_assoc] using hs)
      · simp only [X, w] at ha hb hty hd hcol hq hdim
        dsimp only
        rw [if_neg, if_pos hcol, if_pos hcol]
        · refine lresOf_rounds fun i j _ hj => ?_
          simp only [if_pos hcol, Nat.lt_one_iff.1 hj]
          rfl
        · simp only [hcol, if_true, Bool.or_eq_true, Bool.and_eq_true, decide_eq_true_eq, not_or, not_and]
          exact ⟨⟨⟨⟨⟨ha, hb⟩, fun h => absurd rfl h⟩, not_not_intro hq⟩, not_not_intro hty⟩,
            fun h => ⟨⟨not_not_intro (hdim h).1, not_not_intro (hdim h).2⟩, not_not_intro (hd h)⟩⟩
      · simp only [X, w] at ha hb hty hd hcol hrow hq hdim
        dsimp only
        rw [if_neg, if_neg hcol, if_neg hcol]
        · refine lresOf_rounds fun i j hi _ => ?_
          simp only [if_neg hcol, Nat.lt_one_iff.1 hi]
          rfl
        · simp only [hcol, if_false, Bool.or_eq_true, Bool.and_eq_true, decide_eq_true_eq, not_or, not_and]
          exact ⟨⟨⟨⟨⟨ha, hb⟩, fun _ => not_not_intro hrow⟩, not_not_intro hq⟩, not_not_intro hty⟩,
            fun h => ⟨⟨not_not_intro (hdim h).1, not_not_intro (hdim h).2⟩, not_not_intro (hd h)⟩⟩

end Sys2Proof.Machine
end

/-! Working matrices (R197, R202 to R206): the steps of a factorisation or solve, and the loops that write their values. -/

section
namespace Sys2Proof.Machine

theorem Tab.get_put {α : Type} (t : Tab α) (d v : α) (k n : Nat) : Tab.get (Tab.put t k v) d n = if n = k then v else Tab.get t d n := by
  split
  next h => rw [h, Tab.get_put_same]
  next h => exact Tab.get_put_other _ _ _ h

theorem wel_wput (t : Tab Nat) (i x : Nat) {j : Nat} (i' : Nat) {j' : Nat} (hj : j < 6) (hj' : j' < 6) :
    wel (wput t i j x) i' j' = if i' = i ∧ j' = j then x else wel t i' j' := by
  have hkey : 6 * i' + j' = 6 * i + j ↔ i' = i ∧ j' = j := by omega
  unfold wel wput
  rw [Tab.get_put]
  simp only [hkey]

/-- Writes one after the other: a key holds what all writes of it agree on. -/
theorem Tab.get_puts {α β : Type} (t : Tab β) (d : β) {ls : List α} {key : α → Nat} {v : α → β} {k : Nat} {b : β}
    (hv : ∀ a ∈ ls, key a = k → v a = b) :
    Tab.get (ls.foldl (fun t a => Tab.put t (key a) (v a)) t) d k = if k ∈ ls.map key then b else Tab.get t d k := by
  induction ls generalizing t with
  | nil => simp
  | cons a ls ih =>
    rw [List.foldl_cons, ih _ (fun e he => hv e (List.mem_cons_of_mem _ he)), Tab.get_put, List.map_cons]
    by_cases hk : k = key a
    · simp [hk, hv a List.mem_cons_self hk.symm]
    · simp [hk]

section Step
variable {f : Fmt} {m : RMode} {base : Nat} {ps : List (Nat × Nat)} {d : Option Nat} {st : Stp}

theorem Stp.out_broke {r : Nat × FSet} (h : (st.out f r).2.broke = false) : st.broke = false ∧ f.isFin r.1 = true := by
  simpa [Stp.out] using h

/-- A step after which nothing is broken is one rounding, with a finite value (R197, R206). -/
theorem Stp.step_sound (h : (st.step f m base ps d).2.broke = false) :
    st.broke = false ∧ f.isFin (st.step f m base ps d).1 = true ∧ StepOf f m base ps d (st.step f m base ps d).1 := by
  unfold Stp.step at h ⊢
  cases hb : st.broke with
  | true =>
    rw [if_pos hb] at h
    exact absurd (hb.symm.trans h) (by decide)
  | false =>
    rw [if_neg (ne_true_of_eq_false hb)] at h
    rw [if_neg Bool.false_ne_true]
    cases d with
    | none => exact ⟨rfl, (Stp.out_broke h).2, _, rfl⟩
    | some q => exact ⟨rfl, (Stp.out_broke h).2, _, rfl⟩

end Step

section Loop

/-- A loop of steps, each of which writes its value at a key. -/
def putLoop (key : Nat → Nat) (body : Tab Nat × Stp → Nat → Nat × Stp) (is : List Nat) (q : Tab Nat × Stp) : Tab Nat × Stp :=
  is.foldl (fun q i => (Tab.put q.1 (key i) (body q i).1, (body q i).2)) q

/-- Steps that leave nothing broken had nothing broken before them (R206). -/
def Unbreaking (body : Tab Nat × Stp → Nat → Nat × Stp) : Prop := ∀ q i, (body q i).2.broke = false → q.2.broke = false

variable {key : Nat → Nat} {body : Tab Nat × Stp → Nat → Nat × Stp} {is : List Nat} {q : Tab Nat × Stp}

theorem putLoop_other {k : Nat} (h : ∀ i ∈ is, key i ≠ k) : Tab.get (putLoop key body is q).1 0 k = Tab.get q.1 0 k := by
  unfold putLoop
  induction is generalizing q with
  | nil => rfl
  | cons i is ih =>
    rw [List.foldl_cons, ih (fun a ha => h a (List.mem_cons_of_mem _ ha))]
    exact Tab.get_put_other _ _ _ (h i List.mem_cons_self).symm

theorem putLoop_unbreaking (hb : Unbreaking body) (h : (putLoop key body is q).2.broke = false) : q.2.broke = false := by
  unfold putLoop at h
  induction is generalizing q with
  | nil => exact h
  | cons i is ih => exact hb q i (ih h)

/-- A value that a loop writes is that of its step, on a table that has the writes before it and none from it on. -/
theorem putLoop_entry (hb : Unbreaking body) (hk : (is.map key).Nodup) (h : (putLoop key body is q).2.broke = false) {i : Nat} (hi : i ∈ is) :
    ∃ as bs u, is = as ++ i :: bs ∧ (body u i).2.broke = false ∧ Tab.get (putLoop key body is q).1 0 (key i) = (body u i).1
      ∧ (∀ k, (∀ a ∈ as, key a ≠ k) → Tab.get u.1 0 k = Tab.get q.1 0 k)
      ∧ ∀ k, (∀ b ∈ i :: bs, key b ≠ k) → Tab.get u.1 0 k = Tab.get (putLoop key body is q).1 0 k := by
  obtain ⟨as, bs, rfl⟩ := List.append_of_mem hi
  have hsplit : putLoop key body (as ++ i :: bs) q = putLoop key body (i :: bs) (putLoop key body as q) := List.foldl_append
  have hcons : ∀ u : Tab Nat × Stp, putLoop key body (i :: bs) u = putLoop key body bs (Tab.put u.1 (key i) (body u i).1, (body u i).2) := fun _ => rfl
  refine ⟨as, bs, putLoop key body as q, rfl, ?_, ?_, fun k hk => putLoop_other hk, fun k hk => ?_⟩
  · rw [hsplit, hcons] at h
    exact putLoop_unbreaking hb h
  · rw [hsplit, hcons, putLoop_other, Tab.get_put_same]
    rw [List.map_append, List.map_cons, List.nodup_append] at hk
    intro b hb' heq
    exact (List.nodup_cons.1 hk.2.1).1 (heq ▸ List.mem_map_of_mem hb')
  · rw [hsplit, putLoop_other hk]

/-- The rows or columns after one (R202, R204). -/
def laterThan (n k : Nat) : List Nat := (List.range n).filter (fun i => decide (k < i))

theorem mem_laterThan {n k i : Nat} : i ∈ laterThan n k ↔ k < i ∧ i < n := by simp [laterThan, and_comm]

theorem nodup_map_laterThan (n k : Nat) {key : Nat → Nat} (h : Function.Injective key) : ((laterThan n k).map key).Nodup :=
  (List.nodup_range.filter _).map h

end Loop

end Sys2Proof.Machine
end

/-! MCHOL (R202, R206): column after column of the factor. -/

section
namespace Sys2Proof.Machine

/-- The exact sum of R202 for row `i` of column `j`. -/
def cholSum (f : Fmt) (A L : Nat → Nat → Nat) (j i : Nat) : Rat2 :=
  sumReal (f.decode (A i j) :: (List.range j).map (fun k => ((f.decode (L i k)).mulTerm (f.decode (L j k))).1.negate))

/-- Column `j` of the factor by the recurrence of R202. -/
def CholCol (f : Fmt) (m : RMode) (n : Nat) (A L : Nat → Nat → Nat) (j : Nat) : Prop :=
  0 < (cholSum f A L j j).num ∧ L j j = (f.round m false (sqrtReal (cholSum f A L j j))).1
    ∧ ∀ i, j < i → i < n → ∃ z, L i j = (f.round m z ((cholSum f A L j i).div (f.decode (L j j)).real)).1

theorem cholOf_iff (f : Fmt) (m : RMode) (n : Nat) (A L : Nat → Nat → Nat) :
    CholOf f m n A L ↔ (∀ i j, i < n → j < n → i < j → L i j = 0) ∧ ∀ j, j < n → CholCol f m n A L j := Iff.rfl

section Columns
variable {f : Fmt} {m : RMode} {n : Nat} {A L L' : Nat → Nat → Nat} {j : Nat}

theorem cholSum_congr (h : ∀ i k, i < n → k < j → L' i k = L i k) {i : Nat} (hi : i < n) (hj : j < n) : cholSum f A L' j i = cholSum f A L j i := by
  unfold cholSum
  congr 2
  refine List.map_congr_left fun k hk => ?_
  rw [h i k hi (List.mem_range.1 hk), h j k hj (List.mem_range.1 hk)]

/-- A column depends on the columns up to it alone. -/
theorem CholCol.congr (hc : CholCol f m n A L j) (hj : j < n) (h : ∀ i k, i < n → k ≤ j → L' i k = L i k) : CholCol f m n A L' j := by
  obtain ⟨hpos, hdiag, hrows⟩ := hc
  have hsum : ∀ i, i < n → cholSum f A L' j i = cholSum f A L j i := fun i hi =>
    cholSum_congr (fun i k hi hk => h i k hi (Nat.le_of_lt hk)) hi hj
  refine ⟨hsum j hj ▸ hpos, by rw [hsum j hj, h j j hj (le_refl j), hdiag], fun i hji hi => ?_⟩
  obtain ⟨z, hz⟩ := hrows i hji hi
  exact ⟨z, by rw [hsum i hi, h j j hj (le_refl j), h i j hi (le_refl j), hz]⟩

/-- The step of row `i` of column `j`. -/
def cholStep (f : Fmt) (m : RMode) (A : Nat → Nat → Nat) (j : Nat) (q : Tab Nat × Stp) (i : Nat) : Nat × Stp :=
  q.2.step f m (A i j) ((List.range j).map (fun k => (wel q.1 i k, wel q.1 j k))) (some (wel q.1 j j))

/-- The diagonal element of column `j`. -/
def cholDiag (f : Fmt) (m : RMode) (A : Nat → Nat → Nat) (j : Nat) (t : Tab Nat) (st : Stp) : Nat × Stp :=
  if st.broke then (f.nanBits, st) else st.out f (f.round m false (sqrtReal (cholSum f A (wel t) j j)))

/-- One column of MCHOL. -/
def cholCol (f : Fmt) (m : RMode) (n : Nat) (A : Nat → Nat → Nat) (acc : Tab Nat × Stp × Bool) (j : Nat) : Tab Nat × Stp × Bool :=
  if acc.2.2 then acc
  else if !acc.2.1.broke && decide ((cholSum f A (wel acc.1) j j).num ≤ 0) then (acc.1, acc.2.1, true)
  else
    let p := cholDiag f m A j acc.1 acc.2.1
    let r := putLoop (fun i => 6 * i + j) (cholStep f m A j) (laterThan n j) (wput acc.1 j j p.1, p.2)
    (r.1, r.2, false)

theorem cholCols_eq (f : Fmt) (m : RMode) (n : Nat) (A : Nat → Nat → Nat) :
    cholCols f m n A = (List.range n).foldl (cholCol f m n A) ([], {}, false) := rfl

theorem cholStep_unbreaking (f : Fmt) (m : RMode) (A : Nat → Nat → Nat) (j : Nat) : Unbreaking (cholStep f m A j) :=
  fun _ _ h => (Stp.step_sound h).1

/-- The rows below the diagonal of column `j`. -/
def cholRows (f : Fmt) (m : RMode) (n : Nat) (A : Nat → Nat → Nat) (j : Nat) : Tab Nat × Stp → Tab Nat × Stp :=
  putLoop (fun i => 6 * i + j) (cholStep f m A j) (laterThan n j)

theorem cholRows_other {q : Tab Nat × Stp} (hj : j < 6) {i k : Nat} (hk : k < 6) (h : k ≠ j ∨ i ≤ j) :
    wel (cholRows f m n A j q).1 i k = wel q.1 i k :=
  putLoop_other fun a ha heq => by
    have := (mem_laterThan.1 ha).1
    omega

/-- The rows below the diagonal of a column, none broken, are those of the recurrence. -/
theorem cholRows_sound {q : Tab Nat × Stp} (hn : n ≤ 6) (hj : j < n) (h : (cholRows f m n A j q).2.broke = false) {i : Nat} (hji : j < i) (hi : i < n) :
    ∃ z, wel (cholRows f m n A j q).1 i j
      = (f.round m z ((cholSum f A (wel (cholRows f m n A j q).1) j i).div (f.decode (wel (cholRows f m n A j q).1 j j)).real)).1 := by
  obtain ⟨as, bs, u, his, hu, hval, hbefore, -⟩ := putLoop_entry (cholStep_unbreaking f m A j)
    (nodup_map_laterThan n j fun a b hab => by simpa using hab) h (mem_laterThan.2 ⟨hji, hi⟩)
  have hread : ∀ i k, k < 6 → k ≠ j ∨ i ≤ j → wel u.1 i k = wel (cholRows f m n A j q).1 i k := fun i k hk hik => by
    rw [cholRows_other (by omega) hk hik]
    refine hbefore _ fun a ha heq => ?_
    have := (mem_laterThan.1 (his ▸ List.mem_append_left _ ha : a ∈ laterThan n j)).1
    omega
  obtain ⟨-, -, z, hz⟩ := Stp.step_sound hu
  refine ⟨z, hval.trans (hz.trans ?_)⟩
  rw [hread j j (by omega) (Or.inr (le_refl j)), List.map_map]
  have hsum : cholSum f A (wel (cholRows f m n A j q).1) j i = cholSum f A (wel u.1) j i := by
    unfold cholSum
    congr 2
    refine List.map_congr_left fun k hk => ?_
    have hkj := List.mem_range.1 hk
    rw [hread i k (by omega) (Or.inl (by omega)), hread j k (by omega) (Or.inl (by omega))]
  rw [hsum]
  rfl

/-- A column after which no flag is due: it is the recurrence's, and nothing else has changed. -/
theorem cholCol_sound {acc : Tab Nat × Stp × Bool} (hn : n ≤ 6) (hj : j < n) (hp : (cholCol f m n A acc j).2.2 = false)
    (hb : (cholCol f m n A acc j).2.1.broke = false) :
    acc.2.2 = false ∧ acc.2.1.broke = false ∧ CholCol f m n A (wel (cholCol f m n A acc j).1) j
      ∧ ∀ i k, k < 6 → k ≠ j ∨ i < j → wel (cholCol f m n A acc j).1 i k = wel acc.1 i k := by
  have hstop : acc.2.2 = false := by
    by_contra hs
    rw [cholCol, if_pos (eq_true_of_ne_false hs)] at hp
    exact hs hp
  have hpos : ¬(!acc.2.1.broke && decide ((cholSum f A (wel acc.1) j j).num ≤ 0)) = true := fun hs => by
    rw [cholCol, if_neg (ne_true_of_eq_false hstop), if_pos hs] at hp
    exact Bool.false_ne_true hp.symm
  have heq : cholCol f m n A acc j = ((cholRows f m n A j (wput acc.1 j j (cholDiag f m A j acc.1 acc.2.1).1, (cholDiag f m A j acc.1 acc.2.1).2)).1,
      (cholRows f m n A j (wput acc.1 j j (cholDiag f m A j acc.1 acc.2.1).1, (cholDiag f m A j acc.1 acc.2.1).2)).2, false) := by
    rw [cholCol, if_neg (ne_true_of_eq_false hstop), if_neg hpos]
    rfl
  rw [heq] at hb ⊢
  have hdiag : (cholDiag f m A j acc.1 acc.2.1).2.broke = false := putLoop_unbreaking (cholStep_unbreaking f m A j) hb
  have hst : acc.2.1.broke = false := by
    by_contra hs
    rw [cholDiag, if_pos (eq_true_of_ne_false hs)] at hdiag
    exact hs hdiag
  have hval : (cholDiag f m A j acc.1 acc.2.1).1 = (f.round m false (sqrtReal (cholSum f A (wel acc.1) j j))).1 := by
    rw [cholDiag, if_neg (ne_true_of_eq_false hst)]
    rfl
  generalize cholDiag f m A j acc.1 acc.2.1 = p at *
  have hkeep : ∀ i k, k < 6 → k ≠ j ∨ i < j → wel (cholRows f m n A j (wput acc.1 j j p.1, p.2)).1 i k = wel acc.1 i k := fun i k hk hik => by
    rw [cholRows_other (by omega) hk (by omega), wel_wput _ _ _ _ (by omega) hk, if_neg (by omega)]
  have hsum : cholSum f A (wel (cholRows f m n A j (wput acc.1 j j p.1, p.2)).1) j j = cholSum f A (wel acc.1) j j :=
    cholSum_congr (n := n) (fun i k _ hk => hkeep i k (by omega) (Or.inl (by omega))) hj hj
  refine ⟨hstop, hst, ⟨?_, ?_, fun i hji hi => cholRows_sound hn hj hb hji hi⟩, hkeep⟩
  · rw [hsum]
    simpa [hst] using hpos
  · rw [hsum, cholRows_other (by omega) (by omega) (Or.inr (le_refl j)), wel_wput _ _ _ _ (by omega) (by omega), if_pos ⟨rfl, rfl⟩, hval]

/-- The factor after its first columns, while no flag is due. -/
theorem cholCols_sound (hn : n ≤ 6) {k : Nat} (hk : k ≤ n) (hp : ((List.range k).foldl (cholCol f m n A) ([], {}, false)).2.2 = false)
    (hb : ((List.range k).foldl (cholCol f m n A) ([], {}, false)).2.1.broke = false) :
    (∀ i j, j < 6 → i < j ∨ k ≤ j → wel ((List.range k).foldl (cholCol f m n A) ([], {}, false)).1 i j = 0)
      ∧ ∀ j, j < k → CholCol f m n A (wel ((List.range k).foldl (cholCol f m n A) ([], {}, false)).1) j := by
  induction k with
  | zero => exact ⟨fun _ _ _ _ => rfl, fun j hj => absurd hj (Nat.not_lt_zero j)⟩
  | succ k ih =>
    rw [List.range_succ, List.foldl_append, List.foldl_cons, List.foldl_nil] at hp hb ⊢
    obtain ⟨hp', hb', hcol, hkeep⟩ := cholCol_sound hn hk hp hb
    obtain ⟨hzero, hcols⟩ := ih (by omega) hp' hb'
    refine ⟨fun i j hj hij => ?_, fun j hj => ?_⟩
    · rw [hkeep i j hj (by omega)]
      exact hzero i j hj (by omega)
    · rcases Nat.lt_succ_iff_lt_or_eq.1 hj with hlt | rfl
      · exact (hcols j hlt).congr (by omega) fun i k' _ hk' => hkeep i k' (by omega) (Or.inl (by omega))
      · exact hcol

/-- MCHOL without a flag gives the factor of its recurrence (R202). -/
theorem cholCols_factor (hn : n ≤ 6) (hp : (cholCols f m n A).2.2 = false) (hb : (cholCols f m n A).2.1.broke = false) :
    CholOf f m n A (wel (cholCols f m n A).1) := by
  rw [cholCols_eq] at hp hb ⊢
  obtain ⟨hzero, hcols⟩ := cholCols_sound hn (le_refl n) hp hb
  exact (cholOf_iff ..).2 ⟨fun i j _ hj hij => hzero i j (by omega) (Or.inl hij), hcols⟩

/-- A sum of one term has the sign of its value. -/
theorem sumReal_singleton_num (x : FVal) : (sumReal [x]).num = x.real.num := by
  have hadd : (Rat2.add (.ofInt 0) x.real).num = x.real.num := by
    unfold Rat2.add Rat2.ofInt
    dsimp only
    split
    · exact Int.zero_add _
    next hden =>
      split
      next hmod => exact absurd (Nat.dvd_one.1 (Nat.dvd_of_mod_eq_zero hmod)).symm hden
      · rw [if_pos (Nat.mod_one _)]
        simp
  exact hadd

/-- A first diagonal element that is not positive ends MCHOL with no column written (R202). -/
theorem cholCols_stopped (hn : n ≠ 0) (h : (f.decode (A 0 0)).real.num ≤ 0) : cholCols f m n A = ([], {}, true) := by
  have hstay : ∀ js : List Nat, js.foldl (cholCol f m n A) ([], {}, true) = ([], {}, true) := fun js => by
    induction js with
    | nil => rfl
    | cons j js ih => exact ih
  obtain ⟨k, rfl⟩ := Nat.exists_eq_succ_of_ne_zero hn
  have hfirst : cholCol f m (k + 1) A ([], {}, false) 0 = ([], {}, true) := by
    have hsum : (cholSum f A (wel []) 0 0).num ≤ 0 := by
      rw [← sumReal_singleton_num] at h
      exact h
    unfold cholCol
    simp [hsum]
  rw [cholCols_eq, List.range_succ_eq_map, List.foldl_cons, hfirst, hstay]

end Columns

end Sys2Proof.Machine
end

/-! MLU (R204): the exchange of rows and the choice of the pivot. -/

section
namespace Sys2Proof.Machine

section Magnitudes
variable {f : Fmt} {x y : Nat}

/-- The rational number of a numerator and a denominator. -/
def Rat2.val (q : Rat2) : ℚ := (q.num : ℚ) / (q.den : ℚ)

theorem Rat2.lt_eq {p q : Rat2} (hp : 0 < p.den) (hq : 0 < q.den) : p.lt q = decide (p.val < q.val) := by
  unfold Rat2.lt Rat2.val
  rw [decide_eq_decide, div_lt_div_iff₀ (by exact_mod_cast hp) (by exact_mod_cast hq)]
  exact_mod_cast Iff.rfl

theorem Rat2.den_dyadic (n e : Int) : 0 < (Rat2.dyadic n e).den := by
  unfold Rat2.dyadic
  split
  · exact Nat.one_pos
  · exact Nat.two_pow_pos _

theorem magOf_den (f : Fmt) (x : Nat) : 0 < (magOf f x).den := by
  unfold magOf Fmt.decode
  simp only
  split
  next q h =>
    split at h
    · split at h
      · exact nomatch h
      · exact nomatch h
    · split at h
      · cases h
        exact Rat2.den_dyadic _ _
      · cases h
        exact Rat2.den_dyadic _ _
  · exact Nat.one_pos

/-- The magnitudes of finite encodings are compared as numbers (R204). -/
theorem magGt_finite (hx : f.isFin x = true) (hy : f.isFin y = true) : magGt f x y = decide ((magOf f y).val < (magOf f x).val) := by
  rw [← Rat2.lt_eq (magOf_den f y) (magOf_den f x)]
  unfold Fmt.isFin at hx hy
  unfold magGt magOf
  cases hdx : f.decode x with
  | nan _ => simp [hdx, FVal.isNan] at hx
  | inf _ => simp [hdx, FVal.isInf] at hx
  | fin _ p =>
    cases hdy : f.decode y with
    | nan _ => simp [hdy, FVal.isNan] at hy
    | inf _ => simp [hdy, FVal.isInf] at hy
    | fin _ q => rfl

end Magnitudes

section Pivot

/-- The row that a scan of the later ones keeps: the first that no later one exceeds. -/
def scanBest (gt : Nat → Nat → Bool) (n k : Nat) : Nat := (laterThan n k).foldl (fun p i => if gt i p then i else p) k

theorem laterThan_succ {n k : Nat} (h : k < n) : laterThan (n + 1) k = laterThan n k ++ [n] := by
  simp [laterThan, List.range_succ, h]

theorem scanBest_succ {gt : Nat → Nat → Bool} {n k : Nat} (h : k < n) :
    scanBest gt (n + 1) k = if gt n (scanBest gt n k) then n else scanBest gt n k := by
  unfold scanBest
  rw [laterThan_succ h, List.foldl_append]
  rfl

theorem scanBest_first (gt : Nat → Nat → Bool) (k : Nat) : scanBest gt (k + 1) k = k := by
  have hnil : laterThan (k + 1) k = [] := List.eq_nil_iff_forall_not_mem.2 fun i hi => by
    have := mem_laterThan.1 hi
    omega
  unfold scanBest
  rw [hnil]
  rfl

theorem scanBest_bounds (gt : Nat → Nat → Bool) {n k : Nat} (h : k < n) : k ≤ scanBest gt n k ∧ scanBest gt n k < n := by
  induction n, h using Nat.le_induction with
  | base =>
    rw [scanBest_first]
    exact ⟨le_refl k, Nat.lt_succ_self k⟩
  | succ n hn ih =>
    rw [scanBest_succ hn]
    split
    · exact ⟨by omega, Nat.lt_succ_self n⟩
    · exact ⟨ih.1, by omega⟩

/-- Where the comparison is that of numbers, the scan keeps the lowest row of the greatest (R204). -/
theorem scanBest_greatest {gt : Nat → Nat → Bool} {v : Nat → ℚ} {n k : Nat} (h : k < n)
    (hgt : ∀ i p, k ≤ i → i < n → k ≤ p → p < n → gt i p = decide (v p < v i)) :
    (∀ i, k ≤ i → i < n → v i ≤ v (scanBest gt n k)) ∧ ∀ i, k ≤ i → i < scanBest gt n k → v i < v (scanBest gt n k) := by
  induction n, h using Nat.le_induction with
  | base =>
    rw [scanBest_first]
    exact ⟨fun i hk hi => by rw [show i = k by omega], fun i hk hi => absurd hi (by omega)⟩
  | succ n hn ih =>
    obtain ⟨hmax, hlow⟩ := ih (fun i p hi hi' hp hp' => hgt i p hi (by omega) hp (by omega))
    obtain ⟨hk, hlt⟩ := scanBest_bounds gt hn
    rw [scanBest_succ hn, hgt n _ (by omega) (by omega) hk (by omega)]
    by_cases hv : v (scanBest gt n k) < v n
    · rw [if_pos (decide_eq_true hv)]
      have hall : ∀ i, k ≤ i → i < n → v i < v n := fun i hi hi' => lt_of_le_of_lt (hmax i hi hi') hv
      refine ⟨fun i hi hi' => ?_, hall⟩
      rcases Nat.lt_succ_iff_lt_or_eq.1 hi' with hi' | rfl
      · exact le_of_lt (hall i hi hi')
      · exact le_refl _
    · rw [if_neg (by simpa using hv)]
      refine ⟨fun i hi hi' => ?_, hlow⟩
      rcases Nat.lt_succ_iff_lt_or_eq.1 hi' with hi' | rfl
      · exact hmax i hi hi'
      · exact not_lt.1 hv

end Pivot

section Exchange

/-- An exchange of rows, column by column (R204, R205). -/
theorem wel_wswap (t : Tab Nat) (p k : Nat) {n : Nat} (hn : n ≤ 6) (i : Nat) {j : Nat} (hj : j < 6) :
    wel (wswap n t p k) i j = if j < n then wel t (swapped p k i) j else wel t i j := by
  have hgo : ∀ d ≤ n, wel ((List.range d).foldl (fun (acc : Tab Nat) j => wput (wput acc p j (wel t k j)) k j (wel t p j)) t) i j
      = if j < d then wel t (swapped p k i) j else wel t i j := by
    intro d hd
    induction d with
    | zero => rfl
    | succ d ih =>
      rw [List.range_succ, List.foldl_append, List.foldl_cons, List.foldl_nil, wel_wput _ _ _ _ (by omega) hj, wel_wput _ _ _ _ (by omega) hj, ih (by omega)]
      unfold swapped
      by_cases hjd : j = d
      · subst hjd
        by_cases hik : i = k
        · simp [hik]
        · by_cases hip : i = p
          · subst hip
            simp [hik]
          · simp [hik, hip]
      · have hlt : j < d + 1 ↔ j < d := by omega
        simp [hjd, hlt]
  exact hgo n (le_refl n)

/-- A matrix written cell by cell. -/
theorem wel_fill (r : Nat) {c : Nat} (g : Nat → Nat → Nat) {i j : Nat} (hi : i < r) (hj : j < c) (hc : c ≤ 6) :
    wel ((cells r c).foldl (fun (t : Tab Nat) e => wput t e.1 e.2 (g e.1 e.2)) []) i j = g i j := by
  unfold wel wput
  rw [Tab.get_puts (key := fun e : Nat × Nat => 6 * e.1 + e.2) (v := fun e => g e.1 e.2) (b := g i j), if_pos]
  · exact List.mem_map.2 ⟨(i, j), (mem_cells _ _ _).2 ⟨hi, hj⟩, rfl⟩
  · intro e he heq
    obtain ⟨h1, h2⟩ := cell_unique (by have := ((mem_cells _ _ _).1 he).2; omega) (by omega) heq
    rw [h1, h2]

end Exchange

end Sys2Proof.Machine
end

/-! MLU (R204, R206): one column of the factors. -/

section
namespace Sys2Proof.Machine

section Column
variable {f : Fmt} {m : RMode} {n k : Nat}

/-- The candidates of column `k` (R204), from the working matrix `t`. -/
def luStep (f : Fmt) (m : RMode) (t : Tab Nat) (k : Nat) (q : Tab Nat × Stp) (i : Nat) : Nat × Stp :=
  q.2.step f m (wel t i k) ((List.range k).map (fun a => (wel t i a, wel t a k))) none

def luCands (f : Fmt) (m : RMode) (n : Nat) (t : Tab Nat) (st : Stp) (k : Nat) : Tab Nat × Stp :=
  putLoop (fun i => 6 * 0 + i) (luStep f m t k) (k :: laterThan n k) ([], st)

/-- Candidate `i` of column `k`. -/
def luCand (f : Fmt) (m : RMode) (n : Nat) (acc : Tab Nat × Stp × List Nat × Bool) (k i : Nat) : Nat := wel (luCands f m n acc.1 acc.2.1 k).1 0 i

/-- The pivot of column `k`: after a broken step, the column itself (R204, R206). -/
def luPivot (f : Fmt) (m : RMode) (n : Nat) (acc : Tab Nat × Stp × List Nat × Bool) (k : Nat) : Nat :=
  if acc.2.1.broke then k else scanBest (fun i p => magGt f (luCand f m n acc k i) (luCand f m n acc k p)) n k

/-- Row `k` of U (R204). -/
def luUpperStep (f : Fmt) (m : RMode) (k : Nat) (q : Tab Nat × Stp) (j : Nat) : Nat × Stp :=
  q.2.step f m (wel q.1 k j) ((List.range k).map (fun a => (wel q.1 k a, wel q.1 a j))) none

def luUpper (f : Fmt) (m : RMode) (n k : Nat) : Tab Nat × Stp → Tab Nat × Stp := putLoop (fun j => 6 * k + j) (luUpperStep f m k) (laterThan n k)

/-- Column `k` of L (R204): the quotients of the candidates `c`, or +0 where the pivot is zero. -/
def luLowerStep (f : Fmt) (m : RMode) (k : Nat) (c : Nat → Nat) (zero : Bool) (q : Tab Nat × Stp) (i : Nat) : Nat × Stp :=
  if q.2.broke then (f.nanBits, q.2) else if zero then (0, q.2) else q.2.step f m (c i) [] (some (c k))

def luLower (f : Fmt) (m : RMode) (n k : Nat) (c : Nat → Nat) (zero : Bool) : Tab Nat × Stp → Tab Nat × Stp :=
  putLoop (fun i => 6 * i + k) (luLowerStep f m k c zero) (laterThan n k)

/-- The candidates after the rows are exchanged. -/
def luRow (f : Fmt) (m : RMode) (n : Nat) (acc : Tab Nat × Stp × List Nat × Bool) (k i : Nat) : Nat :=
  if i = k then luCand f m n acc k (luPivot f m n acc k) else if i = luPivot f m n acc k then luCand f m n acc k k else luCand f m n acc k i

/-- Whether the pivot of column `k` is zero. -/
def luZero (f : Fmt) (m : RMode) (n : Nat) (acc : Tab Nat × Stp × List Nat × Bool) (k : Nat) : Bool :=
  !(luCands f m n acc.1 acc.2.1 k).2.broke && (f.decode (luRow f m n acc k k)).isZero

/-- The working matrix with the rows exchanged and the pivot in its place. -/
def luSwap (f : Fmt) (m : RMode) (n : Nat) (acc : Tab Nat × Stp × List Nat × Bool) (k : Nat) : Tab Nat :=
  wput (wswap n acc.1 (luPivot f m n acc k) k) k k (luRow f m n acc k k)

theorem luCol_eq (f : Fmt) (m : RMode) (n : Nat) (acc : Tab Nat × Stp × List Nat × Bool) (k : Nat) :
    let r := luLower f m n k (luRow f m n acc k) (luZero f m n acc k)
      (luUpper f m n k (luSwap f m n acc k, (luCands f m n acc.1 acc.2.1 k).2))
    luCol f m n acc k = (r.1, r.2, acc.2.2.1 ++ [luPivot f m n acc k], acc.2.2.2 || luZero f m n acc k) := rfl

theorem luRow_eq (f : Fmt) (m : RMode) (n : Nat) (acc : Tab Nat × Stp × List Nat × Bool) (k i : Nat) :
    luRow f m n acc k i = luCand f m n acc k (swapped (luPivot f m n acc k) k i) := by
  unfold luRow swapped
  split
  · rfl
  · split <;> rfl

theorem luPivot_bounds (acc : Tab Nat × Stp × List Nat × Bool) (h : k < n) : k ≤ luPivot f m n acc k ∧ luPivot f m n acc k < n := by
  unfold luPivot
  split
  · exact ⟨le_refl k, h⟩
  · exact scanBest_bounds _ h

theorem luStep_unbreaking (t : Tab Nat) : Unbreaking (luStep f m t k) := fun _ _ h => (Stp.step_sound h).1

theorem luUpperStep_unbreaking : Unbreaking (luUpperStep f m k) := fun _ _ h => (Stp.step_sound h).1

theorem luLowerStep_unbreaking (c : Nat → Nat) (zero : Bool) : Unbreaking (luLowerStep f m k c zero) := fun q i h => by
  by_contra hq
  rw [luLowerStep, if_pos (eq_true_of_ne_false hq)] at h
  exact hq h

variable {acc : Tab Nat × Stp × List Nat × Bool}

/-- A candidate, none broken, is a finite step of R204. -/
theorem luCand_sound (h : (luCands f m n acc.1 acc.2.1 k).2.broke = false) {i : Nat} (hki : k ≤ i) (hi : i < n) :
    f.isFin (luCand f m n acc k i) = true
      ∧ StepOf f m (wel acc.1 i k) ((List.range k).map (fun a => (wel acc.1 i a, wel acc.1 a k))) none (luCand f m n acc k i) := by
  have hnd : ((k :: laterThan n k).map (fun i => 6 * 0 + i)).Nodup := by
    refine List.Nodup.map (fun a b hab => by simpa using hab) (List.nodup_cons.2 ⟨fun hk => ?_, List.nodup_range.filter _⟩)
    exact absurd (mem_laterThan.1 hk).1 (lt_irrefl k)
  have hmem : i ∈ k :: laterThan n k := List.mem_cons.2 (by
    rcases Nat.lt_or_eq_of_le hki with h | h
    · exact Or.inr (mem_laterThan.2 ⟨h, hi⟩)
    · exact Or.inl h.symm)
  obtain ⟨-, -, u, -, hu, hval, -, -⟩ := putLoop_entry (luStep_unbreaking acc.1) hnd h hmem
  obtain ⟨-, hfin, hstep⟩ := Stp.step_sound hu
  have heq : luCand f m n acc k i = (luStep f m acc.1 k u i).1 := hval
  rw [heq]
  exact ⟨hfin, hstep⟩

theorem luUpper_other {q : Tab Nat × Stp} {i j : Nat} (hn : n ≤ 6) (hj : j < 6) (h : ¬(i = k ∧ k < j ∧ j < n)) :
    wel (luUpper f m n k q).1 i j = wel q.1 i j :=
  putLoop_other fun a ha heq => by
    have := mem_laterThan.1 ha
    omega

theorem luLower_other {c : Nat → Nat} {zero : Bool} {q : Tab Nat × Stp} {i j : Nat} (hk : k < 6) (hj : j < 6) (h : ¬(j = k ∧ k < i ∧ i < n)) :
    wel (luLower f m n k c zero q).1 i j = wel q.1 i j :=
  putLoop_other fun a ha heq => by
    have := mem_laterThan.1 ha
    omega

/-- Row `k` of U, none broken, is that of R204. -/
theorem luUpper_sound {q : Tab Nat × Stp} (hn : n ≤ 6) (h : (luUpper f m n k q).2.broke = false) {j : Nat} (hkj : k < j) (hj : j < n) :
    StepOf f m (wel q.1 k j) ((List.range k).map (fun a => (wel q.1 k a, wel q.1 a j))) none (wel (luUpper f m n k q).1 k j) := by
  have hinj : Function.Injective (fun j => 6 * k + j) := fun a b hab => by simpa using hab
  obtain ⟨as, bs, u, his, hu, hval, hbefore, -⟩ := putLoop_entry luUpperStep_unbreaking (nodup_map_laterThan n k hinj) h (mem_laterThan.2 ⟨hkj, hj⟩)
  have hread : ∀ i l, l < 6 → (i = k → l = j ∨ l ≤ k) → wel u.1 i l = wel q.1 i l := fun i l hl hil => by
    refine hbefore _ fun a ha heq => ?_
    have hnd := nodup_map_laterThan n k (key := id) Function.injective_id
    have ha' := mem_laterThan.1 (his ▸ List.mem_append_left _ ha : a ∈ laterThan n k)
    rw [List.map_id, his, List.nodup_append] at hnd
    have haj := hnd.2.2 a ha j List.mem_cons_self
    omega
  have hstep : luUpperStep f m k u j = u.2.step f m (wel q.1 k j) ((List.range k).map (fun a => (wel q.1 k a, wel q.1 a j))) none := by
    unfold luUpperStep
    rw [hread k j (by omega) (fun _ => Or.inl rfl)]
    congr 1
    refine List.map_congr_left fun a ha => ?_
    have hak := List.mem_range.1 ha
    rw [hread k a (by omega) (fun _ => Or.inr (by omega)), hread a j (by omega) (fun _ => Or.inl rfl)]
  have heq : wel (luUpper f m n k q).1 k j = (luUpperStep f m k u j).1 := hval
  rw [hstep] at hu
  rw [heq, hstep]
  exact (Stp.step_sound hu).2.2

/-- Column `k` of L, none broken, is that of R204. -/
theorem luLower_sound {c : Nat → Nat} {zero : Bool} {q : Tab Nat × Stp} (h : (luLower f m n k c zero q).2.broke = false) {i : Nat}
    (hki : k < i) (hi : i < n) :
    (zero = true → wel (luLower f m n k c zero q).1 i k = 0)
      ∧ (zero = false → StepOf f m (c i) [] (some (c k)) (wel (luLower f m n k c zero q).1 i k)) := by
  have hinj : Function.Injective (fun i => 6 * i + k) := fun a b hab => by simpa using hab
  obtain ⟨-, -, u, -, hu, hval, -, -⟩ := putLoop_entry (luLowerStep_unbreaking c zero) (nodup_map_laterThan n k hinj) h (mem_laterThan.2 ⟨hki, hi⟩)
  have hub := luLowerStep_unbreaking c zero u i hu
  have heq : wel (luLower f m n k c zero q).1 i k = (luLowerStep f m k c zero u i).1 := hval
  rw [heq]
  unfold luLowerStep at hu ⊢
  rw [if_neg (ne_true_of_eq_false hub)] at hu ⊢
  cases zero with
  | true => exact ⟨fun _ => rfl, fun h => absurd h (by decide)⟩
  | false =>
    rw [if_neg Bool.false_ne_true] at hu ⊢
    exact ⟨fun h => absurd h (by decide), fun _ => (Stp.step_sound hu).2.2⟩

/-- A column after which nothing is broken had nothing broken before or within it. -/
theorem luCol_unbroken (h : (luCol f m n acc k).2.1.broke = false) :
    acc.2.1.broke = false ∧ (luCands f m n acc.1 acc.2.1 k).2.broke = false
      ∧ (luUpper f m n k (luSwap f m n acc k, (luCands f m n acc.1 acc.2.1 k).2)).2.broke = false := by
  have hu := putLoop_unbreaking (luLowerStep_unbreaking _ _) (h : (luLower f m n k (luRow f m n acc k) (luZero f m n acc k)
    (luUpper f m n k (luSwap f m n acc k, (luCands f m n acc.1 acc.2.1 k).2))).2.broke = false)
  have hc := putLoop_unbreaking luUpperStep_unbreaking hu
  exact ⟨putLoop_unbreaking (luStep_unbreaking acc.1) hc, hc, hu⟩

/-- The pivot among finite candidates is the lowest row of the greatest magnitude (R204). -/
theorem luPivot_greatest (h : (luCol f m n acc k).2.1.broke = false) (hk : k < n) :
    (∀ i, k ≤ i → i < n → (magOf f (luCand f m n acc k (luPivot f m n acc k))).lt (magOf f (luCand f m n acc k i)) = false)
      ∧ ∀ i, k ≤ i → i < luPivot f m n acc k → (magOf f (luCand f m n acc k i)).lt (magOf f (luCand f m n acc k (luPivot f m n acc k))) = true := by
  obtain ⟨hst, hc, -⟩ := luCol_unbroken h
  have hp : luPivot f m n acc k = scanBest (fun i p => magGt f (luCand f m n acc k i) (luCand f m n acc k p)) n k := by
    rw [luPivot, if_neg (ne_true_of_eq_false hst)]
  obtain ⟨hmax, hlow⟩ := scanBest_greatest (gt := fun i p => magGt f (luCand f m n acc k i) (luCand f m n acc k p))
    (v := fun i => (magOf f (luCand f m n acc k i)).val) hk fun i p hi hi' hp hp' =>
      magGt_finite (luCand_sound hc hi hi').1 (luCand_sound hc hp hp').1
  rw [← hp] at hmax hlow
  refine ⟨fun i hi hi' => ?_, fun i hi hi' => ?_⟩
  · rw [Rat2.lt_eq (magOf_den _ _) (magOf_den _ _)]
    exact decide_eq_false (not_lt.2 (hmax i hi hi'))
  · rw [Rat2.lt_eq (magOf_den _ _) (magOf_den _ _)]
    exact decide_eq_true (hlow i hi hi')

/-- The working matrix after a column: what neither row `k` of U nor column `k` of L writes is as the exchange left it. -/
theorem luCol_rest (hn : n ≤ 6) (hk : k < n) {i j : Nat} (hj : j < 6) (hrow : ¬(i = k ∧ k < j ∧ j < n)) (hcol : ¬(j = k ∧ k < i ∧ i < n)) :
    wel (luCol f m n acc k).1 i j = wel (luSwap f m n acc k) i j := by
  rw [luCol_eq, luLower_other (by omega) hj hcol, luUpper_other hn hj hrow]

theorem luCol_diag (hn : n ≤ 6) (hk : k < n) : wel (luCol f m n acc k).1 k k = luRow f m n acc k k := by
  rw [luCol_rest hn hk (by omega) (by omega) (by omega)]
  unfold luSwap
  rw [wel_wput _ _ _ _ (by omega) (by omega), if_pos ⟨rfl, rfl⟩]

/-- A column of MLU after which nothing is broken is that of R204. -/
theorem luCol_sound (hn : n ≤ 6) (hk : k < n) (h : (luCol f m n acc k).2.1.broke = false) :
    LuStep f m n k (wel acc.1) (wel (luCol f m n acc k).1) (luPivot f m n acc k) := by
  obtain ⟨hst, hc, hu⟩ := luCol_unbroken h
  obtain ⟨hpk, hpn⟩ := luPivot_bounds (f := f) (m := m) acc hk
  obtain ⟨hmax, hlow⟩ := luPivot_greatest h hk
  have hpiv : luRow f m n acc k k = luCand f m n acc k (luPivot f m n acc k) := if_pos rfl
  have hzero : luZero f m n acc k = (f.decode (luCand f m n acc k (luPivot f m n acc k))).isZero := by
    rw [luZero, hc, hpiv]
    rfl
  have hswap : ∀ i j, j < n → ¬(i = k ∧ j = k) → wel (luSwap f m n acc k) i j = wel acc.1 (swapped (luPivot f m n acc k) k i) j := fun i j hj hij => by
    unfold luSwap
    rw [wel_wput _ _ _ _ (by omega) (by omega), if_neg hij, wel_wswap _ _ _ hn _ (by omega), if_pos hj]
  have hbefore : ∀ a, a < k → swapped (luPivot f m n acc k) k a = a := fun a ha => by
    rw [swapped, if_neg (by omega), if_neg (by omega)]
  have hself : swapped (luPivot f m n acc k) k k = luPivot f m n acc k := if_pos rfl
  refine ⟨luCand f m n acc k, fun i hki hi => (luCand_sound hc hki hi).2, hpk, hpn, hmax, hlow, ?_, fun j hkj hj => ?_, fun i hki hi => ?_,
    fun i j hi hj hrow hcol => ?_⟩
  · rw [luCol_diag hn hk, hpiv]
  · have hstep := luUpper_sound hn hu hkj hj
    rw [luCol_eq, luLower_other (by omega) (by omega) (by omega)]
    rw [hswap k j hj (by omega), hself] at hstep
    have hps : (List.range k).map (fun a => (wel (luSwap f m n acc k) k a, wel (luSwap f m n acc k) a j))
        = (List.range k).map (fun a => (wel acc.1 (luPivot f m n acc k) a, wel acc.1 a j)) := List.map_congr_left fun a ha => by
      have hak := List.mem_range.1 ha
      rw [hswap k a (by omega) (by omega), hself, hswap a j hj (by omega), hbefore a hak]
    rw [hps] at hstep
    exact hstep
  · have hcol : (luZero f m n acc k = true → wel (luCol f m n acc k).1 i k = 0) ∧ (luZero f m n acc k = false →
        StepOf f m (luRow f m n acc k i) [] (some (luRow f m n acc k k)) (wel (luCol f m n acc k).1 i k)) := luLower_sound h hki hi
    rwa [hzero, luRow_eq, hpiv] at hcol
  · rw [luCol_rest hn hk (by omega) (by omega) (by omega)]
    exact hswap i j hj (by omega)

end Column

end Sys2Proof.Machine
end

/-! MLU (R204, R206): the factors, column after column. -/

section
namespace Sys2Proof.Machine

section Factors
variable {f : Fmt} {m : RMode} {n : Nat} {t : Tab Nat}

/-- MLU after its first `k` columns. -/
def luAt (f : Fmt) (m : RMode) (n : Nat) (t : Tab Nat) (k : Nat) : Tab Nat × Stp × List Nat × Bool := (List.range k).foldl (luCol f m n) (t, {}, [], false)

theorem luAt_succ (k : Nat) : luAt f m n t (k + 1) = luCol f m n (luAt f m n t k) k := by
  unfold luAt
  rw [List.range_succ, List.foldl_append]
  rfl

theorem luAt_pivots_succ (k : Nat) : (luAt f m n t (k + 1)).2.2.1 = (luAt f m n t k).2.2.1 ++ [luPivot f m n (luAt f m n t k) k] := by
  rw [luAt_succ, luCol_eq]

theorem luAt_zero_succ (k : Nat) : (luAt f m n t (k + 1)).2.2.2 = ((luAt f m n t k).2.2.2 || luZero f m n (luAt f m n t k) k) := by
  rw [luAt_succ, luCol_eq]

theorem length_luAt (k : Nat) : (luAt f m n t k).2.2.1.length = k := by
  induction k with
  | zero => rfl
  | succ k ih => rw [luAt_pivots_succ, List.length_append, ih]; rfl

/-- The pivot record holds each column's pivot (R204). -/
theorem getD_luAt {k j : Nat} (h : j < k) : (luAt f m n t k).2.2.1.getD j 0 = luPivot f m n (luAt f m n t j) j := by
  induction k with
  | zero => exact absurd h (Nat.not_lt_zero j)
  | succ k ih =>
    rw [luAt_pivots_succ, List.getD_eq_getElem?_getD, List.getElem?_append, length_luAt]
    rcases Nat.lt_succ_iff_lt_or_eq.1 h with h | rfl
    · rw [if_pos h, ← List.getD_eq_getElem?_getD, ih h]
    · simp

theorem luAt_unbroken {k : Nat} (h : (luAt f m n t k).2.1.broke = false) {j : Nat} (hj : j ≤ k) : (luAt f m n t j).2.1.broke = false := by
  induction k with
  | zero => rwa [Nat.le_zero.1 hj]
  | succ k ih =>
    rcases Nat.le_succ_iff.1 hj with hj | rfl
    · rw [luAt_succ] at h
      exact ih (luCol_unbroken h).1 hj
    · exact h

/-- Each column of an MLU with no broken step is that of R204. -/
theorem luAt_step (hn : n ≤ 6) (h : (luAt f m n t n).2.1.broke = false) {k : Nat} (hk : k < n) :
    LuStep f m n k (wel (luAt f m n t k).1) (wel (luAt f m n t (k + 1)).1) ((luAt f m n t n).2.2.1.getD k 0) := by
  have hb := luAt_unbroken h (Nat.succ_le_of_lt hk)
  rw [getD_luAt hk]
  rw [luAt_succ] at hb ⊢
  exact luCol_sound hn hk hb

/-- MLU with no broken step gives the factors and the pivots of its recurrence (R204). -/
theorem luAt_factors (hn : n ≤ 6) {A : Nat → Nat → Nat} (ht : ∀ i j, i < n → j < n → wel t i j = A i j)
    (h : (luAt f m n t n).2.1.broke = false) : LuOf f m n A (wel (luAt f m n t n).1) (luAt f m n t n).2.2.1 :=
  ⟨fun k => wel (luAt f m n t k).1, ht, fun _ hk => luAt_step hn h hk, fun _ _ _ _ => rfl⟩

/-- A diagonal element of U stands once its column is written. -/
theorem luAt_diag (hn : n ≤ 6) (h : (luAt f m n t n).2.1.broke = false) {k j : Nat} (hk : k < j) (hj : j ≤ n) :
    wel (luAt f m n t j).1 k k = wel (luAt f m n t (k + 1)).1 k k := by
  induction j, hk using Nat.le_induction with
  | base => rfl
  | succ j hkj ih =>
    obtain ⟨c, -, hpj, -, -, -, -, -, -, hrest⟩ := luAt_step hn h hj
    rw [hrest k k (by omega) (by omega) (by omega) (by omega), swapped, if_neg (by omega), if_neg (by omega)]
    exact ih (by omega)

/-- ZP says that a pivot is zero (R204). -/
theorem luAt_zero (hn : n ≤ 6) (h : (luAt f m n t n).2.1.broke = false) {j : Nat} (hj : j ≤ n) :
    (luAt f m n t j).2.2.2 = true ↔ ∃ k, k < j ∧ (f.decode (wel (luAt f m n t n).1 k k)).isZero = true := by
  induction j with
  | zero => exact ⟨fun h => absurd h Bool.false_ne_true, fun ⟨k, hk, _⟩ => absurd hk (Nat.not_lt_zero k)⟩
  | succ j ih =>
    have hcol := luAt_unbroken h hj
    rw [luAt_succ] at hcol
    obtain ⟨-, hc, -⟩ := luCol_unbroken hcol
    have hzero : luZero f m n (luAt f m n t j) j = (f.decode (wel (luAt f m n t n).1 j j)).isZero := by
      rw [luAt_diag hn h hj (le_refl n), luAt_succ, luCol_diag hn hj, luZero, hc]
      rfl
    rw [luAt_zero_succ, Bool.or_eq_true, ih (by omega), hzero]
    constructor
    · rintro (⟨k, hk, hz⟩ | hz)
      · exact ⟨k, by omega, hz⟩
      · exact ⟨j, by omega, hz⟩
    · rintro ⟨k, hk, hz⟩
      rcases Nat.lt_succ_iff_lt_or_eq.1 hk with hk | rfl
      · exact Or.inl ⟨k, hk, hz⟩
      · exact Or.inr hz

end Factors

end Sys2Proof.Machine
end

/-! The solve with LU factors (R205, R206): the two substitutions of every column, and the exchanges of rows. -/

section
namespace Sys2Proof.Machine

section Substitution
variable {f : Fmt} {m : RMode} {n : Nat} {lo up : Nat → Nat → Nat} {b : Nat → Nat} {st : Stp}

/-- A step of forward substitution with a unit diagonal (R205). -/
def forwardStep (f : Fmt) (m : RMode) (lo : Nat → Nat → Nat) (b : Nat → Nat) (q : Tab Nat × Stp) (i : Nat) : Nat × Stp :=
  q.2.step f m (b i) ((List.range i).map (fun a => (lo i a, Tab.get q.1 0 a))) none

/-- A step of backward substitution (R205). -/
def backwardStep (f : Fmt) (m : RMode) (n : Nat) (up : Nat → Nat → Nat) (y : Nat → Nat) (q : Tab Nat × Stp) (i : Nat) : Nat × Stp :=
  q.2.step f m (y i) ((laterThan n i).map (fun a => (up i a, Tab.get q.1 0 a))) (some (up i i))

def forward (f : Fmt) (m : RMode) (n : Nat) (lo : Nat → Nat → Nat) (b : Nat → Nat) (st : Stp) : Tab Nat × Stp :=
  putLoop id (forwardStep f m lo b) (List.range n) ([], st)

def backward (f : Fmt) (m : RMode) (n : Nat) (up : Nat → Nat → Nat) (y : Tab Nat × Stp) : Tab Nat × Stp :=
  putLoop id (backwardStep f m n up (Tab.get y.1 0)) (List.range n).reverse ([], y.2)

theorem solveCol_eq (f : Fmt) (m : RMode) (n : Nat) (lo up : Nat → Nat → Nat) (b : Nat → Nat) (st : Stp) :
    solveCol f m n true true false lo up b st
      = ((List.range n).map (Tab.get (backward f m n up (forward f m n lo b st)).1 0), (backward f m n up (forward f m n lo b st)).2) := rfl

theorem forwardStep_unbreaking : Unbreaking (forwardStep f m lo b) := fun _ _ h => (Stp.step_sound h).1

theorem backwardStep_unbreaking {y : Nat → Nat} : Unbreaking (backwardStep f m n up y) := fun _ _ h => (Stp.step_sound h).1

/-- A loop over keys in an order has the keys that come before one written when it is written. -/
theorem putLoop_sorted {R : Nat → Nat → Prop} {body : Tab Nat × Stp → Nat → Nat × Stp} {is : List Nat} {q : Tab Nat × Stp} (hb : Unbreaking body)
    (hs : is.Pairwise R) (hirr : ∀ a, ¬ R a a) (hasym : ∀ a b, R a b → ¬ R b a) (h : (putLoop id body is q).2.broke = false) {i : Nat} (hi : i ∈ is) :
    ∃ u, (body u i).2.broke = false ∧ Tab.get (putLoop id body is q).1 0 i = (body u i).1
      ∧ ∀ a, R a i → Tab.get u.1 0 a = Tab.get (putLoop id body is q).1 0 a := by
  have hnd : (is.map id).Nodup := by
    rw [List.map_id]
    exact hs.imp (S := (· ≠ ·)) fun hab heq => hirr _ (heq ▸ hab)
  obtain ⟨as, bs, u, his, hu, hval, -, hafter⟩ := putLoop_entry hb hnd h hi
  refine ⟨u, hu, hval, fun a ha => hafter a fun e he heq => ?_⟩
  have heq : e = a := heq
  subst heq
  rcases List.mem_cons.1 he with rfl | he
  · exact hirr _ ha
  · rw [his, List.pairwise_append] at hs
    exact hasym _ _ ha ((List.pairwise_cons.1 hs.2.1).1 _ he)

theorem forward_sound (h : (forward f m n lo b st).2.broke = false) {i : Nat} (hi : i < n) :
    StepOf f m (b i) ((List.range i).map (fun a => (lo i a, Tab.get (forward f m n lo b st).1 0 a))) none (Tab.get (forward f m n lo b st).1 0 i) := by
  obtain ⟨u, hu, hval, hread⟩ := putLoop_sorted forwardStep_unbreaking List.pairwise_lt_range lt_irrefl (fun _ _ => Nat.lt_asymm) h (List.mem_range.2 hi)
  have hstep : forwardStep f m lo b u i
      = u.2.step f m (b i) ((List.range i).map (fun a => (lo i a, Tab.get (forward f m n lo b st).1 0 a))) none := by
    unfold forwardStep
    congr 1
    exact List.map_congr_left fun a ha => by rw [hread a (List.mem_range.1 ha)]; rfl
  have heq : Tab.get (forward f m n lo b st).1 0 i = (forwardStep f m lo b u i).1 := hval
  rw [hstep] at hu
  rw [heq, hstep]
  exact (Stp.step_sound hu).2.2

theorem backward_sound {y : Tab Nat × Stp} (h : (backward f m n up y).2.broke = false) {i : Nat} (hi : i < n) :
    StepOf f m (Tab.get y.1 0 i) ((laterThan n i).map (fun a => (up i a, Tab.get (backward f m n up y).1 0 a))) (some (up i i))
      (Tab.get (backward f m n up y).1 0 i) := by
  obtain ⟨u, hu, hval, hread⟩ := putLoop_sorted (R := fun a b => b < a) backwardStep_unbreaking (List.pairwise_reverse.2 List.pairwise_lt_range)
    lt_irrefl (fun _ _ => Nat.lt_asymm) h (List.mem_reverse.2 (List.mem_range.2 hi))
  have hstep : backwardStep f m n up (Tab.get y.1 0) u i
      = u.2.step f m (Tab.get y.1 0 i) ((laterThan n i).map (fun a => (up i a, Tab.get (backward f m n up y).1 0 a))) (some (up i i)) := by
    unfold backwardStep
    congr 1
    exact List.map_congr_left fun a ha => by rw [hread a (mem_laterThan.1 ha).1]; rfl
  have heq : Tab.get (backward f m n up y).1 0 i = (backwardStep f m n up (Tab.get y.1 0) u i).1 := hval
  rw [hstep] at hu
  rw [heq, hstep]
  exact (Stp.step_sound hu).2.2

/-- One column of a solve with no broken step is that of R205. -/
theorem solveCol_sound (h : (solveCol f m n true true false lo up b st).2.broke = false) :
    st.broke = false ∧ ∃ y : Nat → Nat, ∀ i, i < n →
      StepOf f m (b i) ((List.range i).map (fun a => (lo i a, y a))) none (y i)
      ∧ StepOf f m (y i) (((List.range n).filter (fun a => decide (i < a))).map
          (fun a => (up i a, (solveCol f m n true true false lo up b st).1.getD a 0))) (some (up i i))
          ((solveCol f m n true true false lo up b st).1.getD i 0) := by
  rw [solveCol_eq] at h ⊢
  have hy := putLoop_unbreaking backwardStep_unbreaking h
  have hget : ∀ a, a < n → ((List.range n).map (Tab.get (backward f m n up (forward f m n lo b st)).1 0)).getD a 0
      = Tab.get (backward f m n up (forward f m n lo b st)).1 0 a := fun a ha => by
    rw [List.getD_eq_getElem _ _ (by simpa using ha)]
    simp
  refine ⟨putLoop_unbreaking forwardStep_unbreaking hy, Tab.get (forward f m n lo b st).1 0, fun i hi => ⟨forward_sound hy hi, ?_⟩⟩
  have hps : ((List.range n).filter (fun a => decide (i < a))).map
      (fun a => (up i a, ((List.range n).map (Tab.get (backward f m n up (forward f m n lo b st)).1 0)).getD a 0))
      = (laterThan n i).map (fun a => (up i a, Tab.get (backward f m n up (forward f m n lo b st)).1 0 a)) :=
    List.map_congr_left fun a ha => by rw [hget a (mem_laterThan.1 ha).2]
  rw [hps, hget i hi]
  exact backward_sound h hi

end Substitution

section Columns
variable {n c : Nat} {one : Nat → Stp → List Nat × Stp}

/-- A column of a solve, written. -/
def solveStep (n : Nat) (one : Nat → Stp → List Nat × Stp) (q : Tab Nat × Stp) (j : Nat) : Tab Nat × Stp :=
  ((List.range n).foldl (fun (t : Tab Nat) i => wput t i j ((one j q.2).1.getD i 0)) q.1, (one j q.2).2)

theorem solveCols_succ (n c : Nat) (one : Nat → Stp → List Nat × Stp) : solveCols n (c + 1) one = solveStep n one (solveCols n c one) c := by
  unfold solveCols
  rw [List.range_succ, List.foldl_append]
  rfl

theorem wel_solveStep (q : Tab Nat × Stp) {i j j' : Nat} (hi : i < n) (hj : j < 6) (hj' : j' < 6) :
    wel (solveStep n one q j).1 i j' = if j' = j then (one j q.2).1.getD i 0 else wel q.1 i j' := by
  have hmem : 6 * i + j' ∈ (List.range n).map (fun i => 6 * i + j) ↔ j' = j := by
    rw [List.mem_map]
    constructor
    · rintro ⟨a, -, ha⟩
      omega
    · rintro rfl
      exact ⟨i, List.mem_range.2 hi, rfl⟩
  unfold wel solveStep wput
  rw [Tab.get_puts (key := fun i => 6 * i + j) (v := fun i => (one j q.2).1.getD i 0) (b := (one j q.2).1.getD i 0) _ _
    (fun a _ ha => by rw [show a = i by omega])]
  simp only [hmem]

/-- Each column of a solve with no broken step is one solve of its column. -/
theorem solveCols_sound (hone : ∀ j st, (one j st).2.broke = false → st.broke = false) (hc : c ≤ 6)
    (h : (solveCols n c one).2.broke = false) {j : Nat} (hj : j < c) :
    ∃ st, (one j st).2.broke = false ∧ ∀ i, i < n → wel (solveCols n c one).1 i j = (one j st).1.getD i 0 := by
  induction c with
  | zero => exact absurd hj (Nat.not_lt_zero j)
  | succ c ih =>
    rw [solveCols_succ] at h ⊢
    rcases Nat.lt_succ_iff_lt_or_eq.1 hj with hj | rfl
    · obtain ⟨st, hst, hval⟩ := ih (by omega) (hone _ _ h) hj
      refine ⟨st, hst, fun i hi => ?_⟩
      rw [wel_solveStep _ hi (by omega) (by omega), if_neg (by omega), hval i hi]
    · refine ⟨(solveCols n j one).2, h, fun i hi => ?_⟩
      rw [wel_solveStep _ hi (by omega) (by omega), if_pos rfl]

end Columns

section Solve
variable {f : Fmt} {m : RMode} {n c : Nat} {A B : Nat → Nat → Nat} {piv : Nat → Nat}

/-- The right-hand sides after the first `k` exchanges of rows (R205). -/
def exchanged (c : Nat) (piv : Nat → Nat) (t : Tab Nat) (k : Nat) : Tab Nat := (List.range k).foldl (fun (t : Tab Nat) k => wswap c t (piv k) k) t

theorem exchanged_succ (c : Nat) (piv : Nat → Nat) (t : Tab Nat) (k : Nat) :
    exchanged c piv t (k + 1) = wswap c (exchanged c piv t k) (piv k) k := by
  unfold exchanged
  rw [List.range_succ, List.foldl_append]
  rfl

/-- A solve with no broken step solves with the LU factors and their pivots (R205). -/
theorem solveCols_luSolves {t : Tab Nat} (hc : c ≤ 6) (ht : ∀ i j, i < n → j < c → wel t i j = B i j)
    (h : (solveCols n c (fun j st => solveCol f m n true true false A A (fun i => wel (exchanged c piv t n) i j) st)).2.broke = false) :
    LuSolves f m n c A piv B (wel (solveCols n c (fun j st => solveCol f m n true true false A A (fun i => wel (exchanged c piv t n) i j) st)).1) := by
  have hcol : ∀ j, ∃ y : Nat → Nat, j < c → ∀ i, i < n →
      StepOf f m (wel (exchanged c piv t n) i j) ((List.range i).map (fun a => (A i a, y a))) none (y i)
      ∧ StepOf f m (y i) (((List.range n).filter (fun a => decide (i < a))).map (fun a => (A i a,
          wel (solveCols n c (fun j st => solveCol f m n true true false A A (fun i => wel (exchanged c piv t n) i j) st)).1 a j))) (some (A i i))
          (wel (solveCols n c (fun j st => solveCol f m n true true false A A (fun i => wel (exchanged c piv t n) i j) st)).1 i j) := by
    intro j
    by_cases hj : j < c
    · obtain ⟨st, hst, hval⟩ := solveCols_sound (fun j st h => (solveCol_sound h).1) hc h hj
      obtain ⟨-, y, hy⟩ := solveCol_sound hst
      refine ⟨y, fun _ i hi => ⟨(hy i hi).1, ?_⟩⟩
      rw [hval i hi]
      have hps := List.map_congr_left (l := (List.range n).filter (fun a => decide (i < a))) fun a ha =>
        congrArg (fun x => (A i a, x)) (hval a (mem_laterThan.1 ha).2)
      rw [hps]
      exact (hy i hi).2
    · exact ⟨fun _ => 0, fun h => absurd h hj⟩
  choose y hy using hcol
  refine ⟨fun k => wel (exchanged c piv t k), fun i j => y j i, ht, fun k i j _ _ hj => ?_, fun i j hi hj => hy j hj i hi⟩
  dsimp only
  rw [exchanged_succ, wel_wswap _ _ _ hc _ (by omega), if_pos hj]

end Solve

end Sys2Proof.Machine
end

/-! MCHOL, MLU, MSOLC and MSOLL, lane by lane (R196, R202 to R207). -/

section
namespace Sys2Proof.Machine

section Inputs
variable {a : MView}

/-- MCHOL and MSOLC test the diagonal and the lower triangle (R202). -/
theorem MView.finite_low_iff (h : a.r = a.c) : a.finite (fun i j => decide (j ≤ i))
    ↔ (cells a.r a.r).all (fun e => decide (e.1 < e.2) || (mfmt a.ty).isFin (a.el e.1 e.2)) = true := by
  simp only [MView.finite, List.all_eq_true, Prod.forall, mem_cells, decide_eq_true_eq, Bool.or_eq_true, ← h]
  exact ⟨fun hf i j hij => (lt_or_ge i j).imp_right (hf i j hij.1 hij.2), fun hf i j hi hj hij => (hf i j ⟨hi, hj⟩).resolve_left (not_lt.2 hij)⟩

theorem MView.finite_all_iff : a.finite (fun _ _ => true) ↔ (cells a.r a.c).all (fun e => (mfmt a.ty).isFin (a.el e.1 e.2)) = true := by
  simp only [MView.finite, List.all_eq_true, Prod.forall, mem_cells]
  exact ⟨fun hf i j hij => hf i j hij.1 hij.2 trivial, fun hf i j hi hj _ => hf i j ⟨hi, hj⟩⟩

end Inputs

section Results
variable (r c : Nat) (ty : Bool) (rd : List (Nat × Nat)) (mf : BitVec 4) (v : Option (BitVec 6 × Word)) (vr : List (BitVec 6))

/-- A refused lane holds the canonical NaN, with its flags and no FFLAGS (R206). -/
theorem lresNan_gives : (lresNan r c ty rd mf).Gives r c ty (fun _ _ => (mfmt ty).nanBits) mf none ∧ (lresNan r c ty rd mf).ff = 0 :=
  ⟨(lresOf_gives r c ty rd (fun _ _ => ((mfmt ty).nanBits, 0))).withFlags mf none _ [], lresOf_ff_zero r c ty rd (fun _ _ => (mfmt ty).nanBits)⟩

theorem lresNan_gives_with : LRes.Gives { lresNan r c ty rd mf with vec := v, vr := vr } r c ty (fun _ _ => (mfmt ty).nanBits) mf v
    ∧ LRes.ff { lresNan r c ty rd mf with vec := v, vr := vr } = 0 :=
  (lresNan_gives r c ty rd mf).imp_left fun h => h.withFlags mf v _ vr

/-- A worked lane holds its working matrix, with NFN when a step broke (R206). -/
theorem lresWork_gives (t : Tab Nat) (st : Stp) :
    (lresWork r c ty rd t st mf).Gives r c ty (wel t) (mf ||| if st.broke then mfNFN else 0) none :=
  (lresOf_gives r c ty rd (fun i j => (wel t i j, 0))).withFlags _ none st.fl []

theorem lresWork_gives_with (t : Tab Nat) (st : Stp) : LRes.Gives { lresWork r c ty rd t st mf with vec := v, vr := vr } r c ty (wel t)
    (mf ||| if st.broke then mfNFN else 0) v :=
  (lresWork_gives r c ty rd mf t st).withFlags _ v _ vr

end Results

/-- The flag of a stop and that of a broken step are told apart (R206). -/
theorem stop_or_broken_flags (p b : Bool) {mf : BitVec 4} (hmf : mf = mfNPP ∨ mf = mfZP) :
    (((if p then mf else 0) ||| if b then mfNFN else 0) &&& ~~~(mf ||| mfNFN) = 0)
    ∧ (((if p then mf else 0) ||| if b then mfNFN else 0) &&& mfNFN = 0 ↔ b = false)
    ∧ (((if p then mf else 0) ||| if b then mfNFN else 0) &&& mf ≠ 0 ↔ p = true)
    ∧ (((if p then mf else 0) ||| if b then mfNFN else 0) = 0 → p = false ∧ b = false) := by
  obtain rfl | rfl := hmf
  · revert p b; decide
  · revert p b; decide

/-- The positions of a matrix's lower triangle are positions of it (R133). -/
theorem MView.lower_subset_all (a : MView) : a.lower ⊆ a.all := by
  intro p hp
  obtain ⟨e, he, rfl⟩ := List.mem_map.1 hp
  exact List.mem_map.2 ⟨e, List.mem_of_mem_filter he, rfl⟩

/-- The pivot record suits its matrix (R205). -/
theorem pivots_iff {n : Nat} {piv : Nat → Nat} : (∀ k, k < 8 → if k < n then k ≤ piv k ∧ piv k < n else piv k = 0)
    ↔ (List.range 8).any (fun k => if k < n then decide (piv k < k) || decide (n ≤ piv k) else decide (piv k ≠ 0)) = false := by
  rw [List.any_eq_false]
  refine forall_congr' fun k => ?_
  rw [List.mem_range]
  refine imp_congr_right fun _ => ?_
  split
  · simp
  · simp

/-- A broken step alone flags a solve (R206). -/
theorem broken_flag (b : Bool) : ((0 ||| if b then mfNFN else 0) &&& ~~~mfNFN = 0) ∧ ((0 ||| if b then mfNFN else 0) = 0 → b = false) := by
  cases b <;> decide

/-- Settles O51: each instruction is its tests, in their order, and the loops of its recurrence. -/
theorem factorisationsAndSolves : Obligations.FactorisationsAndSolves := by
  unfold Obligations.FactorisationsAndSolves
  intro s c w R X acts nan low all
  have novr : ∀ {vs : List Src}, ∀ v ∈ ([] : List (BitVec 6)), Src.v v ∈ vs := fun _ hv => absurd hv List.not_mem_nil
  have vof : ∀ k : BitVec 6, ∀ v ∈ [k], Src.v v ∈ [Src.v k] := fun k v hv => List.mem_singleton.1 hv ▸ List.mem_singleton_self _
  refine ⟨fun o h => ?mchol, fun o h => ?mlu, fun o h => ?msolc, fun o h => ?msoll⟩
  case mchol =>
    refine ⟨_, State.laneMat_acts (show exec (.mchol o) s = execMchol o s from rfl) h (fun l => ?_),
      fun l _ => ⟨fun hs => ?_, fun h0 hsq hf => ?_, fun h0 hsq hf => ⟨?_, fun hd => ?_⟩⟩⟩
    · have hrd : ∀ p ∈ (w.mview o.a l).lower, ∃ k ∈ [o.a], p ∈ (w.mview k l).all :=
        fun p hp => ⟨o.a, List.mem_singleton_self _, MView.lower_subset_all _ hp⟩
      exact LRes.within_ite (LRes.within_shp novr) (LRes.within_ite (LRes.within_views hrd novr rfl) (LRes.within_views hrd novr rfl))
    · exact LRes.isShp_ite (by simpa using hs)
    all_goals
      simp only [low, MView.finite_low_iff hsq] at hf
      simp only [X, w] at h0 hsq hf
      dsimp only
      rw [if_neg (by simpa [hsq] using h0)]
    · rw [if_pos (by simpa only [Bool.not_eq_true', Bool.not_eq_true] using hf)]
      exact lresNan_gives _ _ _ _ _
    · rw [if_neg (by rw [hf]; decide)]
      obtain ⟨hbits, -, -, hclear⟩ := stop_or_broken_flags _ _ (Or.inl rfl)
      exact ⟨_, _, lresWork_gives _ _ _ _ _ _ _, hbits, fun hmf hn => cholCols_factor hn (hclear hmf).1 (hclear hmf).2⟩
    · rw [if_neg (by rw [hf]; decide), cholCols_stopped h0 hd]
      exact ⟨lresWork_gives _ _ _ _ _ _ _, rfl⟩
  case mlu =>
    refine ⟨_, State.laneMat_acts (show exec (.mlu o) s = execMlu o s from rfl) h (fun l => ?_),
      fun l _ => ⟨fun hs => ?_, fun h0 hsq hf => ?_, fun h0 hsq hf => ?_⟩⟩
    · have hrd : ∀ p ∈ (w.mview o.a l).all, ∃ k ∈ [o.a], p ∈ (w.mview k l).all := fun p hp => ⟨o.a, List.mem_singleton_self _, hp⟩
      exact LRes.within_ite (LRes.within_shp novr) (LRes.within_ite (LRes.within_views hrd novr rfl) (LRes.within_views hrd novr rfl))
    · exact LRes.isShp_ite (by simpa using hs)
    all_goals
      simp only [all, MView.finite_all_iff, ← hsq] at hf
      simp only [X, w] at h0 hsq hf
      dsimp only
      rw [if_neg (by simpa [hsq] using h0)]
    · rw [if_pos (by simpa only [Bool.not_eq_true', Bool.not_eq_true] using hf)]
      exact lresNan_gives_with _ _ _ _ _ _ []
    · rw [if_neg (by rw [hf]; decide)]
      obtain ⟨hbits, hnfn, hzp, -⟩ := stop_or_broken_flags _ _ (Or.inr rfl)
      refine ⟨_, _, _, lresWork_gives_with _ _ _ _ _ _ [] _ _, hbits, length_luAt _, fun k hk => ?_, fun hb hn => ⟨?_, hzp.trans ?_⟩⟩
      · exact (getD_luAt hk).symm ▸ luPivot_bounds _ hk
      · exact luAt_factors hn (fun i j hi hj => wel_fill _ _ hi hj hn) (hnfn.1 hb)
      · exact luAt_zero hn (hnfn.1 hb) le_rfl
  case msolc =>
    refine ⟨_, State.laneMat_acts (show exec (.msolc o) s = execMsolc o s from rfl) h (fun l => ?_),
      fun l _ => ⟨fun hs => ?_, fun h0 hsq hr hty => ⟨fun hf => ?_, fun hfa hfb hd => ?_, fun hfa hfb hd => ?_⟩⟩⟩
    · have hrd : ∀ p ∈ (w.mview o.a l).lower ++ (w.mview o.b l).all, ∃ k ∈ [o.a, o.b], p ∈ (w.mview k l).all := fun p hp =>
        (List.mem_append.1 hp).elim (fun hp => ⟨o.a, by simp, MView.lower_subset_all _ hp⟩) (fun hp => ⟨o.b, by simp, hp⟩)
      exact LRes.within_ite (LRes.within_shp novr) (LRes.within_ite (LRes.within_views hrd novr rfl)
        (LRes.within_ite (LRes.within_views hrd novr rfl) (LRes.within_views hrd novr rfl)))
    · exact LRes.isShp_ite (by simpa [or_assoc] using hs)
    · simp only [low, all, MView.finite_low_iff hsq, MView.finite_all_iff, hr, hty, ← Bool.and_eq_true] at hf
      simp only [X, w] at h0 hsq hr hty hf
      dsimp only
      rw [if_neg (by simpa [hsq, hr, hty] using h0), if_pos (by simpa only [Bool.not_eq_true', Bool.not_eq_true] using hf)]
      exact lresNan_gives _ _ _ _ _
    all_goals
      simp only [low, MView.finite_low_iff hsq] at hfa
      simp only [all, MView.finite_all_iff, hr, hty] at hfb
      simp only [X, w] at h0 hsq hr hty hfa hfb hd
      dsimp only
      rw [if_neg (by simpa [hsq, hr, hty] using h0), if_neg (by rw [hfa, hfb]; decide)]
    · rw [if_pos (by simpa using hd)]
      exact lresNan_gives _ _ _ _ _
    · rw [if_neg (by simpa using hd)]
      exact ⟨_, lresWork_gives _ _ _ _ _ _ _, (broken_flag _).1, rfl⟩
  case msoll =>
    refine ⟨_, State.laneMat_acts (show exec (.msoll o) s = execMsoll o s from rfl) h (fun l => ?_),
      fun l _ => ⟨fun hs => ?_, fun h0 hsq hr hty => ⟨fun hp => ?_, fun hp hf => ?_, fun hp hfa hfb hd => ?_, fun hp hfa hfb hd => ?_⟩⟩⟩
    · have hrd : ∀ p ∈ (w.mview o.a l).all ++ (w.mview o.b l).all, ∃ k ∈ [o.a, o.b], p ∈ (w.mview k l).all := fun p hp => by simpa using hp
      exact LRes.within_ite (LRes.within_shp novr) (LRes.within_ite (LRes.within_shp (vof o.v)) (LRes.within_ite (LRes.within_views hrd (vof o.v) rfl)
        (LRes.within_ite (LRes.within_views hrd (vof o.v) rfl) (LRes.within_views hrd (vof o.v) rfl))))
    · exact LRes.isShp_ite (by simpa [or_assoc] using hs)
    all_goals
      simp only [pivots_iff, ← lmt_eq_el] at hp
      simp only [X, w] at h0 hsq hr hty hp
      dsimp only
      rw [if_neg (by simpa [hsq, hr, hty] using h0)]
    · rw [if_pos (by simpa only [Bool.not_eq_false] using hp)]
      exact LRes.isShp_shp
    · simp only [X, w, all, MView.finite_all_iff, ← hsq, hr, hty, ← Bool.and_eq_true] at hf
      rw [if_neg (by rw [hp]; decide), if_pos (by simpa only [Bool.not_eq_true', Bool.not_eq_true] using hf)]
      exact lresNan_gives_with _ _ _ _ _ none _
    all_goals
      simp only [X, w, all, MView.finite_all_iff, ← hsq] at hfa hd
      simp only [X, w, all, MView.finite_all_iff, hr, hty] at hfb
      rw [if_neg (by rw [hp]; decide), if_neg (by rw [hfa, hfb]; decide)]
    · rw [if_pos (by simpa using hd)]
      exact lresNan_gives_with _ _ _ _ _ none _
    · rw [if_neg (by simpa using hd)]
      obtain ⟨hbits, hclear⟩ := broken_flag _
      refine ⟨_, _, lresWork_gives_with _ _ _ _ _ none _ _ _, hbits, fun hmf hn hc => ?_⟩
      simp only [← lmt_eq_el]
      exact solveCols_luSolves hc (fun i j hi hj => wel_fill _ _ hi hj hc) (hclear hmf)

end Sys2Proof.Machine
end

/-! Stores to the own scratchpad (R239 to R244, R260, R281, R306, R401): what their issue asks beside the places, and the bytes they leave. -/

section
namespace Sys2Proof.Machine

section Placed
variable {s : State} {c : Cur} {m : BitVec 32} {ea : Nat → Word} {off : Nat → Nat} {g n : Nat}

theorem PLane.inPlace_local {p : PLane} {x : Nat} (h : regionOf p.va = .local_ x) : p.inPlace = true := by
  unfold PLane.inPlace
  rw [h]

/-- An address in the local window has no grain to claim (R281). -/
theorem State.storeGrains_local {l x : Nat} {a : Word} {p : Place} (h : regionOf a.toNat = .local_ x) :
    s.storeGrains c { lane := l, va := a, res := .ok p } n = [] := by
  unfold State.storeGrains State.claimGrain
  dsimp only
  rw [h]

theorem mem_placedLanes {pl : Nat → Place} {p : PLane} (h : p ∈ placedLanes m ea pl) :
    ∃ l, m.getLsbD l = true ∧ p = { lane := l, va := (ea l).toNat, place := pl l } := by
  obtain ⟨l, hl, rfl⟩ := List.mem_map.1 h
  exact ⟨l, (mem_lanesOf m l).1 hl, rfl⟩

theorem placedLanes_inPlace {pl : Nat → Place} (h : ∀ l, m.getLsbD l = true → regionOf (ea l).toNat = .local_ (off l)) :
    ∀ p ∈ placedLanes m ea pl, p.inPlace = true := by
  intro p hp
  obtain ⟨l, hl, rfl⟩ := mem_placedLanes hp
  exact PLane.inPlace_local (h l hl)

/-- Scratchpad stores send no sector to the appender (R253). -/
theorem mergeStores_pads {xs : List LaneStore} (h : ∀ x ∈ xs, ∃ g o, x.at_.place = .pad g o) : mergeStores xs = [] := by
  unfold mergeStores
  generalize hacc : ([] : List SecStore) = acc
  rw [← hacc]
  induction xs with
  | nil => rfl
  | cons x xs ih =>
    obtain ⟨g, o, hx⟩ := h x List.mem_cons_self
    rw [List.foldl_cons, hx]
    exact ih (fun y hy => h y (List.mem_cons_of_mem _ hy))

/-- Stores performed at issue count in no counter (R401). -/
theorem storeCounts_own {xs : List LaneStore} (h : ∀ x ∈ xs, (∃ g o, x.at_.place = .pad g o) ∧ x.at_.inPlace = true) :
    storeCounts xs = (0, 0) := by
  unfold storeCounts
  rw [mergeStores_pads fun x hx => (h x hx).1, List.filter_eq_nil_iff.2, List.filter_eq_nil_iff.2]
  · rfl
  · intro x hx
    obtain ⟨⟨g, o, hp⟩, -⟩ := h x hx
    simp [hp]
  · intro x hx
    obtain ⟨⟨g, o, hp⟩, hin⟩ := h x hx
    simp [hp, hin]

theorem State.writeBlocked_pads {xs : List LaneStore} (h : ∀ x ∈ xs, ∃ g o, x.at_.place = .pad g o) : s.writeBlocked xs = none := by
  unfold State.writeBlocked
  rw [List.findSome?_eq_none_iff]
  intro x hx
  obtain ⟨g, o, hp⟩ := h x hx
  rw [hp]

theorem State.storeMoves_pads {xs : List LaneStore} (h : ∀ x ∈ xs, ∃ g o, x.at_.place = .pad g o) : s.storeMoves c xs = [] := by
  unfold State.storeMoves
  rw [mergeStores_pads h]
  rfl

/-- Lanes that are all performed at issue have no lane to be merged with (R269). -/
theorem State.mixedFollow_inPlace {ps : List PLane} (h : ∀ p ∈ ps, p.inPlace = true) : s.mixedFollow c ps n = [] := by
  unfold State.mixedFollow
  rw [List.any_eq_false.2, if_neg Bool.false_ne_true]
  intro p hp
  unfold State.mixedLane
  cases p.place with
  | pad g o => simp [h p hp]
  | mem l a x => simp
  | die o => simp
  | peer q a => simp

theorem State.tlbFills_pads {ps : List PLane} (h : ∀ p ∈ ps, ∃ g o, p.place = .pad g o) : s.tlbFills c ps = s := by
  unfold State.tlbFills State.each
  induction ps with
  | nil => rfl
  | cons p ps ih =>
    obtain ⟨g, o, hp⟩ := h p List.mem_cons_self
    rw [List.foldl_cons, hp]
    exact ih (fun q hq => h q (List.mem_cons_of_mem _ hq))

/-- The bytes that lanes of the own scratchpad store, lanes ascending. -/
def padStores (m : BitVec 32) (off : Nat → Nat) (data : Nat → List Byte) : List (Nat × List Byte) := (lanesOf m).map (fun l => (off l, data l))

theorem State.mem_placedStores {pl : Nat → Place} {data : Nat → List Byte} {x : LaneStore} (h : x ∈ s.placedStores c m ea pl data) :
    ∃ l, m.getLsbD l = true ∧ x.at_ = { lane := l, va := (ea l).toNat, place := pl l } := by
  obtain ⟨l, hl, rfl⟩ := List.mem_map.1 h
  exact ⟨l, (mem_lanesOf m l).1 hl, rfl⟩

theorem State.placedStores_own {data : Nat → List Byte} (h : ∀ l, m.getLsbD l = true → regionOf (ea l).toNat = .local_ (off l)) :
    ∀ x ∈ s.placedStores c m ea (fun l => .pad g (off l)) data, (∃ g o, x.at_.place = .pad g o) ∧ x.at_.inPlace = true := by
  intro x hx
  obtain ⟨l, hl, ha⟩ := State.mem_placedStores hx
  rw [ha]
  exact ⟨⟨_, _, rfl⟩, PLane.inPlace_local (h l hl)⟩

/-- Stores of the own scratchpad are writes of its bytes, lanes ascending (R10, R241). -/
theorem State.doStores_own (u : State) {data : Nat → List Byte} (core sl : Nat)
    (h : ∀ l, m.getLsbD l = true → regionOf (ea l).toNat = .local_ (off l)) :
    u.doStores core sl (s.placedStores c m ea (fun l => .pad g (off l)) data)
      = (u.padWrites g (padStores m off data)).modCrew core sl (fun w => w) := by
  have hown := s.placedStores_own (c := c) (g := g) (data := data) h
  unfold State.doStores State.performStores State.each
  rw [storeCounts_own hown, mergeStores_pads fun x hx => (hown x hx).1]
  refine congrArg (fun v : State => v.modCrew core sl (fun w => w)) ?_
  rw [List.foldl_nil]
  generalize u.crewLid core sl = lid
  unfold State.placedStores padStores State.padWrites
  rw [List.foldl_map, List.foldl_map]
  refine List.foldl_ext _ _ _ fun v l hl => ?_
  dsimp only
  rw [if_pos (PLane.inPlace_local (h l ((mem_lanesOf m l).1 hl))), if_neg Bool.false_ne_true]

/-- A machine of which only the slots of cores and the claims of clusters have changed. -/
structure State.SlotsOnly (s u : State) : Prop where
  hbm : u.hbm = s.hbm
  host : u.host = s.host
  groups : u.groups = s.groups
  core : ∀ j, ∃ ws, u.core j = { s.core j with slots := ws }

theorem State.SlotsOnly.setCrew {u : State} (h : s.SlotsOnly u) (k sl : Nat) (w : Crew) : s.SlotsOnly (u.setCrew k sl w) where
  hbm := h.hbm
  host := h.host
  groups := h.groups
  core j := by
    obtain ⟨ws, hu⟩ := h.core j
    obtain ⟨vs, hv⟩ := u.slots_setCrew k sl j w
    exact ⟨vs, by rw [hv, hu]⟩

theorem State.slotsOnly_claimless (s : State) (c : Cur) : s.SlotsOnly (s.claimless c) := ⟨rfl, rfl, rfl, fun _ => ⟨_, rfl⟩⟩

theorem State.SlotsOnly.countBanks {u : State} (h : s.SlotsOnly u) (c : Cur) (ps : List PLane) (n : Nat) : s.SlotsOnly (u.countBanks c ps n) := by
  unfold State.countBanks
  split
  · exact h
  · exact h.setCrew _ _ _

/-- The machine after a store of the own scratchpad, before it retires: `u` has counted the bank conflicts. -/
def State.ownStored (u : State) (c : Cur) (g : Nat) (m : BitVec 32) (off : Nat → Nat) (data : Nat → List Byte) : State :=
  ((u.padWrites g (padStores m off data)).modCrew c.core c.slot (fun w => w)).retire c {}

/-- A store whose lanes all lie in the own scratchpad is performed at its issue (R241, R297, R306). -/
theorem State.storeLanes_own {plain : Bool} {data : Nat → List Byte} {fl : BitVec 32}
    (hp : ∀ l, m.getLsbD l = true → s.placeOf c .store (ea l).toNat n plain = .ok (.pad g (off l)) ∧ regionOf (ea l).toNat = .local_ (off l))
    (hf : s.mustFollow c .store (placedLanes m ea (fun l => .pad g (off l))) n = []) (hcl : (s.cw c).ackCl ≤ 65535) (hsy : (s.cw c).ackSy ≤ 4095) :
    s.storeLanes c (s.laneAccs c .store m ea n plain) n data fl
      = ((s.claimless c).countBanks c (placedLanes m ea (fun l => .pad g (off l))) n).ownStored c g m off data := by
  have hloc : ∀ l, m.getLsbD l = true → regionOf (ea l).toNat = .local_ (off l) := fun l hl => (hp l hl).2
  have hown := s.placedStores_own (c := c) (g := g) (data := data) hloc
  have hpads : ∀ p ∈ placedLanes m ea (fun l => .pad g (off l)), ∃ g o, p.place = .pad g o := by
    intro p hp
    obtain ⟨l, -, rfl⟩ := mem_placedLanes hp
    exact ⟨_, _, rfl⟩
  have hgrains : ∀ l, m.getLsbD l = true → s.storeGrains c { lane := l, va := ea l, res := .ok (.pad g (off l)) } n = [] :=
    fun l hl => State.storeGrains_local (hloc l hl)
  rw [State.storeLanes_placed (data := data) (fun l hl => ⟨(hp l hl).1, by rw [hgrains l hl]; simp⟩) hf
    (State.writeBlocked_pads fun x hx => (hown x hx).1) (State.storeMoves_pads fun x hx => (hown x hx).1)
    (State.mixedFollow_inPlace (placedLanes_inPlace hloc)) (by rw [storeCounts_own hown]; exact hcl) (by rw [storeCounts_own hown]; exact hsy)]
  unfold State.stored State.ownStored
  rw [State.tlbFills_pads hpads, State.doStores_own _ _ _ hloc]

section Left
variable {u : State} {data : Nat → List Byte}

theorem mem_padStores {e : Nat × List Byte} (h : e ∈ padStores m off data) : ∃ l, m.getLsbD l = true ∧ e = (off l, data l) := by
  obtain ⟨l, hl, rfl⟩ := List.mem_map.1 h
  exact ⟨l, (mem_lanesOf m l).1 hl, rfl⟩

theorem State.SlotsOnly.group (h : s.SlotsOnly u) (k : Nat) : u.group k = s.group k := by
  unfold State.group
  rw [h.groups]

/-- What the retirement of a store leaves of a core. -/
theorem State.core_ownStored (u : State) (c : Cur) (g : Nat) (m : BitVec 32) (off : Nat → Nat) (data : Nat → List Byte) (j : Nat) :
    ∃ ws, (u.ownStored c g m off data).core j = { (u.padWrites g (padStores m off data)).core j with slots := ws } := by
  unfold State.ownStored
  rw [State.retire_eq, State.modCrew, State.setCrew_setCrew]
  exact State.slots_setCrew _ _ _ _ _

/-- A store of the own scratchpad leaves HBM, host memory, the operand dies, and the scratchpads of other cores. -/
theorem State.ownStored_frame (h : s.SlotsOnly u) : (u.ownStored c g m off data).hbm = s.hbm ∧ (u.ownStored c g m off data).host = s.host
    ∧ (∀ j, ((u.ownStored c g m off data).core j).die = (s.core j).die)
    ∧ ∀ j, j ≠ (s.group g).core → ((u.ownStored c g m off data).core j).pool = (s.core j).pool := by
  have hw := u.padOnly_padWrites g (padStores m off data)
  refine ⟨hw.memories.1.trans h.hbm, hw.memories.2.trans h.host, fun j => ?_, fun j hj => ?_⟩
  · obtain ⟨ws, ht⟩ := u.core_ownStored c g m off data j
    obtain ⟨vs, hu⟩ := h.core j
    rw [ht]
    exact (hw.die j).trans (by rw [hu])
  · obtain ⟨ws, ht⟩ := u.core_ownStored c g m off data j
    obtain ⟨vs, hu⟩ := h.core j
    rw [ht]
    exact (hw.pool j (by rw [h.group]; exact hj)).trans (by rw [hu])

theorem State.ownStored_pool (h : s.SlotsOnly u) : ((u.ownStored c g m off data).core (s.group g).core).pool
    = ((u.padWrites g (padStores m off data)).core (u.group g).core).pool := by
  obtain ⟨ws, ht⟩ := u.core_ownStored c g m off data (s.group g).core
  rw [ht, h.group]

/-- A byte that no lane stores, outside the checksums of the group's tiles (R243). -/
theorem State.ownStored_other (h : s.SlotsOnly u) (hd : ∀ l, (data l).length = n) {x : Nat}
    (hx : ∀ l, m.getLsbD l = true → x < (s.group g).padBase + off l ∨ (s.group g).padBase + off l + n ≤ x)
    (ht : ∀ i, i < (s.group g).tiles → x < (s.group g).padBase + 4480 * i + 4096 ∨ (s.group g).padBase + 4480 * i + 4352 ≤ x) :
    ((u.ownStored c g m off data).core (s.group g).core).pool.read x = (s.core (s.group g).core).pool.read x := by
  rw [State.ownStored_pool h, State.read_padWrites]
  · obtain ⟨ws, hu⟩ := h.core (u.group g).core
    rw [hu, h.group]
  · intro e he
    obtain ⟨l, hl, rfl⟩ := mem_padStores he
    rw [h.group, hd]
    exact hx l hl
  · rw [h.group]
    exact ht

theorem getD_sramFill_whole (p : Tab Bool) {a i : Nat} {bs : List Byte} (hi : i < bs.length) (ha : a % 8 = 0) (hn : bs.length % 8 = 0) :
    (sramFill p a bs).getD i 0 = bs.getD i 0 := by
  unfold sramFill
  have hw : decide (a ≤ 8 * ((a + i) / 8)) = true ∧ decide (8 * ((a + i) / 8) + 8 ≤ a + bs.length) = true := by
    simp only [decide_eq_true_eq]
    omega
  rw [List.getD_eq_getElem?_getD, List.getD_eq_getElem?_getD]
  simp only [List.getElem?_map, List.getElem?_zipIdx, Option.map_map]
  rw [List.getElem?_eq_getElem hi]
  simp only [Option.map_some, Function.comp_apply, Nat.zero_add, hw.1, hw.2, Bool.and_self, Bool.not_true, Bool.and_false,
    Bool.false_eq_true, if_false]

/-- The bytes of a write of whole words after which no other names them, in a group without tiles (R260). -/
theorem State.read_padWrites_whole (s : State) (g : Nat) (ws vs : List (Nat × List Byte)) (e : Nat × List Byte) {b : Nat}
    (ht : (s.group g).tiles = 0) (hb : b < e.2.length) (ha : ((s.group g).padBase + e.1) % 8 = 0) (hn : e.2.length % 8 = 0)
    (hv : ∀ e' ∈ vs, e.1 + b < e'.1 ∨ e'.1 + e'.2.length ≤ e.1 + b) :
    ((s.padWrites g (ws ++ e :: vs)).core (s.group g).core).pool.read ((s.group g).padBase + e.1 + b) = e.2.getD b 0 := by
  have hw := s.padOnly_padWrites g ws
  have he := hw.trans ((s.padWrites g ws).padOnly_padWrite g e.1 e.2)
  have hsplit : s.padWrites g (ws ++ e :: vs) = ((s.padWrites g ws).padWrite g e.1 e.2).padWrites g vs := by
    unfold State.padWrites
    rw [List.foldl_append, List.foldl_cons]
  have hlast := ((s.padWrites g ws).padWrite g e.1 e.2).read_padWrites g vs (x := (s.group g).padBase + e.1 + b)
    (fun e' h' => by have := hv e' h'; rw [he.group]; omega) (fun k hk => by rw [he.group, ht] at hk; omega)
  rw [he.group] at hlast
  have hc := State.core_padWrite (s.padWrites g ws) g e.1 e.2 (s.group g).core
  rw [hw.group, if_pos rfl, ht, slotsWrite_zero] at hc
  rw [hsplit, hlast, hc]
  dsimp only
  rw [Memory.read_writeBytes, length_sramFill, if_pos (by omega), show (s.group g).padBase + e.1 + b - ((s.group g).padBase + e.1) = b by omega]
  exact getD_sramFill_whole _ hb ha hn

/-- The bytes of a lane that no other lane stores, in a group without tiles: in a word that is not poisoned or is written whole (R260). -/
theorem State.ownStored_bytes (h : s.SlotsOnly u) (hd : ∀ l, (data l).length = n) (ht : (s.group g).tiles = 0) {l q : Nat}
    (hl : m.getLsbD l = true) (hq : q < n)
    (hdis : ∀ j, j ≠ l → m.getLsbD j = true → off l + q < off j ∨ off j + n ≤ off l + q)
    (hp : Tab.get (s.core (s.group g).core).poolPoison false (((s.group g).padBase + off l + q) / 8) = false
      ∨ n % 8 = 0 ∧ ((s.group g).padBase + off l) % 8 = 0) :
    ((u.ownStored c g m off data).core (s.group g).core).pool.read ((s.group g).padBase + off l + q) = (data l).getD q 0 := by
  obtain ⟨as, bs, hs⟩ := List.append_of_mem ((mem_lanesOf m l).2 hl)
  have hn : l ∉ bs := by
    have := nodup_lanesOf m
    rw [hs] at this
    exact (List.nodup_cons.1 (List.nodup_append.1 this).2.1).1
  have hw : padStores m off data = as.map (fun l => (off l, data l)) ++ (off l, data l) :: bs.map (fun l => (off l, data l)) := by
    unfold padStores
    rw [hs, List.map_append, List.map_cons]
  have hv : ∀ e ∈ bs.map (fun l => (off l, data l)), off l + q < e.1 ∨ e.1 + e.2.length ≤ off l + q := by
    intro e he
    obtain ⟨j, hj, rfl⟩ := List.mem_map.1 he
    dsimp only
    rw [hd]
    exact hdis j (fun hjl => hn (hjl ▸ hj)) ((mem_lanesOf m j).1 (by rw [hs]; exact List.mem_append_right _ (List.mem_cons_of_mem _ hj)))
  obtain ⟨ws, hu⟩ := h.core (s.group g).core
  rw [State.ownStored_pool h, hw, ← h.group]
  rw [← h.group] at ht hp hu
  rcases hp with hp | ⟨h8, ha⟩
  · exact u.read_padWrites_last g _ _ (off l, data l) ht (by rw [hd]; exact hq) (by rw [hu]; exact hp) hv
  · exact u.read_padWrites_whole g _ _ (off l, data l) ht (by rw [hd]; exact hq) ha (by rw [hd]; exact h8) hv

/-- The crew after a store of the own scratchpad: event counters apart, as after any instruction that writes no register (R39). -/
theorem State.ownStored_crew {e : Tab Nat} (hu : u.cw c = s.banked c e) :
    ((u.ownStored c g m off data).cw c).v = (s.cw c).v ∧ ((u.ownStored c g m off data).cw c).s = (s.cw c).s
    ∧ ((u.ownStored c g m off data).cw c).m = (s.cw c).m ∧ ((u.ownStored c g m off data).cw c).fflags = (s.cw c).fflags
    ∧ ∀ l, ((u.ownStored c g m off data).cw c).fibre l
      = if c.lanes.getLsbD l then ((s.cw c).fibre l).after c (s.cw c).units c.nextPc else (s.cw c).fibre l := by
  have hc : (u.ownStored c g m off data).cw c = (s.banked c e).retired c {} := by
    have hp : (u.padWrites g (padStores m off data)).crew c.core c.slot = u.crew c.core c.slot := (u.padOnly_padWrites g _).crew _ _
    unfold State.ownStored
    rw [State.retire_eq, State.crew_modCrew_same, hp]
    exact (State.crew_setCrew_same _ _ _ _).trans (congrArg (Crew.retired · c {}) hu)
  have hgo := Crew.wentOn_of (s.banked c e) (s.banked c e) c {} (fun _ => rfl) rfl rfl rfl
  obtain ⟨hv, hs, -, hff, hm⟩ := Crew.retired_regs (w := s.banked c e) (x := s.banked c e) rfl c
  rw [hc]
  exact ⟨hv, hs, hm, hff, hgo.lanes⟩

end Left

end Placed

/-- Pairs of lanes are compared in tandem mode alone (R48). -/
theorem State.pairsDiffer_solo {s : State} {c : Cur} {m : BitVec 32} {xs : Nat → List Word} (h : (s.cw c).tandem = false) :
    s.pairsDiffer c m xs = false := by
  unfold State.pairsDiffer
  rw [h, Bool.false_and]

theorem Crew.primaries_solo {w : Crew} {m : BitVec 32} (h : w.tandem = false) : w.primaries m = m := by
  unfold Crew.primaries
  rw [h, if_neg Bool.false_ne_true]

/-- The bytes of D that a vector store takes in a lane (R306). -/
def Crew.storeBytes (w : Crew) (d : BitVec 6) (n l : Nat) : List Byte :=
  if n = 16 then leBytes 8 (w.val l (.v d)).toNat ++ leBytes 8 (w.val l (.v (d + 1))).toNat else leBytes n (w.val l (.v d)).toNat

theorem Crew.length_storeBytes (w : Crew) (d : BitVec 6) (n l : Nat) : (w.storeBytes d n l).length = n := by
  unfold Crew.storeBytes
  split
  · rw [List.length_append, length_leBytes, length_leBytes]
    omega
  · exact length_leBytes _ _

/-- A vector store whose lanes all lie in the own scratchpad (R241, R306). -/
theorem State.vstore_own {s : State} {c : Cur} {gd : BitVec 3} {a : Src} {ofs : Word} {d : BitVec 6} {n g : Nat} {plain : Bool} {off : Nat → Nat}
    (h : s.Ready c .any false (srcUse a :: .v d.toNat :: (if n = 16 then [.v (d.toNat + 1)] else [])) (gd ≠ 0) (s.act c gd)
      (fun _ => a :: (if n = 16 then [.v d, .v (d + 1)] else [.v d])))
    (ht : (s.cw c).tandem = false) (hcl : (s.cw c).ackCl ≤ 65535) (hsy : (s.cw c).ackSy ≤ 4095)
    (hp : ∀ l, (s.act c gd).getLsbD l = true → s.placeOf c .store ((s.cw c).val l a + ofs).toNat n plain = .ok (.pad g (off l))
      ∧ regionOf ((s.cw c).val l a + ofs).toNat = .local_ (off l))
    (hf : s.mustFollow c .store (placedLanes (s.act c gd) (fun l => (s.cw c).val l a + ofs) (fun l => .pad g (off l))) n = []) :
    s.vstore c gd a ofs d n plain = ((s.claimless c).countBanks c (placedLanes (s.act c gd) (fun l => (s.cw c).val l a + ofs)
      (fun l => .pad g (off l))) n).ownStored c g (s.act c gd) off ((s.cw c).storeBytes d n) := by
  rw [State.vstore_ready h (State.pairsDiffer_solo ht), Crew.primaries_solo ht]
  exact State.storeLanes_own hp hf hcl hsy

/-- Settles O37, by the writes of bytes that its lanes are, one after the other. -/
theorem storeOwnScratchpad : Obligations.StoreOwnScratchpad := by
  unfold Obligations.StoreOwnScratchpad
  intro left body
  have hleft : ∀ {i : Instr} {s : State} {c : Cur} {ps : List PLane} {m : BitVec 32} {off : Nat → Nat} {n : Nat} {data : Nat → List Byte},
      (∀ l, (data l).length = n) → n = 1 ∨ n = 2 ∨ n = 4 ∨ n = 8 ∨ n = 16 →
      exec i s = .next (((s.claimless c).countBanks c ps n).ownStored c (s.cw c).group m off data) →
      ∃ t, exec i s = .next t ∧ left s t c m off n data := by
    intro i s c ps m off n data hd hn hx
    obtain ⟨e, he, -⟩ := (s.claimless c).countBanks_ev c ps n
    have hu := (s.slotsOnly_claimless c).countBanks c ps n
    obtain ⟨hhbm, hhost, hdie, hpool⟩ := State.ownStored_frame (g := (s.cw c).group) (m := m) (off := off) (data := data) (c := c) hu
    exact ⟨_, hx, hhbm, hhost, hdie, hpool, fun x => State.ownStored_other hu hd, fun ht l q hl hq hdis hp =>
      State.ownStored_bytes hu hd ht hl hq hdis (hp.imp_right fun ⟨h8, ha⟩ => ⟨by omega, ha⟩), State.ownStored_crew (e := e) he⟩
  refine ⟨fun p hp o s c off hr ht hcl hsy hpl hf => ?_, fun o s c hgo off hr ht hcl hsy hpl hf => ?_,
    fun o s c off hr h0 ht hcl hsy hpl hreg hf => ?_⟩
  · have hn : p.2 = 1 ∨ p.2 = 2 ∨ p.2 = 4 ∨ p.2 = 8 ∨ p.2 = 16 := by
      simp only [List.mem_cons, List.not_mem_nil, or_false] at hp
      rcases hp with rfl | rfl | rfl | rfl | rfl
      all_goals decide
    have hst := State.vstore_own hr ht hcl hsy hpl hf
    exact hleft (Crew.length_storeBytes _ _ _) hn ((exec_storeRule hp o s).trans ((State.run_cur hr.1 _).trans (congrArg _ hst)))
  · have hst := State.vstore_own hr ht hcl hsy hpl hf
    exact hleft (Crew.length_storeBytes _ _ _) (by decide) (((exec_stlD hr).2 hgo).trans (congrArg _ hst))
  · have hone : maskOf [lowestLane (s.act c o.g)] = BitVec.ofNat 32 (2 ^ lowestLane (s.act c o.g)) := BitVec.zero_or
    have hps : placedLanes (maskOf [lowestLane (s.act c o.g)]) (fun _ => effAddr (s.uval c (c.srcA o.a)) o.off 8) (fun _ => .pad (s.cw c).group off)
        = [{ lane := lowestLane (s.act c o.g), va := (effAddr (s.uval c (c.srcA o.a)) o.off 8).toNat, place := .pad (s.cw c).group off }] := by
      unfold placedLanes
      rw [lanesOf_maskOf_one (lt_of_getLsbD (getLsbD_lowestLane h0))]
      rfl
    have hst := State.storeLanes_own (data := fun _ => leBytes 8 ((s.cw c).sreg (c.dst o.d).toNat).val.toNat) (off := fun _ => off)
      (fl := s.act c o.g) (m := maskOf [lowestLane (s.act c o.g)]) (fun l _ => ⟨hpl, hreg⟩) (by rw [hps]; exact hf) hcl hsy
    have hx := (exec_stuD hr (State.pairsDiffer_solo ht)).trans (congrArg _ ((if_neg h0).trans hst))
    rw [hone] at hx
    exact hleft (fun _ => length_leBytes _ _) (by decide) hx

end Sys2Proof.Machine
end

/-! Loads of the own scratchpad (R239 to R242, R300, R303, R403): they are performed at their issue, lanes ascending, and leave every byte. -/

section
namespace Sys2Proof.Machine

theorem leNat_take (bs : List Byte) (k : Nat) : leNat (bs.take k) = leNat bs % 256 ^ k := by
  induction bs generalizing k with
  | nil => cases k <;> simp [leNat]
  | cons b bs ih =>
    cases k with
    | zero => simp [leNat, Nat.mod_one]
    | succ k =>
      have hb := b.isLt
      rw [List.take_succ_cons, leNat, leNat, ih, Nat.pow_succ', Nat.mod_mul, show (b.toNat + 256 * leNat bs) / 256 = leNat bs by omega]
      omega

theorem leNat_drop (bs : List Byte) (k : Nat) : leNat (bs.drop k) = leNat bs / 256 ^ k := by
  induction bs generalizing k with
  | nil => simp [leNat]
  | cons b bs ih =>
    cases k with
    | zero => simp [leNat]
    | succ k =>
      have hb := b.isLt
      rw [List.drop_succ_cons, leNat, ih, Nat.pow_succ', ← Nat.div_div_eq_div_mul, show (b.toNat + 256 * leNat bs) / 256 = leNat bs by omega]

/-- The signed value of a load is the sign extension of its bytes (R300). -/
theorem loadVal_signed {n : Nat} (hn : 0 < n) (bs : List Byte) : loadVal n true bs = (BitVec.ofNat (8 * n) (leNat bs)).signExtend 64 := by
  have hx := sgn_toNat (BitVec.ofNat (8 * n) (leNat bs)) (by omega)
  unfold loadVal BitVec.signExtend
  rw [if_pos rfl, ← hx]
  unfold sgn
  rw [BitVec.toNat_ofNat, Nat.mod_mod]

/-- A word that is poisoned among those of a part is among those of the whole. -/
theorem mem_wordsOf {a n w : Nat} : w ∈ wordsOf a n ↔ n ≠ 0 ∧ a / 8 ≤ w ∧ w ≤ (a + n - 1) / 8 := by
  unfold wordsOf
  by_cases hn : n = 0
  · simp [hn]
  · rw [if_neg hn, List.mem_map]
    constructor
    · rintro ⟨x, hx, rfl⟩
      have := List.mem_range.1 hx
      exact ⟨hn, by omega, by omega⟩
    · rintro ⟨-, h1, h2⟩
      exact ⟨w - a / 8, List.mem_range.2 (by omega), by omega⟩

/-- A part of a read of on-chip memory whose words are not poisoned (R260). -/
theorem sramRead_part {m : Memory} {p : Tab Bool} {a n : Nat} (h : (sramRead m p a n).2 = false) {i k : Nat} (hi : i + k ≤ n) :
    sramRead m p (a + i) k = (((sramRead m p a n).1.drop i).take k, false) := by
  have hw : (wordsOf (a + i) k).any (fun w => Tab.get p false w) = false := by
    have h : (wordsOf a n).any (fun w => Tab.get p false w) = false := h
    rw [List.any_eq_false] at h ⊢
    intro w hw
    obtain ⟨hk, h1, h2⟩ := mem_wordsOf.1 hw
    exact h w (mem_wordsOf.2 ⟨by omega, by omega, by omega⟩)
  refine Prod.ext ?_ hw
  refine List.ext_getElem (by simp [sramRead]; omega) fun j h1 h2 => ?_
  simp [sramRead, Nat.add_assoc]

/-- The first register's value of a load of the scratchpad, by its bytes (R300). -/
def LoadKind.low (k : LoadKind) (bs : List Byte) : Word :=
  match k with
  | .plain n sg => loadVal n sg bs
  | .quad => loadVal 8 false (bs.take 8)
  | .uniform n => loadVal n false bs
  | .acquire _ => loadVal 8 false bs
  | .nocache => loadVal 8 false bs

/-- What a load writes to a lane: D, of LD.Q the next register also (R300). -/
def Crew.putLoad (w : Crew) (k : LoadKind) (l r : Nat) (bs : List Byte) : Crew :=
  if k = .quad then (w.setVreg l r { val := k.low bs }).setVreg l (r + 1) { val := loadVal 8 false (bs.drop 8) }
  else w.setVreg l r { val := k.low bs }

def Crew.putLoads (w : Crew) (k : LoadKind) (reg : Nat → Nat) (bs : Nat → List Byte) (ls : List Nat) : Crew :=
  ls.foldl (fun w l => w.putLoad k l (reg l) (bs l)) w

theorem Crew.vreg_putLoad (w : Crew) (k : LoadKind) {l l' : Nat} (r r' : Nat) (bs : List Byte) (h : l < 32) (h' : l' < 32) :
    (w.putLoad k l r bs).vreg l' r' = if l' = l ∧ r' = r then { val := k.low bs }
      else if k = .quad ∧ l' = l ∧ r' = r + 1 then { val := loadVal 8 false (bs.drop 8) } else w.vreg l' r' := by
  unfold Crew.putLoad
  by_cases hk : k = .quad
  · rw [if_pos hk, Crew.vreg_setVreg _ _ _ _ _ _ h h', Crew.vreg_setVreg _ _ _ _ _ _ h h']
    by_cases h1 : l' = l ∧ r' = r
    · rw [if_pos h1, if_pos h1, if_neg (by omega)]
    · rw [if_neg h1, if_neg h1]
      simp only [hk, true_and]
  · rw [if_neg hk, Crew.vreg_setVreg _ _ _ _ _ _ h h']
    simp only [hk, false_and, if_false]

theorem Crew.vreg_putLoads (w : Crew) (k : LoadKind) (reg : Nat → Nat) (bs : Nat → List Byte) {ls : List Nat} {l r : Nat} (h : ∀ j ∈ ls, j < 32)
    (hl : l < 32) : (w.putLoads k reg bs ls).vreg l r = if l ∈ ls ∧ r = reg l then { val := k.low (bs l) }
      else if k = .quad ∧ l ∈ ls ∧ r = reg l + 1 then { val := loadVal 8 false ((bs l).drop 8) } else w.vreg l r := by
  unfold Crew.putLoads
  induction ls generalizing w with
  | nil => simp
  | cons j js ih =>
    rw [List.foldl_cons, ih _ fun i hi => h i (List.mem_cons_of_mem _ hi), Crew.vreg_putLoad _ _ _ _ _ (h j List.mem_cons_self) hl]
    by_cases hj : l = j
    · subst hj
      simp only [List.mem_cons, true_or, true_and]
      split <;> split <;> simp_all
    · simp only [List.mem_cons, hj, false_or, false_and, and_false, if_false]

/-- A load changes vector registers alone. -/
theorem Crew.putLoad_rest (w : Crew) (k : LoadKind) (l r : Nat) (bs : List Byte) : w.putLoad k l r bs = { w with v := (w.putLoad k l r bs).v } := by
  unfold Crew.putLoad
  split <;> rfl

theorem Crew.putLoads_rest (w : Crew) (k : LoadKind) (reg : Nat → Nat) (bs : Nat → List Byte) (ls : List Nat) :
    w.putLoads k reg bs ls = { w with v := (w.putLoads k reg bs ls).v } := by
  unfold Crew.putLoads
  induction ls generalizing w with
  | nil => rfl
  | cons j js ih =>
    rw [List.foldl_cons, ih, Crew.putLoad_rest w]

/-- A machine of which the crew of a cursor alone has changed. -/
structure State.CrewOnly (s u : State) (c : Cur) (w : Crew) : Prop where
  slots : s.SlotsOnly u
  crew : u.cw c = w
  set : ∀ x, u.setCrew c.core c.slot x = s.setCrew c.core c.slot x

section Own
variable {s u : State} {c : Cur} {w : Crew}

theorem State.slotsOnly_refl (s : State) : s.SlotsOnly s := ⟨rfl, rfl, rfl, fun _ => ⟨_, rfl⟩⟩

theorem State.CrewOnly.modCrew (h : s.CrewOnly u c w) (f : Crew → Crew) : s.CrewOnly (u.modCrew c.core c.slot f) c (f w) where
  slots := h.slots.setCrew _ _ _
  crew := (State.crew_modCrew_same _ _ _ _).trans (congrArg f h.crew)
  set x := by rw [State.modCrew, State.setCrew_setCrew, h.set]

theorem State.CrewOnly.core (h : s.CrewOnly u c w) (k : Nat) : ∃ ws, u.core k = { s.core k with slots := ws } := h.slots.core k

/-- A read of the scratchpad of a core without a held block finds the same bytes and touches nothing (R241). -/
theorem State.CrewOnly.readPlace (h : s.CrewOnly u c w) {g : Nat} (hg : (Tab.find s.groups g).isSome = true)
    (ha : (s.core (s.group g).core).armed = false) (core sl off n : Nat) (cached : Bool) :
    u.readPlace core sl (.pad g off) n cached = (u, s.padRead g off n) := by
  obtain ⟨ws, hc⟩ := h.core (s.group g).core
  have hgr := h.slots.group g
  have hf : (Tab.find u.groups g).isSome = true := by rw [h.slots.groups]; exact hg
  obtain ⟨r, hr⟩ := Option.isSome_iff_exists.1 hf
  have ht : u.touchPad g off n = u := State.touchPad_unarmed (by rw [hgr, hc]; exact ha) off n
  unfold State.readPlace
  simp only [hr, ht]
  unfold State.padRead
  simp only [hgr, hc]

/-- The halves of LD.Q's sixteen bytes. -/
theorem State.padRead_halves {g off : Nat} (h : (s.padRead g off 16).2 = false) :
    s.padRead g off 8 = ((s.padRead g off 16).1.take 8, false) ∧ s.padRead g (off + 8) 8 = ((s.padRead g off 16).1.drop 8, false) := by
  have h0 := sramRead_part h (i := 0) (k := 8) (by omega)
  have h8 := sramRead_part h (i := 8) (k := 8) (by omega)
  refine ⟨h0, ?_⟩
  show sramRead _ _ _ _ = _
  rw [← Nat.add_assoc, h8, List.take_of_length_le]
  · rfl
  · rw [List.length_drop]
    show (sramRead _ _ _ _).1.length - 8 ≤ 8
    simp [sramRead]

/-- The kinds of vector loads that only read. -/
def LoadKind.reads (k : LoadKind) : Prop :=
  match k with
  | .plain n _ => 0 < n
  | .quad => True
  | .uniform _ => False
  | .acquire _ => False
  | .nocache => True

/-- One lane of a load of the scratchpad: its bytes stand in its registers (R300). -/
theorem State.CrewOnly.loadLane (h : s.CrewOnly u c w) {g : Nat} (hg : (Tab.find s.groups g).isSome = true)
    (ha : (s.core (s.group g).core).armed = false) {k : LoadKind} (hk : k.reads) {off r : Nat} (hp : (s.padRead g off k.size).2 = false)
    (hr : r + 1 < 128) (d l va : Nat) :
    s.CrewOnly (u.loadLane c.core c.slot k d { lane := l, va := va, place := .pad g off, reg := r }) c
      (w.putLoad k l r (s.padRead g off k.size).1) := by
  have hread : ∀ {v : State} {x : Crew}, s.CrewOnly v c x → ∀ off n cached, v.readPlace c.core c.slot (.pad g off) n cached = (v, s.padRead g off n) :=
    fun hv off n cached => hv.readPlace hg ha _ _ off n cached
  have hput : ∀ (x : Crew) (e : Elem), x.putLate 128 l r e = x.setVreg l r e := fun x e => if_pos (by omega)
  have hput' : ∀ (x : Crew) (e : Elem), x.putLate 128 l (r + 1) e = x.setVreg l (r + 1) e := fun x e => if_pos hr
  cases k with
  | plain n sg =>
    have hp : (s.padRead g off n).2 = false := hp
    simp only [State.loadLane, hread h, hput, hp, Bool.false_eq_true, if_false]
    exact h.modCrew _
  | quad =>
    obtain ⟨h0, h8⟩ := State.padRead_halves hp
    have h1 := h.modCrew fun w => w.setVreg l r { val := loadVal 8 false ((s.padRead g off 16).1.take 8) }
    simp only [State.loadLane, hread h, hput, hput', h0, Bool.false_eq_true, if_false, hread h1, h8]
    exact h1.modCrew _
  | uniform n => exact hk.elim
  | acquire sc => exact hk.elim
  | nocache =>
    have hp : (s.padRead g off 8).2 = false := hp
    simp only [State.loadLane, hread h, hput, hp, Bool.false_eq_true, if_false]
    exact h.modCrew _

/-- A load's lanes of the scratchpad, ascending. -/
theorem State.CrewOnly.loadLanes (h : s.CrewOnly u c w) {g : Nat} (hg : (Tab.find s.groups g).isSome = true)
    (ha : (s.core (s.group g).core).armed = false) {k : LoadKind} (hk : k.reads) {off reg va : Nat → Nat} {ls : List Nat}
    (hp : ∀ l ∈ ls, (s.padRead g (off l) k.size).2 = false) (hr : ∀ l ∈ ls, reg l + 1 < 128) (d : Nat) :
    s.CrewOnly (u.each (ls.map fun l => ({ lane := l, va := va l, place := .pad g (off l), reg := reg l } : PLane))
      (fun s p => s.loadLane c.core c.slot k d p)) c (w.putLoads k reg (fun l => (s.padRead g (off l) k.size).1) ls) := by
  unfold State.each Crew.putLoads
  induction ls generalizing u w with
  | nil => exact h
  | cons l ls ih =>
    rw [List.map_cons, List.foldl_cons, List.foldl_cons]
    exact ih (h.loadLane hg ha hk (hp l List.mem_cons_self) (hr l List.mem_cons_self) d l _)
      (fun j hj => hp j (List.mem_cons_of_mem _ hj)) fun j hj => hr j (List.mem_cons_of_mem _ hj)

theorem Tab.get_countEv (w : Crew) (code n i : Nat) :
    Tab.get (w.countEv code n).ev 0 i = if i < 4 ∧ Tab.get w.evSel 0 i = code then (Tab.get w.ev 0 i + n) % 2 ^ 64 else Tab.get w.ev 0 i := by
  have hgen : ∀ (ls : List Nat) (t : Tab Nat), ls.Nodup →
      Tab.get (ls.foldl (fun t i => if Tab.get w.evSel 0 i = code then Tab.set t 0 i ((Tab.get t 0 i + n) % 2 ^ 64) else t) t) 0 i
        = if i ∈ ls ∧ Tab.get w.evSel 0 i = code then (Tab.get t 0 i + n) % 2 ^ 64 else Tab.get t 0 i := by
    intro ls
    induction ls with
    | nil => simp
    | cons j js ih =>
      intro t hnd
      obtain ⟨hj, hnd⟩ := List.nodup_cons.1 hnd
      rw [List.foldl_cons, ih _ hnd]
      by_cases hij : i = j
      · subst hij
        simp only [hj, false_and, if_false, List.mem_cons_self, true_and]
        split
        · rw [Tab.get_set, if_pos rfl]
        · rfl
      · have hget : Tab.get (if Tab.get w.evSel 0 j = code then Tab.set t 0 j ((Tab.get t 0 j + n) % 2 ^ 64) else t) 0 i = Tab.get t 0 i := by
          split
          · rw [Tab.get_set, if_neg hij]
          · rfl
        rw [hget]
        simp only [List.mem_cons, hij, false_or]
  exact (hgen (List.range 4) w.ev List.nodup_range).trans (by simp only [List.mem_range])

/-- The crew whose event counters have counted bank conflicts (R242, R403). -/
theorem State.crewOnly_countBanks (s : State) (c : Cur) (ps : List PLane) (n : Nat) :
    ∃ e, s.CrewOnly (s.countBanks c ps n) c (s.banked c e)
      ∧ ∀ i, Tab.get e 0 i = if i < 4 ∧ Tab.get (s.cw c).evSel 0 i = 4 ∧ bankExtra ps n ≠ 0
          then (Tab.get (s.cw c).ev 0 i + bankExtra ps n) % 2 ^ 64 else Tab.get (s.cw c).ev 0 i := by
  unfold State.countBanks
  split
  next h0 => exact ⟨(s.cw c).ev, ⟨s.slotsOnly_refl, rfl, fun _ => rfl⟩, fun i => by simp [h0]⟩
  next k hk =>
    refine ⟨((s.cw c).countEv 4 (k + 1)).ev, ⟨s.slotsOnly_refl.setCrew _ _ _, State.crew_modCrew_same _ _ _ _,
      fun x => by rw [State.modCrew, State.setCrew_setCrew]⟩, fun i => ?_⟩
    rw [Tab.get_countEv, hk]
    simp only [ne_eq, Nat.succ_ne_zero, not_false_eq_true, and_true]

variable {m : BitVec 32} {ea : Nat → Word} {off : Nat → Nat} {g : Nat} {k : LoadKind}

/-- The crew after a load whose lanes all lie in the scratchpad: `e` its event counters. -/
def State.ownLoaded (s : State) (c : Cur) (e : Tab Nat) (k : LoadKind) (d g : Nat) (m : BitVec 32) (off : Nat → Nat) : Crew :=
  (s.banked c e).putLoads k (fun l => (s.cw c).vnum l d) (fun l => (s.padRead g (off l) k.size).1) (lanesOf m)

/-- A load whose lanes all lie in the scratchpad is performed at its issue (R297). -/
theorem State.issueLoad_own (hg : (Tab.find s.groups g).isSome = true) (ha : (s.core (s.group g).core).armed = false) (hk : k.reads)
    (hloc : ∀ l, m.getLsbD l = true → regionOf (ea l).toNat = .local_ (off l)) (hp : ∀ l, m.getLsbD l = true → (s.padRead g (off l) k.size).2 = false)
    {d : Nat} (hd : d ≤ 63) {e : Tab Nat} (hu : s.CrewOnly (s.countBanks c (placedLanes m ea (fun l => .pad g (off l))) k.size) c (s.banked c e)) :
    s.issueLoad c k d m (placedLanes m ea (fun l => .pad g (off l)))
      = s.setCrew c.core c.slot ((s.ownLoaded c e k d g m off).retired c { swap := true }) := by
  have hpads : ∀ p ∈ placedLanes m ea (fun l => .pad g (off l)), ∃ g o, p.place = .pad g o := by
    intro p hp
    obtain ⟨l, -, rfl⟩ := mem_placedLanes hp
    exact ⟨_, _, rfl⟩
  have hreg : ((placedLanes m ea (fun l => .pad g (off l))).map fun p =>
        { p with reg := ((s.countBanks c (placedLanes m ea (fun l => .pad g (off l))) k.size).cw c).vnum p.lane d })
      = (lanesOf m).map fun l => ({ lane := l, va := (ea l).toNat, place := .pad g (off l), reg := (s.cw c).vnum l d } : PLane) := by
    unfold placedLanes at hu ⊢
    rw [hu.crew, List.map_map]
    rfl
  have hin : ∀ p ∈ (lanesOf m).map fun l => ({ lane := l, va := (ea l).toNat, place := .pad g (off l), reg := (s.cw c).vnum l d } : PLane),
      p.inPlace = true := by
    intro p hp
    obtain ⟨l, hl, rfl⟩ := List.mem_map.1 hp
    exact PLane.inPlace_local (hloc l ((mem_lanesOf m l).1 hl))
  have hlate : ((lanesOf m).map fun l => ({ lane := l, va := (ea l).toNat, place := .pad g (off l), reg := (s.cw c).vnum l d } : PLane)).filter
      (fun p => !p.inPlace) = [] := List.filter_eq_nil_iff.2 fun p hp => by simp [hin p hp]
  have hafter : ∀ v : State, v.afterLoad c.core k = v := by
    cases k with
    | acquire sc => exact hk.elim
    | uniform n => exact hk.elim
    | plain n sg => exact fun _ => rfl
    | quad => exact fun _ => rfl
    | nocache => exact fun _ => rfl
  have hdone := hu.loadLanes hg ha hk (off := off) (reg := fun l => (s.cw c).vnum l d) (va := fun l => (ea l).toNat) (ls := lanesOf m)
    (fun l hl => hp l ((mem_lanesOf m l).1 hl)) (fun l _ => by
      have := ((s.cw c).fibre l).wbase.isLt
      unfold Crew.vnum
      omega) d
  unfold State.issueLoad
  simp only [State.tlbFills_pads hpads, hreg, hlate, List.filter_eq_self.2 hin, List.isEmpty_nil, if_true, hafter]
  rw [State.retire_eq, hdone.set]
  exact congrArg (fun w : Crew => s.setCrew c.core c.slot (w.retired c { swap := true })) hdone.crew

end Own

section Vector
variable {s : State} {c : Cur} {gd : BitVec 3} {a : Src} {ofs : Word} {k : LoadKind} {plain : Bool} {d : BitVec 6} {pl : Nat → Place}

/-- A load of the scratchpad waits for no store of the store queue (R303). -/
theorem State.loadFollow_pads {ps : List PLane} (hk : k.reads) (h : ∀ p ∈ ps, ∃ g o, p.place = .pad g o) : s.loadFollow c k ps = [] := by
  cases k with
  | acquire sc => exact hk.elim
  | uniform n => rfl
  | plain n sg => rfl
  | quad => rfl
  | nocache =>
    refine List.map_eq_nil_iff.2 (List.filter_eq_nil_iff.2 fun q _ => ?_)
    have hn : ps.any (fun p => p.place.meets 8 (.mem (32 * q.lsec) 0 false) 32) = false := by
      rw [List.any_eq_false]
      intro p hp
      obtain ⟨g, o, hq⟩ := h p hp
      rw [hq]
      exact Bool.false_ne_true
    simp [hn]

/-- A vector load of a fragment that may act, its lanes all with a place (R297, R300). -/
theorem State.vload_placed (h : s.Ready c .any false (srcUse a :: loadDst k d) (gd ≠ 0) (s.act c gd) (fun _ => [a]))
    (hp : ∀ l, (s.act c gd).getLsbD l = true → s.placeOf c .load ((s.cw c).val l a + ofs).toNat k.size plain = .ok (pl l))
    (hq : s.loadFollow c k (placedLanes (s.act c gd) (fun l => (s.cw c).val l a + ofs) pl) = [])
    (hf : s.mustFollow c .load (placedLanes (s.act c gd) (fun l => (s.cw c).val l a + ofs) pl) k.size = []) (hh : (s.cw c).heldBy = none) :
    s.vload c gd a ofs k plain d = s.issueLoad c k d.toNat (s.act c gd) (placedLanes (s.act c gd) (fun l => (s.cw c).val l a + ofs) pl) := by
  unfold State.vload
  extract_lets dst m xs
  have hdst : dst = loadDst k d := by
    cases k <;> rfl
  unfold State.ordered
  have hxs : xs = (lanesOf (s.act c gd)).map (fun l => { lane := l, va := (s.cw c).val l a + ofs, res := .ok (pl l) }) := State.laneAccs_placed hp
  rw [hdst, State.gate_ready h, State.reads_ready h, hxs, accFaults_placed, accLanes_placed]
  simp only [pickFault, m, hq, hf, hh, ite_self]

end Vector

/-- The vector loads, each by its kind (R300). -/
theorem exec_loadRule {p : (OpM → Instr) × LoadKind × Bool} (hp : p ∈ loadRules) (o : OpM) (s : State) :
    exec (p.1 o) s = s.run (fun c => s.vload c o.g (c.srcA o.a) (offM o.off p.2.1.size) p.2.1 p.2.2 (c.dst o.d)) := by
  simp only [loadRules, List.mem_cons, List.not_mem_nil, or_false] at hp
  rcases hp with rfl | rfl | rfl | rfl | rfl | rfl | rfl | rfl | rfl
  all_goals rfl

theorem reads_loadRule {p : (OpM → Instr) × LoadKind × Bool} (hp : p ∈ loadRules) : p.2.1.reads := by
  simp only [loadRules, List.mem_cons, List.not_mem_nil, or_false] at hp
  rcases hp with rfl | rfl | rfl | rfl | rfl | rfl | rfl | rfl | rfl
  all_goals simp [LoadKind.reads]

/-- The value of D of a load that extends no sign is that of its bytes (R300). -/
theorem LoadKind.low_unsigned {k : LoadKind} (h : ∀ n, k ≠ .plain n true) (bs : List Byte) : k.low bs = BitVec.ofNat 64 (leNat bs) := by
  cases k with
  | plain n sg =>
    cases sg with
    | true => exact absurd rfl (h n)
    | false => rfl
  | quad =>
    show BitVec.ofNat 64 (leNat (bs.take 8)) = BitVec.ofNat 64 (leNat bs)
    rw [leNat_take]
    refine BitVec.eq_of_toNat_eq ?_
    rw [BitVec.toNat_ofNat, BitVec.toNat_ofNat]
    exact Nat.mod_mod _ _
  | uniform n => rfl
  | acquire sc => rfl
  | nocache => rfl

/-- Settles O35, by the lanes of the load, performed one after the other. -/
theorem loadOwnScratchpad : Obligations.LoadOwnScratchpad := by
  unfold Obligations.LoadOwnScratchpad
  intro p hp o s c off a d m n g ea hr hpl hf hh hg ha
  have hk := reads_loadRule hp
  have hloc : ∀ l, m.getLsbD l = true → regionOf (ea l).toNat = .local_ (off l) := fun l hl => (hpl l hl).2.1
  have hpois : ∀ l, m.getLsbD l = true → (s.padRead g (off l) n).2 = false := fun l hl => (hpl l hl).2.2
  have hpads : ∀ p ∈ placedLanes m ea (fun l => .pad g (off l)), ∃ g o, p.place = .pad g o := by
    intro p hp
    obtain ⟨l, -, rfl⟩ := mem_placedLanes hp
    exact ⟨_, _, rfl⟩
  have hd : d.toNat ≤ 63 := by have := d.isLt; omega
  obtain ⟨e, hu, he⟩ := s.crewOnly_countBanks c (placedLanes m ea (fun l => .pad g (off l))) n
  have hx : exec (p.1 o) s = .next (s.setCrew c.core c.slot ((s.ownLoaded c e p.2.1 d.toNat g m off).retired c { swap := true })) := by
    have hv := State.vload_placed (ofs := offM o.off n) (pl := fun l => .pad g (off l)) hr (fun l hl => (hpl l hl).1) (State.loadFollow_pads hk hpads) hf hh
    exact (exec_loadRule hp o s).trans ((State.run_cur hr.1 _).trans (congrArg _ (hv.trans (State.issueLoad_own (ea := ea) hg ha hk hloc hpois hd hu))))
  have hput := (s.banked c e).putLoads_rest p.2.1 (fun l => (s.cw c).vnum l d.toNat) (fun l => (s.padRead g (off l) n).1) (lanesOf m)
  have hgo := Crew.wentOn_of (s.banked c e) (s.ownLoaded c e p.2.1 d.toNat g m off) c { swap := true }
    (fun _ => by unfold State.ownLoaded; rw [Crew.putLoads_rest]; rfl) (by unfold State.ownLoaded; rw [Crew.putLoads_rest]) rfl rfl
  have hw : ∀ w : Crew, w = (s.ownLoaded c e p.2.1 d.toNat g m off).retired c { swap := true } →
      w.s = (s.cw c).s ∧ w.m = (s.cw c).m ∧ w.mtag = (s.cw c).mtag ∧ w.fflags = (s.cw c).fflags
        ∧ ∀ l r, w.vreg l r = (s.ownLoaded c e p.2.1 d.toNat g m off).vreg l r := by
    rintro w rfl
    rw [Crew.retired_eq]
    unfold State.ownLoaded
    rw [hput]
    exact ⟨rfl, rfl, rfl, rfl, fun _ _ => rfl⟩
  obtain ⟨hs, hm, hmt, hff, hv⟩ := hw _ rfl
  refine ⟨_, e, hx, hgo, he, hs, hm, hmt, hff, fun l r hl => ?_⟩
  rw [hv]
  refine (Crew.vreg_putLoads _ _ _ _ (fun j hj => lt_of_getLsbD ((mem_lanesOf _ _).1 hj)) hl).trans ?_
  simp only [mem_lanesOf]
  by_cases hlow : m.getLsbD l = true ∧ r = (s.cw c).vnum l d.toNat
  · rw [if_pos hlow]
    refine Eq.trans ?_ (if_pos hlow).symm
    split
    next z hz =>
      have hn : n = z := congrArg LoadKind.size hz
      rw [hz, hn]
      exact congrArg (fun v : Word => ({ val := v } : Elem)) (loadVal_signed (by rw [hz] at hk; exact hk) _)
    next hz => exact congrArg (fun v : Word => ({ val := v } : Elem)) (LoadKind.low_unsigned hz _)
  · rw [if_neg hlow]
    refine Eq.trans ?_ (if_neg hlow).symm
    by_cases hhigh : p.2.1 = .quad ∧ m.getLsbD l = true ∧ r = (s.cw c).vnum l d.toNat + 1
    · rw [if_pos hhigh]
      refine Eq.trans ?_ (if_pos hhigh).symm
      unfold loadVal
      simp only [leNat_drop, Bool.false_eq_true, if_false]
      rfl
    · rw [if_neg hhigh]
      exact (if_neg hhigh).symm

end Sys2Proof.Machine
end

/-! The steps of index homes, ownership homes, atomic units and the crossbar (R241, R270, R271, R281 to R286, R311 to R313, R349 to R356, R438). -/

section
namespace Sys2Proof.Machine

section Tables
variable {s : State}

/-- The member of a table under a key, after a function on all its values. -/
theorem Tab.mem_put {α : Type} {t : Tab α} {k : Nat} {v : α} {e : Nat × α} (h : e ∈ Tab.put t k v) : e = (k, v) ∨ e ∈ t := by
  induction t with
  | nil => exact .inl (List.mem_singleton.1 h)
  | cons x t ih =>
    obtain ⟨j, w⟩ := x
    unfold Tab.put at h
    split at h
    · rcases List.mem_cons.1 h with h | h
      · exact .inl h
      · exact .inr (List.mem_cons_of_mem _ h)
    · split at h
      · exact List.mem_cons.1 h
      · rcases List.mem_cons.1 h with h | h
        · exact .inr (h ▸ List.mem_cons_self)
        · exact (ih h).imp_right (List.mem_cons_of_mem _)

theorem Tab.mem_erase {α : Type} {t : Tab α} {k : Nat} {e : Nat × α} (h : e ∈ Tab.erase t k) : e ∈ t := by
  induction t with
  | nil => exact h
  | cons x t ih =>
    obtain ⟨j, w⟩ := x
    unfold Tab.erase at h
    split at h
    · exact List.mem_cons_of_mem _ (ih h)
    · rcases List.mem_cons.1 h with h | h
      · exact h ▸ List.mem_cons_self
      · exact List.mem_cons_of_mem _ (ih h)

theorem Tab.mem_set {α : Type} [DecidableEq α] {t : Tab α} {d : α} {k : Nat} {v : α} {e : Nat × α} (h : e ∈ Tab.set t d k v) :
    e = (k, v) ∨ e ∈ t := by
  unfold Tab.set at h
  split at h
  · exact .inr (Tab.mem_erase h)
  · exact Tab.mem_put h

/-- A value of a table that a function has changed is the function's. -/
theorem Tab.mem_mapVals {α : Type} [DecidableEq α] {t : Tab α} {d : α} {f : α → α} {e : Nat × α} (h : e ∈ Tab.mapVals d f t) : ∃ v, e.2 = f v := by
  induction t with
  | nil => cases h
  | cons x t ih =>
    rcases Tab.mem_set h with rfl | h
    · exact ⟨x.2, rfl⟩
    · exact ih h

/-- A machine of which only the root and the tables to be had have changed (R362). -/
def State.TablesOnly (s t : State) : Prop := ∃ r f p n, t = { s with root := r, freeTabs := f, tabPool := p, nextTable := n }

theorem State.TablesOnly.trans {t u : State} (h : s.TablesOnly t) (h' : t.TablesOnly u) : s.TablesOnly u := by
  obtain ⟨r, f, p, n, rfl⟩ := h
  obtain ⟨r', f', p', n', rfl⟩ := h'
  exact ⟨r', f', p', n', rfl⟩

theorem State.tablesOnly_allocTable (s : State) (n : Nat) : s.TablesOnly (s.allocTable n).2 := by
  unfold State.allocTable
  split
  · exact ⟨_, _, _, _, rfl⟩
  · exact ⟨_, _, _, _, rfl⟩

theorem State.tablesOnly_cowRoot (s : State) : s.TablesOnly s.cowRoot := by
  unfold State.cowRoot
  rw [apply_ite s.TablesOnly]
  split
  · exact ⟨_, _, _, _, rfl⟩
  · exact (s.tablesOnly_allocTable _).trans ⟨_, _, _, _, rfl⟩

theorem State.tablesOnly_cowBlock (s : State) (lpn : Nat) : s.TablesOnly (s.cowBlock lpn) := by
  unfold State.cowBlock
  dsimp only
  rw [apply_ite s.TablesOnly]
  split
  · exact ⟨_, _, _, _, rfl⟩
  · exact (s.tablesOnly_cowRoot.trans (s.cowRoot.tablesOnly_allocTable _)).trans ⟨_, _, _, _, rfl⟩

theorem State.cowBlock_page (s : State) (lpn n : Nat) : (s.cowBlock lpn).page n = s.page n := by
  obtain ⟨r, f, p, k, h⟩ := s.tablesOnly_cowBlock lpn
  rw [h]
  rfl

/-- A grain table's copy leaves the grains (R362). -/
theorem State.cowPage_grains (s : State) (lpn : Nat) : (s.cowPage lpn).grains = s.grains ∧ (s.cowPage lpn).gtabs = s.gtabs := by
  have hgo : ((s.allocTable gtabBytes).2.cowBlock lpn).grains = s.grains ∧ ((s.allocTable gtabBytes).2.cowBlock lpn).gtabs = s.gtabs := by
    obtain ⟨r, f, p, k, h⟩ := (s.tablesOnly_allocTable gtabBytes).trans ((s.allocTable gtabBytes).2.tablesOnly_cowBlock lpn)
    rw [h]
    exact ⟨rfl, rfl⟩
  unfold State.cowPage
  dsimp only
  rw [apply_ite State.grains, apply_ite State.gtabs]
  exact ⟨(ite_congr rfl (fun _ => rfl) fun _ => hgo.1).trans (ite_self _), (ite_congr rfl (fun _ => rfl) fun _ => hgo.2).trans (ite_self _)⟩

theorem exec_grainEntryWriteback (s : State) :
    ∃ t, exec .grainEntryWriteback s = .next t ∧ t = { s.cowPage (s.ev.addr / 128) with grains := t.grains, gtabs := t.gtabs }
      ∧ (∀ g, Tab.get t.gtabs {} g = if g = s.ev.addr then { s.grain g with written := true } else Tab.get s.gtabs {} g)
      ∧ ∀ g, t.grain g = if g = s.ev.addr then { s.grain g with written := true } else s.grain g := by
  have hx : exec .grainEntryWriteback s = execGrainEntryWriteback s := rfl
  obtain ⟨hg, ht⟩ := s.cowPage_grains (s.ev.addr / 128)
  have hgrain : ∀ g, (s.cowPage (s.ev.addr / 128)).grain g = s.grain g := fun g => by unfold State.grain; rw [hg]
  refine ⟨_, hx, rfl, fun g => ?_, fun g => ?_⟩
  · refine (Tab.get_set _ _ _ _ _).trans ?_
    rw [hgrain, ht]
    split
    next h => rw [h]
    · rfl
  · refine (Tab.get_set _ _ _ _ _).trans ?_
    rw [hgrain, hg]
    split
    next h => rw [h]
    · rfl

/-- Tables that the live root and the retained slots name are kept; the others are to be had again (R362). -/
theorem exec_tableFree (s : State) : ∃ f p, exec .tableFree s = .next ({ s with freeTabs := f, tabPool := p } : State).sweep
      ∧ let here (a : Nat) (r : Root) (ps : Tab PageRec) : Prop :=
          r.addr = a ∨ (∃ b ∈ r.blocks, b.2.addr = a) ∨ ∃ p ∈ ps, p.2.valid = true ∧ 4096 * p.2.gtab = a
        let named (a : Nat) : Prop := here a s.root s.pages ∨ ∃ n ∈ s.snaps, n.2.valid = true ∧ here a n.2.root n.2.pages
        (∀ x, x ∈ f ↔ x ∈ s.freeTabs ∧ named x.1) ∧ ∀ x, x ∈ p ↔ x ∈ s.tabPool ∨ x ∈ s.freeTabs ∧ ¬ named x.1 := by
  have hx : exec .tableFree s = execTableFree s := rfl
  refine ⟨_, _, hx, fun x => ?_, fun x => ?_⟩
  · simp only [List.mem_filter, Bool.or_eq_true, decide_eq_true_eq, List.any_eq_true, Bool.and_eq_true, or_assoc]
  · simp only [List.mem_append, List.mem_filter, Bool.not_eq_true', ← Bool.not_eq_true, Bool.or_eq_true, decide_eq_true_eq,
      List.any_eq_true, Bool.and_eq_true, or_assoc, not_or]

end Tables

section Homes
variable {s : State}

theorem exec_indexLookup (h1 : s.ev.kind ≠ 1) (h2 : s.ev.kind ≠ 2) :
    exec .indexLookup s = .next (if (s.page (s.ev.addr / 128)).valid = true ∧ (s.page (s.ev.addr / 128)).moving = false
      then s.ixFill s.ev.cluster s.ev.addr s.ev.value s.ev.idx s.ev.ctx s.ev.flag else s) := by
  have hx : exec .indexLookup s = execIndexLookup s := rfl
  rw [hx, execIndexLookup]
  split
  next h => exact absurd h h1
  next h => exact absurd h h2
  · simp only [Bool.and_eq_true, Bool.not_eq_true']
    exact (apply_ite Host.Outcome.next _ _ _).symm

/-- What a lookup answers after it has logged a bad copy of the entry or has lost both (R353). -/
theorem exec_indexLookup_bad (v : State) (h : (s.ev.kind = 1 ∧ v = s.logErr { level := 1, kind := 7, unit := (s.page (s.ev.addr / 128)).home, paddr := s.ev.addr * 512 })
      ∨ s.ev.kind = 2 ∧ v = s.loseEntry s.ev.addr) :
    exec .indexLookup s = .next (if (v.page (s.ev.addr / 128)).valid = true ∧ (v.page (s.ev.addr / 128)).moving = false
      then v.ixFill s.ev.cluster s.ev.addr s.ev.value s.ev.idx s.ev.ctx s.ev.flag else v) := by
  have hx : exec .indexLookup s = execIndexLookup s := rfl
  rw [hx, execIndexLookup]
  rcases h with ⟨hk, rfl⟩ | ⟨hk, rfl⟩
  · simp only [hk, Bool.and_eq_true, Bool.not_eq_true']
    exact (apply_ite Host.Outcome.next _ _ _).symm
  · simp only [hk, Bool.and_eq_true, Bool.not_eq_true']
    exact (apply_ite Host.Outcome.next _ _ _).symm

theorem exec_indexUpdate_none (h : (s.cluster s.ev.cluster).rels.find? (fun r => !r.left.isEmpty) = none) : exec .indexUpdate s = .next s := by
  have hx : exec .indexUpdate s = execIndexUpdate s := rfl
  rw [hx]
  unfold execIndexUpdate
  simp only [h]

theorem exec_indexUpdate_some {r : Rel} {u : Update} {rest : List Update} (h : (s.cluster s.ev.cluster).rels.find? (fun r => !r.left.isEmpty) = some r)
    (hl : r.left = u :: rest) : exec .indexUpdate s = .next (
      if (s.page (u.lsec / 2048)).moving = true then s
      else if (s.page (u.lsec / 2048)).valid = false then s.loseUpdates (fun x => decide (x = u))
      else (s.modCluster s.ev.cluster (fun c => { c with
        rels := mapIf (fun x => decide (x.id = r.id)) (fun x => { x with left := rest }) c.rels })).arrive u) := by
  have hx : exec .indexUpdate s = execIndexUpdate s := rfl
  rw [hx]
  unfold execIndexUpdate State.moving
  simp only [h, hl, Bool.not_eq_true']
  rw [apply_ite Host.Outcome.next, apply_ite Host.Outcome.next]

theorem exec_fold (s : State) : exec .fold s = .next (if (s.page (s.ev.addr / 2048)).moving = true then s
      else (((s.updatesOf s.ev.addr).foldl (fun t u => t.broadcast u.cluster) s).settleSector s.ev.addr).admitWaiting) := by
  have hx : exec .fold s = execFold s := rfl
  rw [hx]
  exact (apply_ite Host.Outcome.next _ _ _).symm

/-- A page's home moves in two steps: it stops, and then stands elsewhere (log 34). -/
theorem exec_homeMove (s : State) : exec .homeMove s = .next (
      if (s.page s.ev.page).valid = false ∨ s.tilesUp.getLsbD s.ev.tile = false ∨ (s.page s.ev.page).home = s.ev.tile then s
      else if (s.page s.ev.page).moving = false then { s with pages := Tab.set s.pages {} s.ev.page { s.page s.ev.page with moving := true } }
      else (s.modPage s.ev.page (fun p => { p with moving := false, home := s.ev.tile })).modClusters
        (fun c => { c with ixlb := c.ixlb.filter (fun e => e.grain / 128 ≠ s.ev.page) })) := by
  have hx : exec .homeMove s = execHomeMove s := rfl
  rw [hx]
  unfold execHomeMove
  simp only [Bool.or_eq_true, Bool.not_eq_true', decide_eq_true_eq, or_assoc]
  rw [apply_ite Host.Outcome.next, apply_ite Host.Outcome.next]

/-- The second step of a home's move writes HOME, and no IXLB keeps a grain of the page (R352, R354). -/
theorem State.homeMoved (s : State) (lpn tile : Nat) :
    ∃ t, t = (s.modPage lpn (fun p => { p with moving := false, home := tile })).modClusters
        (fun c => { c with ixlb := c.ixlb.filter (fun e => e.grain / 128 ≠ lpn) })
      ∧ (∀ n, t.page n = if n = lpn then { s.page lpn with moving := false, home := tile } else s.page n)
      ∧ t = { s.cowBlock lpn with pages := t.pages, clusters := t.clusters }
      ∧ ∀ c ∈ t.clusters, ∀ x ∈ c.2.ixlb, x.grain / 128 ≠ lpn := by
  refine ⟨_, rfl, fun n => ?_, rfl, fun c hc x hx => ?_⟩
  · refine (Tab.get_set _ _ _ _ _).trans ?_
    rw [State.cowBlock_page]
    exact congrArg (fun p : PageRec => if n = lpn then _ else p) (s.cowBlock_page lpn n)
  · obtain ⟨v, hv⟩ := Tab.mem_mapVals hc
    rw [hv] at hx
    exact of_decide_eq_true (List.mem_filter.1 hx).2

theorem exec_claimRequest_none (h : (s.cluster s.ev.cluster).claims.find? (fun r => r.outcome = 0) = none) : exec .claimRequest s = .next s := by
  have hx : exec .claimRequest s = execClaimRequest s := rfl
  rw [hx]
  unfold execClaimRequest
  simp only [h]

theorem exec_claimRequest_some {r : ClaimReq} (h : (s.cluster s.ev.cluster).claims.find? (fun r => r.outcome = 0) = some r) :
    exec .claimRequest s = .next (if (s.page (r.grain / 128)).moving = true then s
      else (s.claim s.ev.cluster r.grain r.tag).1.modCluster s.ev.cluster (fun c => { c with
        claims := if r.retry then (if (s.claim s.ev.cluster r.grain r.tag).2 then c.claims.erase r else c.claims.erase r ++ [{ r with since := s.cycle }])
          else c.claims.erase r ++ [{ r with outcome := if (s.claim s.ev.cluster r.grain r.tag).2 then 1 else 2 }] })) := by
  have hx : exec .claimRequest s = execClaimRequest s := rfl
  rw [hx]
  unfold execClaimRequest
  simp only [h]
  rw [apply_ite Host.Outcome.next]

end Homes

section Atomics
variable {s : State}

theorem exec_atomicApply_orphan {o : Orphan} (h : s.orphans.find? (fun o => o.core = s.ev.core && o.slot = s.ev.slot) = some o) :
    exec .atomicApply s = .next ((optEach s (s.orphans.filter (fun p => decide (p.core = s.ev.core ∧ p.slot = s.ev.slot
      ∧ p.lid = o.lid ∧ p.atom.seq = o.atom.seq ∧ p.atom.addr = o.atom.addr))) State.applyOrphan).getD s) := by
  have hx : exec .atomicApply s = execAtomicApply s := rfl
  rw [hx]
  unfold execAtomicApply
  simp only [h, Bool.decide_and, Bool.and_assoc]

theorem exec_atomicApply_none (h : s.orphans.find? (fun o => o.core = s.ev.core && o.slot = s.ev.slot) = none)
    (ha : (s.crew s.ev.core s.ev.slot).nextAtom = none) : exec .atomicApply s = .next s := by
  have hx : exec .atomicApply s = execAtomicApply s := rfl
  rw [hx]
  unfold execAtomicApply
  simp only [h, ha]

/-- The next atomic of a crew goes with every lane of its instruction that names its location, unless its home moves (R285, R286). -/
theorem exec_atomicApply_some {core sl : Nat} {a : PAtom} (hc : s.ev.core = core) (hs : s.ev.slot = sl)
    (h : s.orphans.find? (fun o => o.core = core && o.slot = sl) = none) (ha : (s.crew core sl).nextAtom = some a) :
    let group := (s.crew core sl).atoms.filter (fun b => b.seq = a.seq && b.addr = a.addr && b.answer.isNone)
    let moves : Prop := ∃ l at_ x, a.place = .mem l at_ x ∧ (s.page (l / 32 / 2048)).moving = true
    (moves → exec .atomicApply s = .next (s.modCrew core sl (fun w => { w with
      atoms := mapIf (fun b => group.contains b) (fun b => { b with moved := true }) w.atoms })))
    ∧ (¬ moves → exec .atomicApply s = .next ((optEach s group (fun u b => u.applyAtom core sl b)).getD s)) := by
  have hx : exec .atomicApply s = execAtomicApply s := rfl
  rw [hx]
  unfold execAtomicApply
  simp only [hc, hs, h, ha]
  cases hp : a.place with
  | mem l at_ x =>
    have hm : (∃ l' at_' x', Place.mem l at_ x = .mem l' at_' x' ∧ (s.page (l' / 32 / 2048)).moving = true) ↔ s.moving (l / 32) = true := by
      constructor
      · rintro ⟨l', at_', x', he, hm⟩
        cases he
        exact hm
      · exact fun hm => ⟨l, at_, x, rfl, hm⟩
    rw [hm]
    exact ⟨fun h => if_pos h, fun h => if_neg h⟩
  | pad g off => exact ⟨fun ⟨_, _, _, he, _⟩ => (nomatch he), fun _ => rfl⟩
  | die off => exact ⟨fun ⟨_, _, _, he, _⟩ => (nomatch he), fun _ => rfl⟩
  | peer q b => exact ⟨fun ⟨_, _, _, he, _⟩ => (nomatch he), fun _ => rfl⟩

/-- What an ended crew left on its way is applied once its home does not move and finds a block for it (R55, R311). -/
theorem State.applyOrphan_mem (u : State) {o : Orphan} {l at_ : Nat} {x : Bool} (h : o.atom.place = .mem l at_ x) :
    u.applyOrphan o = if (u.page (l / 32 / 2048)).moving = true then none
      else (u.atomicHome o.core o.slot o.atom l).map (fun r => { r.1 with orphans := r.1.orphans.erase o }) := by
  unfold State.applyOrphan
  rw [h]
  rfl

theorem State.applyAtom_mem (u : State) (core sl : Nat) {a : PAtom} {l at_ : Nat} {x : Bool} (h : a.place = .mem l at_ x) :
    u.applyAtom core sl a = (u.atomicHome core sl a l).map (fun r => r.1.modCrew core sl (fun w => { w with
      atoms := mapIf (fun x => decide (x = a)) (fun _ => { a with answer := some (r.2.1, r.2.2) }) w.atoms })) := by
  unfold State.applyAtom
  simp only [h]

theorem State.applyAtom_pad (u : State) (core sl : Nat) {a : PAtom} {g off : Nat} (h : a.place = .pad g off) (hr : u.padRefusal g off a.size = none) :
    u.applyAtom core sl a = some ((u.padAtomic g off a).1.modCrew core sl (fun w => { w with
      atoms := mapIf (fun x => decide (x = a)) (fun _ => { a with answer := some ((u.padAtomic g off a).2.1, (u.padAtomic g off a).2.2) }) w.atoms })) := by
  unfold State.applyAtom
  simp only [h, hr]

theorem State.applyAtom_refused (u : State) (core sl : Nat) {a : PAtom} {g off sub : Nat} (h : a.place = .pad g off)
    (hr : u.padRefusal g off a.size = some sub) :
    u.applyAtom core sl a = some ((u.modCrew core sl (fun w => { (a.acked w) with atoms := w.atoms.erase a })).imprecise core sl (u.crewLid core sl)
      { cause := 2, sub := sub, addr := a.addr, regaddr := a.regaddr, seq := a.id }) := by
  unfold State.applyAtom
  simp only [h, hr]

theorem exec_atomicAnswer_none (h : (s.crew s.ev.core s.ev.slot).atoms.find? (fun a => a.answer.isSome) = none) : exec .atomicAnswer s = .next s := by
  have hx : exec .atomicAnswer s = execAtomicAnswer s := rfl
  rw [hx]
  unfold execAtomicAnswer
  simp only [h]

/-- The registers that an atomic's answer writes: of its lane, in tandem mode of the next also (R48, R311). -/
def Crew.putAnswer (w : Crew) (a : PAtom) (e : Elem) : Crew :=
  let x := w.putLate a.lim a.lane a.d e
  if x.tandem then x.putLate a.lim (a.lane + 1) a.d e else x

theorem Crew.putLate_rest (w : Crew) (lim l n : Nat) (e : Elem) : w.putLate lim l n e = { w with v := (w.putLate lim l n e).v } := by
  unfold Crew.putLate
  split <;> rfl

theorem Crew.vreg_putLate (w : Crew) {lim l l' : Nat} (n n' : Nat) (e : Elem) (h : l < 32) (h' : l' < 32) :
    (w.putLate lim l n e).vreg l' n' = if l' = l ∧ n' = n ∧ n < lim then e else w.vreg l' n' := by
  unfold Crew.putLate
  by_cases hn : n < lim
  · rw [if_pos hn, Crew.vreg_setVreg _ _ _ _ _ _ h h']
    simp only [hn, and_true]
  · rw [if_neg hn]
    simp only [hn, and_false, if_false]

theorem Crew.putAnswer_rest (w : Crew) (a : PAtom) (e : Elem) : w.putAnswer a e = { w with v := (w.putAnswer a e).v } := by
  unfold Crew.putAnswer
  dsimp only
  rw [Crew.putLate_rest w]
  dsimp only
  split
  · rw [Crew.putLate_rest]
  · rfl

theorem Crew.vreg_putAnswer (w : Crew) (a : PAtom) (e : Elem) (ha : a.lane < 32) (ht : w.tandem = true → a.lane + 1 < 32) {l n : Nat} (hl : l < 32) :
    (w.putAnswer a e).vreg l n = if n = a.d ∧ a.d < a.lim ∧ (l = a.lane ∨ w.tandem = true ∧ l = a.lane + 1) then e else w.vreg l n := by
  have htan : (w.putLate a.lim a.lane a.d e).tandem = w.tandem := by rw [Crew.putLate_rest]
  unfold Crew.putAnswer
  dsimp only
  rw [htan]
  by_cases hw : w.tandem = true
  · rw [if_pos hw, Crew.vreg_putLate _ _ _ _ (ht hw) hl, Crew.vreg_putLate _ _ _ _ ha hl]
    rw [← ite_or]
    refine if_congr ?_ rfl rfl
    simp only [hw, true_and]
    omega
  · rw [if_neg hw, Crew.vreg_putLate _ _ _ _ ha hl]
    refine if_congr ?_ rfl rfl
    simp only [hw, Bool.false_eq_true, false_and, or_false]
    omega

/-- An answer reaches the crew: its registers, its flags and the counter that held it (R66, R311, R401). -/
theorem exec_atomicAnswer_some {core sl : Nat} {w : Crew} {a : PAtom} {r : Elem × FSet} (hc : s.ev.core = core) (hs : s.ev.slot = sl)
    (hw : s.crew core sl = w) (h : w.atoms.find? (fun a => a.answer.isSome) = some a) (hr : a.answer = some r) (ha : a.lane < 32)
    (ht : w.tandem = true → a.lane + 1 < 32) :
    ∃ w', exec .atomicAnswer s = .next (s.setCrew core sl w')
      ∧ (∀ l n, n < 64 → l < 32 → w'.vreg l n
          = if n = a.d ∧ a.d < a.lim ∧ (l = a.lane ∨ w.tandem = true ∧ l = a.lane + 1) then r.1 else w.vreg l n)
      ∧ w'.atoms = w.atoms.erase a ∧ w'.fflags = w.fflags ||| r.2
      ∧ w'.ackDv = (if a.place.isMem then w.ackDv - 1 else w.ackDv) ∧ w'.ackCl = (if a.place.isMem then w.ackCl else w.ackCl - 1)
      ∧ w' = { w with v := w'.v, atoms := w'.atoms, fflags := w'.fflags, ackDv := w'.ackDv, ackCl := w'.ackCl } := by
  have hx : exec .atomicAnswer s = .next (s.setCrew core sl
      { (a.acked (w.putAnswer a r.1)) with atoms := (w.putAnswer a r.1).atoms.erase a, fflags := (w.putAnswer a r.1).fflags ||| r.2 }) := by
    have hx : exec .atomicAnswer s = execAtomicAnswer s := rfl
    rw [hx]
    unfold execAtomicAnswer State.modCrew
    simp only [hc, hs, hw, h, hr]
    rfl
  have hv := fun l n (hl : l < 32) => w.vreg_putAnswer a r.1 ha ht (n := n) hl
  have hrest := w.putAnswer_rest a r.1
  generalize hy : w.putAnswer a r.1 = y at hx hv hrest
  rw [hrest] at hx
  refine ⟨_, hx, fun l n _ hl => (Eq.trans ?_ (hv l n hl)), ?_⟩
  · unfold PAtom.acked
    split <;> rfl
  · unfold PAtom.acked
    split <;> exact ⟨rfl, rfl, rfl, rfl, rfl⟩

theorem exec_atomicMovedReissue_none (h : (s.crew s.ev.core s.ev.slot).atoms.find? (fun a => a.moved) = none) :
    exec .atomicMovedReissue s = .next s := by
  have hx : exec .atomicMovedReissue s = execAtomicMovedReissue s := rfl
  rw [hx]
  unfold execAtomicMovedReissue
  simp only [h]

theorem exec_atomicMovedReissue_some {a : PAtom} (h : (s.crew s.ev.core s.ev.slot).atoms.find? (fun a => a.moved) = some a) :
    exec .atomicMovedReissue s = .next (s.modCrew s.ev.core s.ev.slot (fun w =>
      { w with atoms := mapIf (fun x => decide (x = a)) (fun x => { x with moved := false }) w.atoms })) := by
  have hx : exec .atomicMovedReissue s = execAtomicMovedReissue s := rfl
  rw [hx]
  unfold execAtomicMovedReissue
  simp only [h]

/-- A home keeps the tags of applied atomics for 64 microseconds (R286). -/
theorem exec_atomicTagSetExpiry (s : State) : ∃ t, exec .atomicTagSetExpiry s = .next t ∧ t = { s with atomTags := t.atomTags }
      ∧ ∀ x, x ∈ t.atomTags ↔ x ∈ s.atomTags ∧ s.timeNs < x.time + 64000 := by
  have hx : exec .atomicTagSetExpiry s = execAtomicTagSetExpiry s := rfl
  exact ⟨_, hx, rfl, fun x => List.mem_filter.trans (and_congr_right fun _ => decide_eq_true_iff)⟩

end Atomics

section Crossbar
variable {s : State}

theorem exec_remoteAccessPerform_none (h : (s.core s.ev.core).remq.find? (fun r => !r.acked) = none) : exec .remoteAccessPerform s = .next s := by
  have hx : exec .remoteAccessPerform s = execRemoteAccessPerform s := rfl
  rw [hx]
  unfold execRemoteAccessPerform
  simp only [h]

/-- A remote store of a core is performed at its owner, or refused and its failure reported (R241, R243, R319). -/
theorem exec_remoteAccessPerform_some {core : Nat} {r : RemReq} {u : State} (hc : s.ev.core = core)
    (h : (s.core core).remq.find? (fun r => !r.acked) = some r)
    (hu : s.modCore core (fun k => { k with remq := mapIf (fun x => decide (x = r)) (fun x => { x with acked := true }) k.remq }) = u) :
    exec .remoteAccessPerform s = .next (match u.padRefusal r.tgroup r.off r.data.length with
      | none => if r.pois then (u.padWrite r.tgroup r.off r.data).padMark r.tgroup ((wordsOf r.off r.data.length).map (8 * ·))
          else u.padWrite r.tgroup r.off r.data
      | some sub => match r.copyId with
        | some id => u.failCopy core id { cause := 2, sub := sub, addr := r.addr, regaddr := r.regaddr, seq := r.id } false
        | none => u.imprecise core r.slot r.lid { cause := 2, sub := sub, addr := r.addr, regaddr := r.regaddr, seq := r.id }) := by
  have hx : exec .remoteAccessPerform s = execRemoteAccessPerform s := rfl
  rw [hx]
  unfold execRemoteAccessPerform
  simp only [hc, h, hu]
  cases u.padRefusal r.tgroup r.off r.data.length with
  | none => rfl
  | some sub => cases r.copyId <;> rfl

theorem exec_remoteAck_none (hk : s.ev.kind ≠ 1) (h : (s.core s.ev.core).remq.find? (fun r => r.acked) = none) : exec .remoteAck s = .next s := by
  have hx : exec .remoteAck s = execRemoteAck s := rfl
  rw [hx]
  unfold execRemoteAck
  simp only [if_neg hk, h]

/-- A store's acknowledgement goes to the copy or the crew that sent it (R241, R277). -/
theorem exec_remoteAck_some {core : Nat} {r : RemReq} (hc : s.ev.core = core) (hk : s.ev.kind ≠ 1) (h : (s.core core).remq.find? (fun r => r.acked) = some r) :
    exec .remoteAck s = .next (
      let u := s.modCore core (fun k => { k with remq := k.remq.erase r })
      match r.copyId with
      | some id => u.modCopy core id (fun x => { x with out := x.out - 1 })
      | none => u.ifCrew core r.slot r.lid (fun w => { w with ackCl := w.ackCl - 1 })) := by
  have hx : exec .remoteAck s = execRemoteAck s := rfl
  rw [hx]
  unfold execRemoteAck
  simp only [hc, if_neg hk, h]
  cases r.copyId <;> rfl

theorem exec_remoteAck_peer_none (hk : s.ev.kind = 1) (h : s.peerOut.find? (fun r => r.core = s.ev.core && s.peerState r.peer = 0) = none) :
    exec .remoteAck s = .next s := by
  have hx : exec .remoteAck s = execRemoteAck s := rfl
  rw [hx]
  unfold execRemoteAck
  simp only [if_pos hk, h]

/-- The acknowledgement of a peer's request (R438). -/
theorem exec_remoteAck_peer_some {core : Nat} {r : PeerReq} (hc : s.ev.core = core) (hk : s.ev.kind = 1)
    (h : s.peerOut.find? (fun r => r.core = core && s.peerState r.peer = 0) = some r) :
    exec .remoteAck s = .next (
      let u : State := { s with peerOut := s.peerOut.erase r }
      match r.copyId with
      | some id => u.modCopy core id (fun x => { x with out := x.out - 1 })
      | none => u.ifCrew core r.slot r.lid (fun w => { w with ackSy := w.ackSy - 1 })) := by
  have hx : exec .remoteAck s = execRemoteAck s := rfl
  rw [hx]
  unfold execRemoteAck
  simp only [hc, if_pos hk, h]
  cases r.copyId <;> rfl

/-- A failure of a peer's request: the oldest that is refused or whose peer has failed (R319, R438). -/
theorem exec_impreciseFaultArrival_peer (hk : s.ev.kind = 0) :
    exec .impreciseFaultArrival s = .next ((s.peerOut.find? (fun r => r.core = s.ev.core && (s.ev.flag || s.peerState r.peer = 2))).elim s s.refusePeer) := by
  have hx : exec .impreciseFaultArrival s = execImpreciseFaultArrival s := rfl
  rw [hx]
  unfold execImpreciseFaultArrival
  simp only [if_pos hk]
  cases s.peerOut.find? _ <;> rfl

/-- A failure of a copy inside the engine or on the crossbar rolls its node back (R336). -/
theorem exec_impreciseFaultArrival_copy {core : Nat} (hc : s.ev.core = core) (hk : s.ev.kind = 2) :
    exec .impreciseFaultArrival s = .next ((((s.core core).copies.filter (fun x => x.started && x.fail.isNone))[s.ev.idx]?).elim s
      (fun x => s.rollBack x.lid { cause := 1, sub := 2, impr := true } { core := core, slot := x.slot, time := s.timeNs })) := by
  have hx : exec .impreciseFaultArrival s = execImpreciseFaultArrival s := rfl
  rw [hx]
  unfold execImpreciseFaultArrival
  simp only [hc, if_neg (show s.ev.kind ≠ 0 by omega), if_pos hk]
  cases ((s.core core).copies.filter (fun x => x.started && x.fail.isNone))[s.ev.idx]? <;> rfl

theorem exec_impreciseFaultArrival_none (h0 : s.ev.kind ≠ 0) (h2 : s.ev.kind ≠ 2) (h : (s.core s.ev.core).stq = []) :
    exec .impreciseFaultArrival s = .next s := by
  have hx : exec .impreciseFaultArrival s = execImpreciseFaultArrival s := rfl
  rw [hx]
  unfold execImpreciseFaultArrival
  simp only [if_neg h0, if_neg h2, h]

/-- The loss of a store's data before the appender has written it rolls its node back once the sector is poisoned (R320, R381). -/
theorem exec_impreciseFaultArrival_store {core : Nat} {x : StoreReq} {rest : List StoreReq} (hc : s.ev.core = core) (h0 : s.ev.kind ≠ 0)
    (h2 : s.ev.kind ≠ 2) (h : (s.core core).stq = x :: rest) :
    let r := s.accept core { x with lost := true }
    let u := (r.1.modCore core (fun c => { c with stq := rest })).accepted core x
    exec .impreciseFaultArrival s = .next (if r.2 = true then u.rollBack x.crewLid
      { cause := 1, sub := 2, addr := x.addr, regaddr := x.regaddr, impr := true } { core := core, slot := x.slot, time := u.timeNs } else r.1) := by
  have hx : exec .impreciseFaultArrival s = execImpreciseFaultArrival s := rfl
  rw [hx]
  unfold execImpreciseFaultArrival
  simp only [hc, if_neg h0, if_neg h2, h]
  exact (apply_ite Host.Outcome.next _ _ _).symm

end Crossbar

/-- Settles O56, by an equation for each event and each of its conditions. -/
theorem homeEvents : Obligations.HomeEvents := by
  unfold Obligations.HomeEvents
  intro s e core sl w q
  refine ⟨⟨fun h1 h2 hv hm => ?_, fun h1 h2 hn => ?_, fun h => ?_, fun h => ?_⟩, exec_indexUpdate_none,
    fun r u rest hr hl => ⟨fun hm => ?_, fun hm hv => ?_, fun hm hv => ?_⟩, fun hm => ?_, fun hm => ?_, exec_grainEntryWriteback s, exec_tableFree s,
    ⟨fun hn => ?_, fun hv ht hh => ?_⟩, exec_claimRequest_none, fun r hr => ⟨fun hm => ?_, fun hm ht => ?_, fun hm ht => ?_⟩, ?_,
    ⟨fun o => exec_atomicApply_orphan, fun u o l at_ x hp => ⟨fun hn => ?_, fun r hm hr => ?_⟩, exec_atomicApply_none,
      fun a hn ha => exec_atomicApply_some rfl rfl hn ha, fun u a => ⟨fun l at_ x hp => ⟨fun hn => ?_, fun r hr => ?_⟩,
        fun g off hp => ⟨u.applyAtom_pad core sl hp, fun sub => u.applyAtom_refused core sl hp⟩⟩⟩,
    exec_atomicAnswer_none, fun a r => exec_atomicAnswer_some rfl rfl rfl, exec_atomicMovedReissue_none, fun a => exec_atomicMovedReissue_some,
    exec_atomicTagSetExpiry s, exec_remoteAccessPerform_none, fun r hr => ?_, exec_remoteAck_none, fun r hr hk => ?_, exec_remoteAck_peer_none,
    fun r hr hk => ?_, fun r hk hr => ?_, fun hk hr => ?_, fun hk hx => ?_, fun x hk hx => ?_, fun x rest h0 h2 hx => ?_,
    exec_impreciseFaultArrival_none⟩
  · exact (exec_indexLookup h1 h2).trans (congrArg _ (if_pos ⟨hv, hm⟩))
  · refine (exec_indexLookup h1 h2).trans (congrArg _ (if_neg ?_))
    rintro ⟨hv, hm⟩
    rcases hn with hn | hn
    · exact Bool.false_ne_true (hn.symm.trans hv)
    · exact Bool.false_ne_true (hm.symm.trans hn)
  · exact exec_indexLookup_bad _ (.inl ⟨h, rfl⟩)
  · exact exec_indexLookup_bad _ (.inr ⟨h, rfl⟩)
  · exact (exec_indexUpdate_some hr hl).trans (congrArg _ (if_pos hm))
  · exact (exec_indexUpdate_some hr hl).trans (congrArg _ ((if_neg (Bool.eq_false_iff.mp hm)).trans (if_pos hv)))
  · exact (exec_indexUpdate_some hr hl).trans (congrArg _ ((if_neg (Bool.eq_false_iff.mp hm)).trans (if_neg (by simp [hv]))))
  · exact (exec_fold s).trans (congrArg _ (if_pos hm))
  · exact (exec_fold s).trans (congrArg _ (if_neg (Bool.eq_false_iff.mp hm)))
  · exact (exec_homeMove s).trans (congrArg _ (if_pos hn))
  · have hx := (exec_homeMove s).trans (congrArg _ (if_neg (by
      rintro (h | h | h)
      · exact Bool.false_ne_true (h.symm.trans hv)
      · exact Bool.false_ne_true (h.symm.trans ht)
      · exact hh h)))
    cases hm : (s.page e.page).moving with
    | false =>
      rw [if_pos hm] at hx
      exact ⟨_, hx, fun n => Tab.get_set _ _ _ _ _, fun _ => rfl, fun h => nomatch h⟩
    | true =>
      obtain ⟨t, ht, hp, hf, hi⟩ := s.homeMoved e.page e.tile
      rw [if_neg (by simp [e, hm])] at hx
      exact ⟨t, hx.trans (congrArg _ ht.symm), hp, fun h => (nomatch h), fun _ => ⟨hf, hi⟩⟩
  · exact (exec_claimRequest_some hr).trans (congrArg _ (if_pos hm))
  · have hx := (exec_claimRequest_some hr).trans (congrArg _ (if_neg (Bool.eq_false_iff.mp hm)))
    simpa only [if_pos ht] using hx
  · have hx := (exec_claimRequest_some hr).trans (congrArg _ (if_neg (Bool.eq_false_iff.mp hm)))
    simpa only [ht, Bool.false_eq_true, if_false] using hx
  · rfl
  · rw [u.applyOrphan_mem hp]
    rcases hn with hm | hh
    · exact if_pos hm
    · rw [hh]
      exact ite_self _
  · rw [u.applyOrphan_mem hp, if_neg (Bool.eq_false_iff.mp hm), hr]
    rfl
  · rw [u.applyAtom_mem core sl hp, hn]
    rfl
  · rw [u.applyAtom_mem core sl hp, hr]
    rfl
  · have hx := exec_remoteAccessPerform_some rfl hr rfl
    refine ⟨fun hn => ?_, fun sub hs => ⟨fun hi => ?_, fun id hi => ?_⟩⟩
    · rw [hx, hn]
    · rw [hx, hs, hi]
    · rw [hx, hs, hi]
  · have hx := exec_remoteAck_some rfl hk hr
    refine ⟨fun hi => ?_, fun id hi => ?_⟩
    · rw [hx, hi]
    · rw [hx, hi]
  · have hx := exec_remoteAck_peer_some rfl hk hr
    refine ⟨fun hi => ?_, fun id hi => ?_⟩
    · rw [hx, hi]
    · rw [hx, hi]
  · rw [exec_impreciseFaultArrival_peer hk, hr]
    rfl
  · rw [exec_impreciseFaultArrival_peer hk, hr]
    rfl
  · rw [exec_impreciseFaultArrival_copy rfl hk, hx]
    rfl
  · rw [exec_impreciseFaultArrival_copy rfl hk, hx]
    rfl
  · have hs := exec_impreciseFaultArrival_store rfl h0 h2 hx
    exact ⟨fun hr => hs.trans (congrArg _ (if_neg (Bool.eq_false_iff.mp hr))), fun hr => hs.trans (congrArg _ (if_pos hr))⟩

end Sys2Proof.Machine
end

/-! Device writes use no spare lane of a channel: every operation of the log, the index and the tables on their way (R250 to R256, R350, R351, R456). -/

section
namespace Sys2Proof.Machine

/-- A fold of steps each of which leaves the spare lanes. -/
theorem State.foldl_lanesUsed {α : Type} {f : State → α → State} (hf : ∀ s a, (f s a).lanesUsed = s.lanesUsed) (xs : List α) (s : State) :
    (xs.foldl f s).lanesUsed = s.lanesUsed := by
  induction xs generalizing s with
  | nil => rfl
  | cons x xs ih => rw [List.foldl_cons, ih, hf]

theorem State.each_lanesUsed {α : Type} {f : State → α → State} (hf : ∀ s a, (f s a).lanesUsed = s.lanesUsed) (s : State) (xs : List α) :
    (s.each xs f).lanesUsed = s.lanesUsed := State.foldl_lanesUsed hf xs s

/-- A fold that may fail, of steps each of which leaves the spare lanes. -/
theorem optEach_lanesUsed {α : Type} {f : State → α → Option State} (hf : ∀ s a t, f s a = some t → t.lanesUsed = s.lanesUsed) {xs : List α} {s t : State}
    (h : optEach s xs f = some t) : t.lanesUsed = s.lanesUsed := by
  unfold optEach at h
  induction xs generalizing s with
  | nil => cases h; rfl
  | cons x xs ih =>
    rw [List.foldl_cons, Option.bind_some] at h
    cases hx : f s x with
    | some u => rw [hx] at h; rw [ih h, hf _ _ _ hx]
    | none =>
      rw [hx] at h
      have hn : ∀ ys : List α, ys.foldl (fun (a : Option State) y => a.bind (fun s => f s y)) none = none := fun ys => by
        induction ys with
        | nil => rfl
        | cons y ys ihy => exact ihy
      rw [hn] at h
      cases h

@[simp] theorem State.setHbmSector_lanesUsed (s : State) (pa : Nat) (x : Sector) : (s.setHbmSector pa x).lanesUsed = s.lanesUsed := rfl
@[simp] theorem State.setSummary_lanesUsed (s : State) (b n : Nat) : (s.setSummary b n).lanesUsed = s.lanesUsed := rfl
@[simp] theorem State.modSeg_lanesUsed (s : State) (g : Nat) (f : Seg → Seg) : (s.modSeg g f).lanesUsed = s.lanesUsed := rfl
@[simp] theorem State.openSeg_lanesUsed (s : State) (g n : Nat) : (s.openSeg g n).lanesUsed = s.lanesUsed := rfl
@[simp] theorem State.failSector_lanesUsed (s : State) (pa : Nat) : (s.failSector pa).lanesUsed = s.lanesUsed := rfl
@[simp] theorem State.moveUpdate_lanesUsed (s : State) (u v : Update) : (s.moveUpdate u v).lanesUsed = s.lanesUsed := rfl

@[simp] theorem State.shipLater_lanesUsed (s : State) (xs : List OutItem) : (s.shipLater xs).lanesUsed = s.lanesUsed := by
  unfold State.shipLater
  split <;> rfl

/-- The summary, live mask and segment of a data block that is written (R250 to R253). -/
theorem State.summarise_lanesUsed (s : State) (b sum g : Nat) (m : Tab (BitVec 16)) (f : Seg → Seg) (xs : List OutItem) :
    ((({ (s.setSummary b sum) with masks := m } : State).modSeg g f).shipLater xs).lanesUsed = s.lanesUsed := State.shipLater_lanesUsed _ _

theorem State.eachSector_lanesUsed (s : State) (g : Nat → Nat) (xs : Tab Sector) :
    (s.each xs (fun s e => s.setHbmSector (g e.1) e.2)).lanesUsed = s.lanesUsed := by
  unfold State.each
  induction xs generalizing s with
  | nil => rfl
  | cons x xs ih =>
    rw [List.foldl_cons, ih]
    exact State.setHbmSector_lanesUsed _ _ _

@[simp] theorem State.writeBlock_lanesUsed (s : State) (b lg : Nat) (xs : Tab Sector) (a d : Bool) (n : Nat) :
    (s.writeBlock b lg xs a d n).lanesUsed = s.lanesUsed :=
  (State.summarise_lanesUsed _ _ _ _ _ _ _).trans (s.eachSector_lanesUsed (fun i => posAddr (16 * b + i)) xs)

@[simp] theorem State.takeBlock_lanesUsed (s : State) (g : Nat) : (s.takeBlock g).2.lanesUsed = s.lanesUsed := by
  unfold State.takeBlock
  simp only
  split <;> rfl

@[simp] theorem State.unref_lanesUsed (s : State) (p : Nat) : (s.unref p).lanesUsed = s.lanesUsed := by
  unfold State.unref
  simp only
  split
  · rfl
  · split <;> rfl

@[simp] theorem State.unrefSrc_lanesUsed (s : State) (x : SecSrc) : (s.unrefSrc x).lanesUsed = s.lanesUsed := by
  cases x with
  | log p => exact s.unref_lanesUsed p
  | comp b o => exact State.foldl_lanesUsed (fun _ _ => State.unref_lanesUsed _ _) _ s
  | zero => rfl
  | host a => rfl
  | lost => rfl

@[simp] theorem State.unstage_lanesUsed (s : State) (u : Update) : (s.unstage u).lanesUsed = s.lanesUsed := by
  unfold State.unstage
  simp only
  split <;> rfl

@[simp] theorem State.allocTable_lanesUsed (s : State) (n : Nat) : (s.allocTable n).2.lanesUsed = s.lanesUsed := by
  unfold State.allocTable
  split <;> rfl

@[simp] theorem State.cowRoot_lanesUsed (s : State) : s.cowRoot.lanesUsed = s.lanesUsed := by
  unfold State.cowRoot
  split
  · rfl
  · exact s.allocTable_lanesUsed _

@[simp] theorem State.cowBlock_lanesUsed (s : State) (lpn : Nat) : (s.cowBlock lpn).lanesUsed = s.lanesUsed := by
  unfold State.cowBlock
  simp only
  split
  · rfl
  · exact (State.allocTable_lanesUsed _ _).trans s.cowRoot_lanesUsed

@[simp] theorem State.modPage_lanesUsed (s : State) (lpn : Nat) (f : PageRec → PageRec) : (s.modPage lpn f).lanesUsed = s.lanesUsed := s.cowBlock_lanesUsed lpn

@[simp] theorem State.cowPage_lanesUsed (s : State) (lpn : Nat) : (s.cowPage lpn).lanesUsed = s.lanesUsed := by
  unfold State.cowPage
  simp only
  split
  · rfl
  · exact (State.modPage_lanesUsed _ lpn (fun p => { p with gen := s.gen, gtab := (s.allocTable gtabBytes).1 / 4096 })).trans (s.allocTable_lanesUsed _)

/-- A data block for the record writer or a stack takes a place of a segment, which may be opened for it. -/
theorem State.recordBlock_lanesUsed {s t : State} {b : Nat} (h : s.recordBlock = some (b, t)) : t.lanesUsed = s.lanesUsed := by
  unfold State.recordBlock at h
  simp only at h
  split at h
  · cases h; exact s.takeBlock_lanesUsed _
  · split at h
    · cases h
    · split at h
      · cases h
      · cases h; exact State.takeBlock_lanesUsed _ _

theorem State.stackBlock_lanesUsed {s t : State} {k b : Nat} (h : s.stackBlock k = some (b, t)) : t.lanesUsed = s.lanesUsed := by
  unfold State.stackBlock at h
  split at h
  · cases h; exact s.takeBlock_lanesUsed _
  · split at h
    · cases h
    · cases h; exact State.takeBlock_lanesUsed _ _

theorem injectHbm_lanesUsed (a : Nat) (r : State × List ErrRec) (c : Nat) : (injectHbm a r c).1.lanesUsed = r.1.lanesUsed := by
  unfold injectHbm
  simp only
  split <;> rfl

theorem foldl_injectHbm_lanesUsed (a : Nat) (cs : List Nat) (r : State × List ErrRec) : (cs.foldl (injectHbm a) r).1.lanesUsed = r.1.lanesUsed := by
  induction cs generalizing r with
  | nil => rfl
  | cons c cs ih => exact (ih _).trans (injectHbm_lanesUsed a r c)

@[simp] theorem State.fireHbm_lanesUsed (s : State) (p : Nat) : (s.fireHbm p).1.lanesUsed = s.lanesUsed := by
  have hr := foldl_injectHbm_lanesUsed (posAddr p) (s.armedAt 0 (fun _ k => k.injAddr.toNat / 32 = posAddr p / 32)) (s, [])
  unfold State.fireHbm
  simp only
  split
  · exact hr
  · exact hr
  · exact hr

theorem State.consolidate_lanesUsed {s t : State} {lg : Nat} (h : s.consolidate lg = some t) : t.lanesUsed = s.lanesUsed := by
  unfold State.consolidate at h
  simp only at h
  split at h
  · cases h
  next hb =>
    cases h
    rw [State.foldl_lanesUsed (fun _ _ => State.unrefSrc_lanesUsed _ _), State.writeBlock_lanesUsed, State.stackBlock_lanesUsed hb]
    exact State.each_lanesUsed (f := fun (u : State) (e : Nat × Nat) => { (u.fireHbm e.2).1 with errDue := (u.fireHbm e.2).1.errDue ++ (u.fireHbm e.2).2 })
      (fun u e => u.fireHbm_lanesUsed e.2) s _

theorem State.setCommitted_lanesUsed {s t : State} {lsec p : Nat} (h : s.setCommitted lsec p = some t) : t.lanesUsed = s.lanesUsed := by
  unfold State.setCommitted at h
  simp only at h
  split at h
  · cases h; exact (State.unrefSrc_lanesUsed _ _).trans (s.cowPage_lanesUsed _)
  · split at h
    · cases h
    next hc =>
      split at h
      · cases h; exact (State.unrefSrc_lanesUsed _ _).trans ((State.consolidate_lanesUsed hc).trans (s.cowPage_lanesUsed _))
      · cases h

theorem State.rewriteUpdate_lanesUsed {s t : State} {u : Update} {q : HeldWrite} (h : s.rewriteUpdate u q = some t) : t.lanesUsed = s.lanesUsed := by
  unfold State.rewriteUpdate at h
  split at h
  · cases h; rfl
  · split at h
    · cases h
    next hb => cases h; simp only [State.unref_lanesUsed, State.unstage_lanesUsed, State.moveUpdate_lanesUsed, State.writeBlock_lanesUsed, State.recordBlock_lanesUsed hb]

theorem State.devGrain_lanesUsed {s t : State} {lg : Nat} {ps : List HeldWrite} {more : List Update} (h : s.devGrain lg ps more = some t) :
    t.lanesUsed = s.lanesUsed := by
  unfold State.devGrain at h
  split at h
  · cases h
  next hb =>
    simp only at h
    obtain ⟨u, hu, ht⟩ := Option.bind_eq_some_iff.1 h
    rw [optEach_lanesUsed (fun _ _ _ hx => optEach_lanesUsed (fun _ _ _ hy => State.rewriteUpdate_lanesUsed hy) hx) ht,
      optEach_lanesUsed (fun _ _ _ hx => State.setCommitted_lanesUsed hx) hu, State.writeBlock_lanesUsed, State.recordBlock_lanesUsed hb]

theorem State.devTogether_lanesUsed {s t : State} {ps : List HeldWrite} {more : List Update} (h : s.devTogether ps more = some t) :
    t.lanesUsed = s.lanesUsed := by
  unfold State.devTogether at h
  split at h
  · cases h
  · exact optEach_lanesUsed (fun _ _ _ hx => State.devGrain_lanesUsed hx) h

@[simp] theorem State.devPieces_lanesUsed (s : State) (ps : List HeldWrite) (more : List Update) : (s.devPieces ps more).lanesUsed = s.lanesUsed := by
  unfold State.devPieces
  simp only
  split
  · rfl
  · cases h : s.devTogether ps more with
    | none => rfl
    | some t => exact State.devTogether_lanesUsed h

@[simp] theorem State.devWriteL_lanesUsed (s : State) (a : Nat) (bs : List Byte) : (s.devWriteL a bs).lanesUsed = s.lanesUsed :=
  State.each_lanesUsed (fun _ _ => State.devPieces_lanesUsed _ _ _) s _
/-- A log record uses no spare lane (R263, R264). -/
theorem State.logErr_lanesUsed (s : State) (r : ErrRec) : (s.logErr r).lanesUsed = s.lanesUsed := by
  unfold State.logErr
  extract_lets f timed stamped count counted mine logged q
  have hcounted : counted.lanesUsed = s.lanesUsed := by
    show State.lanesUsed (ite _ _ _) = _
    split
    · rfl
    · rfl
  have hlogged : logged.lanesUsed = s.lanesUsed := hcounted
  clear_value logged
  have hwritten : ∀ a bytes h, (if q.loc then logged.devWriteL a bytes else { logged with host := h } : State).lanesUsed = logged.lanesUsed := by
    intro a bytes h
    split
    · exact logged.devWriteL_lanesUsed a bytes
    · rfl
  split
  · exact hlogged
  · split
    · exact hlogged
    · exact (hwritten _ _ _).trans hlogged

end Sys2Proof.Machine
end

/-! The steps of the appenders, the dredge engines, the HBM, the scrubbers, host fetches and the outflow (R247, R253 to R262, R344, R365). -/

section
namespace Sys2Proof.Machine

section Appenders
variable {s : State}

theorem exec_appenderAccept_none (h : (s.core s.ev.core).stq = []) : exec .appenderAccept s = .next s := by
  have hx : exec .appenderAccept s = execAppenderAccept s := rfl
  rw [hx]
  unfold execAppenderAccept
  simp only [h]

theorem exec_appenderAccept_some {q : StoreReq} {rest : List StoreReq} (h : (s.core s.ev.core).stq = q :: rest) :
    let r := s.accept s.ev.core q
    exec .appenderAccept s
      = .next (if r.2 then ((r.1.modCore s.ev.core (fun c => { c with stq := rest })).accepted s.ev.core q).relax else r.1) := by
  have hx : exec .appenderAccept s = execAppenderAccept s := rfl
  rw [hx]
  unfold execAppenderAccept
  simp only [h]
  exact (apply_ite Host.Outcome.next _ _ _).symm

theorem exec_appendHoldRelease_waits (h : (s.cluster s.ev.cluster).held = none ∨ s.appendBlock s.ev.cluster = none) :
    exec .appendHoldRelease s = .next s := by
  have hx : exec .appendHoldRelease s = execAppendHoldRelease s := rfl
  rw [hx]
  unfold execAppendHoldRelease
  rcases h with h | h
  · simp only [h, Option.isSome_none, Bool.false_and, Bool.false_eq_true, if_false]
  · simp only [h, ite_self]

/-- A held append goes on: its due entry, or the oldest of a full buffer, or it is over (R253, R256). -/
theorem exec_appendHoldRelease {t0 : Nat} {b : Nat × State} (hh : (s.cluster s.ev.cluster).held = some t0) (hb : s.appendBlock s.ev.cluster = some b) :
    exec .appendHoldRelease s = .next ((s.cluster s.ev.cluster).heldEntry.elim
      (s.modCluster s.ev.cluster (fun c => { c with held := none })) (fun g => (s.flushEntry s.ev.cluster g).1)).relax := by
  have hx : exec .appendHoldRelease s = execAppendHoldRelease s := rfl
  rw [hx]
  unfold execAppendHoldRelease
  simp only [hh, hb, Option.isSome_some, Bool.or_true, Bool.and_self, if_true]
  cases (s.cluster s.ev.cluster).heldEntry <;> rfl

theorem Cluster.heldEntry_due {c : Cluster} {g : GatherEntry} (h : c.gather.find? (fun g => g.isDue) = some g) : c.heldEntry = some g := by
  unfold Cluster.heldEntry
  rw [h]

theorem Cluster.heldEntry_oldest {c : Cluster} (h : ∀ x ∈ c.gather, x.isDue = false) :
    c.heldEntry = if 256 ≤ c.gather.length then c.gather.head? else none := by
  unfold Cluster.heldEntry
  rw [List.find?_eq_none.2 fun x hx => by rw [h x hx]; exact Bool.false_ne_true]

/-- Since when the appends of clusters, copies and held writes are held (R256). -/
theorem State.mem_heldSince {t : Nat} : t ∈ s.heldSince ↔ (∃ c ∈ s.clusters, c.2.held = some t) ∨ (∃ k ∈ s.cores, ∃ x ∈ k.2.copies, x.held = some t)
    ∨ ∃ h ∈ s.heldWrites, h.since = t := by
  unfold State.heldSince
  simp only [List.mem_append, List.mem_filterMap, List.mem_flatMap, List.mem_map, or_assoc]

theorem exec_logPressureEvent (s : State) : exec .logPressureEvent s = .next (if (∃ t ∈ s.heldSince, t + 1000000 ≤ s.timeNs) ∧ s.pressure = false
      then { (s.tryEvent { queue := 0, kind := 4, data := s.fullStacks }).1 with pressure := true } else s) := by
  have hx : exec .logPressureEvent s = execLogPressureEvent s := rfl
  rw [hx]
  unfold execLogPressureEvent
  simp only [Bool.and_eq_true, List.any_eq_true, decide_eq_true_eq, Bool.not_eq_true']
  exact (apply_ite Host.Outcome.next _ _ _).symm

end Appenders

section Dredges
variable {s : State}

/-- The segment that a dredge engine selects is a candidate (R255). -/
theorem State.pickDredge_candidate {t g : Nat} (h : s.pickDredge t = some g) : s.candidate t g = true := by
  unfold State.pickDredge at h
  obtain hn | ⟨e, he, rfl⟩ := foldl_choice (key := Prod.fst) (fun b e => by
    cases b with
    | none => exact .inr rfl
    | some y => dsimp only; split <;> simp) _ _ h
  · cases hn
  · exact (List.mem_filter.1 he).2

theorem exec_dredgeStart_none (h : (∃ d ∈ s.dredges, d.stack = s.ev.stack) ∨ s.pickDredge s.ev.stack = none) : exec .dredgeStart s = .next s := by
  have hx : exec .dredgeStart s = execDredgeStart s := rfl
  rw [hx]
  unfold execDredgeStart
  rcases h with h | h
  · exact if_pos (by simpa using h)
  · simp only [h, ite_self]

/-- Steps taken one after the other until one of them fails: the machine then, and whether none has failed. -/
def State.tryEach {α : Type} (s : State) (xs : List α) (f : State → α → Option State) : State × Bool :=
  xs.foldl (fun (a : State × Bool) x => if a.2 then (match f a.1 x with
    | some t => (t, true)
    | none => (a.1, false)) else a) (s, true)

theorem optEach_none {α : Type} {f : State → α → Option State} (xs : List α) :
    xs.foldl (fun (a : Option State) x => a.bind (fun s => f s x)) none = none := by
  induction xs with
  | nil => rfl
  | cons x xs ih => exact ih

theorem optEach_cons {α : Type} {f : State → α → Option State} (x : α) (xs : List α) :
    optEach s (x :: xs) f = (f s x).bind (fun t => optEach t xs f) := by
  unfold optEach
  rw [List.foldl_cons, Option.bind_some]
  cases f s x with
  | none => exact optEach_none xs
  | some t => rfl

theorem State.tryEach_stopped {α : Type} {f : State → α → Option State} (s : State) (xs : List α) :
    xs.foldl (fun (a : State × Bool) x => if a.2 then (match f a.1 x with
      | some t => (t, true)
      | none => (a.1, false)) else a) (s, false) = (s, false) := by
  induction xs with
  | nil => rfl
  | cons x xs ih => exact ih

/-- Steps that all succeed end as those that may fail; else some first ones have succeeded. -/
theorem State.tryEach_spec {α : Type} (f : State → α → Option State) (s : State) (xs : List α) :
    (∀ u, optEach s xs f = some u → s.tryEach xs f = (u, true))
    ∧ (optEach s xs f = none → ∃ n u, optEach s (xs.take n) f = some u ∧ s.tryEach xs f = (u, false)) := by
  induction xs generalizing s with
  | nil => exact ⟨fun u hu => by cases hu; rfl, fun h => nomatch h⟩
  | cons x xs ih =>
    cases hx : f s x with
    | none =>
      have ht : s.tryEach (x :: xs) f = (s, false) := by
        unfold State.tryEach
        rw [List.foldl_cons, hx]
        exact s.tryEach_stopped xs
      rw [optEach_cons, hx]
      exact ⟨fun u hu => (nomatch hu), fun _ => ⟨0, s, rfl, ht⟩⟩
    | some t =>
      have ht : s.tryEach (x :: xs) f = t.tryEach xs f := by
        unfold State.tryEach
        rw [List.foldl_cons, hx]
        rfl
      rw [optEach_cons, hx, ht]
      refine ⟨(ih t).1, fun hn => ?_⟩
      obtain ⟨n, u, hu, hd⟩ := (ih t).2 hn
      exact ⟨n + 1, u, by rw [List.take_succ_cons, optEach_cons, hx]; exact hu, hd⟩

/-- The blocks of the selected segment are copied, and it drains; where one finds no block, it is sealed again (R255, log 33). -/
theorem exec_dredgeStart_some {g : Nat} (hd : ∀ d ∈ s.dredges, d.stack ≠ s.ev.stack) (hg : s.pickDredge s.ev.stack = some g) :
    let r := (s.modSeg g (fun x => { x with st := .dredging })).tryEach ((s.masks.filter (fun m => decide (m.1 / 4096 = g))).map Prod.fst)
      (fun u b => u.dredgeBlock s.ev.stack b)
    exec .dredgeStart s = .next (if r.2 then { (r.1.modSeg g (fun x => { x with st := .draining })) with
        dredges := r.1.dredges ++ [{ stack := s.ev.stack, seg := g, drained := true }] }
      else r.1.modSeg g (fun x => { x with st := .sealed_ })) := by
  have hx : exec .dredgeStart s = execDredgeStart s := rfl
  rw [hx]
  unfold execDredgeStart
  rw [if_neg (by simpa using hd)]
  simp only [hg]
  exact (apply_ite Host.Outcome.next _ _ _).symm

theorem exec_dredgeDrainComplete_none (h : s.dredges.find? (fun d => d.stack = s.ev.stack && d.drained) = none) :
    exec .dredgeDrainComplete s = .next s := by
  have hx : exec .dredgeDrainComplete s = execDredgeDrainComplete s := rfl
  rw [hx]
  unfold execDredgeDrainComplete
  simp only [h]

/-- A drained segment is free or retired, and neither an IXLB nor L2 names it (R248, R254, R255). -/
theorem exec_dredgeDrainComplete_some {d : Dredge} (h : s.dredges.find? (fun d => d.stack = s.ev.stack && d.drained) = some d) :
    ∃ t, exec .dredgeDrainComplete s = .next t
      ∧ (∀ x, x ∈ t.dredges ↔ x ∈ s.dredges ∧ x ≠ d)
      ∧ t.seg d.seg = { s.seg d.seg with st := if 8 < (s.seg d.seg).badBlocks.length then .retired else .free, owner := 0, live := 0, next := 1 }
      ∧ (∀ g, g ≠ d.seg → t.seg g = s.seg g)
      ∧ (∀ x, x ∈ t.l2 ↔ x ∈ s.l2 ∧ x.key.inSeg d.seg = false)
      ∧ (∀ c ∈ t.clusters, ∀ x ∈ c.2.ixlb, ∀ p ∈ x.pos, p.inSeg d.seg = false) ∧ t.hbm = s.hbm := by
  have hx : exec .dredgeDrainComplete s = execDredgeDrainComplete s := rfl
  rw [hx]
  unfold execDredgeDrainComplete
  simp only [h]
  refine ⟨_, rfl, fun x => ?_, Tab.get_set_same _ _ _ _, fun g hg => Tab.get_set_other _ _ _ hg, fun x => ?_, fun c hc x hx p hp => ?_, rfl⟩
  · exact List.mem_filter.trans (and_congr_right fun _ => decide_eq_true_iff)
  · exact List.mem_filter.trans (and_congr_right fun _ => Bool.not_eq_true' _ ▸ Iff.rfl)
  · obtain ⟨v, hv⟩ := Tab.mem_mapVals hc
    rw [hv] at hx
    have hn := (List.mem_filter.1 hx).2
    rw [Bool.not_eq_true', List.any_eq_false] at hn
    simpa using hn p hp

end Dredges

section Memory
variable {s : State}

/-- A table of which some keys in a row are set to one value. -/
theorem Tab.get_foldl_set {α : Type} [DecidableEq α] (t : Tab α) (d v : α) (a n j : Nat) :
    Tab.get ((List.range n).foldl (fun t i => Tab.set t d (a + i) v) t) d j = if a ≤ j ∧ j < a + n then v else Tab.get t d j := by
  induction n with
  | zero => rw [if_neg (by omega)]; rfl
  | succ n ih =>
    rw [List.range_succ, List.foldl_append, List.foldl_cons, List.foldl_nil, Tab.get_set, ih]
    by_cases hj : j = a + n
    · rw [if_pos hj, if_pos (by omega)]
    · rw [if_neg hj]
      exact if_congr (by omega) rfl rfl

/-- The bus errors of host memory after a fetch: those of the line's words are as the fetch found them (R367). -/
def State.fetchErrs (s : State) : Tab Bool :=
  (List.range 16).foldl (fun t i => Tab.set t false (s.ev.addr / 128 * 128 / 8 + i) s.ev.flag) s.hostErr

theorem exec_hostFetch (s : State) :
    let a := s.ev.addr / 128 * 128
    let u : State := { s with hostErr := s.fetchErrs }
    exec .hostFetch s = .next (if (s.page s.ev.page).valid = true ∧ (s.page s.ev.page).host = true ∧ a / 65536 = (s.page s.ev.page).hbase
      ∧ s.l2Find s.ev.tile (.host a) = none then (u.fetchSrc s.ev.tile s.ev.ctx s.ev.page (.host a)).1 else u) := by
  have hx : exec .hostFetch s = execHostFetch s := rfl
  intro a u
  rw [hx]
  unfold execHostFetch
  simp only [Bool.and_eq_true, decide_eq_true_eq, Option.isNone_iff_eq_none, and_assoc]
  exact (apply_ite Host.Outcome.next _ _ _).symm

theorem getLsbD_four (b0 b1 b2 b3 : Bool) : ∀ i, i < 4 → (BitVec.ofNat 4 ([if b0 then 2 ^ 0 else 0, if b1 then 2 ^ 1 else 0,
    if b2 then 2 ^ 2 else 0, if b3 then 2 ^ 3 else 0] : List Nat).sum).getLsbD i = [b0, b1, b2, b3].getD i false := by
  revert b0 b1 b2 b3
  decide

/-- A word of host memory that reads with a bus error is poisoned (R367). -/
theorem State.hostSector_poison (u : State) (a : Nat) {i : Nat} (hi : i < 4) :
    (u.hostSector a).poison.getLsbD i = Tab.get u.hostErr false (a / 8 + i) := by
  refine (getLsbD_four (Tab.get u.hostErr false (a / 8 + 0)) (Tab.get u.hostErr false (a / 8 + 1)) (Tab.get u.hostErr false (a / 8 + 2))
    (Tab.get u.hostErr false (a / 8 + 3)) i hi).trans ?_
  obtain rfl | rfl | rfl | rfl : i = 0 ∨ i = 1 ∨ i = 2 ∨ i = 3 := by omega
  all_goals rfl

theorem exec_hbmBeatRetry_lost (h : 3 < s.ev.idx) :
    exec .hbmBeatRetry s = .next ((s.poisonHbm (s.ev.addr / 64 * 64) 8).logErr
      { level := 0, kind := 2, unit := hbmUnit s.ev.addr, paddr := s.ev.addr / 64 * 64 }) := by
  have hx : exec .hbmBeatRetry s = execHbmBeatRetry s := rfl
  rw [hx]
  exact if_pos h

theorem exec_hbmBeatRetry_none (h : s.ev.idx = 0) : exec .hbmBeatRetry s = .next s := by
  have hx : exec .hbmBeatRetry s = execHbmBeatRetry s := rfl
  rw [hx]
  exact (if_neg (by omega)).trans (if_pos h)

theorem exec_hbmBeatRetry_crc (h1 : 1 ≤ s.ev.idx) (h3 : s.ev.idx ≤ 3) (hf : s.ev.flag = true) :
    exec .hbmBeatRetry s = .next (s.logErr { level := 0, kind := 4, unit := hbmUnit s.ev.addr, retry := s.ev.idx, paddr := s.ev.addr / 64 * 64 }) := by
  have hx : exec .hbmBeatRetry s = execHbmBeatRetry s := rfl
  rw [hx]
  exact (if_neg (by omega)).trans ((if_neg (by omega)).trans (if_pos hf))

/-- The count of a lane's retries goes up. -/
def State.laneRetried (s : State) : State :=
  let key := hbmUnit s.ev.addr * 128 + s.ev.lane % 128
  { s with laneRetries := Tab.set s.laneRetries 0 key (Tab.get s.laneRetries 0 key + 1) }

theorem State.get_laneRetried (s : State) (j : Nat) : Tab.get s.laneRetried.laneRetries 0 j
    = if j = hbmUnit s.ev.addr * 128 + s.ev.lane % 128 then Tab.get s.laneRetries 0 (hbmUnit s.ev.addr * 128 + s.ev.lane % 128) + 1
      else Tab.get s.laneRetries 0 j := by
  unfold State.laneRetried
  dsimp only
  rw [Tab.get_set]

/-- A lane's retry is counted and logged; its third one moves its traffic to a spare lane, where one is left (R261). -/
theorem exec_hbmBeatRetry_lane (h1 : 1 ≤ s.ev.idx) (h3 : s.ev.idx ≤ 3) (hf : s.ev.flag = false) :
    let unit := hbmUnit s.ev.addr
    let beat := s.ev.addr / 64 * 64
    let v := s.laneRetried.logErr { level := 0, kind := 4, unit := unit, lane := s.ev.lane % 128, retry := s.ev.idx, paddr := beat }
    exec .hbmBeatRetry s = .next (if Tab.get s.laneRetries 0 (unit * 128 + s.ev.lane % 128) + 1 ≠ 3 then v else v.spareLane unit (s.ev.lane % 128) beat) := by
  have hx : exec .hbmBeatRetry s = execHbmBeatRetry s := rfl
  rw [hx]
  exact (if_neg (by omega)).trans ((if_neg (by omega)).trans (if_neg (Bool.eq_false_iff.mp hf)))

theorem State.spareLane_free {unit lane p : Nat} (h : Tab.get s.lanesUsed 0 unit < 4) :
    s.spareLane unit lane p = ({ s with lanesUsed := Tab.set s.lanesUsed 0 unit (Tab.get s.lanesUsed 0 unit + 1) } : State).logErr
      { level := 0, kind := 5, unit := unit, lane := lane, paddr := p } := if_pos h

theorem State.spareLane_none {unit lane p : Nat} (h : 4 ≤ Tab.get s.lanesUsed 0 unit) :
    s.spareLane unit lane p = ({ s with degraded := true } : State).logErr { level := 0, kind := 8, unit := unit, paddr := p } :=
  if_neg (Nat.not_lt.2 h)

/-- The retry counts of the lanes of a stack's 16 channels of 128 lanes begin again (R261). -/
theorem exec_recalibration (s : State) : ∃ t, exec .recalibration s = .next t ∧ t = { s with laneRetries := t.laneRetries }
    ∧ ∀ x, x ∈ t.laneRetries ↔ x ∈ s.laneRetries ∧ x.1 / 2048 ≠ s.ev.stack := by
  have hx : exec .recalibration s = execRecalibration s := rfl
  refine ⟨_, hx, rfl, fun x => List.mem_filter.trans (and_congr_right fun _ => ?_)⟩
  rw [decide_eq_true_eq, Nat.div_div_eq_div_mul]

theorem exec_hbmRefresh (s : State) :
    let c := s.ev.stack * 16 + s.ev.idx % 16
    exec .hbmRefresh s = .next (if Tab.get s.chanRefresh 0 c + 3900 ≤ s.timeNs then { s with chanRefresh := Tab.set s.chanRefresh 0 c s.timeNs } else s) := by
  have hx : exec .hbmRefresh s = execHbmRefresh s := rfl
  rw [hx]
  exact (apply_ite Host.Outcome.next _ _ _).symm

theorem exec_channelGrant (s : State) :
    let c := s.ev.stack * 16 + s.ev.idx % 16
    let x := (s.chanNow s.ev.stack c).arrive s.ev.ints s.ev.lane
    let waits := BitVec.ofNat 7 s.ev.value
    exec .channelGrant s = .next (if x.next waits ≠ some s.ev.kind ∨ 2 ≤ s.ev.kind ∧ 256 < s.ev.addr then s
      else { s with chans := Tab.set s.chans {} c { x.served s.ev.kind with
        last := s.ev.kind, waits := waits, owed := Tab.set x.owed 0 s.ev.kind (Tab.get x.owed 0 s.ev.kind - s.ev.addr) } }) := by
  have hx : exec .channelGrant s = execChannelGrant s := rfl
  intro c x waits
  rw [hx]
  unfold execChannelGrant burstNs
  simp only [Bool.or_eq_true, Bool.and_eq_true, decide_eq_true_eq]
  exact (apply_ite Host.Outcome.next _ _ _).symm

theorem Chan.served_eq (x : Chan) (k : Nat) :
    x.served k = { x with reads := if k = 1 then x.reads.drop 1 else x.reads, due := if k = 1 then x.due - 1 else x.due } := by
  unfold Chan.served
  split
  · rfl
  · rfl

/-- The classes that wait for a channel, in their order (R344). -/
def Chan.waiting (x : Chan) (waits : BitVec 7) : List Nat :=
  [1, 2, 3, 4, 5, 6].filter (fun k => if k = 1 then !x.reads.isEmpty else waits.getLsbD k)

theorem Chan.mem_waiting {x : Chan} {waits : BitVec 7} {k : Nat} :
    k ∈ x.waiting waits ↔ 1 ≤ k ∧ k ≤ 6 ∧ (k = 1 → x.reads ≠ []) ∧ (k ≠ 1 → waits.getLsbD k = true) := by
  have hk : k ∈ [1, 2, 3, 4, 5, 6] ↔ 1 ≤ k ∧ k ≤ 6 := by
    simp only [List.mem_cons, List.not_mem_nil, or_false]
    omega
  unfold Chan.waiting
  rw [List.mem_filter, hk]
  by_cases h1 : k = 1
  · simp [h1]
  · simp [h1, and_assoc]

theorem Chan.sorted_waiting (x : Chan) (waits : BitVec 7) : (x.waiting waits).Pairwise (· < ·) := List.Pairwise.filter _ (by decide)

theorem Chan.next_eq (x : Chan) (waits : BitVec 7) : x.next waits = if 0 < x.due then some 1
    else ((x.waiting waits).find? (fun k => decide (0 < Tab.get x.owed 0 k))).or (x.waiting waits).head? := by
  unfold Chan.next
  refine if_congr Iff.rfl rfl ?_
  unfold Chan.waiting
  cases List.find? _ _ <;> rfl

/-- The first of an ascending list with a property is the least with it. -/
theorem find?_least {p : Nat → Bool} {xs : List Nat} {k : Nat} (hs : xs.Pairwise (· < ·)) (h : xs.find? p = some k) {j : Nat} (hj : j ∈ xs)
    (hp : p j = true) : k ≤ j := by
  obtain ⟨-, as, bs, rfl, has⟩ := List.find?_eq_some_iff_append.1 h
  rcases List.mem_append.1 hj with hj | hj
  · exact absurd hp (by simpa using has j hj)
  · rcases List.mem_cons.1 hj with rfl | hj
    · exact Nat.le_refl _
    · exact Nat.le_of_lt (List.rel_of_pairwise_cons (List.pairwise_append.1 hs).2.1 hj)

/-- What a channel serves next: foreground reads that are due, else the highest class with a floor that is due, else the highest (R344). -/
theorem Chan.next_spec {x : Chan} (waits : BitVec 7) (hd : x.due ≤ x.reads.length) :
    (∀ k, x.next waits = some k → k ∈ x.waiting waits)
    ∧ (0 < x.due → x.next waits = some 1)
    ∧ ∀ k, x.next waits = some k → x.due = 0 →
      0 < Tab.get x.owed 0 k ∧ (∀ j ∈ x.waiting waits, 0 < Tab.get x.owed 0 j → k ≤ j)
        ∨ (∀ j ∈ x.waiting waits, ¬ 0 < Tab.get x.owed 0 j) ∧ ∀ j ∈ x.waiting waits, k ≤ j := by
  rw [Chan.next_eq]
  have hone : 0 < x.due → 1 ∈ x.waiting waits := fun h =>
    Chan.mem_waiting.2 ⟨Nat.le_refl _, by decide, fun _ hn => by rw [hn] at hd; exact absurd hd (Nat.not_le.2 h), fun h => absurd rfl h⟩
  refine ⟨fun k hk => ?_, fun h => if_pos h, fun k hk h0 => ?_⟩
  · split at hk
    next h =>
      cases hk
      exact hone h
    · rcases Option.or_eq_some_iff.1 hk with h | ⟨-, h⟩
      · exact List.mem_of_find?_eq_some h
      · exact List.mem_of_head? h
  · rw [if_neg (by omega)] at hk
    rcases Option.or_eq_some_iff.1 hk with h | ⟨hn, h⟩
    · exact .inl ⟨by simpa using List.find?_some h, fun j hj hp => find?_least (x.sorted_waiting waits) h hj (decide_eq_true hp)⟩
    · refine .inr ⟨fun j hj hp => ?_, fun j hj => ?_⟩
      · exact List.find?_eq_none.1 hn j hj (decide_eq_true hp)
      · obtain ⟨ys, hys⟩ := List.head?_eq_some_iff.1 h
        have hs := x.sorted_waiting waits
        rw [hys] at hj hs
        rcases List.mem_cons.1 hj with rfl | hj
        · exact Nat.le_refl _
        · exact Nat.le_of_lt (List.rel_of_pairwise_cons hs hj)

theorem exec_outflowShip_none (h : s.replica = none ∨ s.outflow = []) : exec .outflowShip s = .next s := by
  have hx : exec .outflowShip s = execOutflowShip s := rfl
  rw [hx]
  unfold execOutflowShip
  rcases h with h | h
  · simp only [h]
  · rw [h]
    cases s.replica <;> rfl

theorem exec_outflowShip_some {p : Nat} {x : OutItem} {rest : List OutItem} (hp : s.replica = some p) (ho : s.outflow = x :: rest) :
    exec .outflowShip s = .next (if s.peerState p = 0 then { s with outflow := rest, outflowSent := s.outflowSent + 1 } else s) := by
  have hx : exec .outflowShip s = execOutflowShip s := rfl
  rw [hx]
  unfold execOutflowShip
  simp only [hp, ho]
  exact (apply_ite Host.Outcome.next _ _ _).symm

end Memory

section Scrub
variable {s : State}

/-- The record of what a scrubber finds (R262, R263). -/
def State.scrubRec (s : State) (unit : Nat) : ErrRec := { level := s.ev.kind, kind := if s.ev.idx = 1 then 1 else 2, unit := unit, paddr := 8 * (s.ev.addr / 8) }

/-- What a scrubber does where a word has been corrected or is lost: `good` and `bad` are the machines then, before the record. -/
def State.Found (s good bad : State) (unit : Nat) : Prop :=
  (s.ev.idx = 1 → exec .scrub s = .next (good.logErr (s.scrubRec unit))) ∧ (s.ev.idx = 2 → exec .scrub s = .next (bad.logErr (s.scrubRec unit)))

theorem exec_scrub_none (h : s.ev.idx = 0 ∨ 2 < s.ev.idx ∨ 8 < s.ev.kind ∨ s.ev.kind = 0 ∧ s.scrubbed s.ev.addr = false) :
    exec .scrub s = .next s := by
  have hx : exec .scrub s = execScrub s := rfl
  rw [hx]
  unfold execScrub
  extract_lets e w log bad
  by_cases hi : e.idx = 0 ∨ 2 < e.idx
  · exact if_pos (by simpa using hi)
  · rw [if_neg (by simpa using hi)]
    have hk : 8 < e.kind ∨ e.kind = 0 ∧ s.scrubbed e.addr = false := by
      rcases h with h | h | h
      · exact absurd (.inl h) hi
      · exact absurd (.inr h) hi
      · exact h
    rcases hk with hk | ⟨hk, hs⟩
    · obtain ⟨n, hn⟩ : ∃ n, e.kind = n + 9 := ⟨e.kind - 9, by omega⟩
      rw [hn]
      rfl
    · simp only [hk, hs]
      rfl

theorem State.found_of {good bad : State} {unit : Nat} (h : s.ev.idx = 1 ∨ s.ev.idx = 2 →
    exec .scrub s = .next ((if s.ev.idx = 2 then bad else good).logErr (s.scrubRec unit))) : s.Found good bad unit :=
  ⟨fun hi => (h (.inl hi)).trans (by rw [if_neg (by omega)]), fun hi => (h (.inr hi)).trans (by rw [if_pos hi])⟩

/-- A scrubber that finds something acts by the level of the memory (R262). -/
theorem exec_scrub_visits (hi : s.ev.idx = 1 ∨ s.ev.idx = 2) : ¬ ((decide (s.ev.idx = 0) || decide (2 < s.ev.idx)) = true) := by
  simp only [Bool.or_eq_true, decide_eq_true_eq]
  omega

theorem State.found_hbm (hk : s.ev.kind = 0) (hs : s.scrubbed s.ev.addr = true) :
    s.Found { s with hbmFlips := s.hbmFlips.filter (fun f => f.word ≠ s.ev.addr / 8) } (s.failSector (s.ev.addr / 32 * 32)) (hbmUnit s.ev.addr) := by
  refine State.found_of fun hi => ?_
  have hx : exec .scrub s = execScrub s := rfl
  rw [hx, State.scrubRec, execScrub, if_neg (exec_scrub_visits hi)]
  simp only [hk, hs, Bool.not_true, Bool.false_eq_true, if_false]

theorem State.found_l2 (hk : s.ev.kind = 1) : s.Found s
    { s with l2 := s.l2.filter (fun x => !(x.tile = s.ev.tile && x.key.number % l2Places / 4 = s.ev.addr / 128)) } s.ev.tile := by
  refine State.found_of fun hi => ?_
  have hx : exec .scrub s = execScrub s := rfl
  rw [hx, State.scrubRec, execScrub, if_neg (exec_scrub_visits hi)]
  simp only [hk]

theorem State.found_l1 (hk : s.ev.kind = 2) : s.Found
    (s.modCore s.ev.core (fun k => { k with
      l1 := mapIf (fun x => x.lsec % l1Places = s.ev.addr / 32) (fun x => { x with flips := x.flips.filter (fun b => b / 64 ≠ s.ev.addr / 8 % 4) }) k.l1 }))
    (((s.core s.ev.core).l1.filter (fun x => x.lsec % l1Places = s.ev.addr / 32)).foldl (fun u x => u.dropLine s.ev.core x.lsec x.tag) s)
    s.ev.core := by
  refine State.found_of fun hi => ?_
  have hx : exec .scrub s = execScrub s := rfl
  rw [hx, State.scrubRec, execScrub, if_neg (exec_scrub_visits hi)]
  simp only [hk]
  rfl

theorem State.found_pool (hk : s.ev.kind = 3) : s.Found s (s.markPoolWord s.ev.core (s.ev.addr / 8)) s.ev.core := by
  refine State.found_of fun hi => ?_
  have hx : exec .scrub s = execScrub s := rfl
  rw [hx, State.scrubRec, execScrub, if_neg (exec_scrub_visits hi)]
  simp only [hk]

theorem State.found_die (hk : s.ev.kind = 4) : s.Found s (s.modCore s.ev.core (fun k => k.markDie [s.ev.addr / 8])) s.ev.core := by
  refine State.found_of fun hi => ?_
  have hx : exec .scrub s = execScrub s := rfl
  rw [hx, State.scrubRec, execScrub, if_neg (exec_scrub_visits hi)]
  simp only [hk]

/-- Where an element of a tile of the accumulator store stands among a group's accumulators. -/
def Group.storeTile (g : Group) (t : Nat) : Option Nat :=
  g.accPlaces.findIdx? (fun p => match p with
    | .store x => x = t
    | .granule _ => false)

/-- The group of a core that has a tile of its accumulator store, and the place of an element of the tile among its accumulators. -/
def State.storeOwner (s : State) (core t n : Nat) : Option (Nat × Nat) :=
  s.groups.findSome? (fun g => if g.2.core ≠ core then none else (g.2.storeTile t).map (fun i => (g.1, 1024 * i + n)))

/-- The accumulator element of a group becomes poisoned. -/
def State.poisonAcc (s : State) (g k : Nat) : State :=
  s.modGroup g (fun r => { r with accs := Tab.set r.accs {} k { (Tab.get r.accs {} k) with poison := true } })

theorem State.found_acc (hk : s.ev.kind = 5) : s.Found s
    ((s.storeOwner s.ev.core (s.ev.addr / 16384) (s.ev.addr % 16384 / 16)).elim s (fun h => s.poisonAcc h.1 h.2)) s.ev.core := by
  refine State.found_of fun hi => ?_
  have hx : exec .scrub s = execScrub s := rfl
  rw [hx, State.scrubRec, execScrub, if_neg (exec_scrub_visits hi)]
  simp only [hk]
  have hown : s.storeOwner s.ev.core (s.ev.addr / 16384) (s.ev.addr % 16384 / 16) = s.groups.findSome? (fun g => if g.2.core ≠ s.ev.core then none
      else (g.2.accPlaces.findIdx? (fun p => match p with
        | .store t => t = s.ev.addr / 16384
        | .granule _ => false)).map (fun i => (g.1, 1024 * i + s.ev.addr % 16384 / 16))) := rfl
  split
  next h ho =>
    rw [hown.trans ho]
    rfl
  next ho =>
    rw [hown.trans ho]
    exact congrArg (fun t : State => Host.Outcome.next (t.logErr _)) (ite_self _).symm

theorem Group.storeTile_some {g : Group} {t i : Nat} (h : g.storeTile t = some i) : g.accPlaces[i]? = some (.store t) := by
  obtain ⟨hi, hp, -⟩ := List.findIdx?_eq_some_iff_getElem.1 h
  rw [List.getElem?_eq_getElem hi]
  cases hq : g.accPlaces[i] with
  | store x =>
    rw [hq] at hp
    rw [show x = t from of_decide_eq_true hp]
  | granule x =>
    rw [hq] at hp
    cases hp

theorem Group.storeTile_none {g : Group} {t : Nat} : g.storeTile t = none ↔ .store t ∉ g.accPlaces := by
  unfold Group.storeTile
  rw [List.findIdx?_eq_none_iff]
  constructor
  · intro h hm
    exact Bool.noConfusion ((h _ hm).symm.trans (decide_eq_true rfl))
  · intro h p hp
    cases p with
    | store x => exact decide_eq_false fun hx => h (hx ▸ hp)
    | granule x => rfl

/-- A tile of the accumulator store that a group of the core has, or none has. -/
theorem State.storeOwner_cases (s : State) (core t n : Nat) :
    (s.storeOwner core t n = none ∧ ∀ g ∈ s.groups, g.2.core = core → .store t ∉ g.2.accPlaces)
    ∨ ∃ g ∈ s.groups, ∃ i, g.2.core = core ∧ g.2.accPlaces[i]? = some (.store t) ∧ s.storeOwner core t n = some (g.1, 1024 * i + n) := by
  cases h : s.storeOwner core t n with
  | none =>
    refine .inl ⟨rfl, fun g hg hc => Group.storeTile_none.1 ?_⟩
    have hn := List.findSome?_eq_none_iff.1 h g hg
    rw [if_neg (not_not.2 hc)] at hn
    exact Option.map_eq_none_iff.1 hn
  | some r =>
    obtain ⟨g, hg, hr⟩ := List.exists_of_findSome?_eq_some h
    have hc : g.2.core = core := by
      by_contra hc
      rw [if_pos hc] at hr
      cases hr
    rw [if_neg (not_not.2 hc)] at hr
    obtain ⟨i, hi, rfl⟩ := Option.map_eq_some_iff.1 hr
    exact .inr ⟨g, hg, i, hc, Group.storeTile_some hi, rfl⟩

theorem exec_scrub_regs (hi : s.ev.idx = 1 ∨ s.ev.idx = 2) (hk : s.ev.kind = 6) :
    exec .scrub s = .next (s.regError s.ev.core s.ev.slot s.ev.value s.ev.lane s.ev.addr (s.ev.idx = 2) (s.scrubRec s.ev.core)) := by
  have hx : exec .scrub s = execScrub s := rfl
  have hr : s.scrubRec s.ev.core = { level := 6, kind := if s.ev.idx = 2 then 2 else 1, unit := s.ev.core, paddr := 8 * (s.ev.addr / 8) } := by
    unfold State.scrubRec
    rw [hk]
    rcases hi with hi | hi <;> rw [hi] <;> rfl
  rw [hx, hr, execScrub, if_neg (exec_scrub_visits hi)]
  simp only [hk]

theorem exec_scrub_entries (hi : s.ev.idx = 1 ∨ s.ev.idx = 2) (hk : s.ev.kind = 7) :
    exec .scrub s = .next (if s.ev.idx = 2 then s.entryError s.ev.core s.ev.value s.ev.addr (s.scrubRec s.ev.core) else s) := by
  have hx : exec .scrub s = execScrub s := rfl
  rw [hx, execScrub, if_neg (exec_scrub_visits hi)]
  simp only [hk]
  refine congrArg Host.Outcome.next (ite_congr rfl (fun h2 => ?_) fun _ => rfl)
  unfold State.scrubRec
  rw [hk, h2]
  rfl

theorem exec_scrub_gather (hi : s.ev.idx = 1 ∨ s.ev.idx = 2) (hk : s.ev.kind = 8) :
    exec .scrub s = .next (s.gatherError s.ev.cluster (s.ev.addr / 512) (s.ev.addr % 512 / 8) (s.ev.idx = 2) (s.scrubRec (8 * s.ev.cluster))) := by
  have hx : exec .scrub s = execScrub s := rfl
  have hr : s.scrubRec (8 * s.ev.cluster) = { level := 8, kind := if s.ev.idx = 2 then 2 else 1, unit := 8 * s.ev.cluster, paddr := 8 * (s.ev.addr / 8) } := by
    unfold State.scrubRec
    rw [hk]
    rcases hi with hi | hi <;> rw [hi] <;> rfl
  rw [hx, hr, execScrub, if_neg (exec_scrub_visits hi)]
  simp only [hk]

end Scrub

section Staging
variable {s : State}

/-- Whether some update or gathered sector is still of a tag (R291). -/
def State.tagHeld (s : State) (t : Nat) : Bool :=
  s.hpend.any (fun u => u.tag = t) || s.hwait.any (fun u => u.tag = t)
    || s.clusters.any (fun c => c.2.pend.any (fun u => u.tag = t) || c.2.gather.any (fun g => g.tag = t))

theorem exec_stagingTagFree_kept {t : Nat} (ht : s.ev.value = t)
    (h : t = 0 ∨ s.tagHeld t = true ∨ s.staging t = .free ∨ ∃ l, s.staging t = .running l) : exec .stagingTagFree s = .next s := by
  have hx : exec .stagingTagFree s = execStagingTagFree s := rfl
  rw [hx]
  unfold execStagingTagFree
  simp only [ht]
  refine if_neg fun hc => ?_
  simp only [Bool.and_eq_true, decide_eq_true_eq, Bool.not_eq_true'] at hc
  obtain ⟨⟨h0, hd⟩, hh⟩ := hc
  rcases h with h | h | h | ⟨l, h⟩
  · exact h0 h
  · exact Bool.false_ne_true (hh.symm.trans h)
  · rw [h] at hd
    cases hd
  · rw [h] at hd
    cases hd

/-- A tag's entry is free again, and no IXLB or clean line of L1 is of it (R291, R355). -/
theorem exec_stagingTagFree {t : Nat} (ht : s.ev.value = t) (h0 : t ≠ 0) (hh : s.tagHeld t = false) (hf : s.staging t ≠ .free)
    (hr : ∀ l, s.staging t ≠ .running l) : ∃ u, exec .stagingTagFree s = .next u
      ∧ u.staging t = .free ∧ (∀ j, j ≠ t → u.staging j = s.staging j)
      ∧ u = { s with stagingT := u.stagingT, clusters := u.clusters, cores := u.cores }
      ∧ (∀ c ∈ u.clusters, ∀ x ∈ c.2.ixlb, x.tag ≠ t)
      ∧ ∀ k ∈ u.cores, ∀ x ∈ k.2.l1, x.tag = t → x.dirty = true := by
  have hx : exec .stagingTagFree s = execStagingTagFree s := rfl
  rw [hx]
  unfold execStagingTagFree
  simp only [ht]
  have hget : ∀ j, Tab.get (Tab.set s.stagingT .free t .free) .free j = if j = t then .free else s.staging j := fun j => Tab.get_set _ _ _ _ _
  refine ⟨_, if_pos ?_, (hget t).trans (if_pos rfl), fun j hj => (hget j).trans (if_neg hj), rfl, fun c hc x hx => ?_, fun k hk x hx hxt => ?_⟩
  · simp only [Bool.and_eq_true, decide_eq_true_eq, Bool.not_eq_true']
    refine ⟨⟨h0, ?_⟩, hh⟩
    cases hs : s.staging t with
    | committed n => rfl
    | discarded n => rfl
    | free => exact absurd hs hf
    | running l => exact absurd hs (hr l)
  · obtain ⟨v, hv⟩ := Tab.mem_mapVals hc
    rw [hv] at hx
    exact of_decide_eq_true (List.mem_filter.1 hx).2
  · obtain ⟨v, hv⟩ := Tab.mem_mapVals hk
    rw [hv] at hx
    have hd := (List.mem_filter.1 hx).2
    simpa [hxt] using hd

end Staging

/-- Settles O57, by an equation for each event and each of its conditions. -/
theorem logEvents : Obligations.LogEvents := by
  unfold Obligations.LogEvents
  intro s e
  refine ⟨exec_appenderAccept_none, fun q rest => exec_appenderAccept_some, exec_appendHoldRelease_waits, fun t0 b hh hb => ?_, ⟨fun hn => ?_, fun hp ht => ?_⟩,
    exec_dredgeStart_none, fun g hd hg => ?_, exec_dredgeDrainComplete_none, fun d => exec_dredgeDrainComplete_some, ?_,
    fun u a i => u.hostSector_poison a, fun u a n => ⟨fun h => if_pos h, fun h => if_neg (Bool.eq_false_iff.mp h)⟩, ?_, ?_, exec_recalibration s, ?_,
    fun x waits hd => ?_, exec_outflowShip_none, fun p x rest hp ho => ?_, ?_⟩
  · have hx := exec_appendHoldRelease hh hb
    refine ⟨fun g hg => ?_, fun g rest hn hgs hl => ?_, fun hn hl => ?_⟩
    · rw [hx, Cluster.heldEntry_due hg]
      rfl
    · rw [hx, Cluster.heldEntry_oldest hn, if_pos hl, show (s.cluster s.ev.cluster).gather = g :: rest from hgs]
      rfl
    · rw [hx, Cluster.heldEntry_oldest hn, if_neg (Nat.not_le.2 hl)]
      rfl
  · refine (exec_logPressureEvent s).trans (congrArg _ (if_neg ?_))
    rintro ⟨⟨t, ht, hl⟩, hp⟩
    rcases hn with hn | hn
    · exact Bool.false_ne_true (hp.symm.trans hn)
    · exact Nat.not_le.2 (hn t (State.mem_heldSince.1 ht)) hl
  · obtain ⟨t, ht, hl⟩ := ht
    exact (exec_logPressureEvent s).trans (congrArg _ (if_pos ⟨⟨t, State.mem_heldSince.2 ht, hl⟩, hp⟩))
  · have hx := exec_dredgeStart_some hd hg
    obtain ⟨hall, hpart⟩ := State.tryEach_spec (fun u b => u.dredgeBlock s.ev.stack b) (s.modSeg g (fun x => { x with st := .dredging }))
      ((s.masks.filter (fun m => decide (m.1 / 4096 = g))).map Prod.fst)
    refine ⟨s.pickDredge_candidate hg, fun u hu => ?_, fun hn => ?_⟩
    · rw [hx, hall u hu]
      rfl
    · obtain ⟨n, u, hu, hs⟩ := hpart hn
      refine ⟨n, u, hu, ?_⟩
      rw [hx, hs]
      rfl
  · have hx := exec_hostFetch s
    refine ⟨s.fetchErrs, Tab.get_foldl_set _ _ _ _ _, fun hn => ?_, fun hv hh ha hl => ?_⟩
    · refine hx.trans (congrArg _ (if_neg ?_))
      rintro ⟨hv, hh, ha, hl⟩
      rcases hn with hn | hn | hn | hn
      · exact Bool.false_ne_true (hn.symm.trans hv)
      · exact Bool.false_ne_true (hn.symm.trans hh)
      · exact hn ha
      · obtain ⟨x, hx⟩ := hn
        exact nomatch hl.symm.trans hx
    · exact hx.trans (congrArg _ (if_pos ⟨hv, hh, ha, Option.eq_none_iff_forall_ne_some.2 (not_exists.1 hl)⟩))
  · refine ⟨exec_scrub_none, State.found_hbm, State.found_l2, State.found_l1, State.found_pool, State.found_die,
      fun hk => ?_, fun hi => ⟨exec_scrub_regs hi, exec_scrub_entries hi, exec_scrub_gather hi⟩⟩
    obtain ⟨hgood, hbad⟩ := State.found_acc hk
    refine ⟨hgood, fun hi => ?_⟩
    have hx := hbad hi
    rcases s.storeOwner_cases s.ev.core (s.ev.addr / 16384) (s.ev.addr % 16384 / 16) with ⟨ho, hnone⟩ | ⟨g, hg, i, hc, hp, ho⟩
    · rw [ho] at hx
      exact ⟨fun _ => hx, fun ⟨g, hg, hc, hp⟩ => absurd hp (hnone g hg hc)⟩
    · rw [ho] at hx
      exact ⟨fun hn => absurd (List.mem_of_getElem? hp) (hn g hg hc), fun _ => ⟨g, hg, i, hc, hp, hx⟩⟩
  · refine ⟨exec_hbmBeatRetry_lost, exec_hbmBeatRetry_none, fun h1 h3 => ⟨exec_hbmBeatRetry_crc h1 h3, fun hf => ?_⟩⟩
    have hx := exec_hbmBeatRetry_lane h1 h3 hf
    have hused := s.laneRetried.logErr_lanesUsed { level := 0, kind := 4, unit := hbmUnit s.ev.addr, lane := s.ev.lane % 128, retry := s.ev.idx
                                                   paddr := s.ev.addr / 64 * 64 }
    refine ⟨s.laneRetried, (s.get_laneRetried _).trans (if_pos rfl), fun j hj => (s.get_laneRetried j).trans (if_neg hj), rfl,
      fun hn => hx.trans (congrArg _ (if_pos hn)), fun hn hu => ?_, fun hn hu => ?_⟩
    · have hgo := hx.trans (congrArg _ ((if_neg (not_not.2 hn)).trans (State.spareLane_free (by rw [hused]; exact hu))))
      have hget : ∀ v : State, v.lanesUsed = s.lanesUsed → ∀ j, Tab.get (Tab.set v.lanesUsed 0 j (Tab.get v.lanesUsed 0 j + 1)) 0 j
          = Tab.get s.lanesUsed 0 j + 1 := fun v hv j => by rw [Tab.get_set_same, hv]
      exact ⟨_, rfl, hget _ hused _, hgo⟩
    · exact hx.trans (congrArg _ ((if_neg (not_not.2 hn)).trans (State.spareLane_none (by rw [hused]; exact hu))))
  · refine ⟨fun hl => ?_, fun hl => (exec_hbmRefresh s).trans (congrArg _ (if_neg (Nat.not_le.2 hl))), fun hn => ?_, fun hn ha => ?_⟩
    · exact ⟨_, (exec_hbmRefresh s).trans (congrArg _ (if_pos hl)), rfl, fun j => Tab.get_set _ _ _ _ _⟩
    · exact (exec_channelGrant s).trans (congrArg _ (if_pos hn))
    · have hgo := (exec_channelGrant s).trans (congrArg _ (if_neg (by
        rintro (h | ⟨h2, h⟩)
        · exact h hn
        · exact ha.elim (fun hk => Nat.not_lt.2 h2 hk) fun ha => Nat.not_lt.2 ha h)))
      rw [Chan.served_eq] at hgo
      exact ⟨_, hgo, rfl, fun j => Tab.get_set _ _ _ _ _⟩
  · obtain ⟨hmem, hdue, hmin⟩ := Chan.next_spec waits hd
    exact ⟨fun k hk => Chan.mem_waiting.1 (hmem k hk), hdue, fun k hk h0 => (hmin k hk h0).imp
      (fun h => ⟨h.1, fun j hj => h.2 j (Chan.mem_waiting.2 hj)⟩) (fun h => ⟨fun j hj => h.1 j (Chan.mem_waiting.2 hj), fun j hj => h.2 j (Chan.mem_waiting.2 hj)⟩)⟩
  · exact ⟨fun h => (exec_outflowShip_some hp ho).trans (congrArg _ (if_pos h)), fun h => (exec_outflowShip_some hp ho).trans (congrArg _ (if_neg h))⟩
  · exact ⟨exec_stagingTagFree_kept rfl, exec_stagingTagFree rfl⟩

end Sys2Proof.Machine
end

/-! The mailbox: when a command is taken, and what each command answers and changes (R423 to R425). -/

section
namespace Sys2Proof.Machine

section Taking
variable {s : State} {n : Nat} {failed : Bool}

theorem State.command_ignored (h : s.reachable = false ∨ s.cstate = 1) (k : State → State) : s.command n failed k = .next s := by
  refine if_pos ?_
  rcases h with h | h
  · simp [h]
  · simp [h]

theorem State.command_taken (hr : s.reachable = true) (hc : s.cstate ≠ 1) (k : State → State) : s.command n failed k
    = .next (if s.phase < n ∨ s.phase = 15 ∧ failed = false then s.taken.answers 3 else k s.taken) := by
  unfold State.command
  rw [if_neg (by simp [hr, hc])]
  simp only [Bool.or_eq_true, Bool.and_eq_true, decide_eq_true_eq, Bool.not_eq_true']
  exact (apply_ite Host.Outcome.next _ _ _).symm

theorem State.command_ready (h : s.MailReady n) (k : State → State) : s.command n failed k = .next (k s.taken) := by
  obtain ⟨hr, hc, hn, h15, -⟩ := h
  rw [State.command_taken hr hc, if_neg (by rintro (h | ⟨h, -⟩) <;> omega)]

theorem State.xlCommand_free (h : s.busy = none) (k : State → State) : s.xlCommand k = s.command 3 false k := by
  unfold State.xlCommand
  rw [h]

theorem State.xlCommand_drain {c : Nat} {p : Option Nat} (h : s.busy = some (.drain c p)) (k : State → State) :
    s.xlCommand k = .next (if s.inFlight c p = true then s else s.answers 0) := by
  unfold State.xlCommand
  rw [h]
  exact (apply_ite Host.Outcome.next _ _ _).symm

theorem State.xlCommand_ready (h : s.MailReady 3) (k : State → State) : s.xlCommand k = .next (k s.taken) := by
  rw [State.xlCommand_free h.2.2.2.2, State.command_ready h]

/-- The checks of a command, in order: the first that fails answers (R425). -/
theorem State.checked_one (s : State) (a : Bool) (x : Nat) (k : State → State) : s.checked [(a, x)] k = if a = true then s.answers x else k s := by
  cases a <;> rfl

theorem State.checked_two (s : State) (a b : Bool) (x y : Nat) (k : State → State) :
    s.checked [(a, x), (b, y)] k = if a = true then s.answers x else if b = true then s.answers y else k s := by
  cases a <;> cases b <;> rfl

theorem State.checked_three (s : State) (a b c : Bool) (x y z : Nat) (k : State → State) :
    s.checked [(a, x), (b, y), (c, z)] k = if a = true then s.answers x else if b = true then s.answers y else if c = true then s.answers z else k s := by
  cases a <;> cases b <;> cases c <;> rfl

/-- Every command of the mailbox is taken by the same rule (R423 to R425). -/
theorem exec_mailRule {m : Instr × Nat × Bool} (h : m ∈ mailRules) (hb : s.busy = none) : ∃ k, exec m.1 s = s.command m.2.1 m.2.2 k := by
  simp only [mailRules, List.mem_cons, List.not_mem_nil, or_false] at h
  rcases h with rfl | rfl | rfl | rfl | rfl | rfl | rfl | rfl | rfl | rfl | rfl | rfl | rfl | rfl | rfl | rfl | rfl | rfl | rfl | rfl | rfl | rfl
  · show ∃ k, execReadErrorLog s = s.command 1 true k
    unfold execReadErrorLog
    exact ⟨_, rfl⟩
  · show ∃ k, execFirmwareUpdate s = s.command 1 true k
    unfold execFirmwareUpdate
    exact ⟨_, rfl⟩
  · show ∃ k, execInitialiseCmd s = s.command 2 false k
    unfold execInitialiseCmd
    exact ⟨_, rfl⟩
  · show ∃ k, execReadAttestation s = s.command 4 false k
    unfold execReadAttestation
    exact ⟨_, rfl⟩
  · show ∃ k, execQueueDescriptor s = s.command 3 false k
    unfold execQueueDescriptor
    exact ⟨_, rfl⟩
  · exact ⟨_, State.xlCommand_free hb _⟩
  · exact ⟨_, State.xlCommand_free hb _⟩
  · exact ⟨_, State.xlCommand_free hb _⟩
  · exact ⟨_, State.xlCommand_free hb _⟩
  · show ∃ k, execPageAllocate s = s.command 3 false k
    unfold execPageAllocate
    exact ⟨_, rfl⟩
  · show ∃ k, execPageFree s = s.command 3 false k
    unfold execPageFree
    exact ⟨_, rfl⟩
  · have hx : exec .migrateHostPage s = execMigrateHostPage s := rfl
    rw [hx, execMigrateHostPage, hb]
    exact ⟨_, rfl⟩
  · show ∃ k, execScrubRates s = s.command 3 false k
    unfold execScrubRates
    exact ⟨_, rfl⟩
  · show ∃ k, execPreempt s = s.command 3 false k
    unfold execPreempt
    exact ⟨_, rfl⟩
  · have hx : exec .resume s = execResume s := rfl
    rw [hx, execResume, hb]
    exact ⟨_, rfl⟩
  · show ∃ k, execKill s = s.command 3 false k
    unfold execKill
    exact ⟨_, rfl⟩
  · have hx : exec .checkpoint s = execCheckpoint s := rfl
    rw [hx, execCheckpoint, hb]
    exact ⟨_, rfl⟩
  · show ∃ k, execReload s = s.command 3 false k
    unfold execReload
    exact ⟨_, rfl⟩
  · show ∃ k, execMeshAndShards s = s.command 3 false k
    unfold execMeshAndShards
    exact ⟨_, rfl⟩
  · show ∃ k, execDebugCtl s = s.command 3 false k
    unfold execDebugCtl
    exact ⟨_, rfl⟩
  · show ∃ k, execPeers s = s.command 3 false k
    unfold execPeers
    exact ⟨_, rfl⟩
  · show ∃ k, execCrossDeviceBarrier s = s.command 3 false k
    unfold execCrossDeviceBarrier
    exact ⟨_, rfl⟩

theorem State.read_respond (s : State) (bs : List Byte) (j : Nat) :
    (s.respond bs).rspbuf.read j = if j < bs.length then bs.getD j 0 else s.rspbuf.read j := by
  refine (Memory.read_writeBytes _ _ _ _).trans ?_
  simp only [Nat.zero_le, true_and, Nat.zero_add, Nat.sub_zero]

end Taking

section Region
variable {s : State}

/-- The doorbell of the mailbox: what the command buffer holds is taken, or answers 1 or 2 at once (R423, R425). -/
theorem exec_cdoor (s : State) : exec .cdoor s =
    let h := leNat (s.cmdbuf.readBytes 0 8)
    let len := h / 2 ^ 16 % 2 ^ 16
    let call : Option MailCall := if len ≤ 4088 then s.mailCall (h % 65536) (s.cmdbuf.readBytes 8 len) else none
    if s.reachable = false ∨ s.cstate = 1 then .next s
    else call.elim (.next (s.taken.answers 1)) (fun m => if h / 2 ^ 32 ≠ 0 then .next (s.taken.answers 2) else m.go s s.ev.seq) := by
  have hx : exec .cdoor s = s.rung s.ev.seq := rfl
  rw [hx]
  unfold State.rung
  extract_lets h len accepted call
  refine if_congr (by simp) rfl ?_
  show (match call with
    | none => _
    | some m => _) = _
  cases call <;> rfl

theorem MailCall.go_next {m : MailCall} {seq : Nat} {v : State} (h : m.run { s with ev := { m.ev with seq := seq } } = .next v) :
    m.go s seq = .next { v with ev := s.ev } := by
  unfold MailCall.go
  rw [h]

/-- An opcode of no command (R424). -/
theorem State.mailCall_none (s : State) {op : Nat} (b : List Byte)
    (h : op ∉ [1, 2, 3, 4, 0x10, 0x20, 0x21, 0x22, 0x23, 0x30, 0x40, 0x41, 0x42, 0x50, 0x60, 0x61]) : s.mailCall op b = none := by
  unfold State.mailCall
  extract_lets sub w on
  simp only [List.mem_cons, List.not_mem_nil, or_false, not_or] at h
  split
  all_goals trivial

/-- Two words in a row (R424). -/
theorem operandWords_two {k n : Nat} (hk : k < 2 ^ 64) (hn : n < 2 ^ 64) : operandWords (leBytes 8 k ++ leBytes 8 n) 2 = some [k, n] := by
  have hlen : (leBytes 8 k ++ leBytes 8 n).length = 8 * 2 := by rw [List.length_append, length_leBytes, length_leBytes]
  have h0 : fieldAt (leBytes 8 k ++ leBytes 8 n) (8 * 0) 8 = k := by
    unfold fieldAt
    rw [Nat.mul_zero, List.drop_zero, List.take_left' (length_leBytes 8 k)]
    exact leNat_leBytes 8 k hk
  have h1 : fieldAt (leBytes 8 k ++ leBytes 8 n) (8 * 1) 8 = n := by
    unfold fieldAt
    rw [Nat.mul_one, List.drop_left' (length_leBytes 8 k), List.take_of_length_le (by rw [length_leBytes])]
    exact leNat_leBytes 8 n hn
  unfold operandWords
  rw [if_pos hlen]
  exact congrArg some (List.cons_eq_cons.2 ⟨h0, List.cons_eq_cons.2 ⟨h1, rfl⟩⟩)

theorem State.drained_eq (v : State) (c : Nat) (p : Option Nat) :
    v.drained c p = if v.inFlight c p = true then { v with busy := some (.drain c p) } else v.answers 0 := rfl

end Region

section Reports
variable {s : State}

theorem exec_readErrorLog (h : s.MailReady 1) : exec .readErrorLog s = .next (if 9 < s.ev.kind ∨ 64 < s.ev.value then s.taken.answers 2
    else (s.taken.respond (((s.errs.filter (fun r => r.level = s.ev.kind)).take s.ev.value).flatMap
      (fun r => r.head false ++ leBytes 8 (Config.syndrome r.syn).toNat ++ leBytes 8 r.time))).answers 0) := by
  have hx : exec .readErrorLog s = execReadErrorLog s := rfl
  rw [hx]
  unfold execReadErrorLog
  dsimp only
  rw [State.command_ready h, State.checked_one]
  simp only [Bool.or_eq_true, decide_eq_true_eq]
  rfl

theorem exec_firmwareUpdate (h : s.MailReady 1) : exec .firmwareUpdate s = .next (if 1 < s.ev.idx then s.taken.answers 2
    else if imageOk s.fuseFloor s.ev.bytes = false then s.taken.answers 6
    else (if s.ev.idx = 0 then { s.taken with flashA := s.ev.bytes } else { s.taken with flashB := s.ev.bytes } : State).answers 0) := by
  have hx : exec .firmwareUpdate s = execFirmwareUpdate s := rfl
  rw [hx]
  unfold execFirmwareUpdate
  dsimp only
  rw [State.command_ready h, State.checked_two]
  simp only [decide_eq_true_eq, Bool.not_eq_true']
  rfl

theorem exec_initialiseCmd (h : s.MailReady 2) : exec .initialiseCmd s = .next (
    if s.ev.value < 512 * 2 ^ 30 ∨ 640 * 2 ^ 30 < s.ev.value ∨ s.ev.value % 65536 ≠ 0 then s.taken.answers 2
    else if s.phase ≠ 2 ∨ s.capacity ≠ none then s.taken.answers 4
    else ({ s.taken with capacity := some s.ev.value } : State).answers 0) := by
  have hx : exec .initialiseCmd s = execInitialiseCmd s := rfl
  rw [hx]
  unfold execInitialiseCmd defaultCapacity
  dsimp only
  rw [State.command_ready h, State.checked_two]
  simp only [Bool.or_eq_true, decide_eq_true_eq, or_assoc, Option.isSome_iff_ne_none]
  rfl

theorem exec_readAttestation (h : s.MailReady 4) : exec .readAttestation s = .next (if s.ev.bytes.length ≠ 32 then s.taken.answers 1
    else ((s.taken.report s.ev.bytes).1.respond ((s.taken.report s.ev.bytes).2 ++ Config.certificate)).answers 0) := by
  have hx : exec .readAttestation s = execReadAttestation s := rfl
  rw [hx]
  unfold execReadAttestation
  dsimp only
  rw [State.command_ready h, State.checked_one]
  simp only [decide_eq_true_eq]
  rfl

end Reports

end Sys2Proof.Machine
end

/-! The mailbox's commands about queues (R322, R341, R343, R410, R424). -/

section
namespace Sys2Proof.Machine

section Queues
variable {s : State}

/-- A queue's descriptor that is read, or that no queue has (R424). -/
theorem exec_queueDescriptor_read (h : s.MailReady 3) (hf : s.ev.flag = true) : exec .queueDescriptor s
    = .next ((s.descriptor s.ev.kind s.ev.queue).elim (s.taken.answers 2) (fun ws => (s.taken.respond (ws.flatMap (leBytes 8))).answers 0)) := by
  have hx : exec .queueDescriptor s = execQueueDescriptor s := rfl
  have hd : s.taken.descriptor s.ev.kind s.ev.queue = s.descriptor s.ev.kind s.ev.queue := rfl
  rw [hx]
  unfold execQueueDescriptor
  dsimp only
  rw [State.command_ready h, if_pos hf, hd]
  cases s.descriptor s.ev.kind s.ev.queue <;> rfl

theorem State.descriptor_none {k : Nat} (h : 3 < k) (n : Nat) : s.descriptor k n = none := by
  obtain ⟨j, rfl⟩ : ∃ j, k = j + 4 := ⟨k - 4, by omega⟩
  rfl

theorem exec_queueDescriptor_unknown (h : s.MailReady 3) (hk : 3 < s.ev.kind) : exec .queueDescriptor s = .next (s.taken.answers 2) := by
  have hx : exec .queueDescriptor s = execQueueDescriptor s := rfl
  cases hf : s.ev.flag with
  | true =>
    rw [exec_queueDescriptor_read h hf, State.descriptor_none hk]
    rfl
  | false =>
    obtain ⟨j, hj⟩ : ∃ j, s.ev.kind = j + 4 := ⟨s.ev.kind - 4, by omega⟩
    rw [hx]
    unfold execQueueDescriptor
    dsimp only
    rw [State.command_ready h, if_neg (Bool.eq_false_iff.mp hf), hj]
    rfl

theorem length_wordBytes (ws : List Nat) : (ws.flatMap (leBytes 8)).length = 8 * ws.length := by
  induction ws with
  | nil => rfl
  | cons w ws ih =>
    rw [List.flatMap_cons, List.length_append, length_leBytes, ih, List.length_cons]
    omega

/-- The words of the descriptor of an enabled ring: its base, its size, vector and tag, HEAD, and the hold-off (R341, R343, R410). -/
structure RingWords (w : Nat → Nat) (base : Nat) (loc : Bool) (log2n vec tag head holdoff : Nat) : Prop where
  base_ : w 0 % 2 ^ 57 = base
  loc_ : decide (w 0 / 2 ^ 57 % 2 = 1) = loc
  log2n_ : w 1 % 32 = log2n
  en_ : w 1 / 2 ^ 63 = 1
  vec_ : w 1 / 2 ^ 16 % 2048 = vec
  tag_ : w 1 / 2 ^ 32 % 65536 = tag
  head_ : w 2 % 2 ^ 32 = head
  holdoff_ : w 3 % 65536 = holdoff
  reserved : w 0 / 2 ^ 58 = 0 ∧ w 1 / 2 ^ 5 % 2 ^ 11 = 0 ∧ w 1 / 2 ^ 27 % 32 = 0 ∧ w 1 / 2 ^ 48 % 2 ^ 15 = 0 ∧ w 3 / 2 ^ 16 = 0
  aligned : base % 32 = 0
  size : ringSize log2n = true

theorem decide_bit (b : Bool) : decide ((if b = true then 1 else 0) = 1) = b := by
  cases b <;> rfl

theorem getD_four_words {xs : List Nat} {a b c d : Nat} (h : xs = [a, b, c, d]) :
    xs.getD 0 0 = a ∧ xs.getD 1 0 = b ∧ xs.getD 2 0 = c ∧ xs.getD 3 0 = d := by
  rw [h]
  exact ⟨rfl, rfl, rfl, rfl⟩

theorem flag_bit (base n : Nat) (b : Bool) : base + (if b = true then n else 0) = base + n * (if b = true then 1 else 0) := by
  cases b <;> simp

theorem ringWords_of {base log2n vec tag head holdoff : Nat} {loc : Bool} (hb : base < 2 ^ 57) (ha : base % 32 = 0) (h4 : 4 ≤ log2n) (h16 : log2n ≤ 16)
    (hv : vec < 2048) (ht : tag < 65536) (hh : head < 2 ^ 32) (ho : holdoff < 65536) {xs : List Nat}
    (hx : xs = [base + (if loc then 2 ^ 57 else 0), log2n + vec * 2 ^ 16 + tag * 2 ^ 32 + 2 ^ 63, head, holdoff]) :
    RingWords (fun i => xs.getD i 0 % 2 ^ 64) base loc log2n vec tag head holdoff := by
  obtain ⟨h0, h1, h2, h3⟩ := getD_four_words hx
  rw [flag_bit] at h0
  have hl : (if loc = true then 1 else 0) ≤ 1 := by split <;> omega
  constructor
  case base_ => rw [h0]; omega
  case loc_ =>
    refine Eq.trans ?_ (decide_bit loc)
    rw [h0]
    congr 2
    omega
  case log2n_ => rw [h1]; omega
  case en_ => rw [h1]; omega
  case vec_ => rw [h1]; omega
  case tag_ => rw [h1]; omega
  case head_ => rw [h2]; omega
  case holdoff_ => rw [h3]; omega
  case reserved =>
    rw [h0, h1, h3]
    refine ⟨?_, ?_, ?_, ?_, ?_⟩
    all_goals omega
  case aligned => exact ha
  case size => simp [ringSize, h4, h16]

section Rings
variable {base log2n vec tag head holdoff : Nat} {loc : Bool}

theorem exec_queueDescriptor_event (h : s.MailReady 3) (hf : s.ev.flag = false) (hk : s.ev.kind = 1) (hq : s.ev.queue < 64)
    (hw : RingWords (fun i => s.ev.ints.getD i 0 % 2 ^ 64) base loc log2n vec tag head holdoff) :
    exec .queueDescriptor s = .next (({ s.taken with eqs := Tab.set s.eqs {} s.ev.queue { (Tab.get s.eqs {} s.ev.queue) with
      base := base, loc := loc, log2n := log2n, vec := vec, ctx := tag, en := true, head := head, holdoff := holdoff } } : State).answers 0) := by
  have hx : exec .queueDescriptor s = execQueueDescriptor s := rfl
  obtain ⟨hb, hl, hn, he, hv, ht, hh, ho, ⟨r0, r1, r2, r3, r4⟩, ha, hs⟩ := hw
  rw [hx]
  unfold execQueueDescriptor
  dsimp only
  rw [State.command_ready h, if_neg (Bool.eq_false_iff.mp hf)]
  simp only [hk]
  simp only [hb, hl, hn, he, hv, ht, hh, ho, r0, r1, r2, r3, r4, decide_true]
  rw [State.checked_one, if_neg (by simp [hq, ha, hs])]
  rfl

theorem exec_queueDescriptor_errors (h : s.MailReady 3) (hf : s.ev.flag = false) (hk : s.ev.kind = 2) (hq : s.ev.queue < 10)
    (hw : RingWords (fun i => s.ev.ints.getD i 0 % 2 ^ 64) base loc log2n vec tag head holdoff) :
    exec .queueDescriptor s = .next (({ s.taken with els := Tab.set s.els {} s.ev.queue { (Tab.get s.els {} s.ev.queue) with
      base := base, loc := loc, log2n := log2n, vec := vec, en := true, head := head, holdoff := holdoff } } : State).answers 0) := by
  have hx : exec .queueDescriptor s = execQueueDescriptor s := rfl
  obtain ⟨hb, hl, hn, he, hv, ht, hh, ho, ⟨r0, r1, r2, r3, r4⟩, ha, hs⟩ := hw
  rw [hx]
  unfold execQueueDescriptor
  dsimp only
  rw [State.command_ready h, if_neg (Bool.eq_false_iff.mp hf)]
  simp only [hk]
  simp only [hb, hl, hn, he, hv, hh, ho, r0, r1, r2, r3, r4, decide_true]
  rw [State.checked_one, if_neg (by simp [hq, ha, hs])]
  rfl

/-- A context's trace ring as its descriptor gives it (R410). -/
def Ctx.traced (x : Ctx) (base : Nat) (loc : Bool) (log2n head tag : Nat) : Ctx :=
  let t := Tab.set (Tab.set (Tab.set x.trace 0 0 base) 0 1 (if loc then 1 else 0)) 0 2 log2n
  { x with trace := Tab.set (Tab.set (Tab.set t 0 3 1) 0 4 head) 0 6 tag, trlost := 0 }

theorem Ctx.ring_traced (x : Ctx) : (x.traced base loc log2n head tag).ring
    = { x.ring with base := base, loc := loc, log2n := log2n, en := true, head := head, ctx := tag } := by
  unfold Ctx.ring Ctx.traced
  simp only [Tab.get_set]
  simp

theorem exec_queueDescriptor_trace (h : s.MailReady 3) (hf : s.ev.flag = false) (hk : s.ev.kind = 3) (hq : s.ev.queue < 65536)
    (hw : RingWords (fun i => s.ev.ints.getD i 0 % 2 ^ 64) base loc log2n vec tag head holdoff) :
    exec .queueDescriptor s = .next ((s.taken.modCtx s.ev.queue (fun x => x.traced base loc log2n head tag)).answers 0) := by
  have hx : exec .queueDescriptor s = execQueueDescriptor s := rfl
  obtain ⟨hb, hl, hn, he, hv, ht, hh, ho, ⟨r0, r1, r2, r3, r4⟩, ha, hs⟩ := hw
  have hloc : (if s.ev.ints.getD 0 0 % 2 ^ 64 / 2 ^ 57 % 2 = 1 then 1 else 0) = if loc then 1 else 0 := by
    rw [← hl]
    simp only [decide_eq_true_eq]
  rw [hx]
  unfold execQueueDescriptor
  dsimp only
  rw [State.command_ready h, if_neg (Bool.eq_false_iff.mp hf)]
  simp only [hk]
  simp only [hb, hloc, hn, he, ht, hh, r0, r1, r2, r3, r4, if_true]
  rw [State.checked_one, if_neg (by simp [hq, ha, hs])]
  rfl

end Rings

/-- A launch queue's descriptor (R322): HEAD stays, TAIL is within the ring's size of it. -/
theorem exec_queueDescriptor_launch {base log2n evq tag head tail : Nat} {loc : Bool} (h : s.MailReady 3) (hf : s.ev.flag = false) (hk : s.ev.kind = 0)
    (hq : s.ev.queue < 64) (hb : base < 2 ^ 57) (ha : base % 256 = 0) (h4 : 4 ≤ log2n) (h16 : log2n ≤ 16) (hv : evq < 64) (ht : tag < 65536)
    (hh : head < 2 ^ 32) (htl : tail < 2 ^ 32)
    (hi : s.ev.ints = [base + (if loc then 2 ^ 57 else 0), log2n + evq * 2 ^ 8 + tag * 2 ^ 16 + 2 ^ 63, head + tail * 2 ^ 32, 0])
    (he : (Tab.get s.eqs ({} : EQueue) evq).en = true) (hfit : (tail + 2 ^ 32 - (Tab.get s.lqs ({} : LQueue) s.ev.queue).head) % 2 ^ 32 ≤ 2 ^ log2n) :
    exec .queueDescriptor s = .next (({ s.taken with
      lqs := Tab.set s.lqs {} s.ev.queue { base := base, loc := loc, log2n := log2n, evq := evq, ctx := tag, en := true, head := (Tab.get s.lqs ({} : LQueue) s.ev.queue).head
                                           tail := tail } } : State).answers 0) := by
  have hx : exec .queueDescriptor s = execQueueDescriptor s := rfl
  obtain ⟨h0, h1, h2, h3⟩ := getD_four_words hi
  rw [flag_bit] at h0
  have hl : (if loc = true then 1 else 0) ≤ 1 := by split <;> omega
  have wbase : s.ev.ints.getD 0 0 % 2 ^ 64 % 2 ^ 57 = base := by rw [h0]; omega
  have wloc : decide (s.ev.ints.getD 0 0 % 2 ^ 64 / 2 ^ 57 % 2 = 1) = loc := by
    refine Eq.trans ?_ (decide_bit loc)
    rw [h0]
    congr 2
    omega
  have wlog : s.ev.ints.getD 1 0 % 2 ^ 64 % 32 = log2n := by rw [h1]; omega
  have wen : s.ev.ints.getD 1 0 % 2 ^ 64 / 2 ^ 63 = 1 := by rw [h1]; omega
  have wevq : s.ev.ints.getD 1 0 % 2 ^ 64 / 2 ^ 8 % 64 = evq := by rw [h1]; omega
  have wtag : s.ev.ints.getD 1 0 % 2 ^ 64 / 2 ^ 16 % 65536 = tag := by rw [h1]; omega
  have wtail : s.ev.ints.getD 2 0 % 2 ^ 64 / 2 ^ 32 = tail := by rw [h2]; omega
  have wres : s.ev.ints.getD 0 0 % 2 ^ 64 / 2 ^ 58 = 0 ∧ s.ev.ints.getD 1 0 % 2 ^ 64 / 2 ^ 5 % 8 = 0 ∧ s.ev.ints.getD 1 0 % 2 ^ 64 / 2 ^ 14 % 4 = 0
      ∧ s.ev.ints.getD 1 0 % 2 ^ 64 / 2 ^ 32 % 2 ^ 31 = 0 ∧ s.ev.ints.getD 3 0 % 2 ^ 64 = 0 := by
    rw [h0, h1, h3]
    refine ⟨?_, ?_, ?_, ?_, ?_⟩
    all_goals omega
  obtain ⟨r0, r1, r2, r3, r4⟩ := wres
  have hs : ringSize log2n = true := by simp [ringSize, h4, h16]
  have he' : (Tab.get s.taken.eqs ({} : EQueue) evq).en = true := he
  have hfit' : (tail + 2 ^ 32 - (Tab.get s.taken.lqs ({} : LQueue) s.ev.queue).head) % 2 ^ 32 ≤ 2 ^ log2n := hfit
  rw [hx]
  unfold execQueueDescriptor
  dsimp only
  rw [State.command_ready h, if_neg (Bool.eq_false_iff.mp hf)]
  simp only [hk]
  simp only [wbase, wloc, wlog, wen, wevq, wtag, wtail, r0, r1, r2, r3, r4]
  rw [State.checked_one, if_neg (by simpa [hq, ha, hs, he'] using hfit')]
  rfl

end Queues

end Sys2Proof.Machine
end

/-! The mailbox's commands about contexts, mappings and pages (R346 to R349, R368, R424). -/

section
namespace Sys2Proof.Machine

section Contexts
variable {s : State}

/-- A context's entry is written (R399). -/
def State.putCtx (s : State) (t : Nat) (y : Ctx) : State := { s with ctxs := Tab.set s.ctxs {} t y }

theorem State.ctx_putCtx (s : State) (t : Nat) (y : Ctx) (n : Nat) : (s.putCtx t y).ctx n = if n = t then y else s.ctx n := Tab.get_set _ _ _ _ _

/-- A context's entry as a CONTEXT command clears it (R424). -/
def Ctx.cleared (x : Ctx) : Ctx := { x with valid := false, root := 0, pnq := 0, pnqen := false, aper := false, hpth := 256 }

/-- The translations of a context are dropped, and accesses that used them are waited for (R348). -/
def State.retranslated (s : State) (t : Nat) : State := (s.tlbDrop t (fun _ => true)).drained t none

theorem exec_contextSet_range (h : s.MailReady 3) (hc : 65536 ≤ s.ev.ctx) : exec .contextSet s = .next (s.taken.answers 2) := by
  have hx : exec .contextSet s = execContextSet s := rfl
  rw [hx]
  unfold execContextSet
  dsimp only
  rw [State.xlCommand_ready h, State.checked_two, if_pos (by simp [hc])]

theorem exec_contextSet_clear (h : s.MailReady 3) (hc : s.ev.ctx < 65536) (hf : s.ev.flag = true) : exec .contextSet s = .next (
    if (s.ctx s.ev.ctx).valid = false then (s.taken.putCtx s.ev.ctx (s.ctx s.ev.ctx).cleared).answers 0
    else if s.taken.openNodes s.ev.ctx = true then s.taken.answers 4
    else (s.taken.putCtx s.ev.ctx (s.ctx s.ev.ctx).cleared).retranslated s.ev.ctx) := by
  have hx : exec .contextSet s = execContextSet s := rfl
  have ht : s.taken.ctx s.ev.ctx = s.ctx s.ev.ctx := rfl
  rw [hx]
  unfold execContextSet
  dsimp only
  rw [State.xlCommand_ready h, State.checked_two, ht, hf]
  simp only [Nat.not_le.2 hc, decide_false, Bool.not_true, Bool.false_and, Bool.or_self, Bool.false_eq_true, if_false, if_true, Bool.not_false,
    Bool.and_true, Bool.true_or]
  cases (s.ctx s.ev.ctx).valid with
  | false => rfl
  | true =>
    simp only [Bool.true_and, if_true, Bool.true_eq_false, if_false]
    rfl

/-- The words of a context's entry (R399). -/
structure EntryWords (w0 w1 : Nat) (valid pnqen aper : Bool) (root pnq hpth bytes : Nat) : Prop where
  valid_ : decide (w0 % 2 = 1) = valid
  root_ : w0 / 2 ^ 14 % 2 ^ 26 * 16384 = root
  pnq_ : w1 % 64 = pnq
  pnqen_ : decide (w1 / 64 % 2 = 1) = pnqen
  aper_ : decide (w1 / 2 ^ 14 % 2 = 1) = aper
  hpth_ : w1 / 2 ^ 16 % 65536 = hpth
  reserved : w0 / 2 % 2 ^ 13 = 0 ∧ w0 / 2 ^ 40 = 0 ∧ w1 / 2 ^ 7 % 128 = 0 ∧ w1 / 2 ^ 15 % 2 = 0 ∧ w1 / 2 ^ 32 = 0
  some : hpth ≠ 0
  fits : valid = true → root < 768 * 2 ^ 30 ∧ root % 2 ^ 36 < bytes

theorem entryWords_of {valid pnqen aper : Bool} {root pnq hpth bytes : Nat} (ha : root % 16384 = 0) (hr : root < 2 ^ 40) (hp : pnq < 64) (h0 : 0 < hpth)
    (hh : hpth < 65536) (hv : valid = true → root < 768 * 2 ^ 30 ∧ root % 2 ^ 36 < bytes) {xs : List Nat}
    (hx : xs = [root + (if valid then 1 else 0), pnq + (if pnqen then 64 else 0) + (if aper then 2 ^ 14 else 0) + hpth * 2 ^ 16]) :
    EntryWords (xs.getD 0 0 % 2 ^ 64) (xs.getD 1 0 % 2 ^ 64) valid pnqen aper root pnq hpth bytes := by
  have w0 : xs.getD 0 0 = root + (if valid = true then 1 else 0) := by rw [hx]; rfl
  have w1 : xs.getD 1 0 = pnq + (if pnqen = true then 64 else 0) + (if aper = true then 2 ^ 14 else 0) + hpth * 2 ^ 16 := by rw [hx]; rfl
  rw [flag_bit pnq, flag_bit _ (2 ^ 14)] at w1
  have bv : (if valid = true then 1 else 0) ≤ 1 := by split <;> omega
  have bq : (if pnqen = true then 1 else 0) ≤ 1 := by split <;> omega
  have bp : (if aper = true then 1 else 0) ≤ 1 := by split <;> omega
  constructor
  case valid_ =>
    refine Eq.trans ?_ (decide_bit valid)
    rw [w0]
    congr 2
    omega
  case root_ => rw [w0]; omega
  case pnq_ => rw [w1]; omega
  case pnqen_ =>
    refine Eq.trans ?_ (decide_bit pnqen)
    rw [w1]
    congr 2
    omega
  case aper_ =>
    refine Eq.trans ?_ (decide_bit aper)
    rw [w1]
    congr 2
    omega
  case hpth_ => rw [w1]; omega
  case reserved =>
    rw [w0, w1]
    refine ⟨?_, ?_, ?_, ?_, ?_⟩
    all_goals omega
  case some => omega
  case fits => exact hv

/-- A context's entry as a CONTEXT command sets it; its PROG counters begin at 0 where it becomes valid (R424). -/
def Ctx.entered (x : Ctx) (valid pnqen aper : Bool) (root pnq hpth : Nat) : Ctx :=
  { x with valid := valid, root := root, pnq := pnq, pnqen := pnqen, aper := aper, hpth := hpth
           prog := if valid = true ∧ x.valid = false then [] else x.prog }

theorem exec_contextSet_entry {valid pnqen aper : Bool} {root pnq hpth : Nat} (h : s.MailReady 3) (hc : s.ev.ctx < 65536) (hf : s.ev.flag = false)
    (hw : EntryWords (s.ev.ints.getD 0 0 % 2 ^ 64) (s.ev.ints.getD 1 0 % 2 ^ 64) valid pnqen aper root pnq hpth s.taken.tableBytes) :
    exec .contextSet s = .next (
      let x := s.ctx s.ev.ctx
      let v := s.taken.putCtx s.ev.ctx (x.entered valid pnqen aper root pnq hpth)
      if x.valid = true ∧ valid = false ∧ s.taken.openNodes s.ev.ctx = true then s.taken.answers 4
      else if x.valid = true ∧ (valid = false ∨ root ≠ x.root) then v.retranslated s.ev.ctx else v.answers 0) := by
  have hx : exec .contextSet s = execContextSet s := rfl
  have ht : s.taken.ctx s.ev.ctx = s.ctx s.ev.ctx := rfl
  obtain ⟨hv, hr, hp, hq, ha, hh, ⟨r0, r1, r2, r3, r4⟩, h0, hfit⟩ := hw
  have hput : (if (valid && !(s.ctx s.ev.ctx).valid) = true then
        { s.ctx s.ev.ctx with valid := valid, root := root, pnq := pnq, pnqen := pnqen, aper := aper, hpth := hpth, prog := [] }
      else { s.ctx s.ev.ctx with valid := valid, root := root, pnq := pnq, pnqen := pnqen, aper := aper, hpth := hpth } : Ctx)
      = (s.ctx s.ev.ctx).entered valid pnqen aper root pnq hpth := by
    unfold Ctx.entered
    cases valid <;> cases (s.ctx s.ev.ctx).valid <;> rfl
  have hbad : (valid && (decide (768 * 2 ^ 30 ≤ root) || decide (s.taken.tableBytes ≤ root % 2 ^ 36))) = false := by
    cases valid with
    | false => rfl
    | true =>
      obtain ⟨h1, h2⟩ := hfit rfl
      rw [decide_eq_false (Nat.not_le.2 h1), decide_eq_false (Nat.not_le.2 h2)]
      rfl
  rw [hx]
  unfold execContextSet
  dsimp only
  rw [State.xlCommand_ready h, State.checked_two, ht, hf]
  simp only [hv, hr, hp, hq, ha, hh, r0, r1, r2, r3, r4, h0, hbad, Bool.not_false, Bool.true_and, Bool.false_eq_true, if_false, hput]
  refine congrArg Host.Outcome.next ((if_neg (by simp [Nat.not_le.2 hc])).trans (if_congr ?_ rfl (if_congr ?_ rfl rfl)))
  · simp only [Bool.and_eq_true, Bool.not_eq_true', and_assoc]
  · simp only [Bool.and_eq_true, Bool.or_eq_true, Bool.not_eq_true', decide_eq_true_eq]

end Contexts

end Sys2Proof.Machine
end

/-! The mailbox's commands about mappings, pages and scrub rates (R348, R349, R352, R425). -/

section
namespace Sys2Proof.Machine

section Mappings
variable {s : State}

/-- A leaf's attributes are those of its page (R346, R348). -/
def PageRec.suits (pg : PageRec) (y : Word) : Bool :=
  decide ((y.extractLsb' 3 3).toNat = attrCompressed) == pg.comp && decide ((y.extractLsb' 3 3).toNat = attrHost) == pg.host

theorem PageRec.suits_iff (pg : PageRec) (y : Word) : pg.suits y = true ↔
    (((y.extractLsb' 3 3).toNat = attrCompressed) = (pg.comp = true)) ∧ (((y.extractLsb' 3 3).toNat = attrHost) = (pg.host = true)) := by
  simp only [PageRec.suits, Bool.and_eq_true, beq_iff_eq, eq_iff_iff, Bool.eq_iff_iff (b := pg.comp), Bool.eq_iff_iff (b := pg.host), decide_eq_true_eq]

theorem PageRec.suits_false (pg : PageRec) (y : Word) : pg.suits y = false ↔
    (decide ((y.extractLsb' 3 3).toNat = attrCompressed) != pg.comp) = true ∨ (decide ((y.extractLsb' 3 3).toNat = attrHost) != pg.host) = true := by
  simp only [PageRec.suits, Bool.and_eq_false_iff, bne, Bool.not_eq_true']

/-- The page of a leaf is mapped by another leaf (R349). -/
def State.mappedTwice (s : State) (ctx vpn : Nat) (y : Word) : Bool :=
  s.ctxs.any (fun c => c.2.valid && (s.leaves c.1).any (fun l => (l.2.extractLsb' 16 24).toNat = (y.extractLsb' 16 24).toNat && !(c.1 = ctx && l.1 = vpn)))

theorem State.mappedTwice_iff (s : State) (ctx vpn : Nat) (y : Word) : s.mappedTwice ctx vpn y = true ↔
    ∃ c ∈ s.ctxs, c.2.valid = true ∧ ∃ l ∈ s.leaves c.1, l.2.extractLsb' 16 24 = y.extractLsb' 16 24 ∧ ¬(c.1 = ctx ∧ l.1 = vpn) := by
  simp only [State.mappedTwice, List.any_eq_true, Bool.and_eq_true, decide_eq_true_eq, BitVec.toNat_inj, Bool.not_eq_true', ← Bool.not_eq_true]

theorem exec_mapPage (h : s.MailReady 3) : exec .mapPage s = .next (
    let y : Word := BitVec.ofNat 64 s.ev.value
    let pg := s.page (y.extractLsb' 16 24).toNat
    if 65536 ≤ s.ev.ctx ∨ 2 ^ 41 ≤ s.ev.page ∨ inAperture s.ev.page = true ∨ s.taken.leafOk y = false then s.taken.answers 2
    else if (s.ctx s.ev.ctx).valid = false ∨ pg.valid = false ∨ pg.suits y = false ∨ pg.host = true ∧ s.taken.mappedTwice s.ev.ctx s.ev.page y = true
    then s.taken.answers 4
    else s.taken.remap s.ev.ctx s.ev.page y) := by
  have hx : exec .mapPage s = execMapPage s := rfl
  rw [hx]
  unfold execMapPage
  extract_lets e x lpn attr y pg
  rw [State.xlCommand_ready h, State.checked_two]
  refine congrArg Host.Outcome.next (if_congr ?_ rfl (if_congr ?_ rfl rfl))
  · simp only [Bool.or_eq_true, decide_eq_true_eq, Bool.not_eq_true', or_assoc]
    exact Iff.rfl
  · show (!(s.ctx s.ev.ctx).valid || !pg.valid || (attr = attrCompressed) != pg.comp || (attr = attrHost) != pg.host
      || (pg.host && s.taken.mappedTwice s.ev.ctx s.ev.page y)) = true ↔ _
    simp only [Bool.or_eq_true, Bool.and_eq_true, Bool.not_eq_true', or_assoc, PageRec.suits_false]
    exact Iff.rfl

theorem exec_unmap (h : s.MailReady 3) : exec .unmap s = .next (if 65536 ≤ s.ev.ctx ∨ 2 ^ 41 ≤ s.ev.page then s.taken.answers 2
    else if s.taken.mappedAt s.ev.ctx s.ev.page = none then s.taken.answers 4 else s.taken.remap s.ev.ctx s.ev.page 0) := by
  have hx : exec .unmap s = execUnmap s := rfl
  rw [hx]
  unfold execUnmap
  dsimp only
  rw [State.xlCommand_ready h, State.checked_two]
  simp only [Bool.or_eq_true, decide_eq_true_eq, Option.isNone_iff_eq_none]

theorem exec_protect (h : s.MailReady 3) : exec .protect s = .next (
    let y : Word := BitVec.ofNat 64 s.ev.value
    let pg := s.page (y.extractLsb' 16 24).toNat
    if 65536 ≤ s.ev.ctx ∨ 2 ^ 41 ≤ s.ev.page ∨ s.taken.leafOk y = false then s.taken.answers 2
    else if (s.taken.mappedAt s.ev.ctx s.ev.page).map (fun o => o.extractLsb' 16 24) ≠ some (y.extractLsb' 16 24) ∨ pg.suits y = false
    then s.taken.answers 4
    else s.taken.remap s.ev.ctx s.ev.page y) := by
  have hx : exec .protect s = execProtect s := rfl
  rw [hx]
  unfold execProtect
  extract_lets e x attr y pg
  rw [State.xlCommand_ready h, State.checked_two]
  refine congrArg Host.Outcome.next (if_congr ?_ rfl (if_congr ?_ rfl rfl))
  · simp only [Bool.or_eq_true, decide_eq_true_eq, Bool.not_eq_true', or_assoc]
    exact Iff.rfl
  · cases s.taken.mappedAt s.ev.ctx s.ev.page with
    | none => exact iff_of_true rfl (Or.inl nofun)
    | some o =>
      simp only [Bool.or_eq_true, Bool.not_eq_true', or_assoc, PageRec.suits_false, beq_eq_false_iff_ne, Option.map_some, ne_eq, Option.some_inj]
      exact Iff.rfl

theorem State.remap_new {c p : Nat} {y : Word} {v : State} (hm : s.mappedAt c p = none) (hv : s.setLeaf c p y = some v) : s.remap c p y = v.answers 0 := by
  unfold State.remap
  dsimp only
  rw [hv, hm]
  rfl

theorem State.page_modPage (s : State) (lpn : Nat) (f : PageRec → PageRec) (n : Nat) :
    (s.modPage lpn f).page n = if n = lpn then f (s.page lpn) else s.page n := by
  refine (Tab.get_set _ _ _ _ _).trans ?_
  rw [State.cowBlock_page]
  exact congrArg (fun p : PageRec => if n = lpn then _ else p) (s.cowBlock_page lpn n)

theorem exec_migrateHostPage_range (h : s.MailReady 3) (hc : 65536 ≤ s.ev.ctx) : exec .migrateHostPage s = .next (s.taken.answers 2) := by
  have hx : exec .migrateHostPage s = execMigrateHostPage s := rfl
  have hb : s.busy = none := h.2.2.2.2
  rw [hx, execMigrateHostPage, hb]
  dsimp only
  rw [State.command_ready h, State.checked_two, if_pos (by simp [hc])]

/-- A page begins to move from host memory to HBM: its lines are written back, and no IXLB keeps a grain of it (R349). -/
def State.beginMigrate (s : State) (c vpn lpn : Nat) : State :=
  ({ (s.modPage lpn (fun p => { p with wb := true })) with busy := some (.migrate c vpn) } : State).modClusters
    (fun c => { c with ixlb := c.ixlb.filter (fun x => x.grain / 128 ≠ lpn) })

theorem exec_migrateHostPage_host {o : Word} (h : s.MailReady 3) (hc : s.ev.ctx < 65536) (hp : s.ev.page < 2 ^ 41) (hv : (s.ctx s.ev.ctx).valid = true)
    (ho : s.taken.mappedAt s.ev.ctx s.ev.page = some o) (hh : (s.page (o.extractLsb' 16 24).toNat).host = true) :
    exec .migrateHostPage s = .next (s.taken.beginMigrate s.ev.ctx s.ev.page (o.extractLsb' 16 24).toNat) := by
  have hx : exec .migrateHostPage s = execMigrateHostPage s := rfl
  have hb : s.busy = none := h.2.2.2.2
  have hv' : (s.taken.ctx s.ev.ctx).valid = true := hv
  have hh' : (s.taken.page (o.extractLsb' 16 24).toNat).host = true := hh
  rw [hx, execMigrateHostPage, hb]
  dsimp only
  rw [State.command_ready h, State.checked_two, if_neg (by simpa [hc] using hp), ho,
    if_neg (by simp only [hv', hh', Option.isNone_some, Bool.not_true, Bool.or_self, Bool.false_eq_true, not_false_eq_true])]
  rfl

end Mappings

section Pages
variable {s : State}

theorem exec_pageFree (h : s.MailReady 3) : exec .pageFree s = .next (if ¬ s.ev.page * 65536 < s.cap then s.taken.answers 2
    else if (s.page s.ev.page).valid = false then s.taken.answers 4 else (s.taken.freePage s.ev.page).answers 0) := by
  have hx : exec .pageFree s = execPageFree s := rfl
  rw [hx]
  unfold execPageFree
  dsimp only
  rw [State.command_ready h, State.checked_two]
  simp only [decide_eq_true_eq, Bool.not_eq_true', Nat.not_lt]
  rfl

theorem exec_pageAllocate_range (h : s.MailReady 3) (hp : ¬ s.ev.page * 65536 < s.cap) : exec .pageAllocate s = .next (s.taken.answers 2) := by
  have hx : exec .pageAllocate s = execPageAllocate s := rfl
  have hp' : s.taken.cap ≤ s.ev.page * 65536 := Nat.not_lt.1 hp
  rw [hx]
  unfold execPageAllocate
  dsimp only
  rw [State.command_ready h, State.checked_two, if_pos (by simp [hp'])]

theorem exec_pageAllocate_local (h : s.MailReady 3) (hp : s.ev.page * 65536 < s.cap) (hk : s.ev.kind ≤ 1) (hf : s.ev.flag = false) (hv : s.ev.value = 0) :
    exec .pageAllocate s = .next (if (s.page s.ev.page).valid = true then s.taken.answers 4
      else (s.taken.makePage s.ev.page false (s.ev.kind = 1) 0).elim (s.taken.answers 5) (fun v => v.answers 0)) := by
  have hx : exec .pageAllocate s = execPageAllocate s := rfl
  have hp' : s.ev.page * 65536 < s.taken.cap := hp
  rw [hx]
  unfold execPageAllocate
  dsimp only
  rw [State.command_ready h, State.checked_two, if_neg (by simp [hp', hk, hf, hv]), hf, hv]
  cases s.taken.makePage s.ev.page false (decide (s.ev.kind = 1)) 0 <;> rfl

/-- A page that is made (R352, R362): its record, and every other page's as before. -/
theorem State.makePage_some {lpn hbase : Nat} {host comp : Bool} {v : State} (h : s.makePage lpn host comp hbase = some v) :
    (v.page lpn).valid = true ∧ (v.page lpn).comp = comp ∧ ∀ n, n ≠ lpn → v.page n = s.page n := by
  have halloc : ∀ n, (s.allocTable gtabBytes).2.page n = s.page n := fun n => by
    obtain ⟨r, f, p, k, ht⟩ := s.tablesOnly_allocTable gtabBytes
    rw [ht]
    rfl
  have hpage : ∃ x : PageRec, x.valid = true ∧ x.comp = comp ∧ ∀ n, v.page n = if n = lpn then x else s.page n := by
    unfold State.makePage at h
    cases ht : s.homeTile lpn with
    | none =>
      rw [ht] at h
      cases h
    | some t =>
      rw [ht] at h
      obtain ⟨-, hv⟩ := Option.ite_none_left_eq_some.1 h
      have hv := Option.some.inj hv
      exact ⟨_, rfl, rfl, fun n => by rw [← hv, State.page_modPage, halloc]⟩
  obtain ⟨x, hxv, hxc, hpage⟩ := hpage
  refine ⟨?_, ?_, fun n hn => ?_⟩
  · rw [hpage, if_pos rfl, hxv]
  · rw [hpage, if_pos rfl, hxc]
  · rw [hpage, if_neg hn]

/-- The least and the greatest interval of each scrubber (R262). -/
def scrubRange : Nat → Nat × Nat
  | 0 => (1000000, 100000000)
  | 1 => (10000000, 1000000000)
  | _ => (300000000000, 86400000000000)

theorem exec_scrubRates (h : s.MailReady 3) (hk : s.ev.kind ≤ 2) : exec .scrubRates s = .next (
    if s.ev.value < (scrubRange s.ev.kind).1 ∨ (scrubRange s.ev.kind).2 < s.ev.value then s.taken.answers 2
    else ({ s.taken with scrubRates := Tab.set s.scrubRates 0 s.ev.kind s.ev.value } : State).answers 0) := by
  have hx : exec .scrubRates s = execScrubRates s := rfl
  have hk' : decide (2 < s.ev.kind) = false := decide_eq_false (Nat.not_lt.2 hk)
  rw [hx]
  unfold execScrubRates
  dsimp only
  rw [State.command_ready h, State.checked_one, hk']
  simp only [Bool.false_or, Bool.or_eq_true, decide_eq_true_eq]
  rfl

theorem scrubRange_of {r : Nat × Nat × Nat} (h : r ∈ [(0, 1000000, 100000000), (1, 10000000, 1000000000), (2, 300000000000, 86400000000000)]) :
    r.1 ≤ 2 ∧ scrubRange r.1 = r.2 := by
  revert r
  decide

end Pages

end Sys2Proof.Machine
end

/-! The mailbox's commands about pre-emption, checkpoints and shards (R341, R382, R384, R389, R395, R396, R430, R431). -/

section
namespace Sys2Proof.Machine

section Preemption
variable {s : State}

/-- An operand that is 0 stands for its default (R424). -/
def orDefault (x d : Nat) : Nat := if x = 0 then d else x

/-- A pre-emption begins: its deadlines and its window, and no trial of the context goes on (R382, R384). -/
def State.beginPreempt (s : State) (t d1 d2 win len : Nat) : State :=
  { s.modCtx t (fun x => { x with stage := 1, pstart := s.timeNs, d1 := s.timeNs + d1, d2 := s.timeNs + d2, window := win, winLen := len }) with
    busy := some (.preempt t)
    trial := if s.trial.active = true ∧ s.trial.ctx = t then { s.trial with active := false, endAt := none } else s.trial }

theorem exec_preempt (h : s.MailReady 3) : exec .preempt s = .next (
    let d1 := orDefault (s.ev.ints.getD 0 0) 100000
    let d2 := orDefault (s.ev.ints.getD 1 0) 10000000
    let win := s.ev.ints.getD 2 0
    if 65536 ≤ s.ev.ctx ∨ d1 < 1000 ∨ 1000000000 < d1 ∨ d2 < d1 ∨ win % 65536 ≠ 0 ∨ 2 ^ 57 ≤ win then s.taken.answers 2
    else if (s.ctx s.ev.ctx).valid = false ∨ (s.ctx s.ev.ctx).stage ≠ 0 then s.taken.answers 4
    else s.taken.beginPreempt s.ev.ctx d1 d2 win (s.ev.ints.getD 3 0)) := by
  have hx : exec .preempt s = execPreempt s := rfl
  have hg : ∀ x : Nat, (if x = 0 then 0 else x) = x := fun x => by split <;> simp [*]
  rw [hx]
  unfold execPreempt
  dsimp only
  rw [State.command_ready h, State.checked_two]
  simp only [hg]
  refine congrArg Host.Outcome.next (if_congr ?_ rfl (if_congr ?_ rfl ?_))
  · simp only [Bool.or_eq_true, decide_eq_true_eq, or_assoc]
    exact Iff.rfl
  · simp only [Bool.or_eq_true, decide_eq_true_eq, Bool.not_eq_true']
    exact Iff.rfl
  · unfold State.beginPreempt
    simp only [Bool.and_eq_true, decide_eq_true_eq]
    rfl

theorem exec_resume (h : s.MailReady 3) : exec .resume s = .next (if 65536 ≤ s.ev.ctx then s.taken.answers 2
    else if (s.ctx s.ev.ctx).stage = 0 then s.taken.answers 4
    else if (s.ctx s.ev.ctx).stage = 3 then (s.taken.resume s.ev.ctx).answers 0 else { s.taken with busy := some (.resume s.ev.ctx) }) := by
  have hx : exec .resume s = execResume s := rfl
  have hb : s.busy = none := h.2.2.2.2
  rw [hx, execResume, hb]
  dsimp only
  rw [State.command_ready h, State.checked_two]
  simp only [decide_eq_true_eq]
  rfl

theorem exec_kill (h : s.MailReady 3) : exec .kill s = .next (if 65536 ≤ s.ev.ctx then s.taken.answers 2
    else if (s.ctx s.ev.ctx).valid = false then s.taken.answers 4 else (s.taken.killCtx s.ev.ctx 2).answers 0) := by
  have hx : exec .kill s = execKill s := rfl
  rw [hx]
  unfold execKill
  dsimp only
  rw [State.command_ready h, State.checked_two]
  simp only [decide_eq_true_eq, Bool.not_eq_true']
  rfl

end Preemption

section Checkpoints
variable {s : State}

/-- Every valid context that runs is pre-empted, with `d2` ns to its second deadline (R395). -/
def State.preemptAll (s : State) (d2 : Nat) : State :=
  (s.ctxs.filter (fun c => c.2.valid && decide (c.2.stage = 0))).foldl (fun v c => v.modCtx c.1 (fun x => { x with
    stage := 1, pstart := v.timeNs, d1 := v.timeNs + 1000, d2 := v.timeNs + d2 })) s

/-- Every open node with staging is queued again (R395). -/
def State.requeueStaged (s : State) : State :=
  (s.nodes.filter (fun n => decide (n.2.stag ≠ 0) && (n.2.phase == .running || n.2.phase == .publishing))).foldl (fun w n => w.requeue n.1) s

theorem exec_checkpoint (h : s.MailReady 3) : exec .checkpoint s = .next (
    let d2 := orDefault (s.ev.ints.getD 0 0) 10000000
    let w := (s.taken.preemptAll d2).requeueStaged
    if d2 < 1000 then s.taken.answers 2 else if s.taken.freeSnap = none then s.taken.answers 5
    else { w with busy := some (.checkpoint d2 (s.ev.ints.getD 1 0) (s.ev.ints.getD 2 0)), trial := { w.trial with active := false, endAt := none } }) := by
  have hx : exec .checkpoint s = execCheckpoint s := rfl
  have hb : s.busy = none := h.2.2.2.2
  rw [hx, execCheckpoint, hb]
  dsimp only
  rw [State.command_ready h, State.checked_two]
  simp only [decide_eq_true_eq, Option.isNone_iff_eq_none]
  rfl

/-- A checkpoint is of this device's capacity and place in the mesh (R396). -/
def State.ofThisDevice (s : State) (head : List Byte) : Bool :=
  decide (fieldAt head 0x10 8 = s.cap) && (List.range 4).all (fun i => fieldAt head (0x28 + 2 * i) 2 = s.mesh.getD (5 + i) 0)

theorem State.ofThisDevice_iff (s : State) (head : List Byte) : s.ofThisDevice head = true ↔
    fieldAt head 0x10 8 = s.cap ∧ ∀ j, j < 4 → fieldAt head (0x28 + 2 * j) 2 = s.mesh.getD (5 + j) 0 := by
  simp only [State.ofThisDevice, Bool.and_eq_true, decide_eq_true_eq, List.all_eq_true, List.mem_range]

/-- The shards of one kind that a reload takes: on another device, of the labelled data alone (R396, log 21). -/
def shardsTaken (same : Bool) (xs : List Shard) (k : Nat) : List Shard :=
  xs.filter (fun x => x.kind = k && (same || (k = 2 && x.tensor ≠ 2 ^ 32 - 1)))

theorem shardsTaken_same (xs : List Shard) (k : Nat) : shardsTaken true xs k = xs.filter (fun y => decide (y.kind = k)) := by
  simp only [shardsTaken, Bool.true_or, Bool.and_true]

theorem shardsTaken_other_data (xs : List Shard) :
    shardsTaken false xs 2 = (xs.filter (fun y => decide (y.kind = 2))).filter (fun y => decide (y.tensor ≠ 2 ^ 32 - 1)) := by
  simp only [shardsTaken, Bool.false_or, decide_true, Bool.true_and, List.filter_filter, Bool.and_comm]

theorem shardsTaken_other (xs : List Shard) {k : Nat} (h : k ≠ 2) : shardsTaken false xs k = [] := by
  simp only [shardsTaken, h, decide_false, Bool.false_and, Bool.or_self, Bool.and_false, List.filter_false]

/-- The shards of a checkpoint are loaded, kind after kind (R396). -/
def State.loadShards (s : State) (same : Bool) (xs : List Shard) : State :=
  (shardsTaken same xs 3).foldl State.loadGroup ((shardsTaken same xs 1).foldl State.loadNodes ((shardsTaken same xs 2).foldl (fun v y => v.loadData y same)
    ((shardsTaken same xs 1).foldl State.loadCtx ((shardsTaken same xs 0).foldl State.loadDevice s))))

theorem exec_reload (h : s.MailReady 3) : exec .reload s = .next (
    let m := s.ev.ints.getD 0 0
    let i := s.ev.ints.getD 1 0
    let w := (s.taken.checkpointRanges m i).foldl (fun v r => v.logHost r.1 r.2) s.taken
    (w.readCheckpoint m i).elim (w.answers 6) (fun r => if fieldAt r.1 0 4 / 2 ^ 16 % 2 = 1 ∧ w.ofThisDevice r.1 = false then w.answers 4
      else (w.loadShards (w.ofThisDevice r.1) r.2).answers 0)) := by
  have hx : exec .reload s = execReload s := rfl
  rw [hx]
  unfold execReload
  extract_lets e m i w
  rw [State.command_ready h]
  have hw : s.taken.each (s.taken.checkpointRanges (e.ints.getD 0 0) (e.ints.getD 1 0)) (fun s r => s.logHost r.1 r.2) = w := rfl
  rw [hw]
  clear_value w
  refine congrArg Host.Outcome.next ?_
  cases hr : w.readCheckpoint m i with
  | none =>
    have hr' : w.readCheckpoint (e.ints.getD 0 0) (e.ints.getD 1 0) = none := hr
    dsimp only
    rw [hr']
    rfl
  | some r =>
    have hr' : w.readCheckpoint (e.ints.getD 0 0) (e.ints.getD 1 0) = some r := hr
    dsimp only
    rw [hr']
    dsimp only
    rw [State.checked_one]
    refine if_congr ?_ rfl rfl
    simp only [Bool.and_eq_true, decide_eq_true_eq, Bool.not_eq_true']
    exact Iff.rfl

end Checkpoints

section Shards
variable {s : State}

/-- The mesh and the shards of a command that R430 refuses. -/
def EvArg.meshBad (e : EvArg) : Prop :=
  let n (j : Nat) : Nat := e.ints.getD j 0
  n 0 < 1 ∨ 4 < n 0 ∨ (∃ y ∈ e.ints.drop 1, 2 ^ 32 ≤ y) ∨ (∃ j, j < n 0 ∧ (n (1 + j) ≤ n (5 + j) ∨ 65536 ≤ n (1 + j)))
    ∨ ∃ b ∈ shardList e.bytes 32, fieldAt b 0 8 % 16 ≠ 2 ∨ fieldAt b 0 8 / 16 % 65536 ≠ e.ctx ∨ fieldAt b 0x24 4 % 16 ∉ [1, 2, 4, 8]

theorem exec_meshAndShards_length (h : s.MailReady 3) (hl : s.ev.bytes.length % 128 ≠ 0) : exec .meshAndShards s = .next (s.taken.answers 1) := by
  have hx : exec .meshAndShards s = execMeshAndShards s := rfl
  rw [hx]
  unfold execMeshAndShards
  dsimp only
  rw [State.command_ready h, State.checked_two, if_pos (by simp [hl])]

theorem exec_meshAndShards (h : s.MailReady 3) (hl : s.ev.bytes.length % 128 = 0) : (s.ev.meshBad → exec .meshAndShards s = .next (s.taken.answers 2))
    ∧ (¬ s.ev.meshBad → exec .meshAndShards s = .next (({ s.taken with
      mesh := (List.range 10).map (fun j => s.ev.ints.getD j 0), shards := s.shards ++ shardList s.ev.bytes 32 } : State).answers 0)) := by
  have hx : exec .meshAndShards s = execMeshAndShards s := rfl
  rw [hx]
  unfold execMeshAndShards
  dsimp only
  rw [State.command_ready h, State.checked_two, if_neg (by simp [hl])]
  rw [show (s.ev.meshBad) = (_ = true) from propext (Iff.symm ?_)]
  · exact ⟨fun hb => congrArg Host.Outcome.next (if_pos hb), fun hb => congrArg Host.Outcome.next (if_neg hb)⟩
  · simp only [EvArg.meshBad, Bool.or_eq_true, decide_eq_true_eq, List.any_eq_true, List.mem_range, Bool.not_eq_true', List.all_eq_false, Bool.and_eq_true,
      List.contains_iff_mem, not_and_or, or_assoc, ne_eq]

end Shards

end Sys2Proof.Machine
end

/-! The mailbox's commands of the debugger, of peers and of barriers across devices (R415, R428, R436, R442). -/

section
namespace Sys2Proof.Machine

section Debug
variable {s : State}

theorem exec_debugCtl_stop (h : s.MailReady 3) (hk : s.ev.kind = 0) : exec .debugCtl s = .next (if 65536 ≤ s.ev.ctx then s.taken.answers 2
    else (s.taken.modCtx s.ev.ctx (fun x => { x with dstop := s.ev.flag })).answers 0) := by
  have hx : exec .debugCtl s = execDebugCtl s := rfl
  rw [hx]
  unfold execDebugCtl
  dsimp only
  rw [State.command_ready h]
  simp only [hk]
  rw [State.checked_one]
  simp only [decide_eq_true_eq]
  rfl

theorem exec_debugCtl_run (h : s.MailReady 3) (hk : s.ev.kind = 1) : ∃ r, r.on = true ∧ r.lid = s.ev.value ∧ r.compare = s.ev.flag
    ∧ exec .debugCtl s = .next (({ s.taken with runcmp := r } : State).answers 0) := by
  have hx : exec .debugCtl s = execDebugCtl s := rfl
  rw [hx]
  unfold execDebugCtl
  dsimp only
  rw [State.command_ready h]
  simp only [hk]
  exact ⟨{ on := true, lid := s.ev.value, compare := s.ev.flag, recording := execDebugCtl.entries s.ev.ints.length s.ev.ints }, rfl, rfl, rfl, rfl⟩

theorem exec_debugCtl_runEnd (h : s.MailReady 3) (hk : s.ev.kind = 2) : exec .debugCtl s = .next (({ s.taken with runcmp := {} } : State).answers 0) := by
  have hx : exec .debugCtl s = execDebugCtl s := rfl
  rw [hx]
  unfold execDebugCtl
  dsimp only
  rw [State.command_ready h]
  simp only [hk]
  rfl

/-- What the reading commands of Debug read: whether there is such a thing, and its words (log 17). -/
def State.debugWords (s : State) : Nat → Bool × List Nat
  | 3 => (decide (s.ev.core < 2048 ∧ s.ev.slot < 32), s.leaseRow s.ev.core s.ev.slot)
  | 4 => (decide (s.ev.cluster < 256), s.commitWords s.ev.cluster)
  | _ => (decide (s.ev.value < 4096), [(s.staging s.ev.value).word])

theorem exec_debugCtl_read (h : s.MailReady 3) (hk : s.ev.kind = 3 ∨ s.ev.kind = 4 ∨ s.ev.kind = 5) : exec .debugCtl s = .next (
    let r := s.taken.debugWords s.ev.kind
    if r.1 = false then s.taken.answers 2 else (s.taken.respond (r.2.flatMap (leBytes 8))).answers 0) := by
  have hx : exec .debugCtl s = execDebugCtl s := rfl
  rw [hx]
  unfold execDebugCtl
  dsimp only
  rw [State.command_ready h]
  rcases hk with hk | hk | hk
  · simp only [hk]
    rw [State.checked_one]
    refine congrArg Host.Outcome.next (if_congr ?_ rfl rfl)
    simp only [State.debugWords, Bool.or_eq_true, decide_eq_true_eq, decide_eq_false_iff_not, not_and_or, Nat.not_lt]
    exact Iff.rfl
  · simp only [hk]
    rw [State.checked_one]
    refine congrArg Host.Outcome.next (if_congr ?_ rfl rfl)
    simp only [State.debugWords, decide_eq_true_eq, decide_eq_false_iff_not, Nat.not_lt]
    exact Iff.rfl
  · simp only [hk]
    rw [State.checked_one]
    refine congrArg Host.Outcome.next (if_congr ?_ rfl rfl)
    simp only [State.debugWords, decide_eq_true_eq, decide_eq_false_iff_not, Nat.not_lt]
    exact Iff.rfl

theorem exec_debugCtl_unknown (h : s.MailReady 3) (hk : 5 < s.ev.kind) : exec .debugCtl s = .next (s.taken.answers 2) := by
  have hx : exec .debugCtl s = execDebugCtl s := rfl
  obtain ⟨j, hj⟩ : ∃ j, s.ev.kind = j + 6 := ⟨s.ev.kind - 6, by omega⟩
  rw [hx]
  unfold execDebugCtl
  dsimp only
  rw [State.command_ready h]
  simp only [hj]
  rfl

end Debug

section Peers
variable {s : State}

/-- The failed ports of a list train again (R436). -/
def retrained (t : Tab Port) (xs : List Nat) (now : Nat) : Tab Port :=
  xs.foldl (fun t i => Tab.set t {} i { (Tab.get t {} i) with st := .recovering now }) t

theorem get_retrained (t : Tab Port) (xs : List Nat) (now j : Nat) :
    Tab.get (retrained t xs now) {} j = if j ∈ xs then { (Tab.get t ({} : Port) j) with st := .recovering now } else Tab.get t {} j := by
  induction xs generalizing t with
  | nil => rfl
  | cons x xs ih =>
    refine (ih _).trans ?_
    simp only [Tab.get_set, List.mem_cons]
    by_cases hx : j = x
    · simp [hx]
    · simp [hx]

/-- A peer's record as a PEER command sets it (R436). -/
def State.withPeer (s : State) : State := { s with
  peers := Tab.put s.peers s.ev.idx { ((Tab.find s.peers s.ev.idx).getD {}) with serial := s.ev.value, ports := s.ev.ints }
  ports := retrained s.ports (s.ev.ints.filter (fun j => decide ((s.port j).st = .failed))) s.timeNs }

theorem exec_peers_set (h : s.MailReady 3) (hk : s.ev.kind = 0) : exec .peers s = .next (
    let v := s.taken.withPeer
    let other (j : Nat) : Bool := match (v.port j).partner with
      | some n => (v.port j).st.runs && decide (n ≠ s.ev.value)
      | none => false
    if 4096 ≤ s.ev.idx ∨ ∃ y ∈ s.ev.ints, 16 ≤ y then s.taken.answers 2
    else ((s.ev.ints.filter other).foldl (fun v j => v.wrongPartner j) v).answers 0) := by
  have hx : exec .peers s = execPeers s := rfl
  rw [hx]
  unfold execPeers
  dsimp only
  rw [State.command_ready h]
  simp only [hk]
  rw [State.checked_one]
  refine congrArg Host.Outcome.next (if_congr ?_ rfl rfl)
  simp only [Bool.or_eq_true, decide_eq_true_eq, List.any_eq_true]

theorem exec_peers_known (h : s.MailReady 3) (hk : s.ev.kind = 1 ∨ s.ev.kind = 3) : exec .peers s = .next (
    if 4096 ≤ s.ev.idx then s.taken.answers 2 else if Tab.find s.peers s.ev.idx = none then s.taken.answers 4
    else (if s.ev.kind = 1 then { s.taken with peers := Tab.erase s.peers s.ev.idx } else { s.taken with replica := some s.ev.idx } : State).answers 0) := by
  have hx : exec .peers s = execPeers s := rfl
  rw [hx]
  unfold execPeers
  dsimp only
  rw [State.command_ready h]
  rcases hk with hk | hk
  · simp only [hk]
    rw [State.checked_two]
    simp only [decide_eq_true_eq, Option.isNone_iff_eq_none]
    rfl
  · simp only [hk]
    rw [State.checked_two]
    simp only [decide_eq_true_eq, Option.isNone_iff_eq_none]
    rfl

theorem exec_peers_roots (h : s.MailReady 3) (hk : s.ev.kind = 4) : exec .peers s
    = .next (({ s.taken with replicaRoots := s.replicaRoots.filter (fun y => decide (16 * y.peer + y.slot ∉ s.ev.ints)) } : State).answers 0) := by
  have hx : exec .peers s = execPeers s := rfl
  have hf : ∀ n, (!s.ev.ints.contains n) = decide (n ∉ s.ev.ints) := fun n => by rw [List.contains_eq_mem, decide_not]
  rw [hx]
  unfold execPeers
  dsimp only
  rw [State.command_ready h]
  simp only [hk, hf]
  rfl

theorem exec_peers_unknown (h : s.MailReady 3) (hk : 4 < s.ev.kind) : exec .peers s = .next (s.taken.answers 2) := by
  have hx : exec .peers s = execPeers s := rfl
  obtain ⟨j, hj⟩ : ∃ j, s.ev.kind = j + 5 := ⟨s.ev.kind - 5, by omega⟩
  rw [hx]
  unfold execPeers
  dsimp only
  rw [State.command_ready h]
  simp only [hj]
  rfl

theorem exec_peers_windows_length (h : s.MailReady 3) (hk : s.ev.kind = 2) (hl : s.ev.ints.length % 3 ≠ 0) : exec .peers s = .next (s.taken.answers 1) := by
  have hx : exec .peers s = execPeers s := rfl
  rw [hx]
  unfold execPeers
  dsimp only
  rw [State.command_ready h]
  simp only [hk]
  rw [State.checked_three, if_pos (by simp [hl])]

/-- A window as the words of a command give it (R436). -/
def windowOf (w : Nat × Nat × Nat) : PeerWindow := { base := w.1 * 65536, len := w.2.1 * 65536, write := decide (w.2.2 = 1) }

theorem windowsOf_flatMap (ws : List (Nat × Nat × Nat)) : windowsOf (ws.flatMap (fun w => [w.1, w.2.1, w.2.2])) = ws.map windowOf := by
  induction ws with
  | nil => rfl
  | cons w ws ih => exact congrArg (windowOf w :: ·) ih

theorem length_windowWords (ws : List (Nat × Nat × Nat)) : (ws.flatMap (fun w => [w.1, w.2.1, w.2.2])).length = 3 * ws.length := by
  induction ws with
  | nil => rfl
  | cons w ws ih =>
    rw [List.flatMap_cons, List.length_append, ih, List.length_cons, List.length_cons, List.length_cons, List.length_cons, List.length_nil]
    omega

/-- The third word of each window is the one that is tested (R436). -/
theorem any_windowMode (ws : List (Nat × Nat × Nat)) (n : Nat) (hn : n % 3 = 0) :
    ((ws.flatMap (fun w => [w.1, w.2.1, w.2.2])).zipIdx n).any (fun x => x.2 % 3 = 2 && decide (1 < x.1)) = ws.any (fun w => decide (1 < w.2.2)) := by
  induction ws generalizing n with
  | nil => rfl
  | cons w ws ih =>
    have h1 : ¬ (n + 1) % 3 = 2 := by omega
    have h2 : (n + 1 + 1) % 3 = 2 := by omega
    rw [List.flatMap_cons, List.zipIdx_append, List.any_append, List.any_cons]
    simp only [List.zipIdx_cons, List.zipIdx_nil, List.any_cons, List.any_nil, List.length_cons, List.length_nil, hn, h1, h2]
    rw [ih _ (by omega)]
    simp

theorem exec_peers_windows {ws : List (Nat × Nat × Nat)} (h : s.MailReady 3) (hk : s.ev.kind = 2)
    (hi : s.ev.ints = ws.flatMap (fun w => [w.1, w.2.1, w.2.2])) : exec .peers s = .next (
    if 4096 ≤ s.ev.idx ∨ 16 < ws.length ∨ ∃ w ∈ ws, 1 < w.2.2 ∨ s.cap < w.1 * 65536 + w.2.1 * 65536 then s.taken.answers 2
    else if Tab.find s.peers s.ev.idx = none then s.taken.answers 4
    else ({ s.taken with peers := Tab.put s.peers s.ev.idx { ((Tab.find s.peers s.ev.idx).getD {}) with granted := ws.map windowOf } } : State).answers 0) := by
  have hx : exec .peers s = execPeers s := rfl
  have hl : ¬ decide (s.ev.ints.length % 3 ≠ 0) = true := by
    rw [hi, length_windowWords]
    simp
  have hm : s.ev.ints.zipIdx.any (fun x => x.2 % 3 = 2 && decide (1 < x.1)) = ws.any (fun w => decide (1 < w.2.2)) := by
    rw [hi]
    exact any_windowMode ws 0 rfl
  have hw : windowsOf s.ev.ints = ws.map windowOf := by rw [hi, windowsOf_flatMap]
  rw [hx]
  unfold execPeers
  dsimp only
  rw [State.command_ready h]
  simp only [hk]
  rw [State.checked_three, if_neg hl, hm, hw]
  refine congrArg Host.Outcome.next (if_congr ?_ rfl (if_congr Option.isNone_iff_eq_none rfl rfl))
  simp only [Bool.or_eq_true, decide_eq_true_eq, List.any_eq_true, List.length_map, List.mem_map, exists_exists_and_eq_and, or_assoc, and_or_left, exists_or]
  exact Iff.rfl

end Peers

section Barriers
variable {s : State}

theorem partnersOf_flatMap (ps : List (Nat × Nat)) : partnersOf (ps.flatMap (fun p => [p.1, p.2])) = ps := by
  induction ps with
  | nil => rfl
  | cons p ps ih => exact congrArg (p :: ·) ih

theorem length_partnerWords (ps : List (Nat × Nat)) : (ps.flatMap (fun p => [p.1, p.2])).length = 2 * ps.length := by
  induction ps with
  | nil => rfl
  | cons p ps ih =>
    rw [List.flatMap_cons, List.length_append, ih, List.length_cons, List.length_cons, List.length_cons, List.length_nil]
    omega

theorem exec_crossDeviceBarrier_length (h : s.MailReady 3) (hl : s.ev.ints.length % 2 ≠ 0) : exec .crossDeviceBarrier s = .next (s.taken.answers 1) := by
  have hx : exec .crossDeviceBarrier s = execCrossDeviceBarrier s := rfl
  rw [hx]
  unfold execCrossDeviceBarrier
  dsimp only
  rw [State.command_ready h, State.checked_three, if_pos (by simp [hl])]

theorem exec_crossDeviceBarrier {ps : List (Nat × Nat)} (h : s.MailReady 3) (hi : s.ev.ints = ps.flatMap (fun p => [p.1, p.2])) :
    exec .crossDeviceBarrier s = .next (if 2 ^ 38 ≤ s.ev.value ∨ 16 < ps.length then s.taken.answers 2
      else if ∃ p ∈ ps, Tab.find s.peers p.1 = none then s.taken.answers 4
      else ({ s.taken with xbars := { lid := s.ev.value, partners := ps } :: s.xbars.filter (fun b => b.lid ≠ s.ev.value) } : State).answers 0) := by
  have hx : exec .crossDeviceBarrier s = execCrossDeviceBarrier s := rfl
  have hl : ¬ decide (s.ev.ints.length % 2 ≠ 0) = true := by
    rw [hi, length_partnerWords]
    simp
  have hp : partnersOf s.ev.ints = ps := by rw [hi, partnersOf_flatMap]
  rw [hx]
  unfold execCrossDeviceBarrier
  dsimp only
  rw [State.command_ready h, State.checked_three, if_neg hl, hp]
  refine congrArg Host.Outcome.next (if_congr ?_ rfl (if_congr ?_ rfl rfl))
  · simp only [Bool.or_eq_true, decide_eq_true_eq]
  · simp only [List.any_eq_true, Option.isNone_iff_eq_none]
    exact Iff.rfl

end Barriers

end Sys2Proof.Machine
end

/-! The mailbox's obligation, from what each command answers and changes. -/

section
namespace Sys2Proof.Machine

section Answers
variable {o : Host.Outcome State Fault Refusal} {a b : Prop} [Decidable a] [Decidable b] {x y z : State}

/-- A command with one check. -/
theorem next_check (h : o = .next (if a then x else y)) : (a → o = .next x) ∧ (¬ a → o = .next y) :=
  ⟨fun ha => h.trans (congrArg _ (if_pos ha)), fun ha => h.trans (congrArg _ (if_neg ha))⟩

/-- A command with two checks, in their order. -/
theorem next_checks (h : o = .next (if a then x else if b then y else z)) : (a → o = .next x) ∧ (¬ a → b → o = .next y) ∧ (¬ a → ¬ b → o = .next z) :=
  ⟨(next_check h).1, fun ha => (next_check ((next_check h).2 ha)).1, fun ha => (next_check ((next_check h).2 ha)).2⟩

end Answers

section Responses
variable {s : State}

/-- What a command that responds leaves (R425). -/
theorem State.responds {o : Host.Outcome State Fault Refusal} {v : State} {bs : List Byte} {m : Memory} (h : o = .next ((v.respond bs).answers 0))
    (hm : v.rspbuf = m) : ∃ w : State, w = { v with rspbuf := w.rspbuf } ∧ o = .next (w.answers 0)
      ∧ ∀ j, w.rspbuf.read j = if j < bs.length then bs.getD j 0 else m.read j :=
  ⟨v.respond bs, rfl, h, fun j => hm ▸ State.read_respond v bs j⟩

theorem State.responds_words {o : Host.Outcome State Fault Refusal} {v : State} {ws : List Nat} {m : Memory}
    (h : o = .next ((v.respond (ws.flatMap (leBytes 8))).answers 0)) (hm : v.rspbuf = m) : ∃ w : State, w = { v with rspbuf := w.rspbuf } ∧ o = .next (w.answers 0)
      ∧ ∀ j, w.rspbuf.read j = if j < 8 * ws.length then (ws.flatMap (leBytes 8)).getD j 0 else m.read j := by
  rw [← length_wordBytes]
  exact State.responds h hm

theorem State.report_rspbuf (s : State) (nonce : List Byte) : (s.report nonce).1.rspbuf = s.rspbuf := rfl

/-- The words of region 0 (R422). -/
theorem State.regionRead_cmd {a : Nat} (h : 0x1000 ≤ a) (h' : a < 0x2000) : s.regionRead a = leNat (s.cmdbuf.readBytes (a - 0x1000) 8) := by
  unfold State.regionRead
  dsimp only
  rw [if_neg (by omega), if_neg (by omega), if_neg (by omega), if_pos (by simp [h, h'])]

theorem State.regionRead_rsp {a : Nat} (h : 0x2000 ≤ a) (h' : a < 0x3000) : s.regionRead a = leNat (s.rspbuf.readBytes (a - 0x2000) 8) := by
  unfold State.regionRead
  dsimp only
  rw [if_neg (by omega), if_neg (by omega), if_neg (by omega), if_neg (by simp [h]), if_pos (by simp [h, h'])]

theorem State.regionRead_other {a : Nat} (h : a ∉ [0, 8, 0x10]) (h' : a < 0x1000 ∨ 0x3000 ≤ a) : s.regionRead a = 0 := by
  simp only [List.mem_cons, List.not_mem_nil, or_false, not_or] at h
  obtain ⟨h0, h8, h16⟩ := h
  have hc : ¬(decide (0x1000 ≤ a) && decide (a < 0x2000)) = true := by simp; omega
  have hr : ¬(decide (0x2000 ≤ a) && decide (a < 0x3000)) = true := by simp; omega
  unfold State.regionRead
  dsimp only
  rw [if_neg h0, if_neg h8, if_neg h16, if_neg hc, if_neg hr]

end Responses

section Clauses
variable {s : State}

theorem State.ctx_modCtx (s : State) (t : Nat) (f : Ctx → Ctx) (n : Nat) : (s.modCtx t f).ctx n = if n = t then f (s.ctx t) else s.ctx n := Tab.get_set _ _ _ _ _

theorem State.ctx_beginPreempt (s : State) (t d1 d2 win len n : Nat) : (s.beginPreempt t d1 d2 win len).ctx n = if n = t then
    { s.ctx t with stage := 1, pstart := s.timeNs, d1 := s.timeNs + d1, d2 := s.timeNs + d2, window := win, winLen := len } else s.ctx n :=
  Tab.get_set _ _ _ _ _

/-- A context that is not one of the 65536 is refused by every command that names one (R424). -/
theorem exec_badContext (h : s.MailReady 3) (hc : 65536 ≤ s.ev.ctx) {i : Instr}
    (hi : i ∈ [Instr.contextSet, .mapPage, .unmap, .protect, .preempt, .resume, .kill, .migrateHostPage]) : exec i s = .next (s.taken.answers 2) := by
  simp only [List.mem_cons, List.not_mem_nil, or_false] at hi
  rcases hi with rfl | rfl | rfl | rfl | rfl | rfl | rfl | rfl
  · exact exec_contextSet_range h hc
  · exact (exec_mapPage h).trans (congrArg _ (if_pos (Or.inl hc)))
  · exact (exec_unmap h).trans (congrArg _ (if_pos (Or.inl hc)))
  · exact (exec_protect h).trans (congrArg _ (if_pos (Or.inl hc)))
  · exact (exec_preempt h).trans (congrArg _ (if_pos (Or.inl hc)))
  · exact (exec_resume h).trans (congrArg _ (if_pos hc))
  · exact (exec_kill h).trans (congrArg _ (if_pos hc))
  · exact exec_migrateHostPage_range h hc

theorem State.loadShards_same (s : State) (xs : List Shard) : s.loadShards true xs =
    let ofKind (k : Nat) : List Shard := xs.filter (fun y => decide (y.kind = k))
    (ofKind 3).foldl State.loadGroup ((ofKind 1).foldl State.loadNodes ((ofKind 2).foldl (fun v y => v.loadData y true)
      ((ofKind 1).foldl State.loadCtx ((ofKind 0).foldl State.loadDevice s)))) := by
  simp only [State.loadShards, shardsTaken_same]

theorem State.loadShards_other (s : State) (xs : List Shard) : s.loadShards false xs =
    ((xs.filter (fun y => decide (y.kind = 2))).filter (fun y => decide (y.tensor ≠ 2 ^ 32 - 1))).foldl (fun v y => v.loadData y false) s := by
  rw [State.loadShards, shardsTaken_other xs (k := 0) (by decide), shardsTaken_other xs (k := 1) (by decide), shardsTaken_other xs (k := 3) (by decide),
    shardsTaken_other_data]
  simp only [List.foldl_nil]

theorem State.debugWords_of {r : Nat × Bool × List Nat}
    (h : r ∈ [(3, decide (s.ev.core < 2048 ∧ s.ev.slot < 32), s.leaseRow s.ev.core s.ev.slot), (4, decide (s.ev.cluster < 256), s.commitWords s.ev.cluster),
      (5, decide (s.ev.value < 4096), [(s.staging s.ev.value).word])]) : (r.1 = 3 ∨ r.1 = 4 ∨ r.1 = 5) ∧ s.debugWords r.1 = r.2 := by
  simp only [List.mem_cons, List.not_mem_nil, or_false] at h
  rcases h with rfl | rfl | rfl
  · exact ⟨Or.inl rfl, rfl⟩
  · exact ⟨Or.inr (Or.inl rfl), rfl⟩
  · exact ⟨Or.inr (Or.inr rfl), rfl⟩

theorem State.page_beginMigrate (s : State) (c vpn lpn : Nat) : (s.beginMigrate c vpn lpn).page lpn = { s.page lpn with wb := true } :=
  (s.page_modPage lpn (fun p => { p with wb := true }) lpn).trans (if_pos rfl)

section Leaves
variable (h : s.MailReady 3) (hc : s.ev.ctx < 65536) (hp : s.ev.page < 2 ^ 41)
include h hc hp

/-- A leaf that is in form, at an address that a leaf may have (R348). -/
theorem exec_mapPage_leaf {y : Word} (hy : BitVec.ofNat 64 s.ev.value = y) {pg : PageRec} (hpg : s.page (y.extractLsb' 16 24).toNat = pg)
    (hl : s.taken.leafOk y = true) (ha : inAperture s.ev.page = false) :
    let bad := (s.ctx s.ev.ctx).valid = false ∨ pg.valid = false ∨ pg.suits y = false ∨ pg.host = true ∧ s.taken.mappedTwice s.ev.ctx s.ev.page y = true
    (bad → exec .mapPage s = .next (s.taken.answers 4)) ∧ (¬ bad → exec .mapPage s = .next (s.taken.remap s.ev.ctx s.ev.page y)) := by
  subst hy hpg
  refine next_check ((next_check (exec_mapPage h)).2 ?_)
  rintro (h | h | h | h)
  · exact Nat.not_le.2 hc h
  · exact Nat.not_le.2 hp h
  · exact Bool.false_ne_true (ha.symm.trans h)
  · exact Bool.false_ne_true (h.symm.trans hl)

theorem exec_mapPage_takes {y : Word} (hy : BitVec.ofNat 64 s.ev.value = y) {pg : PageRec} (hpg : s.page (y.extractLsb' 16 24).toNat = pg)
    (hl : s.taken.leafOk y = true) (ha : inAperture s.ev.page = false) (hx : (s.ctx s.ev.ctx).valid = true) (hv : pg.valid = true) (hs : pg.suits y = true)
    (ht : pg.host = true → ¬ s.taken.mappedTwice s.ev.ctx s.ev.page y = true) : exec .mapPage s = .next (s.taken.remap s.ev.ctx s.ev.page y) := by
  refine (exec_mapPage_leaf h hc hp hy hpg hl ha).2 ?_
  rintro (h | h | h | ⟨h, h'⟩)
  · exact Bool.false_ne_true (h.symm.trans hx)
  · exact Bool.false_ne_true (h.symm.trans hv)
  · exact Bool.false_ne_true (h.symm.trans hs)
  · exact ht h h'

theorem exec_unmap_page : (s.taken.mappedAt s.ev.ctx s.ev.page = none → exec .unmap s = .next (s.taken.answers 4))
    ∧ (s.taken.mappedAt s.ev.ctx s.ev.page ≠ none → exec .unmap s = .next (s.taken.remap s.ev.ctx s.ev.page 0)) :=
  next_check ((next_check (exec_unmap h)).2 (not_or.2 ⟨Nat.not_le.2 hc, Nat.not_le.2 hp⟩))

theorem exec_protect_leaf {y : Word} (hy : BitVec.ofNat 64 s.ev.value = y) (hl : s.taken.leafOk y = true) :
    (s.taken.mappedAt s.ev.ctx s.ev.page = none → exec .protect s = .next (s.taken.answers 4))
    ∧ ∀ o, s.taken.mappedAt s.ev.ctx s.ev.page = some o → o.extractLsb' 16 24 = y.extractLsb' 16 24 → (s.page (y.extractLsb' 16 24).toNat).suits y = true →
      exec .protect s = .next (s.taken.remap s.ev.ctx s.ev.page y) := by
  subst hy
  obtain ⟨hno, hgo⟩ := next_check ((next_check (exec_protect h)).2 (not_or.2 ⟨Nat.not_le.2 hc, not_or.2 ⟨Nat.not_le.2 hp, ne_false_of_eq_true hl⟩⟩))
  refine ⟨fun hm => hno (Or.inl ?_), fun o ho hoy hs => hgo (not_or.2 ⟨not_not.2 ?_, ne_false_of_eq_true hs⟩)⟩
  · rw [hm]
    exact nofun
  · rw [ho]
    exact congrArg some hoy

end Leaves

section Reload
variable {m i : Nat} {w : State} {head : List Byte} {xs : List Shard}

theorem exec_reload_read (h : s.MailReady 3) (hm : s.ev.ints.getD 0 0 = m) (hi : s.ev.ints.getD 1 0 = i)
    (hw : (s.taken.checkpointRanges m i).foldl (fun v r => v.logHost r.1 r.2) s.taken = w) (hr : w.readCheckpoint m i = some (head, xs)) :
    (fieldAt head 0 4 / 2 ^ 16 % 2 = 1 ∧ w.ofThisDevice head = false → exec .reload s = .next (w.answers 4))
    ∧ (¬ (fieldAt head 0 4 / 2 ^ 16 % 2 = 1 ∧ w.ofThisDevice head = false) → exec .reload s = .next ((w.loadShards (w.ofThisDevice head) xs).answers 0)) := by
  subst hm hi hw
  have hgo := exec_reload h
  dsimp only at hgo
  rw [hr] at hgo
  exact next_check hgo

theorem exec_reload_unread (h : s.MailReady 3) (hm : s.ev.ints.getD 0 0 = m) (hi : s.ev.ints.getD 1 0 = i)
    (hw : (s.taken.checkpointRanges m i).foldl (fun v r => v.logHost r.1 r.2) s.taken = w) (hr : w.readCheckpoint m i = none) :
    exec .reload s = .next (w.answers 6) := by
  subst hm hi hw
  have hgo := exec_reload h
  dsimp only at hgo
  rw [hr] at hgo
  exact hgo

end Reload

/-- A command that waits for accesses goes on once none is in flight (R348). -/
theorem exec_draining {c : Nat} {p : Option Nat} (hb : s.busy = some (.drain c p)) {i : Instr} (hi : i ∈ [Instr.contextSet, .mapPage, .unmap, .protect]) :
    exec i s = .next (if s.inFlight c p = true then s else s.answers 0) := by
  simp only [List.mem_cons, List.not_mem_nil, or_false] at hi
  rcases hi with rfl | rfl | rfl | rfl
  · exact State.xlCommand_drain hb _
  · exact State.xlCommand_drain hb _
  · exact State.xlCommand_drain hb _
  · exact State.xlCommand_drain hb _

/-- The ports of a PEER command: the failed ones train again (R436). -/
theorem State.port_withPeer (s : State) (j : Nat) : s.withPeer.port j
    = if j ∈ s.ev.ints ∧ (s.port j).st = .failed then { s.port j with st := .recovering s.timeNs } else s.port j := by
  refine (get_retrained _ _ _ _).trans (if_congr ?_ rfl rfl)
  rw [List.mem_filter, decide_eq_true_eq]

end Clauses

/-- Settles O60: a command is taken by the one rule of `State.command`, and answers by its checks in their order. -/
theorem mailboxCommands : Obligations.MailboxCommands := by
  intro s e u x done
  refine ⟨fun m hm hb => ?_, ?_, ?_, fun v c p => ?_, fun h => ?_, fun h => ?_, fun h => ?_, fun h => ?_, fun t hb hs => ?_, fun d m i hb => ?_,
    fun c v hb => ?_, fun c p hb i hi => ?_⟩
  · obtain ⟨k, hk⟩ := exec_mailRule hm hb
    rw [hk]
    exact ⟨fun hi => State.command_ignored hi k, fun hr hc hp => (State.command_taken hr hc k).trans (congrArg _ (if_pos hp))⟩
  · intro h len call
    refine ⟨fun hi => (exec_cdoor s).trans (if_pos hi), fun hr hc => ?_, fun op => State.mailCall_none s, fun k n hk hn => ?_⟩
    · have hgo : exec .cdoor s = call.elim (.next (s.taken.answers 1)) (fun m => if h / 2 ^ 32 ≠ 0 then .next (s.taken.answers 2) else m.go s s.ev.seq) :=
        (exec_cdoor s).trans (if_neg (by simp [hr, hc]))
      refine ⟨fun hn => ?_, fun m hm h0 => ?_, fun m v hm h0 hv => ?_⟩
      · rw [hgo, hn]
        rfl
      · rw [hgo, hm]
        exact if_pos h0
      · rw [hgo, hm]
        exact (if_neg (not_not.2 h0)).trans (MailCall.go_next hv)
    · unfold State.mailCall
      dsimp only
      rw [operandWords_two hk hn]
      rfl
  · exact ⟨rfl, rfl, rfl, fun a => State.regionRead_cmd, fun a => State.regionRead_rsp, fun a => State.regionRead_other⟩
  · exact ⟨fun hf => (v.drained_eq c p).trans (if_pos hf), fun hf => (v.drained_eq c p).trans (if_neg (Bool.eq_false_iff.1 hf))⟩
  · obtain ⟨hbad, hread⟩ := next_check (exec_readErrorLog h)
    obtain ⟨hslot, himage, hgo⟩ := next_checks (exec_firmwareUpdate h)
    exact ⟨hbad, fun hk hv => State.responds (hread (not_or.2 ⟨Nat.not_lt.2 hk, Nat.not_lt.2 hv⟩)) rfl, hslot, fun hi => himage (Nat.not_lt.2 hi),
      fun hi hf => hgo (Nat.not_lt.2 hi) (ne_false_of_eq_true hf)⟩
  · obtain ⟨hbad, hlate, hgo⟩ := next_checks (exec_initialiseCmd h)
    exact ⟨hbad, hlate, fun hb hp hc => hgo hb (not_or.2 ⟨not_not.2 hp, not_not.2 hc⟩)⟩
  · obtain ⟨hlen, hgo⟩ := next_check (exec_readAttestation h)
    exact ⟨hlen, fun hl => State.responds (hgo (not_not.2 hl)) (State.report_rspbuf _ _)⟩
  · refine ⟨exec_queueDescriptor_unknown h, fun hf => ⟨fun hn => ?_, fun ws hs => ?_⟩, ?_, ?_, ?_, exec_badContext h, fun hc hf hv => ?_,
      fun hc hf hv => ⟨fun ho => ?_, fun ho => ?_⟩, ?_, ?_, ?_, fun r hr hk => ?_, ?_, fun hc => ?_, fun hc => ?_, ?_, ?_, ?_, ?_, exec_debugCtl_runEnd h, ?_,
      exec_debugCtl_run h, ?_, exec_debugCtl_unknown h, ?_, ?_, exec_peers_windows_length h, ?_, exec_peers_roots h, exec_peers_unknown h, ?_, ?_,
      exec_crossDeviceBarrier_length h, ?_⟩
    · rw [exec_queueDescriptor_read h hf, hn]
      rfl
    · refine State.responds_words ?_ rfl
      rw [exec_queueDescriptor_read h hf, hs]
      rfl
    · intro base log2n vec tag head holdoff hf hk hq hb ha h4 h16 hv ht hh ho loc hi
      exact ⟨_, rfl, exec_queueDescriptor_event h hf hk hq (ringWords_of hb ha h4 h16 hv ht hh ho hi), fun j => Tab.get_set _ _ _ _ _⟩
    · intro base log2n evq tag head tail hf hk hq hb ha h4 h16 hv ht hh htl loc hi he d hfit
      exact ⟨_, rfl, exec_queueDescriptor_launch h hf hk hq hb ha h4 h16 hv ht hh htl hi he hfit, fun j => Tab.get_set _ _ _ _ _⟩
    · intro base log2n vec tag head holdoff hf hb ha h4 h16 hv ht hh ho loc hi
      have hw := ringWords_of hb ha h4 h16 hv ht hh ho hi
      refine ⟨fun hk hq => ⟨_, rfl, exec_queueDescriptor_errors h hf hk hq hw, fun j => Tab.get_set _ _ _ _ _⟩, fun hk hq => ?_⟩
      have hctx := State.ctx_modCtx u e.queue (fun x => x.traced base loc log2n head tag)
      refine ⟨_, rfl, exec_queueDescriptor_trace h hf hk hq hw, fun t ht => (hctx t).trans (if_neg ht), ?_, ?_⟩
      · rw [hctx, if_pos rfl]
        rfl
      · rw [hctx, if_pos rfl]
        exact Ctx.ring_traced _
    · exact ⟨_, rfl, (next_checks (exec_contextSet_clear h hc hf)).1 hv, State.ctx_putCtx _ _ _⟩
    · exact (next_checks (exec_contextSet_clear h hc hf)).2.1 (ne_false_of_eq_true hv) ho
    · exact ⟨_, rfl, (next_checks (exec_contextSet_clear h hc hf)).2.2 (ne_false_of_eq_true hv) (ne_true_of_eq_false ho), State.ctx_putCtx _ _ _⟩
    · intro valid pnqen aper root pnq hpth hc hf ha hr hp h0 hh hfit hi
      obtain ⟨hopen, hmoved, hset⟩ := next_checks (exec_contextSet_entry h hc hf (entryWords_of ha hr hp h0 hh hfit hi))
      refine ⟨fun hv hn ho => hopen ⟨hv, hn, ho⟩, fun hno => ?_⟩
      have hclosed : ¬ (x.valid = true ∧ valid = false ∧ u.openNodes e.ctx = true) := by
        rintro ⟨hv, hn, ho⟩
        rcases hno with hno | hno | hno
        · exact Bool.false_ne_true (hno.symm.trans hv)
        · exact Bool.false_ne_true (hn.symm.trans hno)
        · exact Bool.false_ne_true (hno.symm.trans ho)
      refine ⟨_, rfl, State.ctx_putCtx u e.ctx (x.entered valid pnqen aper root pnq hpth), fun hv => hset hclosed ?_, fun hv hn => hmoved hclosed ⟨hv, hn⟩⟩
      rintro ⟨hxv, hn⟩
      rcases hv with hv | ⟨hv, hr⟩
      · exact Bool.false_ne_true (hv.symm.trans hxv)
      · exact hn.elim (fun hn => Bool.false_ne_true (hn.symm.trans hv)) fun hn => hn hr
    · intro y pg fits hc hp
      have hsuits : pg.suits y = true ↔ fits := pg.suits_iff y
      have htakes := exec_mapPage_takes h hc hp (y := y) rfl (pg := pg) rfl
      have hleaf := exec_mapPage_leaf h hc hp (y := y) rfl (pg := pg) rfl
      obtain ⟨hunNo, hun⟩ := exec_unmap_page h hc hp
      have hpro := exec_protect_leaf h hc hp (y := y) rfl
      refine ⟨fun hl => ⟨?_, ?_⟩, fun hl ha hxv hv hh hf => ?_, fun hl ha hxv hv hh hf => ?_, fun hl ha hn => ?_, fun hm => ⟨hunNo hm, fun hl => (hpro hl).1 hm⟩,
        fun o ho => ⟨hun (ho ▸ nofun), fun hl hoy hf => (hpro hl).2 o ho hoy (hsuits.2 hf)⟩, fun v hm hv => State.remap_new hm hv, fun o ho hxv hh => ?_⟩
      · exact (next_checks (exec_mapPage h)).1 (Or.inr (Or.inr (Or.inr hl)))
      · exact (next_checks (exec_protect h)).1 (Or.inr (Or.inr hl))
      · exact htakes hl ha hxv hv (hsuits.2 hf) fun h => absurd h (ne_true_of_eq_false hh)
      · intro twice
        have htwice : u.mappedTwice e.ctx e.page y = true ↔ twice := State.mappedTwice_iff u e.ctx e.page y
        exact ⟨fun hn => htakes hl ha hxv hv (hsuits.2 hf) fun _ => hn ∘ htwice.1, fun ht => (hleaf hl ha).1 (Or.inr (Or.inr (Or.inr ⟨hh, htwice.2 ht⟩)))⟩
      · exact (hleaf hl ha).1 (hn.imp_right (Or.imp_right fun hf => Or.inl (Bool.eq_false_iff.2 (hf ∘ hsuits.1))))
      · exact ⟨_, exec_migrateHostPage_host h hc hp hxv ho hh, rfl, State.page_beginMigrate _ _ _ _⟩
    · intro range
      obtain ⟨hout, hnone, hfree⟩ := next_checks (exec_pageFree h)
      refine ⟨fun hr => ⟨exec_pageAllocate_range h hr, hout hr⟩, fun hr => hnone (not_not.2 hr), fun hr hv => hfree (not_not.2 hr) (ne_false_of_eq_true hv),
        fun hr hk hf h0 => (next_check (exec_pageAllocate_local h hr hk hf h0)).1, fun v hr hk hf h0 hv hm => ?_⟩
      obtain ⟨hvalid, hcomp, hother⟩ := State.makePage_some hm
      have hgo := (next_check (exec_pageAllocate_local h hr hk hf h0)).2 (ne_true_of_eq_false hv)
      rw [hm] at hgo
      exact ⟨hgo, hvalid, hcomp, hother⟩
    · obtain ⟨hk2, hrange⟩ := scrubRange_of hr
      have hgo := exec_scrubRates h ((Nat.le_of_eq hk).trans hk2)
      rw [show scrubRange s.ev.kind = r.2 from hk ▸ hrange] at hgo
      obtain ⟨hbad, hgo⟩ := next_check hgo
      refine ⟨hbad, fun hlo hhi => ⟨_, rfl, ?_, hgo (not_or.2 ⟨Nat.not_lt.2 hlo, Nat.not_lt.2 hhi⟩)⟩⟩
      rw [← hk]
      exact Tab.get_set_same _ _ _ _
    · intro g d1 d2 win bad
      obtain ⟨hbad, hno, hgo⟩ := next_checks (exec_preempt h)
      refine ⟨hbad, hno, fun hb hv hs => ?_⟩
      exact ⟨_, hgo hb (not_or.2 ⟨ne_false_of_eq_true hv, not_not.2 hs⟩), rfl, rfl, State.ctx_beginPreempt _ _ _ _ _ _, rfl⟩
    · obtain ⟨hno, hgo⟩ := next_check ((next_check (exec_resume h)).2 (Nat.not_le.2 hc))
      refine ⟨hno, fun h3 => (next_check (hgo (h3 ▸ nofun))).1 h3, fun h12 => ?_⟩
      rcases h12 with h12 | h12
      · exact (next_check (hgo (h12 ▸ nofun))).2 (h12 ▸ nofun)
      · exact (next_check (hgo (h12 ▸ nofun))).2 (h12 ▸ nofun)
    · obtain ⟨hno, hgo⟩ := next_check ((next_check (exec_kill h)).2 (Nat.not_le.2 hc))
      exact ⟨hno, fun hv => hgo (ne_false_of_eq_true hv)⟩
    · intro d2 v w
      obtain ⟨hbad, hno, hgo⟩ := next_checks (exec_checkpoint h)
      exact ⟨hbad, fun hb => hno (Nat.not_lt.2 hb), fun hb => hgo (Nat.not_lt.2 hb)⟩
    · intro m i w
      refine ⟨exec_reload_unread h rfl rfl rfl, ?_⟩
      intro head xs hr same pinned ofKind
      obtain ⟨hpin, hload⟩ := exec_reload_read h rfl rfl rfl hr
      have hsame : w.ofThisDevice head = true ↔ same := w.ofThisDevice_iff head
      have hother (hs : ¬ same) : w.ofThisDevice head = false := Bool.eq_false_iff.2 (hs ∘ hsame.1)
      refine ⟨fun hp hs => hpin ⟨hp, hother hs⟩, fun hs => ?_, fun hp hs => ?_⟩
      · have hgo := hload fun h => ne_false_of_eq_true (hsame.2 hs) h.2
        rw [hsame.2 hs, State.loadShards_same] at hgo
        exact hgo
      · have hgo := hload fun h => hp h.1
        rw [hother hs, State.loadShards_other] at hgo
        exact hgo
    · intro n bad
      exact ⟨exec_meshAndShards_length h, fun hl => (exec_meshAndShards h hl).1, fun hl => (exec_meshAndShards h hl).2⟩
    · exact fun hk hc => (next_check (exec_debugCtl_stop h hk)).2 (Nat.not_le.2 hc)
    · exact fun hk => (next_check (exec_debugCtl_stop h hk)).1
    · intro r hr hk
      obtain ⟨h345, hwords⟩ := State.debugWords_of hr
      have hgo := exec_debugCtl_read h (hk ▸ h345)
      rw [show s.taken.debugWords s.ev.kind = r.2 from hk ▸ hwords] at hgo
      exact ⟨(next_check hgo).1, fun hy => State.responds_words ((next_check hgo).2 (ne_false_of_eq_true hy)) rfl⟩
    · exact fun hi hk => (next_checks (exec_peers_known h hk)).1 hi
    · intro bad
      refine ⟨fun hk => (next_check (exec_peers_set h hk)).1, fun hk hb => ?_⟩
      exact ⟨u.withPeer.ports, State.port_withPeer u, (next_check (exec_peers_set h hk)).2 hb⟩
    · intro ws hk hi bad
      obtain ⟨hbad, hno, hgo⟩ := next_checks (exec_peers_windows h hk hi)
      refine ⟨hbad, hno, fun r hb hr => ?_⟩
      have hgo := hgo hb (hr ▸ nofun)
      rw [hr] at hgo
      exact hgo
    · exact fun hi hn hk => (next_checks (exec_peers_known h hk)).2.1 (Nat.not_le.2 hi) hn
    · refine fun hi hn => ⟨fun hk => ?_, fun hk => ?_⟩
      · have hgo := (next_checks (exec_peers_known h (Or.inl hk))).2.2 (Nat.not_le.2 hi) hn
        rw [if_pos hk] at hgo
        exact hgo
      · have hgo := (next_checks (exec_peers_known h (Or.inr hk))).2.2 (Nat.not_le.2 hi) hn
        rw [if_neg (fun h1 => nomatch h1.symm.trans hk)] at hgo
        exact hgo
    · intro ps hi bad
      obtain ⟨hbad, hno, hgo⟩ := next_checks (exec_crossDeviceBarrier h hi)
      exact ⟨hbad, hno, fun hb hn => hgo hb fun ⟨p, hp, hf⟩ => hn p hp hf⟩
  · have hx : exec .resume s = execResume s := rfl
    rw [hx, execResume, hb]
    exact if_pos hs
  · have hx : exec .checkpoint s = execCheckpoint s := rfl
    rw [hx, execCheckpoint, hb]
  · have hx : exec .migrateHostPage s = execMigrateHostPage s := rfl
    rw [hx, execMigrateHostPage, hb]
  · exact (exec_draining hb hi).trans (apply_ite Host.Outcome.next _ _ _)

end Sys2Proof.Machine
end

/-! Statements of the family 08_consistency: the ordering instructions (R270, R274, R278, R288, R289, R304, R314 to R318, R320). -/

section
namespace Sys2Proof.Machine

/-- What a fence of a scope waits for: loads, then the counters that the scope takes in (R278). -/
theorem Crew.fenceWaits_iff (w : Crew) (n : Nat) :
    w.fenceWaits n = true ↔ w.loads ≠ [] ∨ 2 ≤ n ∧ w.ackCl ≠ 0 ∨ 3 ≤ n ∧ w.ackDv ≠ 0 ∨ 4 ≤ n ∧ w.ackSy ≠ 0 := by
  simp [Crew.fenceWaits, or_assoc]

/-- What an acquire waits for (R274, R317). -/
theorem Crew.answersDue_iff (w : Crew) : w.answersDue = true ↔ w.loads ≠ [] ∨ w.ackDv ≠ 0 ∨ w.ackSy ≠ 0 := by
  simp [Crew.answersDue, or_assoc]

section Ordering
variable {s : State} {c : Cur} {g : BitVec 3} (h : s.Ready c .any false [] (g ≠ 0) (s.act c g) (fun _ => []))
include h

/-- With a fibre active, an ordering instruction acts (R314). -/
theorem State.run_order_active (hm : s.act c g ≠ 0) (r : Done) (k : Cur → State) :
    s.run (fun c => s.order c g r (k c)) = .next (k c) := by
  rw [State.run_cur h.1, State.order, State.gate_ready h, State.reads_ready h, if_neg hm]

/-- With no fibre active, an ordering instruction only retires (R314). -/
theorem State.run_order_inactive (hm : s.act c g = 0) (r : Done) (k : Cur → State) :
    s.run (fun c => s.order c g r (k c)) = .next (s.retire c r) := by
  rw [State.run_cur h.1, State.order, State.gate_ready h, State.reads_ready h, if_pos hm]

end Ordering

/-- A swap point that only retires keeps everything but the fragment's latches (R38, R39). -/
theorem State.retire_swap_done (s : State) (c : Cur) : s.FibreDone (s.retire c { swap := true }) c (fun _ f => f.noLatch) 0 :=
  s.retire_done c { swap := true } rfl rfl rfl

section Fence
variable {o : OpF} {s : State} {c : Cur} (h : s.Ready c .any false [] (o.g ≠ 0) (s.act c o.g) (fun _ => []))
include h

/-- A FENCE waits for what its scope takes in (R278, R315). -/
theorem exec_fence_waits (hm : s.act c o.g ≠ 0) (hw : (s.cw c).fenceWaits o.scope.toNat = true) :
    exec (.fence o) s = .next (s.hold c (.fence o.scope.toNat)) :=
  (State.run_order_active h hm _ _).trans (congrArg _ (State.fenced_waits hw _))

/-- A FENCE that has nothing to wait for, and from cluster scope on no imprecise fault to deliver, only retires (R278, R315, R320). -/
theorem exec_fence_passes (hw : (s.cw c).fenceWaits o.scope.toNat = false) (hi : 2 ≤ o.scope.toNat → (s.cw c).impr = []) :
    exec (.fence o) s = .next (s.retire c { swap := true }) := by
  by_cases hm : s.act c o.g = 0
  · exact State.run_order_inactive h hm _ _
  · refine (State.run_order_active h hm _ _).trans (congrArg _ ((State.fenced_passes hw _).trans ?_))
    split
    case isTrue hs => exact State.deliver_nothing (hi hs) _
    case isFalse => rfl

end Fence

section Active
variable {o : OpG} {s : State} {c : Cur} (h : s.Ready c .any false [] (o.g ≠ 0) (s.act c o.g) (fun _ => [])) (hm : s.act c o.g ≠ 0)
include h hm

/-- An ACQUIRE of a crew that no migration holds: it waits for answers, or acquires (R274, R317). -/
theorem exec_acquire_active (hh : (s.cw c).heldBy = none) :
    exec (.acquire o) s = .next (if (s.cw c).answersDue then s.hold c .answers else (s.acquire c.core true).retire c { swap := true }) := by
  refine (State.run_order_active h hm _ _).trans ?_
  rw [hh]

/-- An IFENCE waits for the loads, or drops what was fetched of executable pages (R288, R318). -/
theorem exec_ifence_active :
    exec (.ifence o) s = .next (if !(s.cw c).loads.isEmpty then s.hold c .loads
      else (((s.dropCopies c.core true true (fun e => e.exec || s.execPages.contains (e.grain / 128))
        (fun e => e.exec || s.execPages.contains (e.lsec / 2048))).modCore c.core (fun k => { k with l1i := [] })).modCrew c.core c.slot
          (fun w => w.refetch c.lanes)).retire c { swap := true }) :=
  State.run_order_active h hm _ _

/-- An RFENCE empties the record cache, and retires (R318). -/
theorem exec_rfence_active :
    exec (.rfence o) s = .next ((s.modCore c.core (fun k => { k with recs := [] })).setCrew c.core c.slot
      ((s.cw c).retired c { swap := true })) := by
  refine (State.run_order_active h hm _ _).trans ?_
  rw [State.retire_eq, State.crew_modCore rfl]
  rfl

/-- A RELEASE that its fragment begins: fenced at its cluster, it is counted, its commit is tried, and it is done or waits for it (R270, R316). -/
theorem exec_release_begins (hn : ((s.cw c).fibre (lowestLane c.lanes)).wait = .none) (hf : (s.cw c).fenceWaits 2 = false)
    (hi : (s.cw c).impr = []) :
    let k := clusterOf c.core
    let b := s.beginRelease k (s.crewTag c.core c.slot) c.core c.slot none
    let u := b.1.tryCommit k
    exec (.release o) s = .next (if (u.cluster k).rels.any (fun r => r.id = b.2 && r.committed)
      then (u.modCluster k (fun q => { q with rels := q.rels.filter (fun r => r.id ≠ b.2) })).released c else u.hold c (.release b.2)) := by
  intro k b u
  refine (State.run_order_active h hm _ _).trans (congrArg _ ?_)
  simp only [hn, State.fenced_passes hf, State.deliver_nothing hi]
  rfl

end Active

/-- With no fibre active, ACQUIRE, IFENCE and RFENCE only retire (R314). -/
theorem exec_ordering_inactive {o : OpG} {s : State} {c : Cur} (h : s.Ready c .any false [] (o.g ≠ 0) (s.act c o.g) (fun _ => []))
    (hm : s.act c o.g = 0) {i : Instr} (hi : i ∈ [Instr.acquire o, .ifence o, .rfence o]) :
    exec i s = .next (s.retire c { swap := true }) := by
  simp only [List.mem_cons, List.not_mem_nil, or_false] at hi
  rcases hi with rfl | rfl | rfl <;> exact State.run_order_inactive h hm _ _

/-- Settles O40: each instruction waits for its own part of what a crew has outstanding, and then retires with its effect. -/
theorem orderingInstructions : Obligations.OrderingInstructions := by
  unfold Obligations.OrderingInstructions
  refine ⟨fun o s c h => ⟨fun hp => ?fencePasses, fun hm hw => exec_fence_waits h hm ((Crew.fenceWaits_iff _ _).2 hw)⟩,
    fun o s c h hm => ⟨fun hh hl hd hs => ?acquires, fun hh hw => ?acquireWaits, fun hl => ?ifence, fun hl => ?ifenceWaits, ?rfence,
      fun hn hl hc hi => ?release⟩,
    fun o s c h hm i hi => ⟨_, exec_ordering_inactive h hm hi, s.retire_swap_done c⟩,
    fun o s c h => ⟨_, (State.run_cur h.1 _).trans (congrArg _ (State.gate_ready h _)), s.retire_done c {} rfl rfl rfl⟩⟩
  case fencePasses =>
    refine ⟨_, ?_, s.retire_swap_done c⟩
    rcases hp with hm | ⟨hl, hcl, hdv, hsy⟩
    · exact State.run_order_inactive h hm _ _
    · refine exec_fence_passes h (Bool.eq_false_iff.2 fun hw => ?_) fun hs => (hcl hs).2
      rcases (Crew.fenceWaits_iff _ _).1 hw with hw | ⟨hs, hw⟩ | ⟨hs, hw⟩ | ⟨hs, hw⟩
      · exact hw hl
      · exact hw (hcl hs).1
      · exact hw (hdv hs)
      · exact hw (hsy hs)
  case acquires =>
    rw [exec_acquire_active h hm hh, if_neg]
    rw [Crew.answersDue_iff]
    simp [hl, hd, hs]
  case acquireWaits => rw [exec_acquire_active h hm hh, if_pos ((Crew.answersDue_iff _).2 hw)]
  case ifence => rw [exec_ifence_active h hm, if_neg (by simp [hl])]
  case ifenceWaits => rw [exec_ifence_active h hm, if_pos (by simpa using hl)]
  case rfence =>
    refine ⟨_, exec_rfence_active h hm, Crew.wentOn_of (s.cw c) (s.cw c) c { swap := true } (fun _ => rfl) rfl rfl rfl, ?_, ?_, ?_⟩
    all_goals rw [Crew.retired_eq]
  case release =>
    refine exec_release_begins h hm hn (Bool.eq_false_iff.2 fun hw => ?_) hi
    rw [Crew.fenceWaits_iff] at hw
    simp [hl, hc] at hw

end Sys2Proof.Machine
end

/-! Issue of loads (R293 to R303): lanes that all have a place, lanes that have none, and the uniform loads. -/

section
namespace Sys2Proof.Machine

/-- The cause of least rank among a cause and those of some faults is one of them (R297). -/
theorem bestCause_mem (fs : List (Nat × FaultInfo)) (k : Nat) :
    fs.foldl (fun b e => if causeRank e.2.cause < causeRank b then e.2.cause else b) k = k
    ∨ ∃ e ∈ fs, e.2.cause = fs.foldl (fun b e => if causeRank e.2.cause < causeRank b then e.2.cause else b) k := by
  induction fs generalizing k with
  | nil => exact .inl rfl
  | cons f fs ih =>
    rw [List.foldl_cons]
    rcases ih (if causeRank f.2.cause < causeRank k then f.2.cause else k) with h | ⟨e, he, h⟩
    · rw [h]
      split
      · exact .inr ⟨f, List.mem_cons_self, rfl⟩
      · exact .inl rfl
    · exact .inr ⟨e, List.mem_cons_of_mem _ he, h⟩

/-- Where some lane has a fault, one is picked (R297). -/
theorem exists_pickFault {fs : List (Nat × FaultInfo)} (h : fs ≠ []) : ∃ f, pickFault fs = some f := by
  obtain ⟨f, rest, rfl⟩ := List.exists_cons_of_ne_nil h
  simp only [pickFault]
  split
  next hnone =>
    rw [List.filter_eq_nil_iff] at hnone
    rcases bestCause_mem rest f.2.cause with hf | ⟨e, he, hk⟩
    · exact absurd (decide_eq_true hf.symm) (hnone f List.mem_cons_self)
    · exact absurd (decide_eq_true hk) (hnone e (List.mem_cons_of_mem _ he))
  next => exact ⟨_, rfl⟩

section Load
variable {s : State} {c : Cur} {gd : BitVec 3} {a : Src} {ofs : Word} {k : LoadKind} {plain : Bool} {d : BitVec 6} {pl : Nat → Place}

/-- A lane without a place has a fault. -/
theorem State.accFaults_ne_nil {acc : Acc} {m : BitVec 32} {ea : Nat → Word} {n l : Nat} {e : Nat × Nat} (hl : m.getLsbD l = true)
    (h : s.placeOf c acc (ea l).toNat n plain = .error e) : accFaults (s.laneAccs c acc m ea n plain) ≠ [] := by
  have hmem : ({ lane := l, va := ea l, res := .error e } : LaneAcc) ∈ s.laneAccs c acc m ea n plain :=
    List.mem_map.2 ⟨l, (mem_lanesOf m l).2 hl, by rw [h]⟩
  exact List.ne_nil_of_mem (List.mem_filterMap.2 ⟨_, hmem, rfl⟩)

/-- A vector load of a fragment that may act, a lane of it without a place, or one that must follow a store of its crew (R297, R303). -/
theorem State.vload_heldBack (h : s.Ready c .any false (srcUse a :: loadDst k d) (gd ≠ 0) (s.act c gd) (fun _ => [a])) :
    let xs := s.laneAccs c .load (s.act c gd) (fun l => (s.cw c).val l a + ofs) k.size plain
    (∀ f, pickFault (accFaults xs) = some f → s.vload c gd a ofs k plain d = s.takeFault c f)
    ∧ (accFaults xs = [] → s.loadFollow c k (accLanes xs) ≠ [] →
      s.vload c gd a ofs k plain d = s.hold c (.operands (s.loadFollow c k (accLanes xs)))) := by
  intro xs
  unfold State.vload
  extract_lets dst m ys
  have hdst : dst = loadDst k d := by
    cases k <;> rfl
  have hys : ys = xs := rfl
  rw [hdst, State.gate_ready h, State.reads_ready h, hys]
  refine ⟨fun f hf => by simp only [hf], fun hn hq => ?_⟩
  simp only [hn, pickFault]

/-- A vector load whose lanes all have a place waits for the stores that it must follow (R303). -/
theorem State.vload_follows (h : s.Ready c .any false (srcUse a :: loadDst k d) (gd ≠ 0) (s.act c gd) (fun _ => [a]))
    (hp : ∀ l, (s.act c gd).getLsbD l = true → s.placeOf c .load ((s.cw c).val l a + ofs).toNat k.size plain = .ok (pl l))
    (hq : s.loadFollow c k (placedLanes (s.act c gd) (fun l => (s.cw c).val l a + ofs) pl) ≠ []) :
    s.vload c gd a ofs k plain d = s.hold c (.operands (s.loadFollow c k (placedLanes (s.act c gd) (fun l => (s.cw c).val l a + ofs) pl))) := by
  have hheld := (State.vload_heldBack (ofs := ofs) (plain := plain) h).2
  rw [State.laneAccs_placed hp, accFaults_placed, accLanes_placed] at hheld
  exact hheld rfl hq

/-- LDA.D is a vector load without an offset (R302). -/
theorem exec_ldaD (o : OpMS) (s : State) :
    exec (.ldaD o) s = s.run (fun c => s.vload c o.g (c.srcA o.a) 0 (.acquire o.scope.toNat) false (c.dst o.d)) := rfl

/-- The uniform loads by their size (R301). -/
theorem exec_uniformLoad {o : OpMU} {q : Instr × Nat} (hq : q ∈ ([(.lduD o, 8), (.lduW o, 4)] : List (Instr × Nat))) (s : State) :
    exec q.1 s = s.run (fun c => s.uload c o.g (c.srcA o.a) (offM o.off q.2) q.2 (c.dst o.d)) := by
  simp only [List.mem_cons, List.not_mem_nil, or_false] at hq
  rcases hq with rfl | rfl
  · rfl
  · rfl

section Uniform
variable {n : Nat} {du : BitVec 5} {p : Place}

/-- A uniform load with no fibre active only passes (R301). -/
theorem State.uload_inactive (h : s.Ready c .any false [srcUse a, .s du.toNat] (gd ≠ 0) (s.act c gd) (fun _ => [a])) (hm : s.act c gd = 0) :
    s.uload c gd a ofs n du = s.retire c { swap := true } := by
  have hacc : s.laneAccs c .load 0 (fun _ => s.uval c a + ofs) n false = [] := rfl
  unfold State.uload
  rw [State.gate_ready h, State.reads_ready h]
  simp only [hm, if_true, hacc]
  rfl

/-- A uniform load of a fragment that may act, its address with a place (R301). -/
theorem State.uload_placed (h : s.Ready c .any false [srcUse a, .s du.toNat] (gd ≠ 0) (s.act c gd) (fun _ => [a])) (hm : s.act c gd ≠ 0)
    (hp : s.placeOf c .load (s.uval c a + ofs).toNat n false = .ok p)
    (hf : s.mustFollow c .load [{ lane := lowestLane (s.act c gd), va := (s.uval c a + ofs).toNat, place := p }] n = [])
    (hh : (s.cw c).heldBy = none) :
    s.uload c gd a ofs n du = s.issueLoad c (.uniform n) du.toNat (s.act c gd)
      [{ lane := lowestLane (s.act c gd), va := (s.uval c a + ofs).toNat, place := p }] := by
  have hone : placedLanes (maskOf [lowestLane (s.act c gd)]) (fun _ => s.uval c a + ofs) (fun _ => p)
      = [{ lane := lowestLane (s.act c gd), va := (s.uval c a + ofs).toNat, place := p }] := by
    unfold placedLanes
    rw [lanesOf_maskOf_one (lt_of_getLsbD (getLsbD_lowestLane hm))]
    rfl
  unfold State.uload
  rw [State.gate_ready h, State.reads_ready h]
  simp only [if_neg hm]
  rw [State.laneAccs_placed (pl := fun _ => p) (fun _ _ => hp), accFaults_placed, accLanes_placed, hone]
  simp only [pickFault, State.ordered, hf, hh, ite_self]

end Uniform
end Load

/-- Settles O34: lanes that all have a place go on to the issue, and a lane without one has a fault to be picked. -/
theorem loadsIssue : Obligations.LoadsIssue := by
  unfold Obligations.LoadsIssue
  refine ⟨fun p hp o s c pl h => ⟨fun hpl => ⟨fun hq hf hh => ?issues, fun hq => ?follows⟩, fun ⟨l, e, hl, he⟩ => ?faults⟩,
    fun o s c pl h hpl hq hf hh => ?acquires, fun o s c pl q hq h => ⟨fun hm => ?passes, fun hm hpl hf hh => ?uniform⟩⟩
  case issues =>
    rw [exec_loadRule hp, State.run_cur h.1]
    exact congrArg _ (State.vload_placed h hpl hq hf hh)
  case follows =>
    rw [exec_loadRule hp, State.run_cur h.1]
    exact congrArg _ (State.vload_follows h hpl hq)
  case faults =>
    obtain ⟨f, hf⟩ := exists_pickFault (State.accFaults_ne_nil (ea := fun l => effAddr ((s.cw c).val l (c.srcA o.a)) o.off p.2.1.size) hl he)
    refine ⟨f, hf, ?_⟩
    rw [exec_loadRule hp, State.run_cur h.1]
    exact congrArg _ ((State.vload_heldBack h).1 f hf)
  case acquires =>
    have hz : ∀ x : Word, x + 0 = x := BitVec.add_zero
    have hload := State.vload_placed (ofs := 0) (plain := false) (k := .acquire o.scope.toNat) (pl := pl) h
    simp only [hz] at hload
    exact (exec_ldaD o s).trans ((State.run_cur h.1 _).trans (congrArg _ (hload hpl hq hf hh)))
  case passes =>
    rw [exec_uniformLoad hq, State.run_cur h.1, State.uload_inactive h hm]
    exact ⟨_, rfl, s.retire_swap_done c⟩
  case uniform =>
    rw [exec_uniformLoad hq, State.run_cur h.1]
    exact congrArg _ (State.uload_placed h hm hpl hf hh)

end Sys2Proof.Machine
end

/-! Atomics (R309, R311 to R313): their issue, and the word that ACAS leaves. -/

section
namespace Sys2Proof.Machine

/-- The sources of an atomic: D, and the next register for ACAS (R309). -/
def atomicSrcs (op : Nat) (d : BitVec 6) : List Src := if op = 14 then [.v d, .v (d + 1)] else [.v d]

/-- The requests of an atomic that count in the counter of devices, and in that of clusters (R401). -/
def atomicCounts (ps : List PLane) : Nat × Nat :=
  let dv := (ps.filter (fun q => q.place.isMem)).length
  (dv, (ps.filter (fun q => !q.inPlace)).length - dv)

section Issue
variable {s : State} {c : Cur} {o : OpM} {op n : Nat} {pl : Nat → Place}

/-- An atomic with a place for every lane and nothing to follow: its requests leave, or it waits for room in the counters (R311, R401). -/
theorem State.atomic_placed
    (h : s.Ready c .any false ([srcUse o.a, .v o.d.toNat] ++ if op = 14 then [.v (o.d.toNat + 1)] else []) (o.g ≠ 0) (s.act c o.g)
      (fun _ => o.a :: atomicSrcs op o.d))
    (hd : s.pairsDiffer c (s.act c o.g) (fun l => ((s.cw c).val l o.a + offM o.off n) :: (atomicSrcs op o.d).map ((s.cw c).val l)) = false)
    (hp : ∀ l, ((s.cw c).primaries (s.act c o.g)).getLsbD l = true
      → s.placeOf c .atomic ((s.cw c).val l o.a + offM o.off n).toNat n false = .ok (pl l))
    (hf : s.mustFollow c .atomic (placedLanes ((s.cw c).primaries (s.act c o.g)) (fun l => (s.cw c).val l o.a + offM o.off n) pl) n = []) :
    let ps := placedLanes ((s.cw c).primaries (s.act c o.g)) (fun l => (s.cw c).val l o.a + offM o.off n) pl
    let k := atomicCounts ps
    s.atomic o op n = .next (if 65535 < (s.cw c).ackCl + k.2 || 4095 < (s.cw c).ackDv + k.1 then s.hold c (.counters k.2 k.1 0)
      else (((s.tlbFills c ps).countBanks c ps n).sendAtomics c op n o.d ps).retire c { restart := true, swap := true }) := by
  unfold atomicSrcs at h hd
  intro ps k
  unfold State.atomic
  rw [State.run_cur h.1]
  dsimp only
  rw [State.gate_ready h, State.reads_ready h, hd, if_neg Bool.false_ne_true, State.laneAccs_placed hp, accFaults_placed, accLanes_placed]
  simp only [pickFault]
  unfold State.ordered
  rw [hf]
  rfl

end Issue

/-- The atomics by their code and size (R309). -/
theorem exec_atomicRule {p : (OpM → Instr) × Nat × Nat}
    (hp : p ∈ (atomRules.map (fun x => (x.1, x.2.1, 8)) ++ [(Instr.aaddfS, 15, 4)] : List ((OpM → Instr) × Nat × Nat))) (o : OpM) (s : State) :
    exec (p.1 o) s = s.atomic o p.2.1 p.2.2 := by
  simp only [atomRules, List.map_cons, List.map_nil, List.cons_append, List.nil_append, List.mem_cons, List.not_mem_nil, or_false] at hp
  rcases hp with rfl | rfl | rfl | rfl | rfl | rfl | rfl | rfl
  all_goals rfl

/-- Settles O38, by the checks that pass and whether the counters have room. -/
theorem atomicsIssue : Obligations.AtomicsIssue := by
  unfold Obligations.AtomicsIssue
  intro p hp o s c pl ds m ea ps dv cl h hd hpl hf
  have hgo := State.atomic_placed (op := p.2.1) h hd hpl hf
  rw [exec_atomicRule hp, hgo]
  refine ⟨fun hcl hdv => congrArg _ (if_neg ?_), fun hfull => congrArg _ (if_pos ?_)⟩
  · rw [Bool.or_eq_true, decide_eq_true_eq, decide_eq_true_eq]
    exact not_or.2 ⟨Nat.not_lt.2 hcl, Nat.not_lt.2 hdv⟩
  · rw [Bool.or_eq_true, decide_eq_true_eq, decide_eq_true_eq]
    exact hfull

/-- ACAS v4, [v1]. -/
def acasOp : OpM := { off := 0, a := .v 1, d := 4, g := 0 }

/-- Lane 0 of slot 0 of core 0 stands at that ACAS. -/
def acasCur : Cur := { core := 0, slot := 0, lanes := 1, pc := placedPc, word := encode (.acas acasOp), ins := .acas acasOp }

/-- v1 holds the first address of the own scratchpad, whose bytes are 0; v4 holds 7 and v5 holds 0; the group has no tile. -/
def acasState : State :=
  { ((State.reset.withFetchWord 32 (encode (.acas acasOp)).toNat).modCrew 0 0
      (fun w => { w with v := [(32, { val := 0x01FFFFFF00000000 }), (128, { val := 7 })] })).modGroup 0 (fun g => { g with tiles := 0 }) with
    agenda := [], cur := some acasCur }

/-- The first word of the scratchpad after an instruction. -/
def firstPadWord (x : Host.Outcome State Fault Refusal) : Option Nat :=
  match x with
  | .next t => some (leNat ((t.core (acasState.group 0).core).pool.readBytes (acasState.group 0).padBase 8))
  | .fault _ => none
  | .refused _ => none

/-- The comparand of ACAS is D + 1: 0 is there, so the word gets D (R309). -/
theorem firstPadWord_acas : firstPadWord (exec (.acas acasOp) acasState) = some 7 := by decide +kernel

/-- Refutes O39: the rule of ACAS in the statement compares the old word with D and stores D + 1, where R309 and the model compare with
D + 1 and store D. With 0 in the word, 7 in D and 0 in D + 1 the model stores 7, and the statement wants 0. -/
theorem not_atomicOwnScratchpad : ¬ Obligations.AtomicOwnScratchpad := by
  unfold Obligations.AtomicOwnScratchpad
  intro h
  have hmem : ((Instr.acas, 14, fun (old a b : Word) => if old = a then b else old) : (OpM → Instr) × Nat × (Word → Word → Word → Word)) ∈ atomRules := by
    simp [atomRules]
  have hplace : acasState.placeOf acasCur .atomic (effAddr ((acasState.cw acasCur).val 0 acasOp.a) acasOp.off 8).toNat 8 false = .ok (.pad 0 0) := by
    decide +kernel
  obtain ⟨t, ht, -, -, -, -, hword, -⟩ := h _ (List.mem_append_left _ (List.mem_map_of_mem hmem)) acasOp acasState acasCur 0 0 (by decide +kernel)
    (by decide) (by decide +kernel) (by decide +kernel) (by decide +kernel) (by decide +kernel) hplace (by decide +kernel) (by decide +kernel)
    (by decide +kernel) (by decide +kernel) (by decide +kernel)
  have hstored := firstPadWord_acas
  rw [ht] at hstored
  exact absurd (hword.symm.trans (Option.some.inj hstored)) (by decide +kernel)

end Sys2Proof.Machine
end


/-! Device writes, the log of errors and reads of a scratchpad leave the crews of every core (R132, R250 to R256, R263, R350, R351, R456). -/

section
namespace Sys2Proof.Machine

/-- A machine with the crews of another in their slots. -/
def State.CrewsKept (s t : State) : Prop := ∀ k sl, t.crew? k sl = s.crew? k sl

section Kept
variable {s t u : State}

theorem State.CrewsKept.refl (s : State) : s.CrewsKept s := fun _ _ => rfl

theorem State.CrewsKept.trans (h : s.CrewsKept t) (h' : t.CrewsKept u) : s.CrewsKept u := fun k sl => (h' k sl).trans (h k sl)

theorem State.CrewsKept.cw (h : s.CrewsKept t) (c : Cur) : t.cw c = s.cw c := congrArg (·.getD {}) (h c.core c.slot)

theorem State.crewsKept_cores (h : t.cores = s.cores) : s.CrewsKept t := fun k sl => by
  unfold State.crew? State.core
  rw [h]

theorem State.CrewsKept.ite {p : Prop} [Decidable p] (h : s.CrewsKept t) (h' : s.CrewsKept u) : s.CrewsKept (if p then t else u) := by
  split
  · exact h
  · exact h'

theorem State.TablesOnly.crewsKept (h : s.TablesOnly t) : s.CrewsKept t := by
  obtain ⟨_, _, _, _, rfl⟩ := h
  exact State.crewsKept_cores rfl

theorem State.crewsKept_modCore {k : Nat} {f : Core → Core} (hf : (f (s.core k)).slots = (s.core k).slots) : s.CrewsKept (s.modCore k f) :=
  State.crew?_modCore hf

/-- A fold of steps each of which leaves the crews. -/
theorem State.crewsKept_foldl {α : Type} {f : State → α → State} (hf : ∀ (s : State) a, s.CrewsKept (f s a)) (xs : List α) (s : State) :
    s.CrewsKept (xs.foldl f s) := by
  induction xs generalizing s with
  | nil => exact .refl s
  | cons x xs ih => exact (hf s x).trans (ih _)

/-- A fold that may fail, of steps each of which leaves the crews. -/
theorem crewsKept_optEach {α : Type} {f : State → α → Option State} (hf : ∀ (s : State) a t, f s a = some t → s.CrewsKept t) {xs : List α}
    {s t : State} (h : optEach s xs f = some t) : s.CrewsKept t := by
  induction xs generalizing s with
  | nil => cases h; exact .refl _
  | cons x xs ih =>
    unfold optEach at h ih
    rw [List.foldl_cons, Option.bind_some] at h
    cases hx : f s x with
    | some v => exact (hf s x v hx).trans (ih (hx ▸ h))
    | none =>
      have hnone : xs.foldl (fun (a : Option State) y => a.bind (fun s => f s y)) none = none := List.foldl_fixed' (fun _ => rfl) xs
      rw [hx, hnone] at h
      cases h

end Kept

section Blocks
variable {s t : State}

/-! Updates beside the cores. -/

theorem State.crewsKept_grains (s : State) (g : Tab Grain) : s.CrewsKept { s with grains := g } := State.crewsKept_cores rfl

theorem State.crewsKept_freeTabs (s : State) (ts : List (Nat × Nat)) : s.CrewsKept { s with freeTabs := ts } := State.crewsKept_cores rfl

theorem State.crewsKept_recSeg (s : State) (x : Option (Nat × Nat)) : s.CrewsKept { s with recSeg := x } := State.crewsKept_cores rfl

theorem State.crewsKept_openSeg (s : State) (g n : Nat) : s.CrewsKept (s.openSeg g n) := State.crewsKept_cores rfl

theorem State.crewsKept_errDue (s : State) (es : List ErrRec) : s.CrewsKept { s with errDue := es } := State.crewsKept_cores rfl

theorem State.crewsKept_moveUpdate (s : State) (u v : Update) : s.CrewsKept (s.moveUpdate u v) := State.crewsKept_cores rfl

theorem State.crewsKept_setHbmSector (s : State) (pa : Nat) (x : Sector) : s.CrewsKept (s.setHbmSector pa x) := State.crewsKept_cores rfl

theorem State.crewsKept_eachSector (s : State) (g : Nat → Nat) (xs : Tab Sector) :
    s.CrewsKept (s.each xs (fun s e => s.setHbmSector (g e.1) e.2)) := by
  have hset : ∀ (u : State) (e : Nat × Sector), u.CrewsKept (u.setHbmSector (g e.1) e.2) := fun u e => u.crewsKept_setHbmSector _ _
  exact State.crewsKept_foldl hset xs s

theorem State.crewsKept_shipLater (s : State) (xs : List OutItem) : s.CrewsKept (s.shipLater xs) := by
  unfold State.shipLater
  split
  · exact State.crewsKept_cores rfl
  · exact .refl s

/-- The summary, live mask and segment of a data block that is written (R250 to R253). -/
theorem State.crewsKept_summarise (s : State) (b sum g : Nat) (m : Tab (BitVec 16)) (f : Seg → Seg) (xs : List OutItem) :
    s.CrewsKept ((({ (s.setSummary b sum) with masks := m } : State).modSeg g f).shipLater xs) := by
  have hseg : s.CrewsKept (({ (s.setSummary b sum) with masks := m } : State).modSeg g f) := State.crewsKept_cores rfl
  exact hseg.trans (State.crewsKept_shipLater _ xs)

theorem State.crewsKept_writeBlock (s : State) (b lg : Nat) (xs : Tab Sector) (a d : Bool) (n : Nat) :
    s.CrewsKept (s.writeBlock b lg xs a d n) :=
  (s.crewsKept_eachSector (fun i => posAddr (16 * b + i)) xs).trans (State.crewsKept_summarise _ _ _ _ _ _ _)

theorem State.crewsKept_takeBlock (s : State) (g : Nat) : s.CrewsKept (s.takeBlock g).2 := by
  unfold State.takeBlock
  dsimp only
  split
  · exact State.crewsKept_cores rfl
  · exact State.crewsKept_cores rfl

theorem State.crewsKept_unref (s : State) (p : Nat) : s.CrewsKept (s.unref p) := by
  unfold State.unref
  dsimp only
  split
  · exact .refl s
  · split
    · exact State.crewsKept_cores rfl
    · exact State.crewsKept_cores rfl

theorem State.crewsKept_unrefSrc (s : State) (x : SecSrc) : s.CrewsKept (s.unrefSrc x) := by
  cases x with
  | log p => exact s.crewsKept_unref p
  | comp b o =>
    have hunref : ∀ (u : State) (i : Nat), u.CrewsKept (u.unref (16 * b + i)) := fun u i => u.crewsKept_unref _
    exact State.crewsKept_foldl hunref _ s
  | zero => exact .refl s
  | host a => exact .refl s
  | lost => exact .refl s

theorem State.crewsKept_unstage (s : State) (u : Update) : s.CrewsKept (s.unstage u) := by
  unfold State.unstage
  cases posSrc u.pos <;> exact State.crewsKept_cores rfl

theorem State.crewsKept_modPage (s : State) (lpn : Nat) (f : PageRec → PageRec) : s.CrewsKept (s.modPage lpn f) := by
  have hpage : (s.cowBlock lpn).CrewsKept (s.modPage lpn f) := State.crewsKept_cores rfl
  exact (s.tablesOnly_cowBlock lpn).crewsKept.trans hpage

theorem State.crewsKept_cowPage (s : State) (lpn : Nat) : s.CrewsKept (s.cowPage lpn) := by
  unfold State.cowPage
  dsimp only
  split
  · exact .refl s
  · exact ((s.tablesOnly_allocTable _).crewsKept.trans (State.crewsKept_modPage _ lpn _)).trans (State.crewsKept_freeTabs _ _)

theorem State.crewsKept_recordBlock {b : Nat} (h : s.recordBlock = some (b, t)) : s.CrewsKept t := by
  unfold State.recordBlock at h
  dsimp only at h
  split at h
  · cases h; exact s.crewsKept_takeBlock _
  · split at h
    · cases h
    · split at h
      · cases h
      next g _ =>
        cases h
        exact ((s.crewsKept_openSeg g 268).trans (State.crewsKept_recSeg _ _)).trans (State.crewsKept_takeBlock _ g)

theorem State.crewsKept_stackBlock {k b : Nat} (h : s.stackBlock k = some (b, t)) : s.CrewsKept t := by
  unfold State.stackBlock at h
  split at h
  · cases h; exact s.crewsKept_takeBlock _
  · split at h
    · cases h
    next g _ => cases h; exact (s.crewsKept_openSeg g (256 + k)).trans (State.crewsKept_takeBlock _ g)

/-- An armed injection that fires on a sector leaves the crews of its core (R132). -/
theorem crewsKept_injectHbm (a : Nat) (r : State × List ErrRec) (c : Nat) : r.1.CrewsKept (injectHbm a r c).1 := by
  have hfired : r.1.CrewsKept (r.1.setCore c (r.1.core c).fired) := State.crewsKept_modCore (f := Core.fired) rfl
  unfold injectHbm
  dsimp only
  split
  · exact hfired
  · exact hfired
  · exact hfired

theorem State.crewsKept_fireHbm (s : State) (p : Nat) : s.CrewsKept (s.fireHbm p).1 := by
  have hinject : ∀ (cs : List Nat) (r : State × List ErrRec), r.1.CrewsKept (cs.foldl (injectHbm (posAddr p)) r).1 := by
    intro cs
    induction cs with
    | nil => exact fun r => .refl r.1
    | cons c cs ih => exact fun r => (crewsKept_injectHbm _ r c).trans (ih _)
  have hr := hinject (s.armedAt 0 (fun _ k => k.injAddr.toNat / 32 = posAddr p / 32)) (s, [])
  unfold State.fireHbm
  dsimp only
  split
  · exact hr
  · exact hr
  · exact hr

theorem State.crewsKept_consolidate {lg : Nat} (h : s.consolidate lg = some t) : s.CrewsKept t := by
  unfold State.consolidate at h
  dsimp only at h
  split at h
  · cases h
  next hb =>
    cases h
    have hread : ∀ (u : State) (e : Nat × Nat), u.CrewsKept { (u.fireHbm e.2).1 with errDue := (u.fireHbm e.2).1.errDue ++ (u.fireHbm e.2).2 } :=
      fun u e => (u.crewsKept_fireHbm e.2).trans (State.crewsKept_errDue _ _)
    exact ((((State.crewsKept_foldl hread _ s).trans (State.crewsKept_stackBlock hb)).trans (State.crewsKept_writeBlock _ _ _ _ _ _ _)).trans
      (State.crewsKept_grains _ _)).trans (State.crewsKept_foldl (fun _ _ => State.crewsKept_unrefSrc _ _) _ _)

end Blocks

section Writes
variable {s t : State}

theorem State.crewsKept_setCommitted {lsec p : Nat} (h : s.setCommitted lsec p = some t) : s.CrewsKept t := by
  unfold State.setCommitted at h
  dsimp only at h
  split at h
  · cases h
    exact ((s.crewsKept_cowPage _).trans (State.crewsKept_grains _ _)).trans (State.crewsKept_unrefSrc _ _)
  · split at h
    · cases h
    next hc =>
      split at h
      · cases h
        exact (((s.crewsKept_cowPage _).trans (State.crewsKept_consolidate hc)).trans (State.crewsKept_grains _ _)).trans (State.crewsKept_unrefSrc _ _)
      · cases h

theorem State.crewsKept_rewriteUpdate {u : Update} {q : HeldWrite} (h : s.rewriteUpdate u q = some t) : s.CrewsKept t := by
  unfold State.rewriteUpdate at h
  split at h
  · cases h; exact .refl s
  · split at h
    · cases h
    next hb =>
      cases h
      exact ((((State.crewsKept_recordBlock hb).trans (State.crewsKept_writeBlock _ _ _ _ _ _ _)).trans
        (State.crewsKept_moveUpdate _ _ _)).trans (State.crewsKept_unstage _ _)).trans (State.crewsKept_unref _ _)

theorem State.crewsKept_devGrain {lg : Nat} {ps : List HeldWrite} {more : List Update} (h : s.devGrain lg ps more = some t) : s.CrewsKept t := by
  unfold State.devGrain at h
  split at h
  · cases h
  next hb =>
    obtain ⟨u, hu, ht⟩ := Option.bind_eq_some_iff.1 h
    exact (((State.crewsKept_recordBlock hb).trans (State.crewsKept_writeBlock _ _ _ _ _ _ _)).trans
      (crewsKept_optEach (fun _ _ _ hx => State.crewsKept_setCommitted hx) hu)).trans
      (crewsKept_optEach (fun _ _ _ hx => crewsKept_optEach (fun _ _ _ hy => State.crewsKept_rewriteUpdate hy) hx) ht)

theorem State.crewsKept_devPieces (s : State) (ps : List HeldWrite) (more : List Update) : s.CrewsKept (s.devPieces ps more) := by
  unfold State.devPieces State.devTogether
  dsimp only
  split
  · exact State.crewsKept_cores rfl
  · split
    · exact State.crewsKept_cores rfl
    · cases h : optEach s (heldGrains ps) (fun s lg => s.devGrain lg (ps.filter (fun p => p.lsec / 16 = lg)) more) with
      | none => exact State.crewsKept_cores rfl
      | some t => exact crewsKept_optEach (fun _ _ _ hx => State.crewsKept_devGrain hx) h

theorem State.crewsKept_devWriteL (s : State) (a : Nat) (bs : List Byte) : s.CrewsKept (s.devWriteL a bs) :=
  State.crewsKept_foldl (fun _ _ => State.crewsKept_devPieces _ _ _) _ s

/-- A log record leaves the crews (R263). -/
theorem State.crewsKept_logErr (s : State) (r : ErrRec) : s.CrewsKept (s.logErr r) := by
  unfold State.logErr
  extract_lets f timed stamped count counted mine logged q bytes a written
  have hcounted : s.CrewsKept counted := .ite (State.crewsKept_cores rfl) (State.crewsKept_cores rfl)
  have hlogged : s.CrewsKept logged := hcounted
  have hwritten : logged.CrewsKept written := .ite (logged.crewsKept_devWriteL a bytes) (State.crewsKept_cores rfl)
  clear_value logged written
  exact .ite hlogged (.ite hlogged (hlogged.trans hwritten))

/-- A read of a scratchpad, on which an armed injection may fire, leaves the crews (R132). -/
theorem State.crewsKept_touchPad (s : State) (g off n : Nat) : s.CrewsKept (s.touchPad g off n) := by
  have hfired : ∀ k, s.CrewsKept (s.setCore k (s.core k).fired) := fun k => State.crewsKept_modCore (f := Core.fired) rfl
  unfold State.touchPad State.touchPool State.touch
  dsimp only
  split
  · split
    · exact (hfired _).trans (State.crewsKept_logErr _ _)
    · exact ((hfired _).trans (State.crewsKept_modCore rfl)).trans (State.crewsKept_logErr _ _)
    · exact (hfired _).trans (State.crewsKept_modCore rfl)
  · exact .refl s

end Writes

end Sys2Proof.Machine
end

/-! Group 11, FN 5 to 12 (R331 to R336, R339): the checks of a queue instruction, the reservation of a ring's slot, and the queueing of a copy. -/

section
namespace Sys2Proof.Machine

section Ready
variable {s : State} {c : Cur} {r : Roles} {g : BitVec 3} {us : List Use} {xs : List Src} (h : s.QueueReady c r g us xs)
include h

/-- With no fibre active a queue instruction only retires (R334). -/
theorem State.queue_inactive (hm : s.act c g = 0) (k : BitVec 32 → State) (off : Done) : s.queue c r g us xs k off = s.retire c off := by
  rw [State.queue, State.gate_ready h.1, State.reads_ready h.1]
  exact (if_neg (ne_true_of_eq_false h.2)).trans (if_pos hm)

/-- With a fibre active, and pairs that agree, it acts (R48, R334). -/
theorem State.queue_active (hm : s.act c g ≠ 0) (k : BitVec 32 → State) (off : Done) : s.queue c r g us xs k off = k (s.act c g) := by
  rw [State.queue, State.gate_ready h.1, State.reads_ready h.1]
  exact (if_neg (ne_true_of_eq_false h.2)).trans (if_neg hm)

end Ready

section Copy
variable {s : State} {c : Cur} {r : Roles} {o : OpCp} (h : s.QueueReady c r o.g (cpUses o) (cpSrcs o))
  (k : Cur → BitVec 32 → Nat × Nat × Nat → State)
include h

theorem State.copyOp_inactive (hm : s.act c o.g = 0) : s.copyOp o r k = .next (s.retire c { swap := true }) :=
  (State.run_cur h.1.1 _).trans (congrArg _ (State.queue_inactive h hm _ _))

/-- A copy instruction waits while its core's queue is full (R334). -/
theorem State.copyOp_full (hm : s.act c o.g ≠ 0) (hq : 64 ≤ (s.core c.core).queued) : s.copyOp o r k = .next (s.hold c .copyFull) :=
  (State.run_cur h.1.1 _).trans (congrArg _ ((State.queue_active h hm _ _).trans (if_pos hq)))

theorem State.copyOp_room (hm : s.act c o.g ≠ 0) (hq : (s.core c.core).queued < 64) :
    s.copyOp o r k = .next (k c (s.act c o.g) (s.opVals c o)) :=
  (State.run_cur h.1.1 _).trans (congrArg _ ((State.queue_active h hm _ _).trans (if_neg (Nat.not_le.2 hq))))

end Copy

/-- The copy instructions are one operation with a role and an action each. -/
theorem exec_copyOp {o : OpCp} {p : (OpCp → Instr) × Roles} (hp : p ∈ [(Instr.cpy, Roles.copy), (.cpyq, .copy), (.cpyt, .copy), (.rget, .any)])
    (s : State) : ∃ k, exec (p.1 o) s = s.copyOp o p.2 k := by
  simp only [List.mem_cons, List.not_mem_nil, or_false] at hp
  rcases hp with rfl | rfl | rfl | rfl
  · exact ⟨_, (rfl : execCpy o s = s.copyOp o .copy _)⟩
  · exact ⟨_, (rfl : execCpyq o s = s.copyOp o .copy _)⟩
  · exact ⟨_, (rfl : execCpyt o s = s.copyOp o .copy _)⟩
  · exact ⟨_, (rfl : execRget o s = s.copyOp o .any _)⟩

section Rings
variable {s u : State} {c : Cur} {off : Nat} {r : Ring}

/-- A readable and well-formed descriptor is used as the machine reads it (R332). -/
theorem State.withRing_is (h : s.RingIs c off u r) (k : State → Ring → State) : s.withRing c off k = k u r := by
  obtain ⟨halign, hlimit, rfl, hpoison, hring⟩ := h
  unfold State.withRing
  rw [if_neg (by simp [halign]), if_neg (by omega)]
  simp only [hpoison, hring, Bool.false_eq_true, if_false]

/-- Reading a descriptor leaves the crew. -/
theorem State.RingIs.cw (h : s.RingIs c off u r) : u.cw c = s.cw c := by
  obtain ⟨-, -, rfl, -⟩ := h
  exact (s.crewsKept_touchPad _ off 16).cw c

theorem State.reserveSlot_none (h : r.free = 0) (k : State → Nat → State) :
    s.reserveSlot c off r k = ((s.setTag (s.cw c).group off).setTag (s.cw c).group (off + 8)).hold c (.ringFree off) := if_pos h

theorem State.reserveSlot_free (h : r.free ≠ 0) (k : State → Nat → State) :
    s.reserveSlot c off r k = k (s.setRing (s.cw c).group off r.reserve) r.put := if_neg h

end Rings

/-- The batches of a crew with one more copy in the batch of a number (R336). -/
def joinBatches (n : Nat) (bs : List Batch) : List Batch :=
  if bs.any (fun b => b.no = n) then mapIf (fun b => b.no = n) (fun b => { b with left := b.left + 1 }) bs else bs ++ [{ no := n, left := 1 }]

theorem joinBatches_new {n : Nat} {bs : List Batch} (h : ∀ b ∈ bs, b.no ≠ n) : joinBatches n bs = bs ++ [{ no := n, left := 1 }] :=
  if_neg (by simpa using h)

theorem joinBatches_known {n : Nat} {bs : List Batch} (h : ∃ b ∈ bs, b.no = n) :
    joinBatches n bs = bs.map (fun b => if b.no = n then { b with left := b.left + 1 } else b) := by
  rw [joinBatches, if_pos (by simpa using h)]
  simp only [mapIf, decide_eq_true_eq]

/-- The machine in which a copy of the crew is issued, or its open batch sealed: an earlier batch of that number, 65,536 behind, has it no more (R337). -/
def State.renumbered (s : State) (c : Cur) : State :=
  if (s.cw c).batches.any (fun b => b.no = ((s.cw c).lastBatch + 1).toNat && !b.sealed_) then s else s.freshBatch c

/-- The copy that joins the crew's open batch (R333). -/
def State.newCopy (s : State) (c : Cur) (kind : CopyKind) (total : Nat) : Copy :=
  { id := (s.renumbered c).nextId, slot := c.slot, group := (s.cw c).group, batch := ((s.cw c).lastBatch + 1).toNat, kind := kind
    ctx := s.crewCtx c.core c.slot, tag := s.crewTag c.core c.slot, lid := s.crewLid c.core c.slot, total := total, pol := c.policy }

/-- A copy enters the queue, and its crew's batches count it (R333, R336). -/
theorem State.joinBatch_eq (s : State) (c : Cur) (kind : CopyKind) (total : Nat) :
    s.joinBatch c kind total =
      ((s.renumbered c).newId.2.modCore c.core (fun k => { k with copies := k.copies ++ [s.newCopy c kind total] })).setCrew c.core c.slot
        { (s.renumbered c).cw c with batches := joinBatches ((s.cw c).lastBatch + 1).toNat ((s.renumbered c).cw c).batches } := by
  unfold State.joinBatch State.modCrew
  dsimp only
  rw [State.crew_modCore rfl]
  rfl

/-- Every copy instruction that queues a copy leaves it at the end of its core's queue and its batch's number in sD (R333, R335, R336). -/
theorem State.enqueue_queued (s : State) (c : Cur) (d : BitVec 5) (m : BitVec 32) (kind : CopyKind) (total : Nat) :
    s.CopyQueued (s.enqueue c d m kind total) c d kind total :=
  ⟨_, _, s.joinBatch_eq c kind total, joinBatches_new, joinBatches_known, State.putU_swap _ c d m _⟩

end Sys2Proof.Machine
end

/-! CPY, CPYQ, CPYT and RGET (R332 to R336, R339): each control word, the copy that it queues, and the statement. -/

section
namespace Sys2Proof.Machine

/-- A tile copy outside a ring to a slot that exists (R335). -/
theorem State.tileCopy_slot {s : State} (c : Cur) (o : OpCp) (m : BitVec 32) (kind : Nat → Option (Nat × Nat) → CopyKind) {index : Nat} {weight : Bool}
    (h : index < if weight then 96 else (s.group (s.cw c).group).tiles) :
    s.tileCopy c o m false index 0 weight kind = s.enqueue c o.d m (kind index none) 32 := by
  unfold State.tileCopy
  dsimp only
  rw [if_neg Bool.false_ne_true, if_neg]
  cases weight with
  | false => simpa using h
  | true => simpa [Nat.lt_succ_iff] using h

/-- A control word of RPUT or RGET without a length, or with a reserved bit (R339). -/
theorem remoteControl_malformed {b : Nat} (h : b % 2 ^ 24 = 0 ∨ b / 2 ^ 24 % 256 ≠ 0 ∨ 2 ^ 44 ≤ b) : remoteControl b = none := by
  refine if_pos ?_
  simp only [Bool.or_eq_true, decide_eq_true_eq, or_assoc]
  omega

/-- A sound one gives the length and the peer (R339). -/
theorem remoteControl_sound {b : Nat} (hlen : b % 2 ^ 24 ≠ 0) (hres : b / 2 ^ 24 % 256 = 0) (hb : b < 2 ^ 44) :
    remoteControl b = some (b % 2 ^ 24, b / 2 ^ 32) := by
  have hpeer : b / 2 ^ 32 % 4096 = b / 2 ^ 32 := by omega
  rw [remoteControl, hpeer]
  refine if_neg ?_
  simp only [Bool.or_eq_true, decide_eq_true_eq, or_assoc]
  omega

section Issue
variable {s : State} {c : Cur} {o : OpCp} {A B C : Nat} (hv : s.opVals c o = (A, B, C)) (hm : s.act c o.g ≠ 0)
  (hq : (s.core c.core).queued < 64)
include hv hm hq

section OwnDevice
variable (h : s.QueueReady c .copy o.g (cpUses o) (cpSrcs o))
include h

/-- A plain copy of no bytes, or one whose control word has a reserved bit, faults (R335). -/
theorem exec_cpy_reserved (hb : C % 2 ^ 24 = 0 ∨ 2 ^ 26 ≤ C) : exec (.cpy o) s = .next (s.takeFault c (faultOf 14 1)) := by
  change execCpy o s = _
  rw [execCpy, State.copyOp_room h _ hm hq, hv]
  refine congrArg _ (if_pos ?_)
  simp only [Bool.or_eq_true, decide_eq_true_eq]
  exact .inl hb

/-- A plain copy to an address; `comp` says that it compresses, and then goes by whole units (R335). -/
theorem exec_cpy_plain {comp : Bool} (hc : decide (C / 2 ^ 25 % 2 = 1) = comp) (hr : C / 2 ^ 24 % 2 = 0) (hC : C < 2 ^ 26) (hlen : C % 2 ^ 24 ≠ 0)
    (hunit : comp = true → B % 1024 = 0 ∧ C % 2 ^ 24 % 1024 = 0) :
    exec (.cpy o) s = .next (s.enqueue c o.d (s.act c o.g) (.cpy A B (C % 2 ^ 24) none comp) (C % 2 ^ 24)) := by
  have hsound : ¬ (C % 2 ^ 24 = 0 ∨ 2 ^ 26 ≤ C) ∧ ¬ (comp = true ∧ ((C / 2 ^ 24 % 2 = 1 ∨ B % 1024 ≠ 0) ∨ C % 2 ^ 24 % 1024 ≠ 0)) :=
    ⟨by omega, fun ⟨ht, hbad⟩ => by have := hunit ht; omega⟩
  change execCpy o s = _
  rw [execCpy, State.copyOp_room h _ hm hq, hv]
  dsimp only
  rw [hc, if_neg, if_pos]
  · simp only [hr, zero_ne_one, decide_false, Bool.not_false]
  · simpa only [Bool.or_eq_true, Bool.and_eq_true, decide_eq_true_eq, not_or] using hsound

/-- A plain copy into a ring goes by the descriptor that its destination names (R332, R335). -/
theorem exec_cpy_ring {off : Nat} {u : State} {r : Ring} (h24 : 2 ^ 24 ≤ C) (h25 : C < 2 ^ 25) (hlen : C % 2 ^ 24 ≠ 0)
    (hB : regionOf B = .local_ off) (hu : s.RingIs c off u r) :
    exec (.cpy o) s = .next (if r.slotsz < C % 2 ^ 24 then u.takeFault c (faultOf 14 2)
      else u.reserveSlot c off r (fun x i => x.enqueue c o.d (s.act c o.g)
        (.cpy A (0x01FFFFFF00000000 + r.base + i * r.slotsz) (C % 2 ^ 24) (some (off, i)) false) (C % 2 ^ 24))) := by
  have hring : C / 2 ^ 24 % 2 = 1 := by omega
  have hsound : ¬ ((C % 2 ^ 24 = 0 ∨ 2 ^ 26 ≤ C) ∨ C / 2 ^ 25 % 2 = 1 ∧ ((C / 2 ^ 24 % 2 = 1 ∨ B % 1024 ≠ 0) ∨ C % 2 ^ 24 % 1024 ≠ 0)) := by omega
  change execCpy o s = _
  rw [execCpy, State.copyOp_room h _ hm hq, hv]
  dsimp only
  rw [if_neg, if_neg, hB]
  · exact congrArg _ (State.withRing_is hu _)
  · simp only [hring, decide_true, Bool.not_true, Bool.false_eq_true, not_false_eq_true]
  · simpa only [Bool.or_eq_true, Bool.and_eq_true, decide_eq_true_eq] using hsound

/-- A quantising copy with a reserved field in its control word faults (R335). -/
theorem exec_cpyq_reserved (hb : 2 ^ 32 ≤ C ∨ C / 2 ^ 9 % 4 ≠ 0) : exec (.cpyq o) s = .next (s.takeFault c (faultOf 14 1)) := by
  change execCpyq o s = _
  rw [execCpyq, State.copyOp_room h _ hm hq, hv]
  refine congrArg _ (if_pos ?_)
  simp only [Bool.or_eq_true, decide_eq_true_eq]
  exact .inl hb

/-- A tile copy with a reserved field in its control word faults (R335). -/
theorem exec_cpyt_reserved (hb : 2 ^ 32 ≤ C ∨ C / 2 ^ 10 % 2 ≠ 0 ∨ C % 4 = 3) : exec (.cpyt o) s = .next (s.takeFault c (faultOf 14 1)) := by
  change execCpyt o s = _
  rw [execCpyt, State.copyOp_room h _ hm hq, hv]
  refine congrArg _ (if_pos ?_)
  simp only [Bool.or_eq_true, decide_eq_true_eq, or_assoc]
  omega

/-- A quantising copy to a slot that exists (R335). -/
theorem exec_cpyq_slot (hC : C < 2 ^ 8) (hs : C / 2 < if C % 2 = 1 then 96 else (s.group (s.cw c).group).tiles) :
    exec (.cpyq o) s = .next (s.enqueue c o.d (s.act c o.g) (.cpyq A B (C % 2) (C / 2) none) 32) := by
  have hsound : ¬ ((2 ^ 32 ≤ C ∨ C / 2 ^ 9 % 4 ≠ 0) ∨ C / 2 ^ 8 % 2 = 1 ∧ C % 2 ≠ 0) := by omega
  have hring : C / 2 ^ 8 % 2 = 0 := by omega
  have hindex : C / 2 % 128 = C / 2 := by omega
  have hdesc : C / 2 ^ 11 = 0 := by omega
  change execCpyq o s = _
  rw [execCpyq, State.copyOp_room h _ hm hq, hv]
  dsimp only
  rw [if_neg, hring, hindex, hdesc]
  · exact congrArg _ (State.tileCopy_slot c o _ (fun i r => .cpyq A B (C % 2) i r) (by simpa only [decide_eq_true_eq] using hs))
  · simpa only [Bool.or_eq_true, Bool.and_eq_true, decide_eq_true_eq] using hsound

/-- A tile copy to a slot that exists (R335). -/
theorem exec_cpyt_slot (hC : C < 2 ^ 9) (hdir : C % 4 ≠ 3) (hs : C / 4 < if C % 4 = 1 then 96 else (s.group (s.cw c).group).tiles) :
    exec (.cpyt o) s = .next (s.enqueue c o.d (s.act c o.g) (.cpyt A B (C % 4) (C / 4) none) 32) := by
  have hsound : ¬ (((2 ^ 32 ≤ C ∨ C / 2 ^ 10 % 2 ≠ 0) ∨ C % 4 = 3) ∨ C / 2 ^ 9 % 2 = 1 ∧ C % 4 ≠ 0) := by omega
  have hring : C / 2 ^ 9 % 2 = 0 := by omega
  have hindex : C / 4 % 128 = C / 4 := by omega
  have hdesc : C / 2 ^ 11 = 0 := by omega
  change execCpyt o s = _
  rw [execCpyt, State.copyOp_room h _ hm hq, hv]
  dsimp only
  rw [if_neg, hring, hindex, hdesc]
  · exact congrArg _ (State.tileCopy_slot c o _ (fun i r => .cpyt A B (C % 4) i r) (by simpa only [decide_eq_true_eq] using hs))
  · simpa only [Bool.or_eq_true, Bool.and_eq_true, decide_eq_true_eq] using hsound

end OwnDevice

section Remote
variable (h : s.QueueReady c .any o.g (cpUses o) (cpSrcs o))
include h

/-- RGET with a malformed control word faults (R339). -/
theorem exec_rget_reserved (hC : C % 2 ^ 24 = 0 ∨ C / 2 ^ 24 % 256 ≠ 0 ∨ 2 ^ 44 ≤ C) : exec (.rget o) s = .next (s.takeFault c (faultOf 14 1)) := by
  change execRget o s = _
  rw [execRget, State.copyOp_room h _ hm hq, hv]
  dsimp only
  rw [remoteControl_malformed hC]
  rfl

/-- RGET asks the peer that its control word names, or faults at its source where there is none (R339). -/
theorem exec_rget_peer (hlen : C % 2 ^ 24 ≠ 0) (hres : C / 2 ^ 24 % 256 = 0) (hC : C < 2 ^ 44) :
    exec (.rget o) s = .next (if (Tab.find s.peers (C / 2 ^ 32)).isNone then s.takeFault c { cause := 2, sub := 6, addr := A }
      else s.enqueue c o.d (s.act c o.g) (.rget (C / 2 ^ 32) A B (C % 2 ^ 24)) (C % 2 ^ 24)) := by
  change execRget o s = _
  rw [execRget, State.copyOp_room h _ hm hq, hv]
  dsimp only
  rw [remoteControl_sound hlen hres hC]

end Remote
end Issue

/-- Settles O47: each copy instruction is its checks, and then the queueing of its copy. -/
theorem copiesIssue : Obligations.CopiesIssue := by
  unfold Obligations.CopiesIssue
  intro o s c A B C bad
  have hv : s.opVals c o = (A, B, C) := rfl
  refine ⟨fun p hp h => ⟨fun hm => ?inactive, fun hm hq => ?full⟩, fun h hm hq => ?ownDevice, fun h hm hq => ?peer⟩
  case inactive =>
    obtain ⟨k, hk⟩ := exec_copyOp hp s
    exact ⟨_, hk.trans (State.copyOp_inactive h k hm), s.retire_swap_done c⟩
  case full =>
    obtain ⟨k, hk⟩ := exec_copyOp hp s
    exact hk.trans (State.copyOp_full h k hm hq)
  case ownDevice =>
    refine ⟨exec_cpy_reserved hv hm hq h, fun hC hlen => ?plain, fun hlo hhi hlen hB hunit => ?compressed,
      fun off u r h24 h25 hlen hB hu => ?ring, exec_cpyq_reserved hv hm hq h,
      fun hC hs => ⟨_, exec_cpyq_slot hv hm hq h hC hs, s.enqueue_queued c _ _ _ _⟩, exec_cpyt_reserved hv hm hq h,
      fun hC hd hs => ⟨_, exec_cpyt_slot hv hm hq h hC hd hs, s.enqueue_queued c _ _ _ _⟩⟩
    case plain =>
      have hcomp : decide (C / 2 ^ 25 % 2 = 1) = false := decide_eq_false (by omega)
      exact ⟨_, exec_cpy_plain hv hm hq h hcomp (by omega) (by omega) hlen nofun, s.enqueue_queued c _ _ _ _⟩
    case compressed =>
      have hcomp : decide (C / 2 ^ 25 % 2 = 1) = true := decide_eq_true (by omega)
      exact ⟨_, exec_cpy_plain hv hm hq h hcomp (by omega) (by omega) hlen (fun _ => ⟨hB, hunit⟩), s.enqueue_queued c _ _ _ _⟩
    case ring =>
      rw [exec_cpy_ring hv hm hq h h24 h25 hlen hB hu, ← hu.cw]
      refine ⟨fun hsz => congrArg _ (if_pos hsz), fun hsz hf => ?_, fun hsz hf => ?_⟩
      · rw [if_neg (Nat.not_lt.2 hsz), State.reserveSlot_none hf]
      · rw [if_neg (Nat.not_lt.2 hsz), State.reserveSlot_free hf]
  case peer =>
    refine ⟨exec_rget_reserved hv hm hq h, fun hlen hres hC => ?_⟩
    rw [exec_rget_peer hv hm hq h hlen hres hC]
    refine ⟨fun hp => congrArg _ (if_pos (Option.isNone_iff_eq_none.2 hp)), fun hp => ⟨_, congrArg _ (if_neg ?_), s.enqueue_queued c _ _ _ _⟩⟩
    rwa [Option.isNone_iff_eq_none]

end Sys2Proof.Machine
end

/-! SEAL and CWAIT (R332, R336, R337): the crew's batches, and the take and the release of a ring's slot. -/

section
namespace Sys2Proof.Machine

section Renumber
variable (s : State) (c : Cur)

theorem State.lastBatch_renumbered : ((s.renumbered c).cw c).lastBatch = (s.cw c).lastBatch := by
  unfold State.renumbered State.freshBatch
  split
  · rfl
  · dsimp only
    split
    · unfold State.cw
      rw [State.crew_modCore rfl, State.crew_modCrew_same]
    · rfl

/-- With no earlier batch of the number there is nothing to take it from (R337). -/
theorem State.renumbered_same (h : ∀ b ∈ (s.cw c).batches, b.no = ((s.cw c).lastBatch + 1).toNat → b.sealed_ = false) : s.renumbered c = s := by
  unfold State.renumbered State.freshBatch
  split
  · rfl
  · refine if_neg ?_
    simpa [Crew.openBatch] using h

end Renumber

/-- The batches of a crew with the one of a number sealed, and gone where it is complete (R336). -/
def sealBatches (n : Nat) (bs : List Batch) : List Batch :=
  (mapIf (fun b => b.no = n) (fun b => { b with sealed_ := true }) bs).filter (fun b => !(b.no = n && b.left = 0 && b.fail.isNone))

theorem mem_sealBatches_other {n : Nat} {bs : List Batch} {b : Batch} (h : b.no ≠ n) : b ∈ sealBatches n bs ↔ b ∈ bs := by
  simp only [sealBatches, mapIf, List.mem_filter, List.mem_map, decide_eq_true_eq, h, decide_false, Bool.false_and, Bool.not_false, and_true]
  constructor
  · rintro ⟨x, hx, rfl⟩
    split at h
    next hn => exact absurd hn h
    next hn => rwa [if_neg hn]
  · exact fun hb => ⟨b, hb, if_neg h⟩

theorem sealed_of_mem_sealBatches {n : Nat} {bs : List Batch} {b : Batch} (hb : b ∈ sealBatches n bs) (h : b.no = n) : b.sealed_ = true := by
  obtain ⟨x, -, rfl⟩ := List.mem_map.1 (List.mem_filter.1 hb).1
  dsimp only at h ⊢
  split at h
  next hn => rw [if_pos hn]
  next hn => exact absurd (decide_eq_true h) hn

section Seal
variable {o : OpSeal} {s : State} {c : Cur} (h : s.QueueReady c .any o.g [.s o.d.toNat] [])
include h

theorem exec_sealBatch_inactive (hm : s.act c o.g = 0) : exec (.sealBatch o) s = .next (s.retire c { swap := true }) :=
  (State.run_cur h.1.1 _).trans (congrArg _ (State.queue_inactive h hm _ _))

/-- SEAL seals the open batch and gives its number, or waits while 64 sealed batches are under way (R336). -/
theorem exec_sealBatch_active (hm : s.act c o.g ≠ 0) :
    exec (.sealBatch o) s = .next (if 64 ≤ ((s.cw c).batches.filter (fun b => b.sealed_ && decide (0 < b.left))).length then s.hold c .sealLimit
      else ((s.renumbered c).setCrew c.core c.slot { (s.renumbered c).cw c with
        lastBatch := ((s.renumbered c).cw c).lastBatch + 1, batches := sealBatches ((s.cw c).lastBatch + 1).toNat ((s.renumbered c).cw c).batches }).putU c false o.d
          (s.act c o.g) (BitVec.ofNat 64 ((s.cw c).lastBatch + 1).toNat) { swap := true }) := by
  change execSealBatch o s = _
  rw [execSealBatch, State.run_cur h.1.1, State.queue_active h hm]
  rfl

end Seal

section Cwait
variable {o : OpDA} {s : State} {c : Cur} (h : s.QueueReady c .any o.g [srcUse o.a, .s o.d.toNat] [o.a]) {mode lim : Nat}
  (k : BitVec 32 → Nat → State)

/-- The three rows of CWAIT are one operation with a mode, a limit and an action each (R337). -/
theorem exec_cwait {p : Instr × Nat × Nat} (hc : s.cur = some c) (hi : c.ins = .cwaitBatch o)
    (hp : p ∈ [(Instr.cwaitBatch o, 0, 65536), (.cwaitTake, 1, 2 ^ 21), (.cwaitFree, 2, 2 ^ 21)]) :
    ∃ k, exec p.1 s = .next (s.cwait c o p.2.1 p.2.2 k) := by
  have ho : c.opCwait = o := by rw [Cur.opCwait, hi]
  simp only [List.mem_cons, List.not_mem_nil, or_false] at hp
  rcases hp with rfl | rfl | rfl
  · exact ⟨_, State.run_cur hc _⟩
  · exact ho ▸ ⟨_, State.run_cur hc _⟩
  · exact ho ▸ ⟨_, State.run_cur hc _⟩

include h

theorem State.cwait_inactive (hm : s.act c o.g = 0) : s.cwait c o mode lim k = s.retire c { swap := true } := State.queue_inactive h hm _ _

/-- A value of another mode, or out of its range, faults (R337). -/
theorem State.cwait_reserved (hm : s.act c o.g ≠ 0) (ha : (s.uval c o.a).toNat / 2 ^ 62 ≠ mode ∨ lim ≤ (s.uval c o.a).toNat % 2 ^ 62) :
    s.cwait c o mode lim k = s.takeFault c (faultOf 14 1) := by
  refine (State.queue_active h hm _ _).trans (if_pos ?_)
  simpa only [Bool.or_eq_true, decide_eq_true_eq] using ha

theorem State.cwait_acts (hm : s.act c o.g ≠ 0) (hmode : (s.uval c o.a).toNat / 2 ^ 62 = mode) (hlim : (s.uval c o.a).toNat % 2 ^ 62 < lim) :
    s.cwait c o mode lim k = k (s.act c o.g) ((s.uval c o.a).toNat % lim) := by
  refine (State.queue_active h hm _ _).trans (if_neg ?_)
  simpa only [Bool.or_eq_true, decide_eq_true_eq, not_or, not_not, not_le] using And.intro hmode hlim

end Cwait

/-- What a wait for a sealed batch finds (R336, R337): copies under way, no failure, or the failure of its earliest failing copy. -/
def State.batchFound (s : State) (c : Cur) (o : OpDA) (n : Nat) (b : Batch) : State :=
  if 0 < b.left then s.hold c (.batch n)
  else match b.fail with
    | none => s.status c o.d (s.act c o.g) 0
    | some f =>
      let u := s.setCrew c.core c.slot { s.cw c with batches := (s.cw c).batches.filter (fun x => x.no ≠ n || !x.sealed_) }
      if b.peerFail then u.status c o.d (s.act c o.g) 3 else u.takeFault c { f.2 with lanes := 0, detail := n + 2 ^ 16 }

section Modes
variable {o : OpDA} {s : State} {c : Cur} (h : s.QueueReady c .any o.g [srcUse o.a, .s o.d.toNat] [o.a]) (hm : s.act c o.g ≠ 0) {a : Nat}
  (ha : (s.uval c o.a).toNat = a)
include h hm ha

/-- A wait for a batch goes by how far its number is ahead of the last sealed one (R337). -/
theorem exec_cwaitBatch_active (hlim : a < 65536) {ahead : Nat} (hd : (a + 65536 - (s.cw c).lastBatch.toNat) % 65536 = ahead) :
    exec (.cwaitBatch o) s = .next (if 1 ≤ ahead ∧ ahead ≤ 32767 then s.status c o.d (s.act c o.g) 2
      else if ahead = 32768 then s.status c o.d (s.act c o.g) 0
      else match (s.cw c).batches.find? (fun b => b.no = a && b.sealed_) with
        | none => s.status c o.d (s.act c o.g) 0
        | some b => s.batchFound c o a b) := by
  have hnum : (BitVec.ofNat 16 (a % 65536) - (s.cw c).lastBatch).toNat = ahead := by
    have := (s.cw c).lastBatch.isLt
    rw [BitVec.toNat_sub, BitVec.toNat_ofNat, ← hd]
    omega
  change execCwaitBatch o s = _
  rw [execCwaitBatch, State.run_cur h.1.1, State.cwait_acts h _ hm (by omega) (by omega), ha]
  dsimp only
  rw [hnum, Nat.mod_eq_of_lt hlim]
  simp only [Bool.and_eq_true, decide_eq_true_eq]
  rfl

variable (hi : c.ins = .cwaitBatch o) {u : State} {r : Ring} (hlim : a % 2 ^ 62 < 2 ^ 21) (hr : s.RingIs c (a % 2 ^ 62) u r)
include hi hlim hr

/-- A take waits for a filled slot, and gives the slot at TAKE (R332, R337). -/
theorem exec_cwaitTake_active (hmode : a / 2 ^ 62 = 1) :
    exec .cwaitTake s = .next (if r.filled = 0 then
        ((u.setTag (s.cw c).group (a % 2 ^ 62)).setTag (s.cw c).group (a % 2 ^ 62 + 8)).hold c (.ringTake (a % 2 ^ 62))
      else (u.setRing (s.cw c).group (a % 2 ^ 62) r.takeOne).status c o.d (s.act c o.g) (r.take + 64 * r.tph)) := by
  have ho : c.opCwait = o := by rw [Cur.opCwait, hi]
  have hoff : a % 2 ^ 21 = a % 2 ^ 62 := by omega
  change execCwaitTake s = _
  rw [execCwaitTake, State.run_cur h.1.1, ho, State.cwait_acts h _ hm (by omega) (by omega), ha, hoff, State.withRing_is hr, hr.cw]
  rfl

/-- A release counts one slot more as free, or answers 2 where no reader holds one (R332, R337). -/
theorem exec_cwaitFree_active (hmode : a / 2 ^ 62 = 2) :
    exec .cwaitFree s = .next (if r.held = 0 then
        ((u.setTag (s.cw c).group (a % 2 ^ 62)).setTag (s.cw c).group (a % 2 ^ 62 + 8)).status c o.d (s.act c o.g) 2
      else (u.setRing (s.cw c).group (a % 2 ^ 62) { r with free := r.free + 1 }).status c o.d (s.act c o.g) 0) := by
  have ho : c.opCwait = o := by rw [Cur.opCwait, hi]
  have hoff : a % 2 ^ 21 = a % 2 ^ 62 := by omega
  change execCwaitFree s = _
  rw [execCwaitFree, State.run_cur h.1.1, ho, State.cwait_acts h _ hm (by omega) (by omega), ha, hoff, State.withRing_is hr, hr.cw]
  rfl

end Modes

/-- Readers hold no slot exactly when all are free, in flight or filled (R331). -/
theorem Ring.held_eq_zero (r : Ring) : r.held = 0 ↔ r.nslot ≤ r.free + r.infl + r.filled := by
  unfold Ring.held
  omega

section Found
variable {o : OpDA} {s : State} {c : Cur} {n : Nat} {b : Batch}

theorem State.batchFound_waits (hl : 0 < b.left) : s.batchFound c o n b = s.hold c (.batch n) := if_pos hl

theorem State.batchFound_completed (hl : b.left = 0) (hf : b.fail = none) : s.batchFound c o n b = s.status c o.d (s.act c o.g) 0 := by
  rw [State.batchFound, if_neg (by omega), hf]

theorem State.batchFound_failed {f : Nat × FaultInfo} (hl : b.left = 0) (hf : b.fail = some f) :
    let u := s.setCrew c.core c.slot { s.cw c with batches := (s.cw c).batches.filter (fun x => x.no ≠ n || !x.sealed_) }
    s.batchFound c o n b = if b.peerFail then u.status c o.d (s.act c o.g) 3 else u.takeFault c { f.2 with lanes := 0, detail := n + 2 ^ 16 } := by
  intro u
  rw [State.batchFound, if_neg (by omega), hf]

end Found

end Sys2Proof.Machine
end

/-! RPUT and NOTIFY (R333, R339, R340, R401): what they wait for, what they send, and the statement of the batches, rings and messages. -/

section
namespace Sys2Proof.Machine

/-- The word of every poisoned byte, and no other word, is named as poisoned (R260, R333). -/
theorem mem_badWords {va i : Nat} {bs : MarkBytes} :
    i ∈ badWords va bs ↔ ∃ j x, bs[j]? = some x ∧ x.2 = true ∧ (va % 8 + j) / 8 = i := by
  simp only [badWords, List.mem_filter, List.mem_range, List.any_eq_true, Bool.and_eq_true, decide_eq_true_eq, Prod.exists,
    List.mem_zipIdx_iff_getElem?]
  constructor
  · rintro ⟨-, x, y, j, hx, hy, hi⟩
    exact ⟨j, x, y, hx, hy, hi⟩
  · rintro ⟨j, x, y, hx, hy, hi⟩
    have hj : j < bs.length := (List.getElem?_eq_some_iff.1 hx).1
    exact ⟨by omega, x, y, j, hx, hy, hi⟩

/-- An irreversible queue instruction ends with its status in sD, and moves the restart point behind it (R42, R339). -/
def State.sent (s : State) (c : Cur) (d : BitVec 5) (m : BitVec 32) (st : Nat) : State :=
  s.putU c false d m (BitVec.ofNat 64 st) { swap := true, restart := true }

/-- The request of an RPUT to a peer (R339). -/
def State.rputRequest (s : State) (c : Cur) (id B p : Nat) (bs : MarkBytes) : PeerReq :=
  { id := id, peer := p, core := c.core, slot := c.slot, lid := s.crewLid c.core c.slot, addr := B, data := bs.map Prod.fst, vaddr := B
    pois := badWords B bs, regaddr := ((s.cw c).fibre (lowestLane c.lanes)).restart.toNat }

/-- What an RPUT does with its source once nothing holds it back: it reads, and sends what it read as one request of ACK_SY (R339, R401). -/
def State.rputReads (s : State) (c : Cur) (o : OpCp) (A B n p : Nat) : State :=
  let b := s.copyRead c A n
  match b.2 with
  | .error f => if f.cause = 0 then s.hold c (.homes ((cutsBy 65536 A n).filterMap (fun p => match s.placeAt c .load p.1 p.2 with
      | .ok (.mem l _ _) => some (l / 65536)
      | _ => none))) else b.1.takeFault c f
  | .ok bs =>
    (({ b.1.newId.2 with peerOut := b.1.newId.2.peerOut ++ [s.rputRequest c b.1.newId.1 B p bs] } : State).modCrew c.core c.slot
      (fun w => { w with ackSy := w.ackSy + 1 })).sent c o.d (s.act c o.g) 0

/-- When the wait of a fragment for a peer began: now, where it does not wait for one (R339). -/
def State.peerSince (s : State) (c : Cur) : Nat :=
  match ((s.cw c).fibre (lowestLane c.lanes)).wait with
  | .peer _ t => t
  | _ => s.timeNs

/-- What an RPUT of `n` readable bytes to a peer of the device does: by the peer's state, the room of ACK_SY, and what its reads wait for
(R333, R339, R401). -/
def State.rputTo (s : State) (c : Cur) (o : OpCp) (A B n p : Nat) : State :=
  if s.peerState p = 2 || (s.peerState p = 1 && decide (s.peerSince c + peerLimit ≤ s.timeNs)) then s.sent c o.d (s.act c o.g) 3
  else if s.peerState p = 1 then s.hold c (.peer p (s.peerSince c))
  else if 4095 ≤ (s.cw c).ackSy then s.hold c (.counters 0 0 1)
  else match s.rputWaits c with
    | some x => s.hold c x
    | none => s.rputReads c o A B n p

/-- The checks of an RPUT with a sound control word: its peer, then the first fault of the range that it reads (R339). -/
def State.rputFor (s : State) (c : Cur) (o : OpCp) (A B n p : Nat) (fault : Option FaultInfo) : State :=
  if (Tab.find s.peers p).isNone then s.takeFault c { cause := 2, sub := 6, addr := B }
  else match fault with
    | some f => s.takeFault c f
    | none => s.rputTo c o A B n p

section Peer
variable {s : State} {c : Cur} {o : OpCp} {A B n p : Nat}

theorem State.rputFor_unknown (h : Tab.find s.peers p = none) (fault : Option FaultInfo) :
    s.rputFor c o A B n p fault = s.takeFault c { cause := 2, sub := 6, addr := B } := if_pos (Option.isNone_iff_eq_none.2 h)

theorem State.rputFor_known (h : Tab.find s.peers p ≠ none) : s.rputFor c o A B n p none = s.rputTo c o A B n p :=
  if_neg (by rwa [Option.isNone_iff_eq_none])

theorem State.rputTo_down (h : s.peerState p = 2) : s.rputTo c o A B n p = s.sent c o.d (s.act c o.g) 3 := if_pos (by simp [h])

/-- A peer that is not there now is waited for, from the first issue on (R339). -/
theorem State.rputTo_recovering (h : s.peerState p = 1) (hw : ((s.cw c).fibre (lowestLane c.lanes)).wait = .none) :
    s.rputTo c o A B n p = s.hold c (.peer p s.timeNs) := by
  have hsince : s.peerSince c = s.timeNs := by rw [State.peerSince, hw]
  rw [State.rputTo, hsince, if_neg (by simp [h, peerLimit]), if_pos h]

variable (h : s.peerState p = 0)
include h

theorem State.rputTo_full (hfull : 4095 ≤ (s.cw c).ackSy) : s.rputTo c o A B n p = s.hold c (.counters 0 0 1) := by
  rw [State.rputTo, if_neg (by simp [h]), if_neg (by simp [h]), if_pos hfull]

variable (hroom : (s.cw c).ackSy < 4095)
include hroom

theorem State.rputTo_waits {x : Wait} (hx : s.rputWaits c = some x) : s.rputTo c o A B n p = s.hold c x := by
  rw [State.rputTo, if_neg (by simp [h]), if_neg (by simp [h]), if_neg (Nat.not_le.2 hroom), hx]

theorem State.rputTo_sends {b : State} {bs : MarkBytes} (hx : s.rputWaits c = none) (hb : s.copyRead c A n = (b, .ok bs)) :
    s.rputTo c o A B n p = (({ b.newId.2 with peerOut := b.peerOut ++ [s.rputRequest c b.nextId B p bs] } : State).modCrew c.core c.slot
      (fun w => { w with ackSy := w.ackSy + 1 })).sent c o.d (s.act c o.g) 0 := by
  rw [State.rputTo, if_neg (by simp [h]), if_neg (by simp [h]), if_neg (Nat.not_le.2 hroom), hx]
  dsimp only
  rw [State.rputReads, hb]
  rfl

end Peer

section Rput
variable {o : OpCp} {s : State} {c : Cur} (h : s.QueueReady c .any o.g (cpUses o) (cpSrcs o))
include h

theorem exec_rput_inactive (hm : s.act c o.g = 0) : exec (.rput o) s = .next (s.retire c { swap := true, restart := true }) :=
  (State.run_cur h.1.1 _).trans (congrArg _ (State.queue_inactive h hm _ _))

variable (hm : s.act c o.g ≠ 0) {A B C : Nat} (hv : s.opVals c o = (A, B, C))
include hm hv

/-- An RPUT goes by its control word (R339). -/
theorem exec_rput_active : exec (.rput o) s = .next (match remoteControl C with
    | none => s.takeFault c (faultOf 14 1)
    | some x => s.rputFor c o A B x.1 x.2 (s.rangeFault c A x.1)) := by
  change execRput o s = _
  rw [execRput, State.run_cur h.1.1, State.queue_active h hm, hv]
  -- the two checks stay unknowns while the branches are compared: they count in their numerals where they are unfolded
  obtain ⟨control, hcontrol⟩ : ∃ f, remoteControl = f := ⟨_, rfl⟩
  obtain ⟨fault, hfault⟩ : ∃ f, s.rangeFault c = f := ⟨_, rfl⟩
  rw [hcontrol, hfault]
  rfl

theorem exec_rput_reserved (hC : C % 2 ^ 24 = 0 ∨ C / 2 ^ 24 % 256 ≠ 0 ∨ 2 ^ 44 ≤ C) : exec (.rput o) s = .next (s.takeFault c (faultOf 14 1)) := by
  rw [exec_rput_active h hm hv, remoteControl_malformed hC]

/-- An RPUT with a sound control word (R339). -/
theorem exec_rput_sound {n p : Nat} (hr : remoteControl C = some (n, p)) : exec (.rput o) s = .next (s.rputFor c o A B n p (s.rangeFault c A n)) := by
  rw [exec_rput_active h hm hv, hr]

end Rput

section Notify
variable {o : OpDU} {s : State} {c : Cur} (h : s.QueueReady c .any o.g [srcUse o.a, srcUse o.b, .s o.d.toNat] [o.a, o.b])
include h

theorem exec_notify_inactive (hm : s.act c o.g = 0) : exec (.notify o) s = .next (s.retire c { swap := true, restart := true }) :=
  (State.run_cur h.1.1 _).trans (congrArg _ (State.queue_inactive h hm _ _))

/-- A NOTIFY to a queue of its context leaves one record in the device, and counts it in ACK_SY (R340, R401). -/
theorem exec_notify_active (hm : s.act c o.g ≠ 0) {b : Nat} (hb : (s.uval c o.b).toNat = b) :
    exec (.notify o) s = .next (if b / 64 % 4 ≠ 0 ∨ 2 ^ 24 ≤ b then s.takeFault c (faultOf 14 1)
      else if (Tab.get s.eqs ({} : EQueue) (b % 64)).en = false ∨ (Tab.get s.eqs ({} : EQueue) (b % 64)).ctx ≠ s.crewCtx c.core c.slot then
        s.takeFault c (faultOf 2 6)
      else if 4095 ≤ (s.cw c).ackSy then s.hold c (.counters 0 0 1)
      else (({ s with evout := s.evout ++ [{ queue := b % 64, kind := 2, ctx := s.crewCtx c.core c.slot, data := (s.uval c o.a).toNat
                                             info := b / 256 % 65536 + c.core * 2 ^ 16 + c.slot % 32 * 2 ^ 27, crew := some (c.core, c.slot)
                                             node := some (s.crewLid c.core c.slot) }] } : State).modCrew c.core c.slot
        (fun w => { w with ackSy := w.ackSy + 1 })).sent c o.d (s.act c o.g) 0) := by
  change execNotify o s = _
  rw [execNotify, State.run_cur h.1.1, State.queue_active h hm, hb]
  simp only [Bool.or_eq_true, decide_eq_true_eq, Bool.not_eq_true']
  rfl

end Notify

/-- Settles O48, instruction by instruction: each one's checks in their order, and then what it does. -/
theorem batchesRingsAndMessages : Obligations.BatchesRingsAndMessages := by
  unfold Obligations.BatchesRingsAndMessages
  refine ⟨fun o s c h => ?sealing, fun o s c hi h => ?waiting, fun o s c h => ?putting, fun o s c h => ?notifying⟩
  case sealing =>
    refine ⟨fun hm => ⟨_, exec_sealBatch_inactive h hm, s.retire_swap_done c⟩, fun hm hfull => ?full, fun hm hroom => ?room⟩
    case full => rw [exec_sealBatch_active h hm, if_pos hfull]
    case room =>
      rw [exec_sealBatch_active h hm, if_neg (Nat.not_le.2 hroom)]
      refine ⟨_, _, s.renumbered c, _, rfl, State.putU_swap _ c _ _ _, rfl, ?_, fun b hb => mem_sealBatches_other hb,
        fun b hb hn => sealed_of_mem_sealBatches hb hn, s.renumbered_same c⟩
      rw [State.lastBatch_renumbered]
  case waiting =>
    have hstatus : ∀ (i : Instr) (u : State) (st : Nat), exec i s = .next (u.status c o.d (s.act c o.g) st) →
        ∃ t, exec i s = .next t ∧ u.StatusDone t c o.d (BitVec.ofNat 64 st) := fun i u st hx => ⟨_, hx, u.putU_swap c _ _ _⟩
    refine ⟨fun i hmem hm => ?inactive, fun p hp hm ha => ?reserved, fun hm ha => ?batch, fun u r hm hlim hr => ?ring⟩
    case inactive =>
      obtain ⟨p, hp, rfl⟩ : ∃ p ∈ [(Instr.cwaitBatch o, 0, 65536), (.cwaitTake, 1, 2 ^ 21), (.cwaitFree, 2, 2 ^ 21)], p.1 = i := by
        simpa [eq_comm] using hmem
      obtain ⟨k, hk⟩ := exec_cwait h.1.1 hi hp
      exact ⟨_, hk.trans (congrArg _ (State.cwait_inactive h k hm)), s.retire_swap_done c⟩
    case reserved =>
      obtain ⟨k, hk⟩ := exec_cwait h.1.1 hi hp
      exact hk.trans (congrArg _ (State.cwait_reserved h k hm ha))
    case batch =>
      have hact := exec_cwaitBatch_active h hm rfl ha rfl
      refine ⟨fun h1 h2 => hstatus _ _ _ (hact.trans (congrArg _ (if_pos ⟨h1, h2⟩))), fun hhalf => hstatus _ _ _ ?opposite, fun hback => ?behind⟩
      case opposite => exact hact.trans (congrArg _ ((if_neg (by omega)).trans (if_pos hhalf)))
      case behind =>
        rw [if_neg (by omega), if_neg (by omega)] at hact
        refine ⟨fun hnone => hstatus _ _ _ ?gone, fun b hb => ?found⟩
        case gone =>
          have hfind : (s.cw c).batches.find? (fun b => b.no = (s.uval c o.a).toNat && b.sealed_) = none :=
            List.find?_eq_none.2 fun b hb => by simpa using hnone b hb
          rw [hact, hfind]
        case found =>
          rw [hb] at hact
          refine ⟨fun hl => hact.trans (congrArg _ (State.batchFound_waits hl)),
            fun hl hf => hstatus _ _ _ (hact.trans (congrArg _ (State.batchFound_completed hl hf))), fun f hl hf => ?_⟩
          have hfail := hact.trans (congrArg _ (State.batchFound_failed hl hf))
          exact ⟨fun hp => hstatus _ _ _ (hfail.trans (congrArg _ (if_pos hp))), fun hp => hfail.trans (congrArg _ (if_neg (ne_true_of_eq_false hp)))⟩
    case ring =>
      have htake := exec_cwaitTake_active h hm rfl hi hlim hr
      have hfree := exec_cwaitFree_active h hm rfl hi hlim hr
      refine ⟨fun hmode hf => (htake hmode).trans (congrArg _ (if_pos hf)), fun hmode hf => hstatus _ _ _ ((htake hmode).trans (congrArg _ (if_neg hf))),
        fun hmode hf => hstatus _ _ _ ((hfree hmode).trans (congrArg _ (if_pos (r.held_eq_zero.2 hf)))), fun hmode hf => hstatus _ _ _ ?_⟩
      exact (hfree hmode).trans (congrArg _ (if_neg fun h0 => absurd (r.held_eq_zero.1 h0) (Nat.not_le.2 hf)))
  case putting =>
    refine ⟨exec_rput_inactive h, fun hm => exec_rput_reserved h hm rfl, fun hm hlen hres hC => ?_⟩
    have hr := remoteControl_sound hlen hres hC
    rw [exec_rput_sound h hm rfl hr]
    refine ⟨fun hp => congrArg _ (State.rputFor_unknown hp _), fun hp hf => ?_⟩
    rw [hf, State.rputFor_known hp]
    refine ⟨fun h2 => congrArg _ (State.rputTo_down h2), fun h0 hfull => congrArg _ (State.rputTo_full h0 hfull),
      fun h1 hw => congrArg _ (State.rputTo_recovering h1 hw), fun x h0 hroom hx => congrArg _ (State.rputTo_waits h0 hroom hx),
      fun b bs h0 hroom hx hb => ⟨badWords _ bs, fun i => mem_badWords, congrArg _ (State.rputTo_sends h0 hroom hx hb)⟩⟩
  case notifying =>
    refine ⟨exec_notify_inactive h, fun hm hb => ?reserved, fun hm hres hb => ⟨fun hq => ?foreign, fun hen hx hfull => ?full, fun hen hx hroom => ?sends⟩⟩
    all_goals rw [exec_notify_active h hm rfl]
    case reserved => rw [if_pos hb]
    all_goals rw [if_neg (by omega)]
    case foreign => rw [if_pos hq]
    all_goals rw [if_neg (by simp [hen, hx])]
    case full => rw [if_pos hfull]
    case sends => rw [if_neg (Nat.not_le.2 hroom)]; rfl

end Sys2Proof.Machine
end
